-- ==== Sys2Proof/Word.lean ====
section
/-! DEFINITION. The word types of IFEFEN and their plainest arithmetic (R7, R8). -/

namespace Sys2Proof

/-- A 32-bit register or instruction word. -/
abbrev Word := BitVec 32

/-- A 64-bit memory word. -/
abbrev Word64 := BitVec 64

/-- A byte of memory or of a stream. -/
abbrev Byte := BitVec 8

/-- A data word with its eight check bits, data in bits 63 to 0 (R155). -/
abbrev Word72 := BitVec 72

/-- A row word as the silicon holds it: 74 physical columns (R42). -/
abbrev Word74 := BitVec 74

end Sys2Proof
end

