-- ==== Sys2Proof/Syntax.lean ====
section
/-! DEFINITION. The commands of IFEFEN: one constructor per row of spec/opcode_table.json, with the operands its rule
makes it depend on, and the types of those operands. The table gives the rows no operand bits (log entry 2). -/

namespace Sys2Proof

/-- The response codes of R339, in the order of their encodings 0 to 7. -/
inductive Resp where
  | ok | decerr | slverr | timeout | collided | narrow | denied | poison
  deriving DecidableEq, Repr

/-- What a scalar instruction word carries beside its opcode (R203). -/
structure SOp where
  cond : Nat
  mode : Nat
  sub : Nat
  addr : Nat
  deriving DecidableEq, Repr

/-- What the two words of an array instruction carry beside the opcode (R101, R102). -/
structure AOp where
  cond : Nat
  form : Nat
  sub : Nat
  wm1 : Nat
  sgn : Nat
  sat : Nat
  fm : Nat
  aux : Nat
  fd : Nat
  fb : Nat
  fa : Nat
  deriving DecidableEq, Repr

/-- Where the Dispatcher takes an interrupt (R225): at an instruction boundary, in the wait of FXFER, FSYNC or WFI, or at
the safe point after `8 * k` bit-steps of the array instruction with opcode `opc` and operands `o` that is executing; or at
that safe point of the suspended instruction, which the RETI now executing resumes. -/
inductive IntPoint where
  | boundary
  | wait
  | safePoint (opc : Nat) (o : AOp) (k : Nat)
  | resumed (k : Nat)
  deriving DecidableEq, Repr

/-- A request packet (R335 to R337, R352): source port, identity, tag, address, length in bytes, data words with their byte
enables, the data words that arrive with an uncorrectable error, and how many of its flits were corrected. -/
structure Packet where
  src : Nat
  ini : Nat
  tag : Nat
  addr : Nat
  len : Nat
  data : List (Word64 × BitVec 8)
  bad : List Nat
  ce : Nat
  deriving DecidableEq, Repr


/-- What a host request to a BAR asks for (R36, R450). -/
inductive BarKind where
  | read | write | atomic
  deriving DecidableEq, Repr


/-- How a message reaches the Guard's van (R545): from the CAN FD bus, with the offset of its identifier from BASE (1 REQUEST,
3 SEAL_AUTH, 4 SEALED) and its bytes; or through the sealed-command window, which holds the message. -/
inductive VanSrc where
  | can (kind : Nat) (data : List Byte)
  | window
  deriving DecidableEq, Repr


/-- A Coupler frame as it arrives (R554): SEQ and ARG of its header and its payload words. Its TYPE is the command's. -/
structure CplFrame where
  seq : Nat
  arg : Word
  ws : List Word64
  deriving DecidableEq, Repr


/-- The commands. Each constructor is the row of the same name (in capitals) of spec/opcode_table.json; its rule is in the
comment. -/
inductive Instr where
  | registerWrite (ini addr : Nat) (v : Word)  -- R9
  | bitStep (d : Word64) (firmware : Bool)  -- R55
  | sbOrDelivered  -- R78
  | sbFirstDelivered  -- R78
  | sbCountDelivered  -- R78
  | ackTimeout (p : Nat)  -- R85
  | prowMapWrite (n : Nat) (v : Word) (executing : Bool)  -- R48
  | mapApplied (n : Nat)  -- R48
  | arrBscntLoRead  -- R93
  | flog (o : AOp)  -- R115
  | fadd (o : AOp)  -- R116
  | fsub (o : AOp)  -- R116
  | fcmp (o : AOp)  -- R118
  | fmul (o : AOp)  -- R121
  | fminmax (o : AOp)  -- R119
  | fshn (o : AOp)  -- R122
  | flut (o : AOp)  -- R123
  | fpop (o : AOp)  -- R124
  | fsel (o : AOp)  -- R120
  | fmaskMFromF (o : AOp)  -- R125
  | fmaskMAndF (o : AOp)  -- R125
  | fmaskMOrF (o : AOp)  -- R125
  | fmaskMFromBit (o : AOp)  -- R125
  | fmaskMAndBit (o : AOp)  -- R125
  | fmaskMSet (o : AOp)  -- R125
  | fmaskMFromValid (o : AOp)  -- R125
  | fmaskFFromBit (o : AOp)  -- R125
  | fmaskFClear (o : AOp)  -- R125
  | fmaskFInvert (o : AOp)  -- R125
  | fmaskBitFromF (o : AOp)  -- R125
  | fmaskCClear (o : AOp)  -- R125
  | fmaskCSet (o : AOp)  -- R125
  | abandon (o : AOp)  -- R152
  | fbit (o : AOp)  -- R126
  | fxfer (o : AOp)  -- R128
  | fsync (o : AOp)  -- R139
  | transferStart  -- R135
  | transferDone (met : List Nat)  -- R143
  | trvAbort  -- R141
  | colmonClr (p : Nat)  -- R163
  | colSubWrite (p : Nat) (v : Word) (executing : Bool)  -- R165
  | substitutionApplied (p slot : Nat)  -- R167
  | mirrorCtlWrite (v : Word)  -- R183
  | bistStart (v : Word)  -- R185
  | bistAbort  -- R185
  | bistDone (bad : List Nat) (other : Bool)  -- R186
  | cleanWindowEnd (m slow : Nat)  -- R190
  | estStale  -- R191
  | estFallback  -- R191
  | forcedWindow  -- R193
  | substituteColumn (p : Nat)  -- R169
  | platformFailure (p reason stops : Nat)  -- R173
  | stripRepeat (p : Nat)  -- R179
  | stripRetry (display strip frame : Nat)  -- R20
  | rotationStep (row : Nat)  -- R187
  | nop (o : SOp)  -- R210
  | ld (o : SOp)  -- R204
  | st (o : SOp)  -- R206
  | lui (o : SOp)  -- R210
  | add (o : SOp)  -- R211
  | sub (o : SOp)  -- R211
  | and (o : SOp)  -- R210
  | or (o : SOp)  -- R210
  | xor (o : SOp)  -- R210
  | shf (o : SOp)  -- R211
  | cmp (o : SOp)  -- R211
  | tst (o : SOp)  -- R210
  | ix (o : SOp)  -- R210
  | bnk (o : SOp)  -- R210
  | mul (o : SOp)  -- R233
  | mulDone  -- R233
  | div (o : SOp)  -- R236
  | divDone  -- R237
  | movxRead (o : SOp)  -- R202
  | movxWrite (o : SOp)  -- R202
  | stkPush (o : SOp)  -- R216
  | stkPop (o : SOp)  -- R216
  | br (o : SOp)  -- R212
  | call (o : SOp)  -- R217
  | ret (o : SOp)  -- R217
  | reti (o : SOp)  -- R224
  | svc (o : SOp)  -- R221
  | brk (o : SOp)  -- R221
  | fps (o : SOp)  -- R241
  | fph (o : SOp)  -- R241
  | ei (o : SOp)  -- R226
  | di (o : SOp)  -- R226
  | wfi (o : SOp)  -- R226
  | fence (o : SOp)  -- R229
  | dsflush (o : SOp)  -- R216
  | loadResponse (extResp : Resp) (ext : Word64)  -- R230
  | storeError (addr : Nat) (r : Resp)  -- R231
  | interruptEntry (pt : IntPoint)  -- R225
  | coproc (u : Nat) (o : SOp)  -- R245
  | coprocResponse (r : Resp) (result : Word) (flags : Option (BitVec 4))  -- R246
  | customerInstruction (opc : Nat) (o : SOp)  -- R248
  | mnop  -- R255
  | malu (d a b op : Nat) (f : Bool)  -- R257
  | malui (d a op : Nat) (f : Bool) (imm : BitVec 14)  -- R257
  | mlui (d : Nat) (imm : BitVec 16)  -- R255
  | mrd (d a sz : Nat) (off : BitVec 16)  -- R258
  | mwr (r a sz : Nat) (off : BitVec 16)  -- R258
  | mbr (mc tgt : Nat)  -- R259
  | mcall (tgt : Nat)  -- R260
  | mret (fin : Bool)  -- R254
  | mloop (d tgt : Nat)  -- R255
  | poll  -- R264
  | bsd (r : Nat)  -- R262
  | bsa (r : Nat)  -- R262
  | bsi (r inc : Nat)  -- R262
  | bsw  -- R255
  | watchdog  -- R267
  | csWdataAccess (write : Bool) (v : Word)  -- R274
  | decEntryWrite (v : Word)  -- R252
  | scratchpadRead (src tag : Nat)  -- R285
  | scratchpadWrite (src tag : Nat) (met : List Nat)  -- R286
  | memFillStart  -- R288
  | fillDone  -- R288
  | bucketLeak (k : Nat)  -- R293
  | bktCfgWrite (k : Nat) (v : Word)  -- R294
  | logStatAck (k : Nat) (v : Word)  -- R292
  | remapWrite (b e : Nat) (v : Word)  -- R299
  | scrubAccess (k : Nat) (writtenSince : Bool)  -- R301
  | secureRegionWrite (src tag : Nat)  -- R304
  | tamperTrigger (t : Nat)  -- R307
  | secureWipeDone  -- R309
  | lcReqWrite (v : Word)  -- R312
  | ddrCfgWrite (v : Word)  -- R315
  | ddrTrainingEnd (ok cached : Bool)  -- R315
  | mr4Poll (overtemp : Bool)  -- R320
  | lpddr5Write (src tag : Nat)  -- R318
  | lpddr5Read (src tag : Nat)  -- R317
  | rd (p : Packet)  -- R336
  | wr (p : Packet) (rivals : List (Nat × Nat × Word))  -- R336
  | cpreq (p : Packet)  -- R337
  | rdrsp (src tag : Nat) (ext : Resp) (data : List Byte) (poison : Bool) (ce : Nat)  -- R336
  | wrrsp (src tag : Nat) (ext : Resp) (ce : Nat)  -- R336
  | cprsp (r : Resp) (result : Word) (flags : Option (BitVec 4))  -- R337
  | corruptHeader (port src tag : Nat) (response : Bool)  -- R352
  | reqTimeout (src tag : Nat)  -- R346
  | timetableSlot (slot : Nat)  -- R348
  | guarStarved (ini : Nat)  -- R348
  | ttCtlSwitch  -- R349
  | ttEntryWrite (table slot : Nat) (v : Word)  -- R349
  | jtFenceWrite (hi : Bool) (v : Word)  -- R353
  | fenceDone (port : Nat)  -- R353
  | fwCommit  -- R354
  | fwCommitApplied  -- R354
  | jtTmoWrite (p : Nat) (v : Word)  -- R361
  | frameStart (n vc time : Nat)  -- R367
  | longPacket (n vc dt : Nat) (px : List Nat) (hdrBad crcBad full : Bool)  -- R366
  | frameEnd (n vc ps : Nat)  -- R370
  | camFrame (n vc : Nat)  -- R370
  | camLost (n vc : Nat)  -- R373
  | camStreamCfgWrite (n vc : Nat) (v : Word)  -- R375
  | tsLoRead (n vc : Nat)  -- R374
  | passThroughRelease (n vc need strip : Nat)  -- R376
  | vsyncStart (p ps : Nat) (katFail : Bool)  -- R390
  | pipeCommitWrite (p : Nat)  -- R387
  | pipeCancel (p : Nat)  -- R388
  | pipeCtlWrite (p : Nat) (v : Word)  -- R391
  | linkUp (p : Nat)  -- R391
  | linkFail (p : Nat)  -- R391
  | hpdLost (p : Nat)  -- R393
  | irqHpd (p : Nat)  -- R393
  | lineFetch (p y : Nat)  -- R394
  | pipeUnderrun (p y layer : Nat)  -- R395
  | lockSrcLost (p : Nat)  -- R397
  | pipeLockWrite (p : Nat) (v : Word)  -- R396
  | lutDataAccess (p : Nat) (write : Bool) (v : Word)  -- R402
  | sampleTick (a b : Nat)  -- R406
  | ttGoWrite  -- R410
  | ttPstatFaultWrite (v : Word)  -- R409
  | telltaleState  -- R411
  | latchSelWrite (v : Word)  -- R413
  | rcommitWrite (p : Nat)  -- R414
  | rcommitCancel (p : Nat)  -- R414
  | regionVerdict (p r : Nat)  -- R430
  | heartbeatVerdict (p : Nat)  -- R428
  | safeCtlClr  -- R437
  | safeCtlForce (on : Bool)  -- R437
  | pipeStopped (p : Nat)  -- R437
  | frozenWrite (p : Nat)  -- R429
  | faultWrite (p hi : Nat) (v : Word)  -- R436
  | evtStatAck (v : Word)  -- R443
  | dispCfgWrite (ini p : Nat) (v : Word)  -- R416
  | hostBar0Request (kind : BarKind) (off : Nat) (dws : List (Word × BitVec 4)) (rivals : List (Nat × Nat × Word)) (tmo : List Nat)  -- R450
  | hostBar2Request (kind : BarKind) (off len : Nat) (data : List (Word64 × BitVec 8)) (met : List Nat) (rivals : List (Nat × Nat × Word)) (tmo : List Nat)  -- R38
  | safetyPortRead (h : Word) (cut : Option Nat)  -- R456
  | safetyPortWrite (h d c : Word) (cut : Option Nat) (rivals : List (Nat × Nat × Word))  -- R456
  | safetyPortNoAccess (h : Word) (cut : Option Nat)  -- R455
  | spLateDone (timeout : Bool) (rivals : List (Nat × Nat × Word))  -- R457
  | mbDoorbell (m : Nat) (rivals : List Nat)  -- R462
  | mbAbort (m : Nat)  -- R466
  | responsePost (m : Nat) (v : Word)  -- R463
  | mbTimeout (m : Nat)  -- R464
  | icPendWrite (k : Nat) (v : Word)  -- R474
  | icUnpendWrite (k : Nat) (v : Word)  -- R476
  | icAck (n : Nat)  -- R475
  | icEoi (n : Nat)  -- R475
  | icHeoi (v : Nat)  -- R478
  | msixTableWrite (dw : Nat) (v : Word)  -- R479
  | ident (m : Nat)  -- R495
  | power (m : Nat)  -- R496
  | sceneLoad (m : Nat) (host : Option (List Byte)) (lut : Option (List Byte))  -- R497
  | layerSet (m : Nat)  -- R500
  | layerCommit (m : Nat)  -- R501
  | telltaleMapSlot (m : Nat)  -- R502
  | telltaleMapCommit (m : Nat)  -- R502
  | telltaleMapArm (m : Nat)  -- R502
  | regionRefLoad (m : Nat) (host : Option (List Byte))  -- R504
  | kernelLoad (m : Nat) (host : Option (List Byte))  -- R505
  | kernelUnload (m : Nat)  -- R505
  | kernelRun (m : Nat) (host : Option (List Byte)) (stored : Bool)  -- R507
  | cameraConfig (m : Nat)  -- R508
  | displayConfig (m : Nat) (host : Option (List Byte)) (bad : Option Nat)  -- R509
  | displayConfigRetrain (m : Nat)  -- R509
  | updateBegin (m : Nat)  -- R511
  | updateChunk (m : Nat) (host : Option (List Byte))  -- R511
  | updateVerify (m : Nat)  -- R511
  | updateActivate (m : Nat)  -- R511
  | updateConfirm (m : Nat)  -- R511
  | telemetryRead (m : Nat) (mv : List Nat)  -- R512
  | logRead (m : Nat)  -- R514
  | couplerPair (m : Nat)  -- R516
  | couplerUnpair (m : Nat)  -- R516
  | couplerSweep (m : Nat)  -- R574
  | takeoverGrant (m : Nat)  -- R570
  | takeoverRevoke (m : Nat)  -- R571
  | metroRead (m : Nat)  -- R515
  | fabricLoad (m : Nat) (host : Option (List Byte)) (bad : Bool)  -- R519
  | fabricRelease (m : Nat)  -- R520
  | fabricReadback (m : Nat) (w : List Word)  -- R521
  | decodeSet (m : Nat)  -- R522
  | microcodeWrite (m : Nat) (host : Option (List Byte))  -- R523
  | undefinedCommand (m : Nat)  -- R486
  | gvTick  -- R530
  | gvPulse (b : Bool)  -- R528
  | sealJumperAccepted (fitted : Bool)  -- R537
  | gvPowerOn (st cf : Nat)  -- R536
  | status  -- R543
  | quiet  -- R525
  | gvIdent (src : VanSrc)  -- R544
  | log (src : VanSrc)  -- R544
  | tripReset (src : VanSrc)  -- R544
  | challenge (src : VanSrc)  -- R538
  | sealAuth (src : VanSrc)  -- R538
  | sealAuthDone  -- R538
  | sealTimeout  -- R539
  | setK (src : VanSrc)  -- R540
  | setDisc (src : VanSrc)  -- R540
  | setTotal (src : VanSrc)  -- R540
  | setTime (src : VanSrc)  -- R540
  | setCan (src : VanSrc)  -- R540
  | keyPart (src : VanSrc)  -- R540
  | keyCommit (src : VanSrc)  -- R540
  | close (src : VanSrc)  -- R539
  | bridgeFrame  -- R546
  | bridgeLinkLost  -- R546
  | smcSend (v : Word)  -- R547
  | hello (p : Nat) (f : CplFrame)  -- R558
  | heartbeat (p : Nat) (f : CplFrame)  -- R560
  | req (p : Nat) (f : CplFrame) (rivals : List (Nat × Nat × Word))  -- R572
  | rsp (p : Nat) (f : CplFrame)  -- R572
  | mirror (p : Nat) (f : CplFrame)  -- R566
  | commit (p : Nat) (f : CplFrame)  -- R566
  | probe (p : Nat) (f : CplFrame) (ta : Nat)  -- R574
  | echo (p : Nat) (f : CplFrame) (rtt : Nat)  -- R574
  | probeTimeout  -- R574
  | mark (p : Nat) (f : CplFrame) (ps : Nat)  -- R573
  | align (p : Nat) (f : CplFrame)  -- R574
  | cplFrameError (p : Nat) (ofGen : Bool)  -- R555
  | laneLock (p : Nat)  -- R557
  | laneLockLost (p : Nat)  -- R557
  | lostRetrain (p : Nat)  -- R557
  | helloSend (p : Nat)  -- R557
  | heartbeatSend (p : Nat)  -- R560
  | heartbeatLimit (p : Nat)  -- R560
  | cplTxSend (v : Word)  -- R565
  | cplGenSent  -- R565
  | cplCtlWrite (v : Word)  -- R557
  | cplSyncWrite (v : Word)  -- R573
  | paccGo (v : Word)  -- R572
  | fabStartFlash  -- R588
  | fabStartStream  -- R589
  | fabCfgDataWrite (v : Word)  -- R589
  | fabLoaded (bad : Bool)  -- R588
  | fabRelease  -- R590
  | releaseStage  -- R590
  | fabHold  -- R591
  | fabProgram  -- R592
  | fabFlashDone (fail : Bool)  -- R592
  | fabSnap (w : List Word)  -- R598
  | fabRbDataRead  -- R598
  | fabUsrWrite (ini n : Nat) (v : Word)  -- R596
  | fabUser (line : Nat)  -- R597
  | pwrGo  -- R612
  | wakeN  -- R607
  | couplerWake (p : Nat)  -- R607
  | pcieWake  -- R607
  | wakePattern  -- R608
  | resetNAssert  -- R614
  | resetNRelease  -- R610
  | vddAonRise  -- R603
  | railInRange  -- R604
  | railTimeout  -- R605
  | railDownStep  -- R604
  | railsDischarged  -- R606
  | dischargeLate  -- R606
  | coldStart  -- R618
  | warmStart  -- R618
  | tempSensorUpdate (t : List (BitVec 16))  -- R652
  | thermtrip  -- R654
  | vmon  -- R643
  | undefinedOpcode (opc : Nat) (o : SOp)  -- R210
  | telltaleMapReservedSub (m : Nat)  -- R502
  | vanFormatError (src : VanSrc)  -- R544
  | peerAccessTimeout  -- R572
  | configurationRequest (write memEn busMaster msixEn funcMask : Bool)  -- R471
  | pwrStable  -- R615
  | vddCoreFall  -- R654
  deriving DecidableEq, Repr

end Sys2Proof
end

