-- ==== Sys2Proof/Decode.lean ====
section
/-! DEFINITION. Reading a command from a word numbered as spec/opcode_table.json numbers it. The table gives no row any bits,
so no word spells a command (log entry 2). -/

namespace Sys2Proof

/-- The command that `nbits` bits spell by the table: none, since no row of the table has bits. -/
def decodeTableWord (_nbits _w : Nat) : Option Instr := none

end Sys2Proof
end

