-- ==== Sys2Proof/Config.lean ====
section
/-! DEFINITION. What the spec leaves open: constants with no body, so that no proof can use a value of them. Each is
applied to a counter that State holds (`State.free`), and to the place the open value belongs to, so that two uses are two
values (log entry 3). -/

namespace Sys2Proof

/-- A free 32-bit value (log entry 3). -/
opaque Config.freeWord : Nat → Nat → BitVec 32

/-- A free 64-bit value. -/
opaque Config.freeWord64 : Nat → Nat → BitVec 64

/-- The contents of a memory word that was never written, with its check bits (R68, R287). -/
opaque Config.freeWord72 : Nat → Nat → BitVec 72

/-- The contents of a row word that was never written, all 74 columns (R52, R68). -/
opaque Config.freeRow : Nat → Nat → BitVec 74

/-- The value the PEs of a row are left with where the spec says unspecified: 64 columns and two Sidings columns. -/
opaque Config.freeLanes : Nat → Nat → BitVec 66

/-- Which uncorrectable check pattern a poisoned word is stored with (R67): an index into the patterns there are. -/
opaque Config.freePoison : Nat → Nat → Nat

/-- A free choice. -/
opaque Config.freeBool : Nat → Nat → Bool

/-- The ROM's decode entry of an index below 0xE0: its START field (R251: ROM value). -/
opaque Config.romStart : Nat → BitVec 14

/-- The ROM's microwords (R249: fixed per stepping, not given). -/
opaque Config.romWord : Nat → BitVec 32

/-- The ROM version that MCVER.ROMVER reports (R279: stepping). -/
opaque Config.romVersion : Bool → BitVec 8

/-- SHA-256 (FIPS 180-4, cited by R419, R538, R541 and R585 and not restated by the spec). -/
opaque Config.sha256 : List (BitVec 8) → List (BitVec 8)

/-- ECDSA P-256 with SHA-256 (FIPS 186-4): whether a signature (last) of a message verifies under a public key given as its
coordinates X and Y (R419, R538). -/
opaque Config.ecdsaOk : List (BitVec 8) → List (BitVec 8) → List (BitVec 8) → List (BitVec 8) → Bool

/-- The verification key, X and Y, that boot ROM derives from fuses into key slot `k` of the secure region (R306, R419). -/
opaque Config.slotKey : Nat → List (BitVec 8) × List (BitVec 8)

/-- AES-GCM under key slot `k` (R276, R278): the plaintext of a body, from the additional data, the initialisation vector, the
ciphertext and the tag; none where the tag does not verify. -/
opaque Config.gcmOpen : Nat → List (BitVec 8) → List (BitVec 8) → List (BitVec 8) → List (BitVec 8) → Option (List (BitVec 8))

/-- A word of the boot ROM (R616), by its number. -/
opaque Config.bootRom : Nat → BitVec 32

/-- The 64-bit part serial (R538, R548). -/
opaque Config.partSerial : BitVec 64

end Sys2Proof
end

