-- ==== Sys2Proof/Machine/Code.lean ====
section
/-! DEFINITION. The (72,64) code of R155 and R156, used by row words, the scratchpad, the secure region, LPDDR5 and the
flits of the Junction tree. -/

namespace Sys2Proof.Machine

/-- How many of the bits 7 to 0 of `n` are set. -/
def weight8 (n : Nat) : Nat := (List.range 8).countP fun j => n.testBit j

/-- The syndrome columns H(0) to H(63) (R155). -/
def hcols : List Nat :=
  ((List.range 256).filter fun n => weight8 n == 3) ++ ((List.range 256).filter fun n => weight8 n == 5).take 8

/-- The data bits that check bit `j` covers, as a mask. -/
def checkMask (j : Nat) : Nat :=
  (List.range 64).foldl (fun m c => if (hcols.getD c 0).testBit j then m + 2 ^ c else m) 0

/-- The eight masks. -/
def checkMasks : List Nat := (List.range 8).map checkMask

/-- XOR of the low 64 bits of a number. -/
def parity64 (n : Nat) : Bool :=
  let a := n ^^^ n >>> 32
  let b := a ^^^ a >>> 16
  let c := b ^^^ b >>> 8
  let d := c ^^^ c >>> 4
  let e := d ^^^ d >>> 2
  (e ^^^ e >>> 1).testBit 0

/-- The check bits of a data word (R155). -/
def checkBits (d : Word64) : BitVec 8 :=
  BitVec.ofNat 8 (checkMasks.foldr (fun m acc => 2 * acc + (if parity64 (d.toNat &&& m) then 1 else 0)) 0)

/-- A data word with its check bits. -/
def encode72 (d : Word64) : Word72 := checkBits d ++ d

/-- What a read of a word finds (R156): nothing; one bit corrected at a position 0 to 71, with the syndrome; or an
uncorrectable word. -/
inductive CodeStat where
  | clean
  | fixed (pos syn : Nat)
  | bad (syn : Nat)
  deriving DecidableEq, Repr

/-- The data of a word as the code gives it, and what it found (R156). -/
def decode72 (w : Word72) : Word64 × CodeStat :=
  let d : Word64 := w.extractLsb' 0 64
  let syn := (w.extractLsb' 64 8 ^^^ checkBits d).toNat
  if syn = 0 then (d, .clean)
  else if weight8 syn = 1 then (d, .fixed (64 + (List.range 8).findIdx fun j => syn.testBit j) syn)
  else match hcols.findIdx? (· == syn) with
    | some c => (d ^^^ BitVec.ofNat 64 (2 ^ c), .fixed c syn)
    | none => (d, .bad syn)

/-- The syndromes that are uncorrectable. -/
def badSyndromes : List Nat :=
  (List.range 256).filter fun n => n != 0 && weight8 n != 1 && !hcols.contains n

/-- A data word stored so that every later read reports it as uncorrectable (R67): which of the uncorrectable syndromes it
shows is a free value (log entry 4). -/
def poison72 (d : Word64) (pick : Nat) : Word72 :=
  (checkBits d ^^^ BitVec.ofNat 8 (badSyndromes.getD (pick % badSyndromes.length) 3)) ++ d

end Sys2Proof.Machine
end

