-- ==== Sys2Proof/Machine/RegMap.lean ====
section
/-! DEFINITION. The register map: for every register of the spec's register maps its place, its reset value and which bits
of it are RW, W1C, W1S, RC and WO (R9), and which keep their value through RESET_N (entry U, R12). Registers are keyed by
their Dispatcher address minus 0x0200_0000, which is the BAR0 offset for the blocks of R34 (R32). -/

namespace Sys2Proof

/-- One row of a register map: registers at `base + s1 * i + s2 * j` for `i < n1`, `j < n2`. -/
structure RegRow where
  base : Nat
  n1 : Nat
  s1 : Nat
  n2 : Nat
  s2 : Nat
  reset : Nat
  rw : Nat
  w1c : Nat
  w1s : Nat
  rc : Nat
  wo : Nat
  keep : Nat
  deriving DecidableEq, Repr

/-- Whether the row describes the register at key `a`. -/
def RegRow.hit (r : RegRow) (a : Nat) : Bool :=
  decide (r.base ≤ a) &&
    (decide ((a - r.base) / r.s1 < r.n1) &&
      (decide ((a - r.base) % r.s1 % r.s2 = 0) && decide ((a - r.base) % r.s1 / r.s2 < r.n2)))

/-! Names of the registers: the key of the first one of each kind. -/

abbrev Reg.CHIP_ID : Nat := 0xF000
abbrev Reg.STEPPING : Nat := 0xF004
abbrev Reg.BAR2_BANK : Nat := 0xF00
abbrev Reg.ARR_CTL : Nat := 0x10000
abbrev Reg.ARR_EDGE : Nat := 0x10004
abbrev Reg.ARR_STATUS : Nat := 0x10008
abbrev Reg.SB_IRQ_CFG : Nat := 0x1000C
abbrev Reg.ARR_ERR_STAT : Nat := 0x10010
abbrev Reg.ARR_ERR_ADDR : Nat := 0x10014
abbrev Reg.ARR_BSCNT_LO : Nat := 0x10018
abbrev Reg.ARR_BSCNT_HI : Nat := 0x1001C
abbrev Reg.PROW_MAP : Nat := 0x10020
abbrev Reg.SB_OR : Nat := 0x3800
abbrev Reg.SB_COUNT : Nat := 0x3804
abbrev Reg.SB_FIRST : Nat := 0x3808
abbrev Reg.SB_SEQ : Nat := 0x380C
abbrev Reg.TRV_CTL : Nat := 0x10100
abbrev Reg.TRV_STATUS : Nat := 0x10104
abbrev Reg.TRV_DONE : Nat := 0x10108
abbrev Reg.TRV_IRQ_EN : Nat := 0x1010C
abbrev Reg.TRV_ERR : Nat := 0x10110
abbrev Reg.TRV_ERR_WORD : Nat := 0x10114
abbrev Reg.REP_STATUS : Nat := 0x10200
abbrev Reg.COLMON_CFG : Nat := 0x10204
abbrev Reg.COLMON : Nat := 0x10420
abbrev Reg.COL_SUB : Nat := 0x10300
abbrev Reg.MIRROR_CTL : Nat := 0x10208
abbrev Reg.BIST_CTL : Nat := 0x1020C
abbrev Reg.BIST_STATUS : Nat := 0x10210
abbrev Reg.EST_RATE : Nat := 0x10214
abbrev Reg.EST_STATUS : Nat := 0x10218
abbrev Reg.EST_AGE : Nat := 0x1021C
abbrev Reg.TLM_ARRAY : Nat := 0x4100
abbrev Reg.TLM_PACE : Nat := 0x4104
abbrev Reg.CS_CTL : Nat := 0x11000
abbrev Reg.CS_ERR : Nat := 0x11004
abbrev Reg.CS_WADDR : Nat := 0x11008
abbrev Reg.CS_WDATA : Nat := 0x1100C
abbrev Reg.DEC_IDX : Nat := 0x11010
abbrev Reg.DEC_ENTRY : Nat := 0x11014
abbrev Reg.WDOG_CNT : Nat := 0x11018
abbrev Reg.MCVER : Nat := 0xF008
abbrev Reg.MEM_STAT : Nat := 0x8000
abbrev Reg.MEM_FILL : Nat := 0x8004
abbrev Reg.COLL_CNT : Nat := 0x8008
abbrev Reg.COLL_REC_LO : Nat := 0x800C
abbrev Reg.COLL_REC_HI : Nat := 0x8010
abbrev Reg.STORE_ERR_CNT : Nat := 0x8014
abbrev Reg.TAMPER_STAT : Nat := 0x8018
abbrev Reg.LC_STATE : Nat := 0x801C
abbrev Reg.LC_REQ : Nat := 0x8020
abbrev Reg.DDR_CFG : Nat := 0x8024
abbrev Reg.DDR_STAT : Nat := 0x8028
abbrev Reg.CE_COUNT : Nat := 0x8100
abbrev Reg.UE_COUNT : Nat := 0x8104
abbrev Reg.BKT_CFG : Nat := 0x8108
abbrev Reg.BKT_STAT : Nat := 0x810C
abbrev Reg.LOG_STAT : Nat := 0x8110
abbrev Reg.UE_LO : Nat := 0x8114
abbrev Reg.UE_HI : Nat := 0x8118
abbrev Reg.SCRUB_CFG : Nat := 0x811C
abbrev Reg.LOG_LO : Nat := 0x8120
abbrev Reg.LOG_HI : Nat := 0x8124
abbrev Reg.SCRUB_DDR_LO : Nat := 0x802C
abbrev Reg.SCRUB_DDR_HI : Nat := 0x8030
abbrev Reg.REMAP : Nat := 0x8300
abbrev Reg.FW_CTL : Nat := 0x9000
abbrev Reg.FW_DENY_CNT : Nat := 0x9004
abbrev Reg.FW_DENY_LO : Nat := 0x9008
abbrev Reg.FW_DENY_HI : Nat := 0x900C
abbrev Reg.WIN_BASE_LO : Nat := 0x9100
abbrev Reg.WIN_BASE_HI : Nat := 0x9104
abbrev Reg.WIN_LIMIT_LO : Nat := 0x9108
abbrev Reg.WIN_LIMIT_HI : Nat := 0x910C
abbrev Reg.WIN_MASK : Nat := 0x9110
abbrev Reg.WIN_CTL : Nat := 0x9114
abbrev Reg.TT_CTL : Nat := 0x12000
abbrev Reg.TT_SPILL : Nat := 0x12004
abbrev Reg.JT_FENCE : Nat := 0x12008
abbrev Reg.JT_FENCED : Nat := 0x12010
abbrev Reg.JT_ERR_STAT : Nat := 0x12018
abbrev Reg.JT_ERR_ADDR_LO : Nat := 0x1201C
abbrev Reg.JT_ERR_ADDR_HI : Nat := 0x12020
abbrev Reg.JT_LINK_CE : Nat := 0x12024
abbrev Reg.JT_LATE_CNT : Nat := 0x12028
abbrev Reg.JT_TMO_CNT : Nat := 0x1202C
abbrev Reg.JT_STARVE : Nat := 0x12030
abbrev Reg.JT_TMO : Nat := 0x120C0
abbrev Reg.TT : Nat := 0x12400
abbrev Reg.CAM_CTL : Nat := 0x14000
abbrev Reg.CAM_STAT : Nat := 0x14004
abbrev Reg.CAM_ERRCNT : Nat := 0x14008
abbrev Reg.STR_CFG : Nat := 0x14010
abbrev Reg.STR_GEOM : Nat := 0x14014
abbrev Reg.STR_STRIDE : Nat := 0x14018
abbrev Reg.STR_BUF : Nat := 0x1401C
abbrev Reg.STR_SSTAT : Nat := 0x1402C
abbrev Reg.STR_LINE_IRQ : Nat := 0x14030
abbrev Reg.STR_TS_LO : Nat := 0x14034
abbrev Reg.STR_TS_HI : Nat := 0x14038
abbrev Reg.STR_TMO : Nat := 0x1403C
abbrev Reg.PIPE_CTL : Nat := 0x14800
abbrev Reg.PIPE_STAT : Nat := 0x14804
abbrev Reg.PIPE_ERR : Nat := 0x14808
abbrev Reg.UNDERRUN_CNT : Nat := 0x1480C
abbrev Reg.HTIM0 : Nat := 0x14810
abbrev Reg.HTIM1 : Nat := 0x14814
abbrev Reg.VTIM0 : Nat := 0x14818
abbrev Reg.VTIM1 : Nat := 0x1481C
abbrev Reg.PCLK : Nat := 0x14820
abbrev Reg.PIPE_COMMIT : Nat := 0x14824
abbrev Reg.PIPE_LOCK : Nat := 0x14828
abbrev Reg.LOCK_STAT : Nat := 0x1482C
abbrev Reg.PIPE_BG : Nat := 0x14830
abbrev Reg.FMT_CTL : Nat := 0x14834
abbrev Reg.LUT_IDX : Nat := 0x14838
abbrev Reg.LUT_DATA : Nat := 0x1483C
abbrev Reg.LAY_BASE_LO : Nat := 0x14900
abbrev Reg.LAY_BASE_HI : Nat := 0x14904
abbrev Reg.LAY_STRIDE : Nat := 0x14908
abbrev Reg.LAY_SIZE : Nat := 0x1490C
abbrev Reg.LAY_POS : Nat := 0x14910
abbrev Reg.LAY_LFMT : Nat := 0x14914
abbrev Reg.SAFE_STAT : Nat := 0x3000
abbrev Reg.SAFE_CTL : Nat := 0x3004
abbrev Reg.TT_TICK : Nat := 0x3008
abbrev Reg.TT_SRC : Nat := 0x300C
abbrev Reg.TT_CMD : Nat := 0x3010
abbrev Reg.TT_GO : Nat := 0x3030
abbrev Reg.TT_PSTAT : Nat := 0x3034
abbrev Reg.TT_PCFG : Nat := 0x3040
abbrev Reg.TT_STATE : Nat := 0x3080
abbrev Reg.EVT_STAT : Nat := 0x3038
abbrev Reg.EVT_LO : Nat := 0x3100
abbrev Reg.EVT_HI : Nat := 0x3104
abbrev Reg.LATCH_SEL : Nat := 0x3180
abbrev Reg.LATCH_NUM : Nat := 0x3184
abbrev Reg.LATCH_TT : Nat := 0x3188
abbrev Reg.LATCH_TOTAL : Nat := 0x31A8
abbrev Reg.LATCH_TRIP1 : Nat := 0x31AC
abbrev Reg.LATCH_TRIP2 : Nat := 0x31B0
abbrev Reg.LATCH_GV : Nat := 0x31B4
abbrev Reg.DISP_CFG : Nat := 0x3200
abbrev Reg.DISP_STAT : Nat := 0x3204
abbrev Reg.DISP_RCOMMIT : Nat := 0x3208
abbrev Reg.CERT_FRAME : Nat := 0x320C
abbrev Reg.CERT_EN : Nat := 0x3210
abbrev Reg.CERT_PASS : Nat := 0x3218
abbrev Reg.CERT_FLAGS : Nat := 0x3220
abbrev Reg.CERT_CRC : Nat := 0x3224
abbrev Reg.FAULT : Nat := 0x3228
abbrev Reg.STAMP : Nat := 0x3230
abbrev Reg.SHADOW : Nat := 0x3238
abbrev Reg.FAILED : Nat := 0x3240
abbrev Reg.REG : Nat := 0x3400
abbrev Reg.CMD0 : Nat := 0
abbrev Reg.CMDW : Nat := 4
abbrev Reg.RSP0 : Nat := 0x40
abbrev Reg.RSPW : Nat := 0x44
abbrev Reg.MB_DOORBELL : Nat := 0x80
abbrev Reg.MB_ABORT : Nat := 0x84
abbrev Reg.MB_STAT : Nat := 0x88
abbrev Reg.MB_TMO : Nat := 0x8C
abbrev Reg.TO_STAT : Nat := 0x400
abbrev Reg.TO_ERR_STAT : Nat := 0x404
abbrev Reg.TO_ERR_ADDR : Nat := 0x408
abbrev Reg.TO_ERR_CNT : Nat := 0x40C
abbrev Reg.TO_COLL_CNT : Nat := 0x410
abbrev Reg.SP_STAT : Nat := 0x414
abbrev Reg.SP_ERR_CNT : Nat := 0x418
abbrev Reg.SP_LATE_STAT : Nat := 0x41C
abbrev Reg.SP_LATE_DATA : Nat := 0x420
abbrev Reg.IC_PEND : Nat := 0x1000
abbrev Reg.IC_UNPEND : Nat := 0x1010
abbrev Reg.IC_ACTIVE : Nat := 0x1020
abbrev Reg.IC_EN : Nat := 0x1030
abbrev Reg.IC_LOST : Nat := 0x1040
abbrev Reg.IC_HPEND : Nat := 0x1050
abbrev Reg.IC_PRIO : Nat := 0x1060
abbrev Reg.IC_TOP : Nat := 0x1080
abbrev Reg.IC_ACK : Nat := 0x1084
abbrev Reg.IC_EOI : Nat := 0x1088
abbrev Reg.IC_HEOI : Nat := 0x108C
abbrev Reg.IC_HINSVC : Nat := 0x1090
abbrev Reg.IC_ERR : Nat := 0x1098
abbrev Reg.IC_HROUTE : Nat := 0x1100
abbrev Reg.MSIX_TABLE : Nat := 0x1800
abbrev Reg.MSIX_PBA : Nat := 0x1C00
abbrev Reg.GV_STAT : Nat := 0x5000
abbrev Reg.GV_PULSE_LO : Nat := 0x5004
abbrev Reg.GV_PULSE_HI : Nat := 0x5008
abbrev Reg.GV_K : Nat := 0x500C
abbrev Reg.GV_TOTAL : Nat := 0x5010
abbrev Reg.GV_VALID : Nat := 0x501C
abbrev Reg.GV_SPEED : Nat := 0x5020
abbrev Reg.GV_TIME : Nat := 0x5024
abbrev Reg.GV_DIFF : Nat := 0x5028
abbrev Reg.GV_DISC : Nat := 0x502C
abbrev Reg.GV_FWID : Nat := 0x5030
abbrev Reg.GV_SERIAL : Nat := 0x5038
abbrev Reg.GV_LOG_STAT : Nat := 0x5040
abbrev Reg.GV_LOG_SEQ : Nat := 0x5044
abbrev Reg.GV_GEN : Nat := 0x5048
abbrev Reg.GV_SMC_DATA : Nat := 0x5200
abbrev Reg.GV_SMC_CTL : Nat := 0x5240
abbrev Reg.GV_SMC_STAT : Nat := 0x5244
abbrev Reg.GV_SMR_DATA : Nat := 0x5280
abbrev Reg.CPL_CTL : Nat := 0x6000
abbrev Reg.CPL_STAT : Nat := 0x6004
abbrev Reg.CPL_ALIVE : Nat := 0x6008
abbrev Reg.CPL_SYNC : Nat := 0x600C
abbrev Reg.CPL_PSTAT : Nat := 0x6010
abbrev Reg.CPL_PERR : Nat := 0x6014
abbrev Reg.CPL_TXGEN : Nat := 0x6040
abbrev Reg.CPL_TX_CTL : Nat := 0x6044
abbrev Reg.CPL_RXGEN : Nat := 0x6048
abbrev Reg.CPL_RX_STAT : Nat := 0x604C
abbrev Reg.CPL_DISCARD_CNT : Nat := 0x6050
abbrev Reg.CPL_HOPDLY : Nat := 0x6064
abbrev Reg.CPL_SWEEP_STAT : Nat := 0x6070
abbrev Reg.CPL_PACC_CTL : Nat := 0x6080
abbrev Reg.CPL_PACC_DATA : Nat := 0x6084
abbrev Reg.FAB_STAT : Nat := 0x7000
abbrev Reg.FAB_CTL : Nat := 0x7004
abbrev Reg.FAB_CFG_LEN : Nat := 0x7008
abbrev Reg.FAB_CFG_DATA : Nat := 0x700C
abbrev Reg.FAB_CRC : Nat := 0x7010
abbrev Reg.FAB_VERSION : Nat := 0x7014
abbrev Reg.FAB_FLASH_CTL : Nat := 0x7018
abbrev Reg.FAB_FLASH_STAT : Nat := 0x701C
abbrev Reg.FAB_FLASH_VER : Nat := 0x7020
abbrev Reg.FAB_FLASH_CRC : Nat := 0x7024
abbrev Reg.FAB_FLASH_CYC : Nat := 0x7028
abbrev Reg.FAB_RB_CTL : Nat := 0x7030
abbrev Reg.FAB_RB_IDX : Nat := 0x7034
abbrev Reg.FAB_RB_DATA : Nat := 0x7038
abbrev Reg.FAB_USR : Nat := 0x7100
abbrev Reg.FAB_UST : Nat := 0x7140
abbrev Reg.PWR_STAT : Nat := 0x2000
abbrev Reg.PWR_CTL : Nat := 0x2004
abbrev Reg.PWR_ERR : Nat := 0x2008
abbrev Reg.PWR_BOOT : Nat := 0x200C
abbrev Reg.PWR_BOOT_T : Nat := 0x2010
abbrev Reg.PWR_THERM : Nat := 0x2014

/-- The key that holds the copy in force of a register with a staged and an active copy (R71, R354, R387, R410, R414,
R445), or the applied value of one whose written value may be pending (R48, R167). -/
def Reg.act (a : Nat) : Nat := a + 0x100000

def regRows0_0 : List RegRow := [
  ⟨0xF00, 1, 0x10000, 1, 4, 0, 0x7FFFFF, 0, 0, 0, 0, 0⟩,  -- BAR2_BANK R35
  ⟨0, 4, 0x100, 1, 4, 0, 0xFFFFFFFF, 0, 0, 0, 0, 0⟩,  -- CMD0 R482
  ⟨4, 4, 0x100, 0xF, 4, 0, 0xFFFFFFFF, 0, 0, 0, 0, 0⟩,  -- CMDW R482
  ⟨0x40, 4, 0x100, 1, 4, 0, 0xFFFF7FFF, 0, 0, 0, 0, 0⟩,  -- RSP0 R482
  ⟨0x44, 4, 0x100, 0xF, 4, 0, 0xFFFFFFFF, 0, 0, 0, 0, 0⟩,  -- RSPW R482
  ⟨0x80, 4, 0x100, 1, 4, 0, 0, 0, 0, 0, 1, 0⟩,  -- MB_DOORBELL R482
  ⟨0x84, 4, 0x100, 1, 4, 0, 0, 0, 0, 0, 1, 0⟩,  -- MB_ABORT R482
  ⟨0x88, 4, 0x100, 1, 4, 0, 0, 0xC0, 0, 0, 0, 0⟩,  -- MB_STAT R482
  ⟨0x8C, 4, 0x100, 1, 4, 0x3E8, 0xFFFF, 0, 0, 0, 0, 0⟩,  -- MB_TMO R482
  ⟨0x400, 1, 0x10000, 1, 4, 0, 1, 0, 0, 0, 0, 0⟩,  -- TO_STAT R483
  ⟨0x404, 1, 0x10000, 1, 4, 0, 0, 0xC0000000, 0, 0, 0, 0⟩,  -- TO_ERR_STAT R483
  ⟨0x408, 1, 0x10000, 1, 4, 0, 0, 0, 0, 0, 0, 0⟩,  -- TO_ERR_ADDR R483
  ⟨0x40C, 1, 0x10000, 1, 4, 0, 0, 0, 0, 0xFFFFFFFF, 0, 0⟩,  -- TO_ERR_CNT R483
  ⟨0x410, 1, 0x10000, 1, 4, 0, 0, 0, 0, 0xFFFFFFFF, 0, 0⟩,  -- TO_COLL_CNT R483
  ⟨0x414, 1, 0x10000, 1, 4, 0, 0, 0xF, 0, 0, 0, 0⟩,  -- SP_STAT R483
  ⟨0x418, 1, 0x10000, 1, 4, 0, 0, 0, 0, 0xFFFFFFFF, 0, 0⟩   -- SP_ERR_CNT R483
  ]

def regRows0_1 : List RegRow := [
  ⟨0x41C, 1, 0x10000, 1, 4, 0, 0, 0x40000000, 0, 0, 0, 0⟩,  -- SP_LATE_STAT R483
  ⟨0x420, 1, 0x10000, 1, 4, 0, 0, 0, 0, 0, 0, 0⟩   -- SP_LATE_DATA R483
  ]

def regRows0 : List RegRow := regRows0_0 ++ regRows0_1

def regRows1_0 : List RegRow := [
  ⟨0x1000, 4, 4, 1, 4, 0, 0, 0, 0xFFFFFFFF, 0, 0, 0⟩,  -- IC_PEND R484
  ⟨0x1010, 4, 4, 1, 4, 0, 0, 0, 0, 0, 0xFFFFFFFF, 0⟩,  -- IC_UNPEND R484
  ⟨0x1020, 4, 4, 1, 4, 0, 0, 0, 0, 0, 0, 0⟩,  -- IC_ACTIVE R484
  ⟨0x1030, 4, 4, 1, 4, 0, 0xFFFFFFFF, 0, 0, 0, 0, 0⟩,  -- IC_EN R484
  ⟨0x1040, 4, 4, 1, 4, 0, 0, 0xFFFFFFFF, 0, 0, 0, 0⟩,  -- IC_LOST R484
  ⟨0x1050, 4, 4, 1, 4, 0, 0, 0xFFFFFFFF, 0, 0, 0, 0⟩,  -- IC_HPEND R484
  ⟨0x1060, 8, 4, 1, 4, 0xFFFFFFFF, 0xFFFFFFFF, 0, 0, 0, 0, 0⟩,  -- IC_PRIO R484
  ⟨0x1080, 1, 0x10000, 1, 4, 0, 0, 0, 0, 0, 0, 0⟩,  -- IC_TOP R484
  ⟨0x1084, 1, 0x10000, 1, 4, 0, 0, 0, 0, 0, 0x7F, 0⟩,  -- IC_ACK R484
  ⟨0x1088, 1, 0x10000, 1, 4, 0, 0, 0, 0, 0, 0x7F, 0⟩,  -- IC_EOI R484
  ⟨0x108C, 1, 0x10000, 1, 4, 0, 0, 0, 0, 0, 0x3F, 0⟩,  -- IC_HEOI R484
  ⟨0x1090, 2, 4, 1, 4, 0, 0, 0, 0, 0, 0, 0⟩,  -- IC_HINSVC R484
  ⟨0x1098, 1, 0x10000, 1, 4, 0, 0, 7, 0, 0, 0, 0⟩,  -- IC_ERR R484
  ⟨0x1100, 0x20, 4, 1, 4, 0, 0xBFBFBFBF, 0, 0, 0, 0, 0⟩,  -- IC_HROUTE R484
  ⟨0x1800, 0x40, 0x10, 3, 4, 0, 0xFFFFFFFF, 0, 0, 0, 0, 0⟩,  -- MSIX_TABLE R484 address and data
  ⟨0x180C, 0x40, 0x10, 1, 4, 1, 1, 0, 0, 0, 0, 0⟩   --  R479 mask bit
  ]

def regRows1_1 : List RegRow := [
  ⟨0x1C00, 2, 4, 1, 4, 0, 0, 0, 0, 0, 0, 0⟩   -- MSIX_PBA R484
  ]

def regRows1 : List RegRow := regRows1_0 ++ regRows1_1

def regRows2_0 : List RegRow := [
  ⟨0x2000, 1, 0x10000, 1, 4, 0x1000, 0, 0x20000, 0, 0, 0, 0⟩,  -- PWR_STAT R634
  ⟨0x2004, 1, 0x10000, 1, 4, 0, 0xF1C, 0, 0, 0, 1, 0⟩,  -- PWR_CTL R634
  ⟨0x2008, 1, 0x10000, 1, 4, 0, 0, 0x3F, 0, 0, 0, 0x33⟩,  -- PWR_ERR R634
  ⟨0x200C, 1, 0x10000, 1, 4, 0, 0, 0, 0, 0, 0, 0⟩,  -- PWR_BOOT R634
  ⟨0x2010, 1, 0x10000, 1, 4, 0, 0, 0, 0, 0, 0, 0⟩,  -- PWR_BOOT_T R634
  ⟨0x2014, 1, 0x10000, 1, 4, 0x398, 0xFFFF, 0, 0, 0, 0, 0⟩   -- PWR_THERM R634
  ]

def regRows2 : List RegRow := regRows2_0

def regRows3_0 : List RegRow := [
  ⟨0x3080, 2, 4, 1, 4, 0x11111111, 0, 0, 0, 0, 0, 0⟩,  -- TT_STATE 0 and 1 R442
  ⟨0x3800, 1, 0x10000, 1, 4, 0, 0, 0, 0, 0, 0, 0⟩,  -- SB_OR R96
  ⟨0x3804, 1, 0x10000, 1, 4, 0, 0, 0, 0, 0, 0, 0⟩,  -- SB_COUNT R97
  ⟨0x3808, 1, 0x10000, 1, 4, 0, 0, 0, 0, 0, 0, 0⟩,  -- SB_FIRST R98
  ⟨0x380C, 1, 0x10000, 1, 4, 0, 0, 0, 0, 0, 0, 0⟩,  -- SB_SEQ R99
  ⟨0x3000, 1, 0x10000, 1, 4, 0x80000001, 0, 0, 0, 0, 0, 0⟩,  -- SAFE_STAT R442
  ⟨0x3004, 1, 0x10000, 1, 4, 0, 2, 0, 0, 0, 1, 0⟩,  -- SAFE_CTL R442
  ⟨0x3008, 1, 0x10000, 1, 4, 0, 0, 0, 0, 0, 0, 0⟩,  -- TT_TICK R442
  ⟨0x300C, 1, 0x10000, 1, 4, 0xFFFF, 0xFFFF, 0, 0, 0, 0, 0⟩,  -- TT_SRC R442
  ⟨0x3010, 8, 4, 1, 4, 0, 0xFFFFFFFF, 0, 0, 0, 0, 0⟩,  -- TT_CMD R442
  ⟨0x3030, 1, 0x10000, 1, 4, 0, 0, 0, 0, 0, 1, 0⟩,  -- TT_GO R442
  ⟨0x3034, 1, 0x10000, 1, 4, 0, 0, 0xFFFF, 0, 0, 0, 0⟩,  -- TT_PSTAT R442
  ⟨0x3040, 0x10, 4, 1, 4, 0x10100A, 0xFFF3FF, 0, 0, 0, 0, 0⟩,  -- TT_PCFG R442
  ⟨0x3080, 8, 4, 1, 4, 0, 0, 0, 0, 0, 0, 0⟩,  -- TT_STATE R442
  ⟨0x3038, 1, 0x10000, 1, 4, 0, 0, 0x80000000, 0, 0, 0x1F0000, 0⟩,  -- EVT_STAT R443
  ⟨0x3100, 0x10, 8, 1, 4, 0, 0, 0, 0, 0, 0, 0⟩   -- EVT_LO R443
  ]

def regRows3_1 : List RegRow := [
  ⟨0x3104, 0x10, 8, 1, 4, 0, 0, 0, 0, 0, 0, 0⟩,  -- EVT_HI R443
  ⟨0x3180, 1, 0x10000, 1, 4, 0, 0x33, 0, 0, 0, 0, 0⟩,  -- LATCH_SEL R444
  ⟨0x3184, 1, 0x10000, 1, 4, 0, 0, 0, 0, 0, 0, 0⟩,  -- LATCH_NUM R444
  ⟨0x3188, 8, 4, 1, 4, 0, 0, 0, 0, 0, 0, 0⟩,  -- LATCH_TT R444
  ⟨0x31A8, 1, 0x10000, 1, 4, 0, 0, 0, 0, 0, 0, 0⟩,  -- LATCH_TOTAL R444
  ⟨0x31AC, 1, 0x10000, 1, 4, 0, 0, 0, 0, 0, 0, 0⟩,  -- LATCH_TRIP1 R444
  ⟨0x31B0, 1, 0x10000, 1, 4, 0, 0, 0, 0, 0, 0, 0⟩,  -- LATCH_TRIP2 R444
  ⟨0x31B4, 1, 0x10000, 1, 4, 0, 0, 0, 0, 0, 0, 0⟩,  -- LATCH_GV R444
  ⟨0x3200, 4, 0x80, 1, 4, 0x14, 0xFFF003D, 0, 0, 0, 0, 0⟩,  -- DISP_CFG R445
  ⟨0x3204, 4, 0x80, 1, 4, 0, 0, 0xA, 0, 0, 0, 0⟩,  -- DISP_STAT R445
  ⟨0x3208, 4, 0x80, 1, 4, 0, 0, 0, 1, 0, 2, 0⟩,  -- DISP_RCOMMIT R445
  ⟨0x320C, 4, 0x80, 1, 4, 0, 0, 0, 0, 0, 0, 0⟩,  -- CERT_FRAME R445
  ⟨0x3210, 4, 0x80, 2, 4, 0, 0, 0, 0, 0, 0, 0⟩,  -- CERT_EN R445
  ⟨0x3218, 4, 0x80, 2, 4, 0, 0, 0, 0, 0, 0, 0⟩,  -- CERT_PASS R445
  ⟨0x3220, 4, 0x80, 1, 4, 0, 0, 0, 0, 0, 0, 0⟩,  -- CERT_FLAGS R445
  ⟨0x3224, 4, 0x80, 1, 4, 0, 0, 0, 0, 0, 0, 0⟩   -- CERT_CRC R445
  ]

def regRows3_2 : List RegRow := [
  ⟨0x3228, 4, 0x80, 2, 4, 0, 0, 0xFFFFFFFF, 0, 0, 0, 0⟩,  -- FAULT R445
  ⟨0x3230, 4, 0x80, 2, 4, 0, 0, 0, 0, 0, 0, 0⟩,  -- STAMP R445
  ⟨0x3238, 4, 0x80, 2, 4, 0, 0, 0, 0, 0, 0, 0⟩,  -- SHADOW R445
  ⟨0x3240, 4, 0x80, 2, 4, 0, 0, 0, 0, 0, 0, 0⟩,  -- FAILED R445
  ⟨0x3400, 0x100, 4, 1, 4, 0, 0x80003FFF, 0, 0, 0, 0, 0⟩   -- REG R446
  ]

def regRows3 : List RegRow := regRows3_0 ++ regRows3_1 ++ regRows3_2

def regRows4_0 : List RegRow := [
  ⟨0x4100, 1, 0x10000, 1, 4, 0, 0, 0, 0, 0, 0, 0⟩,  -- TLM_ARRAY R196
  ⟨0x4104, 1, 0x10000, 1, 4, 0x352, 0, 0, 0, 0, 0, 0⟩   -- TLM_PACE R196
  ]

def regRows4 : List RegRow := regRows4_0

def regRows5_0 : List RegRow := [
  ⟨0x5000, 1, 0x10000, 1, 4, 0, 0, 0, 0, 0, 0, 0x7F00FFFF⟩,  -- GV_STAT R548
  ⟨0x5004, 1, 0x10000, 1, 4, 0, 0, 0, 0, 0, 0, 0xFFFFFFFF⟩,  -- GV_PULSE_LO R548
  ⟨0x5008, 1, 0x10000, 1, 4, 0, 0, 0, 0, 0, 0, 0xFFFF⟩,  -- GV_PULSE_HI R548
  ⟨0x500C, 1, 0x10000, 1, 4, 0, 0, 0, 0, 0, 0, 0xFFFF⟩,  -- GV_K R548
  ⟨0x5010, 3, 4, 1, 4, 0, 0, 0, 0, 0, 0, 0xFFFFFFFF⟩,  -- GV_TOTAL R548
  ⟨0x501C, 1, 0x10000, 1, 4, 0, 0, 0, 0, 0, 0, 7⟩,  -- GV_VALID R548
  ⟨0x5020, 1, 0x10000, 1, 4, 0, 0, 0, 0, 0, 0, 0xFFFF⟩,  -- GV_SPEED R548
  ⟨0x5024, 1, 0x10000, 1, 4, 0, 0, 0, 0, 0, 0, 0xFFFFFFFF⟩,  -- GV_TIME R548
  ⟨0x5028, 1, 0x10000, 1, 4, 0, 0, 0, 0, 0, 0, 0xFFFFFFFF⟩,  -- GV_DIFF R548
  ⟨0x502C, 1, 0x10000, 1, 4, 0, 0, 0, 0, 0, 0, 0xFFFFFF⟩,  -- GV_DISC R548
  ⟨0x5030, 2, 4, 1, 4, 0, 0, 0, 0, 0, 0, 0⟩,  -- GV_FWID R548
  ⟨0x5038, 2, 4, 1, 4, 0, 0, 0, 0, 0, 0, 0xFFFFFFFF⟩,  -- GV_SERIAL R548
  ⟨0x5040, 1, 0x10000, 1, 4, 0, 0, 0, 0, 0, 0, 0xFFFFFF⟩,  -- GV_LOG_STAT R548
  ⟨0x5044, 1, 0x10000, 1, 4, 0, 0, 0, 0, 0, 0, 0xFFFFFFFF⟩,  -- GV_LOG_SEQ R548
  ⟨0x5048, 1, 0x10000, 1, 4, 0, 0, 0, 0, 0, 0, 0xFFFF⟩,  -- GV_GEN R548
  ⟨0x5200, 0x10, 4, 1, 4, 0, 0xFFFFFFFF, 0, 0, 0, 0, 0⟩   -- GV_SMC_DATA R548
  ]

def regRows5_1 : List RegRow := [
  ⟨0x5240, 1, 0x10000, 1, 4, 0, 0x7F07, 0, 0, 0, 0x80000000, 0⟩,  -- GV_SMC_CTL R548
  ⟨0x5244, 1, 0x10000, 1, 4, 0, 0, 0x40000000, 0, 0, 0, 0⟩,  -- GV_SMC_STAT R548
  ⟨0x5280, 0x10, 4, 1, 4, 0, 0, 0, 0, 0, 0, 0⟩   -- GV_SMR_DATA R548
  ]

def regRows5 : List RegRow := regRows5_0 ++ regRows5_1

def regRows6_0 : List RegRow := [
  ⟨0x6000, 1, 0x10000, 1, 4, 0x30000000, 0xF00F0003, 0, 0, 0, 0, 0⟩,  -- CPL_CTL R575
  ⟨0x6004, 1, 0x10000, 1, 4, 0, 0, 0x180, 0, 0, 0, 0⟩,  -- CPL_STAT R575
  ⟨0x6008, 1, 0x10000, 1, 4, 0, 0xFFFFFFFF, 0, 0, 0, 0, 0⟩,  -- CPL_ALIVE R575
  ⟨0x600C, 1, 0x10000, 1, 4, 0x10000, 0xFF03F1, 0, 0, 0, 0, 0⟩,  -- CPL_SYNC R575
  ⟨0x6010, 2, 0x10, 1, 4, 0, 0, 0, 0, 0, 0, 0⟩,  -- CPL_PSTAT R575
  ⟨0x6014, 2, 0x10, 1, 4, 0, 0, 0, 0, 0xFFFFFFFF, 0, 0⟩,  -- CPL_PERR R575
  ⟨0x6040, 1, 0x10000, 1, 4, 0, 0xFFFFFFFF, 0, 0, 0, 0, 0⟩,  -- CPL_TXGEN R575
  ⟨0x6044, 1, 0x10000, 1, 4, 0, 0x1FFF, 0, 0, 0, 0x10000, 0⟩,  -- CPL_TX_CTL R575
  ⟨0x6048, 1, 0x10000, 1, 4, 0, 0, 0, 0, 0, 0, 0⟩,  -- CPL_RXGEN R575
  ⟨0x604C, 1, 0x10000, 1, 4, 0, 0, 0, 0, 0, 0, 0⟩,  -- CPL_RX_STAT R575
  ⟨0x6050, 1, 0x10000, 1, 4, 0, 0, 0, 0, 0xFFFFFFFF, 0, 0⟩,  -- CPL_DISCARD_CNT R575
  ⟨0x6064, 3, 4, 1, 4, 0, 0, 0, 0, 0, 0, 0⟩,  -- CPL_HOPDLY R575
  ⟨0x6070, 1, 0x10000, 1, 4, 0, 0, 0, 0, 0, 0, 0⟩,  -- CPL_SWEEP_STAT R575
  ⟨0x6080, 1, 0x10000, 1, 4, 0, 0x11003FFF, 0x40000000, 0, 0, 0x20000000, 0⟩,  -- CPL_PACC_CTL R575
  ⟨0x6084, 1, 0x10000, 1, 4, 0, 0xFFFFFFFF, 0, 0, 0, 0, 0⟩   -- CPL_PACC_DATA R575
  ]

def regRows6 : List RegRow := regRows6_0

def regRows7_0 : List RegRow := [
  ⟨0x7000, 1, 0x10000, 1, 4, 0, 0, 0x70, 0, 0, 0, 0⟩,  -- FAB_STAT R599
  ⟨0x7004, 1, 0x10000, 1, 4, 0, 0x10, 0, 0, 0, 0xF, 0⟩,  -- FAB_CTL R599
  ⟨0x7008, 1, 0x10000, 1, 4, 0, 0x3FFFF, 0, 0, 0, 0, 0⟩,  -- FAB_CFG_LEN R599
  ⟨0x700C, 1, 0x10000, 1, 4, 0, 0, 0, 0, 0, 0xFFFFFFFF, 0⟩,  -- FAB_CFG_DATA R599
  ⟨0x7010, 1, 0x10000, 1, 4, 0, 0, 0, 0, 0, 0, 0⟩,  -- FAB_CRC R599
  ⟨0x7014, 1, 0x10000, 1, 4, 0, 0, 0, 0, 0, 0, 0⟩,  -- FAB_VERSION R599
  ⟨0x7018, 1, 0x10000, 1, 4, 0, 0, 0x200, 0, 0, 1, 0⟩,  -- FAB_FLASH_CTL R599
  ⟨0x701C, 1, 0x10000, 1, 4, 0, 0, 0, 0, 0, 0, 7⟩,  -- FAB_FLASH_STAT R599
  ⟨0x7020, 1, 0x10000, 1, 4, 0, 0, 0, 0, 0, 0, 0xFFFFFFFF⟩,  -- FAB_FLASH_VER R599
  ⟨0x7024, 1, 0x10000, 1, 4, 0, 0, 0, 0, 0, 0, 0xFFFFFFFF⟩,  -- FAB_FLASH_CRC R599
  ⟨0x7028, 1, 0x10000, 1, 4, 0, 0, 0, 0, 0, 0, 0xFFFF⟩,  -- FAB_FLASH_CYC R599
  ⟨0x7030, 1, 0x10000, 1, 4, 0, 0, 0, 0, 0, 1, 0⟩,  -- FAB_RB_CTL R599
  ⟨0x7034, 1, 0x10000, 1, 4, 0, 0x1FFF, 0, 0, 0, 0, 0⟩,  -- FAB_RB_IDX R599
  ⟨0x7038, 1, 0x10000, 1, 4, 0, 0, 0, 0, 0, 0, 0⟩,  -- FAB_RB_DATA R599
  ⟨0x7100, 0x10, 4, 1, 4, 0, 0xFFFFFFFF, 0, 0, 0, 0, 0⟩,  -- FAB_USR R599
  ⟨0x7140, 0x10, 4, 1, 4, 0, 0, 0, 0, 0, 0, 0⟩   -- FAB_UST R599
  ]

def regRows7 : List RegRow := regRows7_0

def regRows8_0 : List RegRow := [
  ⟨0x8000, 1, 0x10000, 1, 4, 0, 0, 0x10, 0, 0, 0, 0⟩,  -- MEM_STAT R322
  ⟨0x8004, 1, 0x10000, 1, 4, 0, 0, 0, 0, 0, 1, 0⟩,  -- MEM_FILL R322
  ⟨0x8008, 1, 0x10000, 1, 4, 0, 0, 0, 0, 0xFFFFFFFF, 0, 0⟩,  -- COLL_CNT R323
  ⟨0x800C, 1, 0x10000, 1, 4, 0, 0, 0, 0, 0, 0, 0xFFFFFFFF⟩,  -- COLL_REC_LO R323
  ⟨0x8010, 1, 0x10000, 1, 4, 0, 0, 0xC0000000, 0, 0, 0, 0xFF0FFFFF⟩,  -- COLL_REC_HI R323
  ⟨0x8014, 1, 0x10000, 1, 4, 0, 0, 0, 0, 0xFFFFFFFF, 0, 0⟩,  -- STORE_ERR_CNT R323
  ⟨0x8018, 1, 0x10000, 1, 4, 0, 0, 0x6F, 0, 0, 0, 0xFF00006F⟩,  -- TAMPER_STAT R324
  ⟨0x801C, 1, 0x10000, 1, 4, 0, 0, 0, 0, 0, 0, 7⟩,  -- LC_STATE R325
  ⟨0x8020, 1, 0x10000, 1, 4, 0, 7, 0x100, 0, 0, 0xFF000000, 0x307⟩,  -- LC_REQ R325
  ⟨0x8024, 1, 0x10000, 1, 4, 0, 0x8000017F, 0, 0, 0, 0, 0⟩,  -- DDR_CFG R326
  ⟨0x8028, 1, 0x10000, 1, 4, 0, 0, 0x18, 0, 0, 0, 0⟩,  -- DDR_STAT R326
  ⟨0x8100, 4, 0x80, 1, 4, 0, 0, 0, 0, 0xFFFFFFFF, 0, 0⟩,  -- CE_COUNT R327
  ⟨0x8104, 4, 0x80, 1, 4, 0, 0, 0, 0, 0xFFFFFFFF, 0, 0⟩,  -- UE_COUNT R327
  ⟨0x8108, 4, 0x80, 1, 4, 0x640020, 0x3FF00FF, 0, 0, 0, 0, 0⟩,  -- BKT_CFG R327
  ⟨0x810C, 4, 0x80, 1, 4, 0, 0, 0x80000000, 0, 0, 0, 0⟩,  -- BKT_STAT R327
  ⟨0x8110, 4, 0x80, 1, 4, 0, 0, 0x80000000, 0, 0, 0xF0000, 0x80000F07⟩   -- LOG_STAT R327
  ]

def regRows8_1 : List RegRow := [
  ⟨0x8114, 4, 0x80, 1, 4, 0, 0, 0, 0, 0, 0, 0xFFFFFFFF⟩,  -- UE_LO R327
  ⟨0x8118, 4, 0x80, 1, 4, 0, 0, 0xC0000000, 0, 0, 0, 0xCFFFFFFF⟩,  -- UE_HI R327
  ⟨0x811C, 4, 0x80, 1, 4, 0, 0xFFFF, 0, 0, 0, 0, 0⟩,  -- SCRUB_CFG R327
  ⟨0x8120, 4, 0x80, 8, 8, 0, 0, 0, 0, 0, 0, 0xFFFFFFFF⟩,  -- LOG_LO R327
  ⟨0x8124, 4, 0x80, 8, 8, 0, 0, 0, 0, 0, 0, 0xFF0FFFFF⟩,  -- LOG_HI R327
  ⟨0x802C, 1, 0x10000, 1, 4, 0, 0x3FFFF, 0, 0, 0, 0, 0⟩,  -- SCRUB_DDR_LO R328
  ⟨0x8030, 1, 0x10000, 1, 4, 0, 0x3FFFF, 0, 0, 0, 0, 0⟩,  -- SCRUB_DDR_HI R328
  ⟨0x8300, 0x100, 4, 1, 4, 0, 0x8000FFFF, 0, 0, 0, 0, 0⟩   -- REMAP R328
  ]

def regRows8 : List RegRow := regRows8_0 ++ regRows8_1

def regRows9_0 : List RegRow := [
  ⟨0x9108, 1, 0x10000, 1, 4, 0xFFFFF000, 0xFFFFF000, 0, 0, 0, 0, 0⟩,  -- window 0 LIMIT_LO R359
  ⟨0x910C, 1, 0x10000, 1, 4, 0xFFFFF, 0xFFFFF, 0, 0, 0, 0, 0⟩,  -- window 0 LIMIT_HI R359
  ⟨0x9110, 1, 0x10000, 1, 4, 1, 0xFFFFFFFF, 0, 0, 0, 0, 0⟩,  -- window 0 MASK R359
  ⟨0x9114, 1, 0x10000, 1, 4, 7, 7, 0, 0, 0, 0, 0⟩,  -- window 0 CTL R359
  ⟨0x9000, 1, 0x10000, 1, 4, 0, 0, 0, 0, 0, 1, 0⟩,  -- FW_CTL R358
  ⟨0x9004, 1, 0x10000, 1, 4, 0, 0, 0, 0, 0xFFFFFFFF, 0, 0⟩,  -- FW_DENY_CNT R358
  ⟨0x9008, 1, 0x10000, 1, 4, 0, 0, 0, 0, 0, 0, 0xFFFFFFFF⟩,  -- FW_DENY_LO R358
  ⟨0x900C, 1, 0x10000, 1, 4, 0, 0, 0xC0000000, 0, 0, 0, 0xFF0FFFFF⟩,  -- FW_DENY_HI R358
  ⟨0x9100, 0x20, 0x20, 1, 4, 0, 0xFFFFF000, 0, 0, 0, 0, 0⟩,  -- WIN_BASE_LO R359
  ⟨0x9104, 0x20, 0x20, 1, 4, 0, 0xFFFFF, 0, 0, 0, 0, 0⟩,  -- WIN_BASE_HI R359
  ⟨0x9108, 1, 0x10000, 1, 4, 0xFFFFF000, 0xFFFFF000, 0, 0, 0, 0, 0⟩,  -- WIN0_LIMIT_LO R359
  ⟨0x910C, 1, 0x10000, 1, 4, 0xFFFFF, 0xFFFFF, 0, 0, 0, 0, 0⟩,  -- WIN0_LIMIT_HI R359
  ⟨0x9110, 1, 0x10000, 1, 4, 1, 0xFFFFFFFF, 0, 0, 0, 0, 0⟩,  -- WIN0_MASK R359
  ⟨0x9114, 1, 0x10000, 1, 4, 7, 7, 0, 0, 0, 0, 0⟩,  -- WIN0_CTL R359
  ⟨0x9108, 0x20, 0x20, 1, 4, 0, 0xFFFFF000, 0, 0, 0, 0, 0⟩,  -- WIN_LIMIT_LO R359
  ⟨0x910C, 0x20, 0x20, 1, 4, 0, 0xFFFFF, 0, 0, 0, 0, 0⟩,  -- WIN_LIMIT_HI R359
  ⟨0x9110, 0x20, 0x20, 1, 4, 0, 0xFFFFFFFF, 0, 0, 0, 0, 0⟩,  -- WIN_MASK R359
  ⟨0x9114, 0x20, 0x20, 1, 4, 0, 7, 0, 0, 0, 0, 0⟩   -- WIN_CTL R359
  ]

def regRows9 : List RegRow := regRows9_0

def regRowsF_0 : List RegRow := [
  ⟨0xF000, 1, 0x10000, 1, 4, 0x7131025E, 0, 0, 0, 0, 0, 0⟩,  -- CHIP_ID R4
  ⟨0xF004, 1, 0x10000, 1, 4, 0, 0, 0, 0, 0, 0, 0⟩,  -- STEPPING R5
  ⟨0xF008, 1, 0x10000, 1, 4, 0, 0, 0, 0, 0, 0, 0⟩   -- MCVER R279
  ]

def regRowsF : List RegRow := regRowsF_0

def regRows10_0 : List RegRow := [
  ⟨0x10000, 1, 0x10000, 1, 4, 0, 1, 0, 0, 0, 0, 0⟩,  -- ARR_CTL R87
  ⟨0x10004, 1, 0x10000, 1, 4, 0, 0xF, 0, 0, 0, 0, 0⟩,  -- ARR_EDGE R88
  ⟨0x10008, 1, 0x10000, 1, 4, 0, 0, 0, 0, 0, 0, 0⟩,  -- ARR_STATUS R89
  ⟨0x1000C, 1, 0x10000, 1, 4, 0, 3, 0, 0, 0, 0, 0⟩,  -- SB_IRQ_CFG R90
  ⟨0x10010, 1, 0x10000, 1, 4, 0, 0, 0x1F, 0, 0, 0, 0x3FFC01F⟩,  -- ARR_ERR_STAT R91
  ⟨0x10014, 1, 0x10000, 1, 4, 0, 0, 0, 0, 0, 0, 0xFF03FF⟩,  -- ARR_ERR_ADDR R92
  ⟨0x10018, 1, 0x10000, 1, 4, 0, 0, 0, 0, 0, 0, 0⟩,  -- ARR_BSCNT_LO R93
  ⟨0x1001C, 1, 0x10000, 1, 4, 0, 0, 0, 0, 0, 0, 0⟩,  -- ARR_BSCNT_HI R93
  ⟨0x10020, 8, 4, 1, 4, 0xF8, 0xFF, 0, 0, 0, 0, 0⟩,  -- PROW_MAP R94
  ⟨0x10100, 1, 0x10000, 1, 4, 0, 0, 0, 0, 0, 1, 0⟩,  -- TRV_CTL R141
  ⟨0x10104, 1, 0x10000, 1, 4, 0, 0, 0, 0, 0, 0, 0⟩,  -- TRV_STATUS R142
  ⟨0x10108, 1, 0x10000, 1, 4, 0, 0, 0xFFFF, 0, 0, 0, 0⟩,  -- TRV_DONE R143
  ⟨0x1010C, 1, 0x10000, 1, 4, 0, 0xFFFF, 0, 0, 0, 0, 0⟩,  -- TRV_IRQ_EN R143
  ⟨0x10110, 1, 0x10000, 1, 4, 0, 0, 0x18000, 0, 0, 0, 0⟩,  -- TRV_ERR R144
  ⟨0x10114, 1, 0x10000, 1, 4, 0, 0, 0, 0, 0, 0, 0⟩,  -- TRV_ERR_WORD R144
  ⟨0x10200, 1, 0x10000, 1, 4, 0, 0, 0x300, 0, 0, 0, 0⟩   -- REP_STATUS R160
  ]

def regRows10_1 : List RegRow := [
  ⟨0x10204, 1, 0x10000, 1, 4, 0x10, 0xFF, 0, 0, 0, 0, 0⟩,  -- COLMON_CFG R162
  ⟨0x10420, 0x48, 4, 1, 4, 0, 0, 0, 0, 0, 0x80000000, 0⟩,  -- COLMON R163
  ⟨0x10300, 0x48, 4, 1, 4, 0, 0x37F037F, 0, 0, 0, 0, 0⟩,  -- COL_SUB R168
  ⟨0x10208, 1, 0x10000, 1, 4, 0, 0x17FF, 0, 0, 0, 0, 0⟩,  -- MIRROR_CTL R183
  ⟨0x1020C, 1, 0x10000, 1, 4, 0, 0x7F, 0, 0, 0, 0x300, 0⟩,  -- BIST_CTL R185
  ⟨0x10210, 1, 0x10000, 1, 4, 0x3FFF000, 0, 0, 0, 0, 0, 0⟩,  -- BIST_STATUS R186
  ⟨0x10214, 1, 0x10000, 1, 4, 0x352, 0, 0, 0, 0, 0, 0⟩,  -- EST_RATE R195
  ⟨0x10218, 1, 0x10000, 1, 4, 0, 0, 0, 0, 0, 0, 0⟩,  -- EST_STATUS R195
  ⟨0x1021C, 1, 0x10000, 1, 4, 0, 0, 0, 0, 0, 0, 0⟩   -- EST_AGE R195
  ]

def regRows10 : List RegRow := regRows10_0 ++ regRows10_1

def regRows11_0 : List RegRow := [
  ⟨0x11000, 1, 0x10000, 1, 4, 0, 0, 0, 1, 0, 0, 0⟩,  -- CS_CTL R272
  ⟨0x11004, 1, 0x10000, 1, 4, 0, 0, 0xC0000000, 0, 0, 0, 0⟩,  -- CS_ERR R273
  ⟨0x11008, 1, 0x10000, 1, 4, 0x3800, 0x3FFF, 0, 0, 0, 0, 0⟩,  -- CS_WADDR R274
  ⟨0x1100C, 1, 0x10000, 1, 4, 0, 0xFFFFFFFF, 0, 0, 0, 0, 0⟩,  -- CS_WDATA R274
  ⟨0x11010, 1, 0x10000, 1, 4, 0xE0, 0xFF, 0, 0, 0, 0, 0⟩,  -- DEC_IDX R275
  ⟨0x11014, 1, 0x10000, 1, 4, 0, 0xFFFFFFFF, 0, 0, 0, 0, 0⟩,  -- DEC_ENTRY R275
  ⟨0x11018, 1, 0x10000, 1, 4, 0, 0, 0, 0, 0, 0, 0⟩   -- WDOG_CNT R275
  ]

def regRows11 : List RegRow := regRows11_0

def regRows12_0 : List RegRow := [
  ⟨0x12000, 1, 0x10000, 1, 4, 0, 2, 0, 0, 0, 0x10, 0⟩,  -- TT_CTL R360
  ⟨0x12004, 1, 0x10000, 1, 4, 0, 0x3FF00, 0, 0, 0, 0, 0⟩,  -- TT_SPILL R360
  ⟨0x12008, 2, 4, 1, 4, 0, 0xFFFFFFFF, 0, 0, 0, 0, 0⟩,  -- JT_FENCE R360
  ⟨0x12010, 2, 4, 1, 4, 0, 0, 0, 0, 0, 0, 0⟩,  -- JT_FENCED R360
  ⟨0x12018, 1, 0x10000, 1, 4, 0, 0, 0xC0000001, 0, 0, 0, 0⟩,  -- JT_ERR_STAT R360
  ⟨0x1201C, 1, 0x10000, 1, 4, 0, 0, 0, 0, 0, 0, 0⟩,  -- JT_ERR_ADDR_LO R360
  ⟨0x12020, 1, 0x10000, 1, 4, 0, 0, 0, 0, 0, 0, 0⟩,  -- JT_ERR_ADDR_HI R360
  ⟨0x12024, 1, 0x10000, 1, 4, 0, 0, 0, 0, 0xFFFFFFFF, 0, 0⟩,  -- JT_LINK_CE R360
  ⟨0x12028, 1, 0x10000, 1, 4, 0, 0, 0, 0, 0xFFFFFFFF, 0, 0⟩,  -- JT_LATE_CNT R360
  ⟨0x1202C, 1, 0x10000, 1, 4, 0, 0, 0, 0, 0xFFFFFFFF, 0, 0⟩,  -- JT_TMO_CNT R360
  ⟨0x12030, 1, 0x10000, 1, 4, 0, 0, 0xFFFFFFFF, 0, 0, 0, 0⟩,  -- JT_STARVE R360
  ⟨0x120C0, 0x10, 4, 1, 4, 0x3E8, 0x3FF, 0, 0, 0, 0, 0⟩,  -- JT_TMO R360
  ⟨0x12400, 2, 0x100, 0x40, 4, 0, 0xFFFFFFFF, 0, 0, 0, 0, 0⟩   -- TT R360
  ]

def regRows12 : List RegRow := regRows12_0

def regRows14_0 : List RegRow := [
  ⟨0x14000, 6, 0x100, 1, 4, 0, 7, 0, 0, 0, 0, 0⟩,  -- CAM_CTL R400
  ⟨0x14004, 6, 0x100, 1, 4, 0, 0, 0x7C, 0, 0, 0, 0⟩,  -- CAM_STAT R400
  ⟨0x14008, 6, 0x100, 1, 4, 0, 0, 0, 0, 0xFFFFFFFF, 0, 0⟩,  -- CAM_ERRCNT R400
  ⟨0x14010, 6, 0x100, 4, 0x30, 0x21E0, 0xF33FF, 0, 0, 0, 0, 0⟩,  -- STR_CFG R401
  ⟨0x14014, 6, 0x100, 4, 0x30, 0, 0xFFFFFFFF, 0, 0, 0, 0, 0⟩,  -- STR_GEOM R401
  ⟨0x14018, 6, 0x100, 4, 0x30, 0, 0xFFFFFFFF, 0, 0, 0, 0, 0⟩,  -- STR_STRIDE R401
  ⟨0x1401C, 6, 0x100, 4, 0x30, 0, 0x3FFFFF, 0, 0, 0, 0, 0⟩,  -- STR_BUF R401
  ⟨0x14020, 6, 0x100, 4, 0x30, 0, 0x3FFFFF, 0, 0, 0, 0, 0⟩,  -- STR_BUF BUF1
  ⟨0x14024, 6, 0x100, 4, 0x30, 0, 0x3FFFFF, 0, 0, 0, 0, 0⟩,  -- STR_BUF BUF2
  ⟨0x14028, 6, 0x100, 4, 0x30, 0, 0x3FFFFF, 0, 0, 0, 0, 0⟩,  -- STR_BUF BUF3
  ⟨0x1402C, 6, 0x100, 4, 0x30, 0, 0, 0, 0, 0, 0, 0⟩,  -- STR_SSTAT R401
  ⟨0x14030, 6, 0x100, 4, 0x30, 0, 0xFFFF, 0, 0, 0, 0, 0⟩,  -- STR_LINE_IRQ R401
  ⟨0x14034, 6, 0x100, 4, 0x30, 0, 0, 0, 0, 0, 0, 0⟩,  -- STR_TS_LO R401
  ⟨0x14038, 6, 0x100, 4, 0x30, 0, 0, 0, 0, 0, 0, 0⟩,  -- STR_TS_HI R401
  ⟨0x1403C, 6, 0x100, 4, 0x30, 0, 0xFFFF, 0, 0, 0, 0, 0⟩,  -- STR_TMO R401
  ⟨0x14800, 4, 0x400, 1, 4, 4, 0xFD, 0, 0, 0, 0, 0⟩,  -- PIPE_CTL R402
  ⟨0x14804, 4, 0x400, 1, 4, 0, 0, 0, 0, 0, 0, 0⟩   -- PIPE_STAT R402
  ]

def regRows14_1 : List RegRow := [
  ⟨0x14808, 4, 0x400, 1, 4, 0, 0, 0x1F, 0, 0, 0, 0⟩,  -- PIPE_ERR R402
  ⟨0x1480C, 4, 0x400, 1, 4, 0, 0, 0, 0, 0xFFFFFFFF, 0, 0⟩,  -- UNDERRUN_CNT R402
  ⟨0x14810, 4, 0x400, 1, 4, 0, 0xFFFFFFFF, 0, 0, 0, 0, 0⟩,  -- HTIM0 R402
  ⟨0x14814, 4, 0x400, 1, 4, 0, 0xFFFFFFFF, 0, 0, 0, 0, 0⟩,  -- HTIM1 R402
  ⟨0x14818, 4, 0x400, 1, 4, 0, 0xFFFFFFFF, 0, 0, 0, 0, 0⟩,  -- VTIM0 R402
  ⟨0x1481C, 4, 0x400, 1, 4, 0, 0xFFFFFFFF, 0, 0, 0, 0, 0⟩,  -- VTIM1 R402
  ⟨0x14820, 4, 0x400, 1, 4, 0, 0x7FFFF, 0, 0, 0, 0, 0⟩,  -- PCLK R402
  ⟨0x14824, 4, 0x400, 1, 4, 0, 0, 0, 1, 0, 2, 0⟩,  -- PIPE_COMMIT R402
  ⟨0x14828, 4, 0x400, 1, 4, 0x3E80100, 0xFFFFFF3F, 0, 0, 0, 0, 0⟩,  -- PIPE_LOCK R402
  ⟨0x1482C, 4, 0x400, 1, 4, 0, 0, 0, 0, 0, 0, 0⟩,  -- LOCK_STAT R402
  ⟨0x14830, 4, 0x400, 1, 4, 0, 0xFFFFFF, 0, 0, 0, 0, 0⟩,  -- PIPE_BG R402
  ⟨0x14834, 4, 0x400, 1, 4, 0, 3, 0, 0, 0, 0, 0⟩,  -- FMT_CTL R402
  ⟨0x14838, 4, 0x400, 1, 4, 0, 0x3FF, 0, 0, 0, 0, 0⟩,  -- LUT_IDX R402
  ⟨0x1483C, 4, 0x400, 1, 4, 0, 0x3FF, 0, 0, 0, 0, 0⟩,  -- LUT_DATA R402
  ⟨0x14900, 4, 0x400, 8, 0x20, 0, 0xFFFFFFFF, 0, 0, 0, 0, 0⟩,  -- LAY_BASE_LO R402
  ⟨0x14904, 4, 0x400, 8, 0x20, 0, 0xFFFFF, 0, 0, 0, 0, 0⟩   -- LAY_BASE_HI R402
  ]

def regRows14_2 : List RegRow := [
  ⟨0x14908, 4, 0x400, 8, 0x20, 0, 0xFFFFFFFF, 0, 0, 0, 0, 0⟩,  -- LAY_STRIDE R402
  ⟨0x1490C, 4, 0x400, 8, 0x20, 0, 0xFFFFFFFF, 0, 0, 0, 0, 0⟩,  -- LAY_SIZE R402
  ⟨0x14910, 4, 0x400, 8, 0x20, 0, 0xFFFFFFFF, 0, 0, 0, 0, 0⟩,  -- LAY_POS R402
  ⟨0x14914, 4, 0x400, 8, 0x20, 0xFF00, 0xFF1F, 0, 0, 0, 0, 0⟩   -- LAY_LFMT R402
  ]

def regRows14 : List RegRow := regRows14_0 ++ regRows14_1 ++ regRows14_2

/-- The rows of the 4 KiB page a key lies in. -/
def regPage (p : Nat) : List RegRow :=
  match p with
  | 0 => regRows0
  | 1 => regRows1
  | 2 => regRows2
  | 3 => regRows3
  | 4 => regRows4
  | 5 => regRows5
  | 6 => regRows6
  | 7 => regRows7
  | 8 => regRows8
  | 9 => regRows9
  | 0xF => regRowsF
  | 0x10 => regRows10
  | 0x11 => regRows11
  | 0x12 => regRows12
  | 0x14 => regRows14
  | 0x15 => regRows14
  | _ => []

/-- The register map's row for key `a`; none for an offset the spec assigns no register to. -/
def regRow? (a : Nat) : Option RegRow :=
  (regPage (a % 0x100000 / 0x1000)).find? (fun r => r.hit (a % 0x100000))

/-- The value after power-on: the Reset column, and 0 for an entry U (R12). -/
def regReset (a : Nat) : Word :=
  match regRow? a with
  | some r => BitVec.ofNat 32 r.reset
  | none => 0

end Sys2Proof
end

