-- ==== Sys2Proof/Machine/Store.lean ====
section
/-! DEFINITION. Sparse data by key in one canonical form: a list of (key, value) pairs, keys strictly rising, no entry
equal to what an unlisted key reads as. Register banks, memories and flash contents are all held so. -/

namespace Sys2Proof

/-- Sparse contents by key. -/
abbrev Store (α : Type) := List (Nat × α)

/-- What key `k` holds; an unlisted key reads as `d k`. -/
def Store.get {α : Type} (d : Nat → α) : List (Nat × α) → Nat → α
  | [], k => d k
  | (j, v) :: t, k => if k = j then v else Store.get d t k

/-- The list without the entries of key `k`. -/
def Store.drop {α : Type} : List (Nat × α) → Nat → List (Nat × α)
  | [], _ => []
  | (j, v) :: t, k => if k = j then Store.drop t k else (j, v) :: Store.drop t k

/-- The list with an entry put before the first larger key. -/
def Store.put {α : Type} : List (Nat × α) → Nat → α → List (Nat × α)
  | [], k, v => [(k, v)]
  | (j, w) :: t, k, v => if k < j then (k, v) :: (j, w) :: t else (j, w) :: Store.put t k v

/-- Write `v` at key `k`; writing what an unlisted key reads as removes the entry. -/
def Store.set {α : Type} [DecidableEq α] (d : Nat → α) (m : List (Nat × α)) (k : Nat) (v : α) : List (Nat × α) :=
  if v = d k then Store.drop m k else Store.put (Store.drop m k) k v

/-- Keys above `b` and strictly rising. -/
def Store.rising {α : Type} : Option Nat → List (Nat × α) → Bool
  | _, [] => true
  | none, (j, _) :: t => Store.rising (some j) t
  | some b, (j, _) :: t => decide (b < j) && Store.rising (some j) t

/-- No entry equals what an unlisted key reads as. -/
def Store.noDefault {α : Type} [DecidableEq α] (d : Nat → α) : List (Nat × α) → Bool
  | [] => true
  | (j, v) :: t => decide (v ≠ d j) && Store.noDefault d t

/-- The canonical form: equal contents are equal lists. -/
def Store.wf {α : Type} [DecidableEq α] (d : Nat → α) (m : List (Nat × α)) : Bool :=
  Store.rising none m && Store.noDefault d m

/-- The contents of keys `k` to `k + n - 1` in order, in one pass over a rising list. -/
def Store.dense {α : Type} (d : Nat → α) : Nat → Nat → List (Nat × α) → List α
  | _, 0, _ => []
  | k, n + 1, [] => d k :: Store.dense d (k + 1) n []
  | k, n + 1, (j, v) :: t =>
      if j = k then v :: Store.dense d (k + 1) n t else d k :: Store.dense d (k + 1) n ((j, v) :: t)

/-- The canonical list of the contents `vs` of keys from `k` on. -/
def Store.sparse {α : Type} [DecidableEq α] (d : Nat → α) : Nat → List α → List (Nat × α)
  | _, [] => []
  | k, v :: vs => if v = d k then Store.sparse d (k + 1) vs else (k, v) :: Store.sparse d (k + 1) vs

end Sys2Proof
end

