-- ==== Sys2Proof/Machine/State.lean ====
section
/-! DEFINITION. The state of IFEFEN: every register of the register maps in one bank, and beside it, block by block, the
state the spec gives the machine that no register map holds. State is plain data. -/

namespace Sys2Proof.Machine

/-- A snapshot of the Signal box in flight (R75 to R79): its number, its three results and which of them are delivered. -/
structure Snap where
  num : Nat
  orv : Bool
  count : Nat
  found : Bool
  x : Nat
  y : Nat
  orD : Bool
  firstD : Bool
  countD : Bool
  deriving DecidableEq, Repr

/-- A suspended array instruction (R148): the bit-steps completed, and the results its remaining bit-steps will write,
plane by plane (a plane's number, then its 2,048 row words by logical Platform, of 64 columns and two Sidings columns). The results are the model's way to hold R150, that a resumed
instruction gives what it would have given uninterrupted (log entry 7). -/
structure Susp where
  opc : Nat
  o : AOp
  astep : Nat
  results : List (Nat × List (BitVec 66))
  deriving DecidableEq, Repr

/-- The Platform array: bit-RAM, the state bits of the PEs, the map and repair state that is no register. Plane numbers
0 to 1023 are bit-RAM addresses (R42); 1024 C, 1025 M, 1026 F, 1027 N (R51). Within a plane the row word of row `r` of
physical Platform `p` has key `32 * p + r`; `none` is a row word not written since power-on, whose contents are
undefined (R52, R68). -/
structure Arr where
  base : Option Word74                              -- what a row word unlisted in bit-RAM, C, F and N holds
  planes : List (Nat × List (Nat × Option Word74))
  busy : Bool                                       -- bit-steps are executing (ARR_STATUS.BUSY)
  suspended : Bool                                  -- ARR_STATUS.SUSPENDED
  susp : Option Susp
  silent : List Nat                                 -- Platforms whose acknowledgements are ignored (R85)
  snaps : List Snap                                 -- in flight, oldest first
  bscnt : Nat                                       -- ARR_BSCNT, 64 bits (R93)
  sweep : List (Nat × Nat)                          -- sweep pointer of slot j of Platform p, key 2 p + j (R166)
  mirrorSweep : Nat                                 -- sweep pointer of the mirror (R182)
  deriving DecidableEq, Repr

/-- A transfer the Traverser holds: the four descriptor words (R130), whether they could be read, and the Platform
rows whose map changed while it was in progress (R138). -/
structure Xfer where
  w0 : Word64
  w1 : Word64
  w2 : Word64
  w3 : Word64
  readable : Bool
  mapChanged : List Nat
  deriving DecidableEq, Repr

/-- The Traverser: transfers held, oldest first; `active` when the oldest is in progress (R129). -/
structure Trv where
  held : List Xfer
  active : Bool
  deriving DecidableEq, Repr


/-- Results of earlier instructions that later ones do not yet see (R213). `acc` becomes visible at the end of the
next instruction; the other fields are the older values that the next
instruction still uses: the indexes and the bank in an address, and the mode of the FP unit, multiplier and divider. -/
structure Late where
  acc : Option Word
  ixa : Option (BitVec 16)
  ixb : Option (BitVec 16)
  bnk : Option (BitVec 36)
  mode : Option (Word × Bool)
  deriving DecidableEq, Repr

/-- What the Dispatcher waits for (R225, R226, R229 to R231). -/
inductive Wait where
  | none
  | operand (opc : Nat) (o : SOp)         -- a memory operand (R230)
  | fill                                  -- a data-stack fill (R216)
  | coproc (u : Nat)                      -- a coprocessor response (R246)
  | posted (opc : Nat) (o : SOp)          -- a ninth posted write (R231)
  | fxfer                                 -- four transfers held (R129)
  | fsync (tag : Nat)                     -- transfers of one tag (R139)
  | wfi                                   -- an interrupt request (R226)
  | fence                                 -- responses of posted writes (R229)
  | micro (d : Nat) (sz : Nat)            -- an MRD response (R258)
  | microPosted (r a sz : Nat) (off : BitVec 16)  -- an MWR that finds eight posted writes (R258)
  deriving DecidableEq, Repr

/-- A customer microcode routine in progress (R253 to R263). -/
structure Micro where
  upc : Nat
  stack : List Nat
  t : List Word                           -- T0 to T7
  template : BitVec 25
  ra : Nat
  rb : Nat
  wa : Nat
  ea : BitVec 16
  imm : Word
  iw : Word
  wdog : Nat                              -- microwords since decode or POLL (R267)
  snapTaken : Bool                        -- a bit-step with SNAP = 1 was issued (R263)
  stepped : Bool                          -- it has issued a bit-step (R71)
  deriving DecidableEq, Repr

/-- A multiplication or division in progress: its result, and the instructions issued since (R235, R237). -/
structure MulOp where
  prod : BitVec 64
  age : Nat
  deriving DecidableEq, Repr

structure DivOp where
  quo : Word
  rem : Word
  age : Nat
  deriving DecidableEq, Repr

/-- The Dispatcher (R199 to R202) and what its rules make it hold beside its registers. -/
structure Disp where
  acc : Word
  ixa : BitVec 16
  ixb : BitVec 16
  bnk : BitVec 36
  pbnk : BitVec 36
  pc : BitVec 16
  psw : Word
  spsw : Word
  prod : BitVec 64
  quo : Word
  rem : Word
  fpctl : Word
  dsp : Word
  dsBase : Word
  dsLimit : Word
  ds : List Word                          -- on-chip data stack, newest first (R216)
  rs : List (BitVec 52)                   -- return stack, top first (R217)
  tcause : Word
  taddr : BitVec 52
  vbnk : BitVec 36
  late : Late
  pair : Option (BitVec 52 × Word)        -- store-pair buffer: address and low word (R206)
  imprecise : Option (BitVec 52 × Resp)   -- store error not yet taken (R231)
  mul : Option MulOp
  div : Option DivOp
  wait : Wait
  halted : Bool                           -- R217
  hold : Option (Nat × Nat)               -- snapshot awaited and instructions until the hold of R214
  micro : Option Micro
  deriving DecidableEq, Repr

/-- The control store and the decode table (R249 to R252, R270): patch RAM and customer RAM by microaddress, decode
entries by index. -/
structure Cs where
  ram : List (Nat × Word)
  dec : List (Nat × Word)
  deriving DecidableEq, Repr

/-- An entry of a bank's suspect table (R296). -/
structure Suspect where
  bank : Nat
  idx : Nat
  spare : Bool
  count : Nat
  deriving DecidableEq, Repr

/-- The data memories of chapter 07. A word is 64 data bits and 8 check bits; `none` is a word not written since
power-on or RESET_N (R287). Scratchpad words have their word number as key, spare word `e` of bank `b` key
`0x200000 + 16 b + e` (R280). `spBase` and `secBase` are what an unlisted word holds: `none`, or 0 after a fill or wipe. -/
structure Mem where
  sp : List (Nat × Option Word72)
  spBase : Option Word72
  sec : List (Nat × Option Word72)
  secBase : Option Word72
  ddr : List (Nat × Option Word72)
  suspects : List Suspect                 -- oldest latest error first (R296)
  usedSpares : List (Nat × Nat)           -- spare words given up until RESET_N (R298)
  scrubPtr : List (Nat × Nat)             -- next unit of the scrubber of each kind (R300)
  ddrCache : Option Nat                   -- training values cached in flash: the DDR_CFG fields they match (R315)
  wipeRec : Nat                           -- wipes recorded in the AON domain in Deep sleep: trigger bits (R309)
  lcFuse : Nat                            -- life-cycle state of the fuses (R313)
  lcReq : Option Nat                      -- request record in internal flash (R312)
  lcAuth : Bool                           -- the field-return authorisation record verifies (R312)
  deriving DecidableEq, Repr

/-- Where a Junction request stands (R339, R346). -/
inductive Stage where
  | issued                                -- sent by its initiator, not yet judged by the root
  | delivered (port : Nat)                -- at its target
  | answered (r : Resp) (data : List Byte)
  | lost (response : Bool)                -- its packet, or its response's, was discarded (R352)
  | quarantined (todo : Option Nat)       -- timed out; waits for the late response; may yet be performed at the port (R346)
  deriving DecidableEq, Repr

/-- A request packet of the Junction tree (R335 to R337) and its progress. `data` holds (word, byte enables). -/
structure Txn where
  src : Nat
  init : Nat
  tag : Nat
  write : Bool
  cp : Bool                               -- a coprocessor request (CPREQ)
  addr : Nat
  len : Nat                               -- bytes
  data : List (Word64 × BitVec 8)
  guar : Bool                             -- guaranteed virtual channel (R343)
  stage : Stage
  dst : Nat
  bad : List Nat                          -- poisoned data words of a write (R352)
  deriving DecidableEq, Repr

/-- The Junction tree: requests without a final response, Timetable credits by initiator (R348), the fence states by port
(R353; 0 OPEN, 1 DRAINING, 2 FENCED) and the next tag the Dispatcher takes. -/
structure Jt where
  txns : List Txn
  credits : List (Nat × Nat)
  slot : Nat
  fences : List (Nat × Nat)
  nextTag : Nat
  deriving DecidableEq, Repr

/-- What the PCI Express function and the straps give the device: the configuration bits of the function (R471, R478,
R479), whether the part is of stepping B0 or A0 (R5), and the latched CPL_ROLE strap. -/
structure Pcie where
  memEnable : Bool
  busMaster : Bool
  msixEnable : Bool
  msixFuncMask : Bool
  deriving DecidableEq, Repr

/-- Properties of the part itself: stepping B0 rather than A0 (R1, R5), and straps (R12). -/
structure Part where
  stepB : Bool
  cplRole : Bool
  deriving DecidableEq, Repr

/-- An entry of Stationmaster's log in internal flash (R513): SEQ, milliseconds since the start, and words 2 and 3. -/
structure LogEntry where
  seq : Nat
  ms : Word
  w2 : Word
  w3 : Word
  deriving DecidableEq, Repr

/-- The repair record in internal flash (R173, R197, R299): failed slots, column substitutions (Platform, slot, column) and
scratchpad remap entries (number 16 b + e, value). -/
structure Repair where
  failed : List Nat
  subs : List (Nat × Nat × Nat)
  remaps : List (Nat × Word)
  deriving DecidableEq, Repr

/-- Stationmaster's strip scheduler and in-service test (R20, R30, R175, R179, R187, R193). -/
structure Sched where
  reserveSpent : Bool                     -- the frame's reserve period is spent (R30)
  reserveUsed : Nat                       -- reserve periods spent (TELEMETRY_READ page 1)
  repeats : Nat                           -- strips repeated
  uncommitted : Nat                       -- frames not committed
  lostStrip : Bool                        -- the frame loses its last-scheduled strip (R30)
  retried : Bool                          -- the strip in flight has been retried once (R20)
  repeatOf : Option Nat                   -- Platform whose uncorrectable row word began the repeat in progress (R179)
  holdIdle : Bool                         -- the array is held idle for a forced window (R193)
  windowNext : Bool                       -- the forced window waits for the next frame (R193)
  rotUp : List Nat                        -- rows whose gap walks back up (R187)
  swept : List Nat                        -- Platforms tested since the sweep began (R187)
  shadowCols : List (Nat × Nat)           -- failed columns that wait for the next mirror: Platform, column (R188)
  retire : Option Nat                     -- Platform that is being retired (R175)
  passReady : List (Nat × Bool)           -- pass-through strips released for fetch, first in front, and whether in error (R376)
  passErrors : Nat                        -- pass-through frames recorded as erroneous (R376)
  badFrames : List Nat                    -- displays whose frame in progress is not to be committed (R20, R506)
  deriving DecidableEq, Repr

/-- The power states (R601). -/
inductive PMode where
  | run | idle | sleep | deep | off
  deriving DecidableEq, Repr

/-- A kernel held under a KID (R505): the header fields and its code. -/
structure Kernel where
  kid : Nat
  planes : Nat
  codelen : Nat
  entry : Nat
  copc : Nat
  scratch : Nat
  code : List Byte
  faulted : Bool
  deriving DecidableEq, Repr

/-- Where the power controller stands between two stable states (R604 to R618): waiting for the rail of the last of `n`
enables, for the firmware of a start, for the firmware part of a POWER command, for domains to switch after GO, for the
fences after GO, for the next of the enables to fall, or for the rails to discharge. Targets are coded as PWR_CTL.TARGET. -/
inductive PwrPhase where
  | stable
  | up (n : Nat)
  | starting
  | entering (target : Nat)
  | switching (target : Nat)
  | dropping (target : Nat)
  | down (target : Nat)
  | discharging (target : Nat)
  deriving DecidableEq, Repr

/-- The power controller (R601 to R615), its pins and the temperature sensors (R652). -/
structure Pwr where
  mode : PMode
  starts : Nat                            -- starts so far (R513)
  phase : PwrPhase
  kind : Nat                              -- the kind of start that the power-up in progress leads to (R616)
  enIo : Bool
  enCore : Bool
  enDdr : Bool
  resetN : Bool                           -- RESET_N is asserted
  wake : Nat                              -- wakes latched, bits as PWR_STAT.WAKE_SRC
  thermtrip : Bool                        -- THERMTRIP_N is asserted (R654)
  cool : Bool                             -- MAX has been below WARN - 16 since it last reached WARN (R635)
  sensors : List (BitVec 16)
  deriving DecidableEq, Repr

def Pwr.init : Pwr where
  mode := .run
  starts := 0
  phase := .starting
  kind := 0
  enIo := true
  enCore := true
  enDdr := true
  resetN := false
  wake := 0
  thermtrip := false
  cool := true
  sensors := List.replicate 16 0

/-- A stream of a camera port (R365 to R375): a frame is in progress, its FE has come, the last frame completed, it is in error, it discards lines to
the next FS (R372), the number of its next line, the PAGE of its buffer, the tags of its write requests without a response
with their lines, the count latched at FS (R374), and when the last FE came, in picoseconds. -/
structure Stream where
  live : Bool
  ended : Bool
  done : Bool
  bad : Bool
  skip : Bool
  next : Nat
  page : Nat
  writes : List (Nat × Nat)
  ts : Nat
  lastFe : Option Nat
  deriving DecidableEq, Repr

/-- What a pipe does (R391, R392). -/
inductive PipeMode where
  | off | bringup | failed | running
  deriving DecidableEq, Repr

/-- A layer line in the pipe's store (R394): layer, line of the active area, requests without a response, whether one
failed, whether it missed its deadline (R395), and the bytes by their offset in the line. -/
structure LayerLine where
  layer : Nat
  y : Nat
  left : Nat
  failed : Bool
  late : Bool
  parts : List (Nat × List Byte)
  deriving DecidableEq, Repr

/-- A display pipe beside its registers. `lut` and `lutAct` are the pending and active gamma tables by index (unlisted: 0);
`queue` holds the reads of layer lines not yet sent (layer, line, offset in the line, address, length) and `reads` those
without a response (tag, layer, line, offset). `porch` is the front porch of the next frame (R396). -/
structure Pipe where
  mode : PipeMode
  stopReq : Bool
  lut : List (Nat × Nat)
  lutAct : List (Nat × Nat)
  queue : List (Nat × Nat × Nat × Nat × Nat)
  reads : List (Nat × Nat × Nat × Nat)
  lines : List LayerLine
  porch : Nat
  goodFrames : Nat
  deriving DecidableEq, Repr

/-- A frame latch (R412): number, state vector, and the bridge's TOTAL, TRIP1, TRIP2 and validity bits. -/
structure Latch where
  num : Nat
  vec : List Nat
  total : Nat
  trip1 : Nat
  trip2 : Nat
  valid : Nat
  deriving DecidableEq, Repr

/-- An enabled slot of an active region table, with the geometry kept when the commit was taken (R414). -/
structure Region where
  slot : Nat
  record : Nat
  numeric : Bool
  bpc : Nat
  x : Nat
  y : Nat
  w : Nat
  h : Nat
  num : Nat
  tt : Nat
  deriving DecidableEq, Repr

/-- What is stamped over a region (R418, R425): a bitmap at an offset of the Semaphore store, one pixel, or glyphs of a set. -/
inductive Stamp where
  | bitmap (off : Nat)
  | fill (px : Nat)
  | glyphs (gset : Nat) (idx : List Nat)
  deriving DecidableEq, Repr

/-- The states of a slot (R434). -/
inductive SlotMode where
  | normal | stamped | failed
  deriving DecidableEq, Repr

/-- A slot: state, persistence counter, and a fault that has fallen while the slot is still in NORMAL (R431, R434). -/
structure Slot where
  mode : SlotMode
  cnt : Nat
  due : Bool
  deriving DecidableEq, Repr

/-- The frame a channel checks: number, stamps by slot, what the heartbeat gave (R428), and the verdicts so far. -/
structure Frame where
  num : Nat
  armed : Bool
  stamps : List (Nat × Stamp)
  l : Option Nat
  hbPass : Bool
  hbDone : Bool
  judged : List Nat
  passes : List Nat
  deriving DecidableEq, Repr

/-- A channel of the Interlocking: latches, newest first (R412), active table, slots, heartbeat counter, L of the frame
before, and the frame in progress. -/
structure Chan where
  hist : List Latch
  active : List Region
  slots : List Slot
  hbCnt : Nat
  lastL : Option Nat
  frame : Option Frame
  deriving DecidableEq, Repr

/-- A tell-tale input pair (R407): its state and its counter. -/
structure Pair where
  st : Nat
  cnt : Nat
  deriving DecidableEq, Repr

/-- The Interlocking beside its registers: pairs, requests to clear pair faults (R409), the mark of TT_GO (R410), the
channels, and the Semaphore store in flash by offset (R421; unlisted: 0). -/
structure Il where
  pairs : List Pair
  clears : List Nat
  go : Bool
  chans : List Chan
  store : List (Nat × Byte)
  deriving DecidableEq, Repr

def Stream.init : Stream := ⟨false, false, false, false, false, 0, 0, [], 0, none⟩
def Pipe.init : Pipe := ⟨.off, false, [], [], [], [], [], 0, 0⟩
def Chan.init : Chan := ⟨[], [], List.replicate 64 ⟨.normal, 0, false⟩, 0, none, none⟩
def Il.init : Il := ⟨List.replicate 16 ⟨1, 0⟩, [], false, List.replicate 4 Chan.init, []⟩

/-- The Ticket office beside its registers: mailboxes whose commands wait for Stationmaster, in the order in which their
doorbells were accepted (R465); the count that TCNT shows (R454); and the safety port's access that
is in the tree (R457): write, BAR0 offset, data. -/
structure To where
  queue : List Nat
  tcnt : Nat
  late : Option (Bool × Nat × Word)
  deriving DecidableEq, Repr

/-- A slot of the van's event log (R541). -/
structure VanEntry where
  seq : Nat
  time : Word
  code : Nat
  perm : Bool
  detail : Nat
  value : Nat
  deriving DecidableEq, Repr

/-- What the van's state record holds (R535). TOTAL and the trips count units of 0.1 km. -/
structure VanSt where
  p : Nat
  r : Nat
  total : Nat
  trip1 : Nat
  trip2 : Nat
  time : Word
  timeValid : Bool
  okTotal : Bool
  ok1 : Bool
  ok2 : Bool
  shortCnt : Nat
  disputed : Bool
  dcnt : Nat
  ccnt : Nat
  sumA : Nat
  sumB : Nat
  deriving DecidableEq, Repr

/-- What the van's configuration record holds (R535): the CAN settings are the nominal and data rate codes and BASE. -/
structure VanCfg where
  k : Nat
  kSet : Bool
  tol : Nat
  disc : Nat
  close : Nat
  can : Nat × Nat × Nat
  key : Option (List Byte × List Byte)
  deriving DecidableEq, Repr

/-- What waits for the van's next tick, in the order accepted (R530, R538, R540). -/
inductive VanCmd where
  | tripReset (t1 t2 : Bool)
  | openSeal
  | setK (k : Nat)
  | setDisc (tol disc close : Nat)
  | setTotal (total : Nat)
  | setTime (t : Word)
  | setCan (nom dat base : Nat)
  | keyCommit (x y : List Byte)
  | close
  deriving DecidableEq, Repr

/-- A frame on its way over the bridge (R546): the bridge registers with their values, the slot of the log entry it carries,
that entry, and whether it is new. -/
structure VanFrame where
  regs : List (Nat × Word)
  slot : Nat
  entry : List Word
  fresh : Bool
  deriving DecidableEq, Repr

/-- The Guard's van (R524 to R551). `winA` and `winB` hold the counts of the last 64 ticks, newest first; `stRec` and
`cfgRec` the records in the ferroelectric store, newest first. -/
structure Van where
  alive : Bool
  quiet : Bool
  ticks : Nat
  nA : Nat
  nB : Nat
  winA : List Nat
  winB : List Nat
  speed : Nat
  diff : Int
  st : VanSt
  cfg : VanCfg
  stRec : List VanSt
  cfgRec : List VanCfg
  jumper : Bool
  sealOpen : Bool
  openings : Nat
  challenge : Option (Nat × List Byte)    -- TICKS at the request, and the 32 bytes (R538)
  verify : Option (VanSrc × List Byte × List Byte)  -- who asked, the challenge and the signature being verified
  stageX : Option (List Byte)
  stageY : Option (List Byte)
  stageCan : Option (Nat × Nat × Nat)
  queue : List VanCmd
  log : List (Nat × VanEntry)             -- by slot
  seq : Nat
  logLimit : Bool
  dirty : List Nat                        -- slots changed since the last frame (R549)
  mirrorNext : Nat
  tx : Option VanFrame
  unmirrored : List Nat                   -- slots not mirrored since LINK became 1
  gen : Nat
  smc : Option (Nat × List Byte)          -- the message in the sealed-command window: kind and bytes (R548)
  deriving DecidableEq, Repr

def VanSt.init : VanSt := ⟨0, 0, 0, 0, 0, 0, false, false, false, false, 0, false, 0, 0, 0, 0⟩

/-- The defaults of R536 and R542. -/
def VanCfg.init : VanCfg := ⟨0, false, 4, 64, 64, (1, 1, 0x640), none⟩

/-- A van that has never recorded anything, with its standby supply present. -/
def Van.init : Van where
  alive := true
  quiet := false
  ticks := 0
  nA := 0
  nB := 0
  winA := []
  winB := []
  speed := 0
  diff := 0
  st := VanSt.init
  cfg := VanCfg.init
  stRec := []
  cfgRec := []
  jumper := false
  sealOpen := false
  openings := 0
  challenge := none
  verify := none
  stageX := none
  stageY := none
  stageCan := none
  queue := []
  log := []
  seq := 0
  logLimit := false
  dirty := []
  mirrorNext := 0
  tx := none
  unmirrored := List.range 256
  gen := 0
  smc := none

/-- A Coupler port beside CPL_PSTAT: HELLO sent and an acceptable HELLO received since it became UP (R558), the last ALIVE
and how many heartbeats in a row have not changed it (R561), the frames sent (R554), and the peer's CHIP_ID. -/
structure CplPort where
  sent : Bool
  heard : Bool
  alive : Option Word
  same : Nat
  seq : Nat
  chip : Word
  deriving DecidableEq, Repr

/-- A sweep in progress (R574): the mailbox that asked, the hop probed, the last hop, and C_1 onward so far. -/
structure Sweep where
  mb : Nat
  h : Nat
  hops : Nat
  cum : List Int
  deriving DecidableEq, Repr

/-- The Coupler beside its registers. `halves`: transmit halves 0 and 1, then receive halves 0 and 1 of 512 words each
(R564). `tx`: half, GEN and LEN being sent (R565). `rx`: GEN[15:0] and the segments arrived, as offset and words, of the
generation that arrives (R566). `fresh`: port 0 has become PAIRED since the active generation was made active. `differ`:
generations in a row whose vector differs (R568). `next`: the number of the next generation (R564). `top`: the
highest position a HELLO has reported (R574). `pacc`: port and kind of the peer access that awaits its RSP (R572). -/
structure Cpl where
  ports : List CplPort
  halves : List (Nat × Option Word64)
  tx : Option (Nat × Nat × Nat)
  rx : Option (Nat × List (Nat × Nat))
  fresh : Bool
  differ : Nat
  next : Nat
  mark : Option Int
  top : Nat
  sweep : Option Sweep
  pacc : Option (Nat × Bool)
  expiries : Nat
  discards : Nat
  deriving DecidableEq, Repr

def CplPort.init : CplPort := ⟨false, false, none, 0, 0, 0⟩

def Cpl.init : Cpl where
  ports := List.replicate 2 CplPort.init
  halves := []
  tx := none
  rx := none
  fresh := false
  differ := 0
  next := 1
  mark := none
  top := 0
  sweep := none
  pacc := none
  expiries := 0
  discards := 0

/-- The fabric's configuration controller beside its registers (R587 to R592): the load in progress (by stream, started by a
start or wake, and the bytes it has), the image of the last successful load and whether it came by stream, the release
stages done, the image in the configuration flash (none: no bytes), the image being programmed, and the readback
shadow (R598). -/
structure Fab where
  stream : Bool
  auto : Bool
  got : List Byte
  image : List Byte
  imageStream : Bool
  stage : Nat
  flash : List Byte
  prog : Option (List Byte)
  shadow : List (Nat × Word)
  deriving DecidableEq, Repr

def Fab.init : Fab := ⟨false, false, [], [], false, 0, [], none, []⟩

/-- A layer entry of a scene (R497): its eight words as laid out there, whether it is enabled (R500), the buffer that is
shown, and the parameter block: its address and length until it is copied, and the copy. -/
structure LayerEnt where
  w : List Word
  on : Bool
  shown : Nat
  source : Option (Nat × Nat)
  param : List Byte
  deriving DecidableEq, Repr

/-- A scene (R497): background, formatter settings, gamma table if it has one, layers and passes. -/
structure Scene where
  bg : Word
  fmt : Word
  lut : Option (List Nat)
  layers : List LayerEnt
  passes : List (List Word)
  deriving DecidableEq, Repr

/-- An item bound to a frame (R501, R570): the scene; region words, CFG when duty is taken with it; and whether its strips
have started, so that it is committed at the next start of vertical sync. -/
structure Bind where
  scene : Scene
  regions : Option (List Word)
  cfg : Option Word
  started : Bool
  deriving DecidableEq, Repr

/-- What Stationmaster holds for a display: whether it is configured, the staged and the active scene, the slots of
TELLTALE_MAP (slot, layer, artwork table), what is bound to a coming frame, and the lanes and rate of its eDP link as A1
gives them (R509). -/
structure SmDisp where
  configured : Bool
  staged : Option Scene
  active : Option Scene
  slots : List (Nat × Nat × Nat)
  bind : Option Bind
  link : Nat
  deriving DecidableEq, Repr

/-- What a RUNNING command waits for: LAYER_COMMIT for the displays `left` (R501); a region commit (R502); strips (R507);
a pipe to stop (stage 0) or to come up (stage 1) for DISPLAY_CONFIG, with its parameter words (R509); ports to pair (R559); a
power state (R496, R611, R612); the fabric's load or release (R519, R520); duty for displays (R570, R571), with the
displays whose pipe must first come up. -/
inductive SmWait where
  | commit (mask left frame : Nat)
  | map (p : Nat)
  | krun (kid n nd addr done : Nat)
  | display (p stage : Nat) (retrain : Bool) (ps : List Word) (opts : Nat)
  | pair (mask : Nat)
  | power (target stage arms cams pipes : Nat)
  | fabLoad (store : Bool) (stage : Nat)
  | fabRelease
  | take (mask left bring : Nat)
  | leave (mask left : Nat)
  deriving DecidableEq, Repr

/-- The boot-scene command list in progress (R627): the bytes left, and the ordinal of the entry being performed. -/
structure BootList where
  rest : List Byte
  idx : Nat
  cold : Bool
  deriving DecidableEq, Repr

/-- Stationmaster (chapter 12): the version of the image that runs; the displays; what RUNNING commands wait for, by mailbox
(4 is the boot list); the boot list in progress and the final status of its entry (R627); the totals of RC registers
(R512); repeated frames and underrun lines by pipe, error frames and dropped frames by camera port; reserve periods spent
at the ends of the last 1,024 frames, newest first; and the channels, streams and pipes that a power-down stopped
(R612). -/
structure Sm where
  version : Word
  disp : List SmDisp
  waits : List (Nat × SmWait)
  boot : Option BootList
  status : Option Nat                     -- the final status of the list entry performed (R627)
  ceTot : List Nat
  ueTot : List Nat
  collTot : Nat
  storeTot : Nat
  pipeTot : List (Nat × Nat)
  camTot : List (Nat × Nat)
  resHist : List Nat
  parked : Option (Nat × Nat × Nat)
  deriving DecidableEq, Repr

def SmDisp.init : SmDisp := ⟨false, none, none, [], none, 0⟩

def Sm.init : Sm where
  version := 0
  disp := List.replicate 4 SmDisp.init
  waits := []
  boot := none
  status := none
  ceTot := List.replicate 4 0
  ueTot := List.replicate 4 0
  collTot := 0
  storeTot := 0
  pipeTot := List.replicate 4 (0, 0)
  camTot := List.replicate 6 (0, 0)
  resHist := []
  parked := none

/-- KINDk of the pointer record (R628): active slot, trial, trials, and the states of slots A and B (0 INCOMPLETE,
1 COMPLETE, 2 VERIFIED, 3 GOOD). -/
structure ImgKind where
  active : Nat
  trial : Bool
  trials : Nat
  slots : List Nat
  deriving DecidableEq, Repr

/-- Images and updates (R617 to R632): the external flash by offset (unlisted: 0xFF, erased), the pointer record in force,
the bytes received in the session, and the rollback floors, each kind's records in the order programmed. -/
structure Upd where
  ext : List (Nat × Byte)
  kinds : List ImgKind
  sessKind : Nat
  sess : Nat                              -- 0 NONE, 1 RECEIVING, 2 COMPLETE, 3 VERIFIED
  length : Nat
  version : Nat
  got : Nat
  floors : List (List Nat)
  deriving DecidableEq, Repr

def Upd.init : Upd where
  ext := []
  kinds := List.replicate 4 ⟨0, false, 0, [0, 0]⟩
  sessKind := 0
  sess := 0
  length := 0
  version := 0
  got := 0
  floors := List.replicate 4 []

/-- What the device sends out, in order: the observable outputs of the commands. -/
inductive Out where
  | msix (vec : Nat) (addr : Nat) (data : Word)      -- an MSI-X memory write (R478)
  | completion (ok : Bool) (data : List Byte)        -- a BAR read's completion; not ok is Completer Abort (R38, R450)
  | unsupported                                      -- Unsupported Request (R450)
  | configRetry                                      -- Configuration Request Retry Status (R471)
  | miso (d s : Option Word)                         -- the frames the safety port drives (R453); none is lost
  | response (port tag : Nat) (r : Resp) (data : List Byte)  -- a response at an initiator that is not modelled (R339)
  | can (id : Nat) (data : List Byte)                -- a CAN FD frame of the Guard's van (R543)
  | cpl (port ty seq : Nat) (arg : Word) (ws : List Word64)  -- a frame that a Coupler port sends (R554)
  deriving DecidableEq, Repr

/-- The machine. `regs` is the register bank (key: Dispatcher address minus 0x0200_0000, R32); `free` counts the free
values taken so far and is the model's own field (log entry 3); `out` is what the device has sent; `pending` the
commands that wait, first in, first out. -/
structure State where
  regs : List (Nat × Word)
  arr : Arr
  trv : Trv
  disp : Disp
  cs : Cs
  mem : Mem
  jt : Jt
  pcie : Pcie
  part : Part
  log : List LogEntry                     -- oldest first (R513)
  logSeq : Nat                            -- SEQ the next entry takes
  repair : Repair
  sched : Sched
  kernels : List Kernel                   -- by KID (R505)
  running : Option (Nat × Option Nat)     -- kernel that runs, and the display its strip belongs to (R506)
  pwr : Pwr
  cpl : Cpl
  fab : Fab
  sm : Sm
  upd : Upd
  streams : List Stream                   -- stream v of port n at index 4 n + v
  pipes : List Pipe
  il : Il
  tkt : To
  van : Van
  free : Nat
  out : List Out
  pending : List Instr
  deriving DecidableEq, Repr

/-- How a command stops the machine. What the spec calls an error is an effect on State, so no command raises one. -/
inductive Fault where
  /-- Raised by no command; safe. -/
  | never
  deriving DecidableEq, Repr

/-- Why a command has no meaning here. -/
inductive Refusal where
  /-- Raised by Dispatch for a command whose meaning is not written yet; safe. -/
  | notModelled (mnemonic : String)
  deriving DecidableEq, Repr

/-- The machine right after power-on and the release of RESET_N, before boot ROM runs: every register at its reset value
(R12), the Dispatcher as R200 says, every memory unwritten (R52, R287). -/
def State.reset : State where
  regs := []
  arr := ⟨none, [], false, false, none, [], [], 0, [], 0⟩
  trv := ⟨[], false⟩
  disp := ⟨0, 0, 0, 0, 0x2F0, 0, 0x200, 0, 0, 0, 0, 0, 0, 0, 0, [], [], 0, 0, 0,
    ⟨none, none, none, none, none⟩, none, none, none, none, .none, false, none, none⟩
  cs := ⟨[], []⟩
  mem := ⟨[], none, [], none, [], [], [], [], none, 0, 0, none, false⟩
  jt := ⟨[], [], 0, [], 0⟩
  pcie := ⟨false, false, false, false⟩
  part := ⟨true, false⟩
  log := []
  logSeq := 0
  repair := ⟨[], [], []⟩
  sched := ⟨false, 0, 0, 0, false, false, none, false, false, [], [], [], none, [], 0, []⟩
  kernels := []
  running := none
  pwr := Pwr.init
  cpl := Cpl.init
  fab := Fab.init
  sm := Sm.init
  upd := Upd.init
  streams := List.replicate 24 Stream.init
  pipes := List.replicate 4 Pipe.init
  il := Il.init
  tkt := ⟨[], 0, none⟩
  van := Van.init
  free := 0
  out := []
  pending := []

end Sys2Proof.Machine
end

