-- ==== Sys2Proof/Machine/Ops.lean ====
section
/-! DEFINITION. The named operations every meaning is built from: reading and writing registers and their fields, free
values, outputs, interrupt sources, MSI-X, and the accounting of memory errors. -/

namespace Sys2Proof.Machine

/-! Registers -/

/-- What key `a` of the register bank reads as when nothing was written: its reset value. The copy in force of a register
(`Reg.act`) has the reset value of its staged copy. -/
def bankDefault (a : Nat) : Word := regReset a

/-- The stored value of register `a`. -/
def State.reg (s : State) (a : Nat) : Word := Store.get bankDefault s.regs a

/-- Store `v` in register `a`. -/
def State.setReg (s : State) (a : Nat) (v : Word) : State := { s with regs := Store.set bankDefault s.regs a v }

/-- Bits `hi` to `lo` of a word, as a number (R7). -/
def bitsOf (v : Word) (hi lo : Nat) : Nat := v.toNat / 2 ^ lo % 2 ^ (hi + 1 - lo)

/-- The word with bits `hi` to `lo` replaced by the low bits of `n`. -/
def putBits (v : Word) (hi lo n : Nat) : Word :=
  BitVec.ofNat 32 (v.toNat - bitsOf v hi lo * 2 ^ lo + n % 2 ^ (hi + 1 - lo) * 2 ^ lo)

/-- Field [hi:lo] of register `a`. -/
def State.fld (s : State) (a hi lo : Nat) : Nat := bitsOf (s.reg a) hi lo

/-- Write field [hi:lo] of register `a`. -/
def State.setFld (s : State) (a hi lo n : Nat) : State := s.setReg a (putBits (s.reg a) hi lo n)

/-- Bit `n` of register `a`. -/
def State.bit (s : State) (a n : Nat) : Bool := (s.reg a).getLsbD n

/-- Set or clear bit `n` of register `a`. -/
def State.setBit (s : State) (a n : Nat) (b : Bool) : State := s.setFld a n n (if b then 1 else 0)

/-- Increase a count that saturates at all ones in field [hi:lo]. -/
def State.satInc (s : State) (a hi lo : Nat) : State :=
  if s.fld a hi lo + 1 < 2 ^ (hi + 1 - lo) then s.setFld a hi lo (s.fld a hi lo + 1) else s

/-- A write of `v` under the access codes of the register's fields (R9): RW bits take the value, W1C bits are cleared and
W1S bits set where the value has a 1, every other bit stays. -/
def State.codeWrite (s : State) (a : Nat) (v : Word) : State :=
  match regRow? a with
  | none => s
  | some r =>
    let rw := BitVec.ofNat 32 r.rw
    s.setReg a ((((s.reg a &&& ~~~rw) ||| (v &&& rw)) &&& ~~~(v &&& BitVec.ofNat 32 r.w1c)) ||| (v &&& BitVec.ofNat 32 r.w1s))

/-! Free values and outputs -/

/-- The next free value's index, and the state that has used it (log entry 3). -/
def State.useFree (s : State) : State := { s with free := s.free + 1 }

/-- Send something out of the device. -/
def State.emit (s : State) (o : Out) : State := { s with out := s.out ++ [o] }

/-! Interrupt sources (R474 to R479) -/

/-- The register among four, one bit a source, that holds the bit of source `i`. -/
def icReg (r i : Nat) : Nat := r + 4 * (i / 32 % 4)

/-- The register among two, one bit a vector, that holds the bit of vector `v`. -/
def vecReg (r v : Nat) : Nat := r + 4 * (v / 32 % 2)

/-- Whether source `i` is routed to the host, and to which vector (R484). -/
def State.hroute (s : State) (i : Nat) : Option Nat :=
  if s.bit (Reg.IC_HROUTE + 4 * (i / 4)) (8 * (i % 4) + 7) then
    some (s.fld (Reg.IC_HROUTE + 4 * (i / 4)) (8 * (i % 4) + 5) (8 * (i % 4)))
  else none

/-- Vector `v` requests while a source routed to it has HPEND = 1 (R478). -/
def State.vecRequests (s : State) (v : Nat) : Bool :=
  (List.range 128).any fun i => s.bit (icReg Reg.IC_HPEND i) (i % 32) && s.hroute i == some v

/-- A message of vector `v` cannot be sent: masked, or the function's enables are off (R479). -/
def State.vecBlocked (s : State) (v : Nat) : Bool :=
  s.bit (Reg.MSIX_TABLE + 16 * v + 12) 0 || !s.pcie.msixEnable || s.pcie.msixFuncMask || !s.pcie.busMaster

/-- Judge vector `v` after a change: send its message and set its in-service bit, or set its PBA bit, or drop a PBA bit
that nothing asks for any more (R478, R479). -/
def State.vecUpdate (s : State) (v : Nat) : State :=
  if s.vecRequests v then
    if s.bit (vecReg Reg.IC_HINSVC v) (v % 32) then s
    else if s.vecBlocked v then s.setBit (vecReg Reg.MSIX_PBA v) (v % 32) true
    else
      ((s.setBit (vecReg Reg.MSIX_PBA v) (v % 32) false).setBit (vecReg Reg.IC_HINSVC v) (v % 32) true).emit
        (.msix v ((s.reg (Reg.MSIX_TABLE + 16 * v)).toNat + 2 ^ 32 * (s.reg (Reg.MSIX_TABLE + 16 * v + 4)).toNat)
          (s.reg (Reg.MSIX_TABLE + 16 * v + 8)))
  else s.setBit (vecReg Reg.MSIX_PBA v) (v % 32) false

/-- Judge all 64 vectors. -/
def State.vecUpdateAll (s : State) : State := (List.range 64).foldl State.vecUpdate s

/-- Source `i` fires (R474): PEND, or LOST when PEND is already 1; and HPEND if it is routed to the host. -/
def State.fire (s : State) (i : Nat) : State :=
  let b := i % 32
  let s1 := if s.bit (icReg Reg.IC_PEND i) b then s.setBit (icReg Reg.IC_LOST i) b true else s.setBit (icReg Reg.IC_PEND i) b true
  match s1.hroute i with
  | none => s1
  | some v => (s1.setBit (icReg Reg.IC_HPEND i) b true).vecUpdate v

/-- Fire a source when a condition holds. -/
def State.fireIf (s : State) (c : Bool) (i : Nat) : State := if c then s.fire i else s

/-- The priority value of source `i` (R476). -/
def State.icPrio (s : State) (i : Nat) : Nat := s.fld (Reg.IC_PRIO + 4 * (i / 16)) (2 * (i % 16) + 1) (2 * (i % 16))

/-- Eligible: PEND = 1, ACT = 0, enabled (R476). -/
def State.icEligible (s : State) (i : Nat) : Bool :=
  s.bit (icReg Reg.IC_PEND i) (i % 32) && !s.bit (icReg Reg.IC_ACTIVE i) (i % 32) &&
    s.bit (icReg Reg.IC_EN i) (i % 32)

/-- Eligible and of a priority value below that of every active source (R476). -/
def State.icQualifies (s : State) (i : Nat) : Bool :=
  s.icEligible i &&
    (List.range 128).all fun j => !s.bit (icReg Reg.IC_ACTIVE j) (j % 32) || decide (s.icPrio i < s.icPrio j)

/-- The qualifying source of the lowest priority value, then of the lowest number (R476). -/
def State.icTop (s : State) : Option Nat :=
  (List.range 128).foldl (fun best i =>
    if s.icQualifies i then
      match best with
      | none => some i
      | some j => if s.icPrio i < s.icPrio j then some i else some j
    else best) none

/-- The controller presents a request to the Dispatcher (R476). -/
def State.icRequest (s : State) : Bool := s.icTop.isSome

/-! Records -/

/-- A record of the first event while VALID = 0: `reg` holds VALID in bit 31 and OVF in bit 30; a later event sets OVF and
leaves the record (the form of R144, R273, R323, R358, R360, R483). -/
def State.record (s : State) (reg : Nat) (fill : State → State) : State :=
  if s.bit reg 31 then s.setBit reg 30 true else (fill s).setBit reg 31 true

/-! Memory errors (R290 to R295) -/

/-- The per-kind block of kind `k` (R327). -/
def kindReg (r k : Nat) : Nat := r + 0x80 * (k % 4)

/-- Write a log entry of kind `k` under the ring rules of R292. -/
def State.logCE (s : State) (k addr syn : Nat) : State :=
  let cnt := s.fld (kindReg Reg.LOG_STAT k) 11 8
  let old := s.fld (kindReg Reg.LOG_STAT k) 2 0
  let i := (old + cnt) % 8
  let s1 := (s.setReg (kindReg Reg.LOG_LO k + 8 * i) (BitVec.ofNat 32 addr)).setReg (kindReg Reg.LOG_HI k + 8 * i)
    (BitVec.ofNat 32 (syn % 256 * 2 ^ 24 + addr / 2 ^ 32 % 2 ^ 20))
  if cnt = 8 then (s1.setFld (kindReg Reg.LOG_STAT k) 2 0 ((old + 1) % 8)).setBit (kindReg Reg.LOG_STAT k) 31 true
  else s1.setFld (kindReg Reg.LOG_STAT k) 11 8 (cnt + 1)

/-- Raise the level of the leaky bucket of kind `k`; the increase that reaches THRESH overflows (R293). -/
def State.bucketUp (s : State) (k : Nat) : State :=
  if s.bit (kindReg Reg.BKT_STAT k) 31 then s
  else if s.fld (kindReg Reg.BKT_STAT k) 7 0 + 1 = s.fld (kindReg Reg.BKT_CFG k) 7 0 then
    ((s.setFld (kindReg Reg.BKT_STAT k) 7 0 0).setBit (kindReg Reg.BKT_STAT k) 31 true).fire (48 + k)
  else s.setFld (kindReg Reg.BKT_STAT k) 7 0 (s.fld (kindReg Reg.BKT_STAT k) 7 0 + 1)

/-- A counted correctable error of kind `k` (R291). -/
def State.countCE (s : State) (k addr syn : Nat) : State :=
  ((s.satInc (kindReg Reg.CE_COUNT k) 31 0).logCE k addr syn).bucketUp k

/-- Counting of an uncorrectable word of kind `k` (R295): UE_COUNT and the UE record. -/
def State.countUE (s : State) (k addr syn : Nat) : State :=
  (s.satInc (kindReg Reg.UE_COUNT k) 31 0).record (kindReg Reg.UE_HI k) fun s =>
    ((s.setReg (kindReg Reg.UE_LO k) (BitVec.ofNat 32 addr)).setFld (kindReg Reg.UE_HI k) 27 20 syn).setFld
      (kindReg Reg.UE_HI k) 19 0 (addr / 2 ^ 32)

/-- Stationmaster writes an entry of its log, the newest replacing the oldest of 4,096 (R513). The time of the entry is a
free value: the model has no clock. -/
def State.logEvent (s : State) (code detail detail2 : Nat) : State :=
  let e : LogEntry := ⟨s.logSeq, Config.freeWord s.free 0,
    BitVec.ofNat 32 (code * 2 ^ 24 + s.pwr.starts % 256 * 2 ^ 16 + detail % 2 ^ 16), BitVec.ofNat 32 detail2⟩
  { s with log := (if s.log.length ≥ 4096 then s.log.drop 1 else s.log) ++ [e],
           logSeq := (s.logSeq + 1) % 2 ^ 32, free := s.free + 1 }

/-! Power requests (R491, R601, R614) -/

/-- The Dispatcher runs: Run, and neither in reset nor halted by GO (R601, R612). -/
def State.dispOn (s : State) : Bool :=
  s.pwr.mode == .run && !s.pwr.resetN && match s.pwr.phase with
    | .dropping _ | .switching _ | .down _ | .discharging _ | .up _ => false
    | _ => true

/-- A transition or start is in progress (PWR_STAT.TRANS). -/
def State.pwrBegin (s : State) (ph : PwrPhase) (target : Nat) : State :=
  ({ s with pwr := { s.pwr with phase := ph } }.setBit Reg.PWR_STAT 12 true).setFld Reg.PWR_STAT 11 9 target

/-- A request is latched during a transition (R614): source 125. -/
def State.pwrLatch (s : State) (target : Nat) : State :=
  ((s.setBit Reg.PWR_STAT 16 true).setFld Reg.PWR_STAT 15 13 target).fire 125

/-- An accepted request for Run, from a POWER command or WAKE_N (R491, R607, R614): in Idle and Sleep the exit starts; during
an entry to them the request is latched; elsewhere it has no effect. -/
def State.pwrToRun (s : State) : State :=
  match s.pwr.phase with
  | .stable => if s.pwr.mode = .idle ∨ s.pwr.mode = .sleep then s.pwrBegin (.switching 0) 0 else s
  | .entering t | .switching t => if t = 1 ∨ t = 2 then s.pwrLatch 0 else s
  | _ => s

/-! Responses -/

/-- The encoding of a response (R339). -/
def respCode : Resp → Nat
  | .ok => 0 | .decerr => 1 | .slverr => 2 | .timeout => 3 | .collided => 4 | .narrow => 5 | .denied => 6 | .poison => 7

/-- The response a code stands for. -/
def respOf (n : Nat) : Resp :=
  match n with
  | 0 => .ok | 1 => .decerr | 2 => .slverr | 3 => .timeout | 4 => .collided | 5 => .narrow | 6 => .denied | _ => .poison

/-- Bits `hi` to `lo` of a number. -/
def natBits (n hi lo : Nat) : Nat := n / 2 ^ lo % 2 ^ (hi + 1 - lo)

/-- A number from its bytes, least significant first (R8). -/
def leNat : List Byte → Nat
  | [] => 0
  | b :: t => b.toNat + 256 * leNat t

/-- The `n` lowest bytes of a number, least significant first (R8). -/
def natLe : Nat → Nat → List Byte
  | 0, _ => []
  | n + 1, v => BitVec.ofNat 8 v :: natLe n (v / 256)

/-- Replace the element at index `i`. -/
def listSet {α : Type} : List α → Nat → α → List α
  | [], _, _ => []
  | _ :: t, 0, v => v :: t
  | a :: t, i + 1, v => a :: listSet t i v

end Sys2Proof.Machine
end

