-- ==== Sys2Proof/Machine/Array.lean ====
section
/-! DEFINITION. The Platform array (chapter 02): the map from logical to physical Platforms, row words through the code and
the column substitutions, the bit-step, the links, the Signal box and the array registers. A row word is handled as 66
lanes: the 64 logical columns, then the two Sidings columns. Row words are numbered `32 * p + r`. -/

namespace Sys2Proof.Machine

/-! Registers of a row of Platforms and of a Platform. A number counts modulo their count, so that the key stays among
theirs. -/

/-- PROW_MAPn. -/
def rowMap (n : Nat) : Nat := Reg.PROW_MAP + 4 * (n % 8)

/-- COLMONp. -/
def colmonReg (p : Nat) : Nat := Reg.COLMON + 4 * (p % 72)

/-- COL_SUBp. -/
def colSubReg (p : Nat) : Nat := Reg.COL_SUB + 4 * (p % 72)

abbrev Lanes := BitVec 66

/-- How many row words a plane has: 72 Platforms of 32 rows (R42). -/
abbrev rowWords : Nat := 2304

/-- Plane numbers of the state bits (R51). -/
abbrev planeC : Nat := 1024
abbrev planeM : Nat := 1025
abbrev planeF : Nat := 1026
abbrev planeN : Nat := 1027

/-! Maps (R42 to R48) -/

/-- Whether slot `slot` of row `r` is a gap, by the applied map (R44, R45). -/
def State.isGap (s : State) (r slot : Nat) : Bool :=
  s.fld (Reg.act (rowMap r)) 3 0 == slot ||
    (s.fld (Reg.act (rowMap r)) 7 4 != 15 && s.fld (Reg.act (rowMap r)) 7 4 == slot)

/-- The logical Platform that slot `slot` of row `r` serves: slots that are no gap serve `px` in ascending order (R44, R45). -/
def State.logicalOf (s : State) (r slot : Nat) : Option Nat :=
  if s.isGap r slot then none else some ((List.range slot).countP fun t => !s.isGap r t)

/-- The slot that serves logical Platform `px` of row `r`; none when the Platform is absent (R45). -/
def State.slotOf (s : State) (r px : Nat) : Option Nat :=
  (List.range 9).find? fun slot => s.logicalOf r slot == some px

/-- Some row has an absent Platform (ARR_STATUS.REDUCED, R45). -/
def State.reduced (s : State) : Bool :=
  (List.range 8).any fun r => s.fld (Reg.act (rowMap r)) 7 4 != 15

/-- The in-service test owns Platform `p` while BIST_STATUS.BUSY = 1 for it (R181). -/
def State.bistOwns (s : State) (p : Nat) : Bool := s.bit Reg.BIST_STATUS 7 && s.fld Reg.BIST_STATUS 6 0 == p

/-- Platform `p` executes bit-steps (R46, R85): it serves a logical Platform, or SPARE_EXEC lets a gap slot execute that
the test does not own; and its acknowledgements are not ignored. A mirror's destination executes none of its own (R182). -/
def State.executes (s : State) (p : Nat) : Bool :=
  ((s.logicalOf (p / 9) (p % 9)).isSome || (s.bit Reg.ARR_CTL 0 && !s.bistOwns p &&
      !(s.bit Reg.MIRROR_CTL 12 && s.fld Reg.MIRROR_CTL 10 8 * 9 + s.fld Reg.MIRROR_CTL 7 4 == p))) &&
    !s.arr.silent.contains p

/-! Column substitution (R158, R164) -/

/-- State and target of Sidings slot `j` of Platform `p`, as applied. -/
def State.subOf (s : State) (p j : Nat) : Nat × Nat :=
  if j = 0 then (s.fld (Reg.act (colSubReg p)) 9 8, s.fld (Reg.act (colSubReg p)) 6 0)
  else (s.fld (Reg.act (colSubReg p)) 25 24, s.fld (Reg.act (colSubReg p)) 22 16)

/-- The substitutions of both slots of a Platform. -/
structure Subs where
  st0 : Nat
  t0 : Nat
  st1 : Nat
  t1 : Nat

def State.subsOf (s : State) (p : Nat) : Subs :=
  ⟨(s.subOf p 0).1, (s.subOf p 0).2, (s.subOf p 1).1, (s.subOf p 1).2⟩

/-- The physical column that serves code position `q` (0 to 63 data, 64 to 71 check; R158). -/
def Subs.col (u : Subs) (q : Nat) : Nat :=
  if u.st0 = 2 ∧ u.t0 = q then 72 else if u.st1 = 2 ∧ u.t1 = q then 73 else q

/-- The code word of a physical row word (R158). -/
def Subs.gather (u : Subs) (w : Word74) : Word72 :=
  let w72 : Word72 := w.extractLsb' 0 72
  let a : Word72 := if u.st0 = 2 then (if w.getLsbD 72 then w72 ||| 1#72 <<< u.t0 else w72 &&& ~~~(1#72 <<< u.t0)) else w72
  if u.st1 = 2 then (if w.getLsbD 73 then a ||| 1#72 <<< u.t1 else a &&& ~~~(1#72 <<< u.t1)) else a

/-- A physical row word that stores code word `c` over the old contents `old`, with the bits `sid` for Sidings columns
that are unused; a shadowing Sidings column takes its target's bit, and the column an ACTIVE slot replaces keeps its old
bit (R158, R164). -/
def Subs.scatter (u : Subs) (old : Word74) (c : Word72) (sid : BitVec 2) : Word74 :=
  let keep0 : Word72 := if u.st0 = 2 then 1#72 <<< u.t0 else 0
  let keep1 : Word72 := if u.st1 = 2 then 1#72 <<< u.t1 else 0
  let keep := keep0 ||| keep1
  let lo : Word72 := (c &&& ~~~keep) ||| (old.extractLsb' 0 72 &&& keep)
  let b0 := if u.st0 = 0 then sid.getLsbD 0 else c.getLsbD u.t0
  let b1 := if u.st1 = 0 then sid.getLsbD 1 else c.getLsbD u.t1
  BitVec.ofBool b1 ++ BitVec.ofBool b0 ++ lo

/-! Row words -/

/-- The state word of M after reset: every PE has M = 1 and the check latches agree (R52). -/
def maskReset : Word74 := (3#2 ++ encode72 (BitVec.allOnes 64) : Word74)

/-- What an unlisted row word of plane `a` holds. -/
def planeDefault (base : Option Word74) (a : Nat) : Nat → Option Word74 :=
  fun _ => if a = planeM then some maskReset else base

/-- The cells of plane `a`, in row-word order. -/
def State.planeCells (s : State) (a : Nat) : List (Option Word74) :=
  Store.dense (planeDefault s.arr.base a) 0 rowWords (Store.get (fun _ => []) s.arr.planes a)

/-- Put the cells of plane `a`. -/
def State.setPlaneCells (s : State) (a : Nat) (cells : List (Option Word74)) : State :=
  let new := Store.sparse (planeDefault s.arr.base a) 0 cells
  { s with arr := { s.arr with planes := Store.set (fun _ => []) s.arr.planes a new } }

/-- The physical contents of a cell; a cell that was never written has free contents, but the data of C, N and F are 0
then and only their check latches are free (R52, R68). -/
def cellWord (s : State) (a k : Nat) (c : Option Word74) : Word74 :=
  match c with
  | some w => w
  | none =>
    if a < 1024 then Config.freeRow s.free (a * rowWords + k)
    else Config.freeRow s.free (a * rowWords + k) &&& (0xFF#74 <<< 64)

/-- A row word as read through the code. -/
structure RowRead where
  lanes : Lanes
  stat : CodeStat
  raw : Word74

/-- Read a cell of Platform `p` through its substitutions and the code (R65, R156 to R158). -/
def readCell (s : State) (a k : Nat) (c : Option Word74) : RowRead :=
  let w := cellWord s a k c
  let u := s.subsOf (k / 32)
  let r := decode72 (u.gather w)
  ⟨(w.extractLsb' 72 2 ++ r.1 : Lanes), r.2, w⟩

/-- Every row word of plane `a` as read. -/
def State.readPlane (s : State) (a : Nat) : Array RowRead :=
  ((s.planeCells a).zipIdx.map fun ck => readCell s a ck.2 ck.1).toArray

/-- Lanes of row word `k` of a plane that was read. -/
def laneAt (t : Array RowRead) (k : Nat) : Lanes := (t[k]?.map (·.lanes)).getD 0

/-! Accounting of what reads found (R65 to R67, R157, R161, R290, R291) -/

/-- An error that a read of a row word or state word found: the row word, its plane, whether it was the old contents
under a masked write, and what the code said. -/
structure Note where
  k : Nat
  plane : Nat
  old : Bool
  stat : CodeStat

/-- The errors that a read of plane `a` found in the Platforms that execute. -/
def notesOf (a : Nat) (old : Bool) (t : Array RowRead) (ex : Nat → Bool) : List Note :=
  (t.toList.zipIdx).filterMap fun rk =>
    if ex (rk.2 / 32) ∧ rk.1.stat ≠ .clean then some ⟨rk.2, a, old, rk.1.stat⟩ else none

/-- The address a kind-2 log entry or UE record gives a row word (R292); bit 22 marks a state word. -/
def kind2Addr (k plane : Nat) : Nat :=
  if plane < 1024 then k / 32 * 2 ^ 15 + k % 32 * 2 ^ 10 + plane
  else 2 ^ 22 + k / 32 * 2 ^ 15 + k % 32 * 2 ^ 10 +
    (if plane = planeC then 0 else if plane = planeN then 1 else if plane = planeF then 2 else 3)

/-- Log a Platform in ARR_ERR_STAT for an uncorrectable row word (R66) or a missed acknowledgement (R85); the first event
of either kind fills the fields, a later one sets OVF (R91). -/
def State.arrEvent (s : State) (bitNo p row : Nat) (addr : Option (Nat × Nat)) : State :=
  if s.bit Reg.ARR_ERR_STAT 0 || s.bit Reg.ARR_ERR_STAT 3 then
    (s.setBit Reg.ARR_ERR_STAT 1 true).setBit Reg.ARR_ERR_STAT bitNo true
  else
    let s1 := ((s.setFld Reg.ARR_ERR_STAT 20 14 p).setFld Reg.ARR_ERR_STAT 25 21 row).setBit Reg.ARR_ERR_STAT bitNo true
    match addr with
    | some (a, syn) => (s1.setFld Reg.ARR_ERR_ADDR 9 0 a).setFld Reg.ARR_ERR_ADDR 23 16 syn
    | none => s1

/-- Platform `p` has missed the acknowledgement limit (R85): it is logged, source 67 is raised, and its acknowledgements
are ignored from then on. -/
def State.ackTimeout (s : State) (p : Nat) : State :=
  let s1 := (s.arrEvent 3 p 0 none).fire 67
  { s1 with arr := { s1.arr with silent := if s1.arr.silent.contains p then s1.arr.silent else s1.arr.silent ++ [p] } }

/-- The column monitor of Platform `p` after an event that corrected the physical columns `cols` (R161). -/
def State.colMonitor (s : State) (p : Nat) (cols : List Nat) : State :=
  let r := colmonReg p
  let col := s.fld r 6 0
  if cols = [] then s
  else
    let run := if cols.all (· == col) then min 255 (s.fld r 15 8 + 1) else 1
    let least := cols.foldl min (cols.headD 0)
    let s1 := (s.setFld r 6 0 (if cols.all (· == col) then col else least)).setFld r 15 8 run
    s1.fireIf (run == s.fld Reg.COLMON_CFG 7 0 && s.fld Reg.COLMON_CFG 7 0 != 0 && !(s.fld r 15 8 == 255 && run == 255)) 70

/-- The note that names the counted error of an event: row words before state words, then the lowest row, then the order
the reads were made in; of state words the order C, N, F, M (R291). -/
def namedNote (ns : List Note) : Option Note :=
  let rank := fun n : Note => if n.plane < 1024 then n.k % 32 else
    1000 + 4 * (n.k % 32) + (if n.plane = planeC then 0 else if n.plane = planeN then 1 else if n.plane = planeF then 2 else 3)
  ns.foldl (fun best n => match best with
    | none => some n
    | some b => if rank n < rank b then some n else some b) none

/-- Count what one event corrected in Platform `p`: one error of kind 2, and the column monitor (R161, R290, R291). -/
def State.countFixed (s : State) (p : Nat) (ns : List Note) : State :=
  let mine := ns.filter fun n => n.k / 32 == p
  let fixes := mine.filterMap fun n => match n.stat with | .fixed pos syn => some (n, pos, syn) | _ => none
  match namedNote (fixes.map (·.1)) with
  | none => s
  | some n =>
    let syn := match n.stat with | .fixed _ syn => syn | _ => 0
    (s.countCE 2 (kind2Addr n.k n.plane) syn).colMonitor p (fixes.map fun f => (s.subsOf p).col f.2.1)

/-- Handle one uncorrectable word: a row word read (R66), the old contents under a masked write (R67), or a state word
(R157). -/
def State.handleBad (s : State) (n : Note) : State :=
  match n.stat with
  | .bad syn =>
    if n.plane < 1024 then
      if n.old then (s.setBit Reg.ARR_ERR_STAT 2 true).countUE 2 (kind2Addr n.k n.plane) syn
      else ((s.countUE 2 (kind2Addr n.k n.plane) syn).arrEvent 0 (n.k / 32) (n.k % 32) (some (n.plane, syn))).fire 65
    else s.ackTimeout (n.k / 32)
  | _ => s

/-- Account for the errors of one event (a bit-step, a Traverser row-word access, a scrub access). -/
def State.account (s : State) (ns : List Note) : State :=
  if ns.isEmpty then s
  else ns.foldl State.handleBad ((List.range 72).foldl (fun s p => s.countFixed p ns) s)

/-! Writing a plane -/

/-- Store lanes `val` under `gate` into plane `a` of the Platforms that execute: a gated-off lane is written back as the
code corrects it, the check bits are made afresh, and an uncorrectable row word under a partial gate is stored poisoned
(R53, R57, R64, R67). Answers the errors of the old contents. -/
def State.writePlane (s : State) (a : Nat) (ex : Nat → Bool) (gate val : Nat → Lanes) : State × List Note :=
  let rd := s.readPlane a
  let cells := s.planeCells a
  let full : Word64 := BitVec.allOnes 64
  let laneOn := fun p : Nat =>
    let u := s.subsOf p
    let on := s.bit Reg.ARR_CTL 0
    (BitVec.ofBool (on && u.st1 == 0) ++ BitVec.ofBool (on && u.st0 == 0) ++ full : Lanes)
  let on := ((List.range 72).map laneOn).toArray
  let new := cells.zipIdx.map fun ck =>
    let k := ck.2
    if ex (k / 32) then
      let g := gate k &&& on.getD (k / 32) 0
      let r := rd.getD k ⟨0, .clean, 0⟩
      let d := (val k &&& g) ||| (r.lanes &&& ~~~g)
      let partialGate := g.extractLsb' 0 64 != full
      let code := match r.stat with
        | .bad _ => if partialGate ∧ a < 1024 then poison72 (d.extractLsb' 0 64) (Config.freePoison s.free k)
                    else encode72 (d.extractLsb' 0 64)
        | _ => encode72 (d.extractLsb' 0 64)
      some ((s.subsOf (k / 32)).scatter r.raw code (d.extractLsb' 64 2))
    else ck.1
  let notes := (notesOf a true rd ex).filter fun n => (gate n.k).extractLsb' 0 64 != full
  (s.setPlaneCells a new, notes)

/-- The Sidings state bits of shadowing columns take their targets' corrected values, and a mirror's destination takes the
state bits of its source, at every bit-step (R164, R182). -/
def State.copyStates (s : State) : State :=
  let mir := s.bit Reg.MIRROR_CTL 12
  let base := s.fld Reg.MIRROR_CTL 10 8 * 9
  let src := base + s.fld Reg.MIRROR_CTL 3 0
  let dst := base + s.fld Reg.MIRROR_CTL 7 4
  let shadows := (List.range 72).any fun p => (s.subsOf p).st0 == 1 || (s.subsOf p).st1 == 1
  if !mir && !shadows then s
  else [planeC, planeM, planeF, planeN].foldl (fun s a =>
    let rd := s.readPlane a
    let new := (s.planeCells a).zipIdx.map fun ck =>
      let k := ck.2
      let u := s.subsOf (k / 32)
      let r := rd.getD k ⟨0, .clean, 0⟩
      if mir && k / 32 == dst then
        let from' := (rd.getD (32 * src + k % 32) ⟨0, .clean, 0⟩).lanes
        some (u.scatter r.raw (encode72 (from'.extractLsb' 0 64)) (r.lanes.extractLsb' 64 2))
      else if u.st0 == 1 || u.st1 == 1 then
        match ck.1 with
        | some w => some (u.scatter w (checkBits (r.lanes.extractLsb' 0 64) ++ r.lanes.extractLsb' 0 64) (r.lanes.extractLsb' 64 2))
        | none => none
      else ck.1
    s.setPlaneCells a new) s

/-- A row-word write at address `a` reaches the mirror's destination too (R182). -/
def State.mirrorPlane (s : State) (a : Nat) : State :=
  if s.bit Reg.MIRROR_CTL 12 then
    let base := s.fld Reg.MIRROR_CTL 10 8 * 9
    let src := base + s.fld Reg.MIRROR_CTL 3 0
    let dst := base + s.fld Reg.MIRROR_CTL 7 4
    let rd := s.readPlane a
    s.setPlaneCells a ((s.planeCells a).zipIdx.map fun ck =>
      if ck.2 / 32 == dst then
        let r := rd.getD ck.2 ⟨0, .clean, 0⟩
        let from' := (rd.getD (32 * src + ck.2 % 32) ⟨0, .clean, 0⟩).lanes
        some ((s.subsOf dst).scatter r.raw (encode72 (from'.extractLsb' 0 64)) (r.lanes.extractLsb' 64 2))
      else ck.1)
  else s

/-- A bit-step that writes address `a` advances the sweep pointers that stand at `a`: of shadowing Sidings slots (R166)
and of the mirror (R182). -/
def State.sweepAt (s : State) (a : Nat) : State :=
  let s1 := (List.range 144).foldl (fun s i =>
    if (s.subOf (i / 2) (i % 2)).1 = 1 ∧ s.executes (i / 2) ∧ Store.get (fun _ => 0) s.arr.sweep i = a then
      let s2 := { s with arr := { s.arr with sweep := Store.set (fun _ => 0) s.arr.sweep i (a + 1) } }
      if a = 1023 then s2.setBit (colSubReg (i / 2)) (if i % 2 = 0 then 10 else 26) true else s2
    else s) s
  if s1.bit Reg.MIRROR_CTL 12 ∧ s1.arr.mirrorSweep = a then
    let s2 := { s1 with arr := { s1.arr with mirrorSweep := a + 1 } }
    if a = 1023 then s2.setBit Reg.MIRROR_CTL 14 true else s2
  else s1

/-! Links, edges and broadcast lines (R69 to R73) -/

/-- Where the Platforms are, made once for a bit-step: the slot of each logical Platform by `8 r + px`, and the logical
place of each physical one. -/
structure ArrMap where
  slot : Array (Option Nat)
  logical : Array (Option Nat)

def State.arrMap (s : State) : ArrMap :=
  ⟨((List.range 64).map fun i => s.slotOf (i / 8) (i % 8)).toArray,
   ((List.range 72).map fun p => s.logicalOf (p / 9) (p % 9)).toArray⟩

/-- The row word of logical Platform `px` at grid row `y`; an absent Platform drives 0 (R45). -/
def gridWord (m : ArrMap) (v : Nat → Word64) (px y : Nat) : Word64 :=
  match m.slot.getD (y / 32 * 8 + px) none with
  | some slot => v ((y / 32 * 9 + slot) * 32 + y % 32)
  | none => 0

/-- What the PEs of a row word receive over a link (NS 2 to 5: north, east, south, west), with the edge modes of R70. -/
def linkWord (m : ArrMap) (v : Nat → Word64) (ns ew nsMode px y : Nat) : Word64 :=
  let own := gridWord m v px y
  match ns with
  | 2 => if y = 0 then (match nsMode with | 0 => 0 | 1 => gridWord m v px 255 | _ => own) else gridWord m v px (y - 1)
  | 4 => if y = 255 then (match nsMode with | 0 => 0 | 1 => gridWord m v px 0 | _ => own) else gridWord m v px (y + 1)
  | 3 =>
    let inb : Bool := if px = 7 then (match ew with | 0 => false | 1 => (gridWord m v 0 y).getLsbD 0 | _ => own.getLsbD 63)
      else (gridWord m v (px + 1) y).getLsbD 0
    (own >>> 1) ||| (if inb then 1#64 <<< 63 else 0)
  | _ =>
    let inb : Bool := if px = 0 then (match ew with | 0 => false | 1 => (gridWord m v 7 y).getLsbD 63 | _ => own.getLsbD 0)
      else (gridWord m v (px - 1) y).getLsbD 63
    (own <<< 1) ||| (if inb then 1#64 else 0)

/-- The row line: all ones where the OR over the active PEs of grid row `y` is 1 (R73). -/
def rowLine (m : ArrMap) (v msk : Nat → Word64) (y : Nat) : Word64 :=
  if (List.range 8).any fun px => gridWord m (fun k => v k &&& msk k) px y != 0 then BitVec.allOnes 64 else 0

/-- The column lines of logical Platform column `px`: the OR over the active PEs of each column (R73). -/
def colLine (m : ArrMap) (v msk : Nat → Word64) (px : Nat) : Word64 :=
  (List.range 256).foldl (fun acc y => acc ||| gridWord m (fun k => v k &&& msk k) px y) 0

/-- The link input L of every row word for link select `ns` (R59, R69 to R73); gap slots and Sidings columns see 0 (R46). -/
def State.linkIn (s : State) (ns : Nat) (p msk : Nat → Lanes) : Array Lanes :=
  let m := s.arrMap
  let ew := s.fld Reg.ARR_EDGE 9 8
  let nsm := s.fld Reg.ARR_EDGE 11 10
  let v := fun k => (p k).extractLsb' 0 64
  let g := fun k => (msk k).extractLsb' 0 64
  let cols := ((List.range 8).map fun px => if ns = 7 then colLine m v g px else 0).toArray
  let rows := ((List.range 256).map fun y => if ns = 6 then rowLine m v g y else 0).toArray
  ((List.range rowWords).map fun k =>
    if ns ≤ 1 then p k
    else match m.logical.getD (k / 32) none with
      | none => 0
      | some px =>
        let y := k / 32 / 9 * 32 + k % 32
        let w := match ns with
          | 6 => rows.getD y 0
          | 7 => cols.getD px 0
          | _ => linkWord m v ns ew nsm px y
        (0#2 ++ w : Lanes)).toArray

/-! The Signal box (R75 to R82) -/

/-- Take a snapshot: F AND M of every logical PE in a present Platform (R75, R76). A fifth waits until the oldest has been
delivered, which this step then does first (R77, log entry 6). -/
def State.deliverOr (s : State) : State :=
  match s.arr.snaps.findIdx? (fun n => !n.orD) with
  | none => s
  | some i =>
    match s.arr.snaps[i]? with
    | none => s
    | some n =>
      let s1 := { s with arr := { s.arr with snaps := listSet s.arr.snaps i { n with orD := true } } }
      let s2 := (s1.setFld Reg.SB_OR 31 24 n.num).setBit Reg.SB_OR 0 n.orv
      let s3 := { s2 with disp := { s2.disp with psw := putBits s2.disp.psw 4 4 (if n.orv then 1 else 0) } }
      s3.fireIf (match s3.fld Reg.SB_IRQ_CFG 1 0 with | 1 => n.orv | 2 => !n.orv | 3 => true | _ => false) 64

/-- Drop the oldest snapshots with all three results delivered, and advance SB_SEQ.DONE (R78, R99). -/
def State.retireSnaps : Nat → State → State
  | 0, s => s
  | i + 1, s =>
    match s.arr.snaps with
    | n :: t =>
      if n.orD && n.firstD && n.countD then
        State.retireSnaps i ({ s with arr := { s.arr with snaps := t } }.setFld Reg.SB_SEQ 15 8 n.num)
      else s
    | [] => s

def State.deliverFirst (s : State) : State :=
  match s.arr.snaps.findIdx? (fun n => !n.firstD) with
  | none => s
  | some i =>
    match s.arr.snaps[i]? with
    | none => s
    | some n =>
      let s1 := { s with arr := { s.arr with snaps := listSet s.arr.snaps i { n with firstD := true } } }
      (((s1.setFld Reg.SB_FIRST 31 24 n.num).setBit Reg.SB_FIRST 23 n.found).setFld Reg.SB_FIRST 16 8 n.x).setFld
        Reg.SB_FIRST 7 0 n.y

def State.deliverCount (s : State) : State :=
  match s.arr.snaps.findIdx? (fun n => !n.countD) with
  | none => s
  | some i =>
    match s.arr.snaps[i]? with
    | none => s
    | some n =>
      let s1 := { s with arr := { s.arr with snaps := listSet s.arr.snaps i { n with countD := true } } }
      (s1.setFld Reg.SB_COUNT 31 24 n.num).setFld Reg.SB_COUNT 17 0 n.count

/-- The results of capturing F AND M: by grid row and logical Platform in raster order. -/
def snapResults (m : ArrMap) (v : Nat → Word64) : Nat × Option (Nat × Nat) :=
  (List.range 2048).foldl (fun acc i =>
    let w := gridWord m v (i % 8) (i / 8)
    if w = 0 then acc
    else
      let ones := (List.range 64).filter fun c => w.getLsbD c
      (acc.1 + ones.length,
        match acc.2 with
        | some f => some f
        | none => some (i % 8 * 64 + ones.headD 0, i / 8))) (0, none)

def State.snapshot (s : State) : State :=
  let s := if s.arr.snaps.length ≥ 4 then
      State.retireSnaps 4 s.deliverOr.deliverFirst.deliverCount else s
  let f := s.readPlane planeF
  let mk := s.readPlane planeM
  let r := snapResults s.arrMap fun k => (laneAt f k &&& laneAt mk k).extractLsb' 0 64
  let num := (s.fld Reg.SB_SEQ 7 0 + 1) % 256
  let n : Snap := ⟨num, r.1 != 0, r.1, r.2.isSome, (r.2.getD (0, 0)).1, (r.2.getD (0, 0)).2, false, false, false⟩
  { s with arr := { s.arr with snaps := s.arr.snaps ++ [n] } }.setFld Reg.SB_SEQ 7 0 num

/-! The bit-step (R54 to R62, R64) -/

/-- The fields of a bit-step descriptor (R54). -/
structure Desc where
  ra : Nat
  rb : Nat
  wa : Nat
  tt : Nat
  sy : Nat
  sz : Nat
  iy : Bool
  we : Bool
  ws : Bool
  cs : Nat
  ns : Nat
  fs : Nat
  mw : Nat
  snap : Bool

/-- Read the fields of a descriptor; bits 63 to 55 are ignored (R61). -/
def descOf (d : Word64) : Desc :=
  let n := d.toNat
  ⟨natBits n 9 0, natBits n 19 10, natBits n 29 20, natBits n 37 30, natBits n 39 38, natBits n 41 40, n.testBit 42,
    n.testBit 43, n.testBit 44, natBits n 46 45, natBits n 49 47, natBits n 51 50, natBits n 53 52, n.testBit 54⟩

/-- Which inputs a bit-step's results need (R56). -/
def Desc.needX (d : Desc) : Bool := d.cs == 2 || d.tt / 16 != d.tt % 16
def Desc.needY (d : Desc) : Bool := d.cs == 2 || (d.tt ^^^ d.tt >>> 2) &&& 0x33 != 0
def Desc.needZ (d : Desc) : Bool := d.cs == 2 || (d.tt ^^^ d.tt >>> 1) &&& 0x55 != 0

/-- P of every lane: the truth-table bit whose index is 4 X + 2 Y' + Z (R55). -/
def truth (tt : Nat) (x y z : Lanes) : Lanes :=
  (List.range 8).foldl (fun acc i =>
    if tt.testBit i then
      acc ||| ((if i.testBit 2 then x else ~~~x) &&& (if i.testBit 1 then y else ~~~y) &&& (if i.testBit 0 then z else ~~~z))
    else acc) 0

/-- MAJ: at least two of three (R55). -/
def majority (x y z : Lanes) : Lanes := (x &&& y) ||| (x &&& z) ||| (y &&& z)

/-- At the first bit-step of an instruction that begins while none is suspended, ARR_EDGE is copied into its copy in use
(R71). -/
def State.latchEdges (s : State) : State :=
  if s.arr.suspended then s
  else (s.setFld Reg.ARR_EDGE 9 8 (s.fld Reg.ARR_EDGE 1 0)).setFld Reg.ARR_EDGE 11 10 (s.fld Reg.ARR_EDGE 3 2)

/-- Count bit-step times (R93). A bit-step ends a clean window in progress and begins a new one (R189). -/
def State.spend (s : State) (n : Nat) : State :=
  { s with arr := { s.arr with bscnt := (s.arr.bscnt + n) % 2 ^ 64 } }.setBit Reg.EST_STATUS 0 true

/-- One bit-step in every Platform that executes: all reads first, then P and L, then the selected updates under the M
that held when the bit-step began; M itself under MW alone (R55 to R60, R64, R164, R182). -/
def State.bitStep (s : State) (d : Desc) : State :=
  let ex := fun p => s.executes p
  let exA := ((List.range 72).map ex).toArray
  let exf := fun p => exA.getD p false
  let mrd := s.readPlane planeM
  let xrd := if d.needX then s.readPlane d.ra else #[]
  let yplane := match d.sy with | 0 => d.rb | 1 => planeN | 2 => planeC | _ => planeF
  let yrd := if d.needY then s.readPlane yplane else #[]
  let zplane := if d.sz = 0 then planeC else planeN
  let zrd := if d.needZ && d.sz ≤ 1 then s.readPlane zplane else #[]
  let frd := if d.fs ≥ 2 then s.readPlane planeF else #[]
  let x := laneAt xrd
  let y := fun k => if d.iy then ~~~laneAt yrd k else laneAt yrd k
  let z := fun k => match d.sz with | 0 => laneAt zrd k | 1 => laneAt zrd k | 2 => 0 | _ => BitVec.allOnes 66
  let m := laneAt mrd
  let pA := ((List.range rowWords).map fun k => if exf (k / 32) then truth d.tt (x k) (y k) (z k) else 0).toArray
  let p := fun k => pA.getD k 0
  let lA := if d.ws || d.ns ≥ 2 then s.linkIn d.ns p m else pA
  let l := fun k => lA.getD k 0
  let notes0 := notesOf planeM false mrd exf ++ notesOf d.ra false xrd exf ++ notesOf yplane false yrd exf ++
    notesOf zplane false zrd exf ++ notesOf planeF false frd exf
  let all := fun _ : Nat => BitVec.allOnes 66
  let w1 := if d.we then s.writePlane d.wa exf m (if d.ws then l else p) else (s, [])
  let w2 := if d.cs ≠ 0 then w1.1.writePlane planeC exf m
      (match d.cs with | 1 => p | 2 => fun k => majority (x k) (y k) (z k) | _ => fun _ => 0) else (w1.1, [])
  let w3 := if d.ns ≠ 0 then w2.1.writePlane planeN exf m (if d.ns = 1 then p else l) else (w2.1, [])
  let f := laneAt frd
  let w4 := if d.fs ≠ 0 then w3.1.writePlane planeF exf m
      (match d.fs with | 1 => p | 2 => fun k => f k ||| p k | _ => fun k => f k &&& p k) else (w3.1, [])
  let w5 := if d.mw ≠ 0 then w4.1.writePlane planeM exf all
      (match d.mw with | 1 => p | 2 => fun k => m k &&& p k | _ => fun k => m k ||| p k) else (w4.1, [])
  let notes := notes0 ++ w1.2 ++ w2.2 ++ w3.2 ++ w4.2 ++ w5.2
  let s6 := (if d.we then (w5.1.mirrorPlane d.wa).sweepAt d.wa else w5.1).copyStates
  let s7 := ((s6.account notes).useFree).spend (if d.ns ≥ 6 then 2 else 1)
  if d.snap then s7.snapshot else s7

/-- An address a bit-step uses lies in 1008 to 1023; RB counts only when SY = 0, WA only when WE = 1 (R62). -/
def Desc.reserved (d : Desc) : Bool :=
  decide (1008 ≤ d.ra) || (d.sy == 0 && decide (1008 ≤ d.rb)) || (d.we && decide (1008 ≤ d.wa))

/-! Registers of the array -/

/-- The Platforms of row `n` that are gaps are heard again (R85). -/
def State.hearGaps (s : State) (n : Nat) : State :=
  { s with arr := { s.arr with silent := s.arr.silent.filter fun p => !(p / 9 == n && s.isGap n (p % 9)) } }

/-- The transfer in progress learns that the map of row `n` has changed (R138). -/
def State.markMapChanged (s : State) (n : Nat) : State :=
  if s.trv.active then
    { s with trv := { s.trv with held := match s.trv.held with | x :: t => { x with mapChanged := n :: x.mapChanged } :: t | [] => [] } }
  else s

/-- Apply a PROW_MAP value (R48): the routing changes, a slot that becomes a gap is heard again (R85), source 66 is raised,
a transfer in progress ends with MAP_CHANGED (R138), and a mirror of that row ends (R182). -/
def State.applyMap (s : State) (n v : Nat) : State :=
  let s1 := (s.setReg (Reg.act (rowMap n)) (BitVec.ofNat 32 (v % 256))).setReg (rowMap n)
    (BitVec.ofNat 32 (v % 256))
  let s3 := (s1.hearGaps n).markMapChanged n
  let s4 := if s3.bit Reg.MIRROR_CTL 12 ∧ s3.fld Reg.MIRROR_CTL 10 8 = n then s3.setBit Reg.MIRROR_CTL 12 false else s3
  s4.fire 66

/-- Judge a write to PROW_MAPn (R48, R50): refused, held pending while bit-steps are executing, or applied. -/
def State.prowMapWrite (s : State) (n : Nat) (v : Word) (executing : Bool) : State :=
  let g0 := bitsOf v 3 0
  let g1 := bitsOf v 7 4
  if g0 > 8 ∨ (g1 ≠ 15 ∧ g1 > 8) ∨ g1 = g0 then s.setBit Reg.ARR_ERR_STAT 4 true
  else if executing || s.arr.busy then
    s.setReg (rowMap n) (BitVec.ofNat 32 (256 + g1 * 16 + g0))
  else s.applyMap n (g1 * 16 + g0)

/-- ARR_EDGE: 0b11 leaves its field unchanged (R72). -/
def State.arrEdgeWrite (s : State) (v : Word) : State :=
  let s1 := if bitsOf v 1 0 = 3 then s else s.setFld Reg.ARR_EDGE 1 0 (bitsOf v 1 0)
  if bitsOf v 3 2 = 3 then s1 else s1.setFld Reg.ARR_EDGE 3 2 (bitsOf v 3 2)

/-- ARR_STATUS as it reads (R89). -/
def State.arrStatus (s : State) : Word :=
  BitVec.ofNat 32 ((if s.arr.busy then 1 else 0) + (if s.arr.suspended then 2 else 0) +
    (if (List.range 8).any fun n => s.bit (rowMap n) 8 then 4 else 0) + 16 * s.arr.snaps.length +
    (if s.reduced then 256 else 0))

/-! Meanings of the rows of chapter 02 -/

/-- SB_OR_DELIVERED (R78 to R80, R82): the oldest undelivered OR result reaches SB_OR, PSW.GOR and source 64. -/
def execSbOrDelivered (s : State) : Host.Outcome State Fault Refusal := .next (State.retireSnaps 4 s.deliverOr)

/-- SB_FIRST_DELIVERED (R78, R79). -/
def execSbFirstDelivered (s : State) : Host.Outcome State Fault Refusal := .next (State.retireSnaps 4 s.deliverFirst)

/-- SB_COUNT_DELIVERED (R78, R79). -/
def execSbCountDelivered (s : State) : Host.Outcome State Fault Refusal := .next (State.retireSnaps 4 s.deliverCount)

/-- ACK_TIMEOUT (R85). -/
def execAckTimeout (p : Nat) (s : State) : Host.Outcome State Fault Refusal := .next (s.ackTimeout p)

/-- PROW_MAP_WRITE (R48, R50). -/
def execProwMapWrite (n : Nat) (v : Word) (executing : Bool) (s : State) : Host.Outcome State Fault Refusal :=
  .next (s.prowMapWrite n v executing)

/-- MAP_APPLIED (R48): a pending value is applied at a safe point or instruction end. -/
def execMapApplied (n : Nat) (s : State) : Host.Outcome State Fault Refusal :=
  .next (if s.bit (rowMap n) 8 then s.applyMap n (s.fld (rowMap n) 7 0) else s)

/-- A read of ARR_BSCNT_LO: the low half, latching the upper half (R93). -/
def State.bscntLatch (s : State) : State :=
  (s.setReg Reg.ARR_BSCNT_LO (BitVec.ofNat 32 s.arr.bscnt)).setReg Reg.ARR_BSCNT_HI (BitVec.ofNat 32 (s.arr.bscnt / 2 ^ 32))

/-- ARR_BSCNT_LO_READ (R93). -/
def execArrBscntLoRead (s : State) : Host.Outcome State Fault Refusal := .next s.bscntLatch

end Sys2Proof.Machine
end

