-- ==== Sys2Proof/Machine/ArrayInstr.lean ====
section
/-! DEFINITION. The array instructions (chapter 03) as the array performs them: the checks of R107, what every lane
computes, what an instruction leaves behind (R110 to R114), FBIT, FMASK, and the suspend and resume sequences. The Dispatcher
issues them (Machine/Issue.lean). -/

namespace Sys2Proof.Machine

/-! Checks before the first bit-step (R106, R107, R109, R128, R151) -/

/-- Width n of an array instruction (R101). -/
def widthOf (o : AOp) : Nat := o.wm1 + 1

/-- w = ⌈log₂(n + 1)⌉, the result width of FPOP (R114): the bits that hold the number n. -/
def popWidth (n : Nat) : Nat := n.log2 + 1

/-- A field: base and number of planes. -/
abbrev Field := Nat × Nat

/-- The fields A, B and D of an instruction that its operation reads or writes (R109, R115 to R125); the descriptor
template of FBIT is ACC[24:0] (R126). -/
def fieldsOf (opc : Nat) (o : AOp) (acc : Word) : Option Field × Option Field × Option Field :=
  let n := widthOf o
  let b : Option Field := if o.form = 0 then some (o.fb, n) else none
  match opc with
  | 0x20 => (some (o.fa, n), b, some (o.fd, n))
  | 0x21 => (some (o.fa, n), b, some (o.fd, n + 1))
  | 0x22 => (some (o.fa, n), b, some (o.fd, n + 1))
  | 0x23 => (some (o.fa, n), b, none)
  | 0x24 => (some (o.fa, n), b, some (o.fd, 2 * n))
  | 0x25 => (some (o.fa, n), b, some (o.fd, n))
  | 0x26 => (some (o.fa, n), none, some (o.fd, n))
  | 0x27 => (some (o.fa, o.aux), some (o.fb, o.aux + n), some (o.fd, n))
  | 0x28 => (some (o.fa, n), none, some (o.fd, popWidth n))
  | 0x29 => (some (o.fa, n), b, some (o.fd, n))
  | 0x2A =>
    (if o.sub = 3 ∨ o.sub = 4 ∨ o.sub = 7 then some (o.fa, 1) else none, none,
     if o.sub = 0xA then some (o.fd, 1) else none)
  | 0x2B =>
    (some (o.fa, if o.aux.testBit 0 then n else 1),
     if natBits acc.toNat 9 8 = 0 then some (o.fb, if o.aux.testBit 1 then n else 1) else none,
     if acc.getLsbD 13 then some (o.fd, if o.aux.testBit 2 then n else 1) else none)
  | _ => (none, none, none)

/-- The fields an instruction uses, as a list. -/
def fieldList (opc : Nat) (o : AOp) (acc : Word) : List Field :=
  let f := fieldsOf opc o acc
  f.1.toList ++ f.2.1.toList ++ f.2.2.toList

/-- Whether two runs of planes share no plane. -/
def disjoint (x y : Field) : Bool := decide (x.1 + x.2 ≤ y.1) || decide (y.1 + y.2 ≤ x.1)

/-- The overlap rule of R109 for destination `d` and one source `src`. -/
def overlapOk (opc n : Nat) (d src : Field) : Bool :=
  match opc with
  | 0x24 => disjoint d src
  | 0x27 => disjoint d src
  | 0x28 => disjoint d src
  | 0x2A => true
  | 0x2B => true
  | _ => disjoint d src || (d.1 == src.1 && src.2 == n && disjoint (d.1 + n, d.2 - n) src)

/-- FORM, SUB, SGN, SAT, FM, AUX and WM1 hold values permitted for the opcode (R101, R105, R106, R118 to R126). -/
def controlsOk (opc : Nat) (o : AOp) : Bool :=
  let formB := o.form == 0 || (o.form == 1 && decide (widthOf o ≤ 32))
  let noForm := o.form == 0
  let plain := o.sgn == 0 && o.sat == 0
  match opc with
  | 0x20 => formB && plain && o.aux == 0
  | 0x21 => formB && o.aux == 0 && decide (o.sub ≤ 1)
  | 0x22 => formB && o.aux == 0 && decide (o.sub ≤ 2)
  | 0x23 => formB && o.sat == 0 && o.aux == 0 && decide (o.sub ≤ 5)
  | 0x24 => formB && o.sat == 0 && o.aux == 0 && o.sub == 0
  | 0x25 => formB && o.sat == 0 && o.aux == 0 && decide (o.sub ≤ 1)
  | 0x26 => noForm && plain && ((decide (o.sub ≤ 3) && decide (1 ≤ o.aux)) ||
      ((o.sub == 4 || o.sub == 5) && o.aux == 1))
  | 0x27 => noForm && plain && decide (o.sub ≤ 1) && decide (1 ≤ o.aux) && decide (o.aux ≤ 8)
  | 0x28 => noForm && plain && o.aux == 0 && o.sub == 0
  | 0x29 => formB && plain && o.aux == 0 && o.sub == 0
  | 0x2A => noForm && plain && o.aux == 0 && o.fm == 0 && o.wm1 == 0 && (decide (o.sub ≤ 0xC) || o.sub == 0xF)
  | 0x2B => noForm && plain && o.fm == 0 && o.sub == 0 && decide (o.aux < 8)
  | 0x2C => noForm && plain && o.aux == 0 && o.fm == 0 && o.sub == 0
  | 0x2D => noForm && plain && o.fm == 0 && o.sub == 0
  | _ => false

/-- The instruction would use one of planes 1012 to 1015 (R151, R114). -/
def usesReserved (opc : Nat) (o : AOp) : Bool :=
  opc == 0x24 || opc == 0x27 || (o.fm == 3 && (opc == 0x20 || opc == 0x26 || opc == 0x28 || opc == 0x29))

/-- The cause of the trap an array instruction takes instead of its first bit-step: 3 PRIV (R107, R126, R128, R152) before
5 ARRAY_OP (R107), or none. -/
def State.arrayTrap (s : State) (opc : Nat) (o : AOp) (acc : Word) (priv : Bool) : Option Nat :=
  let fs := fieldList opc o acc
  let f := fieldsOf opc o acc
  if !priv && (fs.any (fun x => decide (1008 < x.1 + x.2 ∧ x.1 < 1024)) || opc == 0x2C || (opc == 0x2A && o.sub == 0xF)) then some 3
  else if fs.any (fun x => decide (1024 < x.1 + x.2)) || !controlsOk opc o ||
      (match f.2.2 with
        | some d => (f.1.toList ++ f.2.1.toList).any fun x => !overlapOk opc (widthOf o) d x
        | none => false) ||
      (opc == 0x2C && (acc.toNat % 32 != 0 || decide (0x800000 ≤ acc.toNat))) ||
      (s.arr.suspended && usesReserved opc o) then some 5
  else none

/-! What every lane computes -/

/-- The two's complement value of the low `n` bits of `a`. -/
def signedOf (n a : Nat) : Int := if a.testBit (n - 1) then (a : Int) - 2 ^ n else a

/-- An operand as a number, by SGN. -/
def operandInt (sgn : Bool) (n a : Nat) : Int := if sgn then signedOf n a else a

/-- The result of a field operation in one PE: D, cond, and C where the operation states it (R114). -/
structure LaneOut where
  d : Nat
  cond : Bool
  c : Option Bool

/-- FLOG (R115): D[i] = SUB[2 A[i] + B[i]]. -/
def laneLogic (sub n a b : Nat) : LaneOut :=
  let d := (List.range n).foldr (fun i acc =>
    2 * acc + (sub.testBit (2 * (a / 2 ^ i % 2) + b / 2 ^ i % 2)).toNat) 0
  let d := d
  ⟨d, d != 0, none⟩

/-- Saturation of R117: D[n] stays. -/
def saturate (add sgn : Bool) (n d : Nat) : Nat :=
  if sgn then
    if d.testBit n != d.testBit (n - 1) then
      if d.testBit n then 2 ^ n + 2 ^ (n - 1) else 2 ^ (n - 1) - 1
    else d
  else if d.testBit n then (if add then 2 ^ n + (2 ^ n - 1) else 2 ^ n)
  else d

/-- D[n:0] of a sum or difference, its cond and saturation (R116, R117). -/
def laneSum (add sgn sat : Bool) (n : Nat) (v : Int) : LaneOut :=
  let d := (v % (2 ^ (n + 1) : Int)).toNat
  let cond := if sgn then d.testBit n != d.testBit (n - 1) else d.testBit n
  ⟨if sat then saturate add sgn n d else d, cond, some cond⟩

/-- The relation of FCMP (R118). -/
def laneRel (sub : Nat) (a b : Int) : Bool :=
  match sub with
  | 0 => decide (a = b)
  | 1 => decide (a ≠ b)
  | 2 => decide (a < b)
  | 3 => decide (b ≤ a)
  | 4 => decide (a ≤ b)
  | _ => decide (b < a)

/-- FMUL (R121). -/
def laneMul (sgn : Bool) (n a b : Nat) : LaneOut :=
  let d := ((operandInt sgn n a * operandInt sgn n b) % (2 ^ (2 * n) : Int)).toNat
  let top := d / 2 ^ (n - 1)
  ⟨d, if sgn then top != 0 && top != 2 ^ (n + 1) - 1 else d / 2 ^ n != 0, none⟩

/-- The number of ones among the low `n` bits (R124). -/
def onesOf (n a : Nat) : Nat := (List.range n).countP fun i => a.testBit i

/-- The field operations whose result in a PE depends on that PE alone (R115 to R121, R124). -/
def laneOp (opc sub n : Nat) (sgn sat : Bool) (a b : Nat) (c f : Bool) : LaneOut :=
  let x := operandInt sgn n a
  let y := operandInt sgn n b
  let ci : Int := if c then 1 else 0
  match opc with
  | 0x20 => laneLogic sub n a b
  | 0x21 => laneSum true sgn sat n (if sub = 1 then x + y + ci else x + y)
  | 0x22 => laneSum false sgn sat n (match sub with | 0 => x - y | 1 => y - x | _ => x - y - ci)
  | 0x23 => ⟨0, laneRel sub x y, some (laneRel sub x y)⟩
  | 0x24 => laneMul sgn n a b
  | 0x25 =>
    let takeB := if sub = 0 then decide (y < x) else decide (x < y)
    ⟨if takeB then b else a, takeB, some takeB⟩
  | 0x28 => ⟨onesOf n a, onesOf n a != 0, none⟩
  | _ => ⟨if f then a else b, (if f then a else b) != 0, some f⟩

/-! Planes and lanes -/

/-- The 66 lanes whose bits `f` gives. -/
def lanesOf (f : Nat → Bool) : Lanes :=
  BitVec.ofNat 66 ((List.range 66).foldr (fun c acc => 2 * acc + (f c).toNat) 0)

/-- The number that planes `ps`, lowest first, hold in column `c`. -/
def colField (ps : List Lanes) (c : Nat) : Nat := ps.foldr (fun l acc => 2 * acc + (l.getLsbD c).toNat) 0

/-- The value of plane `a` of every row word. -/
structure Plane where
  a : Nat
  rows : Array Lanes

/-- Row word `k` of the value. -/
def Plane.at (p : Plane) (k : Nat) : Lanes := p.rows.getD k 0

/-- The planes of a field as read. -/
def State.readField (s : State) (f : Field) : List (Array RowRead) :=
  (List.range f.2).map fun i => s.readPlane (f.1 + i)

/-- Row word `k` of every plane of a field. -/
def fieldRow (t : List (Array RowRead)) (k : Nat) : List Lanes := t.map fun p => laneAt p k

/-! Table look-up (R123) -/

/-- The row word of logical Platform `px` at grid row `y`, if that Platform is present. -/
def gridKey (m : ArrMap) (px y : Nat) : Option Nat :=
  (m.slot.getD (y / 32 * 8 + px) none).map fun slot => (y / 32 * 9 + slot) * 32 + y % 32

/-- The row words that lie on the broadcast line of row word `k`: with SUB = 0 its grid row, else its Platform column. -/
def lineKeys (m : ArrMap) (sub k : Nat) : List Nat :=
  match m.logical.getD (k / 32) none with
  | none => []
  | some px =>
    if sub = 0 then (List.range 8).filterMap fun q => gridKey m q (k / 32 / 9 * 32 + k % 32)
    else (List.range 256).filterMap fun y => gridKey m px y

/-- The table of a line as the participating PEs hold it: by key, the OR of the entries; for SUB = 1, of column `col`
alone. -/
def lineTable (sub kbits : Nat) (recs : Nat → List Lanes) (msk : Nat → Lanes) (keys : List Nat) (col : Nat) : Array Nat :=
  keys.foldl (fun t k =>
    let r := recs k
    let m := msk k
    let cols := if sub = 0 then List.range 64 else [col]
    cols.foldl (fun t c =>
      if m.getLsbD c then
        let rec' := colField r c
        t.modify (rec' % 2 ^ kbits) (· ||| rec' / 2 ^ kbits)
      else t) t) (Array.replicate (2 ^ kbits) 0)

/-- D of FLUT in every PE of row word `k`, by column. -/
def lutRow (m : ArrMap) (sub kbits : Nat) (idx recs : Nat → List Lanes) (msk : Nat → Lanes) (k : Nat) : Array Nat :=
  let keys := lineKeys m sub k
  let row := if sub = 0 then lineTable sub kbits recs msk keys 0 else #[]
  ((List.range 66).map fun c =>
    if c ≥ 64 ∨ keys = [] then 0
    else (if sub = 0 then row else lineTable sub kbits recs msk keys c).getD (colField (idx k) c) 0).toArray

/-! Shifts (R122) -/

/-- One neighbour step of every row word of one plane: participating PEs of Platforms that execute take what the link
brings, the others keep their own D. -/
def State.shiftStep (s : State) (ns : Nat) (src old : Nat → Lanes) (gate : Nat → Lanes) : Array Lanes :=
  let l := s.linkIn ns src gate
  ((List.range rowWords).map fun k => (l.getD k 0 &&& gate k) ||| (old k &&& ~~~gate k)).toArray

/-- Steps two to d of a shift: each reads D and writes D. -/
def State.shiftMore (s : State) (ns : Nat) (gate : Nat → Lanes) : Nat → Array Lanes → Array Lanes
  | 0, d => d
  | i + 1, d => State.shiftMore s ns gate i (s.shiftStep ns (fun k => d.getD k 0) (fun k => d.getD k 0) gate)

/-- The link select of an FSHN SUB (R59, R122). -/
def shiftSelect (sub : Nat) : Nat := sub + 2

/-! What an instruction computes -/

/-- The results of an instruction before they are written: the planes it changes in participating PEs, whether it changes M
(which is written in every PE), the planes it reads, and its bit-steps and broadcast bit-steps (R114). -/
structure Results where
  planes : List Plane
  mask : Option Plane
  reads : List Nat
  steps : Nat
  casts : Nat

/-- Unspecified lanes for plane `a` (R111, R114). -/
def State.freePlane (s : State) (a : Nat) : Plane :=
  ⟨a, ((List.range rowWords).map fun k => Config.freeLanes s.free (a * rowWords + k)).toArray⟩

/-- F under FM (R113); FCMP with FM = 0b00 behaves as 0b01. -/
def flagUpdate (fm : Nat) (f cond : Bool) : Bool :=
  match fm with
  | 0 => f
  | 1 => cond
  | 2 => f || cond
  | _ => f && cond

/-- The FM an instruction acts by (R113). -/
def fmOf (opc : Nat) (o : AOp) : Nat := if opc = 0x23 ∧ o.fm = 0 then 1 else o.fm

/-- Bit-steps of an instruction at FM = 0b00, and the bit-steps FM adds (R114). -/
def baseSteps (opc : Nat) (o : AOp) : Nat :=
  let n := widthOf o
  let w := popWidth n
  let sg := o.sgn != 0
  match opc with
  | 0x20 => n + (if o.fm = 3 then 2 else 0)
  | 0x21 => n + (if sg then 2 else 1) + (if o.sat != 0 then n else 0)
  | 0x22 => n + (if sg then 2 else 1) + (if o.sat != 0 then n else 0)
  | 0x23 => if o.sub ≤ 1 then n else n + 1
  | 0x24 => (if sg then n * n + 4 * n + 6 else n * n + 2 * n + 2) + (match o.fm with | 0 => 0 | 3 => n + 2 | _ => n)
  | 0x25 => 2 * n + 1
  | 0x26 => (if o.sub ≤ 3 then o.aux * n else n) + (match o.fm with | 0 => 0 | 3 => n + 2 | _ => n)
  | 0x27 => 2 ^ o.aux * (2 * o.aux + 2 * n) + (match o.fm with | 0 => 0 | 3 => n + 2 | _ => n)
  | 0x28 => w * (n + 1) + (match o.fm with | 0 => 0 | 3 => w + 2 | _ => w)
  | 0x29 => n + 1 + (if o.fm = 3 then 2 else 0)
  | 0x2A => if o.sub = 0xF then 9 else 1
  | 0x2B => n
  | _ => 0

/-- Broadcast bit-steps among them (R74, R114). -/
def castSteps (opc : Nat) (o : AOp) : Nat :=
  match opc with
  | 0x26 => if o.sub ≤ 3 then 0 else widthOf o
  | 0x27 => 2 ^ o.aux * widthOf o
  | _ => 0

/-- The result of every PE of every row word: D of each, with cond and C. -/
def State.laneResults (s : State) (opc : Nat) (o : AOp) (acc : Word) (a b : List (Array RowRead))
    (c f m : Array RowRead) : Array (Array LaneOut) :=
  let n := widthOf o
  match opc with
  | 0x27 =>
    let am := s.arrMap
    ((List.range rowWords).map fun k =>
      (lutRow am o.sub o.aux (fieldRow a) (fieldRow b) (laneAt m) k).map fun d => ⟨d, d != 0, none⟩).toArray
  | _ =>
    ((List.range rowWords).map fun k =>
      let ra := fieldRow a k
      let rb := fieldRow b k
      let rc := laneAt c k
      let rf := laneAt f k
      ((List.range 66).map fun col =>
        laneOp opc o.sub n (o.sgn != 0) (o.sat != 0) (colField ra col)
          (if o.form = 1 then acc.toNat % 2 ^ n else colField rb col) (rc.getLsbD col) (rf.getLsbD col)).toArray).toArray

/-- Planes `base` to `base + w - 1` of the D values of every PE. -/
def dPlanes (base w : Nat) (r : Array (Array LaneOut)) : List Plane :=
  (List.range w).map fun i =>
    ⟨base + i, r.map fun row => lanesOf fun c => ((row[c]?).map fun x => x.d.testBit i).getD false⟩

/-- One plane of a truth of every PE. -/
def boolPlane (a : Nat) (r : Array (Array LaneOut)) (p : LaneOut → Bool) : Plane :=
  ⟨a, r.map fun row => lanesOf fun c => ((row[c]?).map p).getD false⟩

/-- D of an FSHN, with its cond (R122). -/
def State.shiftResults (s : State) (o : AOp) (a : List (Array RowRead)) (old : List (Array RowRead)) (gate : Nat → Lanes) :
    List Plane :=
  (a.zip old).zipIdx.map fun x =>
    let first := s.shiftStep (shiftSelect o.sub) (laneAt x.1.1) (laneAt x.1.2) gate
    ⟨o.fd + x.2, if o.sub ≤ 3 then s.shiftMore (shiftSelect o.sub) gate (o.aux - 1) first else first⟩

/-- Everything a field operation (0x20 to 0x29) changes in participating PEs. -/
def State.fieldResults (s : State) (opc : Nat) (o : AOp) (acc : Word) : Results :=
  let fl := fieldsOf opc o acc
  let af := fl.1.getD (0, 0)
  let bf := fl.2.1.getD (0, 0)
  let df := fl.2.2.getD (0, 0)
  let a := s.readField af
  let b := s.readField bf
  let c := s.readPlane planeC
  let f := s.readPlane planeF
  let m := s.readPlane planeM
  let fm := fmOf opc o
  let exA := ((List.range 72).map s.executes).toArray
  let gate := fun k => if exA.getD (k / 32) false then laneAt m k else 0
  let reads := (List.range af.2).map (af.1 + ·) ++ (List.range bf.2).map (bf.1 + ·) ++ [planeC, planeM] ++
    (if opc = 0x29 ∨ fm ≠ 0 then [planeF] else [])
  let p12 := if fm = 3 ∧ usesReserved opc o then [s.freePlane 1012] else []
  if opc = 0x26 then
    let d := s.shiftResults o a (s.readField df) gate
    let cond := fun k => d.foldl (fun acc p => acc ||| p.at k) (0 : Lanes)
    let fp : Plane := ⟨planeF, ((List.range rowWords).map fun k =>
      lanesOf fun col => flagUpdate fm ((laneAt f k).getLsbD col) ((cond k).getLsbD col)).toArray⟩
    let np := (d.getLast?.map fun p => (⟨planeN, p.rows⟩ : Plane)).toList
    ⟨d ++ np ++ (if fm = 0 then [] else [fp]) ++ p12, none, reads, baseSteps opc o, castSteps opc o⟩
  else
    let r := s.laneResults opc o acc a b c f m
    let fp : Plane := ⟨planeF, ((List.range rowWords).map fun k =>
      lanesOf fun col => flagUpdate fm ((laneAt f k).getLsbD col) ((((r.getD k #[])[col]?).map (·.cond)).getD false)).toArray⟩
    let cp : List Plane := match opc with
      | 0x20 => []
      | 0x24 => [s.freePlane planeC]
      | 0x27 => [s.freePlane planeC, s.freePlane planeN, s.freePlane 1015]
      | 0x28 => [s.freePlane planeC]
      | _ => [boolPlane planeC r fun x => x.c.getD false]
    let p13 := if opc = 0x24 ∧ o.sgn ≠ 0 then [s.freePlane 1013] else []
    ⟨dPlanes df.1 df.2 r ++ cp ++ (if fm = 0 then [] else [fp]) ++ p12 ++ p13, none, reads, baseSteps opc o, castSteps opc o⟩

/-- Every row word of a plane made from row words as read. -/
def planeOf (a : Nat) (f : Nat → Lanes) : Plane := ⟨a, ((List.range rowWords).map f).toArray⟩

/-- What an FMASK sub-operation changes (R125); ABANDON has its own meaning. -/
def State.maskResults (s : State) (o : AOp) : Results :=
  let m := laneAt (s.readPlane planeM)
  let f := laneAt (s.readPlane planeF)
  let x := laneAt (s.readPlane o.fa)
  let ones := fun _ : Nat => BitVec.allOnes 66
  let mk := fun (rd : List Nat) (g : Nat → Lanes) => (⟨[], some (planeOf planeM g), rd ++ [planeM], 1, 0⟩ : Results)
  let one := fun (rd : List Nat) (a : Nat) (g : Nat → Lanes) => (⟨[planeOf a g], none, rd ++ [planeM], 1, 0⟩ : Results)
  match o.sub with
  | 0x0 => mk [planeF] f
  | 0x1 => mk [planeF] fun k => m k &&& f k
  | 0x2 => mk [planeF] fun k => m k ||| f k
  | 0x3 => mk [o.fa] x
  | 0x4 => mk [o.fa] fun k => m k &&& x k
  | 0x5 => mk [] ones
  | 0x6 => mk [1016] (laneAt (s.readPlane 1016))
  | 0x7 => one [o.fa] planeF x
  | 0x8 => one [] planeF fun _ => 0
  | 0x9 => one [planeF] planeF fun k => ~~~f k
  | 0xA => one [planeF] o.fd f
  | 0xB => one [] planeC fun _ => 0
  | _ => one [] planeC ones

/-! Writing results -/

/-- Write one plane under `gate`, to the mirror's destination too, and past the sweep pointers. -/
def State.putPlane (s : State) (ex : Nat → Bool) (gate : Nat → Lanes) (p : Plane) : State × List Note :=
  let r := s.writePlane p.a ex gate p.at
  (if p.a < 1024 then (r.1.mirrorPlane p.a).sweepAt p.a else r.1, r.2)

/-- Write several planes, gathering the errors found in old contents. -/
def State.putPlanes (s : State) (ex : Nat → Bool) (gate : Nat → Lanes) : List Plane → State × List Note
  | [] => (s, [])
  | p :: t =>
    let r := s.putPlane ex gate p
    let q := State.putPlanes r.1 ex gate t
    (q.1, r.2 ++ q.2)

/-- Perform computed results: planes in participating PEs, M in every PE, the errors that reading found, the bit-step
times, and the snapshot of the last bit-step (R110, R112, R114). Each plane read counts once (log entry 8). -/
def State.install (s : State) (r : Results) : State :=
  let exA := ((List.range 72).map s.executes).toArray
  let ex := fun p => exA.getD p false
  let gate := laneAt (s.readPlane planeM)
  let notes := (r.reads.flatMap fun a => notesOf a false (s.readPlane a) ex)
  let w := s.putPlanes ex gate r.planes
  let w2 := match r.mask with
    | some p => w.1.writePlane planeM ex (fun _ => BitVec.allOnes 66) p.at
    | none => (w.1, [])
  (((w2.1.copyStates).account (notes ++ w.2 ++ w2.2)).useFree.spend (r.steps + r.casts)).snapshot

/-! FBIT (R126) and ABANDON (R152) -/

/-- The descriptor of repetition `i` of `n`. -/
def fbitDesc (o : AOp) (acc : Word) (i : Nat) : Desc :=
  let d := descOf (BitVec.ofNat 64 (acc.toNat % 2 ^ 25 * 2 ^ 30 + (o.fd + if o.aux.testBit 2 then i else 0) % 1024 * 2 ^ 20 +
    (o.fb + if o.aux.testBit 1 then i else 0) % 1024 * 2 ^ 10 + (o.fa + if o.aux.testBit 0 then i else 0) % 1024))
  if i + 1 = widthOf o then { d with snap := true } else d

/-- FBIT: n repetitions of one bit-step. -/
def State.fbit (s : State) (o : AOp) (acc : Word) : State :=
  (List.range (widthOf o)).foldl (fun s i => s.bitStep (fbitDesc o acc i)) s

/-- No instruction is suspended any more. -/
def State.notSuspended (s : State) : State := { s with arr := { s.arr with suspended := false, susp := none } }

/-- ABANDON: M = 1 everywhere, planes 1008 to 1015 are 0 everywhere, SUSPENDED clears, C, N and F are left unspecified, and
a snapshot is taken; nine bit-steps (R152). -/
def State.abandon (s : State) : State :=
  let exA := ((List.range 72).map s.executes).toArray
  let ex := fun p => exA.getD p false
  let all := fun _ : Nat => BitVec.allOnes 66
  let w0 := s.writePlane planeM ex all all
  let w1 := w0.1.putPlanes ex all ((List.range 8).map fun i => planeOf (1008 + i) fun _ => 0)
  let w2 := w1.1.putPlanes ex all [s.freePlane planeC, s.freePlane planeN, s.freePlane planeF]
  (((w2.1.notSuspended.copyStates).account (w0.2 ++ w1.2 ++ w2.2)).useFree.spend 9).snapshot

/-! Suspending and resuming (R146 to R151) -/

/-- Results by logical place, so that a map change during the suspension moves them with the Platform (R150): row word
`32 * (8 r + px) + row` of every present logical Platform. -/
def State.toLogical (s : State) (p : Plane) : Nat × List (BitVec 66) :=
  let m := s.arrMap
  (p.a, (List.range 2048).map fun i =>
    match m.slot.getD (i / 32) none with
    | some slot => p.at ((i / 32 / 8 * 9 + slot) * 32 + i % 32)
    | none => 0)

/-- The plane of stored results at the places the map now gives; other row words keep `old`. -/
def State.ofLogical (s : State) (r : Nat × List (BitVec 66)) : Plane :=
  let m := s.arrMap
  let vals := r.2.toArray
  let old := s.readPlane r.1
  planeOf r.1 fun k =>
    match m.logical.getD (k / 32) none with
    | some px => vals.getD ((k / 32 / 9 * 8 + px) * 32 + k % 32) 0
    | none => laneAt old k

/-- The results merged with what PEs that do not participate hold, so that they can be written in every PE later. -/
def State.merged (s : State) (gate : Nat → Lanes) (p : Plane) : Plane :=
  let old := s.readPlane p.a
  planeOf p.a fun k => (p.at k &&& gate k) ||| (laneAt old k &&& ~~~gate k)

/-- Suspend an instruction after `8 * k` of its bit-steps (R147): planes 1008 to 1011 take C, N, F and M, every PE has
M = 1. What the routine has left in the planes it writes, and in the state bits it uses, is not stated at a safe point and is
free there; FMUL holds its saved mask in plane 1014 (log entry 7). -/
def State.suspendArray (s : State) (opc : Nat) (o : AOp) (acc : Word) (k : Nat) : State :=
  let exA := ((List.range 72).map s.executes).toArray
  let ex := fun p => exA.getD p false
  let all := fun _ : Nat => BitVec.allOnes 66
  let m := laneAt (s.readPlane planeM)
  let r := s.fieldResults opc o acc
  let mul := opc == 0x24
  let final := (r.planes.map fun p => s.toLogical (s.merged m p)) ++
    (if mul then [s.toLogical (planeOf 1014 fun _ => 0), s.toLogical (planeOf planeM m)] else [])
  let notes := r.reads.flatMap fun a => notesOf a false (s.readPlane a) ex
  let w1 := s.putPlanes ex m (r.planes.map fun p => s.useFree.freePlane p.a)
  let w2 := w1.1.putPlanes ex m (if mul then [planeOf 1014 m] else [])
  let gateNow := if mul then planeOf planeM fun k => (s.useFree.freePlane planeM).at k &&& m k else planeOf planeM m
  let t := w2.1
  let w3 := t.putPlanes ex gateNow.at [planeOf 1011 all]
  let w4 := w3.1.putPlanes ex all [planeOf 1008 (laneAt (t.readPlane planeC)), planeOf 1009 (laneAt (t.readPlane planeN)),
    planeOf 1010 (laneAt (t.readPlane planeF))]
  let w5 := w4.1.writePlane planeM ex all all
  let s6 := (w5.1.copyStates.account (notes ++ w1.2 ++ w2.2 ++ w3.2 ++ w4.2 ++ w5.2)).useFree.useFree.spend (8 * k + 5)
  { s6 with arr := { s6.arr with suspended := true, susp := some ⟨opc, o, k, final⟩ } }

/-- The suspend sequence of R147, of an instruction whose state stands as it is: planes 1008 to 1011 take C, N, F and M. -/
def State.suspendSeq (s : State) : State :=
  let exA := ((List.range 72).map s.executes).toArray
  let ex := fun p => exA.getD p false
  let all := fun _ : Nat => BitVec.allOnes 66
  let m := laneAt (s.readPlane planeM)
  let w3 := s.putPlanes ex m [planeOf 1011 all]
  let w4 := w3.1.putPlanes ex all [planeOf 1008 (laneAt (s.readPlane planeC)), planeOf 1009 (laneAt (s.readPlane planeN)),
    planeOf 1010 (laneAt (s.readPlane planeF))]
  let w5 := w4.1.writePlane planeM ex all all
  let s6 := (w5.1.copyStates.account (w3.2 ++ w4.2 ++ w5.2)).useFree.spend 5
  { s6 with arr := { s6.arr with suspended := true } }

/-- The bit-steps of FBIT that ran before a safe point are performed as they are; the rest remain (R146, R150). -/
def State.suspendFbit (s : State) (o : AOp) (acc : Word) (k : Nat) : State :=
  let s1 := ((List.range (8 * k)).foldl (fun s i => s.bitStep (fbitDesc o acc i)) s).suspendSeq
  { s1 with arr := { s1.arr with susp := some ⟨0x2B, o, k, []⟩ } }

/-- The resume sequence of R149: C, N and F from planes 1008 to 1010, M from plane 1011, plane 1011 cleared where M = 1. -/
def State.resumeSeq (s : State) : State :=
  let exA := ((List.range 72).map s.executes).toArray
  let ex := fun p => exA.getD p false
  let all := fun _ : Nat => BitVec.allOnes 66
  let m := laneAt (s.readPlane 1011)
  let w1 := s.putPlanes ex all [planeOf planeC (laneAt (s.readPlane 1008)), planeOf planeN (laneAt (s.readPlane 1009)),
    planeOf planeF (laneAt (s.readPlane 1010))]
  let w2 := w1.1.putPlanes ex m [planeOf 1011 fun _ => 0]
  let w3 := w2.1.writePlane planeM ex all m
  let s4 := (w3.1.copyStates.account (w1.2 ++ w2.2 ++ w3.2)).useFree.spend 6
  { s4 with arr := { s4.arr with suspended := false } }

/-- Resume the suspended instruction and run it to its end (R149, R150). -/
def State.resumeArray (s : State) (acc : Word) : State :=
  let s1 := s.resumeSeq
  match s1.arr.susp with
  | none => s1
  | some p =>
    let s2 := { s1 with arr := { s1.arr with susp := none } }
    let o := p.o
    if p.opc = 0x2B then (List.range (widthOf o - 8 * p.astep)).foldl (fun s i => s.bitStep (fbitDesc o acc (8 * p.astep + i))) s2
    else
      let exA := ((List.range 72).map s2.executes).toArray
      let ex := fun q => exA.getD q false
      let w := s2.putPlanes ex (fun _ => BitVec.allOnes 66) (p.results.map s2.ofLogical)
      (((w.1.copyStates).account w.2).useFree.spend (baseSteps p.opc o + castSteps p.opc o - 8 * p.astep)).snapshot

/-- Resume the suspended instruction and suspend it again at its safe point after `8 * k` bit-steps (R146, R150). -/
def State.resuspend (s : State) (acc : Word) (k : Nat) : State :=
  match s.arr.susp with
  | none => s
  | some p =>
    let s1 := s.resumeSeq
    let s2 := if p.opc = 0x2B then
        (List.range (8 * k - 8 * p.astep)).foldl (fun s i => s.bitStep (fbitDesc p.o acc (8 * p.astep + i))) s1
      else s1.spend (8 * k - 8 * p.astep)
    let s3 := s2.suspendSeq
    { s3 with arr := { s3.arr with susp := some { p with astep := k } } }

end Sys2Proof.Machine
end

