-- ==== Sys2Proof/Machine/Flags.lean ====
section
/-! DEFINITION. The PSW (R201), the conditions (R209) and the flag computations of the scalar instructions (R211). -/

namespace Sys2Proof.Machine

/-- The four arithmetic flags. -/
structure Flags where
  z : Bool
  c : Bool
  n : Bool
  v : Bool
  deriving DecidableEq, Repr

/-- Bit `i` of PSW. -/
def State.psw (s : State) (i : Nat) : Bool := s.disp.psw.getLsbD i

/-- Write bit `i` of PSW. -/
def State.setPsw (s : State) (i : Nat) (b : Bool) : State :=
  { s with disp := { s.disp with psw := putBits s.disp.psw i i (if b then 1 else 0) } }

/-- The flags in PSW: Z [0], C [1], N [2], V [3]. -/
def State.flags (s : State) : Flags := ⟨s.psw 0, s.psw 1, s.psw 2, s.psw 3⟩

/-- Write the flags. -/
def State.setFlags (s : State) (f : Flags) : State :=
  let n := (if f.z then 1 else 0) + (if f.c then 2 else 0) + (if f.n then 4 else 0) + (if f.v then 8 else 0)
  { s with disp := { s.disp with psw := putBits s.disp.psw 3 0 n } }

/-- Firmware privilege (PSW.PRIV). -/
def State.firmware (s : State) : Bool := s.psw 9

/-- The initiator identity of the Dispatcher at its present privilege (R338): 0 Firmware, 1 Application. -/
def State.dispInit (s : State) : Nat := if s.firmware then 0 else 1

/-- Whether condition `c` holds (R209). -/
def condHolds (c : Nat) (f : Flags) (gor mdone : Bool) : Bool :=
  match c with
  | 0x0 => true
  | 0x1 => f.z
  | 0x2 => !f.z
  | 0x3 => f.c
  | 0x4 => !f.c
  | 0x5 => f.n
  | 0x6 => !f.n
  | 0x7 => f.v
  | 0x8 => !f.v
  | 0x9 => !f.z && f.n == f.v
  | 0xA => f.z || f.n != f.v
  | 0xB => f.n == f.v
  | 0xC => f.n != f.v
  | 0xD => gor
  | 0xE => !gor
  | _ => mdone

/-- Whether condition `c` holds in the present PSW. -/
def State.cond (s : State) (c : Nat) : Bool := condHolds c s.flags (s.psw 4) (s.psw 5)

/-- Z and N of a result; C and V kept (R211). -/
def flagsZN (f : Flags) (r : Word) : Flags := { f with z := r == 0, n := r.getLsbD 31 }

/-- `a + b + cin` with all four flags: C is the carry out of bit 31, V signed overflow (R211). -/
def addFlags (a b : Word) (cin : Bool) : Word × Flags :=
  let full := a.toNat + b.toNat + (if cin then 1 else 0)
  let r : Word := BitVec.ofNat 32 full
  (r, ⟨r == 0, decide (2 ^ 32 ≤ full), r.getLsbD 31,
    a.getLsbD 31 == b.getLsbD 31 && r.getLsbD 31 != a.getLsbD 31⟩)

/-- `a - b` as `a + NOT b + 1` (R211); with `cin` false, `a - b - 1` (the 1 - C of SUB 0x1). -/
def subFlags (a b : Word) (cin : Bool) : Word × Flags := addFlags a (~~~b) cin

/-- A shift by op[4:0]: LSL, LSR, ASR, ROR; C takes the last bit shifted out, and a shift by 0 leaves ACC and C (R211). -/
def shiftFlags (sub : Nat) (a : Word) (n : Nat) (f : Flags) : Word × Flags :=
  if n = 0 then (a, flagsZN f a)
  else
    let r : Word := match sub with
      | 0 => a <<< n
      | 1 => a >>> n
      | 2 => a.sshiftRight n
      | _ => a.rotateRight n
    let out := match sub with
      | 0 => a.getLsbD (32 - n)
      | _ => a.getLsbD (n - 1)
    (r, { flagsZN f r with c := out })

end Sys2Proof.Machine
end

