-- ==== Sys2Proof/Machine/Operands.lean ====
section
/-! DEFINITION. Scalar instruction words (R203, R210): which modes and sub-operations an opcode has, its operand forms and
addresses (R204, R205). -/

namespace Sys2Proof.Machine

/-- MODE selects a memory operand rather than an immediate one (R203). -/
def SOpMem (o : SOp) : Bool := o.mode != 3

/-- The modes and SUB values that R210 lists for an opcode; MOVX also needs ADDR[15:8] = 0. -/
def scalarDefined (opc : Nat) (o : SOp) : Bool :=
  let m := SOpMem o
  match opc with
  | 0x00 => true
  | 0x01 => if m then decide (o.sub ≤ 4) else o.sub == 0
  | 0x02 => m && decide (o.sub ≤ 2)
  | 0x03 => !m && o.sub == 0
  | 0x04 => decide (o.sub ≤ 1)
  | 0x05 => decide (o.sub ≤ 2)
  | 0x06 => o.sub == 0
  | 0x07 => o.sub == 0
  | 0x08 => o.sub == 0
  | 0x09 => decide (o.sub ≤ 3)
  | 0x0A => o.sub == 0
  | 0x0B => o.sub == 0
  | 0x0C => decide (o.sub ≤ 5)
  | 0x0D => decide (o.sub ≤ 4)
  | 0x0E => decide (o.sub ≤ 1)
  | 0x0F => decide (o.sub ≤ 1)
  | 0x10 => !m && decide (o.sub ≤ 1) && decide (o.addr < 256)
  | 0x11 => decide (o.sub ≤ 2)
  | 0x12 => decide (o.sub ≤ 1)
  | 0x13 => decide (o.sub ≤ 1)
  | 0x14 => decide (o.sub ≤ 1)
  | 0x15 => !m && decide (o.sub ≤ 1)
  | 0x16 => decide (o.sub ≤ 15)
  | 0x17 => decide (o.sub ≤ 7)
  | 0x18 => decide (o.sub ≤ 4)
  | _ => decide (0x30 ≤ opc) && decide (opc ≤ 0x37)

/-- The opcode and SUB fetch an operand (R210). -/
def hasOperand (opc sub : Nat) : Bool :=
  match opc with
  | 0x01 => true
  | 0x04 => true
  | 0x05 => true
  | 0x06 => true
  | 0x07 => true
  | 0x08 => true
  | 0x09 => true
  | 0x0A => true
  | 0x0B => true
  | 0x0C => decide (sub ≤ 3)
  | 0x0D => sub == 0 || sub == 1 || sub == 4
  | 0x0E => true
  | 0x0F => true
  | 0x11 => sub == 2
  | 0x12 => true
  | 0x13 => true
  | 0x16 => true
  | 0x17 => true
  | _ => decide (0x30 ≤ opc) && decide (opc ≤ 0x37)

/-- Bytes of a memory operand (R204, R210). -/
def operandBytes (opc sub : Nat) : Nat :=
  match opc with
  | 0x01 => if sub = 0 then 4 else if sub ≤ 2 then 2 else 1
  | 0x02 => if sub = 0 then 4 else if sub = 1 then 2 else 1
  | _ => 4

/-- The immediate operand (R204): sign-extended for LD, ADD, SUB, CMP, MUL, DIV, STK and the BNK sum, zero-extended for
AND, OR, XOR, TST and the others (log entry 9); FPS takes it as bits [31:16] (R239). -/
def immediate (opc sub addr : Nat) : Word :=
  let sx : Word := (BitVec.ofNat 16 addr).signExtend 32
  let zx : Word := BitVec.ofNat 32 (addr % 2 ^ 16)
  match opc with
  | 0x01 => sx
  | 0x04 => sx
  | 0x05 => sx
  | 0x0A => sx
  | 0x0D => if sub = 4 then sx else zx
  | 0x0E => sx
  | 0x0F => sx
  | 0x11 => sx
  | 0x16 => zx <<< 16
  | _ => zx

/-- The bank a data access or far branch uses: BNK as it was before a BNK write by the instruction just before (R213). -/
def State.bankSeen (s : State) : BitVec 36 := s.disp.late.bnk.getD s.disp.bnk

/-- The index an address uses (R213). -/
def State.indexSeen (s : State) (mode : Nat) : BitVec 16 :=
  match mode with
  | 1 => s.disp.late.ixa.getD s.disp.ixa
  | 2 => s.disp.late.ixb.getD s.disp.ixb
  | _ => 0

/-- The offset of a memory operand within its bank (R204). -/
def State.operandOff (s : State) (o : SOp) : Nat := (o.addr + (s.indexSeen o.mode).toNat) % 0x10000

/-- The Dispatcher address of a memory operand (R204). -/
def State.operandAddr (s : State) (o : SOp) : Nat := s.bankSeen.toNat * 0x10000 + s.operandOff o

/-- An access of `n` bytes at `a` breaks R205: not naturally aligned (but for a load from the scratchpad), or across the end
of its 64 KiB bank. -/
def misaligned (load : Bool) (a n : Nat) : Bool :=
  (a % n != 0 && !(load && decide (a < 0x800000))) || decide (0x10000 < a % 0x10000 + n)

/-- A loaded value by LD's SUB: word, half and byte, zero- or sign-extended (R210). -/
def extendLoad (sub : Nat) (v : Nat) : Word :=
  match sub with
  | 1 => BitVec.ofNat 32 (v % 2 ^ 16)
  | 2 => (BitVec.ofNat 16 v).signExtend 32
  | 3 => BitVec.ofNat 32 (v % 2 ^ 8)
  | 4 => (BitVec.ofNat 8 v).signExtend 32
  | _ => BitVec.ofNat 32 v

end Sys2Proof.Machine
end

