-- ==== Sys2Proof/Machine/DispCore.lean ====
section
/-! DEFINITION. The Dispatcher between instructions (chapter 05): when an instruction issues, when results become visible,
store errors, and taking a trap or an interrupt. -/

namespace Sys2Proof.Machine

/-! Requests of the Dispatcher (R205, R231, R335) -/

/-- The Dispatcher's port (R331). -/
abbrev dispPort : Nat := 56

/-- Whether a request has not yet got its response: quarantined ones have (R346). -/
def Txn.open' (t : Txn) : Bool := match t.stage with | .quarantined _ => false | _ => true

/-- A request leaves the Dispatcher with the next tag that none of its outstanding or quarantined requests has (R345). -/
def State.freeTag (s : State) (src : Nat) : Nat :=
  ((List.range 256).find? fun i =>
    !s.jt.txns.any fun t => t.src == src && t.tag == (s.jt.nextTag + i) % 256).map (fun i => (s.jt.nextTag + i) % 256) |>.getD 0

/-- Send a request of the Dispatcher. -/
def State.sendReq (s : State) (write cp : Bool) (addr len : Nat) (data : List (Word64 × BitVec 8)) (dst : Nat) : State :=
  let tag := s.freeTag dispPort
  let t : Txn := ⟨dispPort, s.dispInit, tag, write, cp, addr, len, data, false, .issued, dst, []⟩
  { s with jt := { s.jt with txns := s.jt.txns ++ [t], nextTag := (tag + 1) % 256 } }

/-- A store of `n` bytes of `v` at `addr`, in its place within the 64-bit word (R8, R337). -/
def storeWord (addr n : Nat) (v : Word64) : List (Word64 × BitVec 8) :=
  [(v <<< (8 * (addr % 8)), BitVec.ofNat 8 ((2 ^ n - 1) * 2 ^ (addr % 8)))]

/-- Post a store (R231). -/
def State.postStore (s : State) (addr n : Nat) (v : Word64) : State :=
  s.sendReq true false (addr / 8 * 8) 8 (storeWord addr n v) 0

/-- Posted writes without a response: at most 8 (R231). -/
def State.postedCount (s : State) : Nat :=
  s.jt.txns.countP fun t => t.src == dispPort && t.write && t.open'

/-- No room for a further posted write. -/
def State.postedFull (s : State) : Bool := decide (8 ≤ s.postedCount)

/-- Requests that SYS FENCE waits for: posted writes and coprocessor requests (R229). -/
def State.fenceBusy (s : State) : Bool :=
  s.jt.txns.any fun t => t.src == dispPort && (t.write || t.cp) && t.open'

/-! Visibility (R213, R214, R235, R237) -/

/-- No late results. -/
def noLate : Late := ⟨none, none, none, none, none⟩

/-- Results still on their way become visible (trap and interrupt entry add to the distance, R213). -/
def State.flushLate (s : State) : State :=
  { s with disp := { s.disp with acc := s.disp.late.acc.getD s.disp.acc, late := noLate } }

/-- The multiplier writes PROD and sets MDONE (R233). -/
def State.mulDone (s : State) : State :=
  match s.disp.mul with
  | none => s
  | some m => { s with disp := { s.disp with prod := m.prod, mul := none } }.setPsw 5 true

/-- The divider writes QUO and REM and sets DDONE (R236). -/
def State.divDone (s : State) : State :=
  match s.disp.div with
  | none => s
  | some m => { s with disp := { s.disp with quo := m.quo, rem := m.rem, div := none } }.setPsw 6 true

/-- The units have completed by the distances of R235 and R237. -/
def State.unitsByDistance (s : State) : State :=
  let s1 := if (s.disp.mul.map fun m => decide (6 ≤ m.age)).getD false then s.mulDone else s
  if (s1.disp.div.map fun m => decide (18 ≤ m.age)).getD false then s1.divDone else s1

/-- One more instruction has been issued since a MUL and a DIV in progress. -/
def State.ageUnits (s : State) : State :=
  { s with disp := { s.disp with mul := s.disp.mul.map (fun m => { m with age := m.age + 1 }),
                                 div := s.disp.div.map (fun m => { m with age := m.age + 1 }) } }

/-- The OR result of snapshot `num` has not been delivered. -/
def State.orPending (s : State) (num : Nat) : Bool := s.arr.snaps.any fun n => n.num == num && !n.orD

/-- Deliver OR results until that of snapshot `num` has been delivered. -/
def State.deliverOrTo (s : State) (num : Nat) : Nat → State
  | 0 => s
  | i + 1 => if s.orPending num then State.deliverOrTo (State.retireSnaps 4 s.deliverOr) num i else s

/-- The hold of R214 at the begin of an instruction: the third instruction after one that took a snapshot begins once that
snapshot's OR result has been delivered, so the delivery comes first (log entry 10). -/
def State.holdAtBegin (s : State) : State :=
  match s.disp.hold with
  | some (num, 0) =>
    let s1 := s.deliverOrTo num 4
    { s1 with disp := { s1.disp with hold := none } }
  | _ => s

/-- An instruction has ended: the hold comes nearer. -/
def State.holdAtEnd (s : State) : State :=
  { s with disp := { s.disp with hold := s.disp.hold.map fun h => (h.1, h.2 - 1) } }

/-! Store errors (R206, R231, R232) -/

/-- A store error arrives: it waits for the next boundary, or is counted when one waits already (R232). -/
def State.noteStoreError (s : State) (addr : Nat) (r : Resp) : State :=
  match s.disp.imprecise with
  | none => { s with disp := { s.disp with imprecise := some (BitVec.ofNat 52 addr, r) } }
  | some _ => s.satInc Reg.STORE_ERR_CNT 31 0

/-- The store-pair buffer is discarded and reported as NARROW (R206). -/
def State.discardPair (s : State) : State :=
  match s.disp.pair with
  | none => s
  | some p => ({ s with disp := { s.disp with pair := none } }).noteStoreError p.1.toNat .narrow

/-! Taking a trap or an interrupt (R217, R221 to R223) -/

/-- Dispatcher address of the instruction at PC. -/
def State.here (s : State) : BitVec 52 := s.disp.pbnk ++ s.disp.pc

/-- The address `n` bytes on in the same bank (R207). -/
def State.after (s : State) (n : Nat) : BitVec 52 := s.disp.pbnk ++ (s.disp.pc + BitVec.ofNat 16 n)

/-- Entry, common to traps and interrupts (R223): push the return address, save PSW, PRIV = 1, IE = 0, ASUSP = 0,
ASTEP = 0, and continue at `pc` of the vector bank; WDOG_CNT takes the watchdog count (R275). A return stack with 16 entries in use halts the Dispatcher (R217). -/
def State.enter (s : State) (ret : BitVec 52) (pc : Nat) : State :=
  let s1 := s.flushLate.setFld Reg.WDOG_CNT 8 0 ((s.disp.micro.map (·.wdog)).getD 0)
  if s1.disp.rs.length ≥ 16 then { s1 with disp := { s1.disp with halted := true } }
  else
    let psw := putBits (putBits s1.disp.psw 28 16 0) 10 8 2
    { s1 with disp := { s1.disp with rs := ret :: s1.disp.rs, spsw := s1.disp.psw, psw := psw,
                                     pbnk := s1.disp.vbnk, pc := BitVec.ofNat 16 pc } }

/-- A kernel that traps other than by SVC is marked faulted: its frame is not committed, and the fault is logged (R506). -/
def State.kernelFault (s : State) (cause : Nat) : State :=
  match s.running with
  | none => s
  | some (kid, disp) =>
    if cause = 0x0E ∨ s.firmware then s
    else
      let mark := fun k : Kernel => if k.kid == kid then { k with faulted := true } else k
      let sc := { s.sched with badFrames := s.sched.badFrames ++ disp.toList }
      let s1 := { s with kernels := s.kernels.map mark, running := none,
                         sched := { sc with uncommitted := s.sched.uncommitted + disp.toList.length } }
      s1.logEvent 0x0A kid s.disp.tcause.toNat

/-- Take a trap: TCAUSE and TADDR are written, then entry to 0x10 × cause (R221 to R223). A halted entry writes them too. -/
def State.trap (s : State) (cause addr info : Nat) (r : Resp) (imprecise : Bool) (ret : BitVec 52) : State :=
  let tc : Word := BitVec.ofNat 32 (info % 2 ^ 16 * 2 ^ 16 + (if imprecise then 2 ^ 15 else 0) + respCode r * 2 ^ 12 + cause)
  let s1 := { s with disp := { s.disp with tcause := tc, taddr := BitVec.ofNat 52 addr } }
  (s1.kernelFault cause).enter ret (0x10 * cause)

/-- The Dispatcher stands between two instructions, outside a store pair. -/
def State.atBoundary (s : State) : Bool :=
  !s.disp.halted && decide (s.disp.wait = .none) && s.disp.pair.isNone && s.disp.micro.isNone

/-- An imprecise store error is taken at the first boundary after it arrived, whatever IE is (R231). -/
def State.boundary (s : State) : State :=
  if s.atBoundary then
    match s.disp.imprecise with
    | none => s
    | some (a, r) => ({ s with disp := { s.disp with imprecise := none } }).trap 6 a.toNat 0 r true s.here
  else s

/-- A precise trap of the instruction at PC: it has no effect, and its own address is the return address (R220). -/
def State.trapHere (s : State) (cause addr info : Nat) (r : Resp) : State :=
  (s.trap cause addr info r false s.here).boundary

/-- The interrupt entry of R223 with return address `ret`; `psw` is what SPSW takes. -/
def State.interrupt (s : State) (ret : BitVec 52) : State := s.enter ret 0x0100

/-- Wait, with nothing else changed. -/
def State.waitFor (s : State) (w : Wait) : State := { s with disp := { s.disp with wait := w } }

/-! Issuing -/

/-- An instruction can issue: the Dispatcher has power and runs (R601), is not halted and waits for nothing. A WFI whose request has come while IE = 0
has ended (R226). -/
def State.canIssue (s : State) : Bool :=
  s.dispOn && !s.disp.halted && s.disp.micro.isNone && match s.disp.wait with
    | .none => true
    | .wfi => s.icRequest && !s.psw 8
    | _ => false

/-- End of an instruction: results of the instruction before become visible, `nl` are its own late results, PC moves on by
`n`, and the boundary is judged. -/
def State.endInstr (s : State) (n : Nat) (nl : Late) : State :=
  let s1 := { s with disp := { s.disp with acc := s.disp.late.acc.getD s.disp.acc, late := nl, wait := .none,
                                           pc := s.disp.pc + BitVec.ofNat 16 n } }
  (s1.ageUnits.holdAtEnd).boundary

/-- End of an instruction that transferred control. -/
def State.endJump (s : State) (pbnk : BitVec 36) (pc : BitVec 16) : State :=
  let s1 := { s with disp := { s.disp with acc := s.disp.late.acc.getD s.disp.acc, late := noLate, wait := .none,
                                           pbnk := pbnk, pc := pc } }
  (s1.ageUnits.holdAtEnd).boundary

/-- What every instruction does as it issues: a WFI that ended is left behind, the units and the hold advance. -/
def State.begin (s : State) : State :=
  let s1 := if s.disp.wait = .wfi then
      { s with disp := { s.disp with wait := .none, pc := s.disp.pc + 4, late := noLate,
                                     acc := s.disp.late.acc.getD s.disp.acc } }.boundary
    else s
  s1.unitsByDistance.holdAtBegin

/-- ACC takes a result that the next instruction sees; a load still on its way is never seen (R213). -/
def State.setAcc (s : State) (v : Word) : State :=
  { s with disp := { s.disp with acc := v, late := { s.disp.late with acc := none } } }

/-- After a snapshot: the hold of R214. -/
def State.startHold (s : State) : State :=
  match s.arr.snaps.getLast? with
  | some n => { s with disp := { s.disp with hold := some (n.num, 2) } }
  | none => { s with disp := { s.disp with hold := none } }

end Sys2Proof.Machine
end

