-- ==== Sys2Proof/Machine/Memory.lean ====
section
/-! DEFINITION. The data memories of chapter 07: scratchpad with its remap table, secure region, LPDDR5, scrubbers, wipes
and life-cycle requests. Accesses answer a response, the bytes and the state after them; the Junction tree carries them. -/

namespace Sys2Proof.Machine

/-! Words -/

/-- The stored code word of a cell, free where nothing was written (R287). `m` tells the memories apart. -/
def cell72 (s : State) (m k : Nat) (c : Option Word72) : Word72 :=
  match c with
  | some w => w
  | none => Config.freeWord72 s.free (4 * k + m)

/-- Free bytes, for data the spec leaves unspecified. -/
def State.freeBytes (s : State) (n : Nat) : List Byte :=
  (List.range n).map fun i => (Config.freeWord s.free i).setWidth 8

/-- Bytes `off` to `off + len - 1` of words whose data are given from word `off / 8` on (R8, R285). -/
def cutBytes (ws : List Word64) (off len : Nat) : List Byte :=
  ((ws.flatMap fun w => natLe 8 w.toNat).drop (off % 8)).take len

/-- A word with the bytes selected by `be` replaced. -/
def mergeBytes (old new : Word64) (be : BitVec 8) : Word64 :=
  (List.range 8).foldl (fun w i =>
    if be.getLsbD i then
      (w &&& ~~~(0xFF#64 <<< (8 * i))) ||| (new &&& (0xFF#64 <<< (8 * i)))
    else w) old

/-! Scratchpad (R280 to R299) -/

/-- The key of spare word `e` of bank `b`. -/
def spareKey (b e : Nat) : Nat := 0x200000 + 16 * b + e

/-- REMAPb_e. -/
def remapReg (b e : Nat) : Nat := Reg.REMAP + 4 * (16 * (b % 16) + e % 16)

/-- The spare word that a valid entry of bank `b` remaps word index `idx` to (R297). -/
def State.remapOf (s : State) (b idx : Nat) : Option Nat :=
  (List.range 16).find? fun e => s.bit (remapReg b e) 31 && s.fld (remapReg b e) 15 0 == idx

/-- The key of the cell that scratchpad word `w` reaches (R280, R297). -/
def State.spKey (s : State) (w : Nat) : Nat :=
  match s.remapOf (w % 16) (w / 16) with
  | some e => spareKey (w % 16) e
  | none => w

def State.spCell (s : State) (k : Nat) : Word72 := cell72 s 0 k (Store.get (fun _ => s.mem.spBase) s.mem.sp k)

def State.setSpCell (s : State) (k : Nat) (w : Word72) : State :=
  { s with mem := { s.mem with sp := Store.set (fun _ => s.mem.spBase) s.mem.sp k (some w) } }

/-- Write a whole word with fresh check bits (R286). -/
def State.spWrite (s : State) (w : Nat) (d : Word64) : State := s.setSpCell (s.spKey w) (encode72 d)

/-- The lowest spare word of bank `b` that is free: no valid entry names it and it was not given up (R297, R298). -/
def State.freeSpare (s : State) (b : Nat) : Option Nat :=
  (List.range 16).find? fun e => !s.bit (remapReg b e) 31 && !s.mem.usedSpares.contains (b, e)

/-- An error of a word enters the bank's table of four, or raises its count there; it becomes the bank's latest (R296). -/
def suspectPut (t : List Suspect) (x : Suspect) : List Suspect :=
  let rest := t.filter fun y => !(y.bank == x.bank && y.idx == x.idx && y.spare == x.spare)
  let mine := rest.filter fun y => y.bank == x.bank
  let rest2 := if mine.length ≥ 4 then
      match mine with
      | old :: _ => rest.filter fun y => !(y == old)
      | [] => rest
    else rest
  rest2 ++ [x]

/-- A correctable error of kind 0 in the cell that scratchpad word `w` of bank `b` reaches: the suspect table, and the
remap of the third error, which writes the corrected value `d` into the lowest free spare word (R296 to R298). -/
def State.suspectError (s : State) (b idx : Nat) (spare : Option Nat) (d : Word64) : State :=
  let key := spare.getD idx
  let cur := s.mem.suspects.find? fun y => y.bank == b && y.idx == key && y.spare == spare.isSome
  let n := (cur.map (·.count)).getD 0
  if n < 2 then { s with mem := { s.mem with suspects := suspectPut s.mem.suspects ⟨b, key, spare.isSome, n + 1⟩ } }
  else match s.freeSpare b with
    | none =>
      ({ s with mem := { s.mem with suspects := suspectPut s.mem.suspects ⟨b, key, spare.isSome, 3⟩ } }).fire 55
    | some e =>
      let s1 := s.setSpCell (spareKey b e) (encode72 d)
      let s2 := s1.setReg (remapReg b e) (BitVec.ofNat 32 (3 * 2 ^ 30 + idx))
      let s3 := match spare with
        | some old => { s2.setBit (remapReg b old) 31 false with
            mem := { s2.mem with usedSpares := (b, old) :: s2.mem.usedSpares } }
        | none => s2
      { s3 with mem := { s3.mem with suspects := s3.mem.suspects.filter fun y =>
          !(y.bank == b && y.idx == key && y.spare == spare.isSome) } }

/-- Read the cell of bank `b` that serves word index `idx` (spare word `spare` of the bank, or the word itself) and
account for what it finds; `addr` is the address that records give (R285, R291, R295). -/
def State.spReadCell (s : State) (b idx : Nat) (spare : Option Nat) (addr : Nat) : State × Word64 × Bool :=
  let key := match spare with | some e => spareKey b e | none => 16 * idx + b
  let r := decode72 (s.spCell key)
  match r.2 with
  | .clean => (s, r.1, false)
  | .fixed _ syn => ((s.countCE 0 addr syn).suspectError b idx spare r.1, r.1, false)
  | .bad syn => ((s.countUE 0 addr syn).fire 52, r.1, true)

/-- Read scratchpad word `w`: the state after the accounting, the data and whether it is uncorrectable. -/
def State.spReadWord (s : State) (w : Nat) : State × Word64 × Bool :=
  s.spReadCell (w % 16) (w / 16) (s.remapOf (w % 16) (w / 16)) (8 * w)

/-- Read `n` words from word `w` on, each once: the state, the words, and whether one was uncorrectable. -/
def State.spReadWords (s : State) (w : Nat) : Nat → State × List Word64 × Bool
  | 0 => (s, [], false)
  | n + 1 =>
    let r := s.spReadWord w
    let q := State.spReadWords r.1 (w + 1) n
    (q.1, r.2.1 :: q.2.1, r.2.2 || q.2.2)

/-- How many words bytes `off` to `off + len - 1` touch. -/
def wordSpan (off len : Nat) : Nat := if len = 0 then 0 else (off + len - 1) / 8 - off / 8 + 1

/-- A scratchpad read of any byte alignment (R285, R288). A response other than OK carries unspecified data. -/
def State.spRead (s : State) (off len : Nat) : State × Resp × List Byte :=
  if off + len > 0x800000 then (s.useFree, .decerr, s.freeBytes len)
  else if s.bit Reg.MEM_STAT 0 then (s.useFree, .slverr, s.freeBytes len)
  else
    let r := s.spReadWords (off / 8) (wordSpan off len)
    if r.2.2 then (r.1.useFree, .poison, s.freeBytes len) else (r.1.useFree, .ok, cutBytes r.2.1 off len)

/-- Record a collided write (R284, R323). -/
def State.collide (s : State) (ini addr : Nat) : State :=
  ((s.satInc Reg.COLL_CNT 31 0).record Reg.COLL_REC_HI fun s =>
    ((s.setReg Reg.COLL_REC_LO (BitVec.ofNat 32 addr)).setFld Reg.COLL_REC_HI 29 24 ini).setFld Reg.COLL_REC_HI 19 0
      (addr / 2 ^ 32)).fire 56

/-- The words of a scratchpad write, judged one by one: DECERR, NARROW, COLLIDED or performed (R286). `met` lists the words
at which the array port writes in the same bank cycle (R283). -/
def State.spWriteWords (s : State) (ini : Nat) (met : List Nat) (w : Nat) :
    List (Word64 × BitVec 8) → State × List Resp
  | [] => (s, [])
  | (d, be) :: t =>
    let r : State × Resp :=
      if w ≥ 0x100000 then (s, .decerr)
      else if be ≠ 0xFF then (s, .narrow)
      else if met.contains w then (s.collide ini (8 * w), .collided)
      else (s.spWrite w d, .ok)
    let q := State.spWriteWords r.1 ini met (w + 1) t
    (q.1, r.2 :: q.2)

/-- The first of `order` that occurs among the responses; OK otherwise (R286). -/
def firstResp (order : List Resp) (rs : List Resp) : Resp := (order.find? fun r => rs.contains r).getD .ok

/-- A scratchpad write request (R283, R286, R288). -/
def State.spWriteReq (s : State) (ini off : Nat) (met : List Nat) (data : List (Word64 × BitVec 8)) : State × Resp :=
  if s.bit Reg.MEM_STAT 0 then (s, .slverr)
  else
    let r := s.spWriteWords ini met (off / 8) data
    (r.1, firstResp [.decerr, .narrow, .collided] r.2)

/-- MEM_FILL_START (R288): a START while the engine runs is ignored. -/
def State.memFillStart (s : State) : State := s.setBit Reg.MEM_STAT 0 true

/-- MEM_FILL_START. -/
def execMemFillStart (s : State) : Host.Outcome State Fault Refusal := .next s.memFillStart

/-- The engine has written every word and spare word (R288). -/
def State.fillDone (s : State) : State :=
  if s.bit Reg.MEM_STAT 0 then
    (({ s with mem := { s.mem with sp := [], spBase := some 0 } }.setBit Reg.MEM_STAT 0 false).setBit Reg.MEM_STAT 1 true).fire 59
  else s

/-- FILL_DONE. -/
def execFillDone (s : State) : Host.Outcome State Fault Refusal := .next s.fillDone

/-! Buckets and logs (R292 to R294) -/

/-- BUCKET_LEAK (R293): the level of kind `k` falls by 1 unless it is 0. -/
def execBucketLeak (k : Nat) (s : State) : Host.Outcome State Fault Refusal :=
  .next (s.setFld (kindReg Reg.BKT_STAT k) 7 0 (s.fld (kindReg Reg.BKT_STAT k) 7 0 - 1))

/-- A refused configuration write (R322). -/
def State.cfgRefused (s : State) : State := s.setBit Reg.MEM_STAT 4 true

/-- A write to BKT_CFG of kind `k` (R294). -/
def State.bktCfgWrite (s : State) (k : Nat) (v : Word) : State :=
  if bitsOf v 7 0 = 0 ∨ bitsOf v 25 16 = 0 ∨ bitsOf v 25 16 > 1000 then s.cfgRefused
  else ((s.setFld (kindReg Reg.BKT_CFG k) 7 0 (bitsOf v 7 0)).setFld (kindReg Reg.BKT_CFG k) 25 16 (bitsOf v 25 16)).setFld
    (kindReg Reg.BKT_STAT k) 7 0 0

/-- BKT_CFG_WRITE. -/
def execBktCfgWrite (k : Nat) (v : Word) (s : State) : Host.Outcome State Fault Refusal := .next (s.bktCfgWrite k v)

/-- A write to LOG_STAT of kind `k`: ACK removes the oldest entries, OVF is W1C (R292, R327). -/
def State.logAck (s : State) (k : Nat) (v : Word) : State :=
  let r := kindReg Reg.LOG_STAT k
  let n := min (bitsOf v 19 16) (s.fld r 11 8)
  let s1 := (s.setFld r 2 0 ((s.fld r 2 0 + n) % 8)).setFld r 11 8 (s.fld r 11 8 - n)
  if v.getLsbD 31 then s1.setBit r 31 false else s1

/-- LOG_STAT_ACK. -/
def execLogStatAck (k : Nat) (v : Word) (s : State) : Host.Outcome State Fault Refusal := .next (s.logAck k v)

/-- A firmware write to REMAPb_e (R299). -/
def State.remapWrite (s : State) (b e : Nat) (v : Word) : State :=
  let named := (List.range 16).any fun i => i != e && s.bit (remapReg b i) 31 && s.fld (remapReg b i) 15 0 == bitsOf v 15 0
  let r := remapReg b e
  if s.bit Reg.MEM_STAT 0 || s.bit Reg.MEM_STAT 1 || named || (s.bit r 30 && !v.getLsbD 30) then s.cfgRefused
  else (s.setBit r 31 (v.getLsbD 31)).setFld r 15 0 (bitsOf v 15 0)

/-- REMAP_WRITE. -/
def execRemapWrite (b e : Nat) (v : Word) (s : State) : Host.Outcome State Fault Refusal := .next (s.remapWrite b e v)

/-! Secure region (R304 to R309) -/

def State.secCell (s : State) (k : Nat) : Word72 := cell72 s 1 k (Store.get (fun _ => s.mem.secBase) s.mem.sec k)

def State.setSecCell (s : State) (k : Nat) (w : Word72) : State :=
  { s with mem := { s.mem with sec := Store.set (fun _ => s.mem.secBase) s.mem.sec k (some w) } }

/-- The Dispatcher address of the secure region (R32). -/
abbrev secBaseAddr : Nat := 0x1000000

/-- Read word `k` of the secure region with its accounting (R290, R295). -/
def State.secReadWord (s : State) (k : Nat) : State × Word64 × Bool :=
  let r := decode72 (s.secCell k)
  match r.2 with
  | .clean => (s, r.1, false)
  | .fixed _ syn => (s.countCE 1 (secBaseAddr + 8 * k) syn, r.1, false)
  | .bad syn => ((s.countUE 1 (secBaseAddr + 8 * k) syn).fire 53, r.1, true)

/-- Read `n` words of the secure region. -/
def State.secReadWords (s : State) (k : Nat) : Nat → State × List Word64 × Bool
  | 0 => (s, [], false)
  | n + 1 =>
    let r := s.secReadWord k
    let q := State.secReadWords r.1 (k + 1) n
    (q.1, r.2.1 :: q.2.1, r.2.2 || q.2.2)

/-- A Junction read of the secure region at byte offset `off` (R304, R308). -/
def State.secRead (s : State) (off len : Nat) : State × Resp × List Byte :=
  if off + len > 0x40000 then (s.useFree, .decerr, s.freeBytes len)
  else if s.bit Reg.MEM_STAT 2 then (s.useFree, .slverr, s.freeBytes len)
  else
    let r := s.secReadWords (off / 8) (wordSpan off len)
    if r.2.2 then (r.1.useFree, .poison, s.freeBytes len) else (r.1.useFree, .ok, cutBytes r.2.1 off len)

/-- A read through the Interlocking's own port: corrected and counted as kind 1, 0 while a wipe runs; the last component
says that the word was uncorrectable (R305, R308). -/
def State.secPort (s : State) (k : Nat) : State × Word64 × Bool :=
  if s.bit Reg.MEM_STAT 2 then (s, 0, false) else let r := s.secReadWord k; (r.1.useFree, r.2)

/-- Write one word of the secure region: a whole word, or a 32-bit half merged into it (R295, R304). -/
def State.secWriteWord (s : State) (k : Nat) (d : Word64) (be : BitVec 8) : State × Resp :=
  if k ≥ 0x8000 then (s, .decerr)
  else if be = 0xFF then (s.setSecCell k (encode72 d), .ok)
  else if be = 0x0F ∨ be = 0xF0 then
    let r := s.secReadWord k
    let m := mergeBytes r.2.1 d be
    if r.2.2 then ((r.1.setSecCell k (poison72 m (Config.freePoison s.free k))).useFree, .poison)
    else ((r.1.setSecCell k (encode72 m)).useFree, .ok)
  else (s, .narrow)

def State.secWriteWords (s : State) (k : Nat) : List (Word64 × BitVec 8) → State × List Resp
  | [] => (s, [])
  | (d, be) :: t =>
    let r := s.secWriteWord k d be
    let q := State.secWriteWords r.1 (k + 1) t
    (q.1, r.2 :: q.2)

/-- A Junction write of the secure region (R304, R308). -/
def State.secWriteReq (s : State) (off : Nat) (data : List (Word64 × BitVec 8)) : State × Resp :=
  if s.bit Reg.MEM_STAT 2 then (s, .slverr)
  else
    let r := s.secWriteWords (off / 8) data
    (r.1, firstResp [.decerr, .narrow, .poison] r.2)

/-- Every word of the region 0 with valid check bits (R307). -/
def State.secZero (s : State) : State := { s with mem := { s.mem with sec := [], secBase := some 0 } }

/-- Whether trigger `t`, a bit number of TAMPER_STAT (R324), is armed in the power state the device is in (R307). -/
def State.tamperArmed (s : State) (t : Nat) : Bool :=
  match s.pwr.mode with
  | .off => false
  | .deep => t == 5 || t == 6
  | _ => t == 0 || t == 1 || t == 2 || t == 5 || t == 6

/-- A tamper trigger held long enough (R307 to R309): it starts a wipe, is absorbed by one that runs, or is recorded by the
power controller in Deep sleep, where the wipe leaves the region at 0. -/
def State.tamper (s : State) (t : Nat) : State :=
  if !s.tamperArmed t then s
  else if s.pwr.mode = .deep then
    { s.secZero with mem := { s.secZero.mem with wipeRec := s.mem.wipeRec ||| 2 ^ t } }
  else
    let s1 := s.setBit Reg.TAMPER_STAT t true
    if s1.bit Reg.MEM_STAT 2 then s1
    else ((s1.setBit Reg.TAMPER_STAT 4 true).setFld Reg.TAMPER_STAT 31 24 (s1.fld Reg.TAMPER_STAT 31 24 + 1)).setBit
      Reg.MEM_STAT 2 true

/-- TAMPER_TRIGGER. -/
def execTamperTrigger (t : Nat) (s : State) : Host.Outcome State Fault Refusal := .next (s.tamper t)

/-- The wipe in progress completes (R307, R309). -/
def State.wipeDone (s : State) : State :=
  if s.bit Reg.MEM_STAT 2 then (s.secZero.setBit Reg.MEM_STAT 2 false).fireIf (s.bit Reg.TAMPER_STAT 4) 57 else s

/-- SECURE_WIPE_DONE. -/
def execSecureWipeDone (s : State) : Host.Outcome State Fault Refusal := .next s.wipeDone

/-! Life-cycle requests (R310 to R312) -/

/-- The permitted transitions of R311; states 0 BLANK, 1 DEVELOP, 2 PRODUCTION, 3 FIELD-RETURN, 4 SCRAPPED. -/
def lcPermitted (old new : Nat) : Bool :=
  (old == 0 && (new == 1 || new == 2 || new == 4)) || (old == 1 && new == 4) ||
    (old == 2 && (new == 3 || new == 4)) || (old == 3 && new == 4)

/-- A firmware write to LC_REQ (R312). -/
def State.lcReqWrite (s : State) (v : Word) : State :=
  let s0 := if v.getLsbD 8 then s.setBit Reg.LC_REQ 8 false else s
  let cur := s0.fld Reg.LC_STATE 2 0
  let t := bitsOf v 2 0
  if bitsOf v 31 24 = 0 then s0
  else if bitsOf v 31 24 = 0xC5 ∧ lcPermitted cur t then
    { (s0.setBit Reg.LC_REQ 9 true).setFld Reg.LC_REQ 2 0 t with mem := { s0.mem with lcReq := some t } }
  else if bitsOf v 31 24 = 0xC5 ∧ t = cur then
    { (s0.setBit Reg.LC_REQ 9 false).setFld Reg.LC_REQ 2 0 cur with mem := { s0.mem with lcReq := none } }
  else s0.cfgRefused

/-- LC_REQ_WRITE. -/
def execLcReqWrite (v : Word) (s : State) : Host.Outcome State Fault Refusal := .next (s.lcReqWrite v)

/-! LPDDR5 (R314 to R320) -/

/-- The Dispatcher address of LPDDR5 (R32). -/
abbrev ddrBaseAddr : Nat := 0x100000000

/-- Usable capacity in bytes (R33, R315): 0 until DDR_STAT.READY. -/
def State.ddrUsable (s : State) : Nat :=
  if s.bit Reg.DDR_STAT 0 then s.fld Reg.DDR_STAT 24 16 * 0x4000000 else 0

/-- A write to DDR_CFG (R315, R326): refused while ENABLE = 1 and for reserved RANKS and DENSITY. -/
def State.ddrCfgWrite (s : State) (v : Word) : State :=
  if s.bit Reg.DDR_CFG 31 || decide (bitsOf v 6 5 > 1) || decide (bitsOf v 4 2 > 3) then s.cfgRefused
  else s.codeWrite Reg.DDR_CFG v

/-- DDR_CFG_WRITE. -/
def execDdrCfgWrite (v : Word) (s : State) : Host.Outcome State Fault Refusal := .next (s.ddrCfgWrite v)

/-- RATE, DENSITY and RANKS, which cached training values must match (R315). -/
def State.ddrKey (s : State) : Nat := s.fld Reg.DDR_CFG 6 0

/-- Training ends (R315): READY and the usable capacity, 2 GiB per density step and rank, seven eighths of it with inline
SEC-DED; or TRAIN_FAIL. `match'` says whether the memory's identifiers match the cached values. -/
def State.ddrTrained (s : State) (ok match' : Bool) : State :=
  if !s.bit Reg.DDR_CFG 31 || s.bit Reg.DDR_STAT 0 then s
  else if ok then
    let hit := match' && s.mem.ddrCache == some s.ddrKey
    let units := 32 * (s.fld Reg.DDR_CFG 4 2 + 1) * (s.fld Reg.DDR_CFG 6 5 + 1)
    let s1 := (s.setBit Reg.DDR_STAT 0 true).setBit Reg.DDR_STAT 1 hit
    let s2 := s1.setFld Reg.DDR_STAT 24 16 (if s.bit Reg.DDR_CFG 8 then units * 7 / 8 else units)
    { s2 with mem := { s2.mem with ddrCache := some s.ddrKey } }
  else (s.setBit Reg.DDR_STAT 4 true).fire 60

/-- DDR_TRAINING_END. -/
def execDdrTrainingEnd (ok cached : Bool) (s : State) : Host.Outcome State Fault Refusal := .next (s.ddrTrained ok cached)

/-- MR4_POLL (R320). -/
def execMr4Poll (overtemp : Bool) (s : State) : Host.Outcome State Fault Refusal :=
  .next (if overtemp && s.bit Reg.DDR_STAT 0 then (s.setBit Reg.DDR_STAT 3 true).fire 60 else s)

def State.ddrCell (s : State) (k : Nat) : Word72 := cell72 s 2 k (Store.get (fun _ => none) s.mem.ddr k)

def State.setDdrCell (s : State) (k : Nat) (w : Word72) : State :=
  { s with mem := { s.mem with ddr := Store.set (fun _ => none) s.mem.ddr k (some w) } }

/-- Read the 8-byte word at data offset `8 * k` (R290, R295, R317): with inline SEC-DED through the code. -/
def State.ddrReadWord (s : State) (k : Nat) : State × Word64 × Bool :=
  if s.bit Reg.DDR_CFG 8 then
    let r := decode72 (s.ddrCell k)
    match r.2 with
    | .clean => (s, r.1, false)
    | .fixed _ syn => (s.countCE 3 (ddrBaseAddr + 8 * k) syn, r.1, false)
    | .bad syn => ((s.countUE 3 (ddrBaseAddr + 8 * k) syn).fire 54, r.1, true)
  else (s, (s.ddrCell k).extractLsb' 0 64, false)

def State.ddrReadWords (s : State) (k : Nat) : Nat → State × List Word64 × Bool
  | 0 => (s, [], false)
  | n + 1 =>
    let r := s.ddrReadWord k
    let q := State.ddrReadWords r.1 (k + 1) n
    (q.1, r.2.1 :: q.2.1, r.2.2 || q.2.2)

/-- An LPDDR5 read at offset `off` (R33, R315). -/
def State.ddrRead (s : State) (off len : Nat) : State × Resp × List Byte :=
  if off + len > s.ddrUsable then (s.useFree, .decerr, s.freeBytes len)
  else
    let r := s.ddrReadWords (off / 8) (wordSpan off len)
    if r.2.2 then (r.1.useFree, .poison, s.freeBytes len) else (r.1.useFree, .ok, cutBytes r.2.1 off len)

/-- Write one word (R318): whole, by read, correct, merge and write, or under the data mask. -/
def State.ddrWriteWord (s : State) (k : Nat) (d : Word64) (be : BitVec 8) : State × Resp :=
  if 8 * (k + 1) > s.ddrUsable then (s, .decerr)
  else if be = 0xFF then (s.setDdrCell k (encode72 d), .ok)
  else if be = 0 then (s, .ok)
  else
    let r := s.ddrReadWord k
    let m := mergeBytes r.2.1 d be
    if r.2.2 then ((r.1.setDdrCell k (poison72 m (Config.freePoison s.free k))).useFree, .poison)
    else ((r.1.setDdrCell k (encode72 m)).useFree, .ok)

def State.ddrWriteWords (s : State) (k : Nat) : List (Word64 × BitVec 8) → State × List Resp
  | [] => (s, [])
  | (d, be) :: t =>
    let r := s.ddrWriteWord k d be
    let q := State.ddrWriteWords r.1 (k + 1) t
    (q.1, r.2 :: q.2)

/-- An LPDDR5 write request (R318). -/
def State.ddrWriteReq (s : State) (off : Nat) (data : List (Word64 × BitVec 8)) : State × Resp :=
  let r := s.ddrWriteWords (off / 8) data
  (r.1, firstResp [.decerr, .poison] r.2)

/-! Scrubbers (R300 to R303) -/

/-- The kind-2 scrubber covers the row words of slots that serve logical Platforms and that the test does not own (R302). -/
def State.scrubs2 (s : State) (p : Nat) : Bool := (s.logicalOf (p / 9) (p % 9)).isSome && !s.bistOwns p

/-- The first covered row word at or after `u`, in the order physical Platform, row, address (R302). -/
def State.scrubFind2 (s : State) (u : Nat) : Option Nat :=
  if u / 2 ^ 15 < 72 ∧ s.scrubs2 (u / 2 ^ 15) then some u
  else ((List.range 72).find? fun p => decide (u / 2 ^ 15 < p) && s.scrubs2 p).map (· * 2 ^ 15)

/-- The unit the scrubber of kind `k` visits next, from its pointer; none when its range is empty or it is off. A pointer
past the end of the range stands at its start. -/
def State.scrubUnit (s : State) (k : Nat) : Option Nat :=
  let u := Store.get (fun _ => 0) s.mem.scrubPtr k
  if s.fld (kindReg Reg.SCRUB_CFG k) 15 0 = 0 then none
  else match k with
    | 0 => some (if u < 0x100100 then u else 0)
    | 1 => some (if u < 0x8000 then u else 0)
    | 2 => match s.scrubFind2 u with | some v => some v | none => s.scrubFind2 0
    | _ =>
      let lo := s.fld Reg.SCRUB_DDR_LO 17 0 * 1024
      let hi := s.fld Reg.SCRUB_DDR_HI 17 0 * 1024
      if !s.bit Reg.DDR_CFG 8 || !s.bit Reg.DDR_STAT 0 || decide (hi ≤ lo) then none
      else some (if lo ≤ u ∧ u < hi then u else lo)

/-- Whether unit `u` is the last of the range. -/
def State.scrubLast (s : State) (k u : Nat) : Bool :=
  match k with
  | 0 => u + 1 == 0x100100
  | 1 => u + 1 == 0x8000
  | 2 => (s.scrubFind2 (u + 1)).isNone
  | _ => u + 1 == s.fld Reg.SCRUB_DDR_HI 17 0 * 1024

/-- Scrub one row word: `k` is its number, `a` its address (R301 to R303). -/
def State.scrubRow (s : State) (k a : Nat) (dropped : Bool) : State :=
  let cells := s.planeCells a
  let r := readCell s a k ((cells[k]?).getD none)
  let u := s.subsOf (k / 32)
  let s1 := (s.useFree).account [⟨k, a, false, r.stat⟩]
  match r.stat with
  | .fixed _ _ =>
    if dropped then s1
    else s1.setPlaneCells a (listSet cells k (some (u.scatter r.raw (encode72 (r.lanes.extractLsb' 0 64))
      (r.lanes.extractLsb' 64 2))))
  | _ => s1

/-- The address a record gives for a spare word scrubbed: that of the word it serves; free when it serves none. -/
def State.spareAddr (s : State) (b e : Nat) : Nat :=
  if s.bit (remapReg b e) 31 then 8 * (16 * s.fld (remapReg b e) 15 0 + b) else (Config.freeWord s.free (16 * b + e)).toNat

/-- Scrub one unit of kind `k` (R300 to R303): read it, write back what was corrected unless it was written since. -/
def State.scrubOne (s : State) (k u : Nat) (dropped : Bool) : State :=
  match k with
  | 0 =>
    if s.bit Reg.MEM_STAT 0 then s
    else
      let spare := if u < 0x100000 then none else some (u % 16)
      let b := if u < 0x100000 then u % 16 else (u - 0x100000) / 16
      let idx := if u < 0x100000 then u / 16 else s.fld (remapReg b (u % 16)) 15 0
      let key := if u < 0x100000 then u else spareKey b (u % 16)
      let st := (decode72 (s.spCell key)).2
      let r := s.spReadCell b idx spare (if u < 0x100000 then 8 * u else s.spareAddr b (u % 16))
      match st with
      | .fixed _ _ => if dropped then r.1.useFree else (r.1.setSpCell key (encode72 r.2.1)).useFree
      | _ => r.1.useFree
  | 1 =>
    if s.bit Reg.MEM_STAT 2 then s
    else
      let st := (decode72 (s.secCell u)).2
      let r := s.secReadWord u
      match st with
      | .fixed _ _ => if dropped then r.1.useFree else (r.1.setSecCell u (encode72 r.2.1)).useFree
      | _ => r.1.useFree
  | 2 => s.scrubRow (u / 2 ^ 10) (u % 2 ^ 10) dropped
  | _ =>
    (List.range 8).foldl (fun s i =>
      let st := (decode72 (s.ddrCell (8 * u + i))).2
      let r := s.ddrReadWord (8 * u + i)
      match st with
      | .fixed _ _ => if dropped then r.1 else r.1.setDdrCell (8 * u + i) (encode72 r.2.1)
      | _ => r.1) s |>.useFree

/-- A scrub access of kind `k`, and the wrap at the end of its range (R300). -/
def State.scrub (s : State) (k : Nat) (dropped : Bool) : State :=
  match s.scrubUnit k with
  | none => s
  | some u =>
    let last := s.scrubLast k u
    let s1 := s.scrubOne k u dropped
    let s2 := { s1 with mem := { s1.mem with scrubPtr := Store.set (fun _ => 0) s1.mem.scrubPtr k (if last then 0 else u + 1) } }
    if last then (s2.setFld (kindReg Reg.SCRUB_CFG k) 31 24 (s2.fld (kindReg Reg.SCRUB_CFG k) 31 24 + 1)).fire 58 else s2

/-- SCRUB_ACCESS. -/
def execScrubAccess (k : Nat) (writtenSince : Bool) (s : State) : Host.Outcome State Fault Refusal :=
  .next (s.scrub k writtenSince)

end Sys2Proof.Machine
end

