-- ==== Sys2Proof/Machine/Cameras.lean ====
section
/-! DEFINITION. The camera ports (R363 to R376): streams, stored formats, buffers, completion, errors and pass-through. -/

namespace Sys2Proof.Machine

/-! Registers and state of a stream -/

/-- A register of port `n`, one of six: the number counts modulo 6, so that the key stays among the ports'. -/
def camReg (r n : Nat) : Nat := r + 0x100 * (n % 6)

/-- A register of stream `v` of port `n` (R399). -/
def strReg (r n v : Nat) : Nat := r + 0x100 * (n % 6) + 0x30 * (v % 4)

def State.stream (s : State) (n v : Nat) : Stream := s.streams.getD (4 * n + v) Stream.init

def State.setStream (s : State) (n v : Nat) (x : Stream) : State := { s with streams := listSet s.streams (4 * n + v) x }

/-- The port receives and the stream is enabled (R364, R401). -/
def State.streamOn (s : State) (n v : Nat) : Bool := s.bit (camReg Reg.CAM_CTL n) 0 && s.bit (strReg Reg.STR_CFG n v) 0

/-- A refused write to a camera register: it receives OK (R399). -/
def State.camRefused (s : State) (n : Nat) : State := s.setBit (camReg Reg.CAM_STAT n) 6 true

/-- A reception error of R371: the frame is in error, and source 34 is raised if enabled. -/
def State.camError (s : State) (n v : Nat) : State :=
  (s.setStream n v { s.stream n v with bad := true }).fireIf (s.bit (strReg Reg.STR_CFG n v) 3) 34

/-! Configuration (R365, R366, R375) -/

/-- The data types of R365. -/
def camTypes : List Nat := [0x1E, 0x22, 0x24, 0x2A, 0x2B, 0x2C, 0x2D, 0x2E]

/-- Stored bytes of a pixel (R365). -/
def camBytes (dt : Nat) : Nat := if dt = 0x24 then 4 else if dt = 0x2A then 1 else 2

/-- Whether a stream may be enabled with configuration word `w` (R363, R365 to R367, R401): geometry within the limits, a
stride that is a multiple of 256 and holds a padded line, and every buffer inside the usable LPDDR5 capacity. -/
def State.camFits (s : State) (n v : Nat) (w : Word) : Bool :=
  let wd := s.fld (strReg Reg.STR_GEOM n v) 15 0
  let ht := s.fld (strReg Reg.STR_GEOM n v) 31 16
  let st := (s.reg (strReg Reg.STR_STRIDE n v)).toNat
  let dt := bitsOf w 9 4
  let line := wd * camBytes dt
  decide (1 ≤ wd) && decide (wd ≤ 4096) && decide (1 ≤ ht) && decide (ht ≤ 4096) && decide (line ≤ 8192) &&
  (dt != 0x1E || wd % 2 == 0) && st % 256 == 0 && decide ((line + 7) / 8 * 8 ≤ st) &&
  (List.range (bitsOf w 13 12 + 1)).all fun i =>
    decide (s.fld (strReg Reg.STR_BUF n v + 4 * i) 21 0 * 4096 + st * ht ≤ s.ddrUsable)

/-- A write to a stream's CFG (R365, R367, R375): refused for a data type or buffer count that does not exist, while enabled
for a change of either, and for enabling a stream that does not fit. EN = 0 stops the stream at once. -/
def State.camCfgWrite (s : State) (n v : Nat) (w : Word) : State :=
  let r := strReg Reg.STR_CFG n v
  let was := s.bit r 0
  let same := decide (bitsOf w 9 4 = s.fld r 9 4) && decide (bitsOf w 13 12 = s.fld r 13 12)
  if !camTypes.contains (bitsOf w 9 4) || decide (bitsOf w 13 12 < 2) || (was && !same) ||
      (!was && w.getLsbD 0 && !s.camFits n v w) then s.camRefused n
  else
    let s1 := s.codeWrite r w
    if was == w.getLsbD 0 then s1
    else s1.setStream n v { s1.stream n v with live := false, ended := false, done := false }

/-- CAM_STREAM_CFG_WRITE. -/
def execCamStreamCfgWrite (n vc : Nat) (v : Word) (s : State) : Host.Outcome State Fault Refusal :=
  .next (s.camCfgWrite n vc v)

/-- A write to GEOM or STRIDE (R375). -/
def State.camGeomWrite (s : State) (n v a : Nat) (w : Word) : State :=
  if s.bit (strReg Reg.STR_CFG n v) 0 then s.camRefused n else s.codeWrite a w

/-- A write to CAMn_CTL (R400): LANES = 0b11 is refused. -/
def State.camCtlWrite (s : State) (n : Nat) (w : Word) : State :=
  if bitsOf w 2 1 = 3 then s.camRefused n else s.codeWrite (camReg Reg.CAM_CTL n) w

/-! Frames -/

/-- Completion of the frame in progress (R370). -/
def State.camComplete (s : State) (n v : Nat) (truncated : Bool) : State :=
  let x := s.stream n v
  let r := strReg Reg.STR_SSTAT n v
  let s1 := ((s.setFld r 19 18 (s.fld r 17 16)).setBit r 21 (x.bad || truncated)).setFld r 31 24 (s.fld r 31 24 + 1)
  let t := s1.sm.camTot.getD n (0, 0)
  let s2 := if x.bad || truncated then { s1 with sm := { s1.sm with camTot := listSet s1.sm.camTot n (t.1 + 1, t.2) } } else s1
  (s2.setStream n v { x with live := false, ended := false, done := true }).fireIf (s2.bit (strReg Reg.STR_CFG n v) 1) 32

/-- The first buffer, in ring order after CUR, that is neither held nor LAST (R367). -/
def State.camNext (s : State) (n v : Nat) : Option Nat :=
  let cfg := strReg Reg.STR_CFG n v
  let st := strReg Reg.STR_SSTAT n v
  let nb := s.fld cfg 13 12 + 1
  ((List.range nb).map fun i => (s.fld st 17 16 + 1 + i) % nb).find? fun b => !s.bit cfg (16 + b) && b != s.fld st 19 18

/-- FS (R367, R370, R371, R373, R374): a frame whose FE had not come completes truncated; one that had only waited for its
last responses completes; then the next buffer is chosen, or the frame dropped. `time` is the timebase count. -/
def State.frameStart (s : State) (n v time : Nat) : State :=
  if !s.streamOn n v then s
  else
    let x := s.stream n v
    let s1 := if x.live then if x.ended then s.camComplete n v false else (s.camError n v).camComplete n v true else s
    let r := strReg Reg.STR_SSTAT n v
    let s2 := ((s1.setFld r 15 0 0).setBit r 23 false).setReg (strReg Reg.STR_TS_LO n v) (BitVec.ofNat 32 time)
    match s2.camNext n v with
    | some b =>
      ((s2.setFld r 17 16 b).setBit r 22 false).setStream n v
        { x with live := true, ended := false, done := false, bad := false, skip := false, next := 0, writes := [], ts := time,
                 page := s2.fld (strReg Reg.STR_BUF n v + 4 * b) 21 0 }
    | none =>
      ((s2.setBit r 22 true).satInc (camReg Reg.CAM_ERRCNT n) 31 16).setStream n v
        { x with live := false, ended := false, done := false, bad := false, skip := false, next := 0, writes := [], ts := time }

/-- FRAME_START. -/
def execFrameStart (n vc time : Nat) (s : State) : Host.Outcome State Fault Refusal := .next (s.frameStart n vc time)

/-- FRAME_END (R370): the frame has all its lines; the time of the FE serves locked pipes (R396), whose SRC_LOST it ends
(R397) in Machine/Pipes.lean. -/
def State.frameEnd (s : State) (n v ps : Nat) : State :=
  if !s.streamOn n v then s
  else s.setStream n v { s.stream n v with ended := (s.stream n v).live, lastFe := some ps }

/-- The frame's FE has come and the writes of its last line have responses (R370). -/
def State.camDone (s : State) (n v : Nat) : Bool :=
  let x := s.stream n v
  x.live && x.ended && x.writes.all fun w => w.2 + 1 != x.next

/-- CAM_FRAME. -/
def execCamFrame (n vc : Nat) (s : State) : Host.Outcome State Fault Refusal :=
  .next (if s.camDone n vc then s.camComplete n vc false else s)

/-- CAM_LOST (R373). -/
def State.camLost (s : State) (n v : Nat) : State :=
  let r := strReg Reg.STR_SSTAT n v
  if s.streamOn n v && s.fld (strReg Reg.STR_TMO n v) 15 0 != 0 && !s.bit r 23 then (s.setBit r 23 true).fire 36 else s

/-- CAM_LOST. -/
def execCamLost (n vc : Nat) (s : State) : Host.Outcome State Fault Refusal := .next (s.camLost n vc)

/-- TS_LO_READ (R374): TS_HI takes the upper half of the latched count. -/
def State.tsLoRead (s : State) (n v : Nat) : State :=
  s.setReg (strReg Reg.STR_TS_HI n v) (BitVec.ofNat 32 ((s.stream n v).ts / 2 ^ 32))

/-- TS_LO_READ. -/
def execTsLoRead (n vc : Nat) (s : State) : Host.Outcome State Fault Refusal := .next (s.tsLoRead n vc)

/-! Lines (R365, R366, R371, R372) -/

/-- The stored bytes of the values of a long packet: for data type 0x1E the bytes as they arrive, for 0x22 and 0x24 the pixels
with R lowest, else the samples. -/
def camStore (dt : Nat) (px : List Nat) : List Byte :=
  match dt with
  | 0x1E | 0x2A => px.map (BitVec.ofNat 8)
  | 0x24 => px.flatMap fun p => natLe 4 (p % 2 ^ 24 + 0xFF000000)
  | 0x2B => px.flatMap fun p => natLe 2 (p % 2 ^ 10)
  | 0x2C => px.flatMap fun p => natLe 2 (p % 2 ^ 12)
  | 0x2D => px.flatMap fun p => natLe 2 (p % 2 ^ 14)
  | _ => px.flatMap fun p => natLe 2 p

/-- Values of a line of `w` pixels. -/
def camUnits (dt w : Nat) : Nat := if dt = 0x1E then 2 * w else w

/-- The 64-bit words of `n` bytes, the last padded with zeros (R366). -/
def padWords : Nat → List Byte → List Word64
  | 0, _ => []
  | n + 1, l => BitVec.ofNat 64 (leNat (l.take 8)) :: padWords n (l.drop 8)

/-- A port sends the write requests of a line, 256 bytes each, with the tags that are free. -/
def State.camSend (s : State) (n v l addr : Nat) : Nat → List Word64 → State
  | 0, _ => s
  | i + 1, ws =>
    if ws = [] then s
    else
      let tag := s.freeTag (32 + n)
      let t : Txn := ⟨32 + n, 8 + n, tag, true, false, addr, 8 * (ws.take 32).length,
        (ws.take 32).map fun w => (w, BitVec.allOnes 8), true, .issued, 0, []⟩
      let s1 := { s with jt := { s.jt with txns := s.jt.txns ++ [t] } }
      let x := s1.stream n v
      (s1.setStream n v { x with writes := x.writes ++ [(tag, l)] }).camSend n v l (addr + 256) i (ws.drop 32)

/-- Every write of a line has its response: LINES counts it, and may raise source 33 (R369). -/
def State.camLine (s : State) (n v : Nat) : State :=
  let r := strReg Reg.STR_SSTAT n v
  let k := s.fld r 15 0 + 1
  (s.setFld r 15 0 k).fireIf (s.bit (strReg Reg.STR_CFG n v) 2 && k == s.fld (strReg Reg.STR_LINE_IRQ n v) 15 0) 33

/-- A line of the frame in progress, as received: `px` are its values. -/
def State.camPacket (s : State) (n v dt : Nat) (px : List Nat) (crcBad : Bool) : State :=
  let x := s.stream n v
  let l := x.next
  let s1 := if crcBad then (((s.setBit (camReg Reg.CAM_STAT n) 3 true).satInc (camReg Reg.CAM_ERRCNT n) 15 0)).camError n v else s
  if l ≥ s.fld (strReg Reg.STR_GEOM n v) 31 16 then s1.camError n v
  else
    let k := camUnits dt (s.fld (strReg Reg.STR_GEOM n v) 15 0)
    let s2 := if px.length > k then s1.camError n v
      else if px.length < k then (s1.setBit (camReg Reg.CAM_STAT n) 4 true).camError n v else s1
    let bs := camStore dt (px.take k)
    let ws := padWords ((bs.length + 7) / 8) bs
    let s3 := s2.setStream n v { s2.stream n v with next := l + 1 }
    if ws = [] then s3.camLine n v
    else s3.camSend n v l (ddrBaseAddr + x.page * 4096 + l * (s.reg (strReg Reg.STR_STRIDE n v)).toNat) (ws.length / 32 + 1) ws

/-- A long packet (R364 to R366, R371, R372): `hdrBad` says that its header is uncorrectable, `crcBad` that its CRC fails,
`full` that it finds the receive FIFO full. -/
def State.longPacket (s : State) (n v dt : Nat) (px : List Nat) (hdrBad crcBad full : Bool) : State :=
  let x := s.stream n v
  if !s.bit (camReg Reg.CAM_CTL n) 0 then s
  else if hdrBad then
    let s1 := s.setBit (camReg Reg.CAM_STAT n) 2 true
    if s.streamOn n v then s1.camError n v else s1
  else if !s.streamOn n v || dt != s.fld (strReg Reg.STR_CFG n v) 9 4 || !x.live || x.ended || x.skip then s
  else if full then
    ((s.setStream n v { x with skip := true, bad := true }).setBit (camReg Reg.CAM_STAT n) 5 true).fire 35
  else s.camPacket n v dt px crcBad

/-- LONG_PACKET. -/
def execLongPacket (n vc dt : Nat) (px : List Nat) (hdrBad crcBad full : Bool) (s : State) : Host.Outcome State Fault Refusal :=
  .next (s.longPacket n vc dt px hdrBad crcBad full)

/-- Port `n` receives the response of its write request `tag` (R369). -/
def State.camResponse (s : State) (n tag : Nat) (r : Resp) : State :=
  match (List.range 4).find? fun v => (s.stream n v).writes.any fun w => w.1 == tag with
  | none => s
  | some v =>
    let x := s.stream n v
    let l := ((x.writes.find? fun w => w.1 == tag).map Prod.snd).getD 0
    let rest := x.writes.filter fun w => w.1 != tag
    let s1 := s.setStream n v { x with writes := rest, bad := x.bad || r != .ok }
    if rest.any fun w => w.2 == l then s1 else s1.camLine n v

/-! Pass-through (R376) -/

/-- Stationmaster judges a pass-through strip at a strip boundary: `need` lines of the current frame cover what the strip
reads, halo included. It is released ahead of every other strip. -/
def State.passRelease (s : State) (n v need strip : Nat) : State :=
  let st := strReg Reg.STR_SSTAT n v
  let lines := s.fld st 15 0
  let x := s.stream n v
  if need ≤ lines then { s with sched := { s.sched with passReady := s.sched.passReady ++ [(strip, false)] } }
  else if x.done then
    { s with sched := { s.sched with passReady := s.sched.passReady ++ [(strip, true)], passErrors := s.sched.passErrors + 1 } }
  else s

/-- PASS_THROUGH_RELEASE. -/
def execPassThroughRelease (n vc need strip : Nat) (s : State) : Host.Outcome State Fault Refusal :=
  .next (s.passRelease n vc need strip)

end Sys2Proof.Machine
end

