-- ==== Sys2Proof/Machine/Pipes.lean ====
section
/-! DEFINITION. The display pipes (R377 to R398): registers with pending and active copies, commits, timing, link, layer
fetch and underrun, the blender and the final formatter, and the lock to a camera. -/

namespace Sys2Proof.Machine

/-! Registers and state of a pipe -/

/-- A register of pipe `p`, one of four: the number counts modulo 4, so that the key stays among the pipes'. -/
def pipeReg (r p : Nat) : Nat := r + 0x400 * (p % 4)

/-- A register of layer `l` of pipe `p` (R399). -/
def layReg (r p l : Nat) : Nat := r + 0x400 * (p % 4) + 0x20 * (l % 8)

def State.pipe (s : State) (p : Nat) : Pipe := s.pipes.getD p Pipe.init

def State.setPipe (s : State) (p : Nat) (x : Pipe) : State := { s with pipes := listSet s.pipes p x }

/-- Pipes 0 and 1 drive eDP, 2 and 3 DSI (R377, R378). -/
def pipeDsi (p : Nat) : Bool := decide (2 ≤ p)

/-- A refused write or commit of a pipe (R402). -/
def State.pipeRefused (s : State) (p : Nat) : State := s.setBit (pipeReg Reg.PIPE_ERR p) 3 true

/-- HACT, HFP, HSYNC, HBP, VACT, VFP, VSYNC, VBP (R390). -/
def State.pipeTiming (s : State) (p : Nat) : List Nat :=
  [s.fld (pipeReg Reg.HTIM0 p) 15 0, s.fld (pipeReg Reg.HTIM0 p) 31 16, s.fld (pipeReg Reg.HTIM1 p) 15 0,
   s.fld (pipeReg Reg.HTIM1 p) 31 16, s.fld (pipeReg Reg.VTIM0 p) 15 0, s.fld (pipeReg Reg.VTIM0 p) 31 16,
   s.fld (pipeReg Reg.VTIM1 p) 15 0, s.fld (pipeReg Reg.VTIM1 p) 31 16]

def State.hact (s : State) (p : Nat) : Nat := s.fld (pipeReg Reg.HTIM0 p) 15 0
def State.vact (s : State) (p : Nat) : Nat := s.fld (pipeReg Reg.VTIM0 p) 15 0

/-- Pixels of a line. -/
def State.htotal (s : State) (p : Nat) : Nat := ((s.pipeTiming p).take 4).foldl (· + ·) 0

/-- Lines of a nominal frame. -/
def State.vtotal (s : State) (p : Nat) : Nat := ((s.pipeTiming p).drop 4).foldl (· + ·) 0

/-- Pixel clock in kHz. -/
def State.pclk (s : State) (p : Nat) : Nat := s.fld (pipeReg Reg.PCLK p) 18 0

/-- The conditions under which EN = 1 is refused (R391), with the BPC field that the write gives. -/
def State.pipeBadTiming (s : State) (p bpc : Nat) : Bool :=
  let px := s.htotal p * s.vtotal p
  (s.pipeTiming p).contains 0 || s.pclk p == 0 || decide (s.vtotal p > 16383) ||
  decide (s.hact p > if pipeDsi p then 2560 else 3840) || decide (s.vact p > if pipeDsi p then 1080 else 1440) ||
  decide (s.pclk p > if pipeDsi p then 200000 else 400000) || (pipeDsi p && bpc == 2) ||
  decide (s.pclk p * 1000 < 24 * px) || decide (s.pclk p * 1000 > 61 * px)

/-! Layers (R380, R387, R389, R394) -/

/-- Bytes per pixel of a layer format (R380). -/
def fmtBytes (f : Nat) : Nat := if f < 2 then 4 else 2

/-- A layer as a set of registers describes it. -/
structure Layer where
  base : Nat
  stride : Nat
  w : Nat
  h : Nat
  x : Nat
  y : Nat
  ga : Nat
  yuv709 : Bool
  fmt : Nat
  deriving DecidableEq, Repr

/-- Layer `l` of pipe `p` in the copy that `k` selects (the identity for the pending copy, `Reg.act` for the active one);
none when it is disabled. -/
def State.layer (s : State) (k : Nat → Nat) (p l : Nat) : Option Layer :=
  let f := fun r => s.reg (k (layReg r p l))
  if (f Reg.LAY_LFMT).getLsbD 0 then
    some ⟨bitsOf (f Reg.LAY_BASE_HI) 19 0 * 2 ^ 32 + (f Reg.LAY_BASE_LO).toNat, (f Reg.LAY_STRIDE).toNat,
      bitsOf (f Reg.LAY_SIZE) 15 0, bitsOf (f Reg.LAY_SIZE) 31 16, bitsOf (f Reg.LAY_POS) 15 0, bitsOf (f Reg.LAY_POS) 31 16,
      bitsOf (f Reg.LAY_LFMT) 15 8, (f Reg.LAY_LFMT).getLsbD 4, bitsOf (f Reg.LAY_LFMT) 3 1⟩
  else none

/-- The enabled layers of a copy, with their numbers. -/
def State.layers (s : State) (k : Nat → Nat) (p : Nat) : List (Nat × Layer) :=
  (List.range 8).filterMap fun l => (s.layer k p l).map fun x => (l, x)

/-- Bytes of a layer's line. -/
def Layer.lineBytes (x : Layer) : Nat := x.w * fmtBytes x.fmt

/-- An enabled layer breaks a rule of R389. -/
def State.layerBad (s : State) (p : Nat) (x : Layer) : Bool :=
  decide (3 < x.fmt) || x.base % 8 != 0 || x.stride % 8 != 0 || decide (s.hact p < x.x + x.w) ||
  decide (s.vact p < x.y + x.h) || decide (x.base < ddrBaseAddr) ||
  decide (ddrBaseAddr + s.ddrUsable < x.base + (x.h - 1) * x.stride + x.lineBytes) ||
  x.w == 0 || x.h == 0 || decide (16384 < x.lineBytes) || (x.fmt == 3 && (x.x % 2 != 0 || x.w % 2 != 0))

/-- The pending set cannot be committed (R389, R394). -/
def State.commitBad (s : State) (p : Nat) : Bool :=
  let ls := s.layers id p
  ls.any (fun x => s.layerBad p x.2) || decide (131072 < ls.foldl (fun n x => n + 2 * x.2.lineBytes) 0)

/-- PEND of the pipe (R387). -/
def State.pipePend (s : State) (p : Nat) : Bool := s.bit (pipeReg Reg.PIPE_COMMIT p) 2

/-- Set or clear PEND, with the COMMIT bit that asked for it. -/
def State.setPipePend (s : State) (p : Nat) (b : Bool) : State :=
  (s.setBit (pipeReg Reg.PIPE_COMMIT p) 2 b).setBit (pipeReg Reg.PIPE_COMMIT p) 0 b

/-- A write of COMMIT = 1 (R387, R389). -/
def State.pipeCommit (s : State) (p : Nat) : State × Resp :=
  if s.pipePend p then (s, .ok)
  else if s.commitBad p then ((s.pipeRefused p).fire 44, .denied)
  else (s.setPipePend p true, .ok)

/-- PIPE_COMMIT_WRITE. -/
def execPipeCommitWrite (p : Nat) (s : State) : Host.Outcome State Fault Refusal := .next (s.pipeCommit p).1

/-- A write of CANCEL = 1 (R388). -/
def State.pipeCancel (s : State) (p : Nat) : State := s.setPipePend p false

/-- PIPE_CANCEL. -/
def execPipeCancel (p : Nat) (s : State) : Host.Outcome State Fault Refusal := .next (s.pipeCancel p)

/-- A write to a register with a pending copy (R388). -/
def State.pipePendWrite (s : State) (p a : Nat) (v : Word) : State × Resp :=
  if s.pipePend p then (s.pipeRefused p, .denied) else (s.codeWrite a v, .ok)

/-- A write to LUT_IDX (R402): 768 and above are refused. -/
def State.lutIdxWrite (s : State) (p : Nat) (v : Word) : State × Resp :=
  if bitsOf v 9 0 ≥ 768 then (s.pipeRefused p, .denied) else (s.codeWrite (pipeReg Reg.LUT_IDX p) v, .ok)

/-- An access to LUT_DATA (R402): the entry at IDX of the pending table is read or written, and IDX advances. -/
def State.lutAccess (s : State) (p : Nat) (write : Bool) (v : Word) : State × Resp × Word :=
  let i := s.fld (pipeReg Reg.LUT_IDX p) 9 0
  let x := s.pipe p
  let next := fun s : State => s.setFld (pipeReg Reg.LUT_IDX p) 9 0 (if i = 767 then 0 else i + 1)
  if write then
    if s.pipePend p then (s.pipeRefused p, .denied, 0)
    else (next (s.setPipe p { x with lut := Store.set (fun _ => 0) x.lut i (bitsOf v 9 0) }), .ok, 0)
  else (next s, .ok, BitVec.ofNat 32 (Store.get (fun _ => 0) x.lut i))

/-- LUT_DATA_ACCESS. -/
def execLutDataAccess (p : Nat) (write : Bool) (v : Word) (s : State) : Host.Outcome State Fault Refusal :=
  .next (s.lutAccess p write v).1

/-- The registers of a pipe with pending and active copies, LUT_DATA apart (R402). -/
def pendingRegs (p : Nat) : List Nat :=
  [pipeReg Reg.PIPE_BG p, pipeReg Reg.FMT_CTL p] ++
    (List.range 8).flatMap fun l => [Reg.LAY_BASE_LO, Reg.LAY_BASE_HI, Reg.LAY_STRIDE, Reg.LAY_SIZE, Reg.LAY_POS, Reg.LAY_LFMT].map
      fun r => layReg r p l

/-- A pending commit is taken (R387). -/
def State.pipeTake (s : State) (p : Nat) : State :=
  let s1 := (pendingRegs p).foldl (fun s a => s.setReg (Reg.act a) (s.reg a)) s
  ((s1.setPipe p { s1.pipe p with lutAct := (s1.pipe p).lut }).setPipePend p false).fire 41

/-- Disable the active layers (R391, R392). -/
def State.layersOff (s : State) (p : Nat) : State :=
  (List.range 8).foldl (fun s l => s.setBit (Reg.act (layReg Reg.LAY_LFMT p l)) 0 false) s

/-! Enable, stop and link (R391 to R393) -/

/-- Cause `b` of SAFE_N is set: the first one asserts SAFE_N (R437). Event 0x06 has DISP 0xFF and DETAIL 0xFF; its INDEX,
which names no pair or slot, is a free value. -/
def State.evtAdd (s : State) (code disp index detail : Nat) : State :=
  let cnt := s.fld Reg.EVT_STAT 12 8
  let old := s.fld Reg.EVT_STAT 3 0
  let i := (old + cnt) % 16
  let s1 := (s.setReg (Reg.EVT_LO + 8 * i) (s.reg Reg.TT_TICK)).setReg (Reg.EVT_HI + 8 * i)
    (BitVec.ofNat 32 (code * 2 ^ 24 + disp % 256 * 2 ^ 16 + index % 256 * 2 ^ 8 + detail % 256))
  if cnt = 16 then (s1.setFld Reg.EVT_STAT 3 0 ((old + 1) % 16)).setBit Reg.EVT_STAT 31 true
  else s1.setFld Reg.EVT_STAT 12 8 (cnt + 1)

/-- A free byte for a field of an event that the spec does not fill. -/
def State.freeByte (s : State) : Nat := (Config.freeWord s.free 1).toNat % 256

/-- A cause of SAFE_N is set (R437). -/
def State.safeSet (s : State) (b : Nat) : State :=
  let was := s.bit Reg.SAFE_STAT 31
  let s1 := (s.setBit Reg.SAFE_STAT b true).setBit Reg.SAFE_STAT 31 true
  if was then s1 else ((s1.evtAdd 6 0xFF s1.freeByte 0xFF).useFree).fire 20

/-- Causes of SAFE_N are cleared; the last one deasserts SAFE_N (R437). -/
def State.safeClear (s : State) (bs : List Nat) : State :=
  let was := s.bit Reg.SAFE_STAT 31
  let s1 := bs.foldl (fun s b => s.setBit Reg.SAFE_STAT b false) s
  if was && s1.fld Reg.SAFE_STAT 6 0 == 0 then ((s1.setBit Reg.SAFE_STAT 31 false).evtAdd 7 0xFF s1.freeByte 0xFF).useFree else s1

/-- LINK_UP falls; on an armed pipe that is a cause of SAFE_N (R437). -/
def State.linkDown (s : State) (p : Nat) : State :=
  let was := s.bit (pipeReg Reg.PIPE_STAT p) 15
  let s1 := s.setBit (pipeReg Reg.PIPE_STAT p) 15 false
  if was && s1.bit (Reg.DISP_STAT + 0x80 * p) 0 then s1.safeSet 6 else s1

/-- The pipe's side of the instant at which a stop takes effect (R392). -/
def State.pipeHalt (s : State) (p : Nat) : State :=
  let s1 := ((s.setPipePend p false).layersOff p).setFld (pipeReg Reg.PIPE_STAT p) 14 0 0
  (s1.setPipe p { s1.pipe p with mode := .off, stopReq := false, queue := [], reads := [], lines := [] }).linkDown p

/-- The Interlocking's sampling of DISPp_CFG at a start of vertical sync or a stop (R416): ARM is taken only while ACTIVE = 1. -/
def State.ilSample (s : State) (p : Nat) : State :=
  let c := Reg.DISP_CFG + 0x80 * (p % 4)
  let s1 := s.setReg (Reg.act c) (s.reg c)
  let st := Reg.DISP_STAT + 0x80 * (p % 4)
  if !s.bit c 0 then s1.setBit st 0 false
  else if s.bit (pipeReg Reg.PIPE_STAT p) 14 then s1.setBit st 0 true else s1

def State.chan (s : State) (p : Nat) : Chan := s.il.chans.getD p Chan.init

def State.setChan (s : State) (p : Nat) (c : Chan) : State := { s with il := { s.il with chans := listSet s.il.chans p c } }

/-- The instant at which a stop takes effect (R392, R412, R416): the Interlocking samples DISPp_CFG and empties its history,
and the pipe stops. -/
def State.pipeStopNow (s : State) (p : Nat) : State :=
  let s1 := s.ilSample p
  (s1.setChan p { s1.chan p with hist := [], frame := none }).pipeHalt p

/-- EN = 1 starts the bring-up of a pipe that is off (R391): FRAME restarts and the active layers are disabled. -/
def State.pipeStart (s : State) (p : Nat) : State :=
  let s1 := (s.setFld (pipeReg Reg.PIPE_STAT p) 31 16 0).layersOff p
  s1.setPipe p { s1.pipe p with mode := .bringup, stopReq := false, porch := s.fld (pipeReg Reg.VTIM0 p) 31 16, goodFrames := 0 }

/-- EN = 0: at the next start of vertical sync, or at once on a pipe whose bring-up has failed (R392). -/
def State.pipeDisable (s : State) (p : Nat) : State :=
  let s1 := s.setBit (pipeReg Reg.PIPE_CTL p) 0 false
  match (s.pipe p).mode with
  | .off => s1
  | .failed => s1.pipeStopNow p
  | _ => s1.setPipe p { s1.pipe p with stopReq := true }

/-- The pipe counts as enabled (R391, R392). -/
def State.pipeOn (s : State) (p : Nat) : Bool := s.bit (pipeReg Reg.PIPE_CTL p) 0 || (s.pipe p).mode != .off

/-- A write to PIPE_CTL (R391, R392, R396). -/
def State.pipeCtlWrite (s : State) (p : Nat) (v : Word) : State × Resp :=
  let r := pipeReg Reg.PIPE_CTL p
  let bpc := bitsOf v 3 2
  let en := v.getLsbD 0
  let fixed := decide (bpc = s.fld r 3 2) && decide (bitsOf v 7 6 = s.fld r 7 6)
  let lockBad := s.bit (pipeReg Reg.PIPE_LOCK p) 0 &&
    decide (s.fld (pipeReg Reg.VTIM0 p) 31 16 ≤ s.fld (pipeReg Reg.PIPE_LOCK p) 15 8)
  if bpc = 3 || (pipeDsi p && bpc == 2) || (s.pipeOn p && !fixed) ||
      (en && !s.bit r 0 && ((!s.pipeOn p && s.pipeBadTiming p bpc) || lockBad)) then (s.pipeRefused p, .denied)
  else
    let was := s.bit r 0
    let s1 := s.codeWrite r v
    if en == was then (s1, .ok)
    else if en then
      (if (s.pipe p).mode = .off then s1.pipeStart p else s1.setPipe p { s1.pipe p with stopReq := false }, .ok)
    else (s1.pipeDisable p, .ok)

/-- PIPE_CTL_WRITE. -/
def execPipeCtlWrite (p : Nat) (v : Word) (s : State) : Host.Outcome State Fault Refusal := .next (s.pipeCtlWrite p v).1

/-- A write to a timing register or PCLK (R391). -/
def State.pipeTimingWrite (s : State) (p a : Nat) (v : Word) : State × Resp :=
  if s.pipeOn p then (s.pipeRefused p, .denied) else (s.codeWrite a v, .ok)

/-- A RETRAIN of the link of pipe `p` is in progress (R509). -/
def State.retraining (s : State) (p : Nat) : Bool :=
  s.sm.waits.any fun e => match e.2 with | .display d 1 true _ _ => d == p | _ => false

/-- LINK_UP (R391): bring-up succeeds, and the first start of vertical sync follows; or a retrained link is up. -/
def State.linkUp (s : State) (p : Nat) : State :=
  if (s.pipe p).mode = .bringup ∨ ((s.pipe p).mode = .running ∧ s.retraining p) then s.setBit (pipeReg Reg.PIPE_STAT p) 15 true
  else s

/-- LINK_FAIL (R391): the pipe stays idle, and a stop already written takes effect at once (R392). -/
def State.linkFail (s : State) (p : Nat) : State :=
  if (s.pipe p).mode = .bringup && !s.bit (pipeReg Reg.PIPE_STAT p) 15 then
    let s1 := (s.setBit (pipeReg Reg.PIPE_ERR p) 2 true).fire 45
    if (s.pipe p).stopReq then s1.pipeStopNow p else s1.setPipe p { s1.pipe p with mode := .failed }
  else if (s.pipe p).mode = .running && s.retraining p then
    (((if s.bit (pipeReg Reg.PIPE_STAT p) 15 then s.linkDown p else s).setBit (pipeReg Reg.PIPE_ERR p) 2 true)).fire 45
  else s

/-- HPD_LOST (R393): on an eDP pipe whose link is up; frame timing keeps running. -/
def State.hpdLost (s : State) (p : Nat) : State :=
  if !pipeDsi p && s.bit (pipeReg Reg.PIPE_STAT p) 15 then ((s.linkDown p).setBit (pipeReg Reg.PIPE_ERR p) 2 true).fire 45
  else s

/-- HPD_LOST. -/
def execHpdLost (p : Nat) (s : State) : Host.Outcome State Fault Refusal := .next (s.hpdLost p)

/-- IRQ_HPD (R393). -/
def execIrqHpd (p : Nat) (s : State) : Host.Outcome State Fault Refusal := .next (s.fireIf (!pipeDsi p) 45)

/-! Fetch and underrun (R394, R395) -/

/-- The reads of a layer line: offset in the line, address and length, none across a 256-byte boundary (R338). -/
def lineReads (addr len : Nat) : Nat → Nat → List (Nat × Nat × Nat)
  | 0, _ => []
  | i + 1, off =>
    if len ≤ off then []
    else
      let a := addr + off
      let n := min (256 - a % 256) (len - off)
      (off, a, n) :: lineReads addr len i (off + n)

/-- Send the reads that wait while tags are free (R345). -/
def State.pipeSend (s : State) (p : Nat) : Nat → State
  | 0 => s
  | i + 1 =>
    match (s.pipe p).queue with
    | [] => s
    | (l, y, off, a, n) :: rest =>
      if 256 ≤ s.jt.txns.countP (fun t => t.src == 16 + p) then s
      else
        let tag := s.freeTag (16 + p)
        let t : Txn := ⟨16 + p, 14 + p, tag, false, false, a, n, [], true, .issued, 0, []⟩
        let s1 := { s with jt := { s.jt with txns := s.jt.txns ++ [t] } }
        let x := s1.pipe p
        (s1.setPipe p { x with queue := rest, reads := x.reads ++ [(tag, l, y, off)] }).pipeSend p i

/-- LINE_FETCH (R394): the pipe begins to fetch line `y` of the active area for every enabled layer that has one. -/
def State.lineFetch (s : State) (p y : Nat) : State :=
  if (s.pipe p).mode ≠ .running ∨ s.vact p ≤ y then s
  else
    let ls := (s.layers Reg.act p).filter fun x =>
      decide (x.2.y ≤ y) && decide (y < x.2.y + x.2.h) && !(s.pipe p).lines.any fun r => r.layer == x.1 && r.y == y
    let reads := fun x : Nat × Layer =>
      lineReads (x.2.base + (y - x.2.y) * x.2.stride) ((x.2.lineBytes + 7) / 8 * 8) (x.2.lineBytes / 256 + 2) 0
    let x := s.pipe p
    let s1 := s.setPipe p { x with queue := x.queue ++ ls.flatMap fun l => (reads l).map fun r => (l.1, y, r),
                                   lines := x.lines ++ ls.map fun l => ⟨l.1, y, (reads l).length, false, false, []⟩ }
    s1.pipeSend p 256

/-- LINE_FETCH. -/
def execLineFetch (p y : Nat) (s : State) : Host.Outcome State Fault Refusal := .next (s.lineFetch p y)

/-- Pipe `p` receives the response of its read `tag`. -/
def State.pipeResponse (s : State) (p tag : Nat) (r : Resp) (data : List Byte) : State :=
  let x := s.pipe p
  match x.reads.find? fun q => q.1 == tag with
  | none => s
  | some (_, l, y, off) =>
    let upd := fun q : LayerLine =>
      if q.layer == l && q.y == y then
        { q with left := q.left - 1, failed := q.failed || r != .ok, parts := q.parts ++ if r = .ok then [(off, data)] else [] }
      else q
    (s.setPipe p { x with reads := x.reads.filter (fun q => q.1 != tag), lines := x.lines.map upd }).pipeSend p 256

/-- PIPE_UNDERRUN (R395): layer `l` has not wholly arrived by the deadline of its line `y`, or a read of it failed. -/
def State.pipeUnderrun (s : State) (p y l : Nat) : State :=
  let x := s.pipe p
  match x.lines.find? fun q => q.layer == l && q.y == y with
  | none => s
  | some q =>
    if (q.left == 0 && !q.failed) || q.late then s
    else
      let mark := fun z : LayerLine => if z.layer == l && z.y == y then { z with late := true } else z
      let s1 := (s.setPipe p { x with lines := x.lines.map mark }).satInc (pipeReg Reg.UNDERRUN_CNT p) 31 0
      let s2 := s1.setBit (pipeReg Reg.PIPE_ERR p) 0 true
      (if q.failed then s2.setBit (pipeReg Reg.PIPE_ERR p) 1 true else s2).fireIf (s.bit (pipeReg Reg.PIPE_CTL p) 5) 42

/-- PIPE_UNDERRUN. -/
def execPipeUnderrun (p y layer : Nat) (s : State) : Host.Outcome State Fault Refusal := .next (s.pipeUnderrun p y layer)

/-! Blender (R380 to R382) -/

/-- The byte at offset `k` of a line. -/
def LayerLine.byte (q : LayerLine) (k : Nat) : Nat :=
  match q.parts.find? fun c => decide (c.1 ≤ k) && decide (k < c.1 + c.2.length) with
  | some c => (c.2.getD (k - c.1) 0).toNat
  | none => 0

/-- A channel of R381, from the sum, as an 8-bit value. -/
def yuvClamp (sum : Int) : Nat := (min 255 (max 0 ((sum + 128) / 256))).toNat

/-- R381: RGB of y, u, v. -/
def yuvRgb (bt709 : Bool) (y u v : Nat) : Nat × Nat × Nat :=
  let y : Int := y - 16
  let u : Int := u - 128
  let v : Int := v - 128
  if bt709 then (yuvClamp (298 * y + 459 * v), yuvClamp (298 * y - 55 * u - 136 * v), yuvClamp (298 * y + 541 * u))
  else (yuvClamp (298 * y + 409 * v), yuvClamp (298 * y - 100 * u - 208 * v), yuvClamp (298 * y + 516 * u))

/-- R, G, B and alpha of pixel `i` of a line of a layer (R380, R381). -/
def layerPixel (x : Layer) (q : LayerLine) (i : Nat) : (Nat × Nat × Nat) × Nat :=
  match x.fmt with
  | 3 =>
    let k := i / 2 * 4
    (yuvRgb x.yuv709 (q.byte (k + 1 + i % 2 * 2)) (q.byte k) (q.byte (k + 2)), 255)
  | 2 =>
    let n := q.byte (2 * i) + 256 * q.byte (2 * i + 1)
    let r := n % 32
    let g := n / 32 % 64
    let b := n / 2048
    ((r * 8 + r / 4, g * 4 + g / 16, b * 8 + b / 4), 255)
  | f => ((q.byte (4 * i), q.byte (4 * i + 1), q.byte (4 * i + 2)), if f = 0 then q.byte (4 * i + 3) else 255)

/-- R382, one channel. -/
def blend (a ga layer c : Nat) : Nat :=
  let a1 := a * (ga + ga / 128) / 256
  let a2 := a1 + a1 / 128
  (a2 * layer + (256 - a2) * c) / 256

/-- The blended value of pixel (x, y) (R382, R395): a layer whose line is not whole is absent. -/
def State.blended (s : State) (p x y : Nat) : Nat × Nat × Nat :=
  let bg := s.reg (Reg.act (pipeReg Reg.PIPE_BG p))
  (s.layers Reg.act p).foldl (fun c l =>
    if l.2.x ≤ x ∧ x < l.2.x + l.2.w then
      match (s.pipe p).lines.find? fun q => q.layer == l.1 && q.y == y && q.left == 0 && !q.failed && !q.late with
      | none => c
      | some q =>
        let v := layerPixel l.2 q (x - l.2.x)
        (blend v.2 l.2.ga v.1.1 c.1, blend v.2 l.2.ga v.1.2.1 c.2.1, blend v.2 l.2.ga v.1.2.2 c.2.2)
    else c) (bitsOf bg 7 0, bitsOf bg 15 8, bitsOf bg 23 16)

/-! The final formatter (R383 to R386) -/

/-- The dither matrix of R384. -/
def ditherT (x y : Nat) : Nat := [0, 8, 2, 10, 12, 4, 14, 6, 3, 11, 1, 9, 15, 7, 13, 5].getD (y % 4 * 4 + x % 4) 0

/-- Panel depth of a BPC code. -/
def depthOf (bpc : Nat) : Nat := 6 + 2 * bpc

/-- One channel (R383, R384): `ch` is its number, `plain` switches gamma and dithering off (R426). -/
def State.fmtChannel (s : State) (p ch c x y : Nat) (plain : Bool) : Nat :=
  let ctl := s.reg (Reg.act (pipeReg Reg.FMT_CTL p))
  let d := depthOf (s.fld (pipeReg Reg.PIPE_CTL p) 3 2)
  let k := 10 - d
  let g := if ctl.getLsbD 0 && !plain then Store.get (fun _ => 0) (s.pipe p).lutAct (256 * ch + c) else 4 * c + c / 64
  if ctl.getLsbD 1 && !plain && decide (0 < k) then min (2 ^ d - 1) ((g + ditherT x y / 2 ^ (4 - k)) / 2 ^ k) else g / 2 ^ k

/-- The bytes of one pixel of depth code `bpc` (R385). -/
def pixelBytes (bpc : Nat) (v : Nat × Nat × Nat) : List Byte :=
  if bpc = 2 then natLe 4 (v.1 + v.2.1 * 2 ^ 10 + v.2.2 * 2 ^ 20)
  else [BitVec.ofNat 8 v.1, BitVec.ofNat 8 v.2.1, BitVec.ofNat 8 v.2.2]

/-- The heartbeat pixel of an armed display (R426). -/
def State.isHeartbeat (s : State) (p x y : Nat) : Bool :=
  s.bit (Reg.DISP_STAT + 0x80 * p) 0 && y == 0 && x == s.fld (Reg.act (Reg.DISP_CFG + 0x80 * p)) 27 16

/-- The formatter's values of pixel (x, y) (R379, R386). -/
def State.formatted (s : State) (p x y : Nat) : Nat × Nat × Nat :=
  let c := s.blended p x y
  let plain := s.isHeartbeat p x y
  (s.fmtChannel p 0 c.1 x y plain, s.fmtChannel p 1 c.2.1 x y plain, s.fmtChannel p 2 c.2.2 x y plain)

/-- The formatter's output bytes of `w` pixels from (x, y) on (R385). -/
def State.fmtRow (s : State) (p x y w : Nat) : List Byte :=
  (List.range w).flatMap fun i => pixelBytes (s.fld (pipeReg Reg.PIPE_CTL p) 3 2) (s.formatted p (x + i) y)

/-! Start of vertical sync, the pipe's side (R24, R387, R390), and the lock (R396, R397) -/

/-- Pipe `p` aligns to MARK frames of the Coupler (R573). -/
def State.markLocked (s : State) (p : Nat) : Bool := s.part.cplRole && s.bit Reg.CPL_SYNC 0 && s.bit Reg.CPL_SYNC (4 + p)

/-- The pipe is locked to something: a camera stream (R396) or the MAIN's vertical sync (R573). -/
def State.lockOn (s : State) (p : Nat) : Bool := s.bit (pipeReg Reg.PIPE_LOCK p) 0 || s.markLocked p

/-- The instant, in picoseconds, with which a start of vertical sync is to coincide: the last FE of the stream that PIPE_LOCK
names plus OFFSET (R396), or the last MARK less CUM (R573). -/
def State.lockRef (s : State) (p : Nat) : Option Int :=
  if s.bit (pipeReg Reg.PIPE_LOCK p) 0 then
    (s.stream (s.fld (pipeReg Reg.PIPE_LOCK p) 3 1) (s.fld (pipeReg Reg.PIPE_LOCK p) 5 4)).lastFe.map fun fe =>
      (fe + s.fld (pipeReg Reg.PIPE_LOCK p) 31 16 * 1000000 : Nat)
  else if s.markLocked p then s.cpl.mark
  else none

/-- TRIM of what the pipe is locked to. -/
def State.lockTrim (s : State) (p : Nat) : Nat :=
  if s.bit (pipeReg Reg.PIPE_LOCK p) 0 then s.fld (pipeReg Reg.PIPE_LOCK p) 15 8 else s.fld Reg.CPL_SYNC 23 16

/-- The error e (R396, R573) of a start of vertical sync at `ps` picoseconds, in units of 1 / (2 PCLK) picoseconds, reduced
to the range from -P/2 to P/2, where P is the frame period. -/
def State.lockError (s : State) (p ps : Nat) (ref : Int) : Int :=
  let k : Int := s.pclk p
  let per : Int := 2 * (s.htotal p * s.vtotal p * 1000000000 : Nat)
  let e : Int := 2 * ((ps : Int) - ref) * k
  if per = 0 then 0 else (e + per / 2) % per - per / 2

/-- LOCK_STAT.ERR: e in whole microseconds, saturated to 16 bits. Which neighbour an e between two of them gives is free. -/
def State.lockMicros (s : State) (p : Nat) (e : Int) : Int :=
  let u : Int := 2 * s.pclk p * 1000000
  let n := e / u
  let n := if e % u ≠ 0 ∧ Config.freeBool s.free 0 then n + 1 else n
  max (-32768) (min 32767 n)

/-- LOCKED changes: source 43, and LOCK_LOST when it falls (R397, R402). -/
def State.setLocked (s : State) (p : Nat) (b : Bool) : State :=
  let r := pipeReg Reg.LOCK_STAT p
  if s.bit r 0 == b then s
  else
    let s1 := s.setBit r 0 b
    (if b then s1 else s1.setBit (pipeReg Reg.PIPE_ERR p) 4 true).fire 43

/-- The measurement at a start of vertical sync at `ps` picoseconds, and the front porch of the next frame (R396, R397). -/
def State.lockMeasure (s : State) (p ps : Nat) : State :=
  let vfp := s.fld (pipeReg Reg.VTIM0 p) 31 16
  let nominal := s.setPipe p { s.pipe p with porch := vfp }
  if !s.lockOn p || s.bit (pipeReg Reg.LOCK_STAT p) 1 then nominal
  else match s.lockRef p with
    | none => nominal
    | some fe =>
      let e := s.lockError p ps fe
      let line : Int := 2 * (s.htotal p * 1000000000 : Nat)
      let trim : Int := s.lockTrim p
      let n := (if e < 0 then -1 else 1) * ((2 * e.natAbs + line) / (2 * line))
      let n := max (-trim) (min n (min trim (vfp - 1)))
      let s1 := (s.setFld (pipeReg Reg.LOCK_STAT p) 31 16 (BitVec.ofInt 16 (s.lockMicros p e)).toNat).useFree
      let good := if (e.natAbs : Int) ≤ line then (s.pipe p).goodFrames + 1 else 0
      let s2 := s1.setPipe p { s1.pipe p with porch := ((vfp : Int) - n).toNat, goodFrames := good }
      if 2 ≤ good then s2.setLocked p true
      else if (e.natAbs : Int) > 2 * line then s2.setLocked p false else s2

/-- The pipe at a start of vertical sync that is no stop: FRAME, ACTIVE, the commit, source 40 and the lock. Lines of the
frame before are gone. -/
def State.pipeVsync (s : State) (p ps : Nat) : State :=
  let st := pipeReg Reg.PIPE_STAT p
  let s1 := ((s.setFld st 31 16 (s.fld st 31 16 + 1)).setFld st 13 0 0).setBit st 14 true
  let s2 := s1.setPipe p { s1.pipe p with mode := .running, queue := [], reads := [], lines := [] }
  let s3 := if s2.pipePend p then s2.pipeTake p else s2
  (s3.fireIf (s3.bit (pipeReg Reg.PIPE_CTL p) 4) 40).lockMeasure p ps

/-- A start of vertical sync can occur: the pipe scans out, or its link has just come up (R391). -/
def State.vsyncDue (s : State) (p : Nat) : Bool :=
  (s.pipe p).mode == .running || ((s.pipe p).mode == .bringup && s.bit (pipeReg Reg.PIPE_STAT p) 15)

/-- A write to PIPE_LOCK (R396, R402): refused for ports 6 and 7, and for EN = 1 with TRIM not below the programmed VFP. -/
def State.pipeLockWrite (s : State) (p : Nat) (v : Word) : State × Resp :=
  if 6 ≤ bitsOf v 3 1 || (v.getLsbD 0 && decide (s.fld (pipeReg Reg.VTIM0 p) 31 16 ≤ bitsOf v 15 8)) then
    (s.pipeRefused p, .denied)
  else (s.codeWrite (pipeReg Reg.PIPE_LOCK p) v, .ok)

/-- PIPE_LOCK_WRITE. -/
def execPipeLockWrite (p : Nat) (v : Word) (s : State) : Host.Outcome State Fault Refusal := .next (s.pipeLockWrite p v).1

/-- LOCK_SRC_LOST (R397, R573): no FE of the named stream, or no MARK, for 50 ms. -/
def State.lockSrcLost (s : State) (p : Nat) : State :=
  if s.lockOn p && !s.bit (pipeReg Reg.LOCK_STAT p) 1 then
    let s1 := ((s.setBit (pipeReg Reg.LOCK_STAT p) 1 true).fire 43).setLocked p false
    s1.setPipe p { s1.pipe p with porch := s1.fld (pipeReg Reg.VTIM0 p) 31 16, goodFrames := 0 }
  else s

/-- LOCK_SRC_LOST. -/
def execLockSrcLost (p : Nat) (s : State) : Host.Outcome State Fault Refusal := .next (s.lockSrcLost p)

/-- The FE of a stream ends SRC_LOST of the pipes locked to it (R397). -/
def State.lockFound (s : State) (n v : Nat) : State :=
  (List.range 4).foldl (fun s p =>
    if s.bit (pipeReg Reg.LOCK_STAT p) 1 && s.bit (pipeReg Reg.PIPE_LOCK p) 0 && s.fld (pipeReg Reg.PIPE_LOCK p) 3 1 == n && s.fld (pipeReg Reg.PIPE_LOCK p) 5 4 == v then
      (s.setBit (pipeReg Reg.LOCK_STAT p) 1 false).fire 43
    else s) s

/-- FRAME_END. -/
def execFrameEnd (n vc ps : Nat) (s : State) : Host.Outcome State Fault Refusal :=
  .next (if s.streamOn n vc then (s.frameEnd n vc ps).lockFound n vc else s)

end Sys2Proof.Machine
end

