-- ==== Sys2Proof/Machine/Interlocking.lean ====
section
/-! DEFINITION. The Interlocking (R404 to R447): tell-tale pairs and the state vector, frame latches, region tables,
reference records, stamps, the checksum, verdicts, certificates, SAFE_N and the event log. -/

namespace Sys2Proof.Machine

/-! The tell-tale state vector (R404 to R411) -/

/-- TT_PCFG of pair `i`. -/
abbrev pcfg (i : Nat) : Nat := Reg.TT_PCFG + 4 * i

/-- Commanded state of entry `i` (R410). -/
def State.ttCommanded (s : State) (i : Nat) : Nat :=
  s.fld (Reg.act (Reg.TT_CMD + 4 * (i / 8))) (4 * (i % 8) + 3) (4 * (i % 8))

def State.pair (s : State) (i : Nat) : Pair := s.il.pairs.getD i ⟨1, 0⟩

def State.setPair (s : State) (i : Nat) (x : Pair) : State := { s with il := { s.il with pairs := listSet s.il.pairs i x } }

/-- The state vector (R404, R405), from the pairs, TT_SRC and the commanded states as the last sample tick left them. -/
def State.ttVector (s : State) : List Nat :=
  (List.range 64).map fun i => s.fld (Reg.TT_STATE + 4 * (i / 8)) (4 * (i % 8) + 3) (4 * (i % 8))

/-- Pair `i` at a sample tick that finds the inputs agreeing with value `a`, or disagreeing (R407, R409). -/
def State.pairTick (s : State) (i : Nat) (a b : Bool) : State :=
  let f := fun hi lo => s.fld (pcfg i) hi lo
  let agreed := if a then f 15 12 else f 19 16
  let x := s.pair i
  let s1 := s.setBit Reg.TT_PSTAT (16 + i) (a != b)
  if s.bit Reg.TT_PSTAT i then
    if s.il.clears.contains i && a == b then
      ((s1.setBit Reg.TT_PSTAT i false).setPair i ⟨agreed, 0⟩).evtAdd 2 0xFF i agreed
    else s1.setPair i ⟨f 23 20, x.cnt⟩
  else if a == b then s1.setPair i ⟨agreed, 0⟩
  else if x.cnt + 1 < f 7 0 then s1.setPair i ⟨x.st, x.cnt + 1⟩
  else (((s1.setBit Reg.TT_PSTAT i true).setPair i ⟨f 23 20, f 7 0⟩).evtAdd 1 0xFF i (f 23 20)).fire 19

/-- A sample tick (R406): `a` and `b` are the levels of TT_A and TT_B. -/
def State.sampleTick (s : State) (a b : Nat) : State :=
  if !s.bit Reg.TO_STAT 2 then s
  else
    let s0 := s.setReg Reg.TT_TICK (s.reg Reg.TT_TICK + 1)
    let s1 := (List.range 16).foldl (fun s i =>
      let inv := s.bit (pcfg i) 9
      s.pairTick i (a.testBit i ^^ inv) (b.testBit i ^^ inv ^^ s.bit (pcfg i) 8)) s0
    let s2 := if s1.il.go then (List.range 8).foldl (fun s k => s.setReg (Reg.act (Reg.TT_CMD + 4 * (k % 8))) (s.reg (Reg.TT_CMD + 4 * (k % 8)))) s1
      else s1
    let s3 := { s2 with il := { s2.il with clears := [], go := false } }
    (List.range 64).foldl (fun s i =>
      let v := if i < 16 ∧ s.bit Reg.TT_SRC i then (s.pair i).st else s.ttCommanded i
      s.setFld (Reg.TT_STATE + 4 * (i / 8 % 8)) (4 * (i % 8) + 3) (4 * (i % 8)) v) s3

/-- SAMPLE_TICK. -/
def execSampleTick (a b : Nat) (s : State) : Host.Outcome State Fault Refusal := .next (s.sampleTick a b)

/-- TT_GO.GO = 1 (R410). -/
def State.ttGo (s : State) : State := { s with il := { s.il with go := true } }

/-- TT_GO_WRITE. -/
def execTtGoWrite (s : State) : Host.Outcome State Fault Refusal := .next s.ttGo

/-- Requests to clear pair faults, judged at the next sample tick (R409). -/
def State.ttClear (s : State) (v : Word) : State :=
  { s with il := { s.il with clears := s.il.clears ++ (List.range 16).filter fun i => v.getLsbD i && s.bit Reg.TT_PSTAT i } }

/-- TT_PSTAT_FAULT_WRITE. -/
def execTtPstatFaultWrite (v : Word) (s : State) : Host.Outcome State Fault Refusal := .next (s.ttClear v)

/-! Frame latches (R412, R413) -/

/-- Capture the latch of a start of vertical sync; five are kept. -/
def State.ilLatch (s : State) (p : Nat) : State :=
  let c := s.chan p
  let l : Latch := ⟨s.fld (pipeReg Reg.PIPE_STAT p) 31 16, s.ttVector, (s.reg Reg.GV_TOTAL).toNat,
    (s.reg (Reg.GV_TOTAL + 4)).toNat, (s.reg (Reg.GV_TOTAL + 8)).toNat, s.fld Reg.GV_VALID 2 0⟩
  s.setChan p { c with hist := (l :: c.hist).take 5 }

/-- The kept latch with number `n`. -/
def Chan.latch (c : Chan) (n : Nat) : Option Latch := c.hist.find? fun l => l.num == n

/-- 32-bit register `k` of a vector, laid out as TT_STATEk (R442). -/
def vecWord (v : List Nat) (k : Nat) : Word :=
  BitVec.ofNat 32 ((List.range 8).foldl (fun n j => n + v.getD (8 * k + j) 0 % 16 * 2 ^ (4 * j)) 0)

/-- A write to LATCH_SEL (R413): one latch is copied into the window; one that does not exist reads as 0 with VALID = 0. -/
def State.latchSel (s : State) (v : Word) : State :=
  let s1 := s.codeWrite Reg.LATCH_SEL v
  let l := (s.chan (bitsOf v 5 4)).hist[bitsOf v 1 0]?
  let x := l.getD ⟨0, [], 0, 0, 0, 0⟩
  let s2 := s1.setReg Reg.LATCH_NUM (BitVec.ofNat 32 ((if l.isSome then 2 ^ 16 else 0) + x.num % 2 ^ 16))
  let s3 := (List.range 8).foldl (fun s k => s.setReg (Reg.LATCH_TT + 4 * (k % 8)) (vecWord x.vec k)) s2
  (((s3.setReg Reg.LATCH_TOTAL (BitVec.ofNat 32 x.total)).setReg Reg.LATCH_TRIP1 (BitVec.ofNat 32 x.trip1)).setReg
    Reg.LATCH_TRIP2 (BitVec.ofNat 32 x.trip2)).setReg Reg.LATCH_GV (BitVec.ofNat 32 x.valid)

/-- LATCH_SEL_WRITE. -/
def execLatchSelWrite (v : Word) (s : State) : Host.Outcome State Fault Refusal := .next (s.latchSel v)

/-! Reference records and the Semaphore store (R417, R418, R421) -/

/-- The 32-bit field at offset `off` of record `n`, read through the Interlocking's own port (R305), and whether its word is
uncorrectable. -/
def State.refWord (s : State) (n off : Nat) : State × Nat × Bool :=
  let r := s.secPort (0x2000 + 32 * n + off / 8)
  (r.1, natBits r.2.1.toNat (8 * (off % 8) + 31) (8 * (off % 8)), r.2.2)

/-- Bytes of the Semaphore store. -/
def State.semBytes (s : State) (off n : Nat) : List Byte :=
  (List.range n).map fun i => Store.get (fun _ => 0) s.il.store (off + i)

/-- A little-endian number of the Semaphore store. -/
def State.semNat (s : State) (off n : Nat) : Nat := leNat (s.semBytes off n)

/-- LENGTH of the Semaphore store. -/
def State.semLength (s : State) : Nat := s.semNat 8 4

/-- Bytes of a pixel of depth code `bpc` (R385, R417). -/
def bpcBytes (bpc : Nat) : Nat := if bpc = 2 then 4 else 3

/-- A glyph set (R421). -/
structure GlyphSet where
  w : Nat
  h : Nat
  bpc : Nat
  yph : Nat
  valid : Bool
  off : Nat
  deriving DecidableEq, Repr

/-- Glyph set `g`: one whose glyphs reach past LENGTH is not valid (R421). -/
def State.glyphSet (s : State) (g : Nat) : GlyphSet :=
  let n := s.semNat (0x10 + 16 * g) 16
  let w := natBits n 15 0
  let h := natBits n 31 16
  let bpc := natBits n 33 32
  let off := natBits n 95 64
  ⟨w, h, bpc, natBits n 41 40, n.testBit 48 && decide (off + 11 * w * h * bpcBytes bpc ≤ s.semLength), off⟩

/-- Fields of NUM (R423). -/
def numNdig (n : Nat) : Nat := natBits n 3 0
def numDigLo (n : Nat) : Nat := natBits n 6 4
def numSrc (n : Nat) : Nat := natBits n 9 8
def numGset (n : Nat) : Nat := natBits n 11 10
def numMindig (n : Nat) : Nat := natBits n 15 12
def numLzb (n : Nat) : Bool := n.testBit 16

/-- The glyph index of each cell, left to right (R424). -/
def glyphCells (num : Nat) (l : Latch) : List Nat :=
  let val := match numSrc num with | 0 => l.total | 1 => l.trip1 | _ => l.trip2
  let d := fun k => natBits val (4 * k + 3) (4 * k)
  let bad := !l.valid.testBit (numSrc num) || (List.range 8).any fun k => decide (9 < d k)
  let top := numDigLo num + numNdig num - 1
  (List.range (numNdig num)).map fun c =>
    let p := top - c
    if bad then 10
    else if numLzb num && decide (numDigLo num + numMindig num ≤ p) &&
        (List.range (top + 1 - p)).all fun i => d (p + i) == 0 then 10
    else d p

/-- The geometry and header of record `n` for slot `r` with vector entry `tt`: the region, VALID, and whether a word read
was uncorrectable (R414, R417). -/
def State.readRegion (s : State) (r n tt : Nat) : State × Region × Bool × Bool :=
  let h := s.refWord n 0
  let ps := h.1.refWord n 4
  let sz := ps.1.refWord n 8
  let nm := sz.1.refWord n 0x90
  (nm.1, ⟨r, n, h.2.1.testBit 1, natBits h.2.1 3 2, natBits ps.2.1 15 0, natBits ps.2.1 31 16, natBits sz.2.1 15 0,
    natBits sz.2.1 31 16, nm.2.1, tt⟩, h.2.1.testBit 0, h.2.2 || ps.2.2 || sz.2.2 || nm.2.2)

/-- A numeric record meets R423. -/
def State.numericOk (s : State) (g : Region) : Bool :=
  let gs := s.glyphSet (numGset g.num)
  decide (1 ≤ numNdig g.num) && decide (numNdig g.num ≤ 8) && decide (numSrc g.num < 3) && decide (1 ≤ numMindig g.num) &&
  decide (numMindig g.num ≤ numNdig g.num) && gs.valid && gs.bpc == g.bpc && gs.w % 4 == 0 && g.x % 4 == 0 &&
  g.y % 4 == gs.yph && g.w == numNdig g.num * gs.w && g.h == gs.h && decide (numNdig g.num + numDigLo g.num ≤ 8) &&
  decide (1 ≤ g.y)

/-! Region commits (R414, R415) -/

/-- REGp_r. -/
abbrev regSlot (p r : Nat) : Nat := Reg.REG + 256 * (p % 4) + 4 * (r % 64)

/-- Display block register of pipe `p`. -/
abbrev dispReg (r p : Nat) : Nat := r + 0x80 * (p % 4)

/-- Bit `r` of a pair of LO and HI registers. -/
def State.slotBit (s : State) (reg p r : Nat) : Bool := s.bit (dispReg reg p + 4 * (r / 32 % 2)) (r % 32)

def State.setSlotBit (s : State) (reg p r : Nat) (b : Bool) : State := s.setBit (dispReg reg p + 4 * (r / 32 % 2)) (r % 32) b

/-- Some bit of a pair of LO and HI registers is 1. -/
def State.anySlot (s : State) (reg p : Nat) : Bool := s.reg (dispReg reg p) != 0 || s.reg (dispReg reg p + 4) != 0

/-- The enabled slots of the pending table, read from their records: region, VALID, uncorrectable. -/
def State.readTable (s : State) (p : Nat) : State × List (Region × Bool × Bool) :=
  (List.range 64).foldl (fun a r =>
    let w := a.1.reg (regSlot p r)
    if w.getLsbD 31 then
      let g := a.1.readRegion r (bitsOf w 7 0) (bitsOf w 13 8)
      (g.1, a.2 ++ [g.2])
    else a) (s, [])

/-- Two rectangles share a pixel. -/
def Region.meets (a b : Region) : Bool :=
  decide (a.x < b.x + b.w) && decide (b.x < a.x + a.w) && decide (a.y < b.y + b.h) && decide (b.y < a.y + a.h)

/-- The pending table breaks a rule of R415. -/
def State.tableBad (s : State) (p : Nat) (t : List (Region × Bool × Bool)) : Bool :=
  let gs := t.map Prod.fst
  let hb := s.fld (dispReg Reg.DISP_CFG p) 27 16
  t.any (fun x => !x.2.1 || x.2.2) ||
  gs.any (fun g => g.w == 0 || g.h == 0 || decide (s.hact p < g.x + g.w) || decide (s.vact p < g.y + g.h) ||
    g.bpc != s.fld (pipeReg Reg.PIPE_CTL p) 3 2 || (g.y == 0 && decide (g.x ≤ hb) && decide (hb < g.x + g.w)) ||
    (g.numeric && !s.numericOk g) || gs.any (fun b => b.slot != g.slot && g.meets b) ||
    decide (4096 < (gs.filter fun b => decide (b.y ≤ g.y) && decide (g.y < b.y + b.h)).foldl
      (fun n b => n + b.w * bpcBytes b.bpc) 0)) ||
  (List.range 64).any fun r => s.slotBit Reg.FAULT p r && !s.bit (regSlot p r) 31

/-- PEND of the display's region commit. -/
def State.regionPend (s : State) (p : Nat) : Bool := s.bit (dispReg Reg.DISP_RCOMMIT p) 2

def State.setRegionPend (s : State) (p : Nat) (b : Bool) : State :=
  (s.setBit (dispReg Reg.DISP_RCOMMIT p) 2 b).setBit (dispReg Reg.DISP_RCOMMIT p) 0 b

/-- A write of DISPp_RCOMMIT.COMMIT = 1 (R414, R415). -/
def State.regionCommit (s : State) (p : Nat) : State × Resp :=
  if s.regionPend p then (s, .ok)
  else
    let t := s.readTable p
    if t.1.tableBad p t.2 then ((t.1.setBit (dispReg Reg.DISP_STAT p) 3 true).fire 23, .denied)
    else (t.1.setRegionPend p true, .ok)

/-- RCOMMIT_WRITE. -/
def execRcommitWrite (p : Nat) (s : State) : Host.Outcome State Fault Refusal := .next (s.regionCommit p).1

/-- A write of DISPp_RCOMMIT.CANCEL = 1 (R388, R414). -/
def State.regionCancel (s : State) (p : Nat) : State := s.setRegionPend p false

/-- RCOMMIT_CANCEL. -/
def execRcommitCancel (p : Nat) (s : State) : Host.Outcome State Fault Refusal := .next (s.regionCancel p)

/-- A write to REGp_r (R414): DENIED while PEND = 1. -/
def State.regionWrite (s : State) (p a : Nat) (v : Word) : State × Resp :=
  if s.regionPend p then (s, .denied) else (s.codeWrite a v, .ok)

/-- The region commit is taken (R414). -/
def State.regionTake (s : State) (p : Nat) : State :=
  let t := s.readTable p
  ((t.1.setChan p { t.1.chan p with active := t.2.map Prod.fst }).setRegionPend p false).fire 22

/-! Stamps (R418, R425, R434) -/

/-- The stamp of a region for a latch, where one exists. -/
def State.stampFor (s : State) (g : Region) (l : Latch) : State × Option Stamp :=
  if g.numeric then
    (s, if (s.glyphSet (numGset g.num)).valid then some (.glyphs (numGset g.num) (glyphCells g.num l)) else none)
  else
    let d := s.refWord g.record (0x50 + 4 * l.vec.getD g.tt 0)
    let off := natBits d.2.1 29 0
    (d.1,
      if d.2.2 || !d.2.1.testBit 31 then none
      else if d.2.1.testBit 30 then some (.fill off)
      else if off + g.w * g.h * bpcBytes g.bpc ≤ s.semLength then some (.bitmap off) else none)

/-- Row `j` of a stamp over a region. -/
def State.stampRow (s : State) (g : Region) (st : Stamp) (j : Nat) : List Byte :=
  let b := bpcBytes g.bpc
  match st with
  | .bitmap off => s.semBytes (off + j * g.w * b) (g.w * b)
  | .fill px => (List.replicate g.w (if g.bpc = 2 then natLe 4 (px % 2 ^ 30) else natLe 3 px)).flatten
  | .glyphs gset idx =>
    let gs := s.glyphSet gset
    idx.flatMap fun k => s.semBytes (gs.off + (k * gs.h + j) * gs.w * b) (gs.w * b)

/-! The checksum (R422) -/

/-- One bit of the reflected CRC. -/
def crcBit (c : Nat) : Nat := if c % 2 = 1 then (c / 2) ^^^ 0xEDB88320 else c / 2

/-- One byte. -/
def crcByte (c : Nat) (b : Byte) : Nat := (List.range 8).foldl (fun c _ => crcBit c) (c ^^^ b.toNat)

/-- CRC-32 of R422. -/
def crc32 (l : List Byte) : Nat := l.foldl crcByte 0xFFFFFFFF ^^^ 0xFFFFFFFF

/-! Heartbeat (R426 to R429) -/

/-- The code of the heartbeat pixel: L mod 64, where it is accepted (R427). -/
def State.heartbeatCode (s : State) (p : Nat) : Option Nat :=
  let v := s.formatted p (s.fld (Reg.act (dispReg Reg.DISP_CFG p)) 27 16) 0
  let k := 2 ^ (depthOf (s.fld (pipeReg Reg.PIPE_CTL p) 3 2) - 6)
  if v.2.2 / k = 0x2A ∧ v.2.1 / k + v.1 / k = 63 then some (v.1 / k) else none

/-- L of the frame in progress: the kept latch among F - 1 to F - 4 that the code names (R428). -/
def State.resolveL (s : State) (p f : Nat) : Option Nat :=
  match s.heartbeatCode p with
  | none => none
  | some c => ((List.range 4).map fun i => (f + 65535 - i) % 65536).find? fun n => n % 64 == c && ((s.chan p).latch n).isSome

/-- The persistence of a display, as sampled (R416, R445). -/
def State.persist (s : State) (p : Nat) : Nat := s.fld (Reg.act (dispReg Reg.DISP_CFG p)) 3 2

/-- The heartbeat counter reaches PERSIST + 1: FROZEN (R429). -/
def State.frozen (s : State) (p : Nat) : State :=
  if s.bit (dispReg Reg.DISP_STAT p) 1 then s
  else
    let s1 := (((s.setBit (dispReg Reg.DISP_STAT p) 1 true).evtAdd 5 p s.freeByte 0xFF).useFree).fire 18
    if s.bit (Reg.act (dispReg Reg.DISP_CFG p)) 4 then s1.safeSet 3 else s1

/-- HEARTBEAT_VERDICT (R428, R429). -/
def State.heartbeatVerdict (s : State) (p : Nat) : State :=
  let c := s.chan p
  match c.frame with
  | none => s
  | some f =>
    if !f.armed || f.hbDone then s
    else
      let l := s.resolveL p f.num
      let near := match l with
        | some n => n == (f.num + 65535) % 65536 || n == (f.num + 65534) % 65536
        | none => false
      let pass := near && l != c.lastL
      let s1 := (s.setChan p { c with frame := some { f with l := l, hbPass := pass, hbDone := true },
                                      hbCnt := if pass then 0 else c.hbCnt + 1 }).setBit (dispReg Reg.DISP_STAT p) 2 pass
      if !pass && decide (s.persist p + 1 ≤ c.hbCnt + 1) then s1.frozen p else s1

/-- HEARTBEAT_VERDICT. -/
def execHeartbeatVerdict (p : Nat) (s : State) : Host.Outcome State Fault Refusal := .next (s.heartbeatVerdict p)

/-- An INIT 6 write of 1 to FROZEN (R429). -/
def State.frozenWrite (s : State) (p : Nat) : State :=
  if s.bit (dispReg Reg.DISP_STAT p) 2 then s.setBit (dispReg Reg.DISP_STAT p) 1 false else s

/-- FROZEN_WRITE. -/
def execFrozenWrite (p : Nat) (s : State) : Host.Outcome State Fault Refusal := .next (s.frozenWrite p)

/-! Slots (R431, R434 to R436) -/

def State.slot (s : State) (p r : Nat) : Slot := (s.chan p).slots.getD r ⟨.normal, 0, false⟩

def State.setSlot (s : State) (p r : Nat) (x : Slot) : State :=
  s.setChan p { s.chan p with slots := listSet (s.chan p).slots r x }

/-- The state involved in an event of a region (R443): that of a tell-tale region's entry in the latch; a free value other
than 0xFF where the spec names none. -/
def State.eventDetail (s : State) (g : Region) (l : Option Latch) : Nat :=
  match l with
  | some x => if g.numeric then s.freeByte % 255 else x.vec.getD g.tt 0
  | none => s.freeByte % 255

/-- The fault of slot `r` falls (R431, R434). -/
def State.slotFault (s : State) (p r detail : Nat) : State :=
  let s1 := (((s.setSlotBit Reg.FAULT p r true).evtAdd 3 p r detail).useFree).fire 16
  s1.setSlot p r { s1.slot p r with due := true }

/-- Slot `r` enters FAILED (R434). -/
def State.slotFail (s : State) (p r detail : Nat) : State :=
  let s1 := ((((s.setSlotBit Reg.FAILED p r true).evtAdd 4 p r detail).useFree).fire 17).safeSet 2
  s1.setSlot p r { s1.slot p r with mode := .failed, due := false }

/-- Slot `r` returns to NORMAL (R436). -/
def State.slotNormal (s : State) (p r : Nat) : State :=
  ((((s.setSlot p r ⟨.normal, 0, false⟩).setSlotBit Reg.STAMP p r false).setSlotBit Reg.FAILED p r false).setSlotBit
    Reg.SHADOW p r false).evtAdd 3 p r 0xFF

/-- An enabled slot at a start of vertical sync at which the channel is armed, with latch `l` of the frame that begins
(R429, R434, R436). -/
def State.slotVsync (s : State) (p : Nat) (l : Latch) (g : Region) : State :=
  let r := g.slot
  let s0 := if s.bit (dispReg Reg.DISP_STAT p) 1 && (s.slot p r).mode == .normal && !(s.slot p r).due && !s.slotBit Reg.FAULT p r
    then s.slotFault p r (s.eventDetail g (some l)) else s
  let x := s0.slot p r
  if !s0.slotBit Reg.FAULT p r then s0
  else
    let st := s0.stampFor g l
    match st.2 with
    | none => if x.due || x.mode == .stamped then st.1.slotFail p r (s0.eventDetail g (some l)) else st.1
    | some _ => if x.due then st.1.setSlot p r { x with mode := .stamped, due := false } else st.1

/-- Every slot at a start of vertical sync at which the channel is armed. -/
def State.slotsVsync (s : State) (p : Nat) (l : Latch) : State :=
  let cleared := (List.range 64).filter fun r =>
    !s.slotBit Reg.FAULT p r && ((s.slot p r).mode != .normal || (s.slot p r).due)
  let s1 := cleared.foldl (fun s r => s.slotNormal p r) s
  (s1.chan p).active.foldl (fun s g => if cleared.contains g.slot then s else s.slotVsync p l g) s1

/-- The stamps that the frame shows: of every slot that is not in NORMAL, for the state in its latch (R434). -/
def State.frameStamps (s : State) (p : Nat) (l : Latch) : State × List (Nat × Stamp) :=
  (s.chan p).active.foldl (fun a g =>
    if (a.1.slot p g.slot).mode = .normal then a
    else
      let st := a.1.stampFor g l
      match st.2 with
      | some x => (st.1, a.2 ++ [(g.slot, x)])
      | none => (st.1, a.2)) (s, [])

/-! Verdicts (R430, R431, R435) -/

/-- Whether `bytes` match what a region must show for a latch, and whether a record read failed (R430). -/
def State.judge (s : State) (g : Region) (l : Option Latch) (bytes : List Byte) : State × Bool × Bool :=
  match l with
  | none => (s, false, false)
  | some x =>
    let h := s.refWord g.record 0
    if h.2.2 || !h.2.1.testBit 0 then (h.1, false, true)
    else if g.numeric then
      let want := (List.range g.h).flatMap fun j => h.1.stampRow g (.glyphs (numGset g.num) (glyphCells g.num x)) j
      (h.1, crc32 bytes == crc32 want, false)
    else
      let st := x.vec.getD g.tt 0
      if natBits h.2.1 7 4 < st then (h.1, false, false)
      else
        let c := h.1.refWord g.record (0x10 + 4 * st)
        if c.2.2 then (c.1, false, true) else (c.1, crc32 bytes == c.2.1, false)

/-- The formatter's bytes of a region, before the Semaphore plane (R422). -/
def State.arrayBytes (s : State) (p : Nat) (g : Region) : List Byte :=
  (List.range g.h).flatMap fun j => s.fmtRow p g.x (g.y + j) g.w

/-- The bytes of a region after the Semaphore plane (R422). -/
def State.glassBytes (s : State) (p : Nat) (g : Region) (st : Option Stamp) : List Byte :=
  match st with
  | some x => (List.range g.h).flatMap fun j => s.stampRow g x j
  | none => s.arrayBytes p g

/-- REGION_VERDICT (R430, R431, R434, R435). -/
def State.regionVerdict (s : State) (p r : Nat) : State :=
  let c := s.chan p
  match c.frame, c.active.find? fun g => g.slot == r with
  | some f, some g =>
    if !f.armed || f.judged.contains r then s
    else
      let latL := (s.resolveL p f.num).bind c.latch
      let x := s.slot p r
      let stamp := (f.stamps.find? fun q => q.1 == r).map Prod.snd
      let lat := if x.mode = .normal then latL else c.latch f.num
      let j := s.judge g lat (s.glassBytes p g stamp)
      let s1 := j.1.fireIf j.2.2 24
      let ps := if j.2.1 then r :: f.passes else f.passes
      let fr := { f with judged := r :: f.judged, passes := ps }
      let s2 := s1.setChan p { s1.chan p with frame := some fr }
      match x.mode with
      | .normal =>
        if j.2.1 then s2.setSlot p r { x with cnt := 0 }
        else if x.due then s2
        else
          let s3 := s2.setSlot p r { x with cnt := x.cnt + 1 }
          if s.persist p + 1 ≤ x.cnt + 1 then s3.slotFault p r (s.eventDetail g lat) else s3
      | m =>
        let sh := s2.judge g latL (s.arrayBytes p g)
        let s3 := sh.1.setSlotBit Reg.SHADOW p r sh.2.1
        if m = .stamped ∧ !j.2.1 then s3.slotFail p r (s.eventDetail g lat) else s3
  | _, _ => s

/-- REGION_VERDICT. -/
def execRegionVerdict (p r : Nat) (s : State) : Host.Outcome State Fault Refusal := .next (s.regionVerdict p r)

/-- FAULT bits that INIT 6 clears (R436). -/
def State.faultWrite (s : State) (p hi : Nat) (v : Word) : State :=
  let r := dispReg Reg.FAULT p + 4 * (hi % 2)
  s.setReg r (s.reg r &&& ~~~v)

/-- FAULT_WRITE. -/
def execFaultWrite (p hi : Nat) (v : Word) (s : State) : Host.Outcome State Fault Refusal := .next (s.faultWrite p hi v)

/-! Certificates (R432) -/

/-- A 32-slot half of a list of slots as a register. -/
def slotMask (l : List Nat) (hi : Nat) : Nat :=
  (List.range 32).foldl (fun n j => if l.contains (32 * hi + j) then n + 2 ^ j else n) 0

/-- The certificate of the frame that ends is published (R432). -/
def State.publish (s : State) (p : Nat) : State :=
  match (s.chan p).frame with
  | none => s
  | some f =>
    let en := (s.chan p).active.map Region.slot
    let flag := fun (b : Bool) k => if b then 2 ^ k else 0
    let lnum := f.l.getD ((Config.freeWord s.free 2).toNat % 65536)
    let w := [f.num * 65536 + lnum, slotMask en 0, slotMask en 1, slotMask f.passes 0, slotMask f.passes 1,
      flag (f.stamps != []) 4 + flag (s.bit Reg.SAFE_STAT 31) 3 + flag f.l.isSome 2 + flag f.hbPass 1 + flag f.armed 0]
    let s1 := (List.range 6).foldl (fun s i => s.setReg (dispReg Reg.CERT_FRAME p + 4 * (i % 6)) (BitVec.ofNat 32 (w.getD i 0))) s.useFree
    (s1.setReg (dispReg Reg.CERT_CRC p) (BitVec.ofNat 32 (crc32 (w.flatMap (natLe 4))))).fireIf
      (s.bit (Reg.act (dispReg Reg.DISP_CFG p)) 5) 21

/-! Start of vertical sync, the channel's side -/

/-- The known-answer test of a vertical blanking interval found a difference (R438). -/
def State.katFailed (s : State) (p : Nat) : State := (((s.safeSet 4).evtAdd 8 p s.freeByte 0xFF).useFree).fire 25

/-- The channel at a start of vertical sync that is no stop, after the pipe (R412, R414, R416, R432, R434, R438). -/
def State.ilVsync (s : State) (p : Nat) (katFail : Bool) : State :=
  let s1 := (s.publish p).ilLatch p
  let s2 := if s1.regionPend p then s1.regionTake p else s1
  let s3 := (s2.ilSample p).setBit (dispReg Reg.DISP_STAT p) 4 false
  let s4 := if katFail then s3.katFailed p else s3
  let armed := s4.bit (dispReg Reg.DISP_STAT p) 0
  let num := s4.fld (pipeReg Reg.PIPE_STAT p) 31 16
  match (s4.chan p).hist with
  | [] => s4
  | l :: _ =>
    let s5 := if armed then s4.slotsVsync p l else s4
    let st := if armed then s5.frameStamps p l else (s5, [])
    let c := st.1.chan p
    let prev := c.frame.bind fun f => if f.armed then f.l else none
    let fr : Frame := ⟨num, armed, st.2, none, false, false, [], []⟩
    let s6 := st.1.setChan p { c with lastL := prev, frame := some fr }
    (List.range 64).foldl (fun s r => s.setSlotBit Reg.STAMP p r (st.2.any fun q => q.1 == r)) s6

/-- PIPE_STOPPED (R437). -/
def State.pipeStopped (s : State) (p : Nat) : State :=
  if s.bit (dispReg Reg.DISP_STAT p) 0 then (s.setBit (dispReg Reg.DISP_STAT p) 4 true).safeSet 5 else s

/-- PIPE_STOPPED. -/
def execPipeStopped (p : Nat) (s : State) : Host.Outcome State Fault Refusal := .next (s.pipeStopped p)

/-! SAFE_N and the event log (R437, R443) -/

/-- The causes whose condition no longer holds (R437). -/
def State.safeCleared (s : State) : List Nat :=
  let ps := List.range 4
  let armed := fun p => s.bit (dispReg Reg.DISP_STAT p) 0
  [0] ++
  (if ps.any fun p => (List.range 64).any fun r => (s.slot p r).mode == .failed then [] else [2]) ++
  (if ps.any fun p => s.bit (dispReg Reg.DISP_STAT p) 1 then [] else [3]) ++
  (if ps.all fun p => !armed p || s.bit (pipeReg Reg.PIPE_STAT p) 14 then [5] else []) ++
  (if ps.all fun p => !armed p || s.bit (pipeReg Reg.PIPE_STAT p) 15 then [6] else [])

/-- SAFE_CTL_CLR. -/
def execSafeCtlClr (s : State) : Host.Outcome State Fault Refusal := .next (s.safeClear s.safeCleared)

/-- A write of SAFE_CTL.FORCE (R437). -/
def State.safeForce (s : State) (on : Bool) : State :=
  let s1 := s.setBit Reg.SAFE_CTL 1 on
  if on then s1.safeSet 1 else s1.safeClear [1]

/-- SAFE_CTL_FORCE. -/
def execSafeCtlForce (on : Bool) (s : State) : Host.Outcome State Fault Refusal := .next (s.safeForce on)

/-- A write to EVT_STAT (R443): ACK removes the oldest entries, OVF is W1C. -/
def State.evtAck (s : State) (v : Word) : State :=
  let n := min (bitsOf v 20 16) (s.fld Reg.EVT_STAT 12 8)
  let s1 := (s.setFld Reg.EVT_STAT 12 8 (s.fld Reg.EVT_STAT 12 8 - n)).setFld Reg.EVT_STAT 3 0 ((s.fld Reg.EVT_STAT 3 0 + n) % 16)
  if v.getLsbD 31 then s1.setBit Reg.EVT_STAT 31 false else s1

/-- EVT_STAT_ACK. -/
def execEvtStatAck (v : Word) (s : State) : Host.Outcome State Fault Refusal := .next (s.evtAck v)

/-- A write to DISPp_CFG (R416): INIT 0 may not disarm a display with a fault. -/
def State.dispCfgWrite (s : State) (ini p : Nat) (v : Word) : State × Resp :=
  if ini = 0 ∧ !v.getLsbD 0 ∧ (s.anySlot Reg.FAULT p || s.bit (dispReg Reg.DISP_STAT p) 1) then (s, .denied)
  else (s.codeWrite (dispReg Reg.DISP_CFG p) v, .ok)

/-- DISP_CFG_WRITE. -/
def execDispCfgWrite (ini p : Nat) (v : Word) (s : State) : Host.Outcome State Fault Refusal :=
  .next (s.dispCfgWrite ini p v).1

/-! Who may write (R440) -/

/-- A write of INIT 0 or INIT 6 to the Interlocking block, at key `a`. -/
def State.ilWrite (s : State) (ini a : Nat) (v : Word) : State × Resp :=
  let p := (a - 0x3200) / 0x80
  let o := (a - 0x3200) % 0x80
  if 0x3400 ≤ a then if ini = 0 ∨ ini = 6 then s.regionWrite ((a - 0x3400) / 256) a v else (s, .denied)
  else if 0x3200 ≤ a then
    if o = 0 then if ini = 0 ∨ ini = 6 then s.dispCfgWrite ini p v else (s, .denied)
    else if o = 4 then
      if ini = 0 ∨ ini = 6 then
        let s1 := if v.getLsbD 3 then s.setBit a 3 false else s
        if !v.getLsbD 1 then (s1, .ok)
        else if ini = 6 then (s1.frozenWrite p, .ok) else (s1, .denied)
      else (s, .denied)
    else if o = 8 then
      if ini = 0 ∨ ini = 6 then
        let s1 := if v.getLsbD 1 then s.regionCancel p else s
        if v.getLsbD 0 then s1.regionCommit p else (s1, .ok)
      else (s, .denied)
    else if (o = 0x28 ∨ o = 0x2C) ∧ ini = 6 then (s.faultWrite p ((o - 0x28) / 4) v, .ok)
    else (s, .denied)
  else if a = Reg.LATCH_SEL then if ini = 0 then (s.latchSel v, .ok) else (s, .denied)
  else if ini ≠ 6 then (s, .denied)
  else if a = Reg.SAFE_CTL then
    let s1 := s.safeForce (v.getLsbD 1)
    (if v.getLsbD 0 then s1.safeClear s1.safeCleared else s1, .ok)
  else if a = Reg.TT_GO then (if v.getLsbD 0 then s.ttGo else s, .ok)
  else if a = Reg.TT_PSTAT then (s.ttClear v, .ok)
  else if a = Reg.EVT_STAT then (s.evtAck v, .ok)
  else if 0x3040 ≤ a ∧ a < 0x3080 then if bitsOf v 7 0 = 0 then (s, .denied) else (s.codeWrite a v, .ok)
  else if a = Reg.TT_SRC ∨ (0x3010 ≤ a ∧ a < 0x3030) then (s.codeWrite a v, .ok)
  else (s, .denied)

end Sys2Proof.Machine
end

