-- ==== Sys2Proof/Machine/ControlStore.lean ====
section
/-! DEFINITION. The control store, the decode table and customer microcode (chapter 06). A microword command acts on the
customer routine in progress; where none is in progress, or it waits, nothing happens. -/

namespace Sys2Proof.Machine

/-! Storage (R249 to R252, R270, R274) -/

/-- The decode entries of ROM (R251): VALID for the opcodes and modes that R106 and R210 define. -/
def romDefined (idx : Nat) : Bool :=
  let opc := idx / 4
  let imm := idx % 4 == 3
  if opc = 0x02 then !imm
  else if opc = 0x03 ∨ opc = 0x10 ∨ opc = 0x15 then imm
  else decide (opc ≤ 0x18) || (decide (0x20 ≤ opc) && decide (opc ≤ 0x2D)) || (decide (0x30 ≤ opc) && decide (opc ≤ 0x37))

/-- What an entry holds that was not written: its ROM value, and 0 for a customer entry. -/
def decDefault (idx : Nat) : Word :=
  if idx < 0xE0 ∧ romDefined idx then 1#1 ++ 0#17 ++ Config.romStart idx else 0

/-- Decode entry `idx`. -/
def State.decEntry (s : State) (idx : Nat) : Word := Store.get decDefault s.cs.dec idx

/-- The entry is defined (R250). An entry of ROM that no patch replaced is judged without its START. -/
def State.decValid (s : State) (idx : Nat) : Bool :=
  match s.cs.dec.find? fun e => e.1 == idx with
  | some e => e.2.getLsbD 31
  | none => decide (idx < 0xE0) && romDefined idx

/-- The microword at a microaddress (R249). -/
def State.csWord (s : State) (a : Nat) : Word :=
  if a < 0x3000 then Config.romWord a else Store.get (fun _ => 0) s.cs.ram a

/-- CS_WADDR advances (R274). -/
def csNext (a : Nat) : Nat := if a = 0x3FFF then 0x3800 else if a = 0x37FF then 0x3000 else (a + 1) % 0x4000

/-- A read of CS_WDATA (R274). -/
def State.csRead (s : State) : State × Word :=
  let a := s.fld Reg.CS_WADDR 13 0
  (s.setFld Reg.CS_WADDR 13 0 (csNext a), if s.bit Reg.CS_CTL 0 && decide (a < 0x3800) then 0 else s.csWord a)

/-- A write of CS_WDATA (R274): DENIED for ROM, and for patch RAM while LOCK = 1. -/
def State.csWrite (s : State) (v : Word) : State × Resp :=
  let a := s.fld Reg.CS_WADDR 13 0
  if decide (a < 0x3000) || (s.bit Reg.CS_CTL 0 && decide (a < 0x3800)) then (s, .denied)
  else
    ({ s with cs := { s.cs with ram := Store.set (fun _ => 0) s.cs.ram a v } }.setFld Reg.CS_WADDR 13 0 (csNext a), .ok)

/-- CS_WDATA_ACCESS. -/
def execCsWdataAccess (write : Bool) (v : Word) (s : State) : Host.Outcome State Fault Refusal :=
  .next (if write then (s.csWrite v).1 else s.csRead.1)

/-- A write of DEC_ENTRY to the entry DEC_IDX names (R252, R275). -/
def State.decWrite (s : State) (v : Word) : State × Resp :=
  let i := s.fld Reg.DEC_IDX 7 0
  let start := bitsOf v 13 0
  if (decide (i < 0xE0) && s.bit Reg.CS_CTL 0) || (decide (0xE0 ≤ i) && decide (start < 0x3800)) then (s, .denied)
  else
    ({ s with cs := { s.cs with dec := Store.set decDefault s.cs.dec i (v &&& 0x80003FFF) } }, .ok)

/-- DEC_ENTRY_WRITE. -/
def execDecEntryWrite (v : Word) (s : State) : Host.Outcome State Fault Refusal := .next (s.decWrite v).1

/-! The routine in progress (R253 to R261) -/

/-- Record an event of customer microcode (R261, R273). -/
def State.csErr (s : State) (reason maddr : Nat) : State :=
  s.record Reg.CS_ERR fun s => (s.setFld Reg.CS_ERR 18 16 reason).setFld Reg.CS_ERR 13 0 maddr

/-- A trap inside a customer routine: what its earlier microwords did stays, and the routine is over (R266). -/
def State.microTrap (s : State) (cause addr : Nat) (r : Resp) : State :=
  let s1 := s.trap cause addr 0 r false s.here
  ({ s1 with disp := { s1.disp with micro := none, wait := .none } }).boundary

/-- UNDEF with its reason (R261). -/
def State.microUndef (s : State) (m : Micro) (reason : Nat) : State :=
  (s.csErr reason m.upc).microTrap 2 s.here.toNat .ok

/-- The watchdog trap, before the 256th microword executes (R267). -/
def State.watchdog (s : State) (m : Micro) : State :=
  let s1 := s.csErr 6 m.upc
  ({ s1 with disp := { s1.disp with micro := some { m with wdog := 256 } } }).microTrap 0x0D s.here.toNat .ok

/-- Read micro-register `c` (R256). -/
def State.microGet (s : State) (m : Micro) (c : Nat) : Word :=
  match c with
  | 0x0 => s.disp.acc
  | 0x1 => s.disp.ixa.setWidth 32
  | 0x2 => s.disp.ixb.setWidth 32
  | 0x3 => m.ea.setWidth 32
  | 0x4 => m.imm
  | 0x5 => m.iw
  | 0x6 => 0
  | 0x7 => BitVec.ofNat 32 (bitsOf s.disp.psw 3 0)
  | _ => m.t.getD (c - 8) 0

/-- Put the routine. -/
def State.setMicro (s : State) (m : Micro) : State := { s with disp := { s.disp with micro := some m } }

/-- Write micro-register `c`; a write to a read-only code is discarded (R256). -/
def State.microSet (s : State) (m : Micro) (c : Nat) (v : Word) : State :=
  match c with
  | 0x0 => (s.setAcc v).setMicro m
  | 0x1 => ({ s with disp := { s.disp with ixa := v.extractLsb' 0 16 } }).setMicro m
  | 0x2 => ({ s with disp := { s.disp with ixb := v.extractLsb' 0 16 } }).setMicro m
  | 0x7 => ({ s with disp := { s.disp with psw := putBits s.disp.psw 3 0 (bitsOf v 3 0) } }).setMicro m
  | _ => if 8 ≤ c then s.setMicro { m with t := listSet m.t (c - 8) v } else s.setMicro m

/-- A microaddress lies in customer RAM. -/
def inCustomer (a : Nat) : Bool := decide (0x3800 ≤ a) && decide (a ≤ 0x3FFF)

/-- Execute one microword of the routine in progress: the watchdog first, then `f`, which gets the routine with the
microword counted (R267). -/
def State.microGo (s : State) (f : State → Micro → State) : State :=
  match s.disp.micro with
  | none => s
  | some m =>
    if s.disp.halted || decide (s.disp.wait ≠ .none) then s
    else if m.wdog ≥ 255 then s.watchdog m
    else f s { m with wdog := m.wdog + 1 }

/-- Execute a microword whose next one is at `next`, which must lie in customer RAM (R259). -/
def State.microNext (s : State) (m : Micro) (next : Nat) (f : State → Micro → State) : State :=
  if inCustomer next then f s { m with upc := next } else s.microUndef m 2

/-- MALU and MALUI (R257). -/
def State.microAlu (s : State) (m : Micro) (d : Nat) (a b : Word) (op : Nat) (f : Bool) : State :=
  let g := s.flags
  let zn := fun r : Word => (r, flagsZN g r)
  if op ≥ 0xC then s.microUndef m 1
  else
    let r : Word × Flags := match op with
      | 0x0 => addFlags a b false
      | 0x1 => subFlags a b true
      | 0x2 => zn (a &&& b)
      | 0x3 => zn (a ||| b)
      | 0x4 => zn (a ^^^ b)
      | 0x5 => zn (a &&& ~~~b)
      | 0x6 => shiftFlags 0 a (b.toNat % 32) g
      | 0x7 => shiftFlags 1 a (b.toNat % 32) g
      | 0x8 => shiftFlags 2 a (b.toNat % 32) g
      | 0x9 => zn (if a.toNat ≤ b.toNat then a else b)
      | 0xA => zn (if a.toNat ≤ b.toNat then b else a)
      | _ => zn b
    s.microNext m (m.upc + 1) fun s m =>
      let s1 := s.microSet m d r.1
      if f then s1.setFlags r.2 else s1

/-- Bytes by SZ (R258). -/
def microBytes (sz : Nat) : Nat := match sz with | 0 => 4 | 1 => 2 | 2 => 1 | _ => 8

/-- The address of MRD and MWR (R258). -/
def State.microAddr (s : State) (m : Micro) (a : Nat) (off : BitVec 16) : Nat :=
  s.bankSeen.toNat * 0x10000 + ((s.microGet m a).toNat + off.toNat) % 0x10000

/-- 64-bit data need T0, T2, T4 or T6 (R258). -/
def pairOk (sz r : Nat) : Bool := sz != 3 || (decide (8 ≤ r) && r % 2 == 0)

/-- MRD (R258): a request, and the wait for it. -/
def State.mrd (s : State) (d a sz : Nat) (off : BitVec 16) : State :=
  s.microGo fun s m =>
    let ad := s.microAddr m a off
    if !pairOk sz d then s.microUndef m 7
    else if misaligned true ad (microBytes sz) then (s.setMicro m).microTrap 4 ad .ok
    else s.microNext m (m.upc + 1) fun s m =>
      ((s.setMicro m).sendReq false false ad (microBytes sz) [] 0).waitFor (.micro d sz)

/-- The response to an MRD (R258): its value, or BUSERR. -/
def State.microLoaded (s : State) (d sz addr : Nat) (r : Resp) (bytes : List Byte) : State :=
  match s.disp.micro with
  | none => s
  | some m =>
    let s1 := s.waitFor .none
    if r ≠ .ok then s1.microTrap 6 addr r
    else
      let v := leNat bytes
      let s2 := s1.microSet m d (BitVec.ofNat 32 v)
      if sz = 3 then
        match s2.disp.micro with
        | some m2 => s2.microSet m2 (d + 1) (BitVec.ofNat 32 (v / 2 ^ 32))
        | none => s2
      else s2

/-- MWR (R258): posted, with no store-pair buffer. -/
def State.mwr (s : State) (g a sz : Nat) (off : BitVec 16) : State :=
  s.microGo fun s m =>
    let ad := s.microAddr m a off
    let n := microBytes sz
    if !pairOk sz g then s.microUndef m 7
    else if misaligned false ad n then (s.setMicro m).microTrap 4 ad .ok
    else if s.postedFull then s.waitFor (.microPosted g a sz off)
    else s.microNext m (m.upc + 1) fun s m =>
      let v : Word64 := if sz = 3 then s.microGet m (g + 1) ++ s.microGet m g
        else BitVec.ofNat 64 ((s.microGet m g).toNat % 2 ^ (8 * n))
      (s.setMicro m).postStore ad n v

/-- MBR (R255, R259). -/
def State.mbr (s : State) (mc tgt : Nat) : State :=
  s.microGo fun s m => s.microNext m (if s.cond mc then tgt else m.upc + 1) fun s m => s.setMicro m

/-- MCALL (R255, R260). -/
def State.mcall (s : State) (tgt : Nat) : State :=
  s.microGo fun s m =>
    if m.stack.length ≥ 8 then s.microUndef m 3
    else s.microNext m tgt fun s m2 => s.setMicro { m2 with stack := (m.upc + 1) :: m.stack }

/-- MRET (R254, R260, R263): return within the routine, or the end of the instruction. -/
def State.mret (s : State) (fin : Bool) : State :=
  s.microGo fun s m =>
    if fin then
      let s1 := ({ s with disp := { s.disp with micro := none } }).endInstr 4 noLate
      if m.snapTaken then s1.startHold else s1
    else match m.stack with
      | [] => s.microUndef m 4
      | a :: t => s.microNext m a fun s m => s.setMicro { m with stack := t }

/-- MLOOP (R255, R256). -/
def State.mloop (s : State) (d tgt : Nat) : State :=
  s.microGo fun s m =>
    if !(decide (8 ≤ d) && decide (d < 16)) then s.microUndef m 7
    else
      let v := s.microGet m d - 1
      s.microNext m (if v = 0 then m.upc + 1 else tgt) fun s m => s.microSet m d v

/-- BSI (R262): the checks of the whole burst, then its bit-steps. -/
def State.bsi (s : State) (r inc : Nat) : State :=
  s.microGo fun s m =>
    let n := (s.microGet m r).toNat % 2 ^ 11
    let d0 := descOf (BitVec.ofNat 64 (m.template.toNat * 2 ^ 30))
    let last := fun (base bit : Nat) => base + (if inc.testBit bit then n - 1 else 0)
    let used := [(m.ra, last m.ra 0)] ++ (if d0.sy = 0 then [(m.rb, last m.rb 1)] else []) ++
      (if d0.we then [(m.wa, last m.wa 2)] else [])
    if n > 1024 then s.microUndef m 5
    else if n ≠ 0 ∧ used.any (fun x => decide (1008 ≤ x.2) && decide (x.1 ≤ 1023)) then
      (s.setMicro m).microTrap 3 s.here.toNat .ok
    else if n ≠ 0 ∧ used.any (fun x => decide (1023 < x.2)) then (s.setMicro m).microTrap 5 s.here.toNat .ok
    else s.microNext m (m.upc + 1) fun s m =>
      let adv := fun (base bit i : Nat) => (base + (if inc.testBit bit then i else 0)) % 1024
      let s1 := if m.stepped || n == 0 then s else s.latchEdges
      let s2 := (List.range n).foldl (fun s i =>
        s.bitStep { d0 with ra := adv m.ra 0 i, rb := adv m.rb 1 i, wa := adv m.wa 2 i }) s1
      s2.setMicro { m with ra := adv m.ra 0 n, rb := adv m.rb 1 n, wa := adv m.wa 2 n,
                           snapTaken := m.snapTaken || (d0.snap && n != 0), stepped := m.stepped || n != 0 }

/-- POLL (R264, R267): an interrupt that R225 allows suspends the array and is entered with ASUSP = 1 and ASTEP = 0; without
one, only the watchdog restarts. -/
def State.poll (s : State) : State :=
  s.microGo fun s m =>
    if s.psw 8 && s.icRequest && decide (s.disp.rs.length < 15) && !s.arr.suspended then
      let s1 := (s.suspendSeq).setMicro { m with wdog := 0 }
      let psw := putBits (putBits s1.disp.psw 10 10 1) 28 16 0
      let s2 := ({ s1 with disp := { s1.disp with psw := psw } }).interrupt s.here
      { s2 with disp := { s2.disp with micro := none } }
    else s.microNext m (m.upc + 1) fun s m => s.setMicro { m with wdog := 0 }

/-- CUSTOMER_INSTRUCTION (R248, R250, R253): the decode, and the routine begins. T0 to T7 are unspecified. -/
def State.customer (s : State) (opc : Nat) (o : SOp) : State :=
  if !s.canIssue then s
  else
    let s1 := s.begin.discardPair
    let i := 4 * opc + o.mode
    if !(decide (0x38 ≤ opc) && decide (opc ≤ 0x3F) && s1.decValid i) then s1.trapHere 2 s1.here.toNat 0 .ok
    else if !s1.cond o.cond then s1.endInstr 4 noLate
    else
      let iw : Word := BitVec.ofNat 32 (o.cond * 2 ^ 28 + opc * 2 ^ 22 + o.mode * 2 ^ 20 + o.sub * 2 ^ 16 + o.addr)
      let ea : BitVec 16 := BitVec.ofNat 16 (if o.mode = 3 then o.addr else s1.operandOff o)
      let t := (List.range 8).map fun k => Config.freeWord s1.free k
      (s1.useFree).setMicro ⟨bitsOf (s1.decEntry i) 13 0, [], t, 0, 0, 0, 0, ea, (BitVec.ofNat 16 o.addr).signExtend 32, iw,
        0, false, false⟩

/-! Meanings of the rows -/

/-- CUSTOMER_INSTRUCTION. -/
def execCustomerInstruction (opc : Nat) (o : SOp) (s : State) : Host.Outcome State Fault Refusal := .next (s.customer opc o)
/-- MNOP. -/
def execMnop (s : State) : Host.Outcome State Fault Refusal :=
  .next (s.microGo fun s m => s.microNext m (m.upc + 1) fun s m => s.setMicro m)
/-- MALU (R257). -/
def execMalu (d a b op : Nat) (f : Bool) (s : State) : Host.Outcome State Fault Refusal :=
  .next (s.microGo fun s m => s.microAlu m d (s.microGet m a) (s.microGet m b) op f)
/-- MALUI (R255, R257): IMM14 sign-extended for ADD and SUB, zero-extended otherwise. -/
def execMalui (d a op : Nat) (f : Bool) (imm : BitVec 14) (s : State) : Host.Outcome State Fault Refusal :=
  .next (s.microGo fun s m => s.microAlu m d (s.microGet m a) (if op ≤ 1 then imm.signExtend 32 else imm.setWidth 32) op f)
/-- MLUI. -/
def execMlui (d : Nat) (imm : BitVec 16) (s : State) : Host.Outcome State Fault Refusal :=
  .next (s.microGo fun s m => s.microNext m (m.upc + 1) fun s m => s.microSet m d (imm ++ (s.microGet m d).extractLsb' 0 16))
/-- MRD (R258). -/
def execMrd (d a sz : Nat) (off : BitVec 16) (s : State) : Host.Outcome State Fault Refusal := .next (s.mrd d a sz off)
/-- MWR (R258). -/
def execMwr (r a sz : Nat) (off : BitVec 16) (s : State) : Host.Outcome State Fault Refusal := .next (s.mwr r a sz off)
/-- MBR (R259). -/
def execMbr (mc tgt : Nat) (s : State) : Host.Outcome State Fault Refusal := .next (s.mbr mc tgt)
/-- MCALL (R260). -/
def execMcall (tgt : Nat) (s : State) : Host.Outcome State Fault Refusal := .next (s.mcall tgt)
/-- MRET (R254, R260). -/
def execMret (fin : Bool) (s : State) : Host.Outcome State Fault Refusal := .next (s.mret fin)
/-- MLOOP. -/
def execMloop (d tgt : Nat) (s : State) : Host.Outcome State Fault Refusal := .next (s.mloop d tgt)
/-- POLL (R264). -/
def execPoll (s : State) : Host.Outcome State Fault Refusal := .next s.poll
/-- BSD (R262). -/
def execBsd (r : Nat) (s : State) : Host.Outcome State Fault Refusal :=
  .next (s.microGo fun s m => s.microNext m (m.upc + 1) fun s m =>
    s.setMicro { m with template := (s.microGet m r).extractLsb' 0 25 })
/-- BSA (R262). -/
def execBsa (r : Nat) (s : State) : Host.Outcome State Fault Refusal :=
  .next (s.microGo fun s m => s.microNext m (m.upc + 1) fun s m =>
    let v := s.microGet m r
    s.setMicro { m with ra := bitsOf v 9 0, rb := bitsOf v 19 10, wa := bitsOf v 29 20 })
/-- BSI (R262). -/
def execBsi (r inc : Nat) (s : State) : Host.Outcome State Fault Refusal := .next (s.bsi r inc)
/-- BSW (R255): bit-steps complete as they are issued here, so only the next microword follows. -/
def execBsw (s : State) : Host.Outcome State Fault Refusal :=
  .next (s.microGo fun s m => s.microNext m (m.upc + 1) fun s m => s.setMicro m)
/-- WATCHDOG (R267): the trap before the 256th microword. -/
def execWatchdog (s : State) : Host.Outcome State Fault Refusal :=
  .next (match s.disp.micro with
    | some m => if m.wdog ≥ 255 then s.watchdog m else s
    | none => s)

end Sys2Proof.Machine
end

