-- ==== Sys2Proof/Machine/TicketOffice.lean ====
section
/-! DEFINITION. The Ticket office and the interrupt controller (chapter 11): mailboxes, doorbells, aborts, posts, timeouts,
arbitration of commands, the error record, and the effects of writes to the interrupt controller. -/

namespace Sys2Proof.Machine

/-! Mailboxes (R459 to R467) -/

/-- A register of mailbox `m` (R481). -/
abbrev mbReg (r m : Nat) : Nat := r + 0x100 * (m % 8)

/-- MBm_STAT.STATE: 0 IDLE, 1 QUEUED, 2 RUNNING, 3 DONE (R461). -/
def State.mbState (s : State) (m : Nat) : Nat := s.fld (mbReg Reg.MB_STAT m) 1 0

def State.mbOpcode (s : State) (m : Nat) : Nat := s.fld (mbReg Reg.CMD0 m) 31 24
def State.mbSeq (s : State) (m : Nat) : Nat := s.fld (mbReg Reg.CMD0 m) 23 16
def State.mbLength (s : State) (m : Nat) : Nat := s.fld (mbReg Reg.CMD0 m) 15 0

/-- Parameter word `w` of mailbox `m`. -/
def State.param (s : State) (m w : Nat) : Word := s.reg (mbReg Reg.CMD0 m + 4 * w)

/-- The abort bit of mailbox `m`. -/
def State.mbAborted (s : State) (m : Nat) : Bool := s.bit (mbReg Reg.MB_STAT m) 3

/-- Mailbox `m` waits no longer for Stationmaster. -/
def State.mbUnqueue (s : State) (m : Nat) : State := { s with tkt := { s.tkt with queue := s.tkt.queue.filter (· != m) } }

/-- Response word `w` of mailbox `m`. -/
def State.setRsp (s : State) (m w : Nat) (v : Word) : State := s.setReg (mbReg Reg.RSP0 m + 4 * (w % 16)) v

/-- The command of mailbox `m` completes: response word with ABORT_LATE under R463, state DONE, source 8 + m. -/
def State.mbDone (s : State) (m status retry len : Nat) : State :=
  let late := s.mbAborted m && status != 3
  let v := status % 256 * 2 ^ 24 + s.fld (mbReg Reg.MB_STAT m) 15 8 * 2 ^ 16 + (if late then 2 ^ 15 else 0) +
    retry % 128 * 2 ^ 8 + len % 256
  (((s.mbUnqueue m).setRsp m 0 (BitVec.ofNat 32 v)).setFld (mbReg Reg.MB_STAT m) 1 0 3).fire (8 + m)

/-- A response with a reason word (R494): `code` and the number of the parameter word at fault. -/
def State.mbReason (s : State) (m status retry code word : Nat) : State :=
  (s.setRsp m 1 (BitVec.ofNat 32 (code * 2 ^ 16 + word * 2 ^ 8))).mbDone m status retry 4

/-- The masters of R469: 0 the host, 1 the safety MCU, 2 the Coupler peer. -/
def mbMaster (m : Nat) : Nat := if m < 2 then 0 else m - 1

/-- The domain of an opcode and the master that prevails in it (R469). -/
def opDomain (op : Nat) : Option (Nat × Nat) :=
  if op = 0x20 ∨ op = 0x21 then some (0, 1)
  else if op = 0x22 then some (1, 1)
  else if op = 0x72 then some (2, 1)
  else if op = 0x02 then some (3, 0)
  else if [0x10, 0x11, 0x12, 0x41].contains op then some (4, 0)
  else if [0x30, 0x31, 0xA0, 0xA1].contains op then some (5, 0)
  else if op = 0x40 then some (6, 0)
  else if 0x50 ≤ op ∧ op ≤ 0x54 then some (7, 0)
  else if op = 0x70 ∨ op = 0x71 then some (8, 0)
  else if op = 0x90 ∨ op = 0x91 then some (9, 0)
  else none

/-- How far a master is from prevailing where `best` prevails: the Coupler peer prevails over nobody. -/
def mbRank (best m : Nat) : Nat := if m = best then 0 else if m < 2 then 1 else 2

/-- The command of mailbox `m` loses to one of the mailboxes `rivals`, whose doorbells, neither ignored nor duplicates, are
rung in the same cycle (R469). -/
def State.mbLoses (s : State) (m : Nat) (rivals : List Nat) : Bool :=
  match opDomain (s.mbOpcode m) with
  | none => false
  | some (d, best) => rivals.any fun r =>
      (opDomain (s.mbOpcode r)).map Prod.fst == some d && decide (mbRank best (mbMaster r) < mbRank best (mbMaster m))

/-- The place of mailbox `m` among doorbells of one cycle (R465). -/
def mbOrder (m : Nat) : Nat := [1, 2, 0, 3].getD m 3

/-- Queue mailbox `m`: last, but before the mailboxes of the same cycle that R465 takes later. -/
def queueIn (q : List Nat) (m : Nat) (rivals : List Nat) : List Nat :=
  let later := (q.reverse.takeWhile fun r => rivals.contains r && decide (mbOrder m < mbOrder r)).length
  q.take (q.length - later) ++ m :: q.drop (q.length - later)

/-- What the acceptance of a POWER command does in hardware (R491, R496, R614): outside Run the exit starts if it asks for Run;
during a transition it becomes the latched request, in place of one queued in the other host mailbox. -/
def State.pwrDoorbell (s : State) (m : Nat) : State :=
  if s.mbOpcode m ≠ 2 ∨ 1 < m then s
  else match s.pwr.phase with
    | .stable => if bitsOf (s.param m 1) 2 0 = 0 then s.pwrToRun else s
    | .starting => s
    | _ =>
      let o := 1 - m
      let s1 := if s.mbState o = 1 ∧ s.mbOpcode o = 2 then s.mbReason o 3 0 0x13 0 else s
      s1.pwrLatch (bitsOf (s.param m 1) 2 0)

/-- A doorbell of mailbox `m` (R462). -/
def State.doorbell (s : State) (m : Nat) (rivals : List Nat) : State :=
  let st := s.mbState m
  let seq := s.mbSeq m
  let stat := mbReg Reg.MB_STAT m
  if st = 1 ∨ st = 2 then if seq = s.fld stat 15 8 then s else s.setBit stat 6 true
  else if st = 3 ∧ seq = s.fld stat 15 8 then s.setBit stat 7 true
  else
    let s1 := ((s.setFld stat 15 8 seq).setBit stat 3 false).setRsp m 0 (BitVec.ofNat 32 (2 ^ 24 + seq * 2 ^ 16))
    let op := s.mbOpcode m
    let len := s.mbLength m
    if s.mbLoses m rivals then ((s1.satInc Reg.TO_COLL_CNT 31 0).fire 13).mbDone m 7 0 0
    else if 60 < len ∨ len % 4 ≠ 0 then s1.mbReason m 4 0 2 0
    else if (op = 0x21 ∨ op = 0x72) ∧ m ≠ 2 then s1.mbReason m 5 0 5 0
    else if op = 0x21 then if 4 ≤ len ∧ len ≤ 32 then s1.setFld stat 1 0 2 else s1.mbReason m 4 0 2 0
    else if !s.bit Reg.TO_STAT 0 then s1.mbReason m 2 10 0x17 0
    else
      (({ s1 with tkt := { s1.tkt with queue := queueIn s1.tkt.queue m rivals } }.setFld stat 1 0 1).fire m).pwrDoorbell m

/-- MB_DOORBELL. -/
def execMbDoorbell (m : Nat) (rivals : List Nat) (s : State) : Host.Outcome State Fault Refusal := .next (s.doorbell m rivals)

/-- A TELLTALE_STATE that the Ticket office performs is in progress (R411). -/
def State.ttRunning (s : State) : Bool := s.mbState 2 == 2 && s.mbOpcode 2 == 0x21

/-- An abort of mailbox `m` (R411, R466). -/
def State.mbAbort (s : State) (m : Nat) : State :=
  let stat := mbReg Reg.MB_STAT m
  match s.mbState m with
  | 0 => s
  | 1 => (s.setBit stat 3 true).mbDone m 3 0 0
  | 2 => if s.mbAborted m then s else (s.setBit stat 3 true).fireIf (!(m == 2 && s.ttRunning)) (4 + m)
  | _ => if s.mbAborted m then s else (s.setBit stat 3 true).setBit (mbReg Reg.RSP0 m) 15 true

/-- MB_ABORT. -/
def execMbAbort (m : Nat) (s : State) : Host.Outcome State Fault Refusal := .next (s.mbAbort m)

/-- A write of `v` to RSPm_0 by INIT 0 (R463). -/
def State.post (s : State) (m : Nat) (v : Word) : State × Resp :=
  let st := s.mbState m
  if (st = 1 ∨ st = 2) ∧ bitsOf v 23 16 = s.fld (mbReg Reg.MB_STAT m) 15 8 then
    if bitsOf v 31 24 = 1 then
      ((s.setRsp m 0 (putBits v 15 15 0)).mbUnqueue m |>.setFld (mbReg Reg.MB_STAT m) 1 0 2, .ok)
    else (s.mbDone m (bitsOf v 31 24) (bitsOf v 14 8) (bitsOf v 7 0), .ok)
  else (s, .denied)

/-- RESPONSE_POST. -/
def execResponsePost (m : Nat) (v : Word) (s : State) : Host.Outcome State Fault Refusal := .next (s.post m v).1

/-- MB_TIMEOUT (R464). -/
def State.mbTimeout (s : State) (m : Nat) : State :=
  if s.mbState m = 1 ∨ s.mbState m = 2 then (s.fire 15).mbDone m 6 0 0 else s

/-- MB_TIMEOUT. -/
def execMbTimeout (m : Nat) (s : State) : Host.Outcome State Fault Refusal := .next (s.mbTimeout m)

/-- TELLTALE_STATE in hardware (R411, R503): the words go to TT_CMD0 onward under INIT 6, then TT_GO, then DONE. -/
def State.telltaleState (s : State) : State :=
  if s.ttRunning then
    let s1 := (List.range (s.mbLength 2 / 4)).foldl (fun s k => s.setReg (Reg.TT_CMD + 4 * (k % 8)) (s.param 2 (k + 1))) s
    s1.ttGo.mbDone 2 0 0 0
  else s

/-- TELLTALE_STATE. -/
def execTelltaleState (s : State) : Host.Outcome State Fault Refusal := .next s.telltaleState

/-! The error record (R450, R470, R483) -/

/-- An event of TO_ERR_STAT: kind, response, initiator and offset. COLLIDED raises source 13 and is counted as a collision,
every other kind source 12. -/
def State.toError (s : State) (kind : Nat) (r : Resp) (ini off : Nat) : State :=
  let s1 := (s.satInc Reg.TO_ERR_CNT 31 0).record Reg.TO_ERR_STAT fun s =>
    (((s.setFld Reg.TO_ERR_STAT 29 27 kind).setFld Reg.TO_ERR_STAT 26 24 (respCode r)).setFld Reg.TO_ERR_STAT 23 19 ini).setReg
      Reg.TO_ERR_ADDR (BitVec.ofNat 32 off)
  if kind = 2 then (s1.satInc Reg.TO_COLL_CNT 31 0).fire 13 else s1.fire 12

/-! The interrupt controller (R474 to R479) -/

/-- Apply `f` to the numbers of the bits of `v` that are 1, from bit 0 up. -/
def State.eachBit (s : State) (v : Word) (f : State → Nat → State) : State :=
  (List.range 32).foldl (fun s b => if v.getLsbD b then f s b else s) s

/-- A write to IC_PENDk (R474). -/
def State.icPend (s : State) (k : Nat) (v : Word) : State := s.eachBit v fun s b => s.fire (32 * k + b)

/-- IC_PEND_WRITE. -/
def execIcPendWrite (k : Nat) (v : Word) (s : State) : Host.Outcome State Fault Refusal := .next (s.icPend k v)

/-- A write to IC_UNPENDk (R476). -/
def State.icUnpend (s : State) (k : Nat) (v : Word) : State :=
  s.setReg (icReg Reg.IC_PEND (32 * k)) (s.reg (icReg Reg.IC_PEND (32 * k)) &&& ~~~v)

/-- IC_UNPEND_WRITE. -/
def execIcUnpendWrite (k : Nat) (v : Word) (s : State) : Host.Outcome State Fault Refusal := .next (s.icUnpend k v)

/-- A write of `n` to IC_ACK (R475). -/
def State.icAck (s : State) (n : Nat) : State :=
  let n := n % 128
  if s.bit (icReg Reg.IC_PEND n) (n % 32) && !s.bit (icReg Reg.IC_ACTIVE n) (n % 32) then
    (s.setBit (icReg Reg.IC_PEND n) (n % 32) false).setBit (icReg Reg.IC_ACTIVE n) (n % 32) true
  else s.setBit Reg.IC_ERR 0 true

/-- IC_ACK. -/
def execIcAck (n : Nat) (s : State) : Host.Outcome State Fault Refusal := .next (s.icAck n)

/-- A write of `n` to IC_EOI (R475). -/
def State.icEoi (s : State) (n : Nat) : State :=
  let n := n % 128
  if s.bit (icReg Reg.IC_ACTIVE n) (n % 32) then s.setBit (icReg Reg.IC_ACTIVE n) (n % 32) false else s.setBit Reg.IC_ERR 1 true

/-- IC_EOI. -/
def execIcEoi (n : Nat) (s : State) : Host.Outcome State Fault Refusal := .next (s.icEoi n)

/-- A write of `v` to IC_HEOI (R478). -/
def State.icHeoi (s : State) (v : Nat) : State :=
  let v := v % 64
  if s.bit (vecReg Reg.IC_HINSVC v) (v % 32) then (s.setBit (vecReg Reg.IC_HINSVC v) (v % 32) false).vecUpdate v
  else s.setBit Reg.IC_ERR 2 true

/-- IC_HEOI. -/
def execIcHeoi (v : Nat) (s : State) : Host.Outcome State Fault Refusal := .next (s.icHeoi v)

/-- A write to doubleword `dw` of the MSI-X table (R479): unmasking may send a message. -/
def State.msixWrite (s : State) (dw : Nat) (v : Word) : State :=
  if dw < 256 then (s.codeWrite (Reg.MSIX_TABLE + 4 * (dw % 256)) v).vecUpdate (dw / 4) else s

/-- MSIX_TABLE_WRITE. -/
def execMsixTableWrite (dw : Nat) (v : Word) (s : State) : Host.Outcome State Fault Refusal := .next (s.msixWrite dw v)

/-- CONFIGURATION_REQUEST (R471, R479): retried until CFG_READY; a write then sets the function's enables. -/
def State.configRequest (s : State) (write memEn busMaster msixEn funcMask : Bool) : State :=
  if !s.bit Reg.TO_STAT 1 then s.emit .configRetry
  else if write then { s with pcie := ⟨memEn, busMaster, msixEn, funcMask⟩ }.vecUpdateAll
  else s

/-- CONFIGURATION_REQUEST. -/
def execConfigurationRequest (write memEn busMaster msixEn funcMask : Bool) (s : State) : Host.Outcome State Fault Refusal :=
  .next (s.configRequest write memEn busMaster msixEn funcMask)

/-- A write to the interrupt controller block (R484), at a key that names a register. -/
def State.icWrite (s : State) (ini a : Nat) (v : Word) : State × Resp :=
  let host := a < 0x1010 ∨ (0x1050 ≤ a ∧ a < 0x1060) ∨ a = Reg.IC_HEOI ∨ (0x1100 ≤ a ∧ a < 0x1C00)
  if ¬(ini = 0 ∨ (ini = 5 ∧ host)) then (s, .denied)
  else if a < 0x1010 then (s.icPend ((a - 0x1000) / 4) v, .ok)
  else if a < 0x1020 then (s.icUnpend ((a - 0x1010) / 4) v, .ok)
  else if a = Reg.IC_ACK then (s.icAck (bitsOf v 6 0), .ok)
  else if a = Reg.IC_EOI then (s.icEoi (bitsOf v 6 0), .ok)
  else if a = Reg.IC_HEOI then (s.icHeoi (bitsOf v 5 0), .ok)
  else if 0x1800 ≤ a ∧ a < 0x1C00 then (s.msixWrite ((a - 0x1800) / 4) v, .ok)
  else ((s.codeWrite a v).vecUpdateAll, .ok)

/-- IC_TOP as it reads (R476). -/
def State.icTopWord (s : State) : Word :=
  match s.icTop with
  | some n => BitVec.ofNat 32 (2 ^ 31 + n)
  | none => 0

/-! Writes to the Ticket office block (R448, R459, R463, R482, R483) -/

/-- The initiator owns mailbox `m` (R448). MB3's owner is the peer at port 0 of a PARTNER, INIT 19, and at port 1 of a
MAIN, INIT 20 (R572). -/
def State.mbOwner (s : State) (m ini : Nat) : Bool :=
  if m < 2 then ini == 5 else if m = 2 then ini == 6 else ini == (if s.part.cplRole then 19 else 20)

/-- A write to the Ticket office block at a key that names a register. `rings` are the mailboxes rung in the same cycle. -/
def State.toWrite (s : State) (ini a : Nat) (v : Word) (rings : List Nat) : State × Resp :=
  if a < 0x400 then
    let m := a / 0x100
    let o := a % 0x100
    let st := s.mbState m
    if o < 0x40 then if s.mbOwner m ini && (st == 0 || st == 3) then (s.codeWrite a v, .ok) else (s, .denied)
    else if o = 0x40 then if ini = 0 then s.post m v else (s, .denied)
    else if o < 0x80 then if ini = 0 ∧ (st = 1 ∨ st = 2) then (s.codeWrite a v, .ok) else (s, .denied)
    else if o = 0x80 then if s.mbOwner m ini then (if v.getLsbD 0 then s.doorbell m rings else s, .ok) else (s, .denied)
    else if o = 0x84 then if s.mbOwner m ini then (if v.getLsbD 0 then s.mbAbort m else s, .ok) else (s, .denied)
    else if o = 0x8C then if ini = 0 ∧ bitsOf v 15 0 ≠ 0 then (s.codeWrite a v, .ok) else (s, .denied)
    else (s.codeWrite a v, .ok)
  else if a = Reg.TO_STAT then if ini = 0 then (s.codeWrite a v, .ok) else (s, .denied)
  else (s.codeWrite a v, .ok)

end Sys2Proof.Machine
end

