-- ==== Sys2Proof/Machine/GuardsVan.lean ====
section
/-! DEFINITION. The Guard's van (R524 to R552): counting, discrepancy, records, the seal, the event log, messages, and the
bridge to the main device. -/

namespace Sys2Proof.Machine

/-! Numbers -/

/-- 8 BCD digits of a count modulo 10^8 (R530). -/
def bcd8 (n : Nat) : Nat := (List.range 8).foldl (fun a i => a + n / 10 ^ i % 10 * 16 ^ i) 0

/-- The number that 8 BCD digits stand for. -/
def unBcd (b : Nat) : Nat := (List.range 8).foldl (fun a i => a + b / 16 ^ i % 16 * 10 ^ i) 0

/-- Saturation at ±32,767 (R533, R541). -/
def sat16 (d : Int) : Int := max (-32767) (min 32767 d)

/-- A signed value in 16 bits, two's complement. -/
def twos16 (d : Int) : Nat := (BitVec.ofInt 16 d).toNat

/-- The prime of P-256 and the coefficient b of its curve (FIPS 186-4). -/
def p256 : Nat := 0xFFFFFFFF00000001000000000000000000000000FFFFFFFFFFFFFFFFFFFFFFFF
def p256b : Nat := 0x5AC635D8AA3A93E7B3EBBD55769886BC651D06B0CC53B0F63BCE3C3E27D2604B

/-- A number from big-endian bytes. -/
def beNat (l : List Byte) : Nat := leNat l.reverse

/-- The point (x, y) lies on P-256 (R540). -/
def onCurve (x y : Nat) : Bool :=
  decide (x < p256) && decide (y < p256) && y * y % p256 == (x * x * x + (p256 - 3) * x + p256b) % p256

/-! The event log (R541) -/

/-- Permanent entries. -/
def Van.perm (v : Van) : Nat := v.log.countP fun e => e.2.perm

/-- The slot of the ordinary entry of lowest SEQ. -/
def Van.oldest (v : Van) : Nat :=
  (v.log.foldl (fun b e => if e.2.perm then b else
    match b with
    | none => some e
    | some o => if e.2.seq < o.2.seq then some e else b) none).map Prod.fst |>.getD 0

/-- The slot a new entry takes: a free one, which of them is open, or else that of the oldest ordinary entry. -/
def State.vanSlot (s : State) : Nat :=
  let free := (List.range 256).filter fun i => !s.van.log.any fun e => e.1 == i
  if free = [] then s.van.oldest else free.getD ((Config.freeWord s.free 3).toNat % free.length) 0

/-- Log an event. -/
def State.vanLog (s : State) (code : Nat) (perm : Bool) (detail value : Nat) : State :=
  let v := s.van
  let slot := s.vanSlot
  let e : VanEntry := ⟨v.seq, if v.st.timeValid then v.st.time else 0xFFFFFFFF, code, perm, detail % 2 ^ 16, value % 2 ^ 32⟩
  let log := Store.put (Store.drop v.log slot) slot e
  { s with van := { v with log := log, seq := (v.seq + 1) % 2 ^ 32, dirty := v.dirty ++ [slot] }, free := s.free + 1 }

/-- The words of a slot; 0 for a free one (R541, R544). -/
def Van.slotWords (v : Van) (i : Nat) : List Word :=
  match v.log.find? fun e => e.1 == i with
  | none => [0, 0, 0, 0]
  | some (_, e) => [BitVec.ofNat 32 e.seq, e.time,
      BitVec.ofNat 32 (e.code * 2 ^ 24 + (if e.perm then 2 ^ 23 else 0) + e.detail), BitVec.ofNat 32 e.value]

/-- The slot of the highest SEQ. -/
def Van.newest (v : Van) : Nat :=
  (v.log.foldl (fun b e =>
    match b with
    | none => some e
    | some o => if o.2.seq < e.2.seq then some e else b) none).map Prod.fst |>.getD 0

/-! The seal (R537 to R540) -/

/-- TOTAL as the log records it. -/
def State.vanTotal (s : State) : Nat := bcd8 s.van.st.total

/-- The van writes its configuration record (R535). -/
def State.vanSaveCfg (s : State) : State :=
  { s with van := { s.van with cfgRec := (s.van.cfg :: s.van.cfgRec).take 2 } }

/-- The seal closes with a cause (R539): staged CAN settings take effect. -/
def State.sealClose (s : State) (cause : Nat) : State :=
  if s.van.sealOpen then
    let v := s.van
    let cfg := { v.cfg with can := v.stageCan.getD v.cfg.can }
    let s1 := { s with van := { v with sealOpen := false, cfg := cfg, stageCan := none } }
    let s2 := if v.stageCan.isSome then s1.vanSaveCfg else s1
    s2.vanLog 0x21 false cause s2.vanTotal
  else s

/-- SEAL_JUMPER_ACCEPTED (R537, R539). -/
def State.jumperAccepted (s : State) (fitted : Bool) : State :=
  if !s.van.alive then s
  else
    let s1 := { s with van := { s.van with jumper := fitted } }
    if fitted then s1 else s1.sealClose 0

/-- SEAL_JUMPER_ACCEPTED. -/
def execSealJumperAccepted (fitted : Bool) (s : State) : Host.Outcome State Fault Refusal := .next (s.jumperAccepted fitted)

/-- SEAL_TIMEOUT (R539). -/
def execSealTimeout (s : State) : Host.Outcome State Fault Refusal := .next (if s.van.alive then s.sealClose 1 else s)

/-- The seal will open at the next tick (R538): OPENINGS rises and event 0x20 is logged. -/
def State.sealOpening (s : State) : State :=
  let s1 := { s with van := { s.van with openings := s.van.openings + 1, queue := s.van.queue ++ [VanCmd.openSeal] } }
  s1.vanLog 0x20 true s1.van.openings s1.vanTotal

/-! Counting and the tick (R527 to R535) -/

/-- GV_PULSE (R525, R528): an accepted transition on channel A, or on B. -/
def State.gvPulse (s : State) (b : Bool) : State :=
  if !s.van.alive then s
  else
    let v := { s.van with quiet := false }
    { s with van := if b then { v with nB := v.nB + 1 } else { v with nA := v.nA + 1 } }

/-- GV_PULSE. -/
def execGvPulse (b : Bool) (s : State) : Host.Outcome State Fault Refusal := .next (s.gvPulse b)

/-- Apply one thing accepted since the previous tick (R530, step 3). -/
def State.vanApply (s : State) (c : VanCmd) : State :=
  let v := s.van
  match c with
  | .tripReset t1 t2 =>
    let st1 := if t1 then { v.st with trip1 := 0, ok1 := true } else v.st
    { s with van := { v with st := if t2 then { st1 with trip2 := 0, ok2 := true } else st1 } }
  | .openSeal => { s with van := { v with sealOpen := true } }
  | .setK k =>
    let r := if v.cfg.kSet then v.st.r * k / v.cfg.k else 0
    let s1 := { s with van := { v with cfg := { v.cfg with k := k, kSet := true }, st := { v.st with r := r } } }
    s1.vanSaveCfg.vanLog 0x30 true v.cfg.k k
  | .setDisc t d cl =>
    let s1 := { s with van := { v with cfg := { v.cfg with tol := t, disc := d, close := cl } } }
    s1.vanSaveCfg.vanLog 0x34 true (t + 256 * d) cl
  | .setTotal n =>
    ({ s with van := { v with st := { v.st with total := n, okTotal := true } } }).vanLog 0x31 true 0 (bcd8 n)
  | .setTime t =>
    ({ s with van := { v with st := { v.st with time := t, timeValid := true } } }).vanLog 0x32 false 0 v.st.time.toNat
  | .setCan n d b => ({ s with van := { v with stageCan := some (n, d, b) } }).vanLog 0x35 false (n + 256 * d) b
  | .keyCommit x y =>
    let s1 := { s with van := { v with cfg := { v.cfg with key := some (x, y) }, stageX := none, stageY := none } }
    s1.vanSaveCfg.vanLog 0x33 true (if v.cfg.key.isSome then 1 else 0) (leNat ((Config.sha256 (x ++ y)).take 4))
  | .close => s.sealClose 2

/-- Step 4: the channel discrepancy (R533, R534), with the counts of this tick. -/
def State.vanDispute (s : State) (nA nB : Nat) : State :=
  let v := s.van
  let d := sat16 ((v.winA.foldl (· + ·) 0 : Nat) - (v.winB.foldl (· + ·) 0 : Nat) : Int)
  let bad := decide (v.cfg.tol < d.natAbs)
  let st := v.st
  let put := fun (x : VanSt) => { s with van := { v with st := x, diff := d } }
  if st.disputed then
    let x := { st with sumA := st.sumA + nA, sumB := st.sumB + nB }
    if bad then put { x with ccnt := 0 }
    else if st.ccnt + 1 < v.cfg.close then put { x with ccnt := st.ccnt + 1 }
    else
      (put { x with disputed := false, ccnt := 0, sumA := 0, sumB := 0 }).vanLog 0x11 false
        (twos16 (sat16 ((x.sumA : Int) - x.sumB))) (min x.sumA (2 ^ 32 - 1))
  else if !bad then
    put { st with dcnt := 0, sumA := 0, sumB := 0, shortCnt := if 0 < st.dcnt then min 65535 (st.shortCnt + 1) else st.shortCnt }
  else
    let x := { st with sumA := (if st.dcnt = 0 then 0 else st.sumA) + nA, sumB := (if st.dcnt = 0 then 0 else st.sumB) + nB }
    if st.dcnt + 1 < v.cfg.disc then put { x with dcnt := st.dcnt + 1 }
    else (put { x with disputed := true, dcnt := 0, ccnt := 0 }).vanLog 0x10 false (twos16 d) s.vanTotal

/-- Steps 1 and 2: the pulse total and the distance (R530). -/
def VanSt.count (st : VanSt) (c : VanCfg) (nA : Nat) : VanSt :=
  let p := (st.p + nA) % 2 ^ 48
  if c.kSet && c.k != 0 then
    let r := st.r + 10 * nA
    let n := r / c.k
    { st with p := p, r := r % c.k, total := (st.total + n) % 10 ^ 8, trip1 := (st.trip1 + n) % 10 ^ 8,
              trip2 := (st.trip2 + n) % 10 ^ 8 }
  else { st with p := p }

/-- Step 5: the speed (R531). -/
def Van.speedNow (v : Van) : Nat :=
  if v.cfg.kSet && v.cfg.k != 0 then min 65535 (v.winA.foldl (· + ·) 0 * 360000 / v.cfg.k) else 0

/-- The validity bits (R536). -/
def Van.valid (v : Van) : Nat :=
  if v.cfg.kSet then
    (if v.st.okTotal then 1 else 0) + (if v.st.ok1 then 2 else 0) + (if v.st.ok2 then 4 else 0)
  else 0

/-- The bridge registers as the van's frame carries them (R548, R551). -/
def State.vanRegs (s : State) : List (Nat × Word) :=
  let v := s.van
  let w := BitVec.ofNat 32
  let f := fun (b : Bool) k => if b then 2 ^ k else 0
  [(Reg.GV_STAT, w (f v.sealOpen 30 + f v.jumper 29 + f v.st.disputed 28 + f v.st.timeValid 27 + f v.cfg.kSet 26 +
      f v.cfg.key.isSome 25 + f v.logLimit 24)),
   (Reg.GV_PULSE_LO, w v.st.p), (Reg.GV_PULSE_HI, w (v.st.p / 2 ^ 32)), (Reg.GV_K, w v.cfg.k),
   (Reg.GV_TOTAL, w (bcd8 v.st.total)), (Reg.GV_TOTAL + 4, w (bcd8 v.st.trip1)), (Reg.GV_TOTAL + 8, w (bcd8 v.st.trip2)),
   (Reg.GV_VALID, w v.valid), (Reg.GV_SPEED, w v.speed), (Reg.GV_TIME, v.st.time),
   (Reg.GV_DIFF, w (v.st.shortCnt * 2 ^ 16 + twos16 v.diff)),
   (Reg.GV_DISC, w (v.cfg.close * 2 ^ 16 + v.cfg.disc * 2 ^ 8 + v.cfg.tol)),
   (Reg.GV_FWID, if s.part.stepB then 0x47560102 else 0x47560101),
   (Reg.GV_FWID + 4, if s.part.stepB then 0x3B18D26E else 0x9E4A71C3),
   (Reg.GV_SERIAL, w Config.partSerial.toNat), (Reg.GV_SERIAL + 4, w (Config.partSerial.toNat / 2 ^ 32)),
   (Reg.GV_LOG_STAT, w (v.openings % 256 * 2 ^ 16 + v.perm * 2 ^ 8 + v.newest)),
   (Reg.GV_LOG_SEQ, ((v.slotWords v.newest).getD 0 0))]

/-- Step 6: the state record is written and the bridge frame sent, with the entry of a changed slot or of the next one
(R535, R546, R549). -/
def State.vanSend (s : State) : State :=
  let v := s.van
  let slot := v.dirty.headD v.mirrorNext
  let fr : VanFrame := ⟨s.vanRegs, slot, v.slotWords slot, v.dirty != []⟩
  let next := if v.dirty = [] then (v.mirrorNext + 1) % 256 else v.mirrorNext
  { s with van := { v with stRec := (v.st :: v.stRec).take 2, tx := some fr, dirty := v.dirty.drop 1, mirrorNext := next } }

/-- GV_TICK (R527, R530). -/
def State.gvTick (s : State) : State :=
  if !s.van.alive then s
  else
    let v := s.van
    let t := (v.ticks + 1) % 2 ^ 64
    let st := if t % 64 = 0 then { v.st with time := v.st.time + 1 } else v.st
    let v1 := { v with ticks := t, nA := 0, nB := 0, winA := (v.nA :: v.winA).take 64, winB := (v.nB :: v.winB).take 64,
                       st := st.count v.cfg v.nA, queue := [] }
    let s1 := v.queue.foldl State.vanApply { s with van := v1 }
    let s2 := s1.vanDispute v.nA v.nB
    let s3 := { s2 with van := { s2.van with speed := s2.van.speedNow } }
    s3.vanSend

/-- GV_TICK. -/
def execGvTick (s : State) : Host.Outcome State Fault Refusal := .next s.gvTick

/-- An event 0x02 (R541): permanent while PERM is below the limit. -/
def State.vanLost (s : State) (which : Nat) : State :=
  if s.van.perm < 224 then s.vanLog 0x02 true which 0
  else ({ s with van := { s.van with logLimit := true } }).vanLog 0x02 false (2 ^ 15 + which) 0

/-- GV_POWER_ON (R536): `st` and `cf` say which copy of the state and configuration records is the newest valid one: 0 the
newer, 1 the older, otherwise neither. -/
def State.gvPowerOn (s : State) (st cf : Nat) : State :=
  let v := s.van
  let stR := v.stRec[st]?
  let cfR := v.cfgRec[cf]?
  let cfg := cfR.getD VanCfg.init
  let s1 := { s with van := { v with
    alive := true, quiet := false, ticks := 0, nA := 0, nB := 0, winA := [], winB := [], speed := 0, diff := 0, cfg := cfg,
    st := { stR.getD VanSt.init with timeValid := false }, challenge := none, verify := none, stageX := none, stageY := none,
    queue := [], tx := none, smc := none } }
  let s2 := s1.vanLog 0x01 false 0 s1.van.st.time.toNat
  let s3 := if stR.isNone then s2.vanLost 0 else s2
  let s4 := if cfR.isNone then s3.vanLost 1 else s3
  s4.sealClose 3

/-- GV_POWER_ON. -/
def execGvPowerOn (st cf : Nat) (s : State) : Host.Outcome State Fault Refusal := .next (s.gvPowerOn st cf)

/-! Messages (R543 to R545) -/

/-- The next valid CAN FD length (R543). -/
def canLen (n : Nat) : Nat :=
  if n ≤ 8 then n else if n ≤ 12 then 12 else if n ≤ 16 then 16 else if n ≤ 20 then 20 else if n ≤ 24 then 24
  else if n ≤ 32 then 32 else if n ≤ 48 then 48 else 64

/-- Bytes padded with 0 to the next valid length. -/
def canPad (l : List Byte) : List Byte := l ++ List.replicate (canLen l.length - l.length) 0

/-- The kind and bytes of a message that reaches the van. -/
def State.vanMsg (s : State) (src : VanSrc) : Option (Nat × List Byte) :=
  match src with
  | .can k d => some (k, d)
  | .window => s.van.smc

/-- Bytes of the arguments of a request, and of a sealed command (R540, R544). -/
def reqArgs (op : Nat) : Option Nat := match op with | 1 => some 0 | 2 => some 1 | 3 => some 1 | 4 => some 0 | _ => none

def sealedArgs (op : Nat) : Option Nat :=
  match op with
  | 0x10 => some 2 | 0x11 => some 3 | 0x12 => some 4 | 0x13 => some 4 | 0x14 => some 4 | 0x15 => some 33 | 0x16 => some 0
  | 0x17 => some 0 | _ => none

/-- A message's length suits it: exact, or padded to the next valid CAN FD length. -/
def lenSuits (n len : Nat) : Bool := len == n || len == canLen n

/-- A message is well formed: a known opcode and a length that suits it. -/
def msgOk (kind : Nat) (d : List Byte) : Bool :=
  match kind with
  | 1 => ((reqArgs (leNat (d.take 1))).map fun n => lenSuits (1 + n) d.length).getD false && d != []
  | 3 => d.length == 64
  | 4 => ((sealedArgs (leNat (d.take 1))).map fun n => lenSuits (1 + n) d.length).getD false && d != []
  | _ => false

/-- The arguments of message `src`, where the van is on and it is a well-formed message of this kind and opcode. -/
def State.vanArgs (s : State) (src : VanSrc) (kind op : Nat) : Option (List Byte) :=
  match s.vanMsg src with
  | none => none
  | some (k, d) => if s.van.alive ∧ k = kind ∧ msgOk k d ∧ (kind = 3 ∨ leNat (d.take 1) = op) then
      some (if kind = 3 then d else d.drop 1) else none

/-- A received frame returns the van to Active (R525). -/
def State.vanWake (s : State) (src : VanSrc) : State :=
  match src with
  | .can _ _ => { s with van := { s.van with quiet := false } }
  | .window => s

/-- The sealed-command window holds no message. -/
def State.smcClear (s : State) : State := { s with van := { s.van with smc := none } }

/-- The van answers a message (R543, R548): on the bus, or in the window, with DONE and source 110. -/
def State.vanReply (s : State) (src : VanSrc) (op result : Nat) (data : List Byte) : State :=
  let bs := canPad ([BitVec.ofNat 8 op, BitVec.ofNat 8 result] ++ data)
  match src with
  | .can _ _ => s.emit (.can (s.van.cfg.can.2.2 + 2) bs)
  | .window =>
    let s1 := (List.range 16).foldl (fun s w =>
      s.setReg (Reg.GV_SMR_DATA + 4 * (w % 16)) (BitVec.ofNat 32 (leNat ((bs.drop (4 * w)).take 4)))) s
    ((((s1.setFld Reg.GV_SMC_STAT 6 0 bs.length).setBit Reg.GV_SMC_STAT 31 false).setBit Reg.GV_SMC_STAT 30 true).fire 110).smcClear

/-- VAN_FORMAT_ERROR (R544): answered with FORMAT. -/
def State.vanFormatError (s : State) (src : VanSrc) : State :=
  match s.vanMsg src with
  | none => s
  | some (k, d) =>
    if !s.van.alive || msgOk k d || !(k == 1 || k == 3 || k == 4) then s
    else (s.vanWake src).vanReply src (if k = 3 then 0xFF else leNat (d.take 1)) 5 []

/-- VAN_FORMAT_ERROR. -/
def execVanFormatError (src : VanSrc) (s : State) : Host.Outcome State Fault Refusal := .next (s.vanFormatError src)

/-- A message of one kind and opcode, and what the van does with its arguments. -/
def State.vanDo (s : State) (src : VanSrc) (kind op : Nat) (f : State → List Byte → State) : State :=
  match s.vanArgs src kind op with
  | none => s
  | some a => f (s.vanWake src) a

/-- GV_IDENT (R544). -/
def State.gvIdent (s : State) (src : VanSrc) : State :=
  s.vanDo src 1 1 fun s _ =>
    let w := fun k => natLe 4 (((s.vanRegs.find? fun r => r.1 == k).map fun r => r.2.toNat).getD 0)
    s.vanReply src 1 0 (w Reg.GV_FWID ++ w (Reg.GV_FWID + 4) ++ natLe 8 Config.partSerial.toNat ++ natLe 4 s.van.openings ++
      natLe 1 s.van.perm)

/-- GV_IDENT. -/
def execGvIdent (src : VanSrc) (s : State) : Host.Outcome State Fault Refusal := .next (s.gvIdent src)

/-- LOG (R544). -/
def State.gvLogRead (s : State) (src : VanSrc) : State :=
  s.vanDo src 1 2 fun s a =>
    s.vanReply src 2 0 ((s.van.slotWords (leNat (a.take 1))).flatMap fun w => natLe 4 w.toNat)

/-- LOG. -/
def execLog (src : VanSrc) (s : State) : Host.Outcome State Fault Refusal := .next (s.gvLogRead src)

/-- Something accepted for the next tick, and its answer. -/
def State.vanAccept (s : State) (src : VanSrc) (op : Nat) (c : VanCmd) : State :=
  ({ s with van := { s.van with queue := s.van.queue ++ [c] } }).vanReply src op 0 []

/-- TRIP_RESET (R530, R544). -/
def State.tripReset (s : State) (src : VanSrc) : State :=
  s.vanDo src 1 3 fun s a =>
    let b := a.getD 0 0
    s.vanAccept src 3 (.tripReset (b.getLsbD 0) (b.getLsbD 1))

/-- TRIP_RESET. -/
def execTripReset (src : VanSrc) (s : State) : Host.Outcome State Fault Refusal := .next (s.tripReset src)

/-- The challenge (R538). -/
def State.challengeBytes (s : State) : List Byte :=
  natLe 4 s.van.openings ++ natLe 8 Config.partSerial.toNat ++ natLe 8 s.van.ticks ++ natLe 6 s.van.st.p ++ natLe 6 0

/-- CHALLENGE (R538): while KEY_SET = 0 the request itself opens the seal. -/
def State.gvChallenge (s : State) (src : VanSrc) : State :=
  s.vanDo src 1 4 fun s _ =>
    if !s.van.jumper then s.vanReply src 4 6 []
    else if 216 ≤ s.van.perm then s.vanReply src 4 4 []
    else
      let c := s.challengeBytes
      let s1 := { s with van := { s.van with challenge := some (s.van.ticks, c) } }
      (if s.van.cfg.key.isNone then s1.sealOpening else s1).vanReply src 4 0 c

/-- CHALLENGE. -/
def execChallenge (src : VanSrc) (s : State) : Host.Outcome State Fault Refusal := .next (s.gvChallenge src)

/-- SEAL_AUTH (R538): verification starts. -/
def State.sealAuth (s : State) (src : VanSrc) : State :=
  s.vanDo src 3 0 fun s sig =>
    if !s.van.jumper then s.vanReply src 0xFF 6 []
    else match s.van.challenge with
      | none => s.vanReply src 0xFF 3 []
      | some (t, c) =>
        if 3840 < s.van.ticks - t then s.vanReply src 0xFF 3 []
        else if 216 ≤ s.van.perm then s.vanReply src 0xFF 4 []
        else if s.van.verify.isSome then s.vanReply src 0xFF 7 []
        else { s with van := { s.van with verify := some (src, c, sig) } }

/-- SEAL_AUTH. -/
def execSealAuth (src : VanSrc) (s : State) : Host.Outcome State Fault Refusal := .next (s.sealAuth src)

/-- SEAL_AUTH_DONE (R538): the verification ends. -/
def State.sealAuthDone (s : State) : State :=
  match s.van.verify with
  | none => s
  | some (src, c, sig) =>
    let s1 := { s with van := { s.van with verify := none } }
    let ok := match s.van.cfg.key with
      | some (x, y) => Config.ecdsaOk x y c sig
      | none => false
    if ok then s1.sealOpening.vanReply src 0xFF 0 []
    else (s1.vanLog 0x22 false 0 0).vanReply src 0xFF 3 []

/-- SEAL_AUTH_DONE. -/
def execSealAuthDone (s : State) : Host.Outcome State Fault Refusal := .next s.sealAuthDone

/-- Permanent entries that there will be after the next tick. -/
def Van.permDue (v : Van) : Nat :=
  v.perm + v.queue.countP fun c => match c with
    | .setK _ | .setDisc _ _ _ | .setTotal _ | .keyCommit _ _ => true
    | _ => false

/-- A sealed command (R540): refused while the seal is closed, for a value out of range, and where its permanent entry would
pass the limit; otherwise accepted for the next tick. -/
def State.sealed (s : State) (src : VanSrc) (op : Nat) (perm : Bool) (f : List Byte → Option VanCmd) : State :=
  s.vanDo src 4 op fun s a =>
    if !s.van.sealOpen then s.vanReply src op 1 []
    else match f a with
      | none => s.vanReply src op 2 []
      | some c => if perm && decide (224 ≤ s.van.permDue) then s.vanReply src op 4 [] else s.vanAccept src op c

/-- SET_K. -/
def execSetK (src : VanSrc) (s : State) : Host.Outcome State Fault Refusal :=
  .next (s.sealed src 0x10 true fun a => if 2000 ≤ leNat (a.take 2) then some (.setK (leNat (a.take 2))) else none)

/-- SET_DISC. -/
def execSetDisc (src : VanSrc) (s : State) : Host.Outcome State Fault Refusal :=
  .next (s.sealed src 0x11 true fun a =>
    let b := fun i => (a.getD i 0).toNat
    if b 1 = 0 ∨ b 2 = 0 then none else some (.setDisc (b 0) (b 1) (b 2)))

/-- SET_TOTAL. -/
def execSetTotal (src : VanSrc) (s : State) : Host.Outcome State Fault Refusal :=
  .next (s.sealed src 0x12 true fun a =>
    let n := leNat (a.take 4)
    if (List.range 8).all fun i => decide (n / 16 ^ i % 16 ≤ 9) then some (.setTotal (unBcd n)) else none)

/-- SET_TIME. -/
def execSetTime (src : VanSrc) (s : State) : Host.Outcome State Fault Refusal :=
  .next (s.sealed src 0x13 false fun a => some (.setTime (BitVec.ofNat 32 (leNat (a.take 4)))))

/-- SET_CAN. -/
def execSetCan (src : VanSrc) (s : State) : Host.Outcome State Fault Refusal :=
  .next (s.sealed src 0x14 false fun a =>
    let n := (a.getD 0 0).toNat
    let d := (a.getD 1 0).toNat
    let b := leNat ((a.drop 2).take 2)
    if n ≤ 2 ∧ d ≤ 2 ∧ b ≤ 0x7FB then some (.setCan n d b) else none)

/-- KEY_PART (R540): a coordinate is staged. -/
def State.keyPart (s : State) (src : VanSrc) : State :=
  s.vanDo src 4 0x15 fun s a =>
    let part := (a.getD 0 0).toNat
    let c := (a.drop 1).take 32
    if !s.van.sealOpen then s.vanReply src 0x15 1 []
    else if 1 < part then s.vanReply src 0x15 2 []
    else
      let v := if part = 0 then { s.van with stageX := some c } else { s.van with stageY := some c }
      ({ s with van := v }).vanReply src 0x15 0 []

/-- KEY_PART. -/
def execKeyPart (src : VanSrc) (s : State) : Host.Outcome State Fault Refusal := .next (s.keyPart src)

/-- KEY_COMMIT (R540): FORMAT for a point off the curve or a part not staged. -/
def State.keyCommit (s : State) (src : VanSrc) : State :=
  s.vanDo src 4 0x16 fun s _ =>
    if !s.van.sealOpen then s.vanReply src 0x16 1 []
    else match s.van.stageX, s.van.stageY with
      | some x, some y =>
        if !onCurve (beNat x) (beNat y) then s.vanReply src 0x16 5 []
        else if 224 ≤ s.van.permDue then s.vanReply src 0x16 4 []
        else s.vanAccept src 0x16 (.keyCommit x y)
      | _, _ => s.vanReply src 0x16 5 []

/-- KEY_COMMIT. -/
def execKeyCommit (src : VanSrc) (s : State) : Host.Outcome State Fault Refusal := .next (s.keyCommit src)

/-- CLOSE. -/
def execClose (src : VanSrc) (s : State) : Host.Outcome State Fault Refusal :=
  .next (s.sealed src 0x17 false fun _ => some .close)

/-- STATUS (R525, R543). -/
def State.vanStatus (s : State) : State :=
  if !s.van.alive || s.van.quiet then s
  else
    let v := s.van
    let f := fun (b : Bool) k => if b then 2 ^ k else 0
    let flags := v.valid + f v.st.disputed 3 + f v.sealOpen 4 + f v.st.timeValid 5 + f v.cfg.kSet 6 + f v.logLimit 7
    s.emit (.can v.cfg.can.2.2 (natLe 6 v.st.p ++ natLe 2 v.cfg.k ++ natLe 4 (bcd8 v.st.total) ++ natLe 4 (bcd8 v.st.trip1) ++
      natLe 4 (bcd8 v.st.trip2) ++ natLe 2 v.speed ++ natLe 1 flags ++ natLe 1 v.gen ++ natLe 4 v.st.time.toNat ++
      natLe 2 (twos16 v.diff) ++ natLe 2 v.st.shortCnt))

/-- STATUS. -/
def execStatus (s : State) : Host.Outcome State Fault Refusal := .next s.vanStatus

/-- The van falls quiet, outside a seal session (R525). -/
def State.vanQuiet (s : State) : State :=
  if s.van.alive && !s.van.sealOpen && s.van.verify.isNone then { s with van := { s.van with quiet := true } } else s

/-- QUIET (R525): not while the seal is open or a signature check runs. -/
def execQuiet (s : State) : Host.Outcome State Fault Refusal :=
  .next s.vanQuiet

/-! The bridge (R546 to R549) -/

/-- The bits of GV_STAT whose change raises source 107, and source 109 together with GV_VALID. -/
def State.vanChanges (s t : State) : State :=
  let d := s.reg Reg.GV_STAT ^^^ t.reg Reg.GV_STAT
  (t.fireIf (d.getLsbD 30 || d.getLsbD 29) 107).fireIf
    (d.getLsbD 27 || d.getLsbD 26 || s.reg Reg.GV_VALID != t.reg Reg.GV_VALID) 109

/-- BRIDGE_FRAME (R546, R549, R552): every value of the frame is presented in one instant, then GEN increments. -/
def State.bridgeFrame (s : State) : State :=
  match s.van.tx with
  | none => s
  | some f =>
    let was := s.bit Reg.GV_STAT 31
    let gen := (s.van.gen + 1) % 65536
    let left := (if was then s.van.unmirrored else List.range 256).filter (· != f.slot)
    let s1 := f.regs.foldl (fun s r => s.setReg r.1 r.2) s
    let s2 := (((s1.setBit Reg.GV_STAT 31 true).setFld Reg.GV_STAT 15 0 gen).setReg Reg.GV_GEN (BitVec.ofNat 32 gen)).setBit
      Reg.GV_LOG_STAT 31 (left == [])
    let s3 := (List.range 4).foldl (fun s i => s.setReg (0x16000 + 16 * f.slot + 4 * i) (f.entry.getD i 0)) s2
    let s4 := { s3 with van := { s3.van with tx := none, unmirrored := left, gen := gen } }
    let s5 := (s.vanChanges s4).fireIf (!was) 104
    let opened := was && !s.bit Reg.GV_STAT 28 && s4.bit Reg.GV_STAT 28
    let closed := was && s.bit Reg.GV_STAT 28 && !s4.bit Reg.GV_STAT 28
    ((s5.fireIf opened 105).fireIf closed 106).fireIf f.fresh 108

/-- BRIDGE_FRAME. -/
def execBridgeFrame (s : State) : Host.Outcome State Fault Refusal := .next s.bridgeFrame

/-- BRIDGE_LINK_LOST (R546): every value register reads 0. -/
def State.bridgeLost (s : State) : State :=
  if s.bit Reg.GV_STAT 31 then
    let s1 := (s.vanRegs.map Prod.fst ++ [Reg.GV_GEN]).foldl (fun s a => s.setReg a 0) s
    (s.vanChanges { s1 with van := { s1.van with tx := none } }).fire 104
  else s

/-- BRIDGE_LINK_LOST. -/
def execBridgeLinkLost (s : State) : Host.Outcome State Fault Refusal := .next s.bridgeLost

/-- The sealed-command window accepts writes (R547). -/
def State.smcOpen (s : State) : Bool := s.bit Reg.GV_STAT 29 && !s.bit Reg.GV_SMC_STAT 31

/-- A write to GV_SMC_CTL (R547, R548): SEND = 1 delivers the message to the van. -/
def State.smcCtl (s : State) (v : Word) : State × Resp :=
  let len := bitsOf v 14 8
  let kind := bitsOf v 2 0
  if !s.smcOpen || !(kind == 1 || kind == 3 || kind == 4) || (v.getLsbD 31 && (len == 0 || decide (64 < len))) then (s, .denied)
  else
    let s1 := s.codeWrite Reg.GV_SMC_CTL v
    if v.getLsbD 31 then
      let bs := ((List.range 16).flatMap fun w => natLe 4 (s.reg (Reg.GV_SMC_DATA + 4 * w)).toNat).take len
      (({ s1 with van := { s1.van with smc := some (kind, bs) } }).setBit Reg.GV_SMC_STAT 31 true, .ok)
    else (s1, .ok)

/-- SMC_SEND. -/
def execSmcSend (v : Word) (s : State) : Host.Outcome State Fault Refusal := .next (s.smcCtl v).1

/-- A write to the bridge block at a key that names a register (R547). -/
def State.gvWrite (s : State) (a : Nat) (v : Word) : State × Resp :=
  if a = Reg.GV_SMC_CTL then s.smcCtl v
  else if s.smcOpen ∧ (a = Reg.GV_SMC_STAT ∨ (Reg.GV_SMC_DATA ≤ a ∧ a < Reg.GV_SMC_CTL)) then (s.codeWrite a v, .ok)
  else (s, .denied)

end Sys2Proof.Machine
end

