-- ==== Sys2Proof/Machine/Traverser.lean ====
section
/-! DEFINITION. The Traverser (R128 to R145): descriptors, their judgement, holding, completing and aborting transfers. The
movement of data is in Machine/TraverserMove.lean. -/

namespace Sys2Proof.Machine

/-! Descriptor fields (R130) -/

def Xfer.base (x : Xfer) : Nat := natBits x.w0.toNat 51 0
def Xfer.stride (x : Xfer) : Nat := natBits x.w1.toNat 31 0
def Xfer.imgW (x : Xfer) : Nat := natBits x.w1.toNat 47 32
def Xfer.imgH (x : Xfer) : Nat := natBits x.w1.toNat 63 48
def Xfer.rectX (x : Xfer) : Nat := natBits x.w2.toNat 15 0
def Xfer.rectY (x : Xfer) : Nat := natBits x.w2.toNat 31 16
def Xfer.rectW (x : Xfer) : Nat := natBits x.w2.toNat 47 32
def Xfer.rectH (x : Xfer) : Nat := natBits x.w2.toNat 63 48
def Xfer.isStore (x : Xfer) : Bool := x.w3.getLsbD 0
def Xfer.packed (x : Xfer) : Bool := x.w3.getLsbD 1
/-- Bytes of a pixel. -/
def Xfer.pixBytes (x : Xfer) : Nat := 2 ^ natBits x.w3.toNat 3 2
def Xfer.hmode (x : Xfer) : Nat := natBits x.w3.toNat 5 4
def Xfer.valid (x : Xfer) : Bool := x.w3.getLsbD 6
def Xfer.halo (x : Xfer) : Nat := natBits x.w3.toNat 12 8
def Xfer.first (x : Xfer) : Nat := natBits x.w3.toNat 21 16
def Xfer.nb1 (x : Xfer) : Nat := natBits x.w3.toNat 27 22
def Xfer.tag (x : Xfer) : Nat := natBits x.w3.toNat 31 28
def Xfer.plane (x : Xfer) : Nat := natBits x.w3.toNat 41 32

/-- The rectangle lies wholly inside the image. -/
def Xfer.inside (x : Xfer) : Bool :=
  decide (x.rectX + x.rectW ≤ x.imgW) && decide (x.rectY + x.rectH ≤ x.imgH)

/-- The descriptor keeps the limits of R130 to R135. -/
def Xfer.ok (x : Xfer) : Bool :=
  x.readable && x.base % x.pixBytes == 0 && x.stride % 8 == 0 && x.imgW != 0 && x.imgH != 0 && x.hmode != 3 &&
  x.rectW != 0 && x.rectH != 0 && decide (x.first + x.nb1 + 1 ≤ 8 * x.pixBytes) && decide (x.plane + x.nb1 ≤ 1007) &&
  (if x.packed then decide (x.rectW * x.rectH ≤ 131072) && x.halo == 0 && x.inside
   else decide (x.rectW + 2 * x.halo ≤ 512) && decide (x.rectH + 2 * x.halo ≤ 256)) &&
  (!x.isStore || (x.first == 0 && x.nb1 + 1 == 8 * x.pixBytes && x.base % 8 == 0 && x.rectX * x.pixBytes % 8 == 0 &&
    x.rectW * x.pixBytes % 8 == 0 && x.inside))

/-- Causes of a completion (R144). -/
inductive Cause where
  | none | badDesc | readErr | writeErr | mapChanged | aborted | arrayUe
  deriving DecidableEq, Repr

/-- The encoding of a cause (R144). -/
def causeCode : Cause → Nat
  | .none => 0 | .badDesc => 1 | .readErr => 2 | .writeErr => 3 | .mapChanged => 4 | .aborted => 5 | .arrayUe => 6

/-- Copy a descriptor from the scratchpad as FXFER issues, through the array port (R128, R288): the transfer it makes. -/
def State.trvCopy (s : State) (off : Nat) : State × Xfer :=
  if s.bit Reg.MEM_STAT 0 then (s, ⟨0, 0, 0, 0, false, []⟩)
  else
    let r := s.spReadWords (off / 8) 4
    (r.1.useFree, ⟨r.2.1.getD 0 0, r.2.1.getD 1 0, r.2.1.getD 2 0, r.2.1.getD 3 0, !r.2.2, []⟩)

/-- FXFER issues with ACC as the descriptor's offset: the transfer is held (R128, R129). -/
def State.trvHold (s : State) : State :=
  let r := s.trvCopy s.disp.acc.toNat
  { r.1 with trv := { r.1.trv with held := r.1.trv.held ++ [r.2] } }

/-- Some held transfer has tag `t`. -/
def State.trvHolds (s : State) (t : Nat) : Bool := s.trv.held.any fun x => x.tag == t

/-- An FXFER or FSYNC that waited goes on when its wait is over (R129, R139). -/
def State.trvWake (s : State) : State :=
  match s.disp.wait with
  | .fxfer => if s.trv.held.length < 4 then ({ s.trvHold with disp := { s.trvHold.disp with wait := .none } }).endInstr 8 noLate else s
  | .fsync t => if s.trvHolds t then s else ({ s with disp := { s.disp with wait := .none } }).endInstr 8 noLate
  | _ => s

/-- A transfer `x` completes with a cause: DONE of its tag, source 68 if enabled, the error record and source 69 (R143 to
R145). -/
def State.trvComplete (s : State) (x : Xfer) (c : Cause) (r : Resp) (off : Nat) : State :=
  let s1 := (s.setBit Reg.TRV_DONE x.tag true).fireIf (s.bit Reg.TRV_IRQ_EN x.tag) 68
  if c = .none then s1
  else
    let io := c == .readErr || c == .writeErr
    let s2 := if s1.bit Reg.TRV_ERR 15 then s1.setBit Reg.TRV_ERR 16 true
      else (s1.setReg Reg.TRV_ERR (BitVec.ofNat 32 ((if s1.bit Reg.TRV_ERR 16 then 2 ^ 16 else 0) + 2 ^ 15 +
          (if io then respCode r else 0) * 2 ^ 8 + causeCode c * 2 ^ 4 + x.tag))).setReg Reg.TRV_ERR_WORD
        (BitVec.ofNat 32 (if io then off else 0))
    s2.fire 69

/-- TRANSFER_START (R129, R135): the oldest held transfer is judged; a refused one completes with BADDESC at once. -/
def State.trvStart (s : State) : State :=
  if s.trv.active then s
  else match s.trv.held with
    | [] => s
    | x :: t =>
      if x.ok then { s with trv := { s.trv with active := true } }
      else (({ s with trv := { s.trv with held := t } }).trvComplete x .badDesc .ok 0).trvWake

/-- TRANSFER_START. -/
def execTransferStart (s : State) : Host.Outcome State Fault Refusal := .next s.trvStart

/-- TRV_CTL.ABORT (R141): the transfer in progress ends and every held one is discarded, each with cause ABORTED. The planes
a load in progress was writing are left as they are where it had not come, and hold what it had written elsewhere: free. -/
def State.trvAbort (s : State) : State :=
  let n := if s.trv.active then 1 else 0
  let part := (s.trv.held.take n).filter fun x => !x.isStore
  let s1 := part.foldl (fun s x => (List.range (x.nb1 + 1)).foldl (fun s i =>
      let old := s.readPlane (x.plane + i)
      let pick := (s.freePlane (x.plane + i)).at
      let mixed := fun k => if Config.freeBool s.free k then pick k else laneAt old k
      ((s.writePlane (x.plane + i) (fun p => (s.logicalOf (p / 9) (p % 9)).isSome)
        (fun _ => (0#2 ++ BitVec.allOnes 64 : Lanes)) mixed).1).useFree) s) s
  let s2 := { s1 with trv := ⟨[], false⟩ }
  (s.trv.held.foldl (fun s x => s.trvComplete x .aborted .ok 0) s2).trvWake

/-- TRV_ABORT. -/
def execTrvAbort (s : State) : Host.Outcome State Fault Refusal := .next s.trvAbort

/-- TRV_STATUS as it reads (R142). -/
def State.trvStatus (s : State) : Word :=
  BitVec.ofNat 32 (s.trv.held.length + (if s.trv.active then 16 + 256 * ((s.trv.held.map Xfer.tag).headD 0) else 0))

end Sys2Proof.Machine
end

