-- ==== Sys2Proof/Machine/Sidings.lean ====
section
/-! DEFINITION. Sidings, repair, in-service test and the speed estimator (chapter 04), and Stationmaster's strip procedures
(R20, R30, R169 to R179, R187, R188, R193). -/

namespace Sys2Proof.Machine

/-! Column substitution (R164 to R168) -/

/-- Number of Sidings slots in state ACTIVE (R160). -/
def State.countActive (s : State) : Nat :=
  (List.range 144).countP fun i => (s.subOf (i / 2) (i % 2)).1 == 2

/-- Bit numbers of slot `j` in COL_SUBp: its state field starts at `8 + 16 j`, its target at `16 j`. -/
def stBit (j : Nat) : Nat := 8 + 16 * j
def sweptBit (j : Nat) : Nat := 10 + 16 * j
def pendBit (j : Nat) : Nat := 11 + 16 * j

/-- Slot `j` of Platform `p` takes a state and target: the applied copy and the register show them; SHADOW clears SWEPT and
starts its sweep pointer (R166). -/
def State.applySub (s : State) (p j st tgt : Nat) : State :=
  let r := colSubReg p
  let enter := decide (st = 1) && !((s.subOf p j).1 == 1)
  let s1 := ((s.setFld (Reg.act r) (stBit j + 1) (stBit j) st).setFld (Reg.act r) (16 * j + 6) (16 * j) tgt)
  let s2 := ((s1.setFld r (stBit j + 1) (stBit j) st).setFld r (16 * j + 6) (16 * j) tgt).setBit r (pendBit j) false
  let s3 := if enter then
      { s2 with arr := { s2.arr with sweep := Store.set (fun _ => 0) s2.arr.sweep (2 * p + j) 0 } }.setBit r (sweptBit j) false
    else s2
  s3.setFld Reg.REP_STATUS 7 0 s3.countActive

/-- The four transitions the array accepts, and staying (R165). -/
def subTransition (old new : Nat) : Bool :=
  old == new || (old == 0 && new == 1) || (old == 1 && new == 0) || (old == 1 && new == 2) || (old == 2 && new == 0)

/-- State and target of a slot as another slot's judgement sees them: the pending value while one is pending (R165). -/
def State.subSeen (s : State) (p j : Nat) : Nat × Nat :=
  let r := colSubReg p
  if s.bit r (pendBit j) then (s.fld r (stBit j + 1) (stBit j), s.fld r (16 * j + 6) (16 * j)) else s.subOf p j

/-- Judge slot `j`'s part of a write to COL_SUBp (R165, R167). `other` is what the other slot counts as. -/
def State.judgeSub (s : State) (p j : Nat) (other : Nat × Nat) (v : Word) (executing : Bool) : State :=
  let r := colSubReg p
  let old := s.subOf p j
  let st := bitsOf v (stBit j + 1) (stBit j)
  let tgt := bitsOf v (16 * j + 6) (16 * j)
  let refused := st == 3 || decide (71 < tgt) || !subTransition old.1 st ||
    (st != 0 && other.1 != 0 && tgt == other.2) || (old.1 != 0 && tgt != old.2) ||
    (old.1 == 1 && st == 2 && !s.bit r (sweptBit j)) ||
    (old.1 == 2 && st == 0 && (s.logicalOf (p / 9) (p % 9)).isSome)
  if refused then s.setBit Reg.REP_STATUS 8 true
  else if (old.1 == 1 && st == 2) || (old.1 == 2 && st == 0) then
    if (executing || s.arr.busy) && !s.arr.suspended then
      ((s.setFld r (stBit j + 1) (stBit j) st).setFld r (16 * j + 6) (16 * j) tgt).setBit r (pendBit j) true
    else (s.applySub p j st tgt).fire 71
  else s.applySub p j st tgt

/-- A write to COL_SUBp: slot 0's part first, against slot 1 before the write, then slot 1's against slot 0 after (R165). -/
def State.colSubWrite (s : State) (p : Nat) (v : Word) (executing : Bool) : State :=
  let s1 := s.judgeSub p 0 (s.subSeen p 1) v executing
  s1.judgeSub p 1 (s1.subSeen p 0) v executing

/-- COL_SUB_WRITE (R165, R167). -/
def execColSubWrite (p : Nat) (v : Word) (executing : Bool) (s : State) : Host.Outcome State Fault Refusal :=
  .next (s.colSubWrite p v executing)

/-- SUBSTITUTION_APPLIED (R167): a pending transition applies at a safe point or instruction end. -/
def State.subApplied (s : State) (p j : Nat) : State :=
  let r := colSubReg p
  if s.bit r (pendBit j) then
    (s.applySub p j (s.fld r (stBit j + 1) (stBit j)) (s.fld r (16 * j + 6) (16 * j))).fire 71
  else s

/-- SUBSTITUTION_APPLIED. -/
def execSubstitutionApplied (p slot : Nat) (s : State) : Host.Outcome State Fault Refusal := .next (s.subApplied p (slot % 2))

/-- COLMON_CLR (R163). -/
def State.colmonClr (s : State) (p : Nat) : State := (s.setFld (colmonReg p) 6 0 0).setFld (colmonReg p) 15 8 0

/-- COLMON_CLR. -/
def execColmonClr (p : Nat) (s : State) : Host.Outcome State Fault Refusal := .next (s.colmonClr p)

/-! The mirror (R182, R183) -/

/-- A write to MIRROR_CTL. -/
def State.mirrorWrite (s : State) (v : Word) : State :=
  let row := bitsOf v 10 8
  let dst := bitsOf v 7 4
  let src := bitsOf v 3 0
  let map := Reg.act (rowMap row)
  if v.getLsbD 12 then
    if decide (8 < src) || decide (8 < dst) || !(src + 1 == dst || dst + 1 == src) || s.fld map 7 4 != 15 ||
        s.fld map 3 0 != dst || s.bistOwns (9 * row + dst) || s.bit Reg.MIRROR_CTL 12 then s.setBit Reg.REP_STATUS 9 true
    else
      let s1 := s.setReg Reg.MIRROR_CTL (BitVec.ofNat 32 (2 ^ 12 + row * 256 + dst * 16 + src))
      { s1 with arr := { s1.arr with mirrorSweep := 0 } }
  else if s.bit Reg.MIRROR_CTL 12 then s.setBit Reg.MIRROR_CTL 12 false
  else s.setFld Reg.MIRROR_CTL 10 0 (bitsOf v 10 0)

/-- MIRROR_CTL_WRITE. -/
def execMirrorCtlWrite (v : Word) (s : State) : Host.Outcome State Fault Refusal := .next (s.mirrorWrite v)

/-! The built-in test (R184 to R188) -/

/-- Every cell of Platform `p`: bit-RAM and C, N and F hold `v`, M holds `m`. -/
def State.fillPlatform (s : State) (p : Nat) (v m : Option Word74) : State :=
  (List.range 1028).foldl (fun s a =>
    s.setPlaneCells a ((s.planeCells a).zipIdx.map fun ck =>
      if ck.2 / 32 == p then (if a = planeM then m else v) else ck.1)) s

/-- A START of the test on the Platform that `v` names (R185): refused, or the test owns the slot, whose contents it
destroys. -/
def State.bistStart (s : State) (v : Word) : State :=
  let p := bitsOf v 6 0
  let s0 := s.setFld Reg.BIST_CTL 6 0 p
  let mirrorDst := s.bit Reg.MIRROR_CTL 12 && s.fld Reg.MIRROR_CTL 10 8 * 9 + s.fld Reg.MIRROR_CTL 7 4 == p
  if decide (71 < p) || !s.isGap (p / 9) (p % 9) || mirrorDst || s.bit Reg.BIST_STATUS 7 then s0.setFld Reg.BIST_STATUS 10 8 5
  else
    (s0.setReg Reg.BIST_STATUS (BitVec.ofNat 32 (0x3FFF000 + 128 + p))).fillPlatform p none none

/-- BIST_START. -/
def execBistStart (v : Word) (s : State) : Host.Outcome State Fault Refusal := .next (s.bistStart v)

/-- ABORT (R185): a busy test ends with RESULT = ABORTED, and the slot's contents stay undefined. -/
def State.bistAbort (s : State) : State :=
  if s.bit Reg.BIST_STATUS 7 then ((s.setBit Reg.BIST_STATUS 7 false).setFld Reg.BIST_STATUS 10 8 4).fire 72 else s

/-- BIST_ABORT. -/
def execBistAbort (s : State) : Host.Outcome State Fault Refusal := .next s.bistAbort

/-- The number of failed slots recorded, in TLM_ARRAY (R196). -/
def State.showFailed (s : State) : State := s.setFld Reg.TLM_ARRAY 12 8 s.repair.failed.length

/-- Record slot `p` as failed in the repair record, log it and show it (R173 step 8). -/
def State.recordFailed (s : State) (p reason : Nat) : State :=
  if s.repair.failed.contains p then s
  else
    let s1 := { s with repair := { s.repair with failed := s.repair.failed ++ [p] },
                       sched := { s.sched with retire := if s.sched.retire = some p then none else s.sched.retire } }
    (s1.showFailed).logEvent 0x03 p reason

/-- Every Platform in the rows of the in-service test has ended a test: the sweep is complete and a new one begins (R187).
Its duration is a free value: the model has no clock. -/
def State.sweepJudge (s : State) : State :=
  let rows := (List.range 8).filter fun r => !s.repair.failed.any fun p => p / 9 == r
  if rows ≠ [] ∧ (List.range 72).all (fun p => !rows.contains (p / 9) || s.sched.swept.contains p) then
    let s1 := { s with sched := { s.sched with swept := [] } }.setFld Reg.TLM_ARRAY 23 16 (s.fld Reg.TLM_ARRAY 23 16 + 1)
    (s1.setFld Reg.TLM_ARRAY 31 24 (Config.freeWord s.free 0).toNat).useFree
  else s

/-- The test ends (R184, R186): the slot is cleared, RESULT says what was found, source 72 is raised; Stationmaster then
acts on it (R188). `bad` lists the failed columns, `other` any other fault. -/
def State.bistDone (s : State) (bad : List Nat) (other : Bool) : State :=
  if !s.bit Reg.BIST_STATUS 7 then s
  else
    let p := s.fld Reg.BIST_STATUS 6 0
    let cols := bad.filter (· < 72)
    let working := (if bad.contains 72 then 0 else 1) + (if bad.contains 73 then 0 else 1)
    let pass := bad.isEmpty && !other
    let columns := !other && !bad.isEmpty && decide (bad.length ≤ 2) && decide (cols.length ≤ working)
    let res := if pass then 1 else if columns then 2 else 3
    let b := fun i => match bad[i]? with | some c => if columns then c else 0x7F | none => 0x7F
    let s1 := s.fillPlatform p (some 0) (some maskReset)
    let s2 := (s1.setReg Reg.BIST_STATUS (BitVec.ofNat 32 (b 1 * 2 ^ 19 + b 0 * 2 ^ 12 + res * 256 + p))).fire 72
    if pass || columns then
      let sc := { s2.sched with swept := if s2.sched.swept.contains p then s2.sched.swept else s2.sched.swept ++ [p],
                                shadowCols := (s2.sched.shadowCols.filter fun x => x.1 != p) ++
                                  (if columns then cols.map fun c => (p, c) else []) }
      { s2 with sched := sc }.sweepJudge
    else s2.recordFailed p 3

/-- BIST_DONE. -/
def execBistDone (bad : List Nat) (other : Bool) (s : State) : Host.Outcome State Fault Refusal := .next (s.bistDone bad other)

/-! The speed estimator (R189 to R195) -/

/-- EST_RATE.RATE from MEAS, FALLBACK and BELOW (R192). -/
def estRate (valid fallback below : Bool) (m : Nat) : Nat :=
  if !valid then 850
  else if !fallback then m
  else if below then 82 * m / 100
  else max 850 (82 * m / 100)

/-- RATE follows MEAS and the status (R192). -/
def State.showRate (s : State) : State :=
  s.setFld Reg.EST_RATE 15 0
    (estRate (s.bit Reg.EST_STATUS 4) (s.bit Reg.EST_STATUS 2) (s.bit Reg.EST_STATUS 3) (s.fld Reg.EST_RATE 31 16))

/-- A clean window in progress ends with measurement `m` and slowest Platform `slow` (R190 to R192); FALLBACK clears, and
with it a forced window (R193). -/
def State.cleanWindow (s : State) (m slow : Nat) : State :=
  if !s.bit Reg.EST_STATUS 0 then s
  else
    let m := m % 2 ^ 16
    let was := s.bit Reg.EST_STATUS 2
    let below := decide (m < 850)
    let s1 := (s.setFld Reg.EST_RATE 31 16 m).setReg Reg.EST_AGE 0
    let s2 := s1.setReg Reg.EST_STATUS (BitVec.ofNat 32 (slow % 128 * 256 + 16 + if below then 8 else 0))
    let s3 := (s2.showRate.fireIf was 75).fireIf below 76
    { s3 with sched := { s3.sched with holdIdle := false, windowNext := false } }

/-- CLEAN_WINDOW_END. -/
def execCleanWindowEnd (m slow : Nat) (s : State) : Host.Outcome State Fault Refusal := .next (s.cleanWindow m slow)

/-- EST_STALE (R191): EST_AGE reaches 12,500,000. -/
def execEstStale (s : State) : Host.Outcome State Fault Refusal :=
  .next (((s.setReg Reg.EST_AGE 12500000).setBit Reg.EST_STATUS 1 true).fire 73)

/-- EST_FALLBACK (R191, R192): EST_AGE reaches 25,000,000. -/
def execEstFallback (s : State) : Host.Outcome State Fault Refusal :=
  .next ((((s.setReg Reg.EST_AGE 25000000).setBit Reg.EST_STATUS 2 true).showRate).fire 74)

/-! The strip scheduler (R20, R30, R193) -/

/-- Spend the frame's reserve; a frame that needs it twice loses its last-scheduled strip (R30). -/
def State.spendReserve (s : State) : State :=
  if s.sched.reserveSpent then
    { s with sched := { s.sched with lostStrip := true, uncommitted := s.sched.uncommitted + 1 } }
  else { s with sched := { s.sched with reserveSpent := true, reserveUsed := s.sched.reserveUsed + 1 } }

/-- STRIP_RETRY (R20): a strip whose write-out met a response other than OK is retried once, from the reserve; when the retry
fails too, its frame is not committed. -/
def State.stripRetry (s : State) (display strip frame : Nat) : State :=
  if s.sched.retried then
    ({ s with sched := { s.sched with retried := false, uncommitted := s.sched.uncommitted + 1,
                                      badFrames := s.sched.badFrames ++ [display] } }).logEvent 0x02 display frame
  else
    let s1 := s.spendReserve
    ({ s1 with sched := { s1.sched with retried := true, repeats := s1.sched.repeats + 1 } }).logEvent 0x01 display strip

/-- STRIP_RETRY. -/
def execStripRetry (display strip frame : Nat) (s : State) : Host.Outcome State Fault Refusal :=
  .next (s.stripRetry display strip frame)

/-- FORCED_WINDOW (R193): the array is held idle until FALLBACK clears, paid from the reserve; with the reserve spent the
window moves to the next frame. -/
def State.forcedWindow (s : State) : State :=
  let s1 := s.logEvent 0x09 0 (s.reg Reg.EST_RATE).toNat
  if s1.sched.reserveSpent then { s1 with sched := { s1.sched with windowNext := true } }
  else { s1.spendReserve with sched := { s1.spendReserve.sched with holdIdle := true } }

/-- FORCED_WINDOW. -/
def execForcedWindow (s : State) : Host.Outcome State Fault Refusal := .next s.forcedWindow

/-! Procedures of Stationmaster -/

/-- The 16 FBIT of "Substituting a column", step 3: each address is rewritten with its corrected value. -/
def State.rewriteAll (s : State) : State :=
  (List.range 16).foldl (fun s i =>
    s.latchEdges.fbit ⟨0, 0, 0, 63, 0, 0, 0, 5, 64 * i, 0, 64 * i⟩ 0x20F0) s

/-- The value of COL_SUBp with slot `j` set to a state and target and the other slot as it is applied. -/
def State.subValue (s : State) (p j st tgt : Nat) : Word :=
  let o := s.subOf p (1 - j)
  BitVec.ofNat 32 ((st * 2 ^ stBit j + tgt * 2 ^ (16 * j)) + (o.1 * 2 ^ stBit (1 - j) + o.2 * 2 ^ (16 * (1 - j))))

/-- SUBSTITUTE_COLUMN (R169): steps 1 to 5 for the column COLMONp names; with both Sidings ACTIVE the Platform is retired
instead. -/
def State.substituteColumn (s : State) (p : Nat) : State :=
  let col := s.fld (colmonReg p) 6 0
  if (s.subOf p 0).1 = 2 ∧ (s.subOf p 1).1 = 2 then { s with sched := { s.sched with retire := some p } }
  else
    let slot? := if (s.subOf p 0).1 = 0 then some 0 else if (s.subOf p 1).1 = 0 then some 1 else none
    match slot? with
    | none => s
    | some j =>
      let s1 := (s.colSubWrite p (s.subValue p j 1 col) false).rewriteAll
      let s2 := s1.colSubWrite p (s1.subValue p j 2 col) false
      if (s2.subOf p j).1 = 2 then
        let s3 := s2.colmonClr p
        ({ s3 with repair := { s3.repair with subs := s3.repair.subs ++ [(p, j, col)] } }).logEvent 0x04 p col
      else s2

/-- SUBSTITUTE_COLUMN. -/
def execSubstituteColumn (p : Nat) (s : State) : Host.Outcome State Fault Refusal := .next (s.substituteColumn p)

/-- Clear the whole array by steps 2 to 6 of the clear procedure (R68): 0 in every plane with fresh check bits, M = 1 and
C = N = F = 0, in every Platform that executes with SPARE_EXEC = 1; 1,025 bit-steps. -/
def State.clearArray (s : State) : State :=
  let s1 := s.setBit Reg.ARR_CTL 0 true
  let ex := fun p => s1.executes p
  let all := fun _ : Nat => BitVec.allOnes 66
  let s2 := if (List.range 72).all ex && s1.countActive == 0 then
      { s1 with arr := { s1.arr with base := some 0, planes := [] } }
    else
      (List.range 1024 ++ [planeC, planeN, planeF]).foldl (fun s a => (s.writePlane a ex all fun _ => 0).1)
        (s1.writePlane planeM ex all all).1
  let s3 := (List.range 1024).foldl (fun s a => s.sweepAt a) s2
  (s3.spend 1025).setBit Reg.ARR_CTL 0 false

/-- The strip in flight is repeated from its input: one more repeat, paid from the reserve (R174, R179). -/
def State.repeatStrip (s : State) : State :=
  let s1 := s.spendReserve
  { s1 with sched := { s1.sched with repeats := s1.sched.repeats + 1 } }

/-- Steps 1 to 4 of R173: abandon a suspended instruction and clear ASUSP in the saved PSW, abort a test in the row, and
discard held transfers; the store of the previous strip has ended by then. -/
def State.failSteps (s : State) (row : Option Nat) : State :=
  let ab := if s.arr.suspended then s.abandon else s
  let s1 := if s.arr.suspended then { ab with disp := { ab.disp with spsw := putBits s.disp.spsw 10 10 0 } } else s
  let s2 := if (row.map fun r => s1.bit Reg.BIST_STATUS 7 && s1.fld Reg.BIST_STATUS 6 0 / 9 == r).getD false then s1.bistAbort else s1
  if s2.trv.held = [] then s2 else s2.trvAbort

/-- Stop `n` display pipes that carry no Interlocking region, highest pipe index first, and report each (R177). -/
def State.stopPipes (s : State) (n : Nat) : State :=
  let cand := ((List.range 4).reverse.filter fun p =>
    s.bit (Reg.PIPE_CTL + 0x400 * p) 0 && (s.chan p).active.isEmpty).take n
  cand.foldl (fun s p =>
    ((s.pipeDisable p).setBit Reg.TLM_ARRAY 15 true).logEvent 0x05 p 0) s

/-- PLATFORM_FAILURE (R173, R176 to R178): a sudden failure of Platform `p`; `stops` pipes have to be stopped for the
admission check of R31 to pass. -/
def State.platformFailure (s : State) (p reason stops : Nat) : State :=
  let r := p / 9
  let f := p % 9
  let map := Reg.act (rowMap r)
  let failed := fun slot => s.repair.failed.contains (9 * r + slot)
  let rowFailed := (List.range 9).any failed
  if failed (s.fld map 3 0) && s.fld map 7 4 != 15 && failed (s.fld map 7 4) then
    (s.setBit Reg.TLM_ARRAY 14 true).logEvent 0x06 0 0
  else
    let s1 := s.failSteps (some r)
    let v : Nat := if rowFailed then 16 * f + s1.fld map 3 0 else 15 * 16 + f
    let s2 := (s1.prowMapWrite r (BitVec.ofNat 32 v) false).clearArray.repeatStrip
    let s3 := s2.recordFailed p reason
    if rowFailed then s3.stopPipes stops else s3

/-- PLATFORM_FAILURE. -/
def execPlatformFailure (p reason stops : Nat) (s : State) : Host.Outcome State Fault Refusal :=
  .next (s.platformFailure p reason stops)

/-- The Platform whose uncorrectable row word began the repeat in progress. -/
def State.setRepeatOf (s : State) (p : Option Nat) : State := { s with sched := { s.sched with repeatOf := p } }

/-- STRIP_REPEAT (R179): source 65 reported an uncorrectable row word of Platform `p` during a strip; a second one in the
same Platform during the repeat is a sudden failure. -/
def State.stripRepeat (s : State) (p : Nat) : State :=
  if s.sched.repeatOf = some p then
    (s.setRepeatOf none).platformFailure p 4 0
  else (s.failSteps none).clearArray.repeatStrip.setRepeatOf (some p)

/-- STRIP_REPEAT. -/
def execStripRepeat (p : Nat) (s : State) : Host.Outcome State Fault Refusal := .next (s.stripRepeat p)

/-- Put the failed columns that a test found in slot `p` into SHADOW in free Sidings slots (R188). -/
def State.shadowFound (s : State) (p : Nat) : State :=
  (s.sched.shadowCols.filter fun x => x.1 == p).foldl (fun s x =>
    let j? := if (s.subOf p 0).1 = 0 then some 0 else if (s.subOf p 1).1 = 0 then some 1 else none
    match j? with
    | some j => s.colSubWrite p (s.subValue p j 1 x.2) false
    | none => s) s

/-- Make them ACTIVE after the mirror's sweep, and record them (R188). -/
def State.activateFound (s : State) (p : Nat) : State :=
  let s1 := (s.sched.shadowCols.filter fun x => x.1 == p).foldl (fun s x =>
    let j? := if s.subOf p 0 = (1, x.2) then some 0 else if s.subOf p 1 = (1, x.2) then some 1 else none
    match j? with
    | some j =>
      let s2 := s.colSubWrite p (s.subValue p j 2 x.2) false
      ({ s2 with repair := { s2.repair with subs := s2.repair.subs ++ [(p, j, x.2)] } }).logEvent 0x04 p x.2
    | none => s) s
  { s1 with sched := { s1.sched with shadowCols := s1.sched.shadowCols.filter fun x => x.1 != p } }

/-- ROTATION_STEP (R153, R175, R187, R188): at a strip boundary with the array and the Traverser idle, the gap of a row with
no failed Platform moves by one slot: down to slot 0, then up to slot 8, or toward a Platform that is being retired. -/
def State.rotationStep (s : State) (r : Nat) : State :=
  let g := s.fld (Reg.act (rowMap r)) 3 0
  let retiring := s.sched.retire.filter fun p => p / 9 == r
  let up := match retiring with
    | some p => decide (g < p % 9)
    | none => (s.sched.rotUp.contains r && g != 8) || g == 0
  let t := if up then g + 1 else g - 1
  if s.arr.busy || s.arr.suspended || s.trv.held.length != 0 || decide (7 < r) || s.repair.failed.any (fun p => p / 9 == r) ||
      s.bistOwns (9 * r + g) || s.sched.holdIdle then s
  else
    let s0 := { s with sched := { s.sched with rotUp := (s.sched.rotUp.filter (· != r)) ++ if up then [r] else [] } }
    let s1 := (s0.shadowFound (9 * r + g)).mirrorWrite (BitVec.ofNat 32 (2 ^ 12 + r * 256 + g * 16 + t))
    let s2 := s1.rewriteAll.activateFound (9 * r + g)
    let s3 := s2.prowMapWrite r (BitVec.ofNat 32 (240 + t)) false
    match retiring with
    | some p => if p % 9 = t then s3.recordFailed p 5 else s3
    | none => s3.bistStart (BitVec.ofNat 32 (256 + 9 * r + t))

/-- ROTATION_STEP. -/
def execRotationStep (row : Nat) (s : State) : Host.Outcome State Fault Refusal := .next (s.rotationStep row)

end Sys2Proof.Machine
end

