-- ==== Sys2Proof/Machine/Coupler.lean ====
section
/-! DEFINITION. The Coupler (chapter 14): frames, pairing, heartbeat, mirrored generations, the alignment of vertical sync,
the sweep, and access to a peer's registers. -/

namespace Sys2Proof.Machine

/-! Ports and frames (R554 to R558) -/

/-- A register of port `p`. -/
abbrev cplReg (r p : Nat) : Nat := r + 0x10 * (p % 2)

def State.cplPort (s : State) (p : Nat) : CplPort := s.cpl.ports.getD p CplPort.init

def State.setCplPort (s : State) (p : Nat) (x : CplPort) : State :=
  { s with cpl := { s.cpl with ports := listSet s.cpl.ports p x } }

/-- The state of port `p`: 0 OFF, 1 TRAINING, 2 UP, 3 PAIRED, 4 LOST (R557). -/
def State.cplState (s : State) (p : Nat) : Nat := s.fld (cplReg Reg.CPL_PSTAT p) 2 0

/-- The value of CHIP_ID (R4). -/
abbrev chipId : Nat := 0x7131025E

/-- The value of STEPPING (R5). -/
def State.stepping (s : State) : Nat := if s.part.stepB then 0x10 else 0

/-- STORE_ID of the Semaphore store (R421). -/
def State.storeId (s : State) : Nat := s.semNat 4 4

/-- The position in the chain (R556): 0 on a MAIN. -/
def State.cplPosition (s : State) : Nat := if s.part.cplRole then s.fld Reg.CPL_STAT 2 1 else 0

/-- CPL_STAT.PAIRED and DEGRADED (R562, R575). -/
def State.cplStatus (s : State) : State :=
  let on := [0, 1].filter fun p => s.bit Reg.CPL_CTL p
  let all := on.all fun p => s.cplState p == 3
  (s.setBit Reg.CPL_STAT 3 (!on.isEmpty && all)).setBit Reg.CPL_STAT 4 (!all)

/-- The generation that is arriving is discarded (R566). -/
def State.rxDiscard (s : State) : State :=
  (({ s with cpl := { s.cpl with rx := none, discards := s.cpl.discards + 1 } }).satInc Reg.CPL_DISCARD_CNT 31 0).fire 99

/-- A sweep that breaks at hop `h` (R574): nothing of it is kept, and the command ends with FAULT and reason CHAIN. -/
def State.sweepBreak (s : State) : State :=
  match s.cpl.sweep with
  | none => s
  | some w =>
    (({ s with cpl := { s.cpl with sweep := none } }).setRsp w.mb 2 (BitVec.ofNat 32 w.h)).mbReason w.mb 8 0 0x14 0

/-- Port `p` enters state `n` (R557): source 96 when PAIRED is entered or left; a generation that arrives, one that is being
sent, and a sweep do not survive a loss of PAIRED (R566, R574; log entry 70 for the one being sent). -/
def State.setCplState (s : State) (p n : Nat) : State :=
  let old := s.cplState p
  let s1 := s.setFld (cplReg Reg.CPL_PSTAT p) 2 0 n
  let s2 := if n = 2 then s1.setCplPort p { s1.cplPort p with sent := false, heard := false } else s1
  let s3 :=
    if old = 3 ∧ n ≠ 3 then
      let a := if p = 0 then (if s2.cpl.rx.isSome then s2.rxDiscard else s2)
        else ({ s2 with cpl := { s2.cpl with tx := none } }.setBit Reg.CPL_TX_CTL 31 false).sweepBreak
      a.fire 96
    else if old ≠ 3 ∧ n = 3 then
      let a := if p = 0 then { s2 with cpl := { s2.cpl with fresh := true } } else { s2 with cpl := { s2.cpl with next := 1 } }
      a.fire 96
    else s2
  s3.cplStatus

/-- Port `p` sends a frame of its own (R554). -/
def State.cplSend (s : State) (p ty : Nat) (arg : Word) (ws : List Word64) : State :=
  let q := s.cplPort p
  (s.emit (.cpl p ty q.seq arg ws)).setCplPort p { q with seq := (q.seq + 1) % 256 }

/-- A PARTNER passes a frame on unchanged through port `p` (R555), where that port is PAIRED. -/
def State.cplForward (s : State) (p ty : Nat) (f : CplFrame) : State :=
  if s.part.cplRole && s.cplState p == 3 then s.emit (.cpl p ty f.seq f.arg f.ws) else s

/-- The table of R555 allows a frame of type `ty` with that argument this many payload words. -/
def frameLenOk (ty : Nat) (arg : Word) (n : Nat) : Bool :=
  match ty with
  | 1 => n == 3
  | 3 => n == (if arg.getLsbD 31 then 1 else 0)
  | 5 => decide (1 ≤ n ∧ n ≤ 32) && bitsOf arg 7 0 == 0
  | 7 | 9 => n == 0
  | _ => n == 1

/-- A frame is discarded at port `p` (R555); `ofGen` when it belonged to the generation that is arriving (R566). -/
def State.frameError (s : State) (p : Nat) (ofGen : Bool) : State :=
  if s.cplState p = 2 ∨ s.cplState p = 3 then
    let s1 := (s.satInc (cplReg Reg.CPL_PERR p) 31 16).fire 103
    if ofGen && p == 0 && s1.cpl.rx.isSome then s1.rxDiscard else s1
  else s

/-- CPL_FRAME_ERROR. -/
def execCplFrameError (p : Nat) (ofGen : Bool) (s : State) : Host.Outcome State Fault Refusal := .next (s.frameError p ofGen)

/-- A frame of type `ty` arrives at port `p` with a correct CRC (R555, R557): what is accepted is given to `k`. -/
def State.frameIn (s : State) (p ty : Nat) (f : CplFrame) (k : State → State) : State :=
  if s.cplState p = 3 ∨ (s.cplState p = 2 ∧ ty = 1) then
    if frameLenOk ty f.arg f.ws.length then k s else s.frameError p (ty == 5)
  else if s.cplState p = 2 ∧ ty = 3 then s.cplSend p 4 6 [0]
  else s

/-- Payload word `i`. -/
def frameWord (f : CplFrame) (i : Nat) : Nat := (f.ws.getD i 0).toNat

/-- The first check of R558 that a HELLO fails at port `p`; 0 when it meets all. -/
def State.helloReason (s : State) (p : Nat) (f : CplFrame) : Nat :=
  let peer := f.arg.getLsbD 8
  let pos := bitsOf f.arg 1 0
  let role := if p = 1 then peer else s.part.cplRole
  let last := if p = 0 then pos else s.cplPosition
  if !role then 1
  else if natBits (frameWord f 1) 31 0 ≠ s.storeId then 2
  else if 3 ≤ last then 3
  else if natBits (frameWord f 0) 15 0 ≠ chipId % 65536 then 4
  else 0

/-- A port that has sent HELLO and accepted one is PAIRED (R558). -/
def State.pairIf (s : State) (p : Nat) : State :=
  if s.cplState p = 2 ∧ (s.cplPort p).sent ∧ (s.cplPort p).heard then s.setCplState p 3 else s

/-- A HELLO (R558): the position of a PARTNER follows from its port 0. -/
def State.hello (s : State) (p : Nat) (f : CplFrame) : State :=
  s.frameIn p 1 f fun s =>
    let s1 := if p = 1 then { s with cpl := { s.cpl with top := max s.cpl.top (bitsOf f.arg 1 0) } } else s
    if s1.cplState p = 2 then
      let r := s1.helloReason p f
      let s2 := s1.setFld (cplReg Reg.CPL_PSTAT p) 10 8 r
      if r = 0 then
        let s3 := if p = 0 then s2.setFld Reg.CPL_STAT 2 1 (bitsOf f.arg 1 0 + 1) else s2
        (s3.setCplPort p { s3.cplPort p with heard := true, chip := BitVec.ofNat 32 (frameWord f 0) }).pairIf p
      else s2
    else s1

/-- HELLO_SEND (R557). -/
def State.helloSend (s : State) (p : Nat) : State :=
  if s.cplState p = 2 then
    let arg := BitVec.ofNat 32 (s.cplPosition + (if s.part.cplRole then 256 else 0))
    let s1 := s.cplSend p 1 arg
      [BitVec.ofNat 64 (chipId + 2 ^ 32 * s.stepping), BitVec.ofNat 64 s.storeId, BitVec.ofNat 64 s.sm.version.toNat]
    (s1.setCplPort p { s1.cplPort p with sent := true }).pairIf p
  else s

/-- LANE_LOCK (R557). -/
def State.laneLock (s : State) (p : Nat) : State := if s.cplState p = 1 then s.setCplState p 2 else s

/-- LANE_LOCK. -/
def execLaneLock (p : Nat) (s : State) : Host.Outcome State Fault Refusal := .next (s.laneLock p)

/-- LANE_LOCK_LOST (R557). -/
def State.laneLost (s : State) (p : Nat) : State := if s.cplState p = 2 ∨ s.cplState p = 3 then s.setCplState p 4 else s

/-- LANE_LOCK_LOST. -/
def execLaneLockLost (p : Nat) (s : State) : Host.Outcome State Fault Refusal := .next (s.laneLost p)

/-- LOST_RETRAIN (R557). -/
def State.retrain (s : State) (p : Nat) : State := if s.cplState p = 4 then s.setCplState p 1 else s

/-- LOST_RETRAIN. -/
def execLostRetrain (p : Nat) (s : State) : Host.Outcome State Fault Refusal := .next (s.retrain p)

/-- CPL_CTL is written: a port that EN adds is TRAINING, one that EN does not name is OFF (R557). -/
def State.cplEnable (s : State) (v : Word) : State :=
  let s1 := s.codeWrite Reg.CPL_CTL v
  ([0, 1].foldl (fun t p =>
    if v.getLsbD p then (if s.bit Reg.CPL_CTL p then t else t.setCplState p 1)
    else if s.cplState p = 0 then t else t.setCplState p 0) s1).cplStatus

/-- A write to CPL_CTL: HB_LIMIT = 0 is refused (R575). -/
def State.cplCtl (s : State) (v : Word) : State × Resp :=
  if bitsOf v 31 28 = 0 then (s, .denied) else (s.cplEnable v, .ok)

/-- CPL_CTL_WRITE. -/
def execCplCtlWrite (v : Word) (s : State) : Host.Outcome State Fault Refusal := .next (s.cplCtl v).1

/-! Heartbeat (R560 to R562) -/

/-- HEARTBEAT_SEND (R560). -/
def State.heartbeatSend (s : State) (p : Nat) : State :=
  if s.cplState p = 3 then
    let gen := if s.part.cplRole then (s.reg Reg.CPL_RXGEN).toNat else 0
    s.cplSend p 2 (s.reg Reg.CPL_ALIVE)
      [BitVec.ofNat 64 (s.fld Reg.CPL_STAT 15 12 + 16 * s.fld Reg.CPL_STAT 4 4 + 2 ^ 32 * gen)]
  else s

/-- HEARTBEAT_SEND. -/
def execHeartbeatSend (p : Nat) (s : State) : Host.Outcome State Fault Refusal := .next (s.heartbeatSend p)

/-- A HEARTBEAT (R560, R561). -/
def State.heartbeat (s : State) (p : Nat) (f : CplFrame) : State :=
  s.frameIn p 2 f fun s =>
    let st := cplReg Reg.CPL_PSTAT p
    let q := s.cplPort p
    let same := if q.alive = some f.arg then q.same + 1 else 0
    let s1 := ((s.setFld st 31 28 (frameWord f 0)).setBit st 26 (decide (frameWord f 0 / 16 % 2 = 1))).setCplPort p
      { q with alive := some f.arg, same := same }
    if s.fld Reg.CPL_CTL 31 28 ≤ same then (if s1.bit st 27 then s1 else (s1.setBit st 27 true).fire 97)
    else if same = 0 then s1.setBit st 27 false
    else s1

/-- HEARTBEAT. -/
def execHeartbeat (p : Nat) (f : CplFrame) (s : State) : Host.Outcome State Fault Refusal := .next (s.heartbeat p f)

/-- HEARTBEAT_LIMIT (R560). -/
def State.heartbeatLimit (s : State) (p : Nat) : State :=
  if s.cplState p = 3 then
    ((({ s with cpl := { s.cpl with expiries := s.cpl.expiries + 1 } }).setCplState p 4).satInc (cplReg Reg.CPL_PERR p) 15 0).fire 97
  else s

/-- HEARTBEAT_LIMIT. -/
def execHeartbeatLimit (p : Nat) (s : State) : Host.Outcome State Fault Refusal := .next (s.heartbeatLimit p)

/-! Generations (R563 to R568) -/

/-- Word `w` of half `i` (0 and 1 transmit, 2 and 3 receive); a word never written is free. -/
def State.halfWord (s : State) (i w : Nat) : Word64 :=
  (Store.get (fun _ => none) s.cpl.halves (512 * i + w)).getD (Config.freeWord64 s.free (512 * i + w))

def State.setHalfWord (s : State) (i w : Nat) (v : Word64) : State :=
  { s with cpl := { s.cpl with halves := Store.set (fun _ => none) s.cpl.halves (512 * i + w) (some v) } }

/-- A write to half `i` (R564, R565): whole 64-bit words only, and not the half being sent. -/
def State.halfWrite (s : State) (i w : Nat) (v : Word64) (be : BitVec 8) : State × Resp :=
  if be ≠ 0xFF then (s, .narrow)
  else if s.cpl.tx.map Prod.fst = some i then (s, .denied)
  else (s.setHalfWord i w v, .ok)

/-- The first `n` words of half `i`. -/
def State.halfWords (s : State) (i n : Nat) : List Word64 := (List.range n).map (s.halfWord i)

/-- The first `n` bytes of half `i`. -/
def State.halfBytes (s : State) (i n : Nat) : List Byte :=
  ((s.halfWords i ((n + 7) / 8)).flatMap fun w => natLe 8 w.toNat).take n

/-- A write to CPL_TX_CTL (R565). SEND takes the half that is not the last sent, and the lengths of R575 only (log entry 71). -/
def State.txSend (s : State) (v : Word) : State :=
  let s1 := s.codeWrite Reg.CPL_TX_CTL v
  let len := bitsOf v 12 0
  if !v.getLsbD 16 then s1
  else if s.bit Reg.CPL_TX_CTL 31 || s.cplState 1 != 3 || decide (len < 64 ∨ 3200 < len ∨ len % 8 ≠ 0) then
    s1.setBit Reg.CPL_STAT 8 true
  else
    let half := 1 - s.fld Reg.CPL_TX_CTL 13 13
    let gen := s.reg Reg.CPL_TXGEN
    let ws := s.halfWords half (len / 8)
    let s2 := (s1.setFld Reg.CPL_TX_CTL 13 13 half).setBit Reg.CPL_TX_CTL 31 true
    let s3 := { s2 with cpl := { s2.cpl with tx := some (half, gen.toNat, len) } }
    ((List.range ((len + 255) / 256)).foldl (fun s k =>
      s.cplSend 1 5 (BitVec.ofNat 32 (bitsOf gen 15 0 * 2 ^ 16 + 256 * k)) ((ws.drop (32 * k)).take 32)) s3).useFree

/-- CPL_TX_SEND. -/
def execCplTxSend (v : Word) (s : State) : Host.Outcome State Fault Refusal := .next (s.txSend v)

/-- CPL_GEN_SENT (R565). -/
def State.genSent (s : State) : State :=
  match s.cpl.tx with
  | none => s
  | some (half, gen, len) =>
    let s1 := (s.cplSend 1 6 (BitVec.ofNat 32 gen) [BitVec.ofNat 64 (len + 2 ^ 32 * crc32 (s.halfBytes half len))]).useFree
    ({ s1 with cpl := { s1.cpl with tx := none } }.setBit Reg.CPL_TX_CTL 31 false).fire 100

/-- CPL_GEN_SENT. -/
def execCplGenSent (s : State) : Host.Outcome State Fault Refusal := .next s.genSent

/-- The receive half that is not active. -/
def State.rxHalf (s : State) : Nat := 2 + (1 - s.fld Reg.CPL_RX_STAT 16 16)

/-- A MIRROR frame at port 0 of a PARTNER (R566). -/
def State.mirrorIn (s : State) (p : Nat) (f : CplFrame) : State :=
  s.frameIn p 5 f fun s =>
    if !s.part.cplRole || p != 0 then s
    else
      let g := bitsOf f.arg 31 16
      let off := bitsOf f.arg 11 0
      let s1 := match s.cpl.rx with | some (h, _) => if h = g then s else s.rxDiscard | none => s
      let segs := match s1.cpl.rx with | some (_, l) => l | none => []
      let s2 := f.ws.zipIdx.foldl (fun s e => s.setHalfWord s.rxHalf (off / 8 + e.2) e.1) s1
      { s2 with cpl := { s2.cpl with rx := some (g, (off, f.ws.length) :: segs) } }.cplForward 1 5 f

/-- MIRROR. -/
def execMirror (p : Nat) (f : CplFrame) (s : State) : Host.Outcome State Fault Refusal := .next (s.mirrorIn p f)

/-- Every 256-byte segment up to `len` has arrived with GEN[15:0] = `g` (R566). -/
def segmentsIn (rx : Option (Nat × List (Nat × Nat))) (g len : Nat) : Bool :=
  match rx with
  | none => false
  | some (h, segs) =>
    h == g && decide (len ≤ 4096) &&
      (List.range ((len + 255) / 256)).all fun k =>
        segs.any fun e => e.1 == 256 * k && decide (min 256 (len - 256 * k) ≤ 8 * e.2)

/-- GEN is acceptable after the active generation (R566). -/
def State.genNew (s : State) (gen : Nat) : Bool :=
  let act := (s.reg Reg.CPL_RXGEN).toNat
  decide (act < gen) || (gen == 1 && (act == 0xFFFFFFFF || s.cpl.fresh))

/-- A COMMIT at port 0 of a PARTNER (R566, R568). -/
def State.commitIn (s : State) (p : Nat) (f : CplFrame) : State :=
  s.frameIn p 6 f fun s =>
    if !s.part.cplRole || p != 0 then s
    else
      let gen := f.arg.toNat
      let len := natBits (frameWord f 0) 12 0
      let half := s.rxHalf
      let ok := segmentsIn s.cpl.rx (gen % 65536) len && crc32 (s.halfBytes half len) == natBits (frameWord f 0) 63 32 && s.genNew gen
      let s0 := s.useFree
      let s1 :=
        if ok then
          let a := (((s0.setFld Reg.CPL_RX_STAT 16 16 (half - 2)).setFld Reg.CPL_RX_STAT 12 0 len).setReg Reg.CPL_RXGEN f.arg).setBit
            Reg.CPL_STAT 6 true
          let b := { a with cpl := { a.cpl with rx := none, fresh := false } }.fire 98
          let vec := ((s.halfBytes half 0x30).drop 0x10)
          let own := (List.range 8).flatMap fun k => natLe 4 (s.reg (Reg.TT_STATE + 4 * k)).toNat
          let n := if vec = own then 0 else s.cpl.differ + 1
          let c := { b with cpl := { b.cpl with differ := n % 3 } }
          if n = 3 then (c.setBit Reg.CPL_STAT 7 true).fire 101 else c
        else s0.rxDiscard
      s1.cplForward 1 6 f

/-- COMMIT. -/
def execCommit (p : Nat) (f : CplFrame) (s : State) : Host.Outcome State Fault Refusal := .next (s.commitIn p f)

/-! Vertical sync alignment and the sweep (R573, R574) -/

/-- A MARK that arrives at `ps` picoseconds at port 0 of a PARTNER (R573); it ends SRC_LOST of the pipes aligned to it. -/
def State.markIn (s : State) (p : Nat) (f : CplFrame) (ps : Nat) : State :=
  s.frameIn p 9 f fun s =>
    if !s.part.cplRole || p != 0 then s
    else
      let s1 := { s with cpl := { s.cpl with mark := some ((ps : Int) - 1000 * (s.fld Reg.CPL_SWEEP_STAT 15 0 : Nat)) } }
      ((List.range 4).foldl (fun s q =>
        if s.markLocked q && !s.bit (pipeReg Reg.PIPE_LOCK q) 0 && s.bit (pipeReg Reg.LOCK_STAT q) 1 then
          (s.setBit (pipeReg Reg.LOCK_STAT q) 1 false).fire 43
        else s) s1).cplForward 1 9 f

/-- MARK. -/
def execMark (p : Nat) (f : CplFrame) (ps : Nat) (s : State) : Host.Outcome State Fault Refusal := .next (s.markIn p f ps)

/-- A write to CPL_SYNC (R573, R575). -/
def State.cplSync (s : State) (v : Word) : State × Resp :=
  if v.getLsbD 0 && (List.range 4).any fun p => v.getLsbD (4 + p) && s.bit (pipeReg Reg.PIPE_LOCK p) 0 then
    (s.setBit Reg.CPL_STAT 8 true, .denied)
  else (s.codeWrite Reg.CPL_SYNC v, .ok)

/-- CPL_SYNC_WRITE. -/
def execCplSyncWrite (v : Word) (s : State) : Host.Outcome State Fault Refusal := .next (s.cplSync v).1

/-- A PROBE at port 0 of a PARTNER (R574): answered, after `ta` ns, by the device it names, or passed on. -/
def State.probeIn (s : State) (p : Nat) (f : CplFrame) (ta : Nat) : State :=
  s.frameIn p 7 f fun s =>
    if !s.part.cplRole || p != 0 then s
    else if bitsOf f.arg 1 0 = s.cplPosition then s.cplSend 0 8 (BitVec.ofNat 32 s.cplPosition) [BitVec.ofNat 64 ta]
    else if s.cplPosition < bitsOf f.arg 1 0 then s.cplForward 1 7 f
    else s

/-- PROBE. -/
def execProbe (p : Nat) (f : CplFrame) (ta : Nat) (s : State) : Host.Outcome State Fault Refusal := .next (s.probeIn p f ta)

/-- The sweep is over (R574): the hop delays, an ALIGN to every PARTNER, and DONE. -/
def State.sweepDone (s : State) (w : Sweep) : State :=
  let hops := w.cum.zipIdx.map fun e => (e.2 + 1, e.1, e.1 - (if e.2 = 0 then 0 else w.cum.getD (e.2 - 1) 0))
  let s1 := hops.foldl (fun s e =>
    ((s.setFld (Reg.CPL_HOPDLY + 4 * ((e.1 - 1) % 3)) 15 0 (BitVec.ofInt 16 e.2.2).toNat).setRsp w.mb (e.1 + 1) (BitVec.ofInt 32 e.2.2)).cplSend 1
      0xA (BitVec.ofNat 32 e.1) [BitVec.ofInt 64 e.2.1]) { s with cpl := { s.cpl with sweep := none } }
  let s2 := ((s1.setBit Reg.CPL_SWEEP_STAT 31 true).setFld Reg.CPL_SWEEP_STAT 17 16 w.hops).setFld Reg.CPL_SWEEP_STAT 15 0 0
  (s2.setRsp w.mb 1 (BitVec.ofNat 32 w.hops)).mbDone w.mb 0 0 (4 + 4 * w.hops)

/-- An ECHO (R574): at port 1 of a MAIN it ends the round trip of `rtt` ns; a PARTNER passes it upstream. -/
def State.echoIn (s : State) (p : Nat) (f : CplFrame) (rtt : Nat) : State :=
  s.frameIn p 8 f fun s =>
    if p != 1 then s
    else if s.part.cplRole then s.cplForward 0 8 f
    else match s.cpl.sweep with
      | none => s
      | some w =>
        if bitsOf f.arg 1 0 ≠ w.h then s
        else
          let w1 := { w with h := w.h + 1, cum := w.cum ++ [((rtt : Int) - (frameWord f 0 : Nat)) / 2] }
          if w.h < w.hops then ({ s with cpl := { s.cpl with sweep := some w1 } }).cplSend 1 7 (BitVec.ofNat 32 w1.h) []
          else s.sweepDone w1

/-- ECHO. -/
def execEcho (p : Nat) (f : CplFrame) (rtt : Nat) (s : State) : Host.Outcome State Fault Refusal := .next (s.echoIn p f rtt)

/-- PROBE_TIMEOUT (R574). -/
def execProbeTimeout (s : State) : Host.Outcome State Fault Refusal := .next s.sweepBreak

/-- An ALIGN at port 0 of a PARTNER (R574). -/
def State.alignIn (s : State) (p : Nat) (f : CplFrame) : State :=
  s.frameIn p 0xA f fun s =>
    if !s.part.cplRole || p != 0 then s
    else if bitsOf f.arg 1 0 = s.cplPosition then s.setFld Reg.CPL_SWEEP_STAT 15 0 (frameWord f 0)
    else if s.cplPosition < bitsOf f.arg 1 0 then s.cplForward 1 0xA f
    else s

/-- ALIGN. -/
def execAlign (p : Nat) (f : CplFrame) (s : State) : Host.Outcome State Fault Refusal := .next (s.alignIn p f)

/-! Peer register access as the requester (R572) -/

/-- A write to CPL_PACC_CTL (R572, R575). -/
def State.paccGo (s : State) (v : Word) : State :=
  let busy := s.bit Reg.CPL_PACC_CTL 31 || s.bit Reg.CPL_PACC_CTL 30
  let s1 := s.codeWrite Reg.CPL_PACC_CTL v
  if !v.getLsbD 29 || busy then s1
  else
    let p := if v.getLsbD 28 then 1 else 0
    let wr := v.getLsbD 24
    let s2 := { s1 with cpl := { s1.cpl with pacc := some (p, wr) } }.setBit Reg.CPL_PACC_CTL 31 true
    if s2.cplState p = 3 then
      s2.cplSend p 3 (BitVec.ofNat 32 (bitsOf v 13 0 + (if wr then 2 ^ 31 else 0)))
        (if wr then [BitVec.ofNat 64 (s2.reg Reg.CPL_PACC_DATA).toNat] else [])
    else s2

/-- PACC_GO. -/
def execPaccGo (v : Word) (s : State) : Host.Outcome State Fault Refusal := .next (s.paccGo v)

/-- The peer access completes with response `r`: source 102. -/
def State.paccDone (s : State) (r : Nat) : State :=
  ((({ s with cpl := { s.cpl with pacc := none } }).setFld Reg.CPL_PACC_CTL 18 16 r).setFld Reg.CPL_PACC_CTL 31 30 1).fire 102

/-- A RSP (R572). -/
def State.rspIn (s : State) (p : Nat) (f : CplFrame) : State :=
  s.frameIn p 4 f fun s =>
    match s.cpl.pacc with
    | none => s
    | some (q, wr) =>
      if q ≠ p then s
      else (if wr then s else s.setReg Reg.CPL_PACC_DATA (BitVec.ofNat 32 (frameWord f 0))).paccDone (bitsOf f.arg 2 0)

/-- RSP. -/
def execRsp (p : Nat) (f : CplFrame) (s : State) : Host.Outcome State Fault Refusal := .next (s.rspIn p f)

/-- No RSP within 100 us of the REQ: TIMEOUT (R572). -/
def State.paccTimeout (s : State) : State := if s.cpl.pacc.isSome then s.paccDone 3 else s

/-- PEER_ACCESS_TIMEOUT. -/
def execPeerAccessTimeout (s : State) : Host.Outcome State Fault Refusal := .next s.paccTimeout

/-- A write to the Coupler block at a key that names a register (R575). -/
def State.cplWrite (s : State) (ini a : Nat) (v : Word) : State × Resp :=
  if ini ≠ 0 then (s, .denied)
  else if a = Reg.CPL_CTL then s.cplCtl v
  else if a = Reg.CPL_SYNC then s.cplSync v
  else if a = Reg.CPL_TX_CTL then (s.txSend v, .ok)
  else if a = Reg.CPL_PACC_CTL then (s.paccGo v, .ok)
  else (s.codeWrite a v, .ok)

end Sys2Proof.Machine
end

