-- ==== Sys2Proof/Machine/Tree.lean ====
section
/-! DEFINITION. The Junction tree (chapter 08): where an address leads, the checks of the root, fences, the Timetable, the
firewall's commit, link errors and timeouts. -/

namespace Sys2Proof.Machine

/-! Addresses (R32, R33, R331) -/

/-- The port that answers for register key `k` (R331). -/
def regPort (k : Nat) : Nat :=
  if k < 0x2000 then 49
  else if (0x5000 ≤ k ∧ k < 0x6000) ∨ (0x16000 ≤ k ∧ k < 0x17000) then 53
  else if 0x18000 ≤ k ∧ k < 0x1A000 then 51
  else if 0x1A000 ≤ k ∧ k < 0x1C000 then 50
  else 59

/-- The port that an address leads to; none where the address is reserved (R32, R33, R344). `usable` is the usable capacity
of LPDDR5. -/
def portOf (usable addr : Nat) : Option Nat :=
  if addr < 0x800000 then some 57
  else if 0x1000000 ≤ addr ∧ addr < 0x1040000 then some 58
  else if 0x2000000 ≤ addr ∧ addr < 0x3000000 then some (regPort (addr - 0x2000000))
  else if 2 ^ 32 ≤ addr ∧ addr < 2 ^ 32 + usable then some (60 + natBits addr 9 8)
  else if 2 ^ 51 ≤ addr ∧ addr < 2 ^ 52 then some 48
  else none

/-- The secure region and the internal control registers answer INIT 0 only (R33). -/
def privileged (addr : Nat) : Bool :=
  decide ((0x1000000 ≤ addr ∧ addr < 0x1040000) ∨ (0x2010000 ≤ addr ∧ addr < 0x3000000))

/-! The checks of the root (R338, R340, R353 to R355) -/

/-- Active window `w` permits a request of `len` bytes at `addr` (R355, R359). -/
def State.windowAllows (s : State) (w ini addr len : Nat) (write : Bool) : Bool :=
  let r := fun k => Reg.act (k + 0x20 * w)
  let base := s.fld (r Reg.WIN_BASE_LO) 31 12 * 2 ^ 12 + s.fld (r Reg.WIN_BASE_HI) 19 0 * 2 ^ 32
  let limit := s.fld (r Reg.WIN_LIMIT_LO) 31 12 * 2 ^ 12 + 0xFFF + s.fld (r Reg.WIN_LIMIT_HI) 19 0 * 2 ^ 32
  s.bit (r Reg.WIN_CTL) 0 && decide (base ≤ addr ∧ addr + len ≤ limit + 1) && s.bit (r Reg.WIN_MASK) ini &&
    s.bit (r Reg.WIN_CTL) (if write then 2 else 1)

/-- Some active window permits the request. -/
def State.fwAllows (s : State) (ini addr len : Nat) (write : Bool) : Bool :=
  (List.range 32).any fun w => s.windowAllows w ini addr len write

/-- The request breaks R338. -/
def malformed (port addr len : Nat) (write : Bool) : Bool :=
  let crosses := decide (addr / 256 ≠ (addr + len - 1) / 256)
  if write then crosses || decide (addr % 8 ≠ 0)
  else if port = 57 then crosses && decide (8 < len)
  else crosses || (if len ≤ 8 then decide (addr % len ≠ 0) else decide (addr % 8 ≠ 0 ∨ len % 8 ≠ 0))

/-- The fence state of a port: 0 OPEN, 1 DRAINING, 2 FENCED (R353). -/
def State.fence (s : State) (p : Nat) : Nat := Store.get (fun _ => 0) s.jt.fences p

def State.setFence (s : State) (p n : Nat) : State := { s with jt := { s.jt with fences := Store.set (fun _ => 0) s.jt.fences p n } }

/-- A denial of the firewall (R355). -/
def State.fwDenied (s : State) (ini addr : Nat) (write : Bool) : State :=
  ((s.satInc Reg.FW_DENY_CNT 31 0).record Reg.FW_DENY_HI fun s =>
    (((s.setReg Reg.FW_DENY_LO (BitVec.ofNat 32 addr)).setBit Reg.FW_DENY_HI 29 write).setFld Reg.FW_DENY_HI 28 24 ini).setFld
      Reg.FW_DENY_HI 19 0 (addr / 2 ^ 32)).fire 86

/-- An event of the JT_ERR_STAT record (R360). -/
def State.jtError (s : State) (kind port ini tag addr : Nat) : State :=
  s.record Reg.JT_ERR_STAT fun s =>
    (((((s.setFld Reg.JT_ERR_STAT 29 27 kind).setFld Reg.JT_ERR_STAT 25 20 port).setFld Reg.JT_ERR_STAT 19 15 ini).setFld
      Reg.JT_ERR_STAT 14 7 tag).setReg Reg.JT_ERR_ADDR_LO (BitVec.ofNat 32 addr)).setReg Reg.JT_ERR_ADDR_HI
      (BitVec.ofNat 32 (addr / 2 ^ 32 % 2 ^ 20))

/-- What becomes of a read or write when it has left its interface: the port it is delivered to, or the response it gets
(R33, R338, R340, R355). -/
def State.route (s : State) (usable src ini tag addr len : Nat) (write : Bool) : State × (Nat ⊕ Resp) :=
  match portOf usable addr, portOf usable (addr + (len - 1)) with
  | some p, some _ =>
    if privileged addr && ini != 0 then (s, .inr .denied)
    else if !s.fwAllows ini addr len write then (s.fwDenied ini addr write, .inr .denied)
    else if s.fence p != 0 || malformed p addr len write then (s, .inr .slverr)
    else (s, .inl p)
  | _, _ => (s.jtError 3 src ini tag addr, .inr .decerr)

/-! The requests under way -/

/-- The request of initiator port `src` with tag `tag`. -/
def State.txn (s : State) (src tag : Nat) : Option Txn := s.jt.txns.find? fun t => t.src == src && t.tag == tag

/-- Change that request; none removes it. -/
def State.updTxn (s : State) (src tag : Nat) (f : Txn → Option Txn) : State :=
  { s with jt := { s.jt with txns := s.jt.txns.filterMap fun t => if t.src == src && t.tag == tag then f t else some t } }

/-- Put it in a stage. -/
def State.txnStage (s : State) (src tag : Nat) (g : Stage) : State := s.updTxn src tag fun t => some { t with stage := g }

/-- The packet's header has passed the root's check: it is at its target, or its response or its loss is under way. -/
def Txn.sent (t : Txn) : Bool :=
  match t.stage with | .delivered _ => true | .answered _ _ => true | .lost _ => true | _ => false

/-- The request has timed out, and its tag waits in quarantine (R346). -/
def Txn.late (t : Txn) : Bool := match t.stage with | .quarantined _ => true | _ => false

/-! Fences (R353) -/

/-- The register among two, one bit a port, that holds the bit of port `p`. -/
def fenceReg (r p : Nat) : Nat := r + 4 * (p / 32 % 2)

/-- Ports that can be fenced: the populated ones but 56 and 59. -/
def fenceable (p : Nat) : Bool :=
  decide (p < 4 ∨ (16 ≤ p ∧ p < 20) ∨ (32 ≤ p ∧ p < 38) ∨ (48 ≤ p ∧ p < 54) ∨ p = 57 ∨ p = 58 ∨ (60 ≤ p ∧ p < 64))

/-- The JT_FENCE bit of a port is written. -/
def State.fencePort (s : State) (p : Nat) (req : Bool) : State :=
  if !fenceable p then s
  else
    let s1 := s.setBit (fenceReg Reg.JT_FENCE p) (p % 32) req
    if req then (if s.fence p = 0 then s1.setFence p 1 else s1)
    else (s1.setFence p 0).setBit (fenceReg Reg.JT_FENCED p) (p % 32) false

/-- A write to JT_FENCE_LO or JT_FENCE_HI. -/
def State.fenceWrite (s : State) (hi : Bool) (v : Word) : State :=
  (List.range 32).foldl (fun s b => s.fencePort (b + if hi then 32 else 0) (v.getLsbD b)) s

/-- JT_FENCE_WRITE. -/
def execJtFenceWrite (hi : Bool) (v : Word) (s : State) : Host.Outcome State Fault Refusal := .next (s.fenceWrite hi v)

/-- Every request from and to the port has had its response or TIMEOUT. -/
def State.drained (s : State) (p : Nat) : Bool :=
  !s.jt.txns.any fun t => t.sent && (t.src == p || t.dst == p)

/-- FENCE_DONE: a DRAINING port that is drained is FENCED. -/
def State.fenceDone (s : State) (p : Nat) : State :=
  if s.fence p = 1 ∧ s.drained p then
    let s1 := { s with jt := { s.jt with
      txns := s.jt.txns.filter fun t => !(t.late && (t.src == p || t.dst == p)) } }
    ((s1.setFence p 2).setBit (fenceReg Reg.JT_FENCED p) (p % 32) true).fire 80
  else s

/-! The Timetable (R348, R349) -/

/-- The entry of slot `i` of table `t`. -/
abbrev ttEntry (t i : Nat) : Nat := 0x12400 + 0x100 * (t % 2) + 4 * (i % 64)

/-- The valid owners of an entry, with their quanta. -/
def ttOwners (v : Word) : List (Nat × Nat) :=
  (List.range 4).filterMap fun k =>
    if v.getLsbD (8 * k + 7) then some (bitsOf v (8 * k + 4) (8 * k), bitsOf v (8 * k + 6) (8 * k + 5) + 1) else none

/-- No value appears twice. -/
def distinct : List Nat → Bool
  | [] => true
  | a :: t => !t.contains a && distinct t

/-- The entry breaks R349. -/
def ttBad (v : Word) : Bool :=
  let o := ttOwners v
  o.any (fun e => decide (e.1 < 8 ∨ 17 < e.1)) || !distinct (o.map Prod.fst) || decide (4 < (o.map Prod.snd).foldl (· + ·) 0)

/-- A refused write of the Junction block (R349, R361). -/
def State.jtRefused (s : State) : State × Resp := (s.setBit Reg.JT_ERR_STAT 0 true, .denied)

/-- A write of a slot entry. -/
def State.ttWrite (s : State) (t i : Nat) (v : Word) : State × Resp :=
  if 2 ≤ t ∨ 64 ≤ i then (s, .ok)
  else if s.fld Reg.TT_CTL 0 0 = t ∨ ttBad v then s.jtRefused
  else (s.codeWrite (ttEntry t i) v, .ok)

/-- TT_ENTRY_WRITE. -/
def execTtEntryWrite (table slot : Nat) (v : Word) (s : State) : Host.Outcome State Fault Refusal := .next (s.ttWrite table slot v).1

/-- A write of TT_CTL.SWITCH = 1. -/
def State.ttSwitch (s : State) : State := s.setBit Reg.TT_CTL 8 true

/-- TT_CTL_SWITCH. -/
def execTtCtlSwitch (s : State) : Host.Outcome State Fault Refusal := .next s.ttSwitch

/-- The first tick of slot `i`: a pending switch takes effect at slot 0, and the slot's owners get their credits; credits
of the slot before are lost. -/
def State.ttSlot (s : State) (i : Nat) : State :=
  let i := i % 64
  let s1 :=
    if i = 0 ∧ s.bit Reg.TT_CTL 8 then ((s.setFld Reg.TT_CTL 0 0 (1 - s.fld Reg.TT_CTL 0 0)).setBit Reg.TT_CTL 8 false).fire 83 else s
  { s1 with jt := { s1.jt with slot := i, credits := ttOwners (s1.reg (ttEntry (s1.fld Reg.TT_CTL 0 0) i)) } }

/-- TIMETABLE_SLOT. -/
def execTimetableSlot (slot : Nat) (s : State) : Host.Outcome State Fault Refusal := .next (s.ttSlot slot)

/-- A guaranteed request of initiator `ini` may leave, and how: 0 it is held, 1 with a credit or unregulated, 2 as best
effort under TT_SPILL. -/
def State.ttMay (s : State) (ini : Nat) : Nat :=
  if !s.bit Reg.TT_CTL 1 then 1
  else if s.jt.credits.any fun e => e.1 == ini && decide (0 < e.2) then 1
  else if s.bit Reg.TT_SPILL ini then 2
  else 0

/-- It costs one credit. -/
def State.ttSpend (s : State) (ini : Nat) : State :=
  if s.bit Reg.TT_CTL 1 then
    { s with jt := { s.jt with credits := s.jt.credits.map fun e => if e.1 = ini then (e.1, e.2 - 1) else e } }
  else s

/-- GUAR_STARVED: an owner that holds a request for a whole period without gaining a credit. -/
def State.guarStarved (s : State) (ini : Nat) : State :=
  if s.bit Reg.TT_CTL 1 && s.jt.txns.any fun t => t.init == ini && t.guar && t.stage == Stage.issued then
    (s.setBit Reg.JT_STARVE ini true).fire 84
  else s

/-- GUAR_STARVED. -/
def execGuarStarved (ini : Nat) (s : State) : Host.Outcome State Fault Refusal := .next (s.guarStarved ini)

/-! The firewall's commit and the timeouts' limits (R354, R361) -/

/-- A write of FW_CTL.COMMIT = 1. -/
def State.fwCommit (s : State) : State := s.setBit Reg.FW_CTL 1 true

/-- FW_COMMIT. -/
def execFwCommit (s : State) : Host.Outcome State Fault Refusal := .next s.fwCommit

/-- Register `j` of window `w` (R360): BASE_LO, BASE_HI, LIMIT_LO, LIMIT_HI, MASK, CTL. -/
def winReg (w j : Nat) : Nat := Reg.WIN_BASE_LO + 0x20 * (w % 32) + 4 * (j % 6)

/-- The root takes the staged windows. -/
def State.fwTake (s : State) : State :=
  if s.bit Reg.FW_CTL 1 then
    ((List.range 32).foldl (fun s w =>
      (List.range 6).foldl (fun s j => s.setReg (Reg.act (winReg w j)) (s.reg (winReg w j))) s) s).setBit Reg.FW_CTL 1 false
  else s

/-- FW_COMMIT_APPLIED. -/
def execFwCommitApplied (s : State) : Host.Outcome State Fault Refusal := .next s.fwTake

/-- A write to JT_TMOp, p = 48 to 63. -/
def State.tmoWrite (s : State) (p : Nat) (v : Word) : State × Resp :=
  if p < 48 ∨ 64 ≤ p then (s, .ok)
  else if bitsOf v 9 0 = 0 ∨ 1000 < bitsOf v 9 0 then s.jtRefused
  else (s.codeWrite (Reg.JT_TMO + 4 * ((p - 48) % 16)) v, .ok)

/-- JT_TMO_WRITE. -/
def execJtTmoWrite (p : Nat) (v : Word) (s : State) : Host.Outcome State Fault Refusal := .next (s.tmoWrite p v).1

/-- A write to the Junction and Timetable registers at a key that names a register (R360). -/
def State.jtWrite (s : State) (a : Nat) (v : Word) : State × Resp :=
  if a = Reg.TT_CTL then let s1 := s.codeWrite a v; (if v.getLsbD 4 then s1.ttSwitch else s1, .ok)
  else if a = Reg.JT_FENCE then (s.fenceWrite false v, .ok)
  else if a = Reg.JT_FENCE + 4 then (s.fenceWrite true v, .ok)
  else if Reg.JT_TMO ≤ a ∧ a < Reg.JT_TMO + 0x40 then s.tmoWrite (48 + (a - Reg.JT_TMO) / 4) v
  else if 0x12400 ≤ a ∧ a < 0x12600 then s.ttWrite ((a - 0x12400) / 0x100) ((a - 0x12400) % 0x100 / 4) v
  else (s.codeWrite a v, .ok)

/-- A write to the firewall block (R357, R358). -/
def State.fwWrite (s : State) (ini a : Nat) (v : Word) : State × Resp :=
  if ini ≠ 0 then (s, .denied)
  else if a = Reg.FW_CTL then (if v.getLsbD 0 then s.fwCommit else s, .ok)
  else (s.codeWrite a v, .ok)

/-! Link errors (R352) -/

/-- A packet with a corrupt header is discarded at `port`: the request `src`, `tag`, or its response. -/
def State.corruptHeader (s : State) (port src tag : Nat) (response : Bool) : State :=
  let s1 := s.updTxn src tag fun t =>
    match t.stage with
    | .quarantined _ => if response then none else some t
    | .answered _ _ => some { t with stage := if response then .lost true else t.stage }
    | .issued => some { t with stage := if response then t.stage else .lost false }
    | .delivered _ => some { t with stage := .lost response }
    | .lost _ => some t
  (s1.jtError 0 port 0 tag 0).fire 81

/-- CORRUPT_HEADER. -/
def execCorruptHeader (port src tag : Nat) (response : Bool) (s : State) : Host.Outcome State Fault Refusal :=
  .next (s.corruptHeader port src tag response)

end Sys2Proof.Machine
end

