-- ==== Sys2Proof/Machine/Fabric.lean ====
section
/-! DEFINITION. The fabric (chapter 15): the cell, the configuration image and its checks, the configuration states, the
configuration flash, user registers, interrupts and readback. The layout of an image's body is the Akxus toolkit's, and so
what a loaded design computes is not in the spec: the values its flip-flops show come with FAB_SNAP. -/

namespace Sys2Proof.Machine

/-! The cell (R578 to R580) -/

/-- The encodings of R578 and R579 that are reserved. -/
def cellReserved (i : Word) : Bool := decide (0x11 < bitsOf i 31 27) || decide (bitsOf i 18 16 ≠ 0)

/-- Operand selection (R578). -/
def cellOperand (sel : Nat) (input yr imm : Nat) : Nat :=
  match sel with | 0 => input | 1 => yr | 2 => imm | _ => 0

/-- The signed value of 16 bits, when the operation is signed. -/
def cellVal (sgn : Bool) (n : Nat) : Int := if sgn then (BitVec.ofNat 16 n).toInt else n

/-- Y, C and F of a cell whose entry is `i` (R579): inputs `a` and `b`, its own YR, C and F registers, and the carry of the
cell below, which is 0 for row 0. -/
def cellOut (i : Word) (a b yr : Nat) (below ownC ownF : Bool) : Nat × Bool × Bool :=
  let sgn := i.getLsbD 19
  let x := cellOperand (bitsOf i 26 25) a yr (bitsOf i 15 0)
  let y := cellOperand (bitsOf i 24 23) b yr (bitsOf i 15 0)
  let cin := match bitsOf i 21 20 with | 0 => 0 | 1 => 1 | 2 => below.toNat | _ => ownC.toNat
  let vx := cellVal sgn x
  let vy := cellVal sgn y
  let sh := y % 16
  let sum := fun z : Nat =>
    let t := x + z + cin
    let r := t % 65536
    (r, decide (65536 ≤ t), (x / 32768 == z / 32768) && (r / 32768 != x / 32768))
  let plain := fun r : Nat => (r % 65536, false, decide (r % 65536 ≠ 0))
  match bitsOf i 31 27 with
  | 0x00 => plain x
  | 0x01 => sum y
  | 0x02 => sum (65535 - y)
  | 0x03 => plain (x &&& y)
  | 0x04 => plain (x ||| y)
  | 0x05 => plain (x ^^^ y)
  | 0x06 => plain (x &&& (65535 - y))
  | 0x07 => let r := x * 2 ^ sh % 65536; (r, decide (0 < sh) && decide (x / 2 ^ (16 - sh) % 2 = 1), decide (r ≠ 0))
  | 0x08 =>
    let r := (BitVec.ofInt 16 (vx / 2 ^ sh)).toNat
    (r, decide (0 < sh) && decide (x / 2 ^ (sh - 1) % 2 = 1), decide (r ≠ 0))
  | 0x09 => plain (x * 2 ^ sh % 65536 + x / 2 ^ (16 - sh))
  | 0x0A => if vy < vx then (y, false, true) else (x, false, false)
  | 0x0B => if vx < vy then (y, false, true) else (x, false, false)
  | 0x0C => (x, false, decide (vx < vy))
  | 0x0D => (x, false, x == y)
  | 0x0E => (x * y % 65536, false, decide (65536 ≤ x * y))
  | 0x0F => ((BitVec.ofInt 32 (vx * vy)).toNat / 65536, false, false)
  | 0x10 => let r := x / 2 ^ sh % 2; (r, false, r == 1)
  | _ => (if ownF then x else y, false, ownF)

/-- Cell 4q of a quad with QMODE = MUX64 (R580), from the A and B of its four cells. -/
def quadOut (a b : List Nat) : Nat :=
  let s := (b.getD 0 0 / 16 % 4) * 16
  let part := fun k => if s / 16 = k then a.getD k 0 / 2 ^ (b.getD k 0 % 16) % 2 else 0
  part 0 + part 1 + part 2 + part 3

/-! Images (R585, R586) -/

/-- The `n` bytes at offset `o` of an image, as a number. -/
def imgNat (b : List Byte) (o n : Nat) : Nat := leNat ((b.drop o).take n)

/-- The header and the length suit R586. -/
def fabHeaderOk (b : List Byte) : Bool :=
  imgNat b 0 4 == 0x42414650 && imgNat b 4 2 == 1 && imgNat b 6 2 == 64 &&
    decide (5 ≤ imgNat b 0x1C 2 ∧ imgNat b 0x1C 2 ≤ 250) && decide (5 ≤ imgNat b 0x1E 2 ∧ imgNat b 0x1E 2 ≤ 250) &&
    decide (2 ≤ imgNat b 0x1A 2 ∧ imgNat b 0x1A 2 ≤ 1024) && b.length == 0x80 + imgNat b 0xC 4

/-- The body matches BODYCRC. -/
def fabCrcOk (b : List Byte) : Bool := crc32 ((b.drop 0x40).take (imgNat b 0xC 4)) == imgNat b 0x10 4

/-- FAB_STAT.STATE: 0 EMPTY, 1 LOADING, 2 HELD, 3 RELEASING, 4 RUNNING, 5 FAILED (R587). -/
def State.fabState (s : State) : Nat := s.fld Reg.FAB_STAT 2 0

def State.setFabState (s : State) (n : Nat) : State := s.setFld Reg.FAB_STAT 2 0 n

/-- A write that the state does not permit (R588). -/
def State.fabRefused (s : State) : State := s.setBit Reg.FAB_STAT 4 true

/-- The registers that describe the flash content (R599). -/
def State.fabFlashShow (s : State) : State :=
  let b := s.fab.flash
  let ok := fabHeaderOk b && fabCrcOk b
  ((s.setReg Reg.FAB_FLASH_STAT (if ok then BitVec.ofNat 32 (1 + 2 * (imgNat b 0x19 1 % 4)) else 0)).setReg Reg.FAB_FLASH_VER
    (if ok then BitVec.ofNat 32 (imgNat b 8 4) else 0)).setReg Reg.FAB_FLASH_CRC (if ok then BitVec.ofNat 32 (imgNat b 0x10 4) else 0)

/-- A load from the flash begins; `auto` when a start or wake begins it. -/
def State.fabLoadFlash (s : State) (auto : Bool) : State :=
  { s with fab := { s.fab with stream := false, auto := auto, got := s.fab.flash } }.setFabState 1

/-- The fabric's own power-on (R588, R593). -/
def State.fabPowerOn (s : State) : State :=
  let s1 := { s with fab := { s.fab with image := [], imageStream := false, prog := none, shadow := [] } }.fabFlashShow
  if s1.bit Reg.FAB_FLASH_STAT 0 && s1.bit Reg.FAB_FLASH_STAT 1 then s1.fabLoadFlash true else s1.setFabState 0

/-- The load in progress still lacks bytes (R589). -/
def State.fabShort (s : State) : Bool := s.fab.stream && decide (s.fab.got.length < s.fld Reg.FAB_CFG_LEN 17 0)

/-- A start of a load is permitted (R588, R589). -/
def State.fabMayStart (s : State) : Bool := [0, 2, 5].contains s.fabState || (s.fabState == 1 && s.fabShort)

/-- FAB_CTL.START_FLASH = 1 (R588, R592). -/
def State.fabStartFlash (s : State) : State :=
  if s.fabMayStart && !s.bit Reg.FAB_FLASH_CTL 8 then s.fabLoadFlash false else s.fabRefused

/-- FAB_START_FLASH. -/
def execFabStartFlash (s : State) : Host.Outcome State Fault Refusal := .next s.fabStartFlash

/-- FAB_CTL.START_STREAM = 1 (R588, R589). -/
def State.fabStartStream (s : State) : State :=
  if s.fabMayStart then { s with fab := { s.fab with stream := true, auto := false, got := [] } }.setFabState 1 else s.fabRefused

/-- FAB_START_STREAM. -/
def execFabStartStream (s : State) : Host.Outcome State Fault Refusal := .next s.fabStartStream

/-- A write to FAB_CFG_DATA (R589). -/
def State.fabData (s : State) (v : Word) : State × Resp :=
  if s.fabState == 1 && s.fabShort then
    ({ s with fab := { s.fab with got := (s.fab.got ++ natLe 4 v.toNat).take (s.fld Reg.FAB_CFG_LEN 17 0) } }, .ok)
  else (s, .denied)

/-- FAB_CFG_DATA_WRITE. -/
def execFabCfgDataWrite (v : Word) (s : State) : Host.Outcome State Fault Refusal := .next (s.fabData v).1

/-- A load fails with FORMAT_ERR or CRC_ERR (R586). -/
def State.fabFail (s : State) (bit : Nat) : State :=
  ((({ s with fab := { s.fab with got := [] } }.setFabState 5).setBit Reg.FAB_STAT bit true).setFld Reg.FAB_STAT 15 8 0
    |>.setReg Reg.FAB_CRC 0).setReg Reg.FAB_VERSION 0 |>.fire 112

/-- A load ends (R586, R588). `bad`: the body holds a reserved encoding. -/
def State.fabLoaded (s : State) (bad : Bool) : State :=
  if s.fabState ≠ 1 ∨ s.fabShort then s
  else
    let b := s.fab.got
    if !fabHeaderOk b || bad then s.fabFail 6
    else if !fabCrcOk b then s.fabFail 5
    else
      let s1 := { s with fab := { s.fab with got := [], image := b, imageStream := s.fab.stream } }
      let s2 := ((s1.setFld Reg.FAB_STAT 15 8 (imgNat b 0x18 1)).setReg Reg.FAB_CRC (BitVec.ofNat 32 (imgNat b 0x10 4))).setReg
        Reg.FAB_VERSION (BitVec.ofNat 32 (imgNat b 8 4))
      if s.fab.auto && decide (imgNat b 0x19 1 / 2 % 2 = 1) then
        ({ s2 with fab := { s2.fab with stage := 0 } }.setFabState 3).fire 112
      else (s2.setFabState 2).fire 112

/-- FAB_CTL.RELEASE = 1 (R588, R590). -/
def State.fabRelease (s : State) : State :=
  if s.fabState = 2 then { s with fab := { s.fab with stage := 0 } }.setFabState 3 else s.fabRefused

/-- FAB_RELEASE. -/
def execFabRelease (s : State) : Host.Outcome State Fault Refusal := .next s.fabRelease

/-- A release stage acts (R590). -/
def State.releaseStage (s : State) : State :=
  if s.fabState = 3 then
    let s1 := { s with fab := { s.fab with stage := s.fab.stage + 1 } }
    if s.fab.stage + 1 = 3 then (s1.setFabState 4).fire 113 else s1
  else s

/-- FAB_CTL.HOLD = 1 (R588, R589, R591): requests that the coprocessor interface has accepted are answered DECERR. A load
that lacks bytes ends as R586 states for its length. -/
def State.fabHold (s : State) : State :=
  if s.fabState = 3 ∨ s.fabState = 4 then
    let txns := s.jt.txns.map fun (t : Txn) =>
      if t.cp && t.stage == Stage.delivered 52 then { t with stage := .answered .decerr [] } else t
    { s with jt := { s.jt with txns := txns }, fab := { s.fab with stage := 0 } }.setFabState 2
  else if s.fabState = 1 ∧ s.fabShort then s.fabFail 6
  else s.fabRefused

/-- FAB_HOLD. -/
def execFabHold (s : State) : Host.Outcome State Fault Refusal := .next s.fabHold

/-- A write to FAB_CTL: HOLD is applied before RELEASE, which it refuses (R588). -/
def State.fabCtl (s : State) (v : Word) : State :=
  let s1 := s.codeWrite Reg.FAB_CTL v
  let s2 := if v.getLsbD 3 then s1.fabHold else s1
  let s3 := if v.getLsbD 2 then (if v.getLsbD 3 then s2.fabRefused else s2.fabRelease) else s2
  let s4 := if v.getLsbD 0 then s3.fabStartFlash else s3
  if v.getLsbD 1 then s4.fabStartStream else s4

/-! The configuration flash (R592) -/

/-- FAB_FLASH_CTL.PROGRAM = 1. -/
def State.fabProgram (s : State) : State :=
  if (s.fabState = 2 ∨ s.fabState = 4) ∧ s.fab.imageStream ∧ !s.bit Reg.FAB_FLASH_CTL 8 then
    ({ s with fab := { s.fab with prog := some s.fab.image, flash := [] } }.setBit Reg.FAB_FLASH_CTL 8 true).fabFlashShow
  else s.fabRefused

/-- FAB_PROGRAM. -/
def execFabProgram (s : State) : Host.Outcome State Fault Refusal := .next s.fabProgram

/-- A programming ends; `fail`: its verification failed, and the flash holds no valid image. -/
def State.fabFlashDone (s : State) (fail : Bool) : State :=
  match s.fab.prog with
  | none => s
  | some b =>
    let s1 := ({ s with fab := { s.fab with prog := none, flash := if fail then [] else b } }.setBit Reg.FAB_FLASH_CTL 8 false).satInc
      Reg.FAB_FLASH_CYC 15 0
    ((if fail then s1.setBit Reg.FAB_FLASH_CTL 9 true else s1).fabFlashShow).fire 114

/-! Readback, user registers and interrupts (R596 to R598) -/

/-- The bits of readback word `i` that hold a flip-flop. -/
def rbMask (i : Nat) : Word :=
  if i < 3072 ∧ i % 2 = 0 then 0x3FFFF else if i = 6145 ∨ i = 6147 ∨ i = 6149 then 0xFFFF else 0xFFFFFFFF

/-- FAB_RB_CTL.SNAP = 1 and the capture of both domains (R598). `w`: the flip-flops' words. -/
def State.fabSnap (s : State) (w : List Word) : State :=
  let sh := if [2, 3, 4].contains s.fabState then
      Store.sparse (fun _ => 0) 0 ((w.take 6150).zipIdx.map fun e => e.1 &&& rbMask e.2)
    else []
  { s with fab := { s.fab with shadow := sh } }.setBit Reg.FAB_RB_CTL 1 true

/-- FAB_SNAP. -/
def execFabSnap (w : List Word) (s : State) : Host.Outcome State Fault Refusal := .next (s.fabSnap w)

/-- A read of FAB_RB_DATA (R598); past the last word the value is free. -/
def State.fabRbRead (s : State) : State × Word :=
  let i := s.fld Reg.FAB_RB_IDX 12 0
  let v := if i < 6150 then Store.get (fun _ => 0) s.fab.shadow i else Config.freeWord s.free 0
  ((s.setFld Reg.FAB_RB_IDX 12 0 (i + 1)).useFree, v)

/-- FAB_RB_DATA_READ. -/
def execFabRbDataRead (s : State) : Host.Outcome State Fault Refusal := .next s.fabRbRead.1

/-- A write to FAB_USRn (R596, R599). -/
def State.fabUsr (s : State) (ini n : Nat) (v : Word) : State × Resp :=
  if (ini = 0 ∨ ini = 5) ∧ n < 16 then (s.setReg (Reg.FAB_USR + 4 * (n % 16)) v, .ok) else (s, .denied)

/-- FAB_USR_WRITE. -/
def execFabUsrWrite (ini n : Nat) (v : Word) (s : State) : Host.Outcome State Fault Refusal := .next (s.fabUsr ini n v).1

/-- A rising edge on interrupt line `i` (R597). -/
def State.fabUser (s : State) (i : Nat) : State := s.fireIf (s.fabState == 4 && decide (i < 4)) (116 + i)

/-- FAB_USER. -/
def execFabUser (i : Nat) (s : State) : Host.Outcome State Fault Refusal := .next (s.fabUser i)

/-- A write to the fabric block at a key that names a register (R599). -/
def State.fabWrite (s : State) (ini a : Nat) (v : Word) : State × Resp :=
  if Reg.FAB_USR ≤ a ∧ a < Reg.FAB_USR + 0x40 then s.fabUsr ini ((a - Reg.FAB_USR) / 4) v
  else if ini ≠ 0 then (s, .denied)
  else if a = Reg.FAB_CTL then (s.fabCtl v, .ok)
  else if a = Reg.FAB_CFG_DATA then s.fabData v
  else if a = Reg.FAB_FLASH_CTL then
    let s1 := s.codeWrite a v
    (if v.getLsbD 0 then s1.fabProgram else s1, .ok)
  else if a = Reg.FAB_RB_CTL then
    if v.getLsbD 0 then ((s.fabSnap ((List.range 6150).map fun i => Config.freeWord s.free i)).useFree, .ok) else (s, .ok)
  else if a = Reg.FAB_RB_IDX then if 6149 < bitsOf v 12 0 then (s, .denied) else (s.codeWrite a v, .ok)
  else (s.codeWrite a v, .ok)

/-- A FAB_USTn as it reads (R596): what the design shows is free. -/
def State.fabUst (s : State) (n : Nat) : Word := if s.fabState = 4 then Config.freeWord s.free n else 0

end Sys2Proof.Machine
end

