-- ==== Sys2Proof/Machine/Power.lean ====
section
/-! DEFINITION. Power, resets and the sensors (chapters 16 and 17): what each state keeps, the rails, wake sources, the
hardware part of a transition, and the release of a start's reset. What firmware does at a start is in Start.lean. -/

namespace Sys2Proof.Machine

/-! What is kept (R12, R602) -/

/-- The bits of register `a` marked U (R12). -/
def keptBits (a : Nat) : Nat := if a < 0x100000 then (match regRow? a with | some r => r.keep | none => 0) else 0

/-- Key `a` lies in the power block. -/
def inPower (a : Nat) : Bool := decide (0x2000 ≤ a ∧ a < 0x3000)

/-- The bits of register `a` that Deep sleep keeps. -/
def keptDeep (a : Nat) : Nat := if inPower a then 0xFFFFFFFF else keptBits a

/-- The bits of register `a` that Off keeps. -/
def keptOff (a : Nat) : Nat := if inPower a then keptBits a else 0

/-- The register bank after a reset that keeps the bits `f a` of register `a`. -/
def resetRegs (f : Nat → Nat) (regs : List (Nat × Word)) : List (Nat × Word) :=
  regs.filterMap fun e =>
    let k := BitVec.ofNat 32 (f e.1)
    let v := (e.2 &&& k) ||| (bankDefault e.1 &&& ~~~k)
    if v = bankDefault e.1 then none else some (e.1, v)

/-- The fields that follow persistent records and straps (R12): the life-cycle state and its request, the fabric flash, and
CPL_CTL.ROLE. -/
def State.showPersistent (s : State) : State :=
  let s1 := s.setFld Reg.LC_STATE 2 0 s.mem.lcFuse
  let s2 := (s1.setBit Reg.LC_REQ 9 s.mem.lcReq.isSome).setFld Reg.LC_REQ 2 0 (s.mem.lcReq.getD s.mem.lcFuse)
  (s2.fabFlashShow).setBit Reg.CPL_CTL 8 s.part.cplRole

/-- The device after a reset that keeps the bits `f a` of each register, and the secure region if `sec`. Flash, fuses,
straps, the power controller and the Guard's van stand outside it. -/
def State.lose (s : State) (f : Nat → Nat) (sec : Bool) : State :=
  let z := State.reset
  let mem := { z.mem with
    sec := if sec then s.mem.sec else [], secBase := if sec then s.mem.secBase else none,
    ddrCache := s.mem.ddrCache, wipeRec := s.mem.wipeRec, lcFuse := s.mem.lcFuse, lcReq := s.mem.lcReq, lcAuth := s.mem.lcAuth }
  { z with
    regs := resetRegs f s.regs, mem := mem, part := s.part, log := s.log, logSeq := s.logSeq, repair := s.repair,
    pwr := s.pwr, il := { z.il with store := s.il.store }, fab := { z.fab with flash := s.fab.flash }, upd := s.upd,
    van := s.van, free := s.free, out := s.out, pending := s.pending }.showPersistent

/-! Rails (R604 to R606) -/

/-- The internal reset of a start is released (R616): START, WAKE_SRC, and the fabric's own power-on (R588). -/
def State.startRelease (s : State) : State :=
  let w := s.pwr.wake
  let s1 := { s with pwr := { s.pwr with mode := .run, phase := .starting, wake := 0, starts := s.pwr.starts + 1, cool := true } }
  (((((s1.setFld Reg.PWR_STAT 23 20 w).setFld Reg.PWR_STAT 19 18 s.pwr.kind).setBit Reg.PWR_STAT 12 true).setFld Reg.PWR_STAT 11 9 0).setFld
    Reg.PWR_STAT 2 0 0).fabPowerOn

/-- Power-up begins: VDD_IO is high in Deep sleep, so it starts there with VDD_CORE. -/
def State.powerUp (s : State) : State :=
  if s.pwr.enIo then { s with pwr := { s.pwr with enCore := true, phase := .up 2 } }
  else { s with pwr := { s.pwr with enIo := true, phase := .up 1 } }

/-- RAIL_IN_RANGE: the next enable is asserted; after the last, the rails are good. -/
def State.railInRange (s : State) : State :=
  match s.pwr.phase with
  | .up 1 => { s with pwr := { s.pwr with enCore := true, phase := .up 2 } }
  | .up 2 => { s with pwr := { s.pwr with enDdr := true, phase := .up 3 } }
  | .up _ => s.startRelease
  | _ => s

/-- RAIL_IN_RANGE. -/
def execRailInRange (s : State) : Host.Outcome State Fault Refusal := .next s.railInRange

/-- The next enable falls, in the down order; VDD_IO's only on the way to Off. -/
def State.dropRail (s : State) (target : Nat) : State :=
  let p := s.pwr
  let q :=
    if p.enCore then { p with enCore := false }
    else if p.enDdr then { p with enDdr := false }
    else if target = 4 ∧ p.enIo then { p with enIo := false }
    else p
  let more := q.enDdr || (target == 4 && q.enIo)
  { s with pwr := { q with phase := if more then .down target else .discharging target } }

/-- The rails are dropped (R602, R604): what the target state does not keep is lost. -/
def State.railsLost (s : State) (target : Nat) : State :=
  let s1 := if target = 3 then s.lose keptDeep true else s.lose keptOff false
  { s1 with pwr := { s1.pwr with mode := if target = 3 then .deep else .off, kind := if target = 3 then 2 else 3 } }

/-- RAIL_TIMEOUT (R605): the enables fall in the down order and the device stays in Off. -/
def State.railTimeout (s : State) : State :=
  match s.pwr.phase with
  | .up _ =>
    let k := if s.pwr.mode = .deep then 3 else s.pwr.kind
    let s1 := (s.lose keptOff false).setBit Reg.PWR_ERR 0 true
    { s1 with pwr := { s1.pwr with mode := .off, wake := 0, kind := k } }.dropRail 4
  | _ => s

/-- RAIL_TIMEOUT. -/
def execRailTimeout (s : State) : Host.Outcome State Fault Refusal := .next s.railTimeout

/-- Ports that the power controller fences after GO (R612). -/
def goPorts : List Nat := [48, 49, 53, 57, 58]

/-- RAIL_DOWN_STEP: PWR_EN_CORE falls once those ports are FENCED, then the others. -/
def State.railDown (s : State) : State :=
  match s.pwr.phase with
  | .dropping t => if goPorts.all fun p => s.fence p == 2 then (s.railsLost t).dropRail t else s
  | .down t => s.dropRail t
  | _ => s

/-- RAIL_DOWN_STEP. -/
def execRailDownStep (s : State) : Host.Outcome State Fault Refusal := .next s.railDown

/-- The rails read or are treated as discharged: a wake that is latched begins the power-up (R606, R613). -/
def State.discharged (s : State) : State :=
  match s.pwr.phase with
  | .discharging _ =>
    let s1 := { s with pwr := { s.pwr with phase := .stable, thermtrip := false } }
    if s.pwr.wake ≠ 0 then s1.powerUp else s1
  | _ => s

/-- RAILS_DISCHARGED. -/
def execRailsDischarged (s : State) : Host.Outcome State Fault Refusal := .next s.discharged

/-- DISCHARGE_LATE (R606). -/
def State.dischargeLate (s : State) : State :=
  match s.pwr.phase with
  | .discharging _ => (s.setBit Reg.PWR_ERR 1 true).discharged
  | _ => s

/-- DISCHARGE_LATE. -/
def execDischargeLate (s : State) : Host.Outcome State Fault Refusal := .next s.dischargeLate

/-! The hardware part of a transition (R612, R613) -/

/-- A power-down is reversed (R613). -/
def State.pwrReverse (s : State) : State :=
  let s1 := goPorts.foldl (fun s p => s.fencePort p false) s
  let s2 := { s1 with pwr := { s1.pwr with phase := .stable, wake := 0 } }
  ((((s2.setBit Reg.PWR_STAT 17 true).setFld Reg.PWR_STAT 11 9 0).setFld Reg.PWR_CTL 4 2 0).setBit Reg.PWR_STAT 12 false).fire 121

/-- PWR_CTL.GO = 1 (R612): Idle and Sleep switch their domains; for Deep sleep and Off a wake already latched reverses,
otherwise the Dispatcher halts and the last ports are fenced. -/
def State.pwrGo (s : State) : State :=
  let t := s.fld Reg.PWR_CTL 4 2
  if t = 1 ∨ t = 2 then s.pwrBegin (.switching t) t
  else if t = 3 ∨ t = 4 then
    if s.pwr.wake ≠ 0 then s.pwrReverse
    else goPorts.foldl (fun s p => s.fencePort p true) (s.pwrBegin (.dropping t) t)
  else s

/-- A write to the power block at a key that names a register (R607, R612, R634). -/
def State.pwrWrite (s : State) (ini a : Nat) (v : Word) : State × Resp :=
  if ini ≠ 0 then (s, .denied)
  else if a = Reg.PWR_CTL then
    let t := bitsOf v 4 2
    if 4 < t then (s, .denied)
    else
      let s1 := (s.codeWrite a v).setFld a 13 12 (s.fld Reg.CPL_CTL 1 0)
      let s2 :=
        if s.pwr.phase = .stable ∧ t ≠ 0 then s1.pwrBegin (.entering t) t
        else match s.pwr.phase with
          | .entering _ =>
            if t = 0 then ({ s1 with pwr := { s1.pwr with phase := .stable, wake := 0 } }.setBit Reg.PWR_STAT 12 false).setFld
              Reg.PWR_STAT 11 9 0
            else s1.pwrBegin (.entering t) t
          | _ => s1
      (if v.getLsbD 0 then s2.pwrGo else s2, .ok)
  else (s.codeWrite a v, .ok)

/-! Wake sources (R607 to R609, R613, R614) -/

/-- Wake source `k` acts on the way to, or in, Deep sleep (3) or Off (4). -/
def State.wakeActs (s : State) (target k : Nat) : Bool :=
  if target = 4 then k == 0 else s.bit Reg.PWR_CTL (8 + k)

/-- A wake source is accepted. -/
def State.wakeEvent (s : State) (k : Nat) : State :=
  let latched := { s with pwr := { s.pwr with wake := s.pwr.wake ||| 2 ^ k } }
  if s.pwr.resetN then s
  else match s.pwr.phase with
    | .stable =>
      if s.pwr.mode = .deep then (if s.wakeActs 3 k then latched.powerUp else s)
      else if s.pwr.mode = .off then (if s.wakeActs 4 k then latched.powerUp else s)
      else if k = 0 then s.pwrToRun else s
    | .entering t =>
      if t = 1 ∨ t = 2 then (if k = 0 then s.pwrToRun else s)
      else if s.wakeActs t k then latched.fire 125 else s
    | .switching _ => if k = 0 then s.pwrToRun else s
    | .dropping t => if s.wakeActs t k then s.pwrReverse else s
    | .down t | .discharging t => if s.wakeActs t k then latched else s
    | _ => s

/-- VDD_CORE has fallen after THERMTRIP_N. -/
def State.coreFell (s : State) : State := { s with pwr := { s.pwr with thermtrip := false } }

/-- THERM: VDD_CORE falls below 0.10 V and THERMTRIP_N is released (R654). -/
def execVddCoreFall (s : State) : Host.Outcome State Fault Refusal :=
  .next s.coreFell

/-! Resets (R602, R603, R610, R614) -/

/-- VDD_AON rises: every field marked U is 0, and the device is in Off (R12, R603). -/
def State.aonRise (s : State) : State :=
  let s1 := s.lose (fun _ => 0) false
  { s1 with
    mem := { s1.mem with wipeRec := 0 },
    pwr := { Pwr.init with mode := .off, phase := .stable, enIo := false, enCore := false, enDdr := false,
                           resetN := s.pwr.resetN, starts := s.pwr.starts } }

/-- VDD_AON_RISE. -/
def execVddAonRise (s : State) : Host.Outcome State Fault Refusal := .next s.aonRise

/-- RESET_N is asserted: any transition ends, latched requests are discarded, and THERMTRIP_N is released. -/
def State.resetAssert (s : State) : State :=
  let s1 := s.lose keptBits true
  let up := s.pwr.enIo && s.pwr.enCore && s.pwr.enDdr
  let p := { s1.pwr with
    resetN := true, wake := 0, thermtrip := false, mode := if up then .run else .off, phase := if up then .starting else .stable }
  { s1 with pwr := p }

/-- RESET_N_ASSERT. -/
def execResetNAssert (s : State) : Host.Outcome State Fault Refusal := .next s.resetAssert

/-- RESET_N is released: a cold start, with the rails brought up first where they are down (R605, R610). -/
def State.resetRelease (s : State) : State :=
  if s.pwr.resetN then
    let up := s.pwr.enIo && s.pwr.enCore && s.pwr.enDdr
    let s1 := { s with pwr := { s.pwr with resetN := false, kind := 1 } }
    if up then s1.startRelease else s1.powerUp
  else s

/-- RESET_N_RELEASE. -/
def execResetNRelease (s : State) : Host.Outcome State Fault Refusal := .next s.resetRelease

/-! Sensors and monitors (R635, R652 to R654) -/

/-- The greatest of signed 16-bit readings. -/
def maxReading (l : List (BitVec 16)) : Int := l.foldl (fun m x => max m x.toInt) (-32768)

/-- TEMP_SENSOR_UPDATE: the 16 readings, PWR_THERM.MAX and source 122. -/
def State.sensors (s : State) (t : List (BitVec 16)) : State :=
  if !s.pwr.enCore then s
  else
    let m := maxReading (t.take 16)
    let warn := (BitVec.ofNat 16 (s.fld Reg.PWR_THERM 15 0)).toInt
    let hot := decide (warn ≤ m)
    let s1 := (s.setFld Reg.PWR_THERM 31 16 (BitVec.ofInt 16 m).toNat).fireIf (s.pwr.cool && hot) 122
    { s1 with pwr := { s1.pwr with sensors := t.take 16, cool := if hot then false else s.pwr.cool || decide (m < warn - 16) } }

/-- TEMP_SENSOR_UPDATE. -/
def execTempSensorUpdate (t : List (BitVec 16)) (s : State) : Host.Outcome State Fault Refusal := .next (s.sensors t)

/-- THERMTRIP: THERMTRIP_N is asserted (R653, R654). -/
def State.thermTrip (s : State) : State :=
  if s.pwr.thermtrip then s
  else ({ s with pwr := { s.pwr with thermtrip := true } }.setBit Reg.PWR_ERR 4 true).fire 123

/-- THERMTRIP. -/
def execThermtrip (s : State) : Host.Outcome State Fault Refusal := .next s.thermTrip

/-- VMON: a supply has left its range in Run. -/
def State.vmon (s : State) : State := if s.pwr.mode = .run then (s.setBit Reg.PWR_ERR 5 true).fire 124 else s

/-- VMON. -/
def execVmon (s : State) : Host.Outcome State Fault Refusal := .next s.vmon

end Sys2Proof.Machine
end

