-- ==== Sys2Proof/Machine/Views.lean ====
section
/-! DEFINITION. What the registers show: fields that follow the hardware are computed, every other is what the bank holds. -/

namespace Sys2Proof.Machine

/-- The value that register `a` shows, without the effects of a read (R9). -/
def State.view (s : State) (a : Nat) : Word :=
  if a = Reg.STEPPING then BitVec.ofNat 32 s.stepping
  else if a = Reg.MCVER then putBits (s.reg a) 15 8 (Config.romVersion s.part.stepB).toNat
  else if a = Reg.CPL_CTL then putBits (s.reg a) 8 8 s.part.cplRole.toNat
  else if a = Reg.ARR_STATUS then s.arrStatus
  else if a = Reg.TRV_STATUS then s.trvStatus
  else if a = Reg.IC_TOP then s.icTopWord
  else if a = Reg.REP_STATUS then putBits (s.reg a) 7 0 s.countActive
  else if a = Reg.TLM_ARRAY then putBits (putBits (s.reg a) 7 0 s.countActive) 13 13 s.reduced.toNat
  else if a = Reg.EST_AGE then Config.freeWord s.free 0
  else if a = Reg.TLM_PACE then
    BitVec.ofNat 32 (s.fld Reg.EST_RATE 15 0 + 2 ^ 16 * ((s.bit Reg.EST_STATUS 1).toNat + 2 * (s.bit Reg.EST_STATUS 2).toNat +
      4 * (s.bit Reg.EST_STATUS 3).toNat))
  else if Reg.FAB_UST ≤ a ∧ a < Reg.FAB_UST + 0x40 then s.fabUst ((a - Reg.FAB_UST) / 4)
  else if (a - Reg.PIPE_STAT) % 0x400 = 0 ∧ Reg.PIPE_STAT ≤ a ∧ a < Reg.PIPE_STAT + 0x1000 ∧ s.bit a 14 then
    putBits (s.reg a) 13 0 (Config.freeWord s.free 0).toNat
  else s.reg a

end Sys2Proof.Machine
end

