-- ==== Sys2Proof/Machine/Station.lean ====
section
/-! DEFINITION. Stationmaster's commands in common (chapter 12): taking a command up, judging it, its buffers, its final
response, admission under R31; and the commands that read the device: IDENT, TELEMETRY_READ, LOG_READ and METRO_READ. -/

namespace Sys2Proof.Machine

/-! Take-up and completion (R465, R487, R488, R490, R494) -/

/-- A command as taken up: the mailbox (4: the boot list), LENGTH, and P1 onward. -/
structure Req where
  m : Nat
  len : Nat
  ps : List Word

/-- Pk, k from 1. -/
def Req.p (q : Req) (k : Nat) : Word := q.ps.getD (k - 1) 0

/-- A command of the domain of `op` runs, or is queued before mailbox `m` (R465). -/
def State.domainBusy (s : State) (m op : Nat) : Bool :=
  match opDomain op with
  | none => false
  | some (d, _) =>
    let same := fun r => (opDomain (s.mbOpcode r)).map Prod.fst == some d
    (List.range 4).any (fun r => r != m && s.mbState r == 2 && same r) || (s.tkt.queue.takeWhile (· != m)).any same

/-- Stationmaster takes up the command of mailbox `m`, if it is QUEUED with opcode `op` and its turn has come (R465, R488):
ACCEPTED is posted. -/
def State.smTake (s : State) (m op : Nat) : Option (State × Req) :=
  if s.dispOn && decide (m < 4) && s.mbState m == 1 && s.mbOpcode m == op && !s.domainBusy m op then
    let q : Req := ⟨m, s.mbLength m, (List.range 15).map fun k => s.param m (k + 1)⟩
    some ((s.post m (BitVec.ofNat 32 (2 ^ 24 + s.mbSeq m * 2 ^ 16))).1, q)
  else none

/-- The command ends with a status, RETRY, and the words A1 onward. For the boot list the status is kept (R627). -/
def State.smEnd (s : State) (m status retry : Nat) (a : List Word) : State :=
  let s0 := { s with sm := { s.sm with waits := s.sm.waits.filter fun e => e.1 != m } }
  if m = 4 then { s0 with sm := { s0.sm with status := some status } }
  else (a.zipIdx.foldl (fun s e => s.setRsp m (e.2 + 1) e.1) s0).mbDone m status retry (4 * a.length)

/-- The status that goes with a reason code (R494). -/
def reasonStatus (code : Nat) : Nat :=
  if [5, 7, 8, 9, 0xB, 0xC, 0xD, 0x15].contains code then 5
  else if [0xE, 0xF, 0x12, 0x14].contains code then 8
  else if code = 0x13 then 3
  else if code = 0x16 ∨ code = 0x17 then 2
  else 4

/-- The command ends with a reason (R494); `more` are the words from A2 that the reason carries. -/
def State.smFailWith (s : State) (m retry code word : Nat) (more : List Word) : State :=
  let s1 := if m = 4 then s else more.zipIdx.foldl (fun s e => s.setRsp m (e.2 + 2) e.1) s
  s1.smEnd m (reasonStatus code) retry [BitVec.ofNat 32 (code * 2 ^ 16 + word * 2 ^ 8)]

def State.smFail (s : State) (m code word : Nat) : State := s.smFailWith m 0 code word []

/-- DONE with the words A1 onward. -/
def State.smDone (s : State) (m : Nat) (a : List Word) : State := s.smEnd m 0 0 a

/-- The command waits. -/
def State.smWait (s : State) (m : Nat) (w : SmWait) : State :=
  { s with sm := { s.sm with waits := s.sm.waits.filter (fun e => e.1 != m) ++ [(m, w)] } }

/-- What mailbox `m` waits for. -/
def State.smWaits (s : State) (m : Nat) : Option SmWait := (s.sm.waits.find? fun e => e.1 == m).map Prod.snd

/-- The first parameter word with a bit outside its mask (R490). -/
def Req.reserved (q : Req) (masks : List Nat) : Option Nat :=
  (masks.zipIdx.find? fun e => q.p (e.2 + 1) &&& ~~~(BitVec.ofNat 32 e.1) != 0).map fun e => e.2 + 1

/-- A number as a response word. -/
def word (n : Nat) : Word := BitVec.ofNat 32 n

/-- Judge LENGTH, then reserved bits (R490); what passes goes to `k`. -/
def State.smJudge (s : State) (q : Req) (len : Nat) (masks : List Nat) (k : State → State) : State :=
  if q.len ≠ len then s.smFail q.m 2 0
  else match q.reserved masks with
    | some w => s.smFail q.m 3 w
    | none => k s

/-- Run a command taken up from mailbox `m`, which must be one of `boxes` (R487). -/
def State.smRun (s : State) (m op : Nat) (boxes : List Nat) (f : State → Req → State) : State :=
  match s.smTake m op with
  | none => s
  | some (s1, q) => if boxes.contains m then f s1 q else s1.smFail m 5 0

/-- The host's mailboxes. -/
def hostBoxes : List Nat := [0, 1]

/-- Every mailbox. -/
def allBoxes : List Nat := [0, 1, 2, 3]

/-! Buffers (R492) -/

/-- The address in Pk and Pk+1. -/
def Req.addr (q : Req) (k : Nat) : Nat := (q.p k).toNat + 2 ^ 32 * bitsOf (q.p (k + 1)) 19 0

/-- A buffer may lie there: wholly in the scratchpad, usable LPDDR5 or the host window. `unit` is what the length must be a
multiple of. -/
def State.bufOk (s : State) (addr len unit : Nat) : Bool :=
  addr % 8 == 0 && len % unit == 0 &&
    (decide (addr + len ≤ 0x800000) || (decide (ddrBaseAddr ≤ addr ∧ addr + len ≤ ddrBaseAddr + s.ddrUsable)) ||
      decide (2 ^ 51 ≤ addr ∧ addr + len ≤ 2 ^ 52))

/-- Read a buffer as INIT 0: its bytes, or none where a response was not OK. `host` is what host memory answered. -/
def State.bufRead (s : State) (addr len : Nat) (host : Option (List Byte)) : State × Option (List Byte) :=
  if len = 0 then (s, some [])
  else if addr < 0x800000 then let r := s.spRead addr len; (r.1, if r.2.1 = .ok then some r.2.2 else none)
  else if addr < 2 ^ 51 then
    let r := s.ddrRead (addr - ddrBaseAddr) len; (r.1, if r.2.1 = .ok then some r.2.2 else none)
  else (s, host.map fun b => (b ++ List.replicate (len - b.length) 0).take len)

/-- A command's buffer at Pk, Pk+1: ADDR and MEMORY failures end the command, the bytes go to `f`. -/
def State.smBuf (s : State) (q : Req) (k len unit : Nat) (host : Option (List Byte)) (f : State → List Byte → State) : State :=
  if bitsOf (q.p (k + 1)) 31 20 ≠ 0 then s.smFail q.m 4 (k + 1)
  else if !s.bufOk (q.addr k) len unit then s.smFail q.m 4 k
  else match s.bufRead (q.addr k) len host with
    | (s1, some b) => f s1 b
    | (s1, none) => s1.smFail q.m 0xE 0

/-- Little-endian words of a byte list. -/
def wordsLe : List Byte → Nat → List Word
  | _, 0 => []
  | b, n + 1 => BitVec.ofNat 32 (leNat (b.take 4)) :: wordsLe (b.drop 4) n

/-! What Stationmaster knows of the displays -/

def State.smDisp (s : State) (d : Nat) : SmDisp := s.sm.disp.getD d SmDisp.init

def State.setSmDisp (s : State) (d : Nat) (x : SmDisp) : State := { s with sm := { s.sm with disp := listSet s.sm.disp d x } }

/-- A display is armed: DISPp_CFG.ARM in the copy in force or as last written (R416). -/
def State.armed (s : State) (d : Nat) : Bool := s.bit (dispReg Reg.DISP_CFG d) 0 || s.bit (Reg.act (dispReg Reg.DISP_CFG d)) 0

/-! Admission (R31, R350) -/

/-- Bytes that a frame of display `p` reads (R350): the enabled layers of its staged scene, or one layer of 32 bits a pixel. -/
def State.frameBytes (s : State) (p : Nat) : Nat :=
  match (s.smDisp p).staged with
  | none => s.hact p * s.vact p * 4
  | some sc => (sc.layers.filter (·.on)).foldl (fun n l =>
      n + bitsOf (l.w.getD 2 0) 15 0 * bitsOf (l.w.getD 2 0) 31 16 * fmtBytes (bitsOf (l.w.getD 0 0) 10 8)) 0

/-- A rate per second of something that comes `n` times a frame of display `p`, rounded up. -/
def State.perSecond (s : State) (p n : Nat) : Nat :=
  let t := s.htotal p * s.vtotal p
  if t = 0 then 0 else (n * s.pclk p * 1000 + t - 1) / t

/-- Strips of an output frame, packed by bands of whole lines (R30). -/
def State.outStrips (s : State) (p : Nat) : Nat :=
  let band := if s.hact p = 0 then 0 else 131072 / s.hact p
  if band = 0 then 0 else (s.vact p + band - 1) / band

/-- Strip periods of 100 us in a frame of display `p`. -/
def State.stripPeriods (s : State) (p : Nat) : Nat :=
  if s.pclk p = 0 then 0 else s.htotal p * s.vtotal p * 10 / s.pclk p

/-- The rate of a stream's writes, at 60 frames a second (log entry 80). -/
def State.streamRate (s : State) (n v : Nat) : Nat :=
  if s.bit (strReg Reg.STR_CFG n v) 0 then
    s.fld (strReg Reg.STR_GEOM n v) 15 0 * s.fld (strReg Reg.STR_GEOM n v) 31 16 * camBytes (s.fld (strReg Reg.STR_CFG n v) 9 4) * 60
  else 0

/-- The rate of camera port `n`. -/
def State.portRate (s : State) (n : Nat) : Nat := ((List.range 4).map (s.streamRate n)).foldl (· + ·) 0

/-- Units a period that an owner of an average rate needs (R350). -/
def ttUnits (rate : Nat) : Nat := (352 * rate + 9999999999) / 10000000000

/-- The configuration in the registers, with the displays `on`, meets the three conditions of R31. -/
def State.admits (s : State) (on : List Nat) : Bool :=
  let rates := on.map fun p => s.perSecond p (s.frameBytes p)
  let cams := (List.range 6).map s.portRate
  let sum := fun (l : List Nat) => l.foldl (· + ·) 0
  let plan := sum rates + sum cams + sum (on.map fun p => s.perSecond p (s.outStrips p)) * 2 ^ 20 + 10 ^ 9
  let plan8 := if s.bit Reg.DDR_CFG 8 then plan * 9 else plan * 8
  let peak := [3200, 4267, 5500, 6400].getD (s.fld Reg.DDR_CFG 1 0) 0 * 8 * 10 ^ 6
  let strips := sum (on.map s.outStrips)
  let du := rates.map ttUnits
  let cu := cams.map ttUnits
  let rd := (sum du + 3) / 4
  let wr := (sum cu + 3) / 4
  decide (plan8 * 10 ≤ peak * 6 * 8) && (on.all fun p => decide (strips + 1 ≤ s.stripPeriods p)) &&
    decide (sum du + sum cu ≤ 256) && decide (sum du * 33 ≤ 8192) && decide (sum (cu.take 4) * 34 ≤ 8192) &&
    decide (sum cu * 34 ≤ 8192) && (du.all fun u => decide (u * 33 ≤ 4096)) && (cu.all fun u => decide (u * 34 ≤ 4096)) &&
    decide (rd * 33 + wr ≤ 4096) && decide (rd * 2 + wr * 34 ≤ 4096)

/-- The displays whose pipe is enabled. -/
def State.displaysOn (s : State) : List Nat := (List.range 4).filter fun p => s.bit (pipeReg Reg.PIPE_CTL p) 0

/-! IDENT (R495) -/

/-- The mask of the numbers below `n` that satisfy `f`. -/
def maskOf (n : Nat) (f : Nat → Bool) : Nat := (List.range n).foldl (fun a i => if f i then a + 2 ^ i else a) 0

/-- A5: active slots, kinds on trial, trial boots counted. -/
def State.identA5 (s : State) : Nat :=
  let k := fun i => s.upd.kinds.getD i ⟨0, false, 0, [0, 0]⟩
  maskOf 4 (fun i => (k i).active == 1) + maskOf 4 (fun i => (k i).trial) * 2 ^ 8 +
    ((List.range 4).foldl (fun a i => a + (k i).trials) 0) % 256 * 2 ^ 16

/-- The power state as IDENT and PWR_STAT code it. -/
def State.powerCode (s : State) : Nat := match s.pwr.mode with | .run => 0 | .idle => 1 | .sleep => 2 | .deep => 3 | .off => 4

/-- A6. -/
def State.identA6 (s : State) : Nat :=
  let paired := s.bit Reg.CPL_STAT 3
  (if !paired then 0 else if s.part.cplRole then 2 else 1) + 4 * paired.toNat + 8 * s.fld Reg.CPL_STAT 4 4 +
    16 * s.fld Reg.CPL_STAT 15 12 + 256 * (s.powerCode % 8) + 2 ^ 11 * s.reduced.toNat +
    2 ^ 12 * (s.bit Reg.TLM_ARRAY 14).toNat

/-- A7. -/
def State.identA7 (s : State) (m : Nat) : Nat :=
  maskOf 4 (fun d => (s.smDisp d).configured) + 16 * maskOf 6 (fun n => s.bit (camReg Reg.CAM_CTL n) 0) +
    2 ^ 12 * s.fld Reg.LC_STATE 2 0 + 2 ^ 16 * (m % 4)

/-- IDENT. -/
def State.ident (s : State) (q : Req) : State :=
  s.smJudge q 0 [] fun s => s.smDone q.m
    [word chipId, word s.stepping, s.view Reg.MCVER, s.sm.version, word s.identA5, word s.identA6, word (s.identA7 q.m)]

/-- IDENT. -/
def execIdent (m : Nat) (s : State) : Host.Outcome State Fault Refusal := .next (s.smRun m 0x01 allBoxes State.ident)

/-- An opcode that R486 does not list. -/
def opKnown (op : Nat) : Bool :=
  [0x01, 0x02, 0x10, 0x11, 0x12, 0x20, 0x21, 0x22, 0x30, 0x31, 0x40, 0x41, 0x50, 0x51, 0x52, 0x53, 0x54, 0x60, 0x61, 0x70, 0x71,
    0x72, 0x80, 0x90, 0x91, 0x92, 0xA0, 0xA1].contains op

/-- UNDEFINED_COMMAND: BADCMD with reason OPCODE (R486). -/
def execUndefinedCommand (m : Nat) (s : State) : Host.Outcome State Fault Refusal :=
  .next (if opKnown (s.mbOpcode m) then s else s.smRun m (s.mbOpcode m) allBoxes fun s q => s.smFail q.m 1 0)

/-! Reading the device (R512 to R515) -/

/-- A total of RC register counts, which saturates. -/
def satAdd (a b : Nat) : Nat := min (a + b) 0xFFFFFFFF

/-- Stationmaster reads the RC registers of the memory and video blocks and adds them to its totals (R512). -/
def State.takeTotals (s : State) : State :=
  let ce := (List.range 4).map fun k => satAdd (s.sm.ceTot.getD k 0) (s.reg (kindReg Reg.CE_COUNT k)).toNat
  let ue := (List.range 4).map fun k => satAdd (s.sm.ueTot.getD k 0) (s.reg (kindReg Reg.UE_COUNT k)).toNat
  let pt := (List.range 4).map fun p =>
    ((s.sm.pipeTot.getD p (0, 0)).1, satAdd (s.sm.pipeTot.getD p (0, 0)).2 (s.reg (pipeReg Reg.UNDERRUN_CNT p)).toNat)
  let ct := (List.range 6).map fun n =>
    ((s.sm.camTot.getD n (0, 0)).1, satAdd (s.sm.camTot.getD n (0, 0)).2 (s.fld (camReg Reg.CAM_ERRCNT n) 31 16))
  let sm := { s.sm with
    ceTot := ce, ueTot := ue, pipeTot := pt, camTot := ct, collTot := satAdd s.sm.collTot (s.reg Reg.COLL_CNT).toNat,
    storeTot := satAdd s.sm.storeTot (s.reg Reg.STORE_ERR_CNT).toNat }
  let regs := (List.range 4).flatMap (fun k => [kindReg Reg.CE_COUNT k, kindReg Reg.UE_COUNT k, pipeReg Reg.UNDERRUN_CNT k]) ++
    (List.range 6).map (camReg Reg.CAM_ERRCNT) ++ [Reg.COLL_CNT, Reg.STORE_ERR_CNT]
  regs.foldl (fun s r => s.setReg r 0) { s with sm := sm }

/-- Two 16-bit halves, each saturating. -/
def halves (hi lo : Nat) : Word := word (min hi 0xFFFF * 2 ^ 16 + min lo 0xFFFF)

/-- The words of a telemetry page; `mv` are the supplies in mV: core, I/O, LPDDR5, and the van's standby supply. -/
def State.telemetryPage (s : State) (page : Nat) (mv : List Nat) : Option (List Word) :=
  match page with
  | 0 => some ((List.range 8).map (fun k =>
      word ((s.pwr.sensors.getD (2 * k) 0).toNat + 2 ^ 16 * (s.pwr.sensors.getD (2 * k + 1) 0).toNat)) ++
      [word (mv.getD 0 0 % 65536 + 2 ^ 16 * mv.getD 1 0), word (mv.getD 2 0 % 65536 + 2 ^ 16 * mv.getD 3 0)])
  | 1 => some [s.view Reg.TLM_ARRAY, s.view Reg.TLM_PACE, s.view Reg.EST_STATUS,
      word (s.sched.reserveUsed - s.sm.resHist.getD 1023 0), word s.sched.repeats, word s.sched.uncommitted]
  | 2 => some ((s.sm.ceTot ++ s.sm.ueTot).map word ++
      [word ((List.range 256).countP fun i => s.bit (Reg.REMAP + 4 * i) 31), word s.sm.collTot, word s.sm.storeTot,
        s.reg Reg.TAMPER_STAT])
  | 3 => some (s.sm.pipeTot.map (fun e => halves e.1 e.2) ++ s.sm.camTot.map fun e => halves e.1 e.2)
  | 4 => some [word s.identA6, word (min s.cpl.expiries 0xFFFFFFFF),
      if s.part.cplRole then s.reg Reg.CPL_RXGEN else s.reg Reg.CPL_TXGEN, word (min s.cpl.discards 0xFFFFFFFF)]
  | _ => none

/-- TELEMETRY_READ (R512). -/
def State.telemetryRead (mv : List Nat) (s : State) (q : Req) : State :=
  s.smJudge q 4 [0xFF] fun s =>
    let s1 := s.takeTotals
    match s1.telemetryPage (bitsOf (q.p 1) 7 0) mv with
    | some a => s1.smDone q.m a
    | none => s.smFail q.m 3 1

/-- TELEMETRY_READ. -/
def execTelemetryRead (m : Nat) (mv : List Nat) (s : State) : Host.Outcome State Fault Refusal :=
  .next (s.smRun m 0x60 allBoxes (State.telemetryRead mv))

/-- LOG_READ (R514). -/
def State.logRead (s : State) (q : Req) : State :=
  s.smJudge q 4 [0xFFFFFFFF] fun s =>
    let es := (s.log.filter fun e => decide ((q.p 1).toNat ≤ e.seq)).take 3
    let old := match s.log with | e :: _ => e.seq | [] => s.logSeq
    s.smDone q.m ([word old, word s.logSeq] ++ es.flatMap fun e => [word e.seq, e.ms, e.w2, e.w3])

/-- LOG_READ. -/
def execLogRead (m : Nat) (s : State) : Host.Outcome State Fault Refusal := .next (s.smRun m 0x61 allBoxes State.logRead)

/-- METRO_READ (R515). -/
def State.metroRead (s : State) (q : Req) : State :=
  let sel := bitsOf (q.p 1) 1 0
  s.smJudge q 8 [3, if sel = 2 then 0xFF else 0] fun s =>
    match sel with
    | 0 => s.smDone q.m [s.reg Reg.GV_PULSE_LO, s.reg Reg.GV_PULSE_HI, s.reg Reg.GV_K, s.reg Reg.GV_TOTAL,
        s.reg (Reg.GV_TOTAL + 4), s.reg (Reg.GV_TOTAL + 8), s.reg Reg.GV_SPEED,
        word (s.fld Reg.GV_VALID 2 0 + 2 ^ 8 * (s.bit Reg.GV_STAT 28).toNat + 2 ^ 9 * (s.bit Reg.GV_STAT 30).toNat)]
    | 1 => s.smDone q.m [s.reg Reg.GV_FWID, s.reg (Reg.GV_FWID + 4)]
    | 2 => s.smDone q.m ((List.range 4).map fun k => s.reg (0x16000 + 16 * bitsOf (q.p 2) 7 0 + 4 * k))
    | _ => s.smFail q.m 3 1

/-- METRO_READ. -/
def execMetroRead (m : Nat) (s : State) : Host.Outcome State Fault Refusal := .next (s.smRun m 0x80 allBoxes State.metroRead)

end Sys2Proof.Machine
end

