-- ==== Sys2Proof/Machine/Scenes.lean ====
section
/-! DEFINITION. Stationmaster's commands on scenes, tell-tale maps, references and kernels (R497 to R507): SCENE_LOAD, LAYER_SET,
LAYER_COMMIT, TELLTALE_MAP, REGION_REF_LOAD, KERNEL_LOAD and KERNEL_RUN. -/

namespace Sys2Proof.Machine

/-! Layer entries (R497) -/

def LayerEnt.num (e : LayerEnt) : Nat := bitsOf (e.w.getD 0 0) 2 0
/-- SOURCE: 0 STATIC, 1 RENDERED, 2 CAMERA. -/
def LayerEnt.source' (e : LayerEnt) : Nat := bitsOf (e.w.getD 0 0) 5 4
def LayerEnt.telltale (e : LayerEnt) : Bool := (e.w.getD 0 0).getLsbD 6
/-- The camera stream: port and virtual channel. -/
def LayerEnt.cam (e : LayerEnt) : Nat × Nat := (bitsOf (e.w.getD 0 0) 18 16, bitsOf (e.w.getD 0 0) 21 20)
def LayerEnt.nbuf (e : LayerEnt) : Nat := bitsOf (e.w.getD 7 0) 1 0

/-- Replace word `k` of the entry. -/
def LayerEnt.put (e : LayerEnt) (k : Nat) (v : Word) : LayerEnt := { e with w := listSet e.w k v }

/-- The pages its buffers lie at: its own, or those of its camera stream. -/
def State.layerPages (s : State) (e : LayerEnt) : List Nat :=
  if e.source' = 2 then
    (List.range (s.fld (strReg Reg.STR_CFG e.cam.1 e.cam.2) 13 12 + 1)).map fun i =>
      s.fld (strReg Reg.STR_BUF e.cam.1 e.cam.2 + 4 * i) 21 0
  else (List.range e.nbuf).map fun i => bitsOf (e.w.getD (4 + i) 0) 21 0

/-- The layer as the pipe would have it with a buffer at `page`. -/
def LayerEnt.layer (e : LayerEnt) (page : Nat) : Layer :=
  ⟨ddrBaseAddr + page * 4096, (e.w.getD 3 0).toNat, bitsOf (e.w.getD 2 0) 15 0, bitsOf (e.w.getD 2 0) 31 16,
    bitsOf (e.w.getD 1 0) 15 0, bitsOf (e.w.getD 1 0) 31 16, bitsOf (e.w.getD 0 0) 31 24, (e.w.getD 0 0).getLsbD 11,
    bitsOf (e.w.getD 0 0) 10 8⟩

/-- The layer breaks a rule of R389 on display `p`, with one of its buffers. -/
def State.entryBad (s : State) (p : Nat) (e : LayerEnt) : Bool := (s.layerPages e).any fun g => s.layerBad p (e.layer g)

/-- The line store that the enabled layers of a scene need (R394). -/
def Scene.lineStore (c : Scene) : Nat := (c.layers.filter (·.on)).foldl (fun n e => n + 2 * (e.layer 0).lineBytes) 0

/-- The reason for which display `p` may not hold the staged scene `c`: REFUSED under R389, ADMISSION under R394 and R31. -/
def State.sceneReason (s : State) (p : Nat) (c : Scene) : Option Nat :=
  let t := s.setSmDisp p { s.smDisp p with staged := some c }
  let on := if (s.smDisp p).configured && !s.displaysOn.contains p then p :: s.displaysOn else s.displaysOn
  if c.layers.any fun e => e.on && s.entryBad p e then some 0x11
  else if 131072 < c.lineStore ∨ t.admits on = false then some 0xA
  else none

/-- Reserved bits are 0 and the fields have values that R497 allows. The stride of a CAMERA layer is that of its stream. -/
def State.entryOk (s : State) (e : LayerEnt) : Bool :=
  e.w.getD 0 0 &&& 0x00C8F088 == 0 && decide (e.source' < 3) && (e.w.getD 7 0 &&& 0xFFFFFFFC) == 0 &&
  ([4, 5, 6].all fun k => e.w.getD k 0 &&& 0xFFC00000 == 0) &&
  (match e.source' with
   | 0 => e.nbuf == 1
   | 1 => decide (2 ≤ e.nbuf)
   | _ => e.nbuf == 0 && decide (e.cam.1 < 6) && e.w.getD 3 0 == s.reg (strReg Reg.STR_STRIDE e.cam.1 e.cam.2))

/-- An input field of a pass: kind and index. -/
def passInOk (n : Nat) : Bool :=
  match n / 32 with
  | 0 => n % 32 == 0
  | 1 => decide (n % 32 < 8)
  | 2 | 3 => decide (n % 32 < 24)
  | _ => false

/-- A pass entry is well formed: its reserved bytes are 0, it writes a RENDERED layer, and a PACKED pass has neither halo nor
rectangle. -/
def passOk (layers : List LayerEnt) (w : List Word) : Bool :=
  let w0 := w.getD 0 0
  let w1 := w.getD 1 0
  w0 &&& 0xFF2078C0 == 0 && bitsOf w1 31 24 == 0 && (w.drop 3).all (· == 0) && bitsOf w0 23 22 != 3 &&
  (layers.any fun e => e.num == bitsOf w0 10 8 && e.source' == 1) &&
  passInOk (bitsOf w1 7 0) && passInOk (bitsOf w1 15 8) && passInOk (bitsOf w1 23 16) &&
  (if w0.getLsbD 15 then bitsOf w0 20 16 == 0 && w.getD 2 0 == 0 else bitsOf (w.getD 2 0) 15 0 != 0 && bitsOf (w.getD 2 0) 31 16 != 0)

/-- Cut a list into pieces of `k`. -/
def pieces {α : Type} (k : Nat) : Nat → List α → List (List α)
  | 0, _ => []
  | n + 1, l => l.take k :: pieces k n (l.drop k)

/-- The container's words as a scene, where its header and entries are well formed. -/
def State.parseScene (s : State) (ws : List Word) : Option Scene :=
  let h := ws.getD 1 0
  let nl := bitsOf h 23 16
  let np := bitsOf h 31 24
  let layers := (pieces 8 nl (ws.drop 8)).map fun w => (⟨w, true, 0, none, []⟩ : LayerEnt)
  let passes := pieces 8 np (ws.drop (8 + 8 * nl))
  if ws.getD 0 0 = 0x4E435350 ∧ bitsOf h 15 0 = 1 ∧ nl ≤ 8 ∧ np ≤ 32 ∧ ws.length = 8 + 8 * nl + 8 * np ∧
      ws.getD 3 0 &&& 0xFFFFFFFC = 0 ∧ (layers.map LayerEnt.num).Nodup ∧ layers.all s.entryOk ∧ passes.all (passOk layers) then
    some ⟨ws.getD 2 0 &&& 0xFFFFFF, ws.getD 3 0, none, layers, passes⟩
  else none

/-- A slot of the display's tell-tale map names a layer that `c` no longer has, or has without TELLTALE. -/
def SmDisp.keeps (x : SmDisp) (c : Scene) : Bool :=
  x.slots.all fun t => c.layers.any fun e => e.num == t.2.1 && e.telltale

/-- SCENE_LOAD (R497): `host` and `lut` are what host memory answers where the container or the gamma table lies in it. -/
def State.sceneLoad (host lut : Option (List Byte)) (s : State) (q : Req) : State :=
  s.smJudge q 16 [3, 0xFFFFFFFF, 0xFFFFFFFF, 0xFFFFFFFF] fun s =>
    let p := bitsOf (q.p 1) 1 0
    s.smBuf q 2 (q.p 4).toNat 8 host fun s b =>
      let ws := wordsLe b (b.length / 4)
      match s.parseScene ws with
      | none => s.smFail q.m 6 0
      | some c =>
        let la := (ws.getD 4 0).toNat + 2 ^ 32 * (ws.getD 5 0).toNat
        let put := fun (s : State) (c : Scene) =>
          if !(s.smDisp p).keeps c then s.smFail q.m 0xB 0
          else match s.sceneReason p c with
            | some r => s.smFail q.m r 0
            | none => (s.setSmDisp p { s.smDisp p with staged := some c }).smDone q.m []
        if la = 0 then put s c
        else if 2 ^ 52 ≤ la ∨ s.bufOk la 1536 8 = false then s.smFail q.m 4 0
        else match s.bufRead la 1536 lut with
          | (s1, none) => s1.smFail q.m 0xE 0
          | (s1, some t) => put s1 { c with lut := some ((pieces 2 768 t).map fun e => leNat e % 1024) }

/-- SCENE_LOAD. -/
def execSceneLoad (m : Nat) (host lut : Option (List Byte)) (s : State) : Host.Outcome State Fault Refusal :=
  .next (s.smRun m 0x10 hostBoxes (State.sceneLoad host lut))

/-- The layer entry with the fields that WHAT selects replaced (R500). -/
def LayerEnt.change (q : Req) (e : LayerEnt) : LayerEnt :=
  let wh := fun i => (q.p 1).getLsbD i
  let e1 := if wh 8 then { e with on := (q.p 2).getLsbD 0 } else e
  let e2 := if wh 9 then e1.put 1 (q.p 3) else e1
  let e3 := if wh 10 then e2.put 2 (q.p 4) else e2
  let e4 := if wh 11 then e3.put 0 (putBits (e3.w.getD 0 0) 31 24 (bitsOf (q.p 5) 7 0)) else e3
  if wh 12 then { e4 with source := some (q.addr 6, bitsOf (q.p 8) 12 0) } else e4

/-- The first field that is not 0 although WHAT does not select it. -/
def Req.unselected (q : Req) : Option Nat :=
  ([(8, 2), (9, 3), (10, 4), (11, 5), (12, 6), (12, 7), (12, 8)].find? fun e => !(q.p 1).getLsbD e.1 && q.p e.2 != 0).map Prod.snd

/-- LAYER_SET (R500). -/
def State.layerSet (s : State) (q : Req) : State :=
  let f := 0xFFFFFFFF
  s.smJudge q 32 [0x1F73, 1, f, f, 0xFF, f, f, 0x1FFF] fun s =>
    let p := bitsOf (q.p 1) 1 0
    let n := bitsOf (q.p 1) 6 4
    let plen := bitsOf (q.p 8) 12 0
    match q.unselected with
    | some w => s.smFail q.m 3 w
    | none =>
      if 4096 < plen ∨ plen % 8 ≠ 0 then s.smFail q.m 3 8
      else if bitsOf (q.p 7) 31 20 ≠ 0 then s.smFail q.m 4 7
      else if (q.p 1).getLsbD 12 ∧ s.bufOk (q.addr 6) plen 8 = false then s.smFail q.m 4 6
      else match (s.smDisp p).staged with
        | none => s.smFail q.m 3 1
        | some c =>
          match c.layers.find? fun e => e.num == n with
          | none => s.smFail q.m 3 1
          | some e =>
            let c1 := { c with layers := c.layers.map fun e => if e.num == n then e.change q else e }
            let moved := (q.p 1).getLsbD 9 || (q.p 1).getLsbD 10
            if e.telltale then s.smFail q.m 0x15 0
            else match if moved then s.sceneReason p c1 else none with
              | some r => s.smFail q.m r 0
              | none => (s.setSmDisp p { s.smDisp p with staged := some c1 }).smDone q.m []

/-- LAYER_SET. -/
def execLayerSet (m : Nat) (s : State) : Host.Outcome State Fault Refusal := .next (s.smRun m 0x11 hostBoxes State.layerSet)

/-- The staged scene of display `d` is bound to the first frame whose strips start from now on (R501). -/
def State.bindScene (s : State) (d : Nat) : State :=
  match (s.smDisp d).staged with
  | none => s
  | some c => s.setSmDisp d { s.smDisp d with bind := some ⟨c, none, none, false⟩ }

/-- LAYER_COMMIT (R501): it waits until every pipe it names has taken the commit. -/
def State.layerCommit (s : State) (q : Req) : State :=
  s.smJudge q 4 [0xF] fun s =>
    let mask := bitsOf (q.p 1) 3 0
    let ds := (List.range 4).filter mask.testBit
    if ds.any fun d => !(s.smDisp d).configured || (s.smDisp d).staged.isNone then s.smFail q.m 3 1
    else if mask = 0 then s.smDone q.m [0]
    else (ds.foldl State.bindScene s).smWait q.m (.commit mask mask 0)

/-- LAYER_COMMIT. -/
def execLayerCommit (m : Nat) (s : State) : Host.Outcome State Fault Refusal :=
  .next (s.smRun m 0x12 hostBoxes State.layerCommit)

/-! TELLTALE_MAP (R502) -/

/-- A sub-operation of TELLTALE_MAP is judged only when P1[3:0] selects it. -/
def State.mapRun (s : State) (m sub : Nat) (f : State → Req → State) : State :=
  if bitsOf (s.param m 1) 3 0 = sub then s.smRun m 0x20 [0, 1, 2] f else s

/-- The RW bits of the register at key `a`. -/
def rwMask (a : Nat) : Nat := match regRow? a with | some r => r.rw | none => 0

/-- SLOT: REGp_r of the pending table, and what kernels 51 and 52 draw for the slot. -/
def State.mapSlot (s : State) (q : Req) : State :=
  let p := bitsOf (q.p 1) 5 4
  let r := bitsOf (q.p 1) 13 8
  let l := bitsOf (q.p 3) 2 0
  s.smJudge q 20 [0x3F3F, rwMask (regSlot p r), 7, 0xFFFFFFFF, 0xFFFFFFFF] fun s =>
    let x := s.smDisp p
    if bitsOf (q.p 5) 31 20 ≠ 0 then s.smFail q.m 4 5
    else if s.bufOk (q.addr 4) 8 8 = false then s.smFail q.m 4 4
    else if !(match x.staged with | some c => c.layers.any (fun e => e.num == l && e.telltale) | none => false) then s.smFail q.m 3 3
    else
      let w := s.regionWrite p (regSlot p r) (q.p 2)
      if w.2 ≠ .ok then w.1.smFail q.m 0x11 0
      else
        let keep := x.slots.filter fun t => t.1 != r
        let slots := if (q.p 2).getLsbD 31 then keep ++ [(r, l, q.addr 4)] else keep
        (w.1.setSmDisp p { x with slots := slots }).smDone q.m []

/-- TELLTALE_MAP_SLOT. -/
def execTelltaleMapSlot (m : Nat) (s : State) : Host.Outcome State Fault Refusal := .next (s.mapRun m 0 State.mapSlot)

/-- COMMIT: it waits until the channel takes the commit. -/
def State.mapCommit (s : State) (q : Req) : State :=
  let p := bitsOf (q.p 1) 5 4
  s.smJudge q 4 [0x3F] fun s =>
    let r := s.regionCommit p
    if r.2 ≠ .ok then r.1.smFail q.m 0x11 0 else r.1.smWait q.m (.map p)

/-- TELLTALE_MAP_COMMIT. -/
def execTelltaleMapCommit (m : Nat) (s : State) : Host.Outcome State Fault Refusal := .next (s.mapRun m 1 State.mapCommit)

/-- ARM: DISPp_CFG, written as INIT 0 (R416). -/
def State.mapArm (s : State) (q : Req) : State :=
  let p := bitsOf (q.p 1) 5 4
  s.smJudge q 8 [0x3F, rwMask (dispReg Reg.DISP_CFG p)] fun s =>
    let r := s.dispCfgWrite 0 p (q.p 2)
    if r.2 ≠ .ok then r.1.smFail q.m 0xC 0 else r.1.smDone q.m []

/-- TELLTALE_MAP_ARM. -/
def execTelltaleMapArm (m : Nat) (s : State) : Host.Outcome State Fault Refusal := .next (s.mapRun m 2 State.mapArm)

/-- A sub-operation that R502 does not list: LENGTH, then RANGE (R490). -/
def State.mapReserved (s : State) (q : Req) : State :=
  if q.len ≠ 4 ∧ q.len ≠ 8 ∧ q.len ≠ 20 then s.smFail q.m 2 0 else s.smFail q.m 3 1

/-- TELLTALE_MAP_RESERVED_SUB. -/
def execTelltaleMapReservedSub (m : Nat) (s : State) : Host.Outcome State Fault Refusal :=
  .next (if bitsOf (s.param m 1) 3 0 ≤ 2 then s else s.smRun m 0x20 [0, 1, 2] State.mapReserved)

/-! REGION_REF_LOAD (R419, R420, R504) -/

/-- Key slots that the life-cycle state accepts (R310). -/
def State.keyAccepted (s : State) (k : Nat) : Bool :=
  match s.fld Reg.LC_STATE 2 0 with
  | 0 => decide (k < 4)
  | 1 | 3 => k == 0
  | 2 => decide (1 ≤ k ∧ k < 4)
  | _ => false

/-- A signed container: the signature is its last 64 bytes, over all earlier ones, under key slot `k`. -/
def sigOk (k : Nat) (b : List Byte) : Bool :=
  Config.ecdsaOk (Config.slotKey k).1 (Config.slotKey k).2 (b.take (b.length - 64)) (b.drop (b.length - 64))

/-- The records that enabled slots name, in the pending tables and in the active ones. -/
def State.usedRecords (s : State) : List Nat :=
  (List.range 4).flatMap fun p =>
    ((List.range 64).filter (fun r => s.bit (regSlot p r) 31)).map (fun r => s.fld (regSlot p r) 7 0) ++
      (s.chan p).active.map Region.record

/-- Judge a reference container in the order of R504: the reason of the first failure. -/
def State.refReason (s : State) (b : List Byte) : Option Nat :=
  let ws := wordsLe b 8
  let n := bitsOf (ws.getD 1 0) 31 16
  let es := pieces 260 n (b.drop 0x20)
  let idx := es.map fun e => leNat (e.take 4)
  if b.length < 0x60 ∨ ws.getD 0 0 ≠ 0x46525950 ∨ bitsOf (ws.getD 1 0) 15 0 ≠ 1 ∨ n = 0 ∨ 256 < n ∨ b.length ≠ 0x60 + 260 * n ∨
      3 < (ws.getD 4 0).toNat ∨ !(ws.drop 5).all (· == 0) then some 6
  else if !s.keyAccepted (ws.getD 4 0).toNat then some 8
  else if !sigOk (ws.getD 4 0).toNat b then some 7
  else if (ws.getD 3 0).toNat ≠ s.semNat 4 4 ∨ ¬ idx.Nodup ∨ idx.any (fun i => decide (256 ≤ i)) ∨
      es.any fun e => (e.getD 4 0).toNat % 2 == 0 then some 6
  else if idx.any s.usedRecords.contains then some 0xB
  else none

/-- Write the records of a container as whole words (R420). -/
def State.writeRecords (s : State) (b : List Byte) : State :=
  (pieces 260 (leNat ((b.drop 6).take 2)) (b.drop 0x20)).foldl (fun s e =>
    (s.secWriteReq (0x10000 + 0x100 * leNat (e.take 4))
      ((pieces 8 32 (e.drop 4)).map fun w => (BitVec.ofNat 64 (leNat w), 0xFF#8))).1) s

/-- REGION_REF_LOAD. -/
def State.regionRefLoad (host : Option (List Byte)) (s : State) (q : Req) : State :=
  s.smJudge q 12 [0xFFFFFFFF, 0xFFFFFFFF, 0xFFFFFFFF] fun s =>
    if s.bit Reg.TAMPER_STAT 4 then s.smFail q.m 0xF 0
    else s.smBuf q 2 (q.p 1).toNat 4 host fun s b =>
      match s.refReason b with
      | some r => s.smFail q.m r 0
      | none => (s.writeRecords b).smDone q.m [word (leNat ((b.drop 6).take 2)), (wordsLe b 3).getD 2 0]

/-- REGION_REF_LOAD. -/
def execRegionRefLoad (m : Nat) (host : Option (List Byte)) (s : State) : Host.Outcome State Fault Refusal :=
  .next (s.smRun m 0x22 [0, 1, 2] (State.regionRefLoad host))

/-! Kernels (R505 to R507) -/

/-- A pass of a staged or active scene, or of one bound to a frame, names kernel `k`. -/
def State.kidUsed (s : State) (k : Nat) : Bool :=
  s.sm.disp.any fun x => (x.staged.toList ++ x.active.toList ++ (x.bind.map Bind.scene).toList).any fun c =>
    c.passes.any fun w => bitsOf (w.getD 0 0) 5 0 == k

/-- The kernel held under `k`. -/
def State.kernel (s : State) (k : Nat) : Option Kernel := s.kernels.find? fun x => x.kid == k

/-- The image as a kernel under `k`, where it is well formed (R505). -/
def parseKernel (k : Nat) (b : List Byte) : Option Kernel :=
  let ws := wordsLe b 8
  let planes := bitsOf (ws.getD 1 0) 31 16
  let codelen := (ws.getD 2 0).toNat
  let entry := bitsOf (ws.getD 3 0) 15 0
  let scratch := (ws.getD 4 0).toNat
  if 0x20 ≤ b.length ∧ ws.getD 0 0 = 0x4C4E524B ∧ bitsOf (ws.getD 1 0) 15 0 = 1 ∧ 1 ≤ planes ∧ planes ≤ 504 ∧
      codelen % 4 = 0 ∧ codelen ≤ 65536 ∧ entry < codelen ∧ scratch % 8 = 0 ∧ scratch ≤ 2 ^ 20 ∧ 0x20 + codelen ≤ b.length then
    some ⟨k, planes, codelen, entry, bitsOf (ws.getD 3 0) 23 16, scratch, (b.drop 0x20).take codelen, false⟩
  else none

/-- KERNEL_LOAD without UNLOAD. -/
def State.kernelLoad (host : Option (List Byte)) (s : State) (q : Req) : State :=
  let k := bitsOf (q.p 1) 5 0
  s.smJudge q 16 [0x13F, 0xFFFFFFFF, 0xFFFFFFFF, 0xFFFFFFFF] fun s =>
    if 47 < k then s.smFail q.m 3 1
    else s.smBuf q 2 (q.p 4).toNat 8 host fun s b =>
      match parseKernel k b with
      | none => s.smFail q.m 6 0
      | some x =>
        if s.kidUsed k && (s.kernel k).isSome then s.smFail q.m 0xB 0
        else
          let s1 := { s with kernels := s.kernels.filter (fun (y : Kernel) => y.kid != k) ++ [x] }
          s1.smDone q.m [word k, word x.codelen]

/-- KERNEL_LOAD. -/
def execKernelLoad (m : Nat) (host : Option (List Byte)) (s : State) : Host.Outcome State Fault Refusal :=
  .next (if (s.param m 1).getLsbD 8 then s else s.smRun m 0x30 hostBoxes (State.kernelLoad host))

/-- KERNEL_LOAD with UNLOAD: A2 is 0, no code stays resident under the KID. -/
def State.kernelUnload (s : State) (q : Req) : State :=
  let k := bitsOf (q.p 1) 5 0
  s.smJudge q 16 [0x13F, 0, 0, 0] fun s =>
    if 47 < k then s.smFail q.m 3 1
    else if s.kidUsed k then s.smFail q.m 0xB 0
    else ({ s with kernels := s.kernels.filter (fun (y : Kernel) => y.kid != k) }).smDone q.m [word k, 0]

/-- KERNEL_UNLOAD. -/
def execKernelUnload (m : Nat) (s : State) : Host.Outcome State Fault Refusal :=
  .next (if (s.param m 1).getLsbD 8 then s.smRun m 0x30 hostBoxes State.kernelUnload else s)

/-- A descriptor of the strip list, from its 32 bytes. -/
def stripDesc (b : List Byte) : Xfer :=
  let w := fun i => BitVec.ofNat 64 (leNat ((b.drop (8 * i)).take 8))
  ⟨w 0, w 1, w 2, w 3, true, []⟩

/-- KERNEL_RUN is taken up (R507): the descriptors are judged, and the command waits for its strips. -/
def State.kernelRun (host : Option (List Byte)) (s : State) (q : Req) : State :=
  let f := 0xFFFFFFFF
  let k := bitsOf (q.p 1) 5 0
  let n := bitsOf (q.p 4) 15 0
  let nd := bitsOf (q.p 4) 18 16 + 1
  s.smJudge q 28 [0x3F, f, f, 0x7FFFF, f, f, f] fun s =>
    if 47 < k then s.smFail q.m 3 1
    else if n = 0 ∨ 1024 < n then s.smFail q.m 3 4
    else if 4096 < (q.p 7).toNat ∨ (q.p 7).toNat % 8 ≠ 0 then s.smFail q.m 3 7
    else if bitsOf (q.p 6) 31 20 ≠ 0 then s.smFail q.m 4 6
    else if !s.bufOk (q.addr 5) (q.p 7).toNat 8 then s.smFail q.m 4 5
    else match s.kernel k with
      | none => s.smFail q.m 0xD 1
      | some x =>
        if x.faulted then s.smFail q.m 0xD 1
        else s.smBuf q 2 (32 * n * nd) 8 host fun s b =>
          if ((pieces 32 (n * nd) b).map stripDesc).all (fun (x : Xfer) => x.ok && decide (x.plane + x.nb1 ≤ 503)) then
            s.smWait q.m (.krun k n nd (q.addr 2) 0)
          else s.smFail q.m 6 0

/-- The next strip boundary of a KERNEL_RUN of mailbox `m`: `stored` says whether every store of the strip had received OK,
after one retry (R20). An abort ends the command there. -/
def State.kernelStrip (s : State) (m : Nat) (stored : Bool) : State :=
  match s.smWaits m with
  | some (.krun k n nd a i) =>
    if !s.dispOn || s.mbState m != 2 then s
    else if !stored || ((s.kernel k).map Kernel.faulted).getD true then s.smFailWith m 0 0xE 0 [word i]
    else if s.mbAborted m then (s.setRsp m 1 (word (i + 1))).smEnd m 3 0 []
    else if i + 1 = n then (s.smDone m [word n, Config.freeWord s.free 0]).useFree
    else s.smWait m (.krun k n nd a (i + 1))
  | _ => s

/-- KERNEL_RUN: it is taken up, or the strip in progress ends. -/
def execKernelRun (m : Nat) (host : Option (List Byte)) (stored : Bool) (s : State) : Host.Outcome State Fault Refusal :=
  .next (match s.smWaits m with
    | some (.krun _ _ _ _ _) => s.kernelStrip m stored
    | _ => s.smRun m 0x31 hostBoxes (State.kernelRun host))

end Sys2Proof.Machine
end

