-- ==== Sys2Proof/Machine/Configs.lean ====
section
/-! DEFINITION. Stationmaster's CAMERA_CONFIG and DISPLAY_CONFIG (R508, R509), with the set-up sequence and what they wait for. -/

namespace Sys2Proof.Machine

/-! CAMERA_CONFIG (R508) -/

/-- A layer or pass of a staged, active or bound scene of any display names the stream. -/
def State.streamNamed (s : State) (n v : Nat) : Bool :=
  s.sm.disp.any fun x => (x.staged.toList ++ x.active.toList ++ (x.bind.map Bind.scene).toList).any fun c =>
    (c.layers.any fun e => e.source' == 2 && e.cam == (n, v)) ||
    c.passes.any fun w => [(7, 0), (15, 8), (23, 16)].any fun r =>
      let i := bitsOf (w.getD 1 0) r.1 r.2
      (i / 32 == 2 || i / 32 == 3) && i % 32 == 4 * n + v

/-- The stream is stopped: EN = 0 takes effect at once (R375). -/
def State.streamStop (s : State) (n v : Nat) : State :=
  let s1 := s.setBit (strReg Reg.STR_CFG n v) 0 false
  if s.bit (strReg Reg.STR_CFG n v) 0 then s1.setStream n v { s1.stream n v with live := false, ended := false, done := false }
  else s1

/-- The stream's registers as P1 to P9 give them, stopped. Interrupt enables and HOLD stay. -/
def State.streamRegs (s : State) (q : Req) (n v : Nat) : State :=
  let cfg := strReg Reg.STR_CFG n v
  let s1 := s.streamStop n v
  let s2 := ((s1.setFld cfg 9 4 (bitsOf (q.p 2) 5 0)).setFld cfg 13 12 (bitsOf (q.p 2) 10 8 - 1)).setReg
    (strReg Reg.STR_GEOM n v) (q.p 3)
  let s3 := (s2.setReg (strReg Reg.STR_STRIDE n v) (q.p 4)).setReg (strReg Reg.STR_TMO n v) (q.p 9)
  (List.range 4).foldl (fun s i => s.setReg (strReg Reg.STR_BUF n v + 4 * (i % 4)) (q.p (5 + i))) s3

/-- The stream is enabled, or stays stopped; the port receives while one of its streams is enabled. -/
def State.streamEnable (s : State) (q : Req) (n v : Nat) : State :=
  let cfg := strReg Reg.STR_CFG n v
  let s1 := if (q.p 1).getLsbD 8 then s.camCfgWrite n v (putBits (s.reg cfg) 0 0 1) else s
  let any := (List.range 4).any fun w => s1.bit (strReg Reg.STR_CFG n w) 0
  (s1.setFld (camReg Reg.CAM_CTL n) 2 1 (bitsOf (q.p 1) 17 16)).setBit (camReg Reg.CAM_CTL n) 0 any

/-- CAMERA_CONFIG. -/
def State.cameraConfig (s : State) (q : Req) : State :=
  let f := 0xFFFFFFFF
  let pg := 0x3FFFFF
  let n := bitsOf (q.p 1) 2 0
  let v := bitsOf (q.p 1) 5 4
  let lanes := bitsOf (q.p 1) 17 16
  let nbuf := bitsOf (q.p 2) 10 8
  let en := (q.p 1).getLsbD 8
  s.smJudge q 36 [0x30137, 0x73F, f, f, pg, pg, pg, pg, 0xFFFF] fun s =>
    if 5 < n ∨ lanes = 3 then s.smFail q.m 3 1
    else if (nbuf ≠ 3 ∧ nbuf ≠ 4) ∨ !camTypes.contains (bitsOf (q.p 2) 5 0) then s.smFail q.m 3 2
    else if nbuf = 3 ∧ q.p 8 ≠ 0 then s.smFail q.m 3 8
    else
      let t := s.streamRegs q n v
      if en ∧ t.camFits n v (t.reg (strReg Reg.STR_CFG n v)) = false then s.smFail q.m 0x11 0
      else if en ∧ (t.streamEnable q n v).admits s.displaysOn = false then s.smFail q.m 0xA 0
      else if ((List.range 4).any fun w => w != v && s.bit (strReg Reg.STR_CFG n w) 0) && s.fld (camReg Reg.CAM_CTL n) 2 1 != lanes then
        s.smFail q.m 0xB 0
      else if !en && s.streamNamed n v then s.smFail q.m 0xB 0
      else (t.streamEnable q n v).smDone q.m []

/-- CAMERA_CONFIG. -/
def execCameraConfig (m : Nat) (s : State) : Host.Outcome State Fault Refusal :=
  .next (s.smRun m 0x40 hostBoxes State.cameraConfig)

/-! The set-up sequence (R509) -/

/-- The types of the records of a set-up sequence, in order, up to its End record or its length; none where it is malformed. -/
def seqTypes : Nat → List Byte → Option (List Nat)
  | 0, _ => some []
  | i + 1, b =>
    if b.length < 4 then some []
    else
      let h := BitVec.ofNat 32 (leNat (b.take 4))
      let ty := bitsOf h 31 28
      let n := bitsOf h 7 0
      let ok :=
        (ty == 1 && decide (1 ≤ n ∧ n ≤ 16)) || (ty == 2 && decide (n ≤ 1) && bitsOf h 27 16 == 0) ||
        (ty == 3 && decide (1 ≤ n ∧ n ≤ 64) && bitsOf h 27 16 == 0) ||
        (ty == 4 && decide (1 ≤ bitsOf h 27 8 ∧ bitsOf h 27 8 ≤ 1000) && n == 0) || (ty == 15 && bitsOf h 27 0 == 0)
      let size := 4 + (n + 3) / 4 * 4
      if !ok ∨ b.length < size then none
      else if ty = 15 then some []
      else (seqTypes i (b.drop size)).map fun l => ty :: l

/-- The ordinal of the record at which a sequence ends on pipe `p`, 0 if it runs through: the first record that does not suit
the pipe, or the transfer `bad` that failed. -/
def seqStop (p : Nat) (types : List Nat) (bad : Option Nat) : Nat :=
  let stop := fun (e : Nat × Nat) =>
    (if pipeDsi p then e.1 == 1 else e.1 == 2 || e.1 == 3) || (e.1 != 4 && bad == some (e.2 + 1))
  match types.zipIdx.find? stop with
  | some e => e.2 + 1
  | none => 0

/-! DISPLAY_CONFIG (R398, R509) -/

/-- OFFSET under R398: the bound of 900 us on the commit plus two line times, rounded up to 100 us (log entry 82). -/
def State.lockOffset (s : State) (p : Nat) : Nat :=
  let k := s.pclk p
  if k = 0 then 1000 else (900 * k + 2000 * s.htotal p + 100 * k - 1) / (100 * k) * 100

/-- OFFSET plus two line times would exceed 3,000 us (R398). -/
def State.offsetBad (s : State) (p : Nat) : Bool := decide (3000 * s.pclk p < s.lockOffset p * s.pclk p + 2000 * s.htotal p)

/-- HACT or VACT changes: scenes and tell-tale slots of the display are discarded. -/
def State.areaDiscard (s : State) (q : Req) (p : Nat) : State :=
  if s.hact p = bitsOf (q.p 2) 15 0 ∧ s.vact p = bitsOf (q.p 4) 15 0 then s
  else s.setSmDisp p { s.smDisp p with staged := none, active := none, slots := [], bind := none }

/-- The registers of pipe `p` as P1 to P8 give them, EN apart. -/
def State.displayRegs (s : State) (q : Req) (p : Nat) : State :=
  let s1 := (((((s.areaDiscard q p).setReg (pipeReg Reg.HTIM0 p) (q.p 2)).setReg (pipeReg Reg.HTIM1 p) (q.p 3)).setReg
    (pipeReg Reg.VTIM0 p) (q.p 4)).setReg (pipeReg Reg.VTIM1 p) (q.p 5)).setReg (pipeReg Reg.PCLK p) (q.p 6)
  let ctl := pipeReg Reg.PIPE_CTL p
  let s2 := ((s1.setFld ctl 3 2 (bitsOf (q.p 1) 11 10)).setBit ctl 6 ((q.p 1).getLsbD 12)).setBit ctl 7 ((q.p 1).getLsbD 13)
  s2.setReg (pipeReg Reg.PIPE_LOCK p) (word (s2.lockOffset p * 2 ^ 16 + bitsOf (q.p 8) 15 0))

/-- A1 of a DONE. -/
def State.displayA1 (s : State) (p : Nat) : Word := word (s.fld (pipeReg Reg.PIPE_LOCK p) 31 16 * 2 ^ 16 + (s.smDisp p).link)

/-- The pipe has stopped: registers, set-up sequence, enable. `stop` is the ordinal at which the sequence ends, or 0. -/
def State.displayApply (s : State) (q : Req) (stop : Nat) : State :=
  let p := bitsOf (q.p 1) 1 0
  let en := (q.p 1).getLsbD 8
  let s1 := s.displayRegs q p
  let link := if pipeDsi p then 0 else bitsOf (q.p 7) 2 0 + 16 * bitsOf (q.p 7) 6 4
  let s2 := s1.setSmDisp p { s1.smDisp p with configured := en, link := link }
  if stop ≠ 0 then s2.smFail q.m 0x12 stop
  else if en then
    let r := s2.pipeCtlWrite p (putBits (s2.reg (pipeReg Reg.PIPE_CTL p)) 0 0 1)
    if r.2 ≠ .ok then r.1.smFail q.m 0x11 0 else r.1.smWait q.m (.display p 1 false q.ps stop)
  else s2.smDone q.m [s2.displayA1 p]

/-- The link parameters of P7 have values that R509 allows. -/
def linkOk (p : Nat) (v : Word) : Bool :=
  let lanes := [1, 2, 4].contains (bitsOf v 2 0)
  if pipeDsi p then lanes && decide (bitsOf v 5 4 ≤ 2) && decide (bitsOf v 7 6 ≤ 2) && decide (80 ≤ bitsOf v 27 16) &&
    decide (bitsOf v 27 16 ≤ 2500)
  else lanes

/-- The reason for which a configuration is refused (R31, R391, R396, R398); `s` has it in its registers. -/
def State.displayReason (s : State) (p : Nat) (en : Bool) : Option Nat :=
  let on := s.displaysOn.filter (· != p) ++ if en then [p] else []
  let ctl := s.fld (pipeReg Reg.PIPE_CTL p) 3 2
  let lock := s.reg (pipeReg Reg.PIPE_LOCK p)
  let lockBad := decide (6 ≤ bitsOf lock 3 1) ||
    (lock.getLsbD 0 && decide (s.fld (pipeReg Reg.VTIM0 p) 31 16 ≤ bitsOf lock 15 8))
  if ctl = 3 ∨ (pipeDsi p ∧ ctl = 2) ∨ (en ∧ s.pipeBadTiming p ctl) ∨ lockBad then some 0x11
  else if en && (s.offsetBad p || !s.admits on) then some 0xA
  else none

/-- DISPLAY_CONFIG: what passes is put in force once the pipe has stopped. -/
def State.displayConfig (host : Option (List Byte)) (bad : Option Nat) (s : State) (q : Req) : State :=
  let f := 0xFFFFFFFF
  let p := bitsOf (q.p 1) 1 0
  let len := bitsOf (q.p 11) 12 0
  let a := q.addr 9
  s.smJudge q 44 [0x3D03, f, f, f, f, 0x7FFFF, if pipeDsi p then 0x0FFF00F7 else 0x177, 0xFF3F, f, f, 0x1FFF] fun s =>
    if !linkOk p (q.p 7) then s.smFail q.m 3 7
    else if 4096 < len ∨ (a = 0 ∧ len ≠ 0) then s.smFail q.m 3 11
    else s.smBuf q 9 len 8 host fun s b =>
      match seqTypes (len / 4 + 1) b with
      | none => s.smFail q.m 6 0
      | some types =>
        if s.armed p then s.smFail q.m 0xC 0
        else match (s.displayRegs q p).displayReason p ((q.p 1).getLsbD 8) with
          | some r => s.smFail q.m r 0
          | none =>
            let stop := seqStop p types bad
            match (s.pipe p).mode with
            | .off => s.displayApply q stop
            | .failed => (s.pipeDisable p).displayApply q stop
            | _ => (s.pipeDisable p).smWait q.m (.display p 0 false q.ps stop)

/-- DISPLAY_CONFIG. `bad` is the ordinal of an AUX or DSI transfer that fails. -/
def execDisplayConfig (m : Nat) (host : Option (List Byte)) (bad : Option Nat) (s : State) : Host.Outcome State Fault Refusal :=
  .next (if (s.param m 1).getLsbD 9 then s else s.smRun m 0x41 hostBoxes (State.displayConfig host bad))

/-- DISPLAY_CONFIG with RETRAIN: the recovery of R393. A pipe whose bring-up has failed is brought up again. -/
def State.displayRetrain (s : State) (q : Req) : State :=
  let p := bitsOf (q.p 1) 1 0
  s.smJudge q 44 [0x203, 0, 0, 0, 0, 0, 0, 0, 0, 0, 0] fun s =>
    let ctl := s.reg (pipeReg Reg.PIPE_CTL p)
    match (s.pipe p).mode with
    | .off => s.smFail q.m 0xD 0
    | .failed => (((s.pipeCtlWrite p (putBits ctl 0 0 0)).1.pipeCtlWrite p (putBits ctl 0 0 1)).1).smWait q.m (.display p 1 true q.ps 0)
    | _ => s.smWait q.m (.display p 1 true q.ps 0)

/-- DISPLAY_CONFIG_RETRAIN. -/
def execDisplayConfigRetrain (m : Nat) (s : State) : Host.Outcome State Fault Refusal :=
  .next (if (s.param m 1).getLsbD 9 then s.smRun m 0x41 hostBoxes State.displayRetrain else s)

/-- Commands that wait for a pipe to stop go on once it has. -/
def State.displayNext (s : State) : State :=
  s.sm.waits.foldl (fun s e =>
    match e.2 with
    | .display p 0 _ ps stop => if (s.pipe p).mode = .off then s.displayApply ⟨e.1, 44, ps⟩ stop else s
    | _ => s) s

/-- The bring-up of pipe `p` has ended: the command that waits for it ends. After a failure the pipe stays disabled. -/
def State.displayLinked (s : State) (p : Nat) (up : Bool) : State :=
  s.sm.waits.foldl (fun s e =>
    match e.2 with
    | .display d 1 retrain _ _ =>
      if d ≠ p then s
      else if up then s.smDone e.1 [s.displayA1 p]
      else (if retrain then s else s.pipeDisable p).smFail e.1 0x12 0
    | _ => s) s

end Sys2Proof.Machine
end

