-- ==== Sys2Proof/Machine/Updates.lean ====
section
/-! DEFINITION. Images and their update (R276 to R278, R510, R511, R622 to R632): the slots of external flash, what verifies them,
and the five update commands. -/

namespace Sys2Proof.Machine

/-! Slots (R623) -/

/-- Bytes of a slot of image kind `k`: 0 Stationmaster, 1 patch, 2 boot scene, 3 fabric. -/
def slotSize (k : Nat) : Nat := [0x400000, 0x10000, 0x800000, 0x20000].getD k 0

/-- Where slot `i` of kind `k` begins in external flash. -/
def slotBase (k i : Nat) : Nat := [0x80000, 0x10000, 0x880000, 0x30000].getD k 0 + i * slotSize k

/-- Erased flash reads as 0xFF. -/
def erased (_ : Nat) : Byte := 0xFF

/-- `n` bytes of external flash from offset `o` on. -/
def State.extBytes (s : State) (o n : Nat) : List Byte := (List.range n).map fun i => Store.get erased s.upd.ext (o + i)

/-- Program bytes at offset `o`. -/
def State.extWrite (s : State) (o : Nat) (b : List Byte) : State :=
  { s with upd := { s.upd with ext := b.zipIdx.foldl (fun f e => Store.set erased f (o + e.2) e.1) s.upd.ext } }

def State.kindRec (s : State) (k : Nat) : ImgKind := s.upd.kinds.getD k ⟨0, false, 0, [0, 0]⟩

def State.setKind (s : State) (k : Nat) (x : ImgKind) : State := { s with upd := { s.upd with kinds := listSet s.upd.kinds k x } }

/-- Bytes of an image of kind `k` beside its body. -/
def imgExtra (k : Nat) : Nat := if k = 1 then 0x90 else 0x80

/-- The image in a slot: as many bytes as its header declares, and none past the slot. -/
def State.slotImage (s : State) (k i : Nat) : List Byte :=
  let n := imgExtra k + leNat (s.extBytes (slotBase k i + 0xC) 4)
  s.extBytes (slotBase k i) (min n (slotSize k))

/-- VERSION of an image (R276, R585, R624). -/
def imgVersion (k : Nat) (b : List Byte) : Nat := if k = 1 then imgNat b 8 2 else imgNat b 8 4

/-- KEYID of an image. -/
def imgKey (k : Nat) (b : List Byte) : Nat := imgNat b (match k with | 1 => 0x1C | 3 => 0x14 | _ => 0x10) 4

/-- The rollback floor of a kind (R632). -/
def State.floor (s : State) (k : Nat) : Nat := (s.upd.floors.getD k []).getLast?.getD 0

/-! Verification (R626) -/

/-- The directory entries of a boot-scene body that are used (R625): type, offset, length. -/
def bootDir (body : List Byte) : List (Nat × Nat × Nat) :=
  ((List.range 8).map fun i => (imgNat body (16 * i) 4, imgNat body (16 * i + 4) 4, imgNat body (16 * i + 8) 4)).filter fun e => e.1 != 0

/-- The rules of R625: each type at most once, types 1 to 4 present, BOARD of 64 bytes, sections inside the body. -/
def bootDirOk (body : List Byte) : Bool :=
  let d := bootDir body
  decide (128 ≤ body.length) && decide ((d.map Prod.fst).Nodup) && ([1, 2, 3, 4].all fun t => d.any fun e => e.1 == t) &&
    d.all fun e => decide (e.1 ≤ 5) && decide (e.2.1 + e.2.2 ≤ body.length) && (e.1 != 1 || e.2.2 == 64)

/-- The body of an image. -/
def imgBody (b : List Byte) : List Byte := (b.drop 0x40).take (imgNat b 0xC 4)

/-- The bytes from `lo` to `hi - 1` are 0. -/
def zeroBytes (b : List Byte) (lo hi : Nat) : Bool := ((b.take hi).drop lo).all (· == 0)

/-- The header of an image suits its kind (R276, R585, R624). -/
def State.headerOk (s : State) (k : Nat) (b : List Byte) : Bool :=
  b.length == imgExtra k + imgNat b 0xC 4 && imgNat b 4 2 == 1 && imgNat b 6 2 == 64 &&
  match k with
  | 1 =>
    imgNat b 0 4 == 0x504D5950 && imgNat b 8 2 != 0 && imgNat b 0xA 1 == (Config.romVersion s.part.stepB).toNat &&
      imgNat b 0xB 1 == s.stepping % 256 && imgNat b 0xC 4 % 4 == 0 && decide (imgNat b 0xC 4 ≤ 12288) && zeroBytes b 0x20 0x40
  | 3 => fabHeaderOk b && fabCrcOk b && decide (b.length ≤ 131072) && zeroBytes b 0x20 0x40
  | _ =>
    imgNat b 0 4 == (if k = 0 then 0x4D535950 else 0x53425950) && imgNat b 0xC 4 % 8 == 0 &&
      imgNat b 0x14 1 == (if k = 0 then s.stepping % 256 else 0) && zeroBytes b 0x15 0x40 && (k == 0 || bootDirOk (imgBody b))

/-- A record of a patch (R277). -/
inductive PatchRec where
  | micro (first : Nat) (ws : List Word)
  | decode (idx : Nat) (entry : Word)
  deriving DecidableEq, Repr

/-- The records of a decrypted patch body; none where R277 is broken. -/
def patchRecs : Nat → List Word → Option (List PatchRec)
  | 0, _ => none
  | _, [] => none
  | i + 1, h :: t =>
    match bitsOf h 31 28 with
    | 0xF => if t.isEmpty then some [] else none
    | 1 =>
      let first := bitsOf h 13 0
      let c := (t.headD 0).toNat
      if t.isEmpty ∨ first < 0x3000 ∨ c = 0 ∨ 0x3800 < first + c ∨ t.length < 1 + c then none
      else (patchRecs i (t.drop (1 + c))).map fun l => .micro first ((t.drop 1).take c) :: l
    | 2 =>
      let start := bitsOf (t.headD 0) 13 0
      if t.isEmpty ∨ 0xE0 ≤ bitsOf h 7 0 ∨ 0x3800 ≤ start then none
      else (patchRecs i (t.drop 1)).map fun l => .decode (bitsOf h 7 0) (t.headD 0) :: l
    | _ => none

/-- The decrypted records of a patch: none for a tag that does not verify, `some none` for a malformed body. -/
def patchOpen (b : List Byte) : Option (Option (List PatchRec)) :=
  let n := imgNat b 0xC 4
  (Config.gcmOpen (imgKey 1 b) (b.take 0x40) ((b.take 0x1C).drop 0x10) (imgBody b) ((b.drop (0x40 + n)).take 16)).map fun body =>
    patchRecs (n + 1) (wordsLe body (n / 4))

/-- Why an image of kind `k` does not verify: FORMAT, KEY, SIGNATURE, ROLLBACK. -/
def State.imgReason (s : State) (k : Nat) (b : List Byte) : Option Nat :=
  if !s.headerOk k b then some 6
  else if !s.keyAccepted (imgKey k b) then some 8
  else if !sigOk (imgKey k b) b then some 7
  else if imgVersion k b < s.floor k then some 9
  else if k = 1 then match patchOpen b with | none => some 7 | some none => some 6 | some (some _) => none
  else none

/-! The commands (R510, R511, R629) -/

/-- An update command ends, and its step is logged (R513). -/
def State.updEnd (s : State) (image op status : Nat) : State := s.logEvent 0x0B (image * 16 + op) status

/-- It ends with a reason. -/
def State.updFail (s : State) (q : Req) (image op code w : Nat) (more : List Word) : State :=
  (s.smFailWith q.m 0 code w more).updEnd image op (reasonStatus code)

/-- It ends DONE. -/
def State.updDone (s : State) (q : Req) (image op : Nat) (a : List Word) : State := (s.smDone q.m a).updEnd image op 0

/-- UPDATE_BEGIN. -/
def State.updateBegin (s : State) (q : Req) : State :=
  let k := bitsOf (q.p 1) 1 0
  s.smJudge q 12 [3, 0xFFFFFFFF, 0xFFFFFFFF] fun s =>
    if slotSize k < (q.p 2).toNat then s.updFail q k 0 3 2 []
    else if s.upd.kinds.any ImgKind.trial then s.updFail q k 0 0xD 0 []
    else
      let s0 := if s.upd.sess = 0 then s else s.updEnd s.upd.sessKind 0 3
      let t := 1 - (s0.kindRec k).active % 2
      let s1 := s0.setKind k { s0.kindRec k with slots := listSet (s0.kindRec k).slots t 0 }
      let u := { s1.upd with sessKind := k, sess := 1, length := (q.p 2).toNat, version := (q.p 3).toNat, got := 0 }
      { s1 with upd := u }.updDone q k 0 [word t, word (slotSize k)]

/-- UPDATE_BEGIN. -/
def execUpdateBegin (m : Nat) (s : State) : Host.Outcome State Fault Refusal := .next (s.smRun m 0x50 hostBoxes State.updateBegin)

/-- The target slot of the session. -/
def State.target (s : State) : Nat := 1 - (s.kindRec s.upd.sessKind).active % 2

/-- The target slot and the session enter a state. -/
def State.setSession (s : State) (slot sess : Nat) : State :=
  let k := s.upd.sessKind
  let s1 := s.setKind k { s.kindRec k with slots := listSet (s.kindRec k).slots s.target slot }
  { s1 with upd := { s1.upd with sess := sess } }

/-- UPDATE_CHUNK. -/
def State.updateChunk (host : Option (List Byte)) (s : State) (q : Req) : State :=
  let f := 0xFFFFFFFF
  let n := (q.p 4).toNat
  s.smJudge q 16 [f, f, f, f] fun s =>
    let k := s.upd.sessKind
    if s.upd.sess ≠ 1 then s.updFail q k 1 0xD 0 []
    else if n < 4 ∨ 262144 < n ∨ n % 4 ≠ 0 then s.updFail q k 1 3 4 []
    else if (q.p 1).toNat ≠ s.upd.got then s.updFail q k 1 0x10 1 [word s.upd.got]
    else if s.upd.length < s.upd.got + n ∨ (n % 4096 ≠ 0 ∧ s.upd.got + n ≠ s.upd.length) then s.updFail q k 1 3 4 []
    else s.smBuf q 2 n 4 host fun s b =>
      let s1 := s.extWrite (slotBase k s.target + s.upd.got) b
      let s2 := { s1 with upd := { s1.upd with got := s.upd.got + n } }
      (if s.upd.got + n = s.upd.length then s2.setSession 1 2 else s2).updDone q k 1 [word (s.upd.got + n)]

/-- UPDATE_CHUNK. -/
def execUpdateChunk (m : Nat) (host : Option (List Byte)) (s : State) : Host.Outcome State Fault Refusal :=
  .next (s.smRun m 0x51 hostBoxes (State.updateChunk host))

/-- UPDATE_VERIFY. -/
def State.updateVerify (s : State) (q : Req) : State :=
  s.smJudge q 0 [] fun s =>
    let k := s.upd.sessKind
    if s.upd.sess ≠ 2 then s.updFail q k 2 0xD 0 []
    else if s.bit Reg.TAMPER_STAT 4 then s.updFail q k 2 0xF 0 []
    else
      let b := s.slotImage k s.target
      if b.length ≠ s.upd.length then s.updFail q k 2 6 0 []
      else match s.imgReason k b with
        | some r => s.updFail q k 2 r 0 []
        | none => (s.setSession 2 3).updDone q k 2 [word (imgVersion k b)]

/-- UPDATE_VERIFY. -/
def execUpdateVerify (m : Nat) (s : State) : Host.Outcome State Fault Refusal := .next (s.smRun m 0x52 hostBoxes State.updateVerify)

/-- UPDATE_ACTIVATE: the new slot runs from the next start, on trial. A1 is free, since R511 gives it no meaning. -/
def State.updateActivate (s : State) (q : Req) : State :=
  s.smJudge q 4 [3] fun s =>
    let k := s.upd.sessKind
    if s.upd.sess ≠ 3 then s.updFail q k 3 0xD 0 []
    else if bitsOf (q.p 1) 1 0 ≠ k then s.updFail q k 3 3 1 []
    else
      let s1 := s.setKind k { s.kindRec k with active := s.target, trial := true, trials := 0 }
      ({ s1 with upd := { s1.upd with sess := 0 } }.updDone q k 3 [Config.freeWord s.free 1]).useFree

/-- UPDATE_ACTIVATE. -/
def execUpdateActivate (m : Nat) (s : State) : Host.Outcome State Fault Refusal :=
  .next (s.smRun m 0x53 hostBoxes State.updateActivate)

/-- UPDATE_CONFIRM: the trial ends, and a floor record is programmed when the version exceeds the floor and one is left
(R632). -/
def State.updateConfirm (s : State) (q : Req) : State :=
  let k := bitsOf (q.p 1) 1 0
  s.smJudge q 4 [3] fun s =>
    let x := s.kindRec k
    if s.upd.sess ≠ 0 ∨ x.trial = false then s.updFail q k 4 0xD 0 []
    else
      let v := imgVersion k (s.slotImage k x.active)
      let s1 := s.setKind k { x with trial := false, trials := 0, slots := listSet x.slots x.active 3 }
      let fs := s1.upd.floors.getD k []
      let s2 := if s.floor k < v ∧ fs.length < 16 then { s1 with upd := { s1.upd with floors := listSet s1.upd.floors k (fs ++ [v]) } }
        else s1
      (s2.updDone q k 4 [Config.freeWord s.free 1]).useFree

/-- UPDATE_CONFIRM. -/
def execUpdateConfirm (m : Nat) (s : State) : Host.Outcome State Fault Refusal :=
  .next (s.smRun m 0x54 hostBoxes State.updateConfirm)

end Sys2Proof.Machine
end

