-- ==== Sys2Proof/Machine/Orders.lean ====
section
/-! DEFINITION. Stationmaster's commands on the Coupler, duty, the fabric, customer microcode and power (R496, R516 to R523,
R559, R569 to R571, R574, R611, R612). -/

namespace Sys2Proof.Machine

/-! Pairing and the sweep (R516, R517, R559, R574) -/

/-- Every named port has reached the state: PAIRED, or OFF for UNPAIR. The command ends (R516, R559). -/
def State.pairNext (s : State) : State :=
  s.sm.waits.foldl (fun s e =>
    match e.2 with
    | .pair mask =>
      let ps := (List.range 2).filter mask.testBit
      if ps.all fun p => s.cplState p == 3 then s.smDone e.1 [word s.identA6, (s.cplPort (ps.headD 0)).chip] else s
    | _ => s) s

/-- COUPLER_PAIR and its UNPAIR form. A port that UNPAIR names is OFF at once. -/
def State.couplerPair (s : State) (q : Req) : State :=
  s.smJudge q 8 [0x103, 0xF] fun s =>
    let mask := bitsOf (q.p 1) 1 0
    let un := (q.p 1).getLsbD 8
    let ps := (List.range 2).filter mask.testBit
    if s.part.cplRole ∧ q.p 2 ≠ 0 then s.smFail q.m 3 2
    else
      let en := if un then s.fld Reg.CPL_CTL 1 0 &&& (3 - mask) else s.fld Reg.CPL_CTL 1 0 ||| mask
      let v := putBits (s.reg Reg.CPL_CTL) 1 0 en
      let v := if s.part.cplRole then v else putBits v 19 16 (bitsOf (q.p 2) 3 0)
      let s1 := s.cplEnable v
      if un then s1.smDone q.m [word s1.identA6, (s1.cplPort (ps.headD 0)).chip]
      else (s1.smWait q.m (.pair mask)).pairNext

/-- 20 ms after take-up (R559): a port is not PAIRED. -/
def State.pairLate (s : State) (m : Nat) : State :=
  match s.smWaits m with
  | some (.pair mask) =>
    match (List.range 2).find? fun p => mask.testBit p && s.cplState p != 3 with
    | some p => s.smFailWith m 0 0x14 0 [word p]
    | none => s
  | _ => s

/-- COUPLER_PAIR: it is taken up, or its 20 ms have passed. -/
def execCouplerPair (m : Nat) (s : State) : Host.Outcome State Fault Refusal :=
  .next (match s.smWaits m with
    | some (.pair _) => s.pairLate m
    | _ => if (s.param m 1).getLsbD 8 then s else s.smRun m 0x70 hostBoxes State.couplerPair)

/-- COUPLER_UNPAIR. -/
def execCouplerUnpair (m : Nat) (s : State) : Host.Outcome State Fault Refusal :=
  .next (if (s.param m 1).getLsbD 8 then s.smRun m 0x70 hostBoxes State.couplerPair else s)

/-- COUPLER_SWEEP: the first PROBE is sent. -/
def State.couplerSweep (s : State) (q : Req) : State :=
  s.smJudge q 0 [] fun s =>
    if s.part.cplRole || !s.bit Reg.CPL_STAT 3 || s.cplState 1 != 3 then s.smFail q.m 0xD 0
    else if s.cpl.top = 0 then s.sweepDone ⟨q.m, 1, 0, []⟩
    else ({ s with cpl := { s.cpl with sweep := some ⟨q.m, 1, s.cpl.top, []⟩ } }).cplSend 1 7 1 []

/-- COUPLER_SWEEP. -/
def execCouplerSweep (m : Nat) (s : State) : Host.Outcome State Fault Refusal := .next (s.smRun m 0x71 hostBoxes State.couplerSweep)

/-! Duty (R518, R569 to R571) -/

/-- The device is on duty for display `d`: its pipe scans out a scene and its channel is armed. -/
def State.onDuty (s : State) (d : Nat) : Bool :=
  s.bit (dispReg Reg.DISP_STAT d) 0 && s.bit (pipeReg Reg.PIPE_STAT d) 14 && (s.smDisp d).active.isSome

/-- CPL_STAT.DUTY follows the displays on duty. -/
def State.showDuty (s : State) : State := s.setFld Reg.CPL_STAT 15 12 (maskOf 4 s.onDuty)

/-- The bytes of the active generation (R563). -/
def State.generation (s : State) : List Byte :=
  s.halfBytes (2 + s.fld Reg.CPL_RX_STAT 16 16) (s.fld Reg.CPL_RX_STAT 12 0)

/-- The block of display `d` in a generation. -/
def genBlock (g : List Byte) (d : Nat) : Option (List Byte) :=
  let mask := imgNat g 4 4
  if d < 4 ∧ mask.testBit d then
    some ((g.drop (0x40 + 784 * ((List.range d).filter mask.testBit).length)).take 784)
  else none

/-- The CRC-32 of a reference record (R563), as the secure region holds it. -/
def State.recordCrc (s : State) (n : Nat) : Nat :=
  let r := s.secReadWords (0x2000 + 32 * n) 32
  crc32 (r.2.1.flatMap fun w => natLe 8 w.toNat)

/-- The conditions of R569 on a PARTNER that takes duty for `d`. -/
def State.partnerMay (s : State) (d : Nat) : Bool :=
  match if s.bit Reg.CPL_STAT 6 then genBlock s.generation d else none with
  | none => false
  | some b =>
    !s.onDuty d && (s.smDisp d).configured && s.hact d == imgNat b 8 2 && s.vact d == imgNat b 0xA 2 &&
    (List.range 64).all fun r =>
      let w := BitVec.ofNat 32 (imgNat b (0x10 + 4 * r) 4)
      !w.getLsbD 31 || (s.recordCrc (bitsOf w 7 0) == imgNat b (0x110 + 4 * r) 4 && (s.smDisp d).slots.any fun e => e.1 == r)

/-- The conditions of R569 for display `d`. -/
def State.dutyMay (s : State) (revoke : Bool) (d : Nat) : Bool :=
  if revoke then s.onDuty d
  else if s.part.cplRole then s.partnerMay d
  else !s.onDuty d && (s.smDisp d).configured && (s.smDisp d).active.isSome

/-- What a device stages to take duty for `d` (R570). -/
def State.dutyBind (s : State) (d : Nat) : Bind :=
  let x := s.smDisp d
  let arm := fun (v : Word) => v ||| 1
  match if s.part.cplRole then genBlock s.generation d else none with
  | none => ⟨x.active.getD ⟨0, 0, none, [], []⟩, none, some (arm (s.reg (dispReg Reg.DISP_CFG d))), false⟩
  | some b =>
    let es := ((pieces 8 8 (wordsLe (b.drop 0x210) 64)).map fun w => (⟨w, true, 0, none, []⟩ : LayerEnt)).filter (·.telltale)
    let c := x.staged.getD ⟨0, 0, none, [], []⟩
    let keep := c.layers.filter fun e => !e.telltale && !es.any fun t => t.num == e.num
    ⟨{ c with layers := keep ++ es }, some (wordsLe (b.drop 0x10) 64), some (arm (BitVec.ofNat 32 (imgNat b 4 4))), false⟩

/-- The staged items of `d` are bound; a pipe that does not scan out is enabled first (R570). -/
def State.dutyTake (s : State) (d : Nat) : State :=
  let s1 := s.setSmDisp d { s.smDisp d with bind := some (s.dutyBind d) }
  if s.bit (pipeReg Reg.PIPE_STAT d) 14 then s1
  else (s1.pipeCtlWrite d (putBits (s1.reg (pipeReg Reg.PIPE_CTL d)) 0 0 1)).1

/-- TAKEOVER_GRANT and its REVOKE form, up to the judgement of R569. -/
def State.takeover (f : State → Req → List Nat → State) (s : State) (q : Req) : State :=
  s.smJudge q 8 [0x10F, 0xFFFFFFFF] fun s =>
    let ds := (List.range 4).filter fun d => (q.p 1).getLsbD d
    if q.p 2 ≠ ~~~(q.p 1) then s.smFail q.m 3 2
    else if ds.all (s.dutyMay ((q.p 1).getLsbD 8)) then f s q ds
    else s.smFail q.m 0xD 0

/-- TAKEOVER_GRANT (R570). -/
def State.takeoverGrant (s : State) (q : Req) (ds : List Nat) : State :=
  if ds.isEmpty then s.smDone q.m [word (s.fld Reg.CPL_STAT 15 12)]
  else
    let mask := bitsOf (q.p 1) 3 0
    let bring := maskOf 4 fun d => mask.testBit d && !s.bit (pipeReg Reg.PIPE_STAT d) 14
    (ds.foldl State.dutyTake s).smWait q.m (.take mask mask bring)

/-- TAKEOVER_GRANT. -/
def execTakeoverGrant (m : Nat) (s : State) : Host.Outcome State Fault Refusal :=
  .next (if (s.param m 1).getLsbD 8 then s else s.smRun m 0x72 [2] (State.takeover State.takeoverGrant))

/-- ARM of display `d` is written as INIT 0. -/
def State.writeArm (s : State) (d : Nat) (on : Bool) : State × Resp :=
  s.dispCfgWrite 0 d (putBits (s.reg (dispReg Reg.DISP_CFG d)) 0 0 on.toNat)

/-- REVOKE (R571): every disarm, or nothing. -/
def State.takeoverRevoke (s : State) (q : Req) (ds : List Nat) : State :=
  let mask := bitsOf (q.p 1) 3 0
  if ds.any fun d => (s.writeArm d false).2 != .ok then s.smFail q.m 0xC 0
  else if ds.isEmpty then s.smDone q.m [word (s.fld Reg.CPL_STAT 15 12)]
  else (ds.foldl (fun (s : State) d => ((s.writeArm d false).1).pipeDisable d) s).smWait q.m (.leave mask mask)

/-- TAKEOVER_REVOKE. -/
def execTakeoverRevoke (m : Nat) (s : State) : Host.Outcome State Fault Refusal :=
  .next (if (s.param m 1).getLsbD 8 then s.smRun m 0x72 [2] (State.takeover State.takeoverRevoke) else s)

/-! The fabric (R519 to R521) -/

/-- FABRIC_LOAD waits for the configuration controller. -/
def State.fabricStart (s : State) (q : Req) (image : Option (List Byte)) : State :=
  let s1 := if s.fabState = 3 ∨ s.fabState = 4 then s.fabHold else s
  match image with
  | none => (s1.fabStartFlash).smWait q.m (.fabLoad false 0)
  | some b =>
    let s2 := s1.fabStartStream.setFld Reg.FAB_CFG_LEN 17 0 b.length
    ((wordsLe b (b.length / 4)).foldl (fun s w => (s.fabData w).1) s2).smWait q.m (.fabLoad ((q.p 1).getLsbD 1) 0)

/-- FABRIC_LOAD. `bad`: the body of the image in memory holds a reserved encoding (R586). -/
def State.fabricLoad (host : Option (List Byte)) (bad : Bool) (s : State) (q : Req) : State :=
  let f := 0xFFFFFFFF
  let mem := (q.p 1).getLsbD 0
  let rel := fun (s : State) => (s.fabState == 3 || s.fabState == 4) && !(q.p 1).getLsbD 8
  let busy := fun (s : State) => !([0, 2, 3, 4, 5].contains s.fabState || (s.fabState == 1 && s.fabShort))
  s.smJudge q 16 (if mem then [0x103, f, f, f] else [0x101, 0, 0, 0]) fun s =>
    if rel s then s.smFail q.m 0xD 0
    else if !mem then
      if busy s || s.bit Reg.FAB_FLASH_CTL 8 then s.smFail q.m 0x11 0 else s.fabricStart q none
    else s.smBuf q 2 (q.p 4).toNat 8 host fun s b =>
      match if bad then some 6 else s.imgReason 3 b with
      | some r => s.smFail q.m r 0
      | none => if busy s then s.smFail q.m 0x11 0 else s.fabricStart q (some b)

/-- FABRIC_LOAD. -/
def execFabricLoad (m : Nat) (host : Option (List Byte)) (bad : Bool) (s : State) : Host.Outcome State Fault Refusal :=
  .next (s.smRun m 0x90 hostBoxes (State.fabricLoad host bad))

/-- Commands that wait for the fabric go on: a load has ended, the configuration flash is programmed, or it runs. `flashBad`:
a programming has just failed. -/
def State.fabricNext (s : State) (flashBad : Bool) : State :=
  s.sm.waits.foldl (fun s e =>
    match e.2 with
    | .fabLoad store 0 =>
      if s.fabState = 5 then s.smFail e.1 6 0
      else if s.fabState = 2 then
        if store && s.fab.image != s.fab.flash then (s.fabProgram).smWait e.1 (.fabLoad store 1)
        else s.smDone e.1 [s.reg Reg.FAB_CRC]
      else s
    | .fabLoad _ _ =>
      if s.bit Reg.FAB_FLASH_CTL 8 then s
      else if flashBad then s.smFail e.1 0xE 0
      else s.smDone e.1 [s.reg Reg.FAB_CRC]
    | .fabRelease => if s.fabState = 4 then s.smDone e.1 [] else if s.fabState = 3 then s else s.smFail e.1 0xD 0
    | _ => s) s

/-- FABRIC_RELEASE. -/
def State.fabricRelease (s : State) (q : Req) : State :=
  s.smJudge q 0 [] fun s =>
    if s.fabState = 2 then (s.fabRelease).smWait q.m .fabRelease
    else if s.fabState = 3 ∨ s.fabState = 4 then (s.smWait q.m .fabRelease).fabricNext false
    else s.smFail q.m 0xD 0

/-- FABRIC_RELEASE. -/
def execFabricRelease (m : Nat) (s : State) : Host.Outcome State Fault Refusal :=
  .next (s.smRun m 0x91 hostBoxes State.fabricRelease)

/-- FABRIC_READBACK: `w` are the words of the flip-flops as sampled (R598). -/
def State.fabricReadback (w : List Word) (s : State) (q : Req) : State :=
  let n := bitsOf (q.p 2) 3 0
  let i := bitsOf (q.p 1) 15 0
  s.smJudge q 8 [0xFFFF, 0xF] fun s =>
    if 6149 < i then s.smFail q.m 3 1
    else if n = 0 ∨ n = 15 then s.smFail q.m 3 2
    else if s.sm.waits.any fun e => match e.2 with | .fabLoad _ _ => true | _ => false then s.smFailWith q.m 50 0x16 0 []
    else
      let s1 := (s.fabSnap w).setFld Reg.FAB_RB_IDX 12 0 i
      let r := (List.range n).foldl (fun (a : State × List Word) _ => let x := a.1.fabRbRead; (x.1, a.2 ++ [x.2])) (s1, [])
      r.1.smDone q.m r.2

/-- FABRIC_READBACK. -/
def execFabricReadback (m : Nat) (w : List Word) (s : State) : Host.Outcome State Fault Refusal :=
  .next (s.smRun m 0x92 [0, 1, 2] (State.fabricReadback w))

/-! Customer microcode (R522, R523) -/

/-- A resident kernel uses a customer opcode. -/
def State.copcUsed (s : State) : Bool := s.kernels.any fun x => x.copc != 0

/-- The pairs of DECODE_SET. -/
def Req.pairs (q : Req) : List (Nat × Word × Word) := (List.range (q.len / 8)).map fun i => (i, q.p (2 * i + 1), q.p (2 * i + 2))

/-- The number of the first parameter word that DECODE_SET does not permit. -/
def Req.badPair (q : Req) : Option Nat :=
  (q.pairs.find? fun e => decide (e.2.1.toNat < 0xE0 ∨ 0xFF < e.2.1.toNat) || (e.2.2 &&& 0x7FFFC000 != 0) ||
      decide (bitsOf e.2.2 13 0 < 0x3800)).map fun e =>
    if e.2.1.toNat < 0xE0 ∨ 0xFF < e.2.1.toNat then 2 * e.1 + 1 else 2 * e.1 + 2

/-- DECODE_SET. -/
def State.decodeSet (s : State) (q : Req) : State :=
  if q.len = 0 ∨ q.len % 8 ≠ 0 ∨ 56 < q.len then s.smFail q.m 2 0
  else match q.badPair with
    | some w => s.smFail q.m 3 w
    | none =>
      if s.copcUsed then s.smFail q.m 0xB 0
      else (q.pairs.foldl (fun s e => ((s.setFld Reg.DEC_IDX 7 0 (bitsOf e.2.1 7 0)).decWrite e.2.2).1) s).smDone q.m []

/-- DECODE_SET. -/
def execDecodeSet (m : Nat) (s : State) : Host.Outcome State Fault Refusal := .next (s.smRun m 0xA0 hostBoxes State.decodeSet)

/-- MICROCODE_WRITE. -/
def State.microcodeWrite (host : Option (List Byte)) (s : State) (q : Req) : State :=
  let f := 0xFFFFFFFF
  let a := bitsOf (q.p 1) 13 0
  let n := (q.p 4).toNat
  s.smJudge q 16 [0x3FFF, f, f, f] fun s =>
    if a < 0x3800 then s.smFail q.m 3 1
    else if n = 0 ∨ 2048 < n ∨ 0x4000 < a + n then s.smFail q.m 3 4
    else if s.copcUsed then s.smFail q.m 0xB 0
    else s.smBuf q 2 (4 * n) 4 host fun s b =>
      ((wordsLe b n).foldl (fun s w => (s.csWrite w).1) (s.setFld Reg.CS_WADDR 13 0 a)).smDone q.m []

/-- MICROCODE_WRITE. -/
def execMicrocodeWrite (m : Nat) (host : Option (List Byte)) (s : State) : Host.Outcome State Fault Refusal :=
  .next (s.smRun m 0xA1 hostBoxes (State.microcodeWrite host))

/-! POWER (R496, R610 to R612) -/

/-- A display is armed and has a FAULT bit or FROZEN set. -/
def State.armedFault (s : State) (d : Nat) : Bool :=
  s.armed d && (s.anySlot Reg.FAULT d || s.bit (dispReg Reg.DISP_STAT d) 1)

/-- POWER is taken up. -/
def State.power (s : State) (q : Req) : State :=
  let t := bitsOf (q.p 1) 2 0
  s.smJudge q 8 [7, 0xF] fun s =>
    if 4 < t then s.smFail q.m 3 1
    else if (t < 3 ∧ q.p 2 ≠ 0) ∨ (t = 4 ∧ q.p 2 ≠ 1) then s.smFail q.m 3 2
    else
      let s := s.setBit Reg.PWR_STAT 16 false
      if t = 0 then s.smDone q.m [0]
      else if t = 1 then
        if (List.range 4).any s.armed then s.smFail q.m 0xC 0 else ((s.smDone q.m [1]).pwrWrite 0 Reg.PWR_CTL 5).1
      else if (List.range 4).any s.armedFault then s.smFail q.m 0xC 0
      else ((s.pwrWrite 0 Reg.PWR_CTL (word (4 * t + 256 * (q.p 2).toNat))).1).smWait q.m (.power t 0 0 0 0)

/-- The next strip boundary (R612, step 3): every armed channel is disarmed, and pipes and streams are stopped; or, when a
channel refuses, the power-down is backed out of. -/
def State.powerStop (s : State) (m t : Nat) : State :=
  let arms := (List.range 4).filter s.armed
  if arms.any fun d => (s.writeArm d false).2 != .ok then
    ((s.pwrWrite 0 Reg.PWR_CTL 0).1).smFail m 0xC 0
  else
    let pipes := s.displaysOn
    let cams := (List.range 24).filter fun i => s.bit (strReg Reg.STR_CFG (i / 4) (i % 4)) 0
    let s1 := arms.foldl (fun s d => (s.writeArm d false).1) s
    let s2 := pipes.foldl State.pipeDisable s1
    let s3 := cams.foldl (fun s i => s.streamStop (i / 4) (i % 4)) s2
    let w := SmWait.power t 1 (maskOf 4 arms.contains) (maskOf 24 cams.contains) (maskOf 4 pipes.contains)
    s3.smWait m w

/-- Ports that Stationmaster fences in step 4 of R612. Port 52 stays open while the fabric keeps its power. -/
def State.powerPorts (s : State) (t : Nat) : List Nat :=
  [0, 1, 2, 3, 16, 17, 18, 19, 32, 33, 34, 35, 36, 37, 50, 51, 60, 61, 62, 63] ++
    if t = 2 && s.bit Reg.FAB_CTL 4 then [] else [52]

/-- Once every pipe has stopped, the ports are fenced (R612, step 4). -/
def State.powerNext (s : State) : State :=
  s.sm.waits.foldl (fun s e =>
    match e.2 with
    | .power t 1 a c p =>
      if (List.range 4).all fun d => (s.pipe d).mode == .off then
        ((s.powerPorts t).foldl (fun s p => s.fencePort p true) s).smWait e.1 (.power t 2 a c p)
      else s
    | _ => s) s

/-- POWER: it is taken up, or the strip boundary of its step 3 comes. -/
def execPower (m : Nat) (s : State) : Host.Outcome State Fault Refusal :=
  .next (match s.smWaits m with
    | some (.power t 0 _ _ _) => (s.powerStop m t).powerNext
    | _ => s.smRun m 0x02 hostBoxes State.power)

end Sys2Proof.Machine
end

