-- ==== Sys2Proof/Machine/Vsync.lean ====
section
/-! DEFINITION. A pipe's start of vertical sync (R24, R25, R390): the frame that Stationmaster has rendered is committed, the pipe
and the Interlocking sample what is pending, commands that waited end, the strips of the next frame start, and on a MAIN the
generation and the MARK are sent. The Coupler, fabric and link events for which commands wait are here too. -/

namespace Sys2Proof.Machine

/-! Committing a rendered frame (R25, R498, R501, R570) -/

/-- The buffers of a scene as its next frame shows them: a RENDERED layer shows the next of its buffers, a CAMERA layer its
stream's last completed frame. -/
def State.rotate (s : State) (c : Scene) : Scene :=
  let turn := fun (e : LayerEnt) =>
    if e.source' = 1 then { e with shown := (e.shown + 1) % max 1 e.nbuf }
    else if e.source' = 2 then { e with shown := s.fld (strReg Reg.STR_SSTAT e.cam.1 e.cam.2) 19 18 }
    else e
  { c with layers := c.layers.map turn }

/-- The pending registers of pipe `p` for layer `l` of a scene. -/
def State.putLayer (s : State) (p : Nat) (c : Scene) (l : Nat) : State :=
  match c.layers.find? fun e => e.num == l && e.on with
  | none => s.setBit (layReg Reg.LAY_LFMT p l) 0 false
  | some e =>
    let x := e.layer ((s.layerPages e).getD e.shown 0)
    let set := fun (s : State) (r n : Nat) => s.setReg (layReg r p l) (word n)
    set (set (set (set (set (set s Reg.LAY_BASE_LO x.base) Reg.LAY_BASE_HI (x.base / 2 ^ 32)) Reg.LAY_STRIDE x.stride) Reg.LAY_SIZE
      (x.h * 2 ^ 16 + x.w)) Reg.LAY_POS (x.y * 2 ^ 16 + x.x)) Reg.LAY_LFMT (1 + 2 * x.fmt + 16 * x.yuv709.toNat + 256 * x.ga)

/-- The pending copies of pipe `p` for a scene. -/
def State.putScene (s : State) (p : Nat) (c : Scene) : State :=
  let s1 := (List.range 8).foldl (fun s l => s.putLayer p c l)
    ((s.setReg (pipeReg Reg.PIPE_BG p) c.bg).setReg (pipeReg Reg.FMT_CTL p) c.fmt)
  match c.lut with
  | none => s1
  | some t => s1.setPipe p { s1.pipe p with lut := Store.sparse (fun _ => 0) 0 t }

/-- A kernel that a pass of the scene runs is faulted (R506). -/
def State.sceneFaulted (s : State) (c : Scene) : Bool :=
  c.passes.any fun w => s.kernels.any fun k => k.kid == bitsOf (w.getD 0 0) 5 0 && k.faulted

/-- The frame of display `p` in progress is not to be committed: a strip failed twice (R20), a kernel is faulted, or its last
strip was lost (R30), which the enabled display of the highest number owns (log entry 83). -/
def State.frameBad (s : State) (p : Nat) (c : Scene) : Bool :=
  s.sched.badFrames.contains p || s.sceneFaulted c || (s.sched.lostStrip && s.displaysOn.getLast? == some p)

/-- Stationmaster holds, of every stream that the scene `c` names, the buffers that layers of displays show and the last
completed frame that a pass reads (R368). -/
def State.holdBuffers (s : State) (c : Scene) : State :=
  let layers := s.sm.disp.flatMap fun x => (x.active.map Scene.layers).getD []
  let passes := s.sm.disp.flatMap fun x => (x.active.map Scene.passes).getD []
  let ins := fun (w : List Word) => [bitsOf (w.getD 1 0) 7 0, bitsOf (w.getD 1 0) 15 8, bitsOf (w.getD 1 0) 23 16]
  (List.range 24).foldl (fun s i =>
    let n := i / 4
    let v := i % 4
    let named := (c.layers.any fun e => e.source' == 2 && e.cam == (n, v)) || c.passes.any fun w => (ins w).contains (64 + i)
    if !named then s
    else
      let last := s.fld (strReg Reg.STR_SSTAT n v) 19 18
      let read := passes.any fun w => (ins w).contains (64 + i)
      let shown := fun b => layers.any fun e => e.source' == 2 && e.cam == (n, v) && e.shown == b
      s.setFld (strReg Reg.STR_CFG n v) 19 16 (maskOf 4 fun b => shown b || (read && last == b))) s

/-- The commit of a rendered frame of display `p`: the pipe's, and for a display that takes duty the channel's and its
CFG; false when the hardware refuses it. -/
def State.issueCommit (s : State) (p : Nat) (b : Bind) : State × Bool :=
  if s.pipePend p then (s, false)
  else
    let c := s.rotate b.scene
    let r := (s.putScene p c).pipeCommit p
    let old := (s.smDisp p).active.getD ⟨0, 0, none, [], []⟩
    let take := fun (s : State) => ((s.setSmDisp p { s.smDisp p with active := some c, bind := none }).holdBuffers old).holdBuffers c
    if r.2 ≠ .ok then (r.1, false)
    else
      let s1 := match b.regions with
        | none => (r.1, Resp.ok)
        | some ws => (ws.zipIdx.foldl (fun (s : State) (e : Word × Nat) => (s.regionWrite p (regSlot p e.2) e.1).1) r.1).regionCommit p
      if s1.2 ≠ .ok then (s1.1.pipeCancel p, false)
      else match b.cfg with
        | none => (take s1.1, true)
        | some v => (take (s1.1.dispCfgWrite 0 p v).1, true)

/-- The scene whose frame of display `p` has been rendered: the one bound to it, or the active one where every frame differs. -/
def State.rendered (s : State) (p : Nat) : Option Bind :=
  match (s.smDisp p).bind with
  | some b => if b.started then some b else none
  | none =>
    match (s.smDisp p).active with
    | some c => if c.passes ≠ [] ∨ c.layers.any (fun e => e.source' == 2) then some ⟨c, none, none, true⟩ else none
    | none => none

/-- Commands that wait for display `p` to take a frame end, because the hardware refuses its commit. -/
def State.refuseTake (s : State) (p : Nat) : State :=
  (s.setSmDisp p { s.smDisp p with bind := none }).sm.waits.foldl (fun s e =>
    match e.2 with
    | .commit mask _ _ | .take mask _ _ => if mask.testBit p then s.smFail e.1 0x11 0 else s
    | _ => s) (s.setSmDisp p { s.smDisp p with bind := none })

/-- Just before a start of vertical sync of pipe `p`: the rendered frame is committed unless it is bad. The flag says whether
a bound item was committed. -/
def State.commitFrame (s : State) (p : Nat) : State × Bool :=
  let clear := fun (s : State) =>
    let last := s.displaysOn.getLast? == some p
    { s with sched := { s.sched with badFrames := s.sched.badFrames.filter (· != p),
                                     lostStrip := s.sched.lostStrip && !last } }
  match s.rendered p with
  | none => (clear s, false)
  | some b =>
    if s.frameBad p b.scene then (clear s, false)
    else
      let bound := (s.smDisp p).bind.isSome
      let r := s.issueCommit p b
      if r.2 then (clear r.1, bound) else (clear (if bound then r.1.refuseTake p else r.1), false)

/-! What waits for a start of vertical sync -/

/-- Commands that wait for display `p`: `bound` says that a bound item was taken, `map` that the channel took a commit. -/
def State.vsyncWaits (s : State) (p : Nat) (bound map : Bool) : State :=
  s.sm.waits.foldl (fun s e =>
    match e.2 with
    | .commit mask left frame =>
      if !bound || !left.testBit p then s
      else
        let f := if (List.range 4).find? mask.testBit = some p then s.fld (pipeReg Reg.PIPE_STAT p) 31 16 else frame
        let rest := left - 2 ^ p
        if rest = 0 then s.smDone e.1 [word f] else s.smWait e.1 (.commit mask rest f)
    | .map d => if map && d == p then s.smDone e.1 [] else s
    | .take mask left bring =>
      let br := if bring.testBit p then bring - 2 ^ p else bring
      if !bound || !left.testBit p then s.smWait e.1 (.take mask left br)
      else if left - 2 ^ p = 0 then (s.showDuty).smDone e.1 [word (maskOf 4 s.onDuty)]
      else s.smWait e.1 (.take mask (left - 2 ^ p) br)
    | _ => s) s

/-- A pipe has stopped: commands that wait for that go on (R509, R571, R612). -/
def State.stopWaits (s : State) (p : Nat) : State :=
  let s1 := s.showDuty
  (s1.sm.waits.foldl (fun s e =>
    match e.2 with
    | .leave mask left =>
      if !left.testBit p then s
      else if left - 2 ^ p = 0 then s.smDone e.1 [word (maskOf 4 s.onDuty)]
      else s.smWait e.1 (.leave mask (left - 2 ^ p))
    | _ => s) s1).displayNext.powerNext

/-! The strips of the next frame start (R500, R501) -/

/-- Copy the parameter blocks that a scene takes over with this frame. Bytes in host memory are free. -/
def State.copyParams (s : State) (c : Scene) : State × Scene :=
  c.layers.foldl (fun (r : State × Scene) e =>
    match e.source with
    | none => (r.1, { r.2 with layers := r.2.layers ++ [e] })
    | some (a, n) =>
      let b := r.1.bufRead a n none
      let bytes := match b.2 with | some l => l | none => s.freeBytes n
      (b.1.useFree, { r.2 with layers := r.2.layers ++ [{ e with source := none, param := bytes.take n }] })) (s, { c with layers := [] })

/-- A LAYER_COMMIT that names display `p` is aborted before a frame of it starts: nothing of it stays bound. -/
def State.abortCommit (s : State) (p : Nat) : State :=
  s.sm.waits.foldl (fun s e =>
    match e.2 with
    | .commit mask _ _ =>
      let ds := (List.range 4).filter mask.testBit
      let fresh := ds.all fun d => ((s.smDisp d).bind.map fun b => !b.started).getD false
      if mask.testBit p && decide (e.1 < 4) && s.mbAborted e.1 && fresh then
        (ds.foldl (fun s d => s.setSmDisp d { s.smDisp d with bind := none }) s).smEnd e.1 3 0 []
      else s
    | _ => s) s

/-- The strips of a frame of display `p` start, from the item bound to it. -/
def State.startFrame (s : State) (p : Nat) : State :=
  let s0 := s.abortCommit p
  match (s0.smDisp p).bind with
  | none =>
    match ((s0.smDisp p).active.map Scene.passes).getD [] with
    | w :: _ => { s0 with running := some (bitsOf (w.getD 0 0) 5 0, some p) }
    | [] => s0
  | some b =>
    let r := s0.copyParams b.scene
    let staged := (r.1.smDisp p).staged.map fun c => if c = b.scene then r.2 else c
    let s1 := r.1.setSmDisp p { r.1.smDisp p with bind := some { b with scene := r.2, started := true }, staged := staged }
    match r.2.passes with
    | w :: _ => { s1 with running := some (bitsOf (w.getD 0 0) 5 0, some p) }
    | [] => s1

/-- A frame of the scheduler begins, at the lowest enabled pipe (R30, R193, R512). -/
def State.schedFrame (s : State) (p : Nat) : State :=
  if s.displaysOn.head? ≠ some p then s
  else
    let s1 := { s with sched := { s.sched with reserveSpent := false },
                       sm := { s.sm with resHist := (s.sched.reserveUsed :: s.sm.resHist).take 1024 } }
    if s.sched.windowNext then
      { s1.spendReserve with sched := { s1.spendReserve.sched with windowNext := false, holdIdle := true } }
    else s1

/-! The Coupler's side (R563, R564, R573) -/

/-- A MAIN sends MARK at each start of vertical sync of CPL_SYNC.DISP. -/
def State.sendMark (s : State) (p : Nat) : State :=
  if !s.part.cplRole && s.cplState 1 == 3 && s.fld Reg.CPL_SYNC 9 8 == p then
    s.cplSend 1 9 (word (s.fld (pipeReg Reg.PIPE_STAT p) 31 16)) []
  else s

/-- The block of display `d` of the generation (R563), in words. -/
def State.genDisplay (s : State) (d : Nat) : List Word :=
  let act := fun r => (s.chan d).active.find? fun (g : Region) => g.slot == r
  let slots := (List.range 64).map fun r => match act r with
    | some g => word (2 ^ 31 + g.tt * 2 ^ 8 + g.record) | none => 0
  let crcs := (List.range 64).map fun r => match act r with | some g => word (s.recordCrc g.record) | none => 0
  let es := ((s.smDisp d).active.map Scene.layers).getD []
  let layers : List Word := (List.range 8).flatMap fun i => match es[i]? with
    | some e => if e.telltale then (e.w ++ List.replicate 8 0).take 8 else List.replicate 8 0
    | none => List.replicate 8 0
  [word d, s.reg (dispReg Reg.DISP_CFG d), word (s.vact d * 2 ^ 16 + s.hact d), 0] ++ slots ++ crcs ++ layers

/-- The generation of number `gen` taken from latch `l` (R563). -/
def State.genWords (s : State) (gen : Nat) (l : Latch) : List Word :=
  let mask := s.fld Reg.CPL_CTL 19 16
  let ds := (List.range 4).filter mask.testBit
  [word gen, word mask, word l.num, word (64 + 784 * ds.length)] ++ (List.range 8).map (vecWord l.vec) ++ [0, 0, 0, 0] ++
    ds.flatMap s.genDisplay

/-- Pairs of words as 64-bit words. -/
def words64 : List Word → List Word64
  | a :: b :: t => (b ++ a) :: words64 t
  | [a] => [(0#32 ++ a)]
  | [] => []

/-- Stationmaster on a MAIN builds and sends a generation after a start of vertical sync of the lowest mirrored display. -/
def State.sendGeneration (s : State) (p : Nat) : State :=
  let lowest := (List.range 4).find? (s.fld Reg.CPL_CTL 19 16).testBit
  match (s.chan p).hist with
  | [] => s
  | l :: _ =>
    if s.part.cplRole || s.cplState 1 != 3 || lowest != some p then s
    else
      let gen := s.cpl.next
      let ws := s.genWords gen l
      let half := 1 - s.fld Reg.CPL_TX_CTL 13 13
      let s1 := (words64 ws).zipIdx.foldl (fun s e => (s.halfWrite half e.2 e.1 0xFF).1) s
      let s2 := { s1 with cpl := { s1.cpl with next := if gen = 0xFFFFFFFF then 1 else gen + 1 } }
      (s2.setReg Reg.CPL_TXGEN (word gen)).txSend (word (2 ^ 16 + 4 * ws.length))

/-! The events -/

/-- Stationmaster's part after the pipe and the channel have sampled. -/
def State.vsyncFirmware (s : State) (p : Nat) (bound map took : Bool) : State :=
  let t := s.sm.pipeTot.getD p (0, 0)
  let s0 := if took then s else { s with sm := { s.sm with pipeTot := listSet s.sm.pipeTot p (t.1 + 1, t.2) } }
  ((((s0.showDuty).vsyncWaits p bound map).startFrame p).schedFrame p).sendGeneration p

/-- VSYNC_START (R390) at `ps` picoseconds; `katFail`: the known-answer test of the interval found a difference (R438).
Stationmaster acts only while the Dispatcher runs (R601). -/
def State.vsyncStart (s : State) (p ps : Nat) (katFail : Bool) : State :=
  if 4 ≤ p || !s.vsyncDue p then s
  else if (s.pipe p).stopReq then
    let s1 := s.pipeStopNow p
    if s1.dispOn then s1.stopWaits p else s1
  else
    let c := if s.dispOn then s.commitFrame p else (s, false)
    let took := c.1.pipePend p || (s.pipe p).mode == .bringup
    let map := c.1.regionPend p
    let s1 := ((c.1.pipeVsync p ps).ilVsync p katFail).sendMark p
    if s1.dispOn then s1.vsyncFirmware p c.2 map took else s1

/-- VSYNC_START. -/
def execVsyncStart (p ps : Nat) (katFail : Bool) (s : State) : Host.Outcome State Fault Refusal := .next (s.vsyncStart p ps katFail)

/-- The link of pipe `p` has failed: a command that takes duty for it ends with LINK (R570). -/
def State.takeFailed (s : State) (p : Nat) : State :=
  s.sm.waits.foldl (fun s e =>
    match e.2 with
    | .take mask _ bring =>
      if bring.testBit p then
        (((List.range 4).filter mask.testBit).foldl (fun s d => s.setSmDisp d { s.smDisp d with bind := none })
          (s.pipeDisable p)).smFail e.1 0x12 0
      else s
    | _ => s) s

/-- The link of a pipe is up: Stationmaster goes on with what waited for it. -/
def State.linkUpNext (s : State) (p : Nat) : State :=
  let s1 := s.linkUp p
  if s1.bit (pipeReg Reg.PIPE_STAT p) 15 && s1.dispOn then s1.displayLinked p true else s1

/-- LINK_UP. -/
def execLinkUp (p : Nat) (s : State) : Host.Outcome State Fault Refusal := .next (s.linkUpNext p)

/-- The bring-up or retraining of pipe `p` could fail. -/
def State.linkPending (s : State) (p : Nat) : Bool :=
  ((s.pipe p).mode == .bringup && !s.bit (pipeReg Reg.PIPE_STAT p) 15) || ((s.pipe p).mode == .running && s.retraining p)

/-- The link of a pipe has failed: what waited for it ends. -/
def State.linkFailNext (s : State) (p : Nat) : State :=
  let s1 := s.linkFail p
  if s.linkPending p && s1.dispOn then ((s1.displayLinked p false).takeFailed p).stopWaits p else s1

/-- LINK_FAIL. -/
def execLinkFail (p : Nat) (s : State) : Host.Outcome State Fault Refusal := .next (s.linkFailNext p)

/-- Stationmaster, while the Dispatcher runs, goes on with a pairing. -/
def State.pairOn (s : State) : State := if s.dispOn then s.pairNext else s

/-- Stationmaster, while the Dispatcher runs, goes on with a load or a release of the fabric. -/
def State.fabOn (s : State) (fail : Bool) : State := if s.dispOn then s.fabricNext fail else s

/-- HELLO. -/
def execHello (p : Nat) (f : CplFrame) (s : State) : Host.Outcome State Fault Refusal := .next (s.hello p f).pairOn

/-- HELLO_SEND. -/
def execHelloSend (p : Nat) (s : State) : Host.Outcome State Fault Refusal := .next (s.helloSend p).pairOn

/-- FAB_LOADED. `bad`: the body holds a reserved encoding. -/
def execFabLoaded (bad : Bool) (s : State) : Host.Outcome State Fault Refusal := .next ((s.fabLoaded bad).fabOn false)

/-- RELEASE_STAGE. -/
def execReleaseStage (s : State) : Host.Outcome State Fault Refusal := .next (s.releaseStage.fabOn false)

/-- FAB_FLASH_DONE. -/
def execFabFlashDone (fail : Bool) (s : State) : Host.Outcome State Fault Refusal := .next ((s.fabFlashDone fail).fabOn fail)

/-- FENCE_DONE (R353). -/
def execFenceDone (port : Nat) (s : State) : Host.Outcome State Fault Refusal := .next (s.fenceDone port)

end Sys2Proof.Machine
end

