-- ==== Sys2Proof/Machine/Start.lean ====
section
/-! DEFINITION. Starts and what Stationmaster does around a change of power state (R306, R312, R602, R612 to R633): boot ROM, first
stage, patch, boot scene, fabric, array, the command list, READY; GO, the reversal of a power-down, and stable states.
A start waits where it needs another event, and COLD_START or WARM_START comes again when it goes on (log entry 84). -/

namespace Sys2Proof.Machine

/-! Resuming (R613) -/

/-- Stationmaster undoes what it did before GO: ports, streams, pipes, arms, READY. -/
def State.smResume (s : State) : State :=
  match s.sm.parked with
  | none => s
  | some (a, c, p) =>
    let s0 := { s with sm := { s.sm with parked := none } }
    let s1 := ([52] ++ s0.powerPorts 2).foldl (fun s q => s.fencePort q false) s0
    let s2 := ((List.range 24).filter c.testBit).foldl (fun s i =>
      s.camCfgWrite (i / 4) (i % 4) (putBits (s.reg (strReg Reg.STR_CFG (i / 4) (i % 4))) 0 0 1)) s1
    let s3 := ((List.range 4).filter p.testBit).foldl (fun s d =>
      (s.pipeCtlWrite d (putBits (s.reg (pipeReg Reg.PIPE_CTL d)) 0 0 1)).1) s2
    let s4 := ((List.range 4).filter a.testBit).foldl (fun s d => (s.writeArm d true).1) s3
    s4.setBit Reg.TO_STAT 0 true

/-- After an event that may have reversed a power-down. -/
def State.resumeIf (s : State) : State := if s.dispOn && s.pwr.phase == .stable then s.smResume else s

/-! GO (R612) -/

/-- Every other QUEUED command ends with DENIED and reason STATE (R612, step 6). -/
def State.endQueued (s : State) (m : Nat) : State :=
  (List.range 4).foldl (fun s r => if r ≠ m ∧ s.mbState r = 1 then (s.mbUnqueue r).mbReason r 5 0 0xD 0 else s) s

/-- Steps 5 to 8 of R612 once the ports are FENCED. LPDDR5 keeps its contents in self-refresh. -/
def State.powerGo (s : State) (m t : Nat) (parked : Nat × Nat × Nat) : State :=
  let s0 := { s with sm := { s.sm with parked := some parked } }
  let s1 := if t = 2 then s0.smDone m [2] else ((s0.endQueued m).smDone m [word t]).setBit Reg.TO_STAT 0 false
  s1.pwrGo

/-- PWR_GO: Stationmaster goes on to GO in the POWER command that has fenced its ports; without one, PWR_CTL.GO is written. -/
def State.goEvent (s : State) : State :=
  if !s.dispOn then s
  else match s.sm.waits.find? fun e => match e.2 with | .power _ _ _ _ _ => true | _ => false with
    | some (m, .power t 2 a c p) => if (s.powerPorts t).all fun q => s.fence q == 2 then (s.powerGo m t (a, c, p)).resumeIf else s
    | some _ => s
    | none => s.pwrGo.resumeIf

/-- PWR_GO. -/
def execPwrGo (s : State) : Host.Outcome State Fault Refusal := .next s.goEvent

/-- WAKE_N. -/
def execWakeN (s : State) : Host.Outcome State Fault Refusal := .next (s.wakeEvent 0).resumeIf

/-- COUPLER_WAKE: activity on a port that PWR_CTL.CPL_WAKE names. -/
def execCouplerWake (p : Nat) (s : State) : Host.Outcome State Fault Refusal :=
  .next (if p < 2 ∧ s.bit Reg.PWR_CTL (12 + p) then (s.wakeEvent 1).resumeIf else s)

/-- PCIE_WAKE. -/
def execPcieWake (s : State) : Host.Outcome State Fault Refusal := .next (s.wakeEvent 2).resumeIf

/-- WAKE_PATTERN. -/
def execWakePattern (s : State) : Host.Outcome State Fault Refusal := .next (s.wakeEvent 3).resumeIf

/-! Stable states (R601, R602, R614, R615) -/

/-- Entry to Sleep is stable: bit-RAM is lost, the Coupler ports stop, and the fabric unless FAB_CTL.KEEP_SLEEP. -/
def State.sleepLoses (s : State) : State :=
  let s1 := { s with arr := { s.arr with base := none, planes := [] } }
  let s2 := [0, 1].foldl (fun s p => if s.bit Reg.CPL_CTL p then s.setCplState p 1 else s) s1
  if s2.bit Reg.FAB_CTL 4 then s2
  else { s2 with fab := { s2.fab with got := [], image := [], stage := 0, shadow := [] } }.setFabState 0

/-- A latched request for Run acts once the state is stable. -/
def State.latchedRun (s : State) : State :=
  if s.bit Reg.PWR_STAT 16 && s.fld Reg.PWR_STAT 15 13 == 0 then (s.setBit Reg.PWR_STAT 16 false).pwrToRun else s

/-- PWR_STABLE (R615). -/
def State.pwrStable (s : State) : State :=
  let settle := fun (s : State) (m : PMode) (code : Nat) =>
    ({ s with pwr := { s.pwr with mode := m, phase := .stable } }.setBit Reg.PWR_STAT 12 false).setFld Reg.PWR_STAT 2 0 code
  match s.pwr.phase with
  | .switching 1 => (settle s .idle 1).latchedRun
  | .switching 2 => (settle s.sleepLoses .sleep 2).latchedRun
  | .switching _ =>
    let sleep := s.pwr.mode == .sleep
    let s1 := (settle s .run 0).fire 120
    if sleep then
      let s2 := if s1.bit Reg.FAB_CTL 4 then s1 else s1.fabPowerOn
      s2.clearArray.smResume
    else s1
  | _ => s

/-- PWR_STABLE. -/
def execPwrStable (s : State) : Host.Outcome State Fault Refusal := .next s.pwrStable

/-! Boot ROM (R306, R309, R312, R618) -/

/-- Perform a life-cycle request (R312). -/
def State.lcPerform (s : State) : State :=
  match s.mem.lcReq with
  | none => s
  | some t =>
    let s1 := (s.secZero.setBit Reg.TAMPER_STAT 3 true).setFld Reg.TAMPER_STAT 31 24 (s.fld Reg.TAMPER_STAT 31 24 + 1)
    let s2 := { s1 with mem := { s1.mem with lcReq := none } }
    if t = 3 ∧ s.mem.lcAuth = false then ((s2.setBit Reg.LC_REQ 8 true).fire 61).showPersistent
    else { s2 with mem := { s2.mem with lcFuse := t } }.showPersistent

/-- The wipe that the power controller recorded in Deep sleep (R309). -/
def State.wipeRecord (s : State) : State :=
  if s.mem.wipeRec = 0 then s
  else
    let bits := (List.range 7).filter s.mem.wipeRec.testBit
    let s1 := bits.foldl (fun s t => s.setBit Reg.TAMPER_STAT t true) s
    ({ s1 with mem := { s1.mem with wipeRec := 0 } }.setFld Reg.TAMPER_STAT 31 24 (s.fld Reg.TAMPER_STAT 31 24 + 1)).fire 57

/-- Step 1 of R618. The first stage, which only Eunasal replaces, verifies. -/
def State.bootRom (s : State) (cold : Bool) : State :=
  let wipe := cold || s.mem.lcReq.isSome || s.mem.wipeRec != 0
  let s1 := (if wipe then s.secZero else s).lcPerform.wipeRecord
  let s2 := s1.repair.remaps.foldl (fun s e => s.remapWrite (e.1 / 16) (e.1 % 16) e.2) s1
  let s3 := s2.memFillStart.fillDone
  if s3.fld Reg.LC_STATE 2 0 = 4 then { s3.secZero with disp := { s3.disp with halted := true } }
  else ((s3.setBit Reg.TO_STAT 1 true).setBit Reg.TO_STAT 2 true).setFld Reg.PWR_BOOT 3 0 1

/-! Slots at a start (R619, R630, R631) -/

/-- The kind returns to its other slot, and the rejected one is INCOMPLETE (R631). -/
def State.trialRevert (s : State) (k : Nat) : State :=
  let x := s.kindRec k
  (s.setKind k { x with active := 1 - x.active % 2, trial := false, trials := 0, slots := listSet x.slots (x.active % 2) 0 }).setBit
    Reg.PWR_ERR 3 true

/-- The trial rule of R631. -/
def State.trialRule (s : State) (k : Nat) : State :=
  let x := s.kindRec k
  if !x.trial then s
  else if 3 ≤ x.trials then s.trialRevert k
  else s.setKind k { x with trials := x.trials + 1 }

/-- A session ends or resumes at a start (R510, R630). -/
def State.sessionStart (s : State) : State :=
  if s.upd.sess = 2 ∨ s.upd.sess = 3 then s.setSession 1 2 else { s with upd := { s.upd with sess := 0, got := 0 } }

/-- A kind on trial whose slot fails verification reverts at that start (R631). -/
def State.trialVerify (s : State) (k : Nat) : State :=
  let x := s.kindRec k
  if x.trial && (s.imgReason k (s.slotImage k x.active)).isSome then s.trialRevert k else s

/-- The slot that runs: the active one, or the other when it is GOOD and the active one fails (R619). The patch's other slot
is tried whatever its state (R278). -/
def State.slotRuns (s : State) (k : Nat) : Option Nat :=
  let x := s.kindRec k
  let other := 1 - x.active % 2
  if s.imgReason k (s.slotImage k (x.active % 2)) = none then some (x.active % 2)
  else if (k = 1 ∨ x.slots.getD other 0 = 3) ∧ s.imgReason k (s.slotImage k other) = none then some other
  else none

/-- PWR_ERR.BOOT_FALLBACK and PWR_BOOT.NOIMG for a kind (R619). -/
def State.slotShow (s : State) (k : Nat) : State :=
  match s.slotRuns k with
  | none => s.setBit Reg.PWR_BOOT (4 + k) true
  | some i => if i ≠ (s.kindRec k).active % 2 then s.setBit Reg.PWR_ERR 2 true else s

/-! Stationmaster, patch, boot scene (R278, R279, R618 steps 3 to 6) -/

/-- The body of the Stationmaster image goes to scratchpad offset 0x40_0000. -/
def State.loadStationmaster (s : State) (b : List Byte) : State :=
  let body := imgBody b
  let s1 := (pieces 8 (body.length / 8) body).zipIdx.foldl (fun s e => s.spWrite (0x80000 + e.2) (BitVec.ofNat 64 (leNat e.1))) s
  ({ s1 with sm := { Sm.init with version := word (imgVersion 0 b) } }).setFld Reg.PWR_BOOT 3 0 2

/-- A window of the firewall, in both copies. -/
def State.openWindow (s : State) (w base limit mask : Nat) : State :=
  let put := fun (s : State) (j n : Nat) => (s.setReg (winReg w j) (word n)).setReg (Reg.act (winReg w j)) (word n)
  put (put (put (put (put (put s 0 base) 1 (base / 2 ^ 32)) 2 (limit / 2 ^ 12 * 2 ^ 12)) 3 (limit / 2 ^ 32)) 4 mask) 5 7

/-- What Stationmaster sets once it runs: the timeouts of R347, and the windows: the blocks of BAR0 for INIT 5 and 6 (R449),
and LPDDR5, the scratchpad below its own area, and host memory for the initiators that use them (log entry 85). -/
def State.smSetUp (s : State) : State :=
  let tmo := [(57, 5), (58, 5), (59, 5), (49, 5), (53, 5), (52, 10), (60, 20), (61, 20), (62, 20), (63, 20), (50, 100), (51, 100), (48, 1000)]
  let s1 := tmo.foldl (fun s e => (s.tmoWrite e.1 (word e.2)).1) s
  (((s1.openWindow 1 0x2000000 0x200FFFF 0x60).openWindow 2 0x100000000 0x7FFFFFFFF 0x7FF1E).openWindow 3 0 0x3EFFFF 0x4001A).openWindow
    4 0x8000000000000 0xFFFFFFFFFFFFF 0xA

/-- MCVER.STATUS of a patch slot (R279): 1 loaded, 2 no container, 3 signature or tag, 4 rollback, 5 ROMVER or STEP, 6 format. -/
def State.patchStatus (s : State) (b : List Byte) : Nat :=
  if imgNat b 0 4 ≠ 0x504D5950 then 2
  else match s.imgReason 1 b with
    | none => 1
    | some 7 | some 8 => 3
    | some 9 => 4
    | _ => if imgNat b 0xA 1 ≠ (Config.romVersion s.part.stepB).toNat ∨ imgNat b 0xB 1 ≠ s.stepping % 256 then 5 else 6

/-- The records of a verified patch are written: microwords first, then decode entries (R278). -/
def State.patchWrite (s : State) (b : List Byte) : State :=
  let recs := match patchOpen b with | some (some l) => l | _ => []
  let micro := fun (s : State) (r : PatchRec) => match r with
    | .micro first ws => ws.zipIdx.foldl (fun s e =>
        { s with cs := { s.cs with ram := Store.set (fun _ => 0) s.cs.ram (first + e.2) e.1 } }) s
    | .decode _ _ => s
  let dec := fun (s : State) (r : PatchRec) => match r with
    | .decode i v => { s with cs := { s.cs with dec := Store.set decDefault s.cs.dec i (v &&& 0x80003FFF) } }
    | .micro _ _ => s
  recs.foldl dec (recs.foldl micro s)

/-- Step 4: the patch, MCVER and CS_CTL.LOCK. -/
def State.loadPatch (s : State) : State :=
  let s0 := (s.trialVerify 1).slotShow 1
  let a := (s0.kindRec 1).active % 2
  let st := s0.patchStatus (s0.slotImage 1 a)
  let last := if st = 1 then a else 1 - a
  let b := s0.slotImage 1 last
  let st := s0.patchStatus b
  let s1 := if st = 1 then s0.patchWrite b else s0
  let ver := if st = 1 then imgVersion 1 b else 0
  (((s1.setReg Reg.MCVER (word (ver * 2 ^ 16 + last * 16 + st))).setBit Reg.CS_CTL 0 true)).setFld Reg.PWR_BOOT 3 0 3

/-- A section of a boot-scene body. -/
def bootSection (body : List Byte) (t : Nat) : List Byte :=
  match (bootDir body).find? fun e => e.1 == t with
  | some e => (body.drop e.2.1).take e.2.2
  | none => []

/-- The verified boot-scene body, if there is one. -/
def State.bootBody (s : State) : Option (List Byte) := (s.slotRuns 2).map fun i => imgBody (s.slotImage 2 i)

/-- Steps 5 and 6: the Semaphore store, the references, DDR_CFG with ENABLE, and the default of PWR_THERM.WARN. -/
def State.loadBootScene (s : State) : State :=
  let s0 := (s.trialVerify 2).slotShow 2
  match s0.bootBody with
  | none => s0
  | some body =>
    let sem := bootSection body 2
    let board := bootSection body 1
    let refs := bootSection body 3
    let s1 := if imgNat sem 4 4 = s0.semNat 4 4 then s0
      else { s0 with il := { s0.il with store := Store.sparse (fun _ => 0) 0 (sem.take 327680) } }
    let s2 := if s1.refReason refs = none then s1.writeRecords refs else s1
    let s3 := s2.ddrCfgWrite (word (imgNat board 0 4 % 512))
    (s3.ddrCfgWrite (word (imgNat board 0 4 % 512 + 2 ^ 31))).setFld Reg.PWR_THERM 15 0 (imgNat board 8 2)

/-! Fabric and array (R170, R592, R618 steps 7 and 8, R633) -/

/-- The image in the configuration flash verifies (R592). -/
def State.flashVerifies (s : State) : Bool :=
  let b := s.fab.flash
  s.bit Reg.FAB_FLASH_STAT 0 && s.keyAccepted (imgKey 3 b) && sigOk (imgKey 3 b) b && decide (s.floor 3 ≤ imgVersion 3 b)

/-- The load that the fabric's own power-on began has ended long before (R620), and its release with it. -/
def State.fabSettled (s : State) : State :=
  let s1 := if s.fabState = 1 then s.fabLoaded false else s
  s1.releaseStage.releaseStage.releaseStage

/-- HOLD where the fabric runs. -/
def State.fabHeld (s : State) : State := if s.fabState = 3 ∨ s.fabState = 4 then s.fabHold else s

/-- Step 7. -/
def State.startFabric (s : State) : State :=
  let s0 := ((s.trialVerify 3).slotShow 3).fabSettled
  let s1 := if s0.flashVerifies then s0 else s0.fabHeld
  match s1.slotRuns 3 with
  | none => s1.fabHeld
  | some i =>
    let b := s1.slotImage 3 i
    if s1.bit Reg.FAB_FLASH_STAT 0 ∧ imgVersion 3 b = (s1.reg Reg.FAB_FLASH_VER).toNat ∧ imgNat b 0x10 4 = (s1.reg Reg.FAB_FLASH_CRC).toNat then
      s1
    else
      let s2 := ((s1.fabHeld).setFld Reg.FAB_CFG_LEN 17 0 b.length).fabStartStream
      let s3 := ((wordsLe b (b.length / 4)).foldl (fun s w => (s.fabData w).1) s2).fabLoaded false
      if s3.fabState = 2 ∧ imgNat b 0x19 1 / 2 % 2 = 1 then s3.fabRelease.releaseStage.releaseStage.releaseStage else s3

/-- Step 8: Platform maps, substitutions around the clear, and the telemetry of R196. -/
def State.startArray (s : State) : State :=
  let map := fun (s : State) (r : Nat) =>
    match s.repair.failed.filter fun p => p / 9 == r with
    | [] => s
    | [p] => s.prowMapWrite r (word (15 * 16 + p % 9)) false
    | p :: q :: _ => s.prowMapWrite r (word (q % 9 * 16 + p % 9)) false
  let sub := fun (st : Nat) (s : State) (e : Nat × Nat × Nat) => s.colSubWrite e.1 (s.subValue e.1 e.2.1 st e.2.2) false
  let s1 := s.repair.subs.foldl (sub 1) ((List.range 8).foldl map s)
  (s.repair.subs.foldl (sub 2) s1.clearArray).showFailed

/-! The command list and READY (R472, R618 steps 9 and 10, R627) -/

/-- A staged image that differs from the flash is programmed (R170). -/
def State.programStaged (s : State) : State :=
  if (s.fabState == 2 || s.fabState == 4) && s.fab.imageStream && s.fab.image != s.fab.flash then s.fabProgram else s

/-- The power phase of a chip whose start is over. -/
def State.phaseStable (s : State) : State := { s with pwr := { s.pwr with phase := .stable } }

/-- The bits of a finished start: TO_STAT.READY, PWR_BOOT.STEP, PWR_BOOT_T and PWR_STAT.BOOTING. The time of PWR_BOOT_T is a free value. -/
def State.readyBits (s : State) : State :=
  let t := (Config.freeWord s.free 2).toNat
  let s1 := s.useFree.setBit Reg.TO_STAT 0 true
  let s2 := s1.setFld Reg.PWR_BOOT 3 0 7
  let s3 := s2.setFld Reg.PWR_BOOT_T 31 16 t
  s3.setBit Reg.PWR_STAT 12 false

/-- Step 10: READY. -/
def State.startReady (s : State) : State :=
  let s1 := s.readyBits.phaseStable
  let s2 := s1.logEvent 0x0D s1.identA5 (s1.view Reg.MCVER).toNat
  let s3 := s2.fire 120
  s3.programStaged

/-- One entry of the list, as a command from MB0 whose response goes nowhere. -/
def State.listDo (s : State) (op : Nat) (q : Req) : State :=
  match op with
  | 0x10 => s.sceneLoad none none q
  | 0x11 => s.layerSet q
  | 0x12 => s.layerCommit q
  | 0x20 =>
    match bitsOf (q.p 1) 3 0 with
    | 0 => s.mapSlot q
    | 1 => s.mapCommit q
    | 2 => s.mapArm q
    | _ => s.mapReserved q
  | 0x30 => if (q.p 1).getLsbD 8 then s.kernelUnload q else s.kernelLoad none q
  | 0x40 => s.cameraConfig q
  | 0x41 => if (q.p 1).getLsbD 9 then s.displayRetrain q else s.displayConfig none none q
  | 0x70 => s.couplerPair q
  | _ => s.smFail q.m 1 0

/-- The list stops on an entry that is not DONE (R627). -/
def State.listStop (s : State) (idx status : Nat) : State :=
  (((s.setFld Reg.PWR_BOOT 23 16 idx).setFld Reg.PWR_BOOT 31 24 status).fire 126)

/-- Go on with the list: `n` bounds the entries. -/
def State.listRun : Nat → State → State
  | 0, s => s
  | n + 1, s =>
    match s.sm.boot with
    | none => s
    | some b =>
      if (s.smWaits 4).isSome then s
      else
        let finish := fun (s : State) => { s with sm := { s.sm with boot := none, status := none } }.startReady
        match s.sm.status with
        | some (st + 1) => finish (s.listStop b.idx (st + 1))
        | _ =>
          let h : Word := BitVec.ofNat 32 (leNat (b.rest.take 4))
          let len := bitsOf h 15 0
          let op := bitsOf h 31 24
          if h = 0 then finish s
          else
            let q : Req := ⟨4, len, wordsLe ((b.rest.drop 4).take (min len 60)) 15⟩
            let s1 := { s with sm := { s.sm with boot := some { b with rest := b.rest.drop (4 + len), idx := b.idx + 1 }, status := none } }
            let s2 := s1.listDo op q
            let s3 := if op = 0x12 then s2.setFld Reg.PWR_BOOT 3 0 6 else s2
            State.listRun n s3

/-- Steps 1 to 8, and what READY waits for. -/
def State.startBegin (s : State) (cold : Bool) : State :=
  let s0 := s.bootRom cold
  if s0.fld Reg.PWR_BOOT 3 0 = 0 then s0
  else
    let s1 := (((List.range 4).foldl State.trialRule s0).sessionStart.trialVerify 0).slotShow 0
    match s1.slotRuns 0 with
    | none => { s1 with disp := { s1.disp with halted := true } }
    | some i =>
      let s2 := ((((s1.loadStationmaster (s1.slotImage 0 i)).smSetUp).loadPatch).loadBootScene.startFabric).startArray
      match s2.bootBody with
      | none => s2.startReady
      | some body =>
        { s2 with sm := { s2.sm with boot := some ⟨bootSection body 4, 0, cold⟩ } }.setFld Reg.PWR_BOOT 3 0 4

/-- Step 9 once LPDDR5 is READY: DATA goes to DATA_BASE, and the list begins. -/
def State.startData (s : State) : State :=
  match s.bootBody with
  | none => s
  | some body =>
    let data := bootSection body 5
    let base := imgNat (bootSection body 1) 4 4 % 2 ^ 22 * 4096
    let words := (pieces 8 ((data.length + 7) / 8) data).map fun w => (BitVec.ofNat 64 (leNat w), BitVec.ofNat 8 (2 ^ w.length - 1))
    (State.listRun (bootSection body 4).length (((s.ddrWriteReq base words).1).setFld Reg.PWR_BOOT 3 0 5))

/-- A start begins, or goes on where it waited. -/
def State.startGo (s : State) (cold : Bool) : State :=
  if s.pwr.phase ≠ .starting ∨ s.pwr.mode ≠ .run ∨ s.pwr.resetN ∨ (s.fld Reg.PWR_STAT 19 18 = 2) = cold then s
  else if s.disp.halted then s
  else match s.fld Reg.PWR_BOOT 3 0 with
    | 0 => s.startBegin cold
    | 4 => if s.bit Reg.DDR_STAT 0 then s.startData else s
    | _ => State.listRun (((s.sm.boot.map BootList.rest).getD []).length + 1) s

/-- COLD_START. -/
def execColdStart (s : State) : Host.Outcome State Fault Refusal := .next (s.startGo true)

/-- WARM_START. -/
def execWarmStart (s : State) : Host.Outcome State Fault Refusal := .next (s.startGo false)

end Sys2Proof.Machine
end

