-- ==== Sys2Proof/Machine/RegAccess.lean ====
section
/-! DEFINITION. Reads and writes of registers at the blocks that hold them (R9 to R11, R34, R321, R357, R399, R440, R470, R484,
R547, R575, R599, R634): every initiator and every path ends here. Keys are Dispatcher addresses minus 0x0200_0000 (R32). -/

namespace Sys2Proof.Machine

/-! Where a key leads -/

/-- A register lies at key `a`; elsewhere the offset is reserved (R34). -/
def isReg (a : Nat) : Bool := decide (a < 0x100000) && a % 4 == 0 && (regRow? a).isSome

/-- The boot ROM (R616). -/
def inBootRom (a : Nat) : Bool := decide (0xF00000 ≤ a ∧ a < 0xF10000)

/-- The mirror of the van's event log (R549). -/
def inLogMirror (a : Nat) : Bool := decide (0x16000 ≤ a ∧ a < 0x17000)

/-- The transmit and receive halves of the Coupler (R564). -/
def inHalves (a : Nat) : Bool := decide (0x18000 ≤ a ∧ a < 0x1C000)

/-! Writes, block by block -/

/-- A write that a block may refuse by setting bit `b` of register `r`: the refusal is DENIED (R339), and the bit stays set. -/
def State.judged (s : State) (r b : Nat) (f : State → State) : State × Resp :=
  let t := f (s.setBit r b false)
  (t.setBit r b (t.bit r b || s.bit r b), if t.bit r b then .denied else .ok)

/-- A firmware write to the memory block (R288, R292, R294, R299, R312, R315, R321). -/
def State.memFirmware (s : State) (a : Nat) (v : Word) : State × Resp :=
  let k := (a - 0x8100) / 0x80
  if a = Reg.MEM_FILL then (if v.getLsbD 0 then s.memFillStart else s, .ok)
  else if a = Reg.LC_REQ then s.judged Reg.MEM_STAT 4 fun s => s.lcReqWrite v
  else if a = Reg.DDR_CFG then s.judged Reg.MEM_STAT 4 fun s => s.ddrCfgWrite v
  else if 0x8300 ≤ a then s.judged Reg.MEM_STAT 4 fun s => s.remapWrite ((a - 0x8300) / 64) ((a - 0x8300) / 4 % 16) v
  else if 0x8100 ≤ a ∧ a = kindReg Reg.BKT_CFG k then s.judged Reg.MEM_STAT 4 fun s => s.bktCfgWrite k v
  else if 0x8100 ≤ a ∧ a = kindReg Reg.LOG_STAT k then (s.logAck k v, .ok)
  else (s.codeWrite a v, .ok)

/-- A write to the memory block by another initiator, judged field by field (R321). -/
def State.memOther (s : State) (a : Nat) (v : Word) : State × Resp :=
  match regRow? a with
  | none => (s, .ok)
  | some r =>
    let k := (a - 0x8100) / 0x80
    let log := decide (0x8100 ≤ a ∧ a = kindReg Reg.LOG_STAT k)
    let s1 := if log then s.logAck k v else s.setReg a (s.reg a &&& ~~~(v &&& BitVec.ofNat 32 r.w1c))
    let other := (v &&& BitVec.ofNat 32 (if log then 0 else r.wo)) ||| ((v ^^^ s.reg a) &&& BitVec.ofNat 32 r.rw)
    (s1, if other = 0 then .ok else .denied)

/-- A write to the array's and the Traverser's blocks (R48, R50, R72, R86, R141, R144, R163, R165, R183, R185). -/
def State.arrWrite (s : State) (a : Nat) (v : Word) : State × Resp :=
  if a = Reg.ARR_EDGE then (s.arrEdgeWrite v, .ok)
  else if Reg.PROW_MAP ≤ a ∧ a < Reg.PROW_MAP + 0x20 then (s.prowMapWrite ((a - Reg.PROW_MAP) / 4) v false, .ok)
  else if a = Reg.TRV_ERR ∧ v.getLsbD 15 then
    (((s.setFld a 15 0 0).setReg Reg.TRV_ERR_WORD 0).codeWrite a v, .ok)
  else if a = Reg.TRV_CTL then (if v.getLsbD 0 then s.trvAbort else s, .ok)
  else if Reg.COLMON ≤ a ∧ a < Reg.COLMON + 0x120 then (if v.getLsbD 31 then s.colmonClr ((a - Reg.COLMON) / 4) else s, .ok)
  else if Reg.COL_SUB ≤ a ∧ a < Reg.COL_SUB + 0x120 then
    s.judged Reg.REP_STATUS 8 fun s => s.colSubWrite ((a - Reg.COL_SUB) / 4) v false
  else if a = Reg.MIRROR_CTL then s.judged Reg.REP_STATUS 9 fun s => s.mirrorWrite v
  else if a = Reg.BIST_CTL then
    let s1 := if v.getLsbD 9 then s.bistAbort else s
    if v.getLsbD 8 then
      let s2 := s1.bistStart v
      (s2, if s2.fld Reg.BIST_STATUS 10 8 = 5 then .denied else .ok)
    else (s1.codeWrite a v, .ok)
  else (s.codeWrite a v, .ok)

/-- A write to the control store's block (R252, R272 to R275). -/
def State.csBlockWrite (s : State) (a : Nat) (v : Word) : State × Resp :=
  if a = Reg.CS_WDATA then s.csWrite v
  else if a = Reg.DEC_ENTRY then s.decWrite v
  else (s.codeWrite a v, .ok)

/-- A write to a camera port's registers (R365, R366, R375, R399 to R401): a refused one receives OK. -/
def State.camWrite (s : State) (a : Nat) (v : Word) : State :=
  let n := (a - 0x14000) / 0x100
  let o := (a - 0x14000) % 0x100
  let vc := (o - 0x10) / 0x30
  if o = 0 then s.camCtlWrite n v
  else if o < 0x10 then s.codeWrite a v
  else
    let k := (o - 0x10) % 0x30
    if k = 0 then s.camCfgWrite n vc v else if k = 4 ∨ k = 8 then s.camGeomWrite n vc a v else s.codeWrite a v

/-- A write to a pipe's registers (R387 to R391, R396, R402). -/
def State.pipeWrite (s : State) (a : Nat) (v : Word) : State × Resp :=
  let p := (a - 0x14800) / 0x400
  let o := (a - 0x14800) % 0x400
  if o = 0 then s.pipeCtlWrite p v
  else if 0x10 ≤ o ∧ o < 0x24 then s.pipeTimingWrite p a v
  else if o = 0x24 then
    let s1 := if v.getLsbD 1 then s.pipeCancel p else s
    if v.getLsbD 0 then s1.pipeCommit p else (s1, .ok)
  else if o = 0x28 then s.pipeLockWrite p v
  else if o = 0x38 then s.lutIdxWrite p v
  else if o = 0x3C then let r := s.lutAccess p true v; (r.1, r.2.1)
  else if o = 0x30 ∨ o = 0x34 ∨ 0x100 ≤ o then s.pipePendWrite p a v
  else (s.codeWrite a v, .ok)

/-- A write at a key that names a register; `rings` are the mailboxes rung in the same cycle (R469). -/
def State.blockWrite (s : State) (ini a : Nat) (v : Word) (rings : List Nat) : State × Resp :=
  match a / 0x1000 with
  | 0x0 => s.toWrite ini a v rings
  | 0x1 => s.icWrite ini a v
  | 0x2 => let r := s.pwrWrite ini a v; (r.1.resumeIf, r.2)
  | 0x3 => if a < 0x3800 then s.ilWrite ini a v else (s, .ok)
  | 0x5 => s.gvWrite a v
  | 0x6 =>
    if ini = 0 ∧ a = Reg.CPL_TX_CTL ∧ v.getLsbD 16 then s.judged Reg.CPL_STAT 8 fun s => (s.cplWrite ini a v).1
    else s.cplWrite ini a v
  | 0x7 =>
    if ini = 0 ∧ (a = Reg.FAB_CTL ∨ a = Reg.FAB_FLASH_CTL) then s.judged Reg.FAB_STAT 4 fun s => (s.fabWrite ini a v).1
    else s.fabWrite ini a v
  | 0x8 => if ini = 0 then s.memFirmware a v else s.memOther a v
  | 0x9 => s.fwWrite ini a v
  | 0x10 => s.arrWrite a v
  | 0x11 => s.csBlockWrite a v
  | 0x12 => s.jtWrite a v
  | 0x14 => if a < 0x14800 then (s.camWrite a v, .ok) else s.pipeWrite a v
  | 0x15 => s.pipeWrite a v
  | _ => (s, .ok)

/-- A write of `v` by initiator `ini` at key `a`: the boot ROM is not written, and a reserved offset discards (R34, R616). -/
def State.regWrite (s : State) (ini a : Nat) (v : Word) (rings : List Nat) : State × Resp :=
  if inBootRom a then (s, .denied) else if isReg a then s.blockWrite ini a v rings else (s, .ok)

/-! Two writes of one register in a cycle (R469, R470) -/

/-- The rank of an initiator at key `a`, highest first. -/
def writeRank (a ini : Nat) : Nat :=
  if 0x3000 ≤ a ∧ a < 0x3800 then (if ini = 6 then 0 else if ini = 0 then 1 else 2)
  else match ini with
    | 5 => 0
    | 4 => 1
    | 0 => 2
    | 6 => 3
    | _ => 4

/-- One of `rivals`, the other writes of the cycle as initiator, key and value, takes the register from this one. -/
def writeLoses (ini a : Nat) (v : Word) (rivals : List (Nat × Nat × Word)) : Bool :=
  rivals.any fun r => r.2.1 == a && r.1 != ini && r.2.2 != v && decide (writeRank a r.1 < writeRank a ini)

/-- The mailboxes whose doorbells are among the other writes of the cycle. -/
def ringsOf (rivals : List (Nat × Nat × Word)) : List Nat :=
  rivals.filterMap fun r => if r.2.1 < 0x400 ∧ r.2.1 % 0x100 = 0x80 ∧ r.2.2.getLsbD 0 then some (r.2.1 / 0x100) else none

/-- A write among the other writes of its cycle. -/
def State.cycleWrite (s : State) (ini a : Nat) (v : Word) (rivals : List (Nat × Nat × Word)) : State × Resp :=
  if isReg a && writeLoses ini a v rivals then (s, .collided) else s.regWrite ini a v (ringsOf rivals)

/-! Reads -/

/-- The effects that a read of register `a` has beside its value (R9, R93, R274, R374, R402, R598). -/
def State.readEffect (s : State) (a : Nat) : State :=
  if a = Reg.ARR_BSCNT_LO then s.bscntLatch
  else if a = Reg.CS_WDATA then s.csRead.1
  else if a = Reg.FAB_RB_DATA then s.fabRbRead.1
  else if 0x14000 ≤ a ∧ a < 0x14600 ∧ 0x10 ≤ a % 0x100 ∧ (a % 0x100 - 0x10) % 0x30 = 0x24 then
    s.tsLoRead ((a - 0x14000) / 0x100) ((a % 0x100 - 0x10) / 0x30)
  else if 0x14800 ≤ a ∧ a < 0x15800 ∧ (a - 0x14800) % 0x400 = 0x3C then (s.lutAccess ((a - 0x14800) / 0x400) false 0).1
  else match regRow? a with
    | some r => if r.rc = 0 then s.useFree else s.setReg a (s.reg a &&& ~~~BitVec.ofNat 32 r.rc)
    | none => s

/-- The value that a read of key `a` returns. -/
def State.readValue (s : State) (a : Nat) : Word :=
  if inBootRom a then Config.bootRom ((a - 0xF00000) / 4)
  else if inHalves a then
    let w := s.halfWord ((a - 0x18000) / 0x1000) (a % 0x1000 / 8)
    if a % 8 = 0 then w.extractLsb' 0 32 else w.extractLsb' 32 32
  else if inLogMirror a then s.reg a
  else if !isReg a then 0
  else if a = Reg.ARR_BSCNT_LO then BitVec.ofNat 32 s.arr.bscnt
  else if a = Reg.CS_WDATA then s.csRead.2
  else if a = Reg.DEC_ENTRY then s.decEntry (s.fld Reg.DEC_IDX 7 0)
  else if a = Reg.FAB_RB_DATA then s.fabRbRead.2
  else if 0x14800 ≤ a ∧ a < 0x15800 ∧ (a - 0x14800) % 0x400 = 0x3C then (s.lutAccess ((a - 0x14800) / 0x400) false 0).2.2
  else s.view a

/-- A read of the register at key `a` (R9, R34). -/
def State.regRead (s : State) (a : Nat) : State × Word :=
  (if inBootRom a || inHalves a || !isReg a then s.useFree else s.readEffect a, s.readValue a)

/-! Meanings -/

/-- REGISTER_WRITE (R9, R10): the internal range answers INIT 0 only (R33). -/
def execRegisterWrite (ini addr : Nat) (v : Word) (s : State) : Host.Outcome State Fault Refusal :=
  .next (if 0x10000 ≤ addr ∧ ini ≠ 0 then s else (s.regWrite ini addr v []).1)

/-- The in-cycle blocks (R449). -/
def inCycle (a : Nat) : Bool := decide (a < 0x2000 ∨ (0x3000 ≤ a ∧ a < 0x4000) ∨ (0xF000 ≤ a ∧ a < 0x10000))

/-- The registers of MB3 that its owner at port `p` may write (R448, R572). -/
def State.mb3Write (s : State) (ini a : Nat) : Bool :=
  s.mbOwner 3 ini && decide (0x300 ≤ a ∧ a < 0x340 ∨ a = mbReg Reg.MB_DOORBELL 3 ∨ a = mbReg Reg.MB_ABORT 3)

/-- The answer of port `p` to a REQ: the response, and the data of a read (R555). -/
def State.peerAnswer (s : State) (p : Nat) (r : Resp) (v : Word) : State :=
  s.cplSend p 4 (BitVec.ofNat 32 (respCode r)) [BitVec.ofNat 64 v.toNat]

/-- The access of a REQ frame at port `p` (R572), answered by RSP. -/
def State.peerAccess (s : State) (p : Nat) (f : CplFrame) (rivals : List (Nat × Nat × Word)) : State :=
  let ini := 19 + p
  let a := 4 * bitsOf f.arg 13 0
  if f.arg.getLsbD 31 then
    if s.mb3Write ini a then
      let r := s.cycleWrite ini a (BitVec.ofNat 32 (frameWord f 0)) rivals
      r.1.peerAnswer p r.2 0
    else s.peerAnswer p .denied 0
  else if inCycle a then
    let r := s.regRead a
    r.1.peerAnswer p .ok r.2
  else s.peerAnswer p .denied 0

/-- REQ: accepted only while PAIRED. -/
def execReq (p : Nat) (f : CplFrame) (rivals : List (Nat × Nat × Word)) (s : State) : Host.Outcome State Fault Refusal :=
  .next (s.frameIn p 3 f fun s => s.peerAccess p f rivals)

end Sys2Proof.Machine
end

