-- ==== Sys2Proof/Machine/Float.lean ====
section
/-! DEFINITION. The floating-point unit (R239 to R244): IEEE 754 binary32 and binary16, computed exactly on integers and
rounded once. -/

namespace Sys2Proof.Machine

/-- A format: exponent bits and fraction bits. -/
structure Fmt where
  eb : Nat
  mb : Nat

def fmtS : Fmt := ⟨8, 23⟩
def fmtH : Fmt := ⟨5, 10⟩

/-- The exponent bias of a format. -/
def biasOf (f : Fmt) : Nat := 2 ^ (f.eb - 1) - 1

/-- A value: NaN (signalling or quiet), infinity, or (-1)^s × m × 2^e. -/
inductive FVal where
  | nan (signalling : Bool)
  | inf (neg : Bool)
  | fin (neg : Bool) (m : Nat) (e : Int)
  deriving DecidableEq, Repr

/-- Exceptions of one operation (bit order of R243), and whether the result was tiny. -/
structure Exc where
  nv : Bool
  dz : Bool
  ovf : Bool
  tiny : Bool
  nx : Bool
  deriving DecidableEq, Repr

def noExc : Exc := ⟨false, false, false, false, false⟩
def invalid : Exc := ⟨true, false, false, false, false⟩

/-- Read the bits of a value. -/
def unpack (f : Fmt) (b : Nat) : FVal :=
  let frac := b % 2 ^ f.mb
  let ex := b / 2 ^ f.mb % 2 ^ f.eb
  let neg := b.testBit (f.eb + f.mb)
  if ex = 2 ^ f.eb - 1 then
    if frac = 0 then .inf neg else .nan (!frac.testBit (f.mb - 1))
  else if ex = 0 then .fin neg frac (1 - (biasOf f : Int) - f.mb)
  else .fin neg (2 ^ f.mb + frac) ((ex : Int) - biasOf f - f.mb)

/-- The canonical quiet NaN (R240). -/
def canonNaN (f : Fmt) : Nat := (2 ^ f.eb - 1) * 2 ^ f.mb + 2 ^ (f.mb - 1)

def signBit (f : Fmt) (neg : Bool) : Nat := if neg then 2 ^ (f.eb + f.mb) else 0

def infBits (f : Fmt) (neg : Bool) : Nat := signBit f neg + (2 ^ f.eb - 1) * 2 ^ f.mb

/-- Whether to round the magnitude up: `rm` of R243, sign, whether the kept part is odd, the part cut off compared with half
(0 none, 1 below, 2 half, 3 above). -/
def roundsUp (rm : Nat) (neg odd : Bool) (cut : Nat) : Bool :=
  match rm with
  | 0 => cut == 3 || (cut == 2 && odd)
  | 1 => false
  | 2 => neg && cut != 0
  | _ => !neg && cut != 0

/-- Cut `m × 2^e` (plus something below it when `sticky`) at weight `2^q`: the kept part and what was cut. -/
def cutAt (m : Nat) (e q : Int) (sticky : Bool) : Nat × Nat :=
  if q ≤ e then (m * 2 ^ (e - q).toNat, if sticky then 1 else 0)
  else
    let k := (q - e).toNat
    let r := m % 2 ^ k
    let half := 2 ^ (k - 1)
    (m / 2 ^ k, if r = 0 then (if sticky then 1 else 0) else if r < half then 1
      else if r = half then (if sticky then 3 else 2) else 3)

/-- Round an exact non-zero magnitude to a format (R239): the bits and the exceptions. Tininess is detected after
rounding. -/
def roundTo (f : Fmt) (rm : Nat) (neg : Bool) (m : Nat) (e : Int) (sticky : Bool) : Nat × Exc :=
  let p := f.mb + 1
  let emin : Int := 1 - biasOf f
  let top : Int := e + (m.log2 : Int)
  let qFree : Int := top - f.mb
  let q : Int := if qFree < emin - f.mb then emin - f.mb else qFree
  let c := cutAt m e q sticky
  let mant := c.1 + (if roundsUp rm neg (c.1 % 2 == 1) c.2 then 1 else 0)
  let cf := cutAt m e qFree sticky
  let mantFree := cf.1 + (if roundsUp rm neg (cf.1 % 2 == 1) cf.2 then 1 else 0)
  let tiny := decide (top < emin) && !(decide (top = emin - 1) && mantFree == 2 ^ p)
  let nx := c.2 != 0
  let bits : Nat :=
    if mant < 2 ^ f.mb then mant
    else
      let big := mant == 2 ^ p
      let ex := (q + f.mb + biasOf f + (if big then 1 else 0)).toNat
      ex * 2 ^ f.mb + (if big then 0 else mant - 2 ^ f.mb)
  if bits ≥ (2 ^ f.eb - 1) * 2 ^ f.mb then
    let toInf := match rm with | 0 => true | 1 => false | 2 => neg | _ => !neg
    (signBit f neg + (if toInf then (2 ^ f.eb - 1) * 2 ^ f.mb else (2 ^ f.eb - 1) * 2 ^ f.mb - 1), ⟨false, false, true, false, true⟩)
  else (signBit f neg + bits, ⟨false, false, false, tiny, nx⟩)

/-- Round an exact value; a zero keeps the sign given. -/
def roundVal (f : Fmt) (rm : Nat) (neg : Bool) (m : Nat) (e : Int) (sticky : Bool) : Nat × Exc :=
  if m = 0 then (signBit f neg, noExc) else roundTo f rm neg m e sticky

/-- A NaN result (R240): invalid for a signalling operand. -/
def nanResult (f : Fmt) (sig : Bool) : Nat × Exc := (canonNaN f, if sig then invalid else noExc)

/-- A signalling NaN. -/
def isSig (x : FVal) : Bool := match x with | .nan b => b | _ => false
def isNaN (x : FVal) : Bool := match x with | .nan _ => true | _ => false

/-- −x of a value. -/
def negVal (x : FVal) : FVal :=
  match x with
  | .nan b => .nan b
  | .inf n => .inf (!n)
  | .fin n m e => .fin (!n) m e

/-- The sum (R241 0x0). -/
def fpAdd (f : Fmt) (rm : Nat) (x y : FVal) : Nat × Exc :=
  match x, y with
  | .nan a, _ => nanResult f (a || isSig y)
  | _, .nan b => nanResult f b
  | .inf a, .inf b => if a = b then (infBits f a, noExc) else (canonNaN f, invalid)
  | .inf a, .fin _ _ _ => (infBits f a, noExc)
  | .fin _ _ _, .inf b => (infBits f b, noExc)
  | .fin na ma ea, .fin nb mb eb =>
    let e := if ea ≤ eb then ea else eb
    let a : Int := (if na then -1 else 1) * (ma * 2 ^ (ea - e).toNat : Nat)
    let b : Int := (if nb then -1 else 1) * (mb * 2 ^ (eb - e).toNat : Nat)
    let s := a + b
    if s = 0 then (signBit f (if na = nb then na else rm = 2), noExc)
    else roundVal f rm (decide (s < 0)) s.natAbs e false

/-- The product (R241 0x2). -/
def fpMul (f : Fmt) (rm : Nat) (x y : FVal) : Nat × Exc :=
  match x, y with
  | .nan a, _ => nanResult f (a || isSig y)
  | _, .nan b => nanResult f b
  | .inf a, .inf b => (infBits f (a != b), noExc)
  | .inf a, .fin b m _ => if m = 0 then (canonNaN f, invalid) else (infBits f (a != b), noExc)
  | .fin a m _, .inf b => if m = 0 then (canonNaN f, invalid) else (infBits f (a != b), noExc)
  | .fin a ma ea, .fin b mb eb => roundVal f rm (a != b) (ma * mb) (ea + eb) false

/-- The quotient (R241 0x3). -/
def fpDiv (f : Fmt) (rm : Nat) (x y : FVal) : Nat × Exc :=
  match x, y with
  | .nan a, _ => nanResult f (a || isSig y)
  | _, .nan b => nanResult f b
  | .inf _, .inf _ => (canonNaN f, invalid)
  | .inf a, .fin b _ _ => (infBits f (a != b), noExc)
  | .fin a _ _, .inf b => (signBit f (a != b), noExc)
  | .fin a ma ea, .fin b mb eb =>
    if mb = 0 then
      if ma = 0 then (canonNaN f, invalid) else (infBits f (a != b), ⟨false, true, false, false, false⟩)
    else
      let k := f.mb + 6 + mb.log2
      roundVal f rm (a != b) (ma * 2 ^ k / mb) (ea - eb - k) (ma * 2 ^ k % mb != 0)

/-- The integer square root of `n`, bit by bit from bit `i - 1` down. -/
def isqrt (n : Nat) : Nat → Nat → Nat
  | 0, r => r
  | i + 1, r => if (r + 2 ^ i) * (r + 2 ^ i) ≤ n then isqrt n i (r + 2 ^ i) else isqrt n i r

/-- The square root (R241 0x4). -/
def fpSqrt (f : Fmt) (rm : Nat) (x : FVal) : Nat × Exc :=
  match x with
  | .nan a => nanResult f a
  | .inf a => if a then (canonNaN f, invalid) else (infBits f false, noExc)
  | .fin a m e =>
    if m = 0 then (signBit f a, noExc)
    else if a then (canonNaN f, invalid)
    else
      let odd := (e % 2).toNat
      let m2 := m * 2 ^ (odd + 2 * (f.mb + 4))
      let r := isqrt m2 (m2.log2 / 2 + 1) 0
      roundVal f rm false r ((e - odd) / 2 - (f.mb + 4 : Nat)) (r * r != m2)

/-- Order of two values that are no NaN: less, equal, greater as 0, 1, 2; -0 equals +0. -/
def fpOrd (x y : FVal) : Nat :=
  match x, y with
  | .inf a, .inf b => if a = b then 1 else if a then 0 else 2
  | .inf a, _ => if a then 0 else 2
  | _, .inf b => if b then 2 else 0
  | .fin na ma ea, .fin nb mb eb =>
    let e := if ea ≤ eb then ea else eb
    let a : Int := (if na then -1 else 1) * (ma * 2 ^ (ea - e).toNat : Nat)
    let b : Int := (if nb then -1 else 1) * (mb * 2 ^ (eb - e).toNat : Nat)
    if a < b then 0 else if a = b then 1 else 2
  | _, _ => 1

def isNeg (x : FVal) : Bool := match x with | .inf a => a | .fin a _ _ => a | _ => false

/-- FMIN and FMAX (R241): -0 is below +0, one quiet NaN gives the other operand, two NaNs or a signalling one the
canonical NaN (log entry 11). -/
def fpMinMax (f : Fmt) (max' : Bool) (a b : Nat) : Nat × Exc :=
  let x := unpack f a
  let y := unpack f b
  if isSig x || isSig y then (canonNaN f, invalid)
  else if isNaN x && isNaN y then (canonNaN f, noExc)
  else if isNaN x then (b, noExc)
  else if isNaN y then (a, noExc)
  else
    let o := fpOrd x y
    let aLess := o == 0 || (o == 1 && isNeg x && !isNeg y)
    (if aLess != max' then a else b, noExc)

/-- FCMP's flags (R241). -/
def fpCmp (x y : FVal) : Flags × Exc :=
  if isNaN x || isNaN y then (⟨false, false, false, true⟩, if isSig x || isSig y then invalid else noExc)
  else match fpOrd x y with
    | 0 => (⟨false, false, true, false⟩, noExc)
    | 1 => (⟨true, true, false, false⟩, noExc)
    | _ => (⟨false, true, false, false⟩, noExc)

/-- A value rounded to an integer by RM, and whether that was inexact. -/
def fpToInt (rm : Nat) (neg : Bool) (m : Nat) (e : Int) : Int × Bool :=
  let c := cutAt m e 0 false
  let k := c.1 + (if roundsUp rm neg (c.1 % 2 == 1) c.2 then 1 else 0)
  (if neg then -(k : Int) else k, c.2 != 0)

/-- FCVT.W.S and FCVT.WU.S (R241 0x9, 0xB). -/
def fpCvtInt (rm : Nat) (uns : Bool) (x : FVal) : Word × Exc :=
  let lo : Int := if uns then 0 else -(2 ^ 31)
  let hi : Int := if uns then 2 ^ 32 - 1 else 2 ^ 31 - 1
  match x with
  | .nan _ => (0, invalid)
  | .inf a => (BitVec.ofInt 32 (if a then lo else hi), invalid)
  | .fin a m e =>
    let r := fpToInt rm a m e
    if r.1 < lo then (BitVec.ofInt 32 lo, invalid)
    else if hi < r.1 then (BitVec.ofInt 32 hi, invalid)
    else (BitVec.ofInt 32 r.1, ⟨false, false, false, false, r.2⟩)

/-- A conversion between formats (R241 0xC, 0xD). -/
def fpCvt (g : Fmt) (rm : Nat) (x : FVal) : Nat × Exc :=
  match x with
  | .nan a => nanResult g a
  | .inf a => (infBits g a, noExc)
  | .fin a m e => roundVal g rm a m e false

/-- FABS and FNEG (R240, R241): no exception, a NaN becomes the canonical one. -/
def fpSign (f : Fmt) (abs : Bool) (b : Nat) : Nat :=
  if isNaN (unpack f b) then canonNaN f
  else if abs then b % 2 ^ (f.eb + f.mb)
  else if b.testBit (f.eb + f.mb) then b - 2 ^ (f.eb + f.mb) else b + 2 ^ (f.eb + f.mb)

/-- What an operation gives: a result for ACC, or flags, and its exceptions. -/
structure FpOut where
  res : Option Word
  flags : Option Flags
  exc : Exc

def fpRes (r : Nat × Exc) : FpOut := ⟨some (BitVec.ofNat 32 r.1), none, r.2⟩

/-- FPS and FPH sub-operation `sub` on ACC and the operand (R241); FPH has 0x0 to 0x7. -/
def fpOp (f : Fmt) (rm sub : Nat) (acc op : Word) : FpOut :=
  let w := 2 ^ (1 + f.eb + f.mb)
  let a := acc.toNat % w
  let b := op.toNat % w
  let x := unpack f a
  let y := unpack f b
  match sub with
  | 0x0 => fpRes (fpAdd f rm x y)
  | 0x1 => fpRes (fpAdd f rm x (negVal y))
  | 0x2 => fpRes (fpMul f rm x y)
  | 0x3 => fpRes (fpDiv f rm x y)
  | 0x4 => fpRes (fpSqrt f rm y)
  | 0x5 => fpRes (fpMinMax f false a b)
  | 0x6 => fpRes (fpMinMax f true a b)
  | 0x7 => let r := fpCmp x y; ⟨none, some r.1, r.2⟩
  | 0x8 => fpRes (roundVal fmtS rm (op.getLsbD 31) op.toInt.natAbs 0 false)
  | 0x9 => let r := fpCvtInt rm false y; ⟨some r.1, none, r.2⟩
  | 0xA => fpRes (roundVal fmtS rm false op.toNat 0 false)
  | 0xB => let r := fpCvtInt rm true y; ⟨some r.1, none, r.2⟩
  | 0xC => fpRes (fpCvt fmtH rm y)
  | 0xD => fpRes (fpCvt fmtS rm (unpack fmtH (op.toNat % 2 ^ 16)))
  | 0xE => fpRes (fpSign f true b, noExc)
  | _ => fpRes (fpSign f false b, noExc)

/-- The exceptions as FPCTL has them (R243): underflow with inexact, and an exact tiny result only where underflow is
enabled (R244, log entry 11). -/
def excBits (e : Exc) (en : Nat) : Nat :=
  (if e.nv then 16 else 0) + (if e.dz then 8 else 0) + (if e.ovf then 4 else 0) +
    (if e.tiny && (e.nx || en.testBit 1) then 2 else 0) + (if e.nx then 1 else 0)

end Sys2Proof.Machine
end

