-- ==== Sys2Proof/Machine/Scalar.lean ====
section
/-! DEFINITION. The scalar instructions (R203 to R244): what each does once its operand is there, and how it issues. -/

namespace Sys2Proof.Machine

/-! Reads that a distance leaves open (R213, log entry 12) -/

/-- An index as an instruction reads it: inside the distance of a memory-operand IX, either value. -/
def State.ixRead (s : State) (b : Bool) : BitVec 16 :=
  let old := if b then s.disp.late.ixb else s.disp.late.ixa
  let new := if b then s.disp.ixb else s.disp.ixa
  match old with
  | none => new
  | some v => if Config.freeBool s.free 0 then v else new

/-- BNK as an instruction reads it: inside the distance of a BNK write, either value. -/
def State.bnkRead (s : State) : BitVec 36 :=
  match s.disp.late.bnk with
  | none => s.disp.bnk
  | some v => if Config.freeBool s.free 1 then v else s.disp.bnk

/-- FPCTL as FPS, FPH, MUL and DIV see it (R213). -/
def State.fpctlSeen (s : State) : Word := (s.disp.late.mode.map (·.1)).getD s.disp.fpctl

/-! System registers (R202) -/

/-- PSW with what it has at reserved bits: 0 (R201). -/
def pswMask (v : Word) : Word := v &&& 0x1FFF07FF

/-- A MOVX read of system register `n`. PROD, QUO and REM are unspecified while their unit is busy (R234). -/
def State.movxGet (s : State) (n : Nat) : Word :=
  match n with
  | 0x00 => s.disp.psw
  | 0x01 => s.disp.fpctl
  | 0x02 => if s.disp.mul.isSome then Config.freeWord s.free 2 else s.disp.prod.extractLsb' 0 32
  | 0x03 => if s.disp.mul.isSome then Config.freeWord s.free 3 else s.disp.prod.extractLsb' 32 32
  | 0x04 => if s.disp.div.isSome then Config.freeWord s.free 4 else s.disp.quo
  | 0x05 => if s.disp.div.isSome then Config.freeWord s.free 5 else s.disp.rem
  | 0x06 => s.disp.dsp
  | 0x07 => s.disp.dsBase
  | 0x08 => s.disp.dsLimit
  | 0x09 => BitVec.ofNat 32 s.disp.ds.length
  | 0x0A => BitVec.ofNat 32 s.disp.rs.length
  | 0x0B => (s.disp.rs.headD 0).extractLsb' 0 32
  | 0x0C => ((s.disp.rs.headD 0).extractLsb' 32 20).setWidth 32
  | 0x0D => s.disp.spsw
  | 0x0E => s.disp.tcause
  | 0x0F => s.disp.taddr.extractLsb' 0 32
  | 0x10 => (s.disp.taddr.extractLsb' 32 20).setWidth 32
  | 0x11 => s.disp.vbnk.extractLsb' 0 32
  | 0x12 => (s.disp.vbnk.extractLsb' 32 4).setWidth 32
  | _ => 0

/-- Registers that Application privilege may not reach: those marked F in R202. -/
def movxFirmware (n : Nat) : Bool :=
  n == 0x07 || n == 0x08 || (decide (0x0B ≤ n) && decide (n ≤ 0x12))

/-- A MOVX write of system register `n` (R201, R202). -/
def State.movxSet (s : State) (n : Nat) (v : Word) : State :=
  let d := s.disp
  let setTop := fun (t : BitVec 52) => match d.rs with
    | [] => s
    | _ :: r => { s with disp := { d with rs := t :: r } }
  match n with
  | 0x00 => { s with disp := { d with psw := (d.psw &&& ~~~0x8F#32) ||| (v &&& 0x8F#32) } }
  | 0x01 => { s with disp := { d with fpctl := (d.fpctl &&& ~~~0x33F1F#32) ||| (v &&& 0x33F1F#32) } }
  | 0x02 => { s with disp := { d with prod := d.prod.extractLsb' 32 32 ++ v, mul := none } }.setPsw 5 true
  | 0x03 => { s with disp := { d with prod := v ++ d.prod.extractLsb' 0 32, mul := none } }.setPsw 5 true
  | 0x04 => { s with disp := { d with quo := v, div := none } }.setPsw 6 true
  | 0x05 => { s with disp := { d with rem := v, div := none } }.setPsw 6 true
  | 0x06 => if s.firmware then { s with disp := { d with dsp := v &&& ~~~7#32 } } else s
  | 0x07 => { s with disp := { d with dsBase := v &&& ~~~7#32 } }
  | 0x08 => { s with disp := { d with dsLimit := v &&& ~~~7#32 } }
  | 0x0A =>
    if s.firmware ∧ v.toNat < d.rs.length then { s with disp := { d with rs := d.rs.drop (d.rs.length - v.toNat) } } else s
  | 0x0B => setTop ((d.rs.headD 0).extractLsb' 32 20 ++ v)
  | 0x0C => setTop (v.extractLsb' 0 20 ++ (d.rs.headD 0).extractLsb' 0 32)
  | 0x0D => { s with disp := { d with spsw := pswMask v } }
  | 0x11 => { s with disp := { d with vbnk := d.vbnk.extractLsb' 32 4 ++ v } }
  | 0x12 => { s with disp := { d with vbnk := v.extractLsb' 0 4 ++ d.vbnk.extractLsb' 0 32 } }
  | _ => s

/-! Multiplier and divider (R233 to R238) -/

/-- The exact 64-bit product (R233). -/
def product (signed : Bool) (a b : Word) : BitVec 64 :=
  if signed then BitVec.ofInt 64 (a.toInt * b.toInt) else BitVec.ofNat 64 (a.toNat * b.toNat)

/-- Quotient, remainder and V (R236, R238). -/
def divide (signed : Bool) (a b : Word) : Word × Word × Bool :=
  if signed then
    if b = 0 then (if a.getLsbD 31 then 0x80000000 else 0x7FFFFFFF, a, true)
    else if a = 0x80000000 ∧ b = 0xFFFFFFFF then (0x80000000, 0, true)
    else (BitVec.ofInt 32 (a.toInt.tdiv b.toInt), BitVec.ofInt 32 (a.toInt.tmod b.toInt), false)
  else if b = 0 then (0xFFFFFFFF, a, true)
  else (a / b, a % b, false)

/-! Stacks (R216, R217) -/

/-- Write two entries of the data stack at DSP, the older in bits [31:0], and add 8 to DSP (R216). -/
def State.spill (s : State) (older newer : Word) : State :=
  let s1 := s.postStore s.disp.dsp.toNat 8 (newer ++ older)
  { s1 with disp := { s1.disp with dsp := s1.disp.dsp + 8 } }

/-- Push a value; a full stack spills its two oldest entries first (R216). -/
def State.push (s : State) (v : Word) : State :=
  if s.disp.ds.length ≥ 32 then
    let n := s.disp.ds.length
    let s1 := s.spill (s.disp.ds.getD (n - 1) 0) (s.disp.ds.getD (n - 2) 0)
    { s1 with disp := { s1.disp with ds := v :: s.disp.ds.take (n - 2) } }
  else { s with disp := { s.disp with ds := v :: s.disp.ds } }

/-- Spill every entry from the oldest on, at most `n` pairs; an odd last one goes with 0 above it (R216). -/
def State.flush (s : State) : Nat → State
  | 0 => s
  | n + 1 =>
    if s.postedFull then s
    else match s.disp.ds.reverse with
      | [] => s
      | [a] => let s1 := s.spill a 0; { s1 with disp := { s1.disp with ds := [] } }
      | a :: b :: t => let s1 := s.spill a b; State.flush { s1 with disp := { s1.disp with ds := t.reverse } } n

/-! Traps judged before the operand -/

/-- PRIV before ALIGN (R205, R218, R221): the cause and TADDR. -/
def State.scalarTrap (s : State) (opc : Nat) (o : SOp) : Option (Nat × Nat) :=
  let a := s.operandAddr o
  if !s.firmware && ((opc == 0x14 && o.sub == 1) || (opc == 0x18 && o.sub != 3) || (opc == 0x10 && movxFirmware o.addr)) then
    some (3, s.here.toNat)
  else if SOpMem o && (hasOperand opc o.sub || opc == 0x02) && misaligned (opc != 0x02) a (operandBytes opc o.sub) then
    some (4, a)
  else none

/-! What instructions do -/

/-- An ALU result: ACC and flags, then the next instruction. -/
def State.alu (s : State) (r : Word) (f : Flags) : State := ((s.setAcc r).setFlags f).endInstr 4 noLate

/-- ST, its alignment judged (R206): into the store-pair buffer, as the second half of a pair, or posted. -/
def State.store (s : State) (o : SOp) : State :=
  let a := s.operandAddr o
  let n := operandBytes 0x02 o.sub
  match s.disp.pair with
  | some (_, lo) =>
    let s1 := s.postStore (a - 4) 8 (s.disp.acc ++ lo)
    ({ s1 with disp := { s1.disp with pair := none } }).endInstr 4 noLate
  | none =>
    if o.sub = 0 ∧ a < 0x800000 ∧ a % 8 = 0 then
      ({ s with disp := { s.disp with pair := some (BitVec.ofNat 52 a, s.disp.acc) } }).endInstr 4 noLate
    else (s.postStore a n (BitVec.ofNat 64 (s.disp.acc.toNat % 2 ^ (8 * n)))).endInstr 4 noLate

/-- IX (R210, R213). -/
def State.index (s : State) (o : SOp) (op : Word) : State :=
  let nl := fun (b : Bool) => if SOpMem o then
      (if b then { noLate with ixb := some s.disp.ixb } else { noLate with ixa := some s.disp.ixa }) else noLate
  let low : BitVec 16 := op.extractLsb' 0 16
  match o.sub with
  | 0 => ({ s with disp := { s.disp with ixa := low } }).endInstr 4 (nl false)
  | 1 => ({ s with disp := { s.disp with ixb := low } }).endInstr 4 (nl true)
  | 2 => ({ s.useFree with disp := { s.disp with ixa := s.ixRead false + low } }).endInstr 4 (nl false)
  | 3 => ({ s.useFree with disp := { s.disp with ixb := s.ixRead true + low } }).endInstr 4 (nl true)
  | 4 => ((s.setAcc ((s.ixRead false).setWidth 32)).useFree).endInstr 4 noLate
  | _ => ((s.setAcc ((s.ixRead true).setWidth 32)).useFree).endInstr 4 noLate

/-- BNK (R210, R213). -/
def State.bank (s : State) (o : SOp) (op : Word) : State :=
  let nl := { noLate with bnk := some s.disp.bnk }
  match o.sub with
  | 0 => ({ s with disp := { s.disp with bnk := s.disp.bnk.extractLsb' 16 20 ++ op.extractLsb' 0 16 } }).endInstr 4 nl
  | 1 => ({ s with disp := { s.disp with bnk := op.extractLsb' 0 20 ++ s.disp.bnk.extractLsb' 0 16 } }).endInstr 4 nl
  | 2 => ((s.setAcc (s.bnkRead.extractLsb' 0 32)).useFree).endInstr 4 noLate
  | 3 => ((s.setAcc ((s.bnkRead.extractLsb' 32 4).setWidth 32)).useFree).endInstr 4 noLate
  | _ => ({ s.useFree with disp := { s.disp with bnk := s.bnkRead + op.signExtend 36 } }).endInstr 4 nl

/-- DIV (R236, R238): IDIV at issue when FPCTL.IDZE asks for it. -/
def State.startDiv (s : State) (o : SOp) (op : Word) : State :=
  if op = 0 ∧ s.fpctlSeen.getLsbD 13 then s.trapHere 0x0A s.here.toNat 0 .ok
  else
    let r := divide (o.sub == 1) s.disp.acc op
    let s1 := { s with disp := { s.disp with div := some ⟨r.1, r.2.1, 0⟩ } }
    ((s1.setPsw 6 false).setPsw 3 r.2.2).endInstr 4 noLate

/-- MOVX (R202). -/
def State.movx (s : State) (o : SOp) : State :=
  if o.sub = 0 then ((s.setAcc (s.movxGet o.addr)).useFree).endInstr 4 noLate
  else
    let s1 := s.movxSet o.addr s.disp.acc
    s1.endInstr 4 (if o.addr ≤ 1 then { noLate with mode := some (s.disp.fpctl, s.psw 7) } else noLate)

/-- STK (R216). -/
def State.stack (s : State) (o : SOp) (op : Word) : State :=
  if o.sub = 1 then
    match s.disp.ds with
    | v :: t => ({ s with disp := { s.disp with ds := t } }).endInstr 4 { noLate with acc := some v }
    | [] =>
      if s.disp.dsp.toNat ≤ s.disp.dsBase.toNat then s.trapHere 9 s.here.toNat 0 .ok
      else (s.sendReq false false (s.disp.dsp.toNat - 8) 8 [] 0).waitFor .fill
  else if s.disp.ds.length ≥ 32 ∧ s.disp.dsp.toNat + 8 > s.disp.dsLimit.toNat then s.trapHere 9 s.here.toNat 0 .ok
  else (s.push (if o.sub = 0 then s.disp.acc else op)).endInstr 4 noLate

/-- BR and CALL (R212, R217). -/
def State.branch (s : State) (call : Bool) (o : SOp) (op : Word) : State :=
  let pc : BitVec 16 := if SOpMem o then op.extractLsb' 0 16
    else s.disp.pc + 4 * BitVec.ofNat 16 o.addr
  let bank := if o.sub = 1 then s.bankSeen else s.disp.pbnk
  if pc.toNat % 4 ≠ 0 then s.trapHere 4 (bank ++ pc : BitVec 52).toNat 0 .ok
  else if call && decide (14 ≤ s.disp.rs.length) then s.trapHere 7 s.here.toNat 0 .ok
  else if call then ({ s with disp := { s.disp with rs := s.after 4 :: s.disp.rs } }).endJump bank pc
  else s.endJump bank pc

/-- RETI restores PSW from SPSW but for GOR, MDONE and DDONE (R224). -/
def restorePsw (psw spsw : Word) : Word := (spsw &&& ~~~0x70#32) ||| (psw &&& 0x70#32)

/-- End of an array instruction of two words that took a snapshot (R207, R214). -/
def State.endArray (s : State) : State :=
  let s1 := { s with disp := { s.disp with acc := s.disp.late.acc.getD s.disp.acc, late := noLate, wait := .none,
                                           pc := s.disp.pc + 8 } }
  (s1.ageUnits.startHold).boundary

/-- RET and RETI (R217, R224). A RETI that returns to a suspended array instruction resumes it and runs it to its end; with
ASTEP = 0 the instruction is a customer one and starts again from its decode entry (R148, R265). -/
def State.ret (s : State) (o : SOp) : State :=
  match s.disp.rs with
  | [] => s.trapHere 8 s.here.toNat 0 .ok
  | a :: t =>
    let bank : BitVec 36 := a.extractLsb' 16 36
    let pc : BitVec 16 := a.extractLsb' 0 16
    if o.sub = 0 then ({ s with disp := { s.disp with rs := t } }).endJump bank pc
    else if s.disp.spsw.getLsbD 10 && !s.arr.suspended then s.trapHere 5 s.here.toNat 0 .ok
    else
      let s1 := { s with disp := { s.disp with rs := t, psw := restorePsw s.disp.psw s.disp.spsw } }
      if s.disp.spsw.getLsbD 10 then
        let psw := putBits (putBits s1.disp.psw 10 10 0) 28 16 0
        let s2 := { s1 with disp := { s1.disp with psw := psw, pbnk := bank, pc := pc } }.flushLate
        if bitsOf s.disp.spsw 28 16 = 0 then
          let s3 := s2.resumeSeq
          ({ s3 with arr := { s3.arr with susp := none } }).endJump bank pc
        else (s2.resumeArray s2.disp.acc).endArray
      else s1.endJump bank pc

/-- FPS and FPH (R239 to R244). -/
def State.float (s : State) (f : Fmt) (o : SOp) (op : Word) : State :=
  let ctl := s.fpctlSeen
  let r := fpOp f (bitsOf ctl 17 16) o.sub s.disp.acc op
  let en := bitsOf ctl 12 8
  let e := excBits r.exc en
  if e &&& en ≠ 0 then
    ({ s with disp := { s.disp with fpctl := putBits s.disp.fpctl 28 24 e } }).trapHere 0x0B s.here.toNat 0 .ok
  else
    let s1 := { s with disp := { s.disp with fpctl := s.disp.fpctl ||| BitVec.ofNat 32 e } }
    let s2 := match r.res with | some v => s1.setAcc v | none => s1
    (match r.flags with | some g => s2.setFlags g | none => s2).endInstr 4 noLate

/-- SYS (R216, R226, R229). -/
def State.sys (s : State) (o : SOp) : State :=
  match o.sub with
  | 0 => (s.setPsw 8 true).endInstr 4 noLate
  | 1 => (s.setPsw 8 false).endInstr 4 noLate
  | 2 => if s.icRequest && !s.psw 8 then s.endInstr 4 noLate else s.waitFor .wfi
  | 3 => if s.fenceBusy then s.waitFor .fence else s.endInstr 4 noLate
  | _ =>
    if s.disp.ds ≠ [] ∧ s.disp.dsp.toNat + 8 * ((s.disp.ds.length + 1) / 2) > s.disp.dsLimit.toNat then
      s.trapHere 9 s.here.toNat 0 .ok
    else
      let s1 := s.flush 16
      if s1.disp.ds = [] then s1.endInstr 4 noLate else s1.waitFor (.posted 0x18 o)

/-- A coprocessor request: CPREQ with unit, SUB and MODE, and ACC with the operand (R245, R337). -/
def State.coprocSend (s : State) (u : Nat) (o : SOp) (op : Word) : State :=
  let fn : Word64 := BitVec.ofNat 64 (u + o.sub * 8 + o.mode * 128)
  (s.sendReq false true 0 0 [(fn, 0xFF), (op ++ s.disp.acc, 0xFF)] 52).waitFor (.coproc u)

/-- What an instruction does with its operand `op` (R210). -/
def State.scalarFinish (s : State) (opc : Nat) (o : SOp) (op : Word) : State :=
  let a := s.disp.acc
  let f := s.flags
  match opc with
  | 0x00 => s.endInstr 4 noLate
  | 0x01 => s.endInstr 4 { noLate with acc := some op }
  | 0x02 => s.store o
  | 0x03 => (s.setAcc (op.extractLsb' 0 16 ++ a.extractLsb' 0 16)).endInstr 4 noLate
  | 0x04 => let r := addFlags a op (o.sub == 1 && f.c); s.alu r.1 r.2
  | 0x05 =>
    let r := match o.sub with | 0 => subFlags a op true | 1 => subFlags a op f.c | _ => subFlags op a true
    s.alu r.1 r.2
  | 0x06 => s.alu (a &&& op) (flagsZN f (a &&& op))
  | 0x07 => s.alu (a ||| op) (flagsZN f (a ||| op))
  | 0x08 => s.alu (a ^^^ op) (flagsZN f (a ^^^ op))
  | 0x09 => let r := shiftFlags o.sub a (op.toNat % 32) f; s.alu r.1 r.2
  | 0x0A => (s.setFlags (subFlags a op true).2).endInstr 4 noLate
  | 0x0B => (s.setFlags (flagsZN f (a &&& op))).endInstr 4 noLate
  | 0x0C => s.index o op
  | 0x0D => s.bank o op
  | 0x0E =>
    (({ s with disp := { s.disp with mul := some ⟨product (o.sub == 1) a op, 0⟩ } }).setPsw 5 false).endInstr 4 noLate
  | 0x0F => s.startDiv o op
  | 0x10 => s.movx o
  | 0x11 => s.stack o op
  | 0x12 => s.branch false o op
  | 0x13 => s.branch true o op
  | 0x14 => s.ret o
  | 0x15 => s.trapHere (if o.sub = 0 then 0x0E else 0x0F) s.here.toNat o.addr .ok
  | 0x16 => s.float fmtS o op
  | 0x17 => s.float fmtH o op
  | 0x18 => s.sys o
  | _ => s.coprocSend (opc - 0x30) o op

/-- The instruction needs a posted write now: ST but for the low half of a pair, a push that spills (R206, R216, R231). -/
def State.needsPost (s : State) (opc : Nat) (o : SOp) : Bool :=
  match opc with
  | 0x02 => !(s.disp.pair.isNone && o.sub == 0 && decide (s.operandAddr o < 0x800000) && s.operandAddr o % 8 == 0)
  | 0x11 => o.sub != 1 && decide (32 ≤ s.disp.ds.length)
  | _ => false

/-- Fetch the operand and go on: an immediate at once, a memory operand by a request and a wait (R204, R230). -/
def State.scalarRun (s : State) (opc : Nat) (o : SOp) : State :=
  if s.needsPost opc o && s.postedFull then s.waitFor (.posted opc o)
  else if hasOperand opc o.sub && SOpMem o then
    (s.sendReq false false (s.operandAddr o) (operandBytes opc o.sub) [] 0).waitFor (.operand opc o)
  else s.scalarFinish opc o (immediate opc o.sub o.addr)

/-- The ST completes the pair that is buffered (R206). -/
def State.pairMatch (s : State) (opc : Nat) (o : SOp) : Bool :=
  match s.disp.pair with
  | some (a, _) => opc == 0x02 && SOpMem o && o.sub == 0 && s.cond o.cond && s.operandAddr o == a.toNat + 4
  | none => false

/-- Issue a scalar or coprocessor instruction: the decode's UNDEF first, then the condition, then the traps, lowest cause
number first, then the operand (R209, R210, R220, R221). A Dispatcher that waits or is halted issues nothing. -/
def State.scalarIssue (s : State) (opc : Nat) (o : SOp) : State :=
  if !s.canIssue then s
  else
    let s1 := s.begin
    let s2 := if s1.pairMatch opc o then s1 else s1.discardPair
    if !scalarDefined opc o || !s2.decValid (4 * opc + o.mode) then s2.discardPair.trapHere 2 s2.here.toNat 0 .ok
    else if !s2.cond o.cond then s2.endInstr 4 noLate
    else match s2.scalarTrap opc o with
      | some (cause, a) => s2.discardPair.trapHere cause a 0 .ok
      | none => s2.scalarRun opc o

/-- The value of a memory operand from its bytes (R204, R210). -/
def operandValue (opc sub : Nat) (bytes : List Byte) : Word :=
  if opc = 0x01 then extendLoad sub (leNat bytes) else BitVec.ofNat 32 (leNat bytes)

/-- The response to a load or fill the Dispatcher waits for (R216, R230). -/
def State.loadArrived (s : State) (addr : Nat) (r : Resp) (bytes : List Byte) : State :=
  match s.disp.wait with
  | .operand opc o =>
    let s1 := s.waitFor .none
    if r = .ok then s1.scalarFinish opc o (operandValue opc o.sub bytes) else s1.trapHere 6 addr 0 r
  | .fill =>
    let s1 := s.waitFor .none
    if r = .ok then
      let v : Word64 := BitVec.ofNat 64 (leNat bytes)
      ({ s1 with disp := { s1.disp with dsp := s1.disp.dsp - 8, ds := [v.extractLsb' 0 32] } }).endInstr 4
        { noLate with acc := some (v.extractLsb' 32 32) }
    else s1.trapHere 6 addr 0 r
  | .micro d sz => s.microLoaded d sz addr r bytes
  | _ => s

/-- A posted write of the Dispatcher has its response (R229, R231): an error waits for the boundary, and a store or a FENCE
that waited goes on. -/
def State.storeArrived (s : State) (addr : Nat) (r : Resp) : State :=
  let s1 := if r = .ok then s else s.noteStoreError addr r
  match s1.disp.wait with
  | .posted opc o => (s1.waitFor .none).scalarRun opc o
  | .microPosted g a sz off => (s1.waitFor .none).mwr g a sz off
  | .fence => if s1.fenceBusy then s1 else (s1.waitFor .none).endInstr 4 noLate
  | _ => s1.boundary

/-! Meanings of the scalar rows -/

/-- NOP (R210). -/
def execNop (o : SOp) (s : State) : Host.Outcome State Fault Refusal := .next (s.scalarIssue 0x00 o)
/-- LD (R204, R210). -/
def execLd (o : SOp) (s : State) : Host.Outcome State Fault Refusal := .next (s.scalarIssue 0x01 o)
/-- ST (R206). -/
def execSt (o : SOp) (s : State) : Host.Outcome State Fault Refusal := .next (s.scalarIssue 0x02 o)
/-- LUI (R210). -/
def execLui (o : SOp) (s : State) : Host.Outcome State Fault Refusal := .next (s.scalarIssue 0x03 o)
/-- ADD (R210, R211). -/
def execAdd (o : SOp) (s : State) : Host.Outcome State Fault Refusal := .next (s.scalarIssue 0x04 o)
/-- SUB (R210, R211). -/
def execSub (o : SOp) (s : State) : Host.Outcome State Fault Refusal := .next (s.scalarIssue 0x05 o)
/-- AND (R210). -/
def execAnd (o : SOp) (s : State) : Host.Outcome State Fault Refusal := .next (s.scalarIssue 0x06 o)
/-- OR (R210). -/
def execOr (o : SOp) (s : State) : Host.Outcome State Fault Refusal := .next (s.scalarIssue 0x07 o)
/-- XOR (R210). -/
def execXor (o : SOp) (s : State) : Host.Outcome State Fault Refusal := .next (s.scalarIssue 0x08 o)
/-- SHF (R211). -/
def execShf (o : SOp) (s : State) : Host.Outcome State Fault Refusal := .next (s.scalarIssue 0x09 o)
/-- CMP (R211). -/
def execCmp (o : SOp) (s : State) : Host.Outcome State Fault Refusal := .next (s.scalarIssue 0x0A o)
/-- TST (R210). -/
def execTst (o : SOp) (s : State) : Host.Outcome State Fault Refusal := .next (s.scalarIssue 0x0B o)
/-- IX (R210). -/
def execIx (o : SOp) (s : State) : Host.Outcome State Fault Refusal := .next (s.scalarIssue 0x0C o)
/-- BNK (R210). -/
def execBnk (o : SOp) (s : State) : Host.Outcome State Fault Refusal := .next (s.scalarIssue 0x0D o)
/-- MUL (R233). -/
def execMul (o : SOp) (s : State) : Host.Outcome State Fault Refusal := .next (s.scalarIssue 0x0E o)
/-- DIV (R236). -/
def execDiv (o : SOp) (s : State) : Host.Outcome State Fault Refusal := .next (s.scalarIssue 0x0F o)
/-- MOVX 0x0 (R202). -/
def execMovxRead (o : SOp) (s : State) : Host.Outcome State Fault Refusal := .next (s.scalarIssue 0x10 { o with sub := 0 })
/-- MOVX 0x1 (R202). -/
def execMovxWrite (o : SOp) (s : State) : Host.Outcome State Fault Refusal := .next (s.scalarIssue 0x10 { o with sub := 1 })
/-- STK 0x0 and 0x2 (R216). -/
def execStkPush (o : SOp) (s : State) : Host.Outcome State Fault Refusal :=
  .next (s.scalarIssue 0x11 { o with sub := if o.sub = 1 then 0 else o.sub })
/-- STK 0x1 (R216). -/
def execStkPop (o : SOp) (s : State) : Host.Outcome State Fault Refusal := .next (s.scalarIssue 0x11 { o with sub := 1 })
/-- BR (R212). -/
def execBr (o : SOp) (s : State) : Host.Outcome State Fault Refusal := .next (s.scalarIssue 0x12 o)
/-- CALL (R217). -/
def execCall (o : SOp) (s : State) : Host.Outcome State Fault Refusal := .next (s.scalarIssue 0x13 o)
/-- RET (R217). -/
def execRet (o : SOp) (s : State) : Host.Outcome State Fault Refusal := .next (s.scalarIssue 0x14 { o with sub := 0 })
/-- RETI (R224). -/
def execReti (o : SOp) (s : State) : Host.Outcome State Fault Refusal := .next (s.scalarIssue 0x14 { o with sub := 1 })
/-- SVC (R221). -/
def execSvc (o : SOp) (s : State) : Host.Outcome State Fault Refusal := .next (s.scalarIssue 0x15 { o with sub := 0 })
/-- BRK (R221). -/
def execBrk (o : SOp) (s : State) : Host.Outcome State Fault Refusal := .next (s.scalarIssue 0x15 { o with sub := 1 })
/-- FPS (R241). -/
def execFps (o : SOp) (s : State) : Host.Outcome State Fault Refusal := .next (s.scalarIssue 0x16 o)
/-- FPH (R241). -/
def execFph (o : SOp) (s : State) : Host.Outcome State Fault Refusal := .next (s.scalarIssue 0x17 o)
/-- SYS EI (R226). -/
def execEi (o : SOp) (s : State) : Host.Outcome State Fault Refusal := .next (s.scalarIssue 0x18 { o with sub := 0 })
/-- SYS DI (R226). -/
def execDi (o : SOp) (s : State) : Host.Outcome State Fault Refusal := .next (s.scalarIssue 0x18 { o with sub := 1 })
/-- SYS WFI (R226). -/
def execWfi (o : SOp) (s : State) : Host.Outcome State Fault Refusal := .next (s.scalarIssue 0x18 { o with sub := 2 })
/-- SYS FENCE (R229). -/
def execFence (o : SOp) (s : State) : Host.Outcome State Fault Refusal := .next (s.scalarIssue 0x18 { o with sub := 3 })
/-- SYS DSFLUSH (R216). -/
def execDsflush (o : SOp) (s : State) : Host.Outcome State Fault Refusal := .next (s.scalarIssue 0x18 { o with sub := 4 })
/-- COPROC (R245). -/
def execCoproc (u : Nat) (o : SOp) (s : State) : Host.Outcome State Fault Refusal :=
  .next (s.scalarIssue (0x30 + u % 8) o)
/-- MUL_DONE (R233): the multiplier's last step. -/
def execMulDone (s : State) : Host.Outcome State Fault Refusal := .next s.mulDone
/-- DIV_DONE (R237): the divider's last step. -/
def execDivDone (s : State) : Host.Outcome State Fault Refusal := .next s.divDone
/-- STORE_ERROR (R231): the response to a posted write at `addr` is an error. -/
def execStoreError (addr : Nat) (r : Resp) (s : State) : Host.Outcome State Fault Refusal :=
  .next (match s.jt.txns.find? fun t => t.src == dispPort && t.write && t.open' && t.addr == addr / 8 * 8 with
    | none => s
    | some t => ({ s with jt := { s.jt with txns := s.jt.txns.filter fun u => !(u == t) } }).storeArrived addr r)

end Sys2Proof.Machine
end

