-- ==== Sys2Proof/Machine/Junction.lean ====
section
/-! DEFINITION. Requests and responses of the Junction tree (R335 to R353): a request leaves, is judged by the root, is performed
at its target, and its response returns to its initiator or does not come in time. -/

namespace Sys2Proof.Machine

/-! At a target (R285, R286, R304, R318, R339, R352) -/

/-- Read the bytes of `n` registers from key `k` on, each once. -/
def State.regReads (s : State) (k : Nat) : Nat → State × List Byte
  | 0 => (s, [])
  | n + 1 =>
    let r := s.regRead k
    let q := State.regReads r.1 (k + 4) n
    (q.1, natLe 4 r.2.toNat ++ q.2)

/-- A read at the registers: every register that the bytes touch is read in full. -/
def State.regBytes (s : State) (k len : Nat) : State × List Byte :=
  let r := s.regReads (k / 4 * 4) ((k % 4 + len + 3) / 4)
  (r.1, (r.2.drop (k % 4)).take len)

/-- One 64-bit word written at the registers at key `k`: a half of the Coupler takes whole words, a register whole 32-bit
writes, low word first (R206, R450, R564). -/
def State.regWord (s : State) (ini k : Nat) (d : Word64 × BitVec 8) (rivals : List (Nat × Nat × Word)) : State × Resp :=
  if inHalves k then s.halfWrite ((k - 0x18000) / 0x1000) (k % 0x1000 / 8) d.1 d.2
  else
    let lo := d.2.extractLsb' 0 4
    let hi := d.2.extractLsb' 4 4
    if !((lo == 0 || lo == 15) && (hi == 0 || hi == 15)) then (s, .narrow)
    else
      let r := if lo = 15 then s.cycleWrite ini k (d.1.extractLsb' 0 32) rivals else (s, .ok)
      let q := if hi = 15 then r.1.cycleWrite ini (k + 4) (d.1.extractLsb' 32 32) rivals else (r.1, .ok)
      (q.1, if r.2 = .ok then q.2 else r.2)

/-- The ports whose target holds registers. -/
def regTarget (port : Nat) : Bool := port == 49 || port == 50 || port == 51 || port == 53 || port == 59

/-- A read at the target with port `port`, other than the host window. -/
def State.readAt (s : State) (port addr len : Nat) : State × Resp × List Byte :=
  if port = 57 then s.spRead addr len
  else if port = 58 then s.secRead (addr - secBaseAddr) len
  else if 60 ≤ port then s.ddrRead (addr - ddrBaseAddr) len
  else let r := s.regBytes (addr - 0x2000000) len; (r.1, .ok, r.2)

/-- A write of one word at the target with port `port`. `met` lists the scratchpad words that the array writes in the same
bank cycle (R283), `rivals` the other register writes of the cycle. -/
def State.writeAt (s : State) (port ini addr : Nat) (met : List Nat) (rivals : List (Nat × Nat × Word))
    (d : Word64 × BitVec 8) : State × Resp :=
  if port = 57 then s.spWriteReq ini addr met [d]
  else if port = 58 then s.secWriteReq (addr - secBaseAddr) [d]
  else if 60 ≤ port then s.ddrWriteReq (addr - ddrBaseAddr) [d]
  else s.regWord ini (addr - 0x2000000) d rivals

/-- The words of a write in turn; a poisoned one is not performed (R352). -/
def State.writeEach (s : State) (port ini addr : Nat) (met bad : List Nat) (rivals : List (Nat × Nat × Word)) :
    Nat → List (Word64 × BitVec 8) → State × List Resp
  | _, [] => (s, [])
  | i, d :: t =>
    let r := if bad.contains i then (s, .poison) else s.writeAt port ini (addr + 8 * i) met rivals d
    let q := State.writeEach r.1 port ini addr met bad rivals (i + 1) t
    (q.1, r.2 :: q.2)

/-- A write request at its target and the one response it gets. -/
def State.writeAll (s : State) (port ini addr : Nat) (met bad : List Nat) (rivals : List (Nat × Nat × Word))
    (data : List (Word64 × BitVec 8)) : State × Resp :=
  let r := s.writeEach port ini addr met bad rivals 0 data
  (r.1, if bad ≠ [] then .poison else firstResp [.decerr, .denied, .slverr, .narrow, .collided, .poison] r.2)

/-! On the way to the target (R336, R343, R348, R353) -/

/-- A request's stage once it has been performed. A timed-out one stays in quarantine (R346). -/
def Txn.performed (t : Txn) (r : Resp) (data : List Byte) : Txn :=
  { t with stage := match t.stage with | .quarantined _ => .quarantined none | _ => .answered r data }

/-- The port where a request waits to be performed. -/
def Txn.waits (t : Txn) : Option Nat :=
  match t.stage with
  | .delivered p => some p
  | .quarantined p => p
  | _ => none

/-- Perform request `src`, `tag` at a target where it waits. -/
def State.performTxn (s : State) (src tag : Nat) (met : List Nat) (rivals : List (Nat × Nat × Word)) : State :=
  match s.txn src tag with
  | none => s
  | some t =>
    match t.waits with
    | none => s
    | some p =>
      if t.cp ∨ p = 48 then s
      else if t.write then
        let r := s.writeAll p t.init t.addr met t.bad rivals t.data
        r.1.updTxn src tag fun t => some (t.performed r.2 [])
      else
        let r := s.readAt p t.addr t.len
        r.1.updTxn src tag fun t => some (t.performed r.2.1 r.2.2)

/-- The root judges request `src`, `tag`, which leaves its interface: it is delivered or answered. -/
def State.rootJudge (s : State) (t : Txn) : State :=
  if t.cp then
    let g := if s.fence 52 ≠ 0 then Stage.answered .slverr [] else if s.fabState ≠ 4 then .answered .decerr [] else .delivered 52
    s.updTxn t.src t.tag fun t => some { t with stage := g, dst := 52 }
  else
    let r := s.route s.ddrUsable t.src t.init t.tag t.addr t.len t.write
    match r.2 with
    | .inl p => r.1.updTxn t.src t.tag fun t => some { t with stage := .delivered p, dst := p }
    | .inr e => r.1.updTxn t.src t.tag fun t => some { t with stage := .answered e [], dst := (portOf s.ddrUsable t.addr).getD t.src }

/-- Request `src`, `tag` leaves its interface unless its port is fenced or it has no credit; a guaranteed request that spills
travels as best effort. -/
def State.depart (s : State) (src tag : Nat) : State :=
  match s.txn src tag with
  | none => s
  | some t =>
    if t.stage ≠ .issued ∨ s.fence src ≠ 0 then s
    else if !t.guar then s.rootJudge t
    else match s.ttMay t.init with
      | 0 => s
      | 1 => (s.ttSpend t.init).rootJudge t
      | _ => (s.updTxn src tag fun t => some { t with guar := false }).rootJudge t

/-- A request that the packet describes is under way: the one its initiator has issued, or a new one. -/
def State.enroll (s : State) (p : Packet) (write cp : Bool) : State :=
  if (s.txn p.src p.tag).isSome then s
  else
    let t : Txn := ⟨p.src, p.ini, p.tag, write, cp, p.addr, if write then 8 * p.data.length else p.len,
      if write || cp then p.data else [], decide (8 ≤ p.ini ∧ p.ini ≤ 17), .issued, 0, []⟩
    { s with jt := { s.jt with txns := s.jt.txns ++ [t] } }

/-- Corrected flits of a packet (R352). -/
def State.linkCe (s : State) : Nat → State
  | 0 => s
  | n + 1 => State.linkCe (s.satInc Reg.JT_LINK_CE 31 0) n

/-- The packet of request `p` goes its way; at a register target, and for a read of the secure region, it is performed as it
arrives. -/
def State.sendPacket (s : State) (p : Packet) (write cp : Bool) (rivals : List (Nat × Nat × Word)) : State :=
  let s1 := (s.enroll p write cp).depart p.src p.tag
  match s1.txn p.src p.tag with
  | none => s1
  | some t =>
    match t.stage with
    | .delivered port =>
      let s2 := s1.linkCe p.ce
      let s3 := if p.bad = [] then s2 else
        ((s2.jtError 1 port t.init t.tag 0).fire 81).updTxn p.src p.tag fun t => some { t with bad := p.bad }
      if !cp && (regTarget port || (port == 58 && !write)) then s3.performTxn p.src p.tag [] rivals else s3
    | _ => s1

/-- The request that the packet may be: issued, or not yet known. -/
def State.mayDepart (s : State) (p : Packet) (write cp : Bool) : Bool :=
  match s.txn p.src p.tag with
  | none => true
  | some t => t.stage == .issued && t.write == write && t.cp == cp

/-- RD (R336 to R340, R355). -/
def execRd (p : Packet) (s : State) : Host.Outcome State Fault Refusal :=
  .next (if s.mayDepart p false false then s.sendPacket p false false [] else s)

/-- WR. -/
def execWr (p : Packet) (rivals : List (Nat × Nat × Word)) (s : State) : Host.Outcome State Fault Refusal :=
  .next (if s.mayDepart p true false then s.sendPacket p true false rivals else s)

/-- CPREQ (R246, R337): answered DECERR where the fabric does not run. -/
def execCpreq (p : Packet) (s : State) : Host.Outcome State Fault Refusal :=
  .next (if s.mayDepart p false true then s.sendPacket p false true [] else s)

/-- Perform request `src`, `tag` where it waits at a port of the given set, as a read or a write. -/
def State.performHere (s : State) (src tag : Nat) (write : Bool) (ports : Nat → Bool) (met : List Nat) : State :=
  match s.txn src tag with
  | none => s
  | some t => if t.write = write ∧ (t.waits.map ports).getD false then s.performTxn src tag met [] else s

/-- SCRATCHPAD_READ (R285). -/
def execScratchpadRead (src tag : Nat) (s : State) : Host.Outcome State Fault Refusal :=
  .next (s.performHere src tag false (· == 57) [])

/-- SCRATCHPAD_WRITE (R286). -/
def execScratchpadWrite (src tag : Nat) (met : List Nat) (s : State) : Host.Outcome State Fault Refusal :=
  .next (s.performHere src tag true (· == 57) met)

/-- SECURE_REGION_WRITE (R304). -/
def execSecureRegionWrite (src tag : Nat) (s : State) : Host.Outcome State Fault Refusal :=
  .next (s.performHere src tag true (· == 58) [])

/-- LPDDR5_WRITE (R318). -/
def execLpddr5Write (src tag : Nat) (s : State) : Host.Outcome State Fault Refusal :=
  .next (s.performHere src tag true (fun p => decide (60 ≤ p)) [])

/-- LPDDR5_READ (R317). -/
def execLpddr5Read (src tag : Nat) (s : State) : Host.Outcome State Fault Refusal :=
  .next (s.performHere src tag false (fun p => decide (60 ≤ p)) [])

/-! Responses (R339, R346) -/

/-- The address of the first byte that a write request writes. -/
def Txn.storeAddr (t : Txn) : Nat :=
  let be := ((t.data.head?).map Prod.snd).getD 0
  t.addr + (((List.range 8).find? fun i => be.getLsbD i).getD 0)

/-- The coprocessor response that the Dispatcher waits for (R246). -/
def State.coprocArrived (s : State) (r : Resp) (result : Word) (flags : Option (BitVec 4)) : State :=
  match s.disp.wait with
  | .coproc _ =>
    let s1 := s.waitFor .none
    if r = .ok then
      let s2 := match flags with
        | some f => s1.setFlags { z := f.getLsbD 0, c := f.getLsbD 1, n := f.getLsbD 2, v := f.getLsbD 3 }
        | none => s1
      s2.endInstr 4 { noLate with acc := some result }
    else s1.trapHere 0x0C s1.here.toNat 0 r
  | _ => s

/-- The response `r` reaches the initiator of request `t`. The fabric discards it unless it runs (R591). -/
def State.respond (s : State) (t : Txn) (r : Resp) (data : List Byte) : State :=
  if t.src = dispPort then
    if t.cp then s.coprocArrived r (BitVec.ofNat 32 (leNat data)) none
    else if t.write then s.storeArrived t.storeAddr r
    else s.loadArrived t.addr r data
  else if 16 ≤ t.src ∧ t.src < 20 then s.pipeResponse (t.src - 16) t.tag r data
  else if 32 ≤ t.src ∧ t.src < 38 then s.camResponse (t.src - 32) t.tag r
  else if t.src = 52 ∧ s.fabState ≠ 4 then s
  else s.emit (.response t.src t.tag r (if r = .ok then data else []))

/-- A late response is discarded (R346). -/
def State.lateResponse (s : State) (src tag : Nat) : State :=
  ((s.updTxn src tag fun _ => none).satInc Reg.JT_LATE_CNT 31 0).fire 85

/-- The response of request `t`, where there is one: `ext` is that of the host behind the host window. -/
def Txn.response (t : Txn) (ext : Resp) (data : List Byte) : Option (Resp × List Byte) :=
  match t.stage with
  | .answered r d => some (r, d)
  | .delivered 48 => some (ext, (data ++ List.replicate t.len 0).take t.len)
  | _ => none

/-- RDRSP: an uncorrectable data flit makes it POISON (R352). -/
def State.readReturns (s : State) (src tag : Nat) (ext : Resp) (data : List Byte) (poison : Bool) (ce : Nat) : State :=
  match s.txn src tag with
  | none => s
  | some t =>
    if t.write ∨ t.cp then s
    else if t.late then (s.linkCe ce).lateResponse src tag
    else match t.response ext data with
      | none => s
      | some (r, d) =>
        let s1 := (s.linkCe ce).updTxn src tag fun _ => none
        if poison ∧ r = .ok then ((s1.jtError 1 src t.init tag 0).fire 81).respond t .poison (s.freeBytes t.len) |>.useFree
        else s1.respond t r d

/-- RDRSP. -/
def execRdrsp (src tag : Nat) (ext : Resp) (data : List Byte) (poison : Bool) (ce : Nat) (s : State) :
    Host.Outcome State Fault Refusal := .next (s.readReturns src tag ext data poison ce)

/-- WRRSP. -/
def State.writeReturns (s : State) (src tag : Nat) (ext : Resp) (ce : Nat) : State :=
  match s.txn src tag with
  | none => s
  | some t =>
    if !t.write then s
    else if t.late then (s.linkCe ce).lateResponse src tag
    else match t.response ext [] with
      | none => s
      | some (r, _) => ((s.linkCe ce).updTxn src tag fun _ => none).respond t r []

/-- WRRSP. -/
def execWrrsp (src tag : Nat) (ext : Resp) (ce : Nat) (s : State) : Host.Outcome State Fault Refusal :=
  .next (s.writeReturns src tag ext ce)

/-- The Dispatcher's coprocessor request. -/
def State.coprocTxn (s : State) : Option Txn := s.jt.txns.find? fun t => t.src == dispPort && t.cp

/-- The response packet of the coprocessor request: the status of the root or of the leaf where they answered, else the
design's `r` with its result and flags. -/
def State.coprocReturns (s : State) (r : Resp) (result : Word) (flags : Option (BitVec 4)) : State :=
  match s.coprocTxn with
  | none => s
  | some t =>
    let s1 := s.updTxn t.src t.tag fun _ => none
    match t.stage with
    | .quarantined _ => s.lateResponse t.src t.tag
    | .answered e _ => s1.coprocArrived e result flags
    | .delivered _ => s1.coprocArrived r result flags
    | _ => s

/-- CPRSP (R246, R337). -/
def execCprsp (r : Resp) (result : Word) (flags : Option (BitVec 4)) (s : State) : Host.Outcome State Fault Refusal :=
  .next (s.coprocReturns r result flags)

/-- COPROC_RESPONSE (R246): the whole of the request that the Dispatcher waits for. -/
def execCoprocResponse (r : Resp) (result : Word) (flags : Option (BitVec 4)) (s : State) : Host.Outcome State Fault Refusal :=
  .next (match s.coprocTxn with
    | none => s
    | some t => (s.depart t.src t.tag).coprocReturns r result flags)

/-! Timeouts (R346) -/

/-- The timer of request `src`, `tag` expires: TIMEOUT for the initiator, quarantine for the tag. -/
def State.reqTimeout (s : State) (src tag : Nat) : State :=
  match s.txn src tag with
  | none => s
  | some t =>
    if !t.sent then s
    else
      let s1 := (((s.satInc Reg.JT_TMO_CNT 31 0).jtError 2 t.dst t.init tag t.addr).fire 82).updTxn src tag fun t =>
        match t.stage with
        | .lost true => none
        | _ => some { t with stage := .quarantined t.waits }
      (s1.respond t .timeout (s.freeBytes t.len)).useFree

/-- REQ_TIMEOUT. -/
def execReqTimeout (src tag : Nat) (s : State) : Host.Outcome State Fault Refusal := .next (s.reqTimeout src tag)

/-! A whole access, and LOAD_RESPONSE (R230) -/

/-- The Dispatcher's load or fill under way. -/
def State.loadTxn (s : State) : Option Txn :=
  s.jt.txns.find? fun t => t.src == dispPort && !t.write && !t.cp && t.open'

/-- LOAD_RESPONSE: the load that the Dispatcher waits for goes all its way; `extResp` and `ext` are what the host window gives.
With no load under way it is the response to the instruction fetch, whose error is the FETCH trap (R208, R230). -/
def State.loadReturns (s : State) (extResp : Resp) (ext : Word64) : State :=
  match s.loadTxn with
  | some t => ((s.depart t.src t.tag).performTxn t.src t.tag [] []).readReturns t.src t.tag extResp (natLe 8 ext.toNat) false 0
  | none => if s.canIssue ∧ extResp ≠ .ok then s.trapHere 1 s.here.toNat 0 extResp else s

/-- LOAD_RESPONSE. -/
def execLoadResponse (extResp : Resp) (ext : Word64) (s : State) : Host.Outcome State Fault Refusal :=
  .next (s.loadReturns extResp ext)

/-- A read of initiator `ini` at port `src` from leaving its interface to its response, at any target but the host window. -/
def State.accessRead (s : State) (src ini addr len : Nat) : State × Resp × List Byte :=
  let r := s.route s.ddrUsable src ini 0 addr len false
  match r.2 with
  | .inr e => (r.1, e, [])
  | .inl 48 => (r.1.useFree, .ok, s.freeBytes len)
  | .inl p => r.1.readAt p addr len

/-- A write likewise. -/
def State.accessWrite (s : State) (src ini addr : Nat) (met : List Nat) (rivals : List (Nat × Nat × Word))
    (d : Word64 × BitVec 8) : State × Resp :=
  let r := s.route s.ddrUsable src ini 0 addr 8 true
  match r.2 with
  | .inr e => (r.1, e)
  | .inl 48 => (r.1, .ok)
  | .inl p => r.1.writeAt p ini addr met rivals d

end Sys2Proof.Machine
end

