-- ==== Sys2Proof/Machine/HostAccess.lean ====
section
/-! DEFINITION. The accesses that the Ticket office takes from outside (R34 to R38, R449 to R457, R471): host requests to BAR0
and BAR2, and the safety port. -/

namespace Sys2Proof.Machine

/-! Registers by BAR0 offset (R34, R449) -/

/-- The offset lies outside every block (R34). -/
def outsideBlocks (a : Nat) : Bool := decide (0xA000 ≤ a ∧ a < 0xF000)

/-- The access to offset `a` travels through the Junction tree. -/
def throughTree (a : Nat) : Bool := !inCycle a && !outsideBlocks a

/-- No response in time (R346): the record and source 82. -/
def State.accessTimeout (s : State) (ini addr : Nat) : State :=
  (((s.satInc Reg.JT_TMO_CNT 31 0).jtError 2 ((portOf s.ddrUsable addr).getD 0) ini 0 addr).fire 82).useFree

/-- The outcome of an access that has timed out: it may or may not have been performed (R346). -/
def State.maybe (s t : State) (ini addr : Nat) : State := (if Config.freeBool s.free 0 then t else s).accessTimeout ini addr

/-- A write through port 49 by `ini`. -/
def State.treeWrite (s : State) (ini a : Nat) (v : Word) (rivals : List (Nat × Nat × Word)) (late : Bool) : State × Resp :=
  let addr := 0x2000000 + a
  let r := s.accessWrite 49 ini (addr / 8 * 8) [] rivals ((storeWord a 4 (v.setWidth 64)).headD (0, 0))
  if late then (s.maybe r.1 ini addr, .timeout) else r

/-- A read through port 49 by `ini`. -/
def State.treeRead (s : State) (ini a : Nat) (late : Bool) : State × Resp × Word :=
  let addr := 0x2000000 + a
  let r := s.accessRead 49 ini addr 4
  if late then (s.maybe r.1 ini addr, .timeout, 0) else (r.1, r.2.1, BitVec.ofNat 32 (leNat r.2.2))

/-- A write to BAR0 offset `a`. -/
def State.barWrite (s : State) (ini a : Nat) (v : Word) (rivals : List (Nat × Nat × Word)) (late : Bool) : State × Resp :=
  if inCycle a then s.cycleWrite ini a v rivals
  else if outsideBlocks a then (s, .ok)
  else s.treeWrite ini a v rivals late

/-- A read of BAR0 offset `a`. -/
def State.barRead (s : State) (ini a : Nat) (late : Bool) : State × Resp × Word :=
  if inCycle a then let r := s.regRead a; (r.1, .ok, r.2)
  else if outsideBlocks a then (s, .ok, 0)
  else s.treeRead ini a late

/-! Host requests (R36 to R38, R450) -/

/-- The memory BARs can be reached (R471). -/
def State.barLive (s : State) : Bool := s.bit Reg.TO_STAT 1 && s.pcie.memEnable

/-- What becomes of the response to a written doubleword. -/
def State.writeResult (s : State) (r : Resp) (a : Nat) : State :=
  match r with
  | .ok => s
  | .denied => s.toError 1 r 5 a
  | .collided => s.toError 2 r 5 a
  | _ => s.toError 5 r 5 a

/-- The doublewords of a BAR0 write from number `i` on, in ascending order. -/
def State.bar0Writes (s : State) (off : Nat) (rivals : List (Nat × Nat × Word)) (tmo : List Nat) :
    Nat → List (Word × BitVec 4) → State
  | _, [] => s
  | i, (v, be) :: t =>
    let a := off + 4 * i
    let s1 :=
      if be = 0 then s
      else if be ≠ 15 then s.toError 0 .ok 5 a
      else let r := s.barWrite 5 a v rivals (tmo.contains i); r.1.writeResult r.2 a
    s1.bar0Writes off rivals tmo (i + 1) t

/-- The doublewords of a BAR0 read: the bytes, and the first that failed. -/
def State.bar0Reads (s : State) (off : Nat) (tmo : List Nat) : Nat → List (Word × BitVec 4) → State × List Byte × Option (Resp × Nat)
  | _, [] => (s, [], none)
  | i, _ :: t =>
    let a := off + 4 * i
    let r := s.barRead 5 a (tmo.contains i)
    let q := r.1.bar0Reads off tmo (i + 1) t
    (q.1, natLe 4 r.2.2.toNat ++ q.2.1, if r.2.1 = .ok then q.2.2 else some (r.2.1, a))

/-- A read's completion. -/
def State.complete (s : State) (kind ini : Nat) (bytes : List Byte) (bad : Option (Resp × Nat)) : State :=
  match bad with
  | none => s.emit (.completion true bytes)
  | some (r, a) => (s.toError kind r ini a).emit (.completion false [])

/-- A host request to BAR0 at offset `off`, a multiple of 4. Accesses that wait at a fenced port 49 wait whole. -/
def State.hostBar0 (s : State) (kind : BarKind) (off : Nat) (dws : List (Word × BitVec 4)) (rivals : List (Nat × Nat × Word))
    (tmo : List Nat) : State :=
  let off := off % 0x10000 / 4 * 4
  let dws := dws.take ((0x10000 - off) / 4)
  if !s.barLive then (if kind = .write then s else s.emit .unsupported)
  else if s.fence 49 ≠ 0 ∧ (List.range dws.length).any fun i => throughTree (off + 4 * i) then s
  else match kind with
    | .atomic => s.emit .unsupported
    | .write => s.bar0Writes off rivals tmo 0 dws
    | .read => let r := s.bar0Reads off tmo 0 dws; r.1.complete 4 5 r.2.1 r.2.2

/-- HOST_BAR0_REQUEST (R450). -/
def execHostBar0Request (kind : BarKind) (off : Nat) (dws : List (Word × BitVec 4)) (rivals : List (Nat × Nat × Word))
    (tmo : List Nat) (s : State) : Host.Outcome State Fault Refusal := .next (s.hostBar0 kind off dws rivals tmo)

/-- The Dispatcher address behind BAR2 offset `h` (R36). -/
def State.bar2Addr (s : State) (h : Nat) : Nat := s.fld Reg.BAR2_BANK 22 0 * 2 ^ 28 + h

/-- OP of a failed write through BAR2: 2 for a collision on a register window, else 3. -/
def bar2Op (e : Resp) (addr : Nat) : Nat := if e = .collided then (if addr < 2 ^ 25 then 3 else 2) else 3

/-- The answer `e` to a write of the word at offset `off` through BAR2, reported when it is not OK. -/
def State.bar2Report (s : State) (e : Resp) (addr off : Nat) : State :=
  if e = .ok then s else s.toError (bar2Op e addr) e 4 off

/-- A write through BAR2 to address `addr`, in time or late. -/
def State.bar2Try (s : State) (addr : Nat) (met : List Nat) (rivals : List (Nat × Nat × Word)) (late : Bool)
    (d : Word64 × BitVec 8) : State × Resp :=
  let r := s.accessWrite 48 4 addr met rivals d
  if late then (s.maybe r.1 4 addr, .timeout) else r

/-- Word `i` of a write through BAR2 that starts at word `w` of the window, and the report of its failure. -/
def State.bar2Write (s : State) (w : Nat) (met : List Nat) (rivals : List (Nat × Nat × Word)) (tmo : List Nat) (i : Nat)
    (d : Word64 × BitVec 8) : State :=
  let off := 8 * (w + i)
  let q := s.bar2Try (s.bar2Addr off) met rivals (tmo.contains i) d
  if d.2 = 0 then s else q.1.bar2Report q.2 (s.bar2Addr off) off

/-- The words of a BAR2 write from word `w` of the BAR on. -/
def State.bar2Writes (s : State) (w : Nat) (met : List Nat) (rivals : List (Nat × Nat × Word)) (tmo : List Nat) :
    Nat → List (Word64 × BitVec 8) → State
  | _, [] => s
  | i, d :: t =>
    (s.bar2Write w met rivals tmo i d).bar2Writes w met rivals tmo (i + 1) t

/-- The words of a BAR2 read of `len` bytes at offset `h`, each for the bytes asked of it. `n` bounds the words. -/
def State.bar2Reads (s : State) (tmo : List Nat) : Nat → Nat → Nat → Nat → State × List Byte × Option (Resp × Nat)
  | 0, _, _, _ => (s, [], none)
  | n + 1, i, h, len =>
    if len = 0 then (s, [], none)
    else
      let k := min len (8 - h % 8)
      let r := s.accessRead 48 4 (s.bar2Addr h) k
      let late := tmo.contains i
      let s1 := if late then s.maybe r.1 4 (s.bar2Addr h) else r.1
      let e := if late then Resp.timeout else r.2.1
      let q := s1.bar2Reads tmo n (i + 1) (h + k) (len - k)
      (q.1, r.2.2 ++ q.2.1, if e = .ok then q.2.2 else some (e, h / 8 * 8))

/-- A host request to BAR2. -/
def State.hostBar2 (s : State) (kind : BarKind) (off len : Nat) (data : List (Word64 × BitVec 8)) (met : List Nat)
    (rivals : List (Nat × Nat × Word)) (tmo : List Nat) : State :=
  let off := off % 2 ^ 28
  if !s.barLive then (if kind = .write then s else s.emit .unsupported)
  else match kind with
    | .atomic => s.emit .unsupported
    | .write => if s.fence 48 ≠ 0 then s else s.bar2Writes (off / 8) met rivals tmo 0 (data.take ((2 ^ 28 - off / 8 * 8) / 8))
    | .read =>
      if s.fence 48 ≠ 0 then s
      else
        let len := min len (2 ^ 28 - off)
        let r := s.bar2Reads tmo (len / 8 + 2) 0 off len
        r.1.complete 3 4 r.2.1 r.2.2

/-- HOST_BAR2_REQUEST (R38). -/
def execHostBar2Request (kind : BarKind) (off len : Nat) (data : List (Word64 × BitVec 8)) (met : List Nat)
    (rivals : List (Nat × Nat × Word)) (tmo : List Nat) (s : State) : Host.Outcome State Fault Refusal :=
  .next (s.hostBar2 kind off len data met rivals tmo)

/-! The safety port (R452 to R457) -/

/-- One bit of CRC-16/CCITT-FALSE. -/
def crc16Bit (c : Nat) : Nat := if 0x8000 ≤ c then (2 * c) % 65536 ^^^ 0x1021 else 2 * c

/-- CRC-16/CCITT-FALSE of bytes in the order sent (R454). -/
def crc16 (l : List Byte) : Nat :=
  l.foldl (fun c b => (List.range 8).foldl (fun c _ => crc16Bit c) (c ^^^ (b.toNat * 256))) 0xFFFF

/-- The `n` lowest bytes of a number, most significant first. -/
def natBe (n v : Nat) : List Byte := (natLe n v).reverse

/-- An event of SP_STAT (R455). -/
def State.spEvent (s : State) (b : Nat) : State := ((s.setBit Reg.SP_STAT b true).satInc Reg.SP_ERR_CNT 31 0).fire 14

/-- An access of the safety port is counted in TCNT. -/
def State.spCount (s : State) : State := { s with tkt := { s.tkt with tcnt := (s.tkt.tcnt + 1) % 256 } }

/-- The S frame after D frame `d` (R454). `flags` are bits 28 to 25. -/
def State.spFrame (s : State) (d : Word) (r : Resp) (flags : Nat) : Word :=
  let top := respCode r * 2 ^ 13 + flags * 2 ^ 9 + s.tkt.tcnt
  BitVec.ofNat 32 (top * 65536 + crc16 (natBe 4 d.toNat ++ natBe 2 top))

/-- SP_LATE is occupied (R457). -/
def State.spOccupied (s : State) : Bool := s.bit Reg.SP_LATE_STAT 31 || s.bit Reg.SP_LATE_STAT 30

/-- An access outside the in-cycle set is issued to the tree, or held: the state and bits 26 and 25 of S. -/
def State.spLate (s : State) (wr : Bool) (a : Nat) (v : Word) : State × Nat :=
  if s.spOccupied then (s, 1)
  else
    let s1 := (((s.setBit Reg.SP_LATE_STAT 31 true).setBit Reg.SP_LATE_STAT 29 wr).setFld Reg.SP_LATE_STAT 13 0 (a / 4)).spCount
    ({ s1 with tkt := { s1.tkt with late := some (wr, a, v) } }, 2)

/-- The header passes its check (R455). -/
def spHeaderOk (h : Word) : Bool := crc16 (natBe 2 (h.toNat / 65536)) == h.toNat % 65536

/-- The BAR0 offset that a header names. -/
def spHeaderAddr (h : Word) : Nat := 4 * bitsOf h 29 16

/-- The select line rises after `cut` bits, before bit `n`. -/
def cutBefore (cut : Option Nat) (n : Nat) : Bool := match cut with | some c => decide (c < n) | none => false

/-- The frames that the port drives, those of them that were driven whole; an early rise is an event (R455). -/
def State.spAnswer (s : State) (cut : Option Nat) (dEnd sEnd : Nat) (d : Option Word) (f : Word) : State :=
  let s1 := if cutBefore cut sEnd then s.spEvent 3 else s
  s1.emit (.miso (if cutBefore cut dEnd then none else d) (if cutBefore cut sEnd then none else some f))

/-- A transaction of the read layout: a read, or no access at all (R453, R455, R456). -/
def State.spReadTr (s : State) (h : Word) (cut : Option Nat) : State :=
  if cutBefore cut 34 then s.spAnswer cut 66 98 none 0
  else if !spHeaderOk h then
    let s1 := s.spEvent 1
    s1.spAnswer cut 66 98 (some 0) (s1.spFrame 0 .slverr 8)
  else if bitsOf h 31 30 ≠ 1 then
    let s1 := s.spEvent 0
    s1.spAnswer cut 66 98 (some 0) (s1.spFrame 0 .decerr 0)
  else if throughTree (spHeaderAddr h) then
    let r := s.spLate false (spHeaderAddr h) 0
    r.1.spAnswer cut 66 98 (some 0) (r.1.spFrame 0 .ok r.2)
  else
    let r := s.barRead 6 (spHeaderAddr h) false
    let s1 := r.1.spCount
    s1.spAnswer cut 66 98 (some r.2.2) (s1.spFrame r.2.2 r.2.1 0)

/-- A transaction of the write layout. -/
def State.spWriteTr (s : State) (h d c : Word) (cut : Option Nat) (rivals : List (Nat × Nat × Word)) : State :=
  let bad := !spHeaderOk h
  let s0 := if bad && !cutBefore cut 34 then s.spEvent 1 else s
  if cutBefore cut 96 then s0.spAnswer cut 0 130 none 0
  else if bad then s0.spAnswer cut 0 130 none (s0.spFrame d .slverr 8)
  else if crc16 (natBe 4 d.toNat) ≠ bitsOf c 31 16 then
    let s1 := s0.spEvent 2
    s1.spAnswer cut 0 130 none (s1.spFrame d .slverr 4)
  else if throughTree (spHeaderAddr h) then
    let r := s0.spLate true (spHeaderAddr h) d
    r.1.spAnswer cut 0 130 none (r.1.spFrame d .ok r.2)
  else
    let r := s0.barWrite 6 (spHeaderAddr h) d rivals false
    let s1 := r.1.spCount
    s1.spAnswer cut 0 130 none (s1.spFrame d r.2 0)

/-- The port is live (R471). -/
def State.spLive (s : State) : Bool := s.bit Reg.TO_STAT 2

/-- SAFETY_PORT_READ: a transaction whose header has CMD = 0b01. -/
def execSafetyPortRead (h : Word) (cut : Option Nat) (s : State) : Host.Outcome State Fault Refusal :=
  .next (if s.spLive && bitsOf h 31 30 == 1 then s.spReadTr h cut else s)

/-- SAFETY_PORT_WRITE: a transaction whose header has CMD = 0b10. -/
def execSafetyPortWrite (h d c : Word) (cut : Option Nat) (rivals : List (Nat × Nat × Word)) (s : State) :
    Host.Outcome State Fault Refusal :=
  .next (if s.spLive && bitsOf h 31 30 == 2 then s.spWriteTr h d c cut rivals else s)

/-- SAFETY_PORT_NO_ACCESS: a transaction whose header has CMD = 0b00 or 0b11. -/
def execSafetyPortNoAccess (h : Word) (cut : Option Nat) (s : State) : Host.Outcome State Fault Refusal :=
  .next (if s.spLive && (bitsOf h 31 30 == 0 || bitsOf h 31 30 == 3) then s.spReadTr h cut else s)

/-- The response to the access in SP_LATE arrives, or is TIMEOUT (R457). A data word that did not come is a free value. -/
def State.spLateDone (s : State) (timeout : Bool) (rivals : List (Nat × Nat × Word)) : State :=
  match s.tkt.late with
  | none => s
  | some (wr, a, v) =>
    if s.fence 49 ≠ 0 then s
    else
      let w := s.treeWrite 6 a v rivals timeout
      let g := s.treeRead 6 a timeout
      let s1 := if wr then w.1 else g.1
      let e := if wr then w.2 else g.2.1
      let d := if wr then v else if e = .ok then g.2.2 else Config.freeWord s1.free 0
      let s2 := { s1 with tkt := { s1.tkt with late := none } }
      (((s2.setFld Reg.SP_LATE_STAT 31 30 1).setFld Reg.SP_LATE_STAT 18 16 (respCode e)).setReg Reg.SP_LATE_DATA d).useFree

/-- SP_LATE_DONE. -/
def execSpLateDone (timeout : Bool) (rivals : List (Nat × Nat × Word)) (s : State) : Host.Outcome State Fault Refusal :=
  .next (s.spLateDone timeout rivals)

end Sys2Proof.Machine
end

