-- ==== Sys2Proof/Machine/Issue.lean ====
section
/-! DEFINITION. How the Dispatcher issues array instructions (R104 to R108, R146 to R151), FXFER and FSYNC, and takes
interrupts (R225). -/

namespace Sys2Proof.Machine

/-- Perform an array instruction whose checks have passed, uninterrupted. -/
def State.arrayRun (s : State) (opc : Nat) (o : AOp) : State :=
  let acc := s.disp.acc
  match opc with
  | 0x2A =>
    let s1 := s.latchEdges
    (if o.sub = 0xF then s1.abandon else s1.install (s1.maskResults o)).endArray
  | 0x2B => (s.latchEdges.fbit o acc).endArray
  | 0x2C => if s.trv.held.length ≥ 4 then s.waitFor .fxfer else s.trvHold.endInstr 8 noLate
  | 0x2D => if s.trvHolds o.aux then s.waitFor (.fsync o.aux) else s.endInstr 8 noLate
  | _ => let s1 := s.latchEdges; (s1.install (s1.fieldResults opc o acc)).endArray

/-- What comes before an array instruction's first bit-step: nothing stops it, its condition fails, or a trap. -/
def State.arrayGate (s : State) (opc : Nat) (o : AOp) : Option State :=
  if opc = 0x2E ∨ opc = 0x2F ∨ !s.decValid (4 * opc + o.form) then some (s.trapHere 2 s.here.toNat 0 .ok)
  else if !s.cond o.cond then some (s.endInstr 8 noLate)
  else match s.arrayTrap opc o s.disp.acc s.firmware with
    | some cause => some (s.trapHere cause s.here.toNat 0 .ok)
    | none => none

/-- Issue an array instruction. -/
def State.arrayIssue (s : State) (opc : Nat) (o : AOp) : State :=
  if !s.canIssue then s
  else
    let s1 := s.begin.discardPair
    (s1.arrayGate opc o).getD (s1.arrayRun opc o)

/-! Meanings of the array instructions -/

/-- FLOG (R115). -/
def execFlog (o : AOp) (s : State) : Host.Outcome State Fault Refusal := .next (s.arrayIssue 0x20 o)
/-- FADD (R116, R117). -/
def execFadd (o : AOp) (s : State) : Host.Outcome State Fault Refusal := .next (s.arrayIssue 0x21 o)
/-- FSUB (R116, R117). -/
def execFsub (o : AOp) (s : State) : Host.Outcome State Fault Refusal := .next (s.arrayIssue 0x22 o)
/-- FCMP (R118). -/
def execFcmp (o : AOp) (s : State) : Host.Outcome State Fault Refusal := .next (s.arrayIssue 0x23 o)
/-- FMUL (R121). -/
def execFmul (o : AOp) (s : State) : Host.Outcome State Fault Refusal := .next (s.arrayIssue 0x24 o)
/-- FMINMAX (R119). -/
def execFminmax (o : AOp) (s : State) : Host.Outcome State Fault Refusal := .next (s.arrayIssue 0x25 o)
/-- FSHN (R122). -/
def execFshn (o : AOp) (s : State) : Host.Outcome State Fault Refusal := .next (s.arrayIssue 0x26 o)
/-- FLUT (R123). -/
def execFlut (o : AOp) (s : State) : Host.Outcome State Fault Refusal := .next (s.arrayIssue 0x27 o)
/-- FPOP (R124). -/
def execFpop (o : AOp) (s : State) : Host.Outcome State Fault Refusal := .next (s.arrayIssue 0x28 o)
/-- FSEL (R120). -/
def execFsel (o : AOp) (s : State) : Host.Outcome State Fault Refusal := .next (s.arrayIssue 0x29 o)
/-- FMASK 0x0 (R125). -/
def execFmaskMFromF (o : AOp) (s : State) : Host.Outcome State Fault Refusal := .next (s.arrayIssue 0x2A { o with sub := 0x0 })
/-- FMASK 0x1. -/
def execFmaskMAndF (o : AOp) (s : State) : Host.Outcome State Fault Refusal := .next (s.arrayIssue 0x2A { o with sub := 0x1 })
/-- FMASK 0x2. -/
def execFmaskMOrF (o : AOp) (s : State) : Host.Outcome State Fault Refusal := .next (s.arrayIssue 0x2A { o with sub := 0x2 })
/-- FMASK 0x3. -/
def execFmaskMFromBit (o : AOp) (s : State) : Host.Outcome State Fault Refusal := .next (s.arrayIssue 0x2A { o with sub := 0x3 })
/-- FMASK 0x4. -/
def execFmaskMAndBit (o : AOp) (s : State) : Host.Outcome State Fault Refusal := .next (s.arrayIssue 0x2A { o with sub := 0x4 })
/-- FMASK 0x5. -/
def execFmaskMSet (o : AOp) (s : State) : Host.Outcome State Fault Refusal := .next (s.arrayIssue 0x2A { o with sub := 0x5 })
/-- FMASK 0x6. -/
def execFmaskMFromValid (o : AOp) (s : State) : Host.Outcome State Fault Refusal := .next (s.arrayIssue 0x2A { o with sub := 0x6 })
/-- FMASK 0x7. -/
def execFmaskFFromBit (o : AOp) (s : State) : Host.Outcome State Fault Refusal := .next (s.arrayIssue 0x2A { o with sub := 0x7 })
/-- FMASK 0x8. -/
def execFmaskFClear (o : AOp) (s : State) : Host.Outcome State Fault Refusal := .next (s.arrayIssue 0x2A { o with sub := 0x8 })
/-- FMASK 0x9. -/
def execFmaskFInvert (o : AOp) (s : State) : Host.Outcome State Fault Refusal := .next (s.arrayIssue 0x2A { o with sub := 0x9 })
/-- FMASK 0xA. -/
def execFmaskBitFromF (o : AOp) (s : State) : Host.Outcome State Fault Refusal := .next (s.arrayIssue 0x2A { o with sub := 0xA })
/-- FMASK 0xB. -/
def execFmaskCClear (o : AOp) (s : State) : Host.Outcome State Fault Refusal := .next (s.arrayIssue 0x2A { o with sub := 0xB })
/-- FMASK 0xC. -/
def execFmaskCSet (o : AOp) (s : State) : Host.Outcome State Fault Refusal := .next (s.arrayIssue 0x2A { o with sub := 0xC })
/-- FMASK 0xF, ABANDON (R152). -/
def execAbandon (o : AOp) (s : State) : Host.Outcome State Fault Refusal := .next (s.arrayIssue 0x2A { o with sub := 0xF })
/-- FBIT (R126). -/
def execFbit (o : AOp) (s : State) : Host.Outcome State Fault Refusal := .next (s.arrayIssue 0x2B o)
/-- FXFER (R128, R129). -/
def execFxfer (o : AOp) (s : State) : Host.Outcome State Fault Refusal := .next (s.arrayIssue 0x2C o)
/-- FSYNC (R139). -/
def execFsync (o : AOp) (s : State) : Host.Outcome State Fault Refusal := .next (s.arrayIssue 0x2D o)

/-- BIT_STEP (R55, R62): one bit-step of FBIT, ROM or customer microcode. At Application privilege a descriptor that names a
reserved address is not executed, and the Dispatcher takes the privilege trap. -/
def execBitStep (d : Word64) (firmware : Bool) (s : State) : Host.Outcome State Fault Refusal :=
  .next (if !firmware && (descOf d).reserved then s.trapHere 3 s.here.toNat 0 .ok else s.bitStep (descOf d))

/-! Interrupts (R225) -/

/-- The Dispatcher may take an interrupt: IE = 1, a request is presented, fewer than 15 return-stack entries are in use. -/
def State.mayInterrupt (s : State) : Bool :=
  !s.disp.halted && s.psw 8 && s.icRequest && decide (s.disp.rs.length < 15) && s.disp.micro.isNone

/-- Apply every pending PROW_MAPn value (R48, R147). -/
def State.applyPendingMaps (s : State) : State :=
  (List.range 8).foldl (fun s n =>
    if s.bit (rowMap n) 8 then s.applyMap n (s.fld (rowMap n) 7 0) else s) s

/-- Enter an interrupt with a suspended instruction at PC: SPSW takes ASUSP = 1 and ASTEP (R148, R223). -/
def State.interruptSuspended (s : State) (k : Nat) : State :=
  let psw := putBits (putBits s.disp.psw 10 10 1) 28 16 k
  ({ s with disp := { s.disp with psw := psw } }).interrupt s.here

/-- The array instruction has safe points, and one falls after `8 * k` of its bit-steps before its end (R146, R151). -/
def safePointOf (opc : Nat) (o : AOp) (k : Nat) : Bool :=
  decide (0 < k) && decide (8 * k < baseSteps opc o) && decide (0x20 ≤ opc) && decide (opc ≤ 0x2B) && opc != 0x2A

/-- An interrupt at a safe point of array instruction `opc` (R146, R147): pending map changes apply, then the instruction is
suspended and the interrupt is entered. Where the instruction has no such safe point it runs to its end, and the interrupt
is taken there. -/
def State.interruptArray (s : State) (opc : Nat) (o : AOp) (k : Nat) : State :=
  if !(s.mayInterrupt && s.canIssue) then s
  else
    let s1 := s.begin.discardPair
    match s1.arrayGate opc o with
    | some s2 => if s2.mayInterrupt && s2.atBoundary then s2.interrupt s2.here else s2
    | none =>
      if safePointOf opc o k && !s1.arr.suspended then
        let s2 := s1.latchEdges
        let s3 := if opc = 0x2B then s2.suspendFbit o s2.disp.acc k else s2.suspendArray opc o s2.disp.acc k
        s3.applyPendingMaps.interruptSuspended k
      else
        let s2 := s1.arrayRun opc o
        if s2.mayInterrupt && s2.atBoundary then s2.interrupt s2.here else s2

/-- An interrupt at a later safe point of the suspended instruction, which the RETI now executing resumes (R146, R149). -/
def State.interruptResumed (s : State) (k : Nat) : State :=
  match s.arr.susp, s.disp.rs with
  | some p, a :: t =>
    if s.canIssue && s.firmware && s.disp.spsw.getLsbD 10 && s.arr.suspended && decide (p.astep < k) &&
        decide (8 * k < baseSteps p.opc p.o) && s.disp.spsw.getLsbD 8 && s.icRequest && decide (t.length < 15) then
      let s1 := s.begin.discardPair.flushLate
      let psw := putBits (putBits (restorePsw s1.disp.psw s1.disp.spsw) 10 10 0) 28 16 0
      let s2 := { s1 with disp := { s1.disp with rs := t, psw := psw, pbnk := a.extractLsb' 16 36, pc := a.extractLsb' 0 16 } }
      (s2.resuspend s2.disp.acc k).applyPendingMaps.interruptSuspended k
    else s
  | _, _ => s

/-- INTERRUPT_ENTRY (R225): the Dispatcher takes a presented interrupt at the point given; where R225 does not let it take
one there, nothing happens. -/
def State.takeInterrupt (s : State) (pt : IntPoint) : State :=
  match pt with
  | .boundary => if s.mayInterrupt && s.atBoundary then s.interrupt s.here else s
  | .wait =>
    if s.mayInterrupt then
      match s.disp.wait with
      | .fxfer => (s.waitFor .none).interrupt s.here
      | .fsync _ => (s.waitFor .none).interrupt s.here
      | .wfi => (s.waitFor .none).interrupt (s.after 4)
      | _ => s
    else s
  | .safePoint opc o k => s.interruptArray opc o k
  | .resumed k => s.interruptResumed k

/-- INTERRUPT_ENTRY. -/
def execInterruptEntry (pt : IntPoint) (s : State) : Host.Outcome State Fault Refusal := .next (s.takeInterrupt pt)

end Sys2Proof.Machine
end

