-- ==== Sys2Proof/Machine/TraverserMove.lean ====
section
/-! DEFINITION. What a transfer of the Traverser moves (R130 to R138, R143), and the undefined opcode (R210). -/

namespace Sys2Proof.Machine

/-! Where pixels lie (R131, R132) -/

/-- The coordinate of the image that a coordinate stands for; none where the fill is 0. -/
def mapCoord (hmode size : Nat) (u : Int) : Option Nat :=
  let clamp := fun v : Int => if v < 0 then 0 else if (size : Int) ≤ v then size - 1 else v.toNat
  if 0 ≤ u ∧ u < size then some u.toNat
  else match hmode with
    | 0 => none
    | 1 => some (clamp u)
    | _ => some (clamp (if u < 0 then -u - 1 else 2 * size - u - 1))

/-- The pixel of the image, as fill coordinates, that PE (`x`, `y`) holds; none where it corresponds to no pixel. -/
def Xfer.pixel (t : Xfer) (x y : Nat) : Option (Int × Int) :=
  if t.packed then
    let i := 512 * y + x
    if i < t.rectW * t.rectH then some ((t.rectX + i % t.rectW : Nat), (t.rectY + i / t.rectW : Nat)) else none
  else if x < t.rectW + 2 * t.halo ∧ y < t.rectH + 2 * t.halo then
    some ((t.rectX : Int) - t.halo + x, (t.rectY : Int) - t.halo + y)
  else none

/-- PE (`x`, `y`) belongs to the rectangle (R133). -/
def Xfer.inRect (t : Xfer) (x y : Nat) : Bool :=
  if t.packed then decide (512 * y + x < t.rectW * t.rectH)
  else decide (t.halo ≤ x ∧ x < t.halo + t.rectW ∧ t.halo ≤ y ∧ y < t.halo + t.rectH)

/-- The PE of pixel (`i`, `l`) of the rectangle (R132, R134). -/
def Xfer.pe (t : Xfer) (i l : Nat) : Nat × Nat :=
  if t.packed then ((l * t.rectW + i) % 512, (l * t.rectW + i) / 512) else (t.halo + i, t.halo + l)

/-- The least and the greatest of the coordinates of the image that some pixel of the transfer stands for, along one axis. -/
def spanOf (us : List (Option Nat)) : Option (Nat × Nat) :=
  us.foldl (fun acc u => match u, acc with
    | none, a => a
    | some v, none => some (v, v)
    | some v, some (lo, hi) => some (min lo v, max hi v)) none

/-- The span of image columns and of image lines that a load reads. -/
def Xfer.spans (t : Xfer) : Option ((Nat × Nat) × (Nat × Nat)) :=
  let w := if t.packed then t.rectW else t.rectW + 2 * t.halo
  let h := if t.packed then t.rectH else t.rectH + 2 * t.halo
  let xs := (List.range w).map fun (i : Nat) => mapCoord t.hmode t.imgW ((t.rectX : Int) - t.halo + i)
  let ys := (List.range h).map fun (j : Nat) => mapCoord t.hmode t.imgH ((t.rectY : Int) - t.halo + j)
  match spanOf xs, spanOf ys with
  | some a, some b => some (a, b)
  | _, _ => none

/-! Loads (R131 to R133, R136) -/

/-- What the words of a load gave: each word's value where its response was OK, and the first failure with its byte offset
from BASE. -/
structure LoadData where
  words : Array (Option Word64)
  bad : Option (Resp × Nat)

/-- Read the 64-bit words at these addresses (R335: identity 3). -/
def State.readList (s : State) (base : Nat) : List Nat → State × List (Option Word64) × Option (Resp × Nat)
  | [] => (s, [], none)
  | a :: t =>
    let r := s.accessRead 0 3 a 8
    let q := r.1.readList base t
    let v : Option Word64 := if r.2.1 = .ok then some (BitVec.ofNat 64 (leNat r.2.2)) else none
    (q.1, v :: q.2.1, if r.2.1 = .ok then q.2.2 else some (r.2.1, a - base))

/-- The address of word `w` of image line `y`, counted from the aligned word that BASE lies in. -/
def Xfer.wordAddr (t : Xfer) (y w : Nat) : Nat := t.base / 8 * 8 + y * t.stride + 8 * w

/-- The word of a line that image column `x` lies in. -/
def Xfer.wordOf (t : Xfer) (x : Nat) : Nat := (t.base % 8 + x * t.pixBytes) / 8

/-- The value of the image's pixel (`x`, `y`) among words read line by line; 0 where its word failed. -/
def Xfer.value (t : Xfer) (x0 x1 y0 : Nat) (ws : Array (Option Word64)) (x y : Nat) : Nat :=
  let n := t.wordOf x1 - t.wordOf x0 + 1
  let w := ((ws.getD ((y - y0) * n + (t.wordOf x - t.wordOf x0)) none).getD 0).toNat
  w / 2 ^ (8 * ((t.base + x * t.pixBytes) % 8)) % 2 ^ (8 * t.pixBytes)

/-- The values of all PEs in raster order. -/
def Xfer.values (t : Xfer) (x0 x1 y0 : Nat) (ws : Array (Option Word64)) : Array Nat :=
  ((List.range 131072).map fun i =>
    match t.pixel (i % 512) (i / 512) with
    | none => 0
    | some (u, v) =>
      match mapCoord t.hmode t.imgW u, mapCoord t.hmode t.imgH v with
      | some x, some y => t.value x0 x1 y0 ws x y
      | _, _ => 0).toArray

/-- The row words of a plane from the bits of the PEs; a row word that no logical Platform has is 0. -/
def State.rowsFrom (s : State) (f : Nat → Nat → Bool) : Array Lanes :=
  let m := s.arrMap
  ((List.range rowWords).map fun k =>
    match m.logical.getD (k / 32) none with
    | none => (0 : Lanes)
    | some px =>
      let y := k / 32 / 9 * 32 + k % 32
      BitVec.ofNat 66 ((List.range 64).foldl (fun n c => if f (64 * px + c) y then n + 2 ^ c else n) 0)).toArray

/-- Write a plane in every present Platform; rows of Platforms whose map has changed are left undefined (R133, R138). -/
def State.loadPlane (s : State) (t : Xfer) (a : Nat) (rows : Array Lanes) : State :=
  let free := (s.freePlane a).at
  let val := fun k => if t.mapChanged.contains (k / 32 / 9) then free k else rows.getD k 0
  ((s.writePlane a (fun p => (s.logicalOf (p / 9) (p % 9)).isSome) (fun _ => (0#2 ++ BitVec.allOnes 64 : Lanes)) val).1).useFree

/-- The load moves its data: the state, and the first failure. -/
def State.load (s : State) (t : Xfer) : State × Option (Resp × Nat) :=
  let sp := t.spans
  let x0 := (sp.map fun q => q.1.1).getD 0
  let x1 := (sp.map fun q => q.1.2).getD 0
  let y0 := (sp.map fun q => q.2.1).getD 0
  let addrs := match sp with
    | none => []
    | some (_, _, y1) => (List.range (y1 - y0 + 1)).flatMap fun j =>
        (List.range (t.wordOf x1 - t.wordOf x0 + 1)).map fun w => t.wordAddr (y0 + j) (t.wordOf x0 + w)
  let r := s.readList t.base addrs
  let vals := t.values x0 x1 y0 r.2.1.toArray
  let s1 := (List.range (t.nb1 + 1)).foldl (fun (s : State) (b : Nat) =>
    s.loadPlane t (t.plane + b) (s.rowsFrom fun x y => (vals.getD (512 * y + x) 0).testBit (t.first + b))) r.1
  (if t.valid then s1.loadPlane t 1016 (s1.rowsFrom t.inRect) else s1, r.2.2)

/-! Stores (R134, R136) -/

/-- The row word that holds PE (`x`, `y`). -/
def rowWordAt (m : ArrMap) (x y : Nat) : Option Nat :=
  (m.slot.getD (y / 32 * 8 + x / 64) none).map fun slot => (y / 32 * 9 + slot) * 32 + y % 32

/-- The row words that hold pixels of the rectangle. -/
def State.storeRows (s : State) (t : Xfer) : Nat → Bool :=
  let m := s.arrMap
  let hit := ((List.range rowWords).map fun k =>
    match m.logical.getD (k / 32) none with
    | none => false
    | some px => (List.range 64).any fun c => t.inRect (64 * px + c) (k / 32 / 9 * 32 + k % 32)).toArray
  fun k => hit.getD k false

/-- The planes of a store as read. A row word whose map has changed reads as it may (R138). -/
def State.storePlanes (s : State) (t : Xfer) : List (Array RowRead) :=
  (List.range (t.nb1 + 1)).map fun b => s.readPlane (t.plane + b)

/-- What the reads of the planes found, one event for each row word (R65, R136). -/
def State.storeNotes (s : State) (t : Xfer) (planes : List (Array RowRead)) : List Note :=
  let hit := s.storeRows t
  planes.zipIdx.flatMap fun e => (notesOf (t.plane + e.2) false e.1 fun _ => true).filter fun n => hit n.k

/-- The note is of an uncorrectable row word. -/
def Note.isBad (n : Note) : Bool := match n.stat with | .bad _ => true | _ => false

/-- The value of the pixel at PE (`x`, `y`); 0 in an absent Platform (R45). -/
def Xfer.peek (t : Xfer) (m : ArrMap) (free : Nat → Lanes) (planes : List (Array RowRead)) (x y : Nat) : Nat :=
  match rowWordAt m x y with
  | none => 0
  | some k =>
    planes.zipIdx.foldl (fun n e =>
      let l := if t.mapChanged.contains (k / 32 / 9) then free k else laneAt e.1 k
      if l.getLsbD (x % 64) then n + 2 ^ e.2 else n) 0

/-- Write the words of a store: byte offset from BASE, the PEs' row words, and the value. A word with a bit of an
uncorrectable row word is not written. -/
def State.storeList (s : State) (base : Nat) (met : List Nat) (bad : Nat → Bool) :
    List (Nat × List Nat × Word64) → State × Option (Resp × Nat)
  | [] => (s, none)
  | (off, ks, d) :: t =>
    if ks.any bad then s.storeList base met bad t
    else
      let r := s.accessWrite 0 3 (base + off) met [] (d, 0xFF)
      let q := r.1.storeList base met bad t
      (q.1, if r.2 = .ok then q.2 else some (r.2, off))

/-- The store moves its data: the state, whether it read an uncorrectable row word, and the first failure. -/
def State.storeOut (s : State) (t : Xfer) (met : List Nat) : State × Bool × Option (Resp × Nat) :=
  let m := s.arrMap
  let planes := s.storePlanes t
  let notes := s.storeNotes t planes
  let free := (s.freePlane 1024).at
  let n := 8 / t.pixBytes
  let badA := ((List.range rowWords).map fun k => (notes.filter Note.isBad).any fun x => x.k == k).toArray
  let words := (List.range t.rectH).flatMap fun l => (List.range (t.rectW * t.pixBytes / 8)).map fun w =>
    let pes := (List.range n).map fun i => t.pe (n * w + i) l
    let v := pes.zipIdx.foldl (fun acc e => acc + t.peek m free planes e.1.1 e.1.2 * 2 ^ (8 * t.pixBytes * e.2)) 0
    ((t.rectY + l) * t.stride + t.rectX * t.pixBytes + 8 * w, pes.filterMap fun e => rowWordAt m e.1 e.2, BitVec.ofNat 64 v)
  let s1 := (notes.foldl (fun (s : State) (x : Note) => s.account [x]) s).useFree
  let r := s1.storeList t.base met (fun k => badA.getD k false) words
  (r.1, notes.any Note.isBad, r.2)

/-! Completion (R136, R138, R143) -/

/-- The cause of a completion: none, the one there is, or one of several, which the spec does not order (log entry 90). -/
def State.causeOf (s : State) (cs : List Cause) : Cause := cs.getD ((Config.freeWord s.free 0).toNat % max cs.length 1) .none

/-- The transfer in progress moves its data and completes. With a port of the Traverser fenced it waits. -/
def State.transferDone (s : State) (met : List Nat) : State :=
  match s.trv.active, s.trv.held with
  | true, t :: rest =>
    if (List.range 4).any fun p => s.fence p != 0 then s
    else
      let changed := if t.mapChanged = [] then [] else [Cause.mapChanged]
      let out := fun (s : State) (cs : List Cause) (bad : Option (Resp × Nat)) =>
        let c := s.causeOf cs
        ((({ s with trv := ⟨rest, false⟩ }).useFree).trvComplete t c ((bad.map Prod.fst).getD .ok) ((bad.map Prod.snd).getD 0)).trvWake
      if t.isStore then
        let r := s.storeOut t met
        out r.1 (changed ++ (if r.2.1 then [Cause.arrayUe] else []) ++ if r.2.2.isSome then [Cause.writeErr] else []) r.2.2
      else
        let r := s.load t
        out r.1 (changed ++ if r.2.isSome then [Cause.readErr] else []) r.2
  | _, _ => s

/-- TRANSFER_DONE (R143). -/
def execTransferDone (met : List Nat) (s : State) : Host.Outcome State Fault Refusal := .next (s.transferDone met)

/-! UNDEFINED_OPCODE (R106, R107, R210) -/

/-- An instruction with a reserved opcode, mode or SUB traps at decode, whatever its condition: ARRAY_OP for the reserved
FMASK sub-operations, else UNDEF. Any other instruction is none of these, and has its own command. -/
def State.undefinedOpcode (s : State) (opc : Nat) (o : SOp) : State :=
  if !s.canIssue then s
  else
    let t := fun (cause : Nat) => let s1 := s.begin.discardPair; s1.trapHere cause s1.here.toNat 0 .ok
    if opc = 0x2A then if o.sub = 0xD ∨ o.sub = 0xE then t 5 else s
    else if opc = 0x2E ∨ opc = 0x2F then t 2
    else if opc < 0x20 ∧ !scalarDefined opc o then t 2
    else s

/-- UNDEFINED_OPCODE. -/
def execUndefinedOpcode (opc : Nat) (o : SOp) (s : State) : Host.Outcome State Fault Refusal :=
  .next (s.undefinedOpcode opc o)

end Sys2Proof.Machine
end

