-- ==== Sys2Proof/Machine/Dispatch.lean ====
section
/-! DEFINITION. Dispatch: one arm per command, each one direct call of its meaning. -/

namespace Sys2Proof.Machine

def exec (i : Instr) (s : State) : Host.Outcome State Fault Refusal :=
  match i with
  | .registerWrite ini addr v => Sys2Proof.Machine.execRegisterWrite ini addr v s
  | .bitStep d firmware => Sys2Proof.Machine.execBitStep d firmware s
  | .sbOrDelivered => Sys2Proof.Machine.execSbOrDelivered s
  | .sbFirstDelivered => Sys2Proof.Machine.execSbFirstDelivered s
  | .sbCountDelivered => Sys2Proof.Machine.execSbCountDelivered s
  | .ackTimeout p => Sys2Proof.Machine.execAckTimeout p s
  | .prowMapWrite n v executing => Sys2Proof.Machine.execProwMapWrite n v executing s
  | .mapApplied n => Sys2Proof.Machine.execMapApplied n s
  | .arrBscntLoRead => Sys2Proof.Machine.execArrBscntLoRead s
  | .flog o => Sys2Proof.Machine.execFlog o s
  | .fadd o => Sys2Proof.Machine.execFadd o s
  | .fsub o => Sys2Proof.Machine.execFsub o s
  | .fcmp o => Sys2Proof.Machine.execFcmp o s
  | .fmul o => Sys2Proof.Machine.execFmul o s
  | .fminmax o => Sys2Proof.Machine.execFminmax o s
  | .fshn o => Sys2Proof.Machine.execFshn o s
  | .flut o => Sys2Proof.Machine.execFlut o s
  | .fpop o => Sys2Proof.Machine.execFpop o s
  | .fsel o => Sys2Proof.Machine.execFsel o s
  | .fmaskMFromF o => Sys2Proof.Machine.execFmaskMFromF o s
  | .fmaskMAndF o => Sys2Proof.Machine.execFmaskMAndF o s
  | .fmaskMOrF o => Sys2Proof.Machine.execFmaskMOrF o s
  | .fmaskMFromBit o => Sys2Proof.Machine.execFmaskMFromBit o s
  | .fmaskMAndBit o => Sys2Proof.Machine.execFmaskMAndBit o s
  | .fmaskMSet o => Sys2Proof.Machine.execFmaskMSet o s
  | .fmaskMFromValid o => Sys2Proof.Machine.execFmaskMFromValid o s
  | .fmaskFFromBit o => Sys2Proof.Machine.execFmaskFFromBit o s
  | .fmaskFClear o => Sys2Proof.Machine.execFmaskFClear o s
  | .fmaskFInvert o => Sys2Proof.Machine.execFmaskFInvert o s
  | .fmaskBitFromF o => Sys2Proof.Machine.execFmaskBitFromF o s
  | .fmaskCClear o => Sys2Proof.Machine.execFmaskCClear o s
  | .fmaskCSet o => Sys2Proof.Machine.execFmaskCSet o s
  | .abandon o => Sys2Proof.Machine.execAbandon o s
  | .fbit o => Sys2Proof.Machine.execFbit o s
  | .fxfer o => Sys2Proof.Machine.execFxfer o s
  | .fsync o => Sys2Proof.Machine.execFsync o s
  | .transferStart => Sys2Proof.Machine.execTransferStart s
  | .transferDone met => Sys2Proof.Machine.execTransferDone met s
  | .trvAbort => Sys2Proof.Machine.execTrvAbort s
  | .colmonClr p => Sys2Proof.Machine.execColmonClr p s
  | .colSubWrite p v executing => Sys2Proof.Machine.execColSubWrite p v executing s
  | .substitutionApplied p slot => Sys2Proof.Machine.execSubstitutionApplied p slot s
  | .mirrorCtlWrite v => Sys2Proof.Machine.execMirrorCtlWrite v s
  | .bistStart v => Sys2Proof.Machine.execBistStart v s
  | .bistAbort => Sys2Proof.Machine.execBistAbort s
  | .bistDone bad other => Sys2Proof.Machine.execBistDone bad other s
  | .cleanWindowEnd m slow => Sys2Proof.Machine.execCleanWindowEnd m slow s
  | .estStale => Sys2Proof.Machine.execEstStale s
  | .estFallback => Sys2Proof.Machine.execEstFallback s
  | .forcedWindow => Sys2Proof.Machine.execForcedWindow s
  | .substituteColumn p => Sys2Proof.Machine.execSubstituteColumn p s
  | .platformFailure p reason stops => Sys2Proof.Machine.execPlatformFailure p reason stops s
  | .stripRepeat p => Sys2Proof.Machine.execStripRepeat p s
  | .stripRetry display strip frame => Sys2Proof.Machine.execStripRetry display strip frame s
  | .rotationStep row => Sys2Proof.Machine.execRotationStep row s
  | .nop o => Sys2Proof.Machine.execNop o s
  | .ld o => Sys2Proof.Machine.execLd o s
  | .st o => Sys2Proof.Machine.execSt o s
  | .lui o => Sys2Proof.Machine.execLui o s
  | .add o => Sys2Proof.Machine.execAdd o s
  | .sub o => Sys2Proof.Machine.execSub o s
  | .and o => Sys2Proof.Machine.execAnd o s
  | .or o => Sys2Proof.Machine.execOr o s
  | .xor o => Sys2Proof.Machine.execXor o s
  | .shf o => Sys2Proof.Machine.execShf o s
  | .cmp o => Sys2Proof.Machine.execCmp o s
  | .tst o => Sys2Proof.Machine.execTst o s
  | .ix o => Sys2Proof.Machine.execIx o s
  | .bnk o => Sys2Proof.Machine.execBnk o s
  | .mul o => Sys2Proof.Machine.execMul o s
  | .mulDone => Sys2Proof.Machine.execMulDone s
  | .div o => Sys2Proof.Machine.execDiv o s
  | .divDone => Sys2Proof.Machine.execDivDone s
  | .movxRead o => Sys2Proof.Machine.execMovxRead o s
  | .movxWrite o => Sys2Proof.Machine.execMovxWrite o s
  | .stkPush o => Sys2Proof.Machine.execStkPush o s
  | .stkPop o => Sys2Proof.Machine.execStkPop o s
  | .br o => Sys2Proof.Machine.execBr o s
  | .call o => Sys2Proof.Machine.execCall o s
  | .ret o => Sys2Proof.Machine.execRet o s
  | .reti o => Sys2Proof.Machine.execReti o s
  | .svc o => Sys2Proof.Machine.execSvc o s
  | .brk o => Sys2Proof.Machine.execBrk o s
  | .fps o => Sys2Proof.Machine.execFps o s
  | .fph o => Sys2Proof.Machine.execFph o s
  | .ei o => Sys2Proof.Machine.execEi o s
  | .di o => Sys2Proof.Machine.execDi o s
  | .wfi o => Sys2Proof.Machine.execWfi o s
  | .fence o => Sys2Proof.Machine.execFence o s
  | .dsflush o => Sys2Proof.Machine.execDsflush o s
  | .loadResponse extResp ext => Sys2Proof.Machine.execLoadResponse extResp ext s
  | .storeError addr r => Sys2Proof.Machine.execStoreError addr r s
  | .interruptEntry pt => Sys2Proof.Machine.execInterruptEntry pt s
  | .coproc u o => Sys2Proof.Machine.execCoproc u o s
  | .coprocResponse r result flags => Sys2Proof.Machine.execCoprocResponse r result flags s
  | .customerInstruction opc o => Sys2Proof.Machine.execCustomerInstruction opc o s
  | .mnop => Sys2Proof.Machine.execMnop s
  | .malu d a b op f => Sys2Proof.Machine.execMalu d a b op f s
  | .malui d a op f imm => Sys2Proof.Machine.execMalui d a op f imm s
  | .mlui d imm => Sys2Proof.Machine.execMlui d imm s
  | .mrd d a sz off => Sys2Proof.Machine.execMrd d a sz off s
  | .mwr r a sz off => Sys2Proof.Machine.execMwr r a sz off s
  | .mbr mc tgt => Sys2Proof.Machine.execMbr mc tgt s
  | .mcall tgt => Sys2Proof.Machine.execMcall tgt s
  | .mret fin => Sys2Proof.Machine.execMret fin s
  | .mloop d tgt => Sys2Proof.Machine.execMloop d tgt s
  | .poll => Sys2Proof.Machine.execPoll s
  | .bsd r => Sys2Proof.Machine.execBsd r s
  | .bsa r => Sys2Proof.Machine.execBsa r s
  | .bsi r inc => Sys2Proof.Machine.execBsi r inc s
  | .bsw => Sys2Proof.Machine.execBsw s
  | .watchdog => Sys2Proof.Machine.execWatchdog s
  | .csWdataAccess write v => Sys2Proof.Machine.execCsWdataAccess write v s
  | .decEntryWrite v => Sys2Proof.Machine.execDecEntryWrite v s
  | .scratchpadRead src tag => Sys2Proof.Machine.execScratchpadRead src tag s
  | .scratchpadWrite src tag met => Sys2Proof.Machine.execScratchpadWrite src tag met s
  | .memFillStart => Sys2Proof.Machine.execMemFillStart s
  | .fillDone => Sys2Proof.Machine.execFillDone s
  | .bucketLeak k => Sys2Proof.Machine.execBucketLeak k s
  | .bktCfgWrite k v => Sys2Proof.Machine.execBktCfgWrite k v s
  | .logStatAck k v => Sys2Proof.Machine.execLogStatAck k v s
  | .remapWrite b e v => Sys2Proof.Machine.execRemapWrite b e v s
  | .scrubAccess k writtenSince => Sys2Proof.Machine.execScrubAccess k writtenSince s
  | .secureRegionWrite src tag => Sys2Proof.Machine.execSecureRegionWrite src tag s
  | .tamperTrigger t => Sys2Proof.Machine.execTamperTrigger t s
  | .secureWipeDone => Sys2Proof.Machine.execSecureWipeDone s
  | .lcReqWrite v => Sys2Proof.Machine.execLcReqWrite v s
  | .ddrCfgWrite v => Sys2Proof.Machine.execDdrCfgWrite v s
  | .ddrTrainingEnd ok cached => Sys2Proof.Machine.execDdrTrainingEnd ok cached s
  | .mr4Poll overtemp => Sys2Proof.Machine.execMr4Poll overtemp s
  | .lpddr5Write src tag => Sys2Proof.Machine.execLpddr5Write src tag s
  | .lpddr5Read src tag => Sys2Proof.Machine.execLpddr5Read src tag s
  | .rd p => Sys2Proof.Machine.execRd p s
  | .wr p rivals => Sys2Proof.Machine.execWr p rivals s
  | .cpreq p => Sys2Proof.Machine.execCpreq p s
  | .rdrsp src tag ext data poison ce => Sys2Proof.Machine.execRdrsp src tag ext data poison ce s
  | .wrrsp src tag ext ce => Sys2Proof.Machine.execWrrsp src tag ext ce s
  | .cprsp r result flags => Sys2Proof.Machine.execCprsp r result flags s
  | .corruptHeader port src tag response => Sys2Proof.Machine.execCorruptHeader port src tag response s
  | .reqTimeout src tag => Sys2Proof.Machine.execReqTimeout src tag s
  | .timetableSlot slot => Sys2Proof.Machine.execTimetableSlot slot s
  | .guarStarved ini => Sys2Proof.Machine.execGuarStarved ini s
  | .ttCtlSwitch => Sys2Proof.Machine.execTtCtlSwitch s
  | .ttEntryWrite table slot v => Sys2Proof.Machine.execTtEntryWrite table slot v s
  | .jtFenceWrite hi v => Sys2Proof.Machine.execJtFenceWrite hi v s
  | .fenceDone port => Sys2Proof.Machine.execFenceDone port s
  | .fwCommit => Sys2Proof.Machine.execFwCommit s
  | .fwCommitApplied => Sys2Proof.Machine.execFwCommitApplied s
  | .jtTmoWrite p v => Sys2Proof.Machine.execJtTmoWrite p v s
  | .frameStart n vc time => Sys2Proof.Machine.execFrameStart n vc time s
  | .longPacket n vc dt px hdrBad crcBad full => Sys2Proof.Machine.execLongPacket n vc dt px hdrBad crcBad full s
  | .frameEnd n vc ps => Sys2Proof.Machine.execFrameEnd n vc ps s
  | .camFrame n vc => Sys2Proof.Machine.execCamFrame n vc s
  | .camLost n vc => Sys2Proof.Machine.execCamLost n vc s
  | .camStreamCfgWrite n vc v => Sys2Proof.Machine.execCamStreamCfgWrite n vc v s
  | .tsLoRead n vc => Sys2Proof.Machine.execTsLoRead n vc s
  | .passThroughRelease n vc need strip => Sys2Proof.Machine.execPassThroughRelease n vc need strip s
  | .vsyncStart p ps katFail => Sys2Proof.Machine.execVsyncStart p ps katFail s
  | .pipeCommitWrite p => Sys2Proof.Machine.execPipeCommitWrite p s
  | .pipeCancel p => Sys2Proof.Machine.execPipeCancel p s
  | .pipeCtlWrite p v => Sys2Proof.Machine.execPipeCtlWrite p v s
  | .linkUp p => Sys2Proof.Machine.execLinkUp p s
  | .linkFail p => Sys2Proof.Machine.execLinkFail p s
  | .hpdLost p => Sys2Proof.Machine.execHpdLost p s
  | .irqHpd p => Sys2Proof.Machine.execIrqHpd p s
  | .lineFetch p y => Sys2Proof.Machine.execLineFetch p y s
  | .pipeUnderrun p y layer => Sys2Proof.Machine.execPipeUnderrun p y layer s
  | .lockSrcLost p => Sys2Proof.Machine.execLockSrcLost p s
  | .pipeLockWrite p v => Sys2Proof.Machine.execPipeLockWrite p v s
  | .lutDataAccess p write v => Sys2Proof.Machine.execLutDataAccess p write v s
  | .sampleTick a b => Sys2Proof.Machine.execSampleTick a b s
  | .ttGoWrite => Sys2Proof.Machine.execTtGoWrite s
  | .ttPstatFaultWrite v => Sys2Proof.Machine.execTtPstatFaultWrite v s
  | .telltaleState => Sys2Proof.Machine.execTelltaleState s
  | .latchSelWrite v => Sys2Proof.Machine.execLatchSelWrite v s
  | .rcommitWrite p => Sys2Proof.Machine.execRcommitWrite p s
  | .rcommitCancel p => Sys2Proof.Machine.execRcommitCancel p s
  | .regionVerdict p r => Sys2Proof.Machine.execRegionVerdict p r s
  | .heartbeatVerdict p => Sys2Proof.Machine.execHeartbeatVerdict p s
  | .safeCtlClr => Sys2Proof.Machine.execSafeCtlClr s
  | .safeCtlForce on => Sys2Proof.Machine.execSafeCtlForce on s
  | .pipeStopped p => Sys2Proof.Machine.execPipeStopped p s
  | .frozenWrite p => Sys2Proof.Machine.execFrozenWrite p s
  | .faultWrite p hi v => Sys2Proof.Machine.execFaultWrite p hi v s
  | .evtStatAck v => Sys2Proof.Machine.execEvtStatAck v s
  | .dispCfgWrite ini p v => Sys2Proof.Machine.execDispCfgWrite ini p v s
  | .hostBar0Request kind off dws rivals tmo => Sys2Proof.Machine.execHostBar0Request kind off dws rivals tmo s
  | .hostBar2Request kind off len data met rivals tmo => Sys2Proof.Machine.execHostBar2Request kind off len data met rivals tmo s
  | .safetyPortRead h cut => Sys2Proof.Machine.execSafetyPortRead h cut s
  | .safetyPortWrite h d c cut rivals => Sys2Proof.Machine.execSafetyPortWrite h d c cut rivals s
  | .safetyPortNoAccess h cut => Sys2Proof.Machine.execSafetyPortNoAccess h cut s
  | .spLateDone timeout rivals => Sys2Proof.Machine.execSpLateDone timeout rivals s
  | .mbDoorbell m rivals => Sys2Proof.Machine.execMbDoorbell m rivals s
  | .mbAbort m => Sys2Proof.Machine.execMbAbort m s
  | .responsePost m v => Sys2Proof.Machine.execResponsePost m v s
  | .mbTimeout m => Sys2Proof.Machine.execMbTimeout m s
  | .icPendWrite k v => Sys2Proof.Machine.execIcPendWrite k v s
  | .icUnpendWrite k v => Sys2Proof.Machine.execIcUnpendWrite k v s
  | .icAck n => Sys2Proof.Machine.execIcAck n s
  | .icEoi n => Sys2Proof.Machine.execIcEoi n s
  | .icHeoi v => Sys2Proof.Machine.execIcHeoi v s
  | .msixTableWrite dw v => Sys2Proof.Machine.execMsixTableWrite dw v s
  | .ident m => Sys2Proof.Machine.execIdent m s
  | .power m => Sys2Proof.Machine.execPower m s
  | .sceneLoad m host lut => Sys2Proof.Machine.execSceneLoad m host lut s
  | .layerSet m => Sys2Proof.Machine.execLayerSet m s
  | .layerCommit m => Sys2Proof.Machine.execLayerCommit m s
  | .telltaleMapSlot m => Sys2Proof.Machine.execTelltaleMapSlot m s
  | .telltaleMapCommit m => Sys2Proof.Machine.execTelltaleMapCommit m s
  | .telltaleMapArm m => Sys2Proof.Machine.execTelltaleMapArm m s
  | .regionRefLoad m host => Sys2Proof.Machine.execRegionRefLoad m host s
  | .kernelLoad m host => Sys2Proof.Machine.execKernelLoad m host s
  | .kernelUnload m => Sys2Proof.Machine.execKernelUnload m s
  | .kernelRun m host stored => Sys2Proof.Machine.execKernelRun m host stored s
  | .cameraConfig m => Sys2Proof.Machine.execCameraConfig m s
  | .displayConfig m host bad => Sys2Proof.Machine.execDisplayConfig m host bad s
  | .displayConfigRetrain m => Sys2Proof.Machine.execDisplayConfigRetrain m s
  | .updateBegin m => Sys2Proof.Machine.execUpdateBegin m s
  | .updateChunk m host => Sys2Proof.Machine.execUpdateChunk m host s
  | .updateVerify m => Sys2Proof.Machine.execUpdateVerify m s
  | .updateActivate m => Sys2Proof.Machine.execUpdateActivate m s
  | .updateConfirm m => Sys2Proof.Machine.execUpdateConfirm m s
  | .telemetryRead m mv => Sys2Proof.Machine.execTelemetryRead m mv s
  | .logRead m => Sys2Proof.Machine.execLogRead m s
  | .couplerPair m => Sys2Proof.Machine.execCouplerPair m s
  | .couplerUnpair m => Sys2Proof.Machine.execCouplerUnpair m s
  | .couplerSweep m => Sys2Proof.Machine.execCouplerSweep m s
  | .takeoverGrant m => Sys2Proof.Machine.execTakeoverGrant m s
  | .takeoverRevoke m => Sys2Proof.Machine.execTakeoverRevoke m s
  | .metroRead m => Sys2Proof.Machine.execMetroRead m s
  | .fabricLoad m host bad => Sys2Proof.Machine.execFabricLoad m host bad s
  | .fabricRelease m => Sys2Proof.Machine.execFabricRelease m s
  | .fabricReadback m w => Sys2Proof.Machine.execFabricReadback m w s
  | .decodeSet m => Sys2Proof.Machine.execDecodeSet m s
  | .microcodeWrite m host => Sys2Proof.Machine.execMicrocodeWrite m host s
  | .undefinedCommand m => Sys2Proof.Machine.execUndefinedCommand m s
  | .gvTick => Sys2Proof.Machine.execGvTick s
  | .gvPulse b => Sys2Proof.Machine.execGvPulse b s
  | .sealJumperAccepted fitted => Sys2Proof.Machine.execSealJumperAccepted fitted s
  | .gvPowerOn st cf => Sys2Proof.Machine.execGvPowerOn st cf s
  | .status => Sys2Proof.Machine.execStatus s
  | .quiet => Sys2Proof.Machine.execQuiet s
  | .gvIdent src => Sys2Proof.Machine.execGvIdent src s
  | .log src => Sys2Proof.Machine.execLog src s
  | .tripReset src => Sys2Proof.Machine.execTripReset src s
  | .challenge src => Sys2Proof.Machine.execChallenge src s
  | .sealAuth src => Sys2Proof.Machine.execSealAuth src s
  | .sealAuthDone => Sys2Proof.Machine.execSealAuthDone s
  | .sealTimeout => Sys2Proof.Machine.execSealTimeout s
  | .setK src => Sys2Proof.Machine.execSetK src s
  | .setDisc src => Sys2Proof.Machine.execSetDisc src s
  | .setTotal src => Sys2Proof.Machine.execSetTotal src s
  | .setTime src => Sys2Proof.Machine.execSetTime src s
  | .setCan src => Sys2Proof.Machine.execSetCan src s
  | .keyPart src => Sys2Proof.Machine.execKeyPart src s
  | .keyCommit src => Sys2Proof.Machine.execKeyCommit src s
  | .close src => Sys2Proof.Machine.execClose src s
  | .bridgeFrame => Sys2Proof.Machine.execBridgeFrame s
  | .bridgeLinkLost => Sys2Proof.Machine.execBridgeLinkLost s
  | .smcSend v => Sys2Proof.Machine.execSmcSend v s
  | .hello p f => Sys2Proof.Machine.execHello p f s
  | .heartbeat p f => Sys2Proof.Machine.execHeartbeat p f s
  | .req p f rivals => Sys2Proof.Machine.execReq p f rivals s
  | .rsp p f => Sys2Proof.Machine.execRsp p f s
  | .mirror p f => Sys2Proof.Machine.execMirror p f s
  | .commit p f => Sys2Proof.Machine.execCommit p f s
  | .probe p f ta => Sys2Proof.Machine.execProbe p f ta s
  | .echo p f rtt => Sys2Proof.Machine.execEcho p f rtt s
  | .probeTimeout => Sys2Proof.Machine.execProbeTimeout s
  | .mark p f ps => Sys2Proof.Machine.execMark p f ps s
  | .align p f => Sys2Proof.Machine.execAlign p f s
  | .cplFrameError p ofGen => Sys2Proof.Machine.execCplFrameError p ofGen s
  | .laneLock p => Sys2Proof.Machine.execLaneLock p s
  | .laneLockLost p => Sys2Proof.Machine.execLaneLockLost p s
  | .lostRetrain p => Sys2Proof.Machine.execLostRetrain p s
  | .helloSend p => Sys2Proof.Machine.execHelloSend p s
  | .heartbeatSend p => Sys2Proof.Machine.execHeartbeatSend p s
  | .heartbeatLimit p => Sys2Proof.Machine.execHeartbeatLimit p s
  | .cplTxSend v => Sys2Proof.Machine.execCplTxSend v s
  | .cplGenSent => Sys2Proof.Machine.execCplGenSent s
  | .cplCtlWrite v => Sys2Proof.Machine.execCplCtlWrite v s
  | .cplSyncWrite v => Sys2Proof.Machine.execCplSyncWrite v s
  | .paccGo v => Sys2Proof.Machine.execPaccGo v s
  | .fabStartFlash => Sys2Proof.Machine.execFabStartFlash s
  | .fabStartStream => Sys2Proof.Machine.execFabStartStream s
  | .fabCfgDataWrite v => Sys2Proof.Machine.execFabCfgDataWrite v s
  | .fabLoaded bad => Sys2Proof.Machine.execFabLoaded bad s
  | .fabRelease => Sys2Proof.Machine.execFabRelease s
  | .releaseStage => Sys2Proof.Machine.execReleaseStage s
  | .fabHold => Sys2Proof.Machine.execFabHold s
  | .fabProgram => Sys2Proof.Machine.execFabProgram s
  | .fabFlashDone fail => Sys2Proof.Machine.execFabFlashDone fail s
  | .fabSnap w => Sys2Proof.Machine.execFabSnap w s
  | .fabRbDataRead => Sys2Proof.Machine.execFabRbDataRead s
  | .fabUsrWrite ini n v => Sys2Proof.Machine.execFabUsrWrite ini n v s
  | .fabUser line => Sys2Proof.Machine.execFabUser line s
  | .pwrGo => Sys2Proof.Machine.execPwrGo s
  | .wakeN => Sys2Proof.Machine.execWakeN s
  | .couplerWake p => Sys2Proof.Machine.execCouplerWake p s
  | .pcieWake => Sys2Proof.Machine.execPcieWake s
  | .wakePattern => Sys2Proof.Machine.execWakePattern s
  | .resetNAssert => Sys2Proof.Machine.execResetNAssert s
  | .resetNRelease => Sys2Proof.Machine.execResetNRelease s
  | .vddAonRise => Sys2Proof.Machine.execVddAonRise s
  | .railInRange => Sys2Proof.Machine.execRailInRange s
  | .railTimeout => Sys2Proof.Machine.execRailTimeout s
  | .railDownStep => Sys2Proof.Machine.execRailDownStep s
  | .railsDischarged => Sys2Proof.Machine.execRailsDischarged s
  | .dischargeLate => Sys2Proof.Machine.execDischargeLate s
  | .coldStart => Sys2Proof.Machine.execColdStart s
  | .warmStart => Sys2Proof.Machine.execWarmStart s
  | .tempSensorUpdate t => Sys2Proof.Machine.execTempSensorUpdate t s
  | .thermtrip => Sys2Proof.Machine.execThermtrip s
  | .vmon => Sys2Proof.Machine.execVmon s
  | .undefinedOpcode opc o => Sys2Proof.Machine.execUndefinedOpcode opc o s
  | .telltaleMapReservedSub m => Sys2Proof.Machine.execTelltaleMapReservedSub m s
  | .vanFormatError src => Sys2Proof.Machine.execVanFormatError src s
  | .peerAccessTimeout => Sys2Proof.Machine.execPeerAccessTimeout s
  | .configurationRequest write memEn busMaster msixEn funcMask => Sys2Proof.Machine.execConfigurationRequest write memEn busMaster msixEn funcMask s
  | .pwrStable => Sys2Proof.Machine.execPwrStable s
  | .vddCoreFall => Sys2Proof.Machine.execVddCoreFall s

end Sys2Proof.Machine
end

