-- ==== Sys2Proof/WellFormed.lean ====
section
/-! DEFINITION. WellFormed: the operand values the spec gives each command, row by row: register and block numbers within
their block, field values within the width of their field (R42, R101, R102, R203, R255, R335, R345, R545, R554). A command
outside them is no command of the spec; the step refuses none of them, so every statement that needs a range says so. -/

namespace Sys2Proof

/-- The fields of a scalar word within their widths (R203). -/
def SOp.wf (o : SOp) : Bool :=
  decide (o.cond < 16) && decide (o.mode < 4) && decide (o.sub < 16) && decide (o.addr < 2 ^ 16)

/-- The fields of the two words of an array instruction within their widths (R101, R102). -/
def AOp.wf (o : AOp) : Bool :=
  decide (o.cond < 16) && decide (o.form < 4) && decide (o.sub < 16) && decide (o.wm1 < 64) && decide (o.sgn < 2) &&
    decide (o.sat < 2) && decide (o.fm < 4) && decide (o.aux < 16) && decide (o.fd < 1024) && decide (o.fb < 1024) &&
    decide (o.fa < 1024)

/-- A safe point of an instruction: the array opcodes are 0x20 to 0x2F (R101). -/
def IntPoint.wf : IntPoint → Bool
  | .boundary => true
  | .wait => true
  | .safePoint opc o _ => decide (0x20 ≤ opc) && decide (opc < 0x30) && o.wf
  | .resumed _ => true

/-- A packet whose header fields fit R335: port, identity, tag, at most 16 data words of a request of up to 256 bytes. -/
def Packet.wf (p : Packet) : Bool :=
  decide (p.src < 64) && decide (p.ini < 32) && decide (p.tag < 256) && decide (p.addr < 2 ^ 52) &&
    p.bad.all fun i => decide (i < p.data.length)

/-- A CAN FD frame of one of the van's message identifiers, of at most 64 bytes (R545). -/
def VanSrc.wf : VanSrc → Bool
  | .can kind data => (kind == 1 || kind == 3 || kind == 4) && decide (data.length ≤ 64)
  | .window => true

/-- A Coupler frame whose sequence number fits its 8-bit field (R554). -/
def CplFrame.wf (f : CplFrame) : Bool := decide (f.seq < 256)

/-- The operands of a command lie in the ranges the spec gives them. -/
def Instr.wf (c : Instr) : Bool :=
  match c with
  | .registerWrite ini addr _ => decide (ini < 32) && decide (addr < 2 ^ 52)
  | .bitStep _ _ => true
  | .sbOrDelivered => true
  | .sbFirstDelivered => true
  | .sbCountDelivered => true
  | .ackTimeout p => decide (p < 72)
  | .prowMapWrite n _ _ => decide (n < 8)
  | .mapApplied n => decide (n < 8)
  | .arrBscntLoRead => true
  | .flog o => o.wf
  | .fadd o => o.wf
  | .fsub o => o.wf
  | .fcmp o => o.wf
  | .fmul o => o.wf
  | .fminmax o => o.wf
  | .fshn o => o.wf
  | .flut o => o.wf
  | .fpop o => o.wf
  | .fsel o => o.wf
  | .fmaskMFromF o => o.wf
  | .fmaskMAndF o => o.wf
  | .fmaskMOrF o => o.wf
  | .fmaskMFromBit o => o.wf
  | .fmaskMAndBit o => o.wf
  | .fmaskMSet o => o.wf
  | .fmaskMFromValid o => o.wf
  | .fmaskFFromBit o => o.wf
  | .fmaskFClear o => o.wf
  | .fmaskFInvert o => o.wf
  | .fmaskBitFromF o => o.wf
  | .fmaskCClear o => o.wf
  | .fmaskCSet o => o.wf
  | .abandon o => o.wf
  | .fbit o => o.wf
  | .fxfer o => o.wf
  | .fsync o => o.wf
  | .transferStart => true
  | .transferDone _ => true
  | .trvAbort => true
  | .colmonClr p => decide (p < 72)
  | .colSubWrite p _ _ => decide (p < 72)
  | .substitutionApplied p slot => decide (p < 72) && decide (slot < 2)
  | .mirrorCtlWrite _ => true
  | .bistStart _ => true
  | .bistAbort => true
  | .bistDone _ _ => true
  | .cleanWindowEnd _ _ => true
  | .estStale => true
  | .estFallback => true
  | .forcedWindow => true
  | .substituteColumn p => decide (p < 72)
  | .platformFailure p _ stops => decide (p < 72) && decide (stops < 16)
  | .stripRepeat p => decide (p < 72)
  | .stripRetry display _ _ => decide (display < 4)
  | .rotationStep row => decide (row < 8)
  | .nop o => o.wf
  | .ld o => o.wf
  | .st o => o.wf
  | .lui o => o.wf
  | .add o => o.wf
  | .sub o => o.wf
  | .and o => o.wf
  | .or o => o.wf
  | .xor o => o.wf
  | .shf o => o.wf
  | .cmp o => o.wf
  | .tst o => o.wf
  | .ix o => o.wf
  | .bnk o => o.wf
  | .mul o => o.wf
  | .mulDone => true
  | .div o => o.wf
  | .divDone => true
  | .movxRead o => o.wf
  | .movxWrite o => o.wf
  | .stkPush o => o.wf
  | .stkPop o => o.wf
  | .br o => o.wf
  | .call o => o.wf
  | .ret o => o.wf
  | .reti o => o.wf
  | .svc o => o.wf
  | .brk o => o.wf
  | .fps o => o.wf
  | .fph o => o.wf
  | .ei o => o.wf
  | .di o => o.wf
  | .wfi o => o.wf
  | .fence o => o.wf
  | .dsflush o => o.wf
  | .loadResponse _ _ => true
  | .storeError _ _ => true
  | .interruptEntry pt => pt.wf
  | .coproc u o => decide (u < 8) && o.wf
  | .coprocResponse _ _ _ => true
  | .customerInstruction opc o => decide (opc < 64) && o.wf
  | .mnop => true
  | .malu d a b op _ => decide (d < 16) && decide (a < 16) && decide (b < 16) && decide (op < 16)
  | .malui d a op _ _ => decide (d < 16) && decide (a < 16) && decide (op < 16)
  | .mlui d _ => decide (d < 16)
  | .mrd d a sz _ => decide (d < 16) && decide (a < 16) && decide (sz < 4)
  | .mwr r a sz _ => decide (r < 16) && decide (a < 16) && decide (sz < 4)
  | .mbr mc tgt => decide (mc < 16) && decide (tgt < 2 ^ 14)
  | .mcall tgt => decide (tgt < 2 ^ 14)
  | .mret _ => true
  | .mloop d tgt => decide (d < 16) && decide (tgt < 2 ^ 14)
  | .poll => true
  | .bsd r => decide (r < 16)
  | .bsa r => decide (r < 16)
  | .bsi r inc => decide (r < 16) && decide (inc < 8)
  | .bsw => true
  | .watchdog => true
  | .csWdataAccess _ _ => true
  | .decEntryWrite _ => true
  | .scratchpadRead src tag => decide (src < 64) && decide (tag < 256)
  | .scratchpadWrite src tag _ => decide (src < 64) && decide (tag < 256)
  | .memFillStart => true
  | .fillDone => true
  | .bucketLeak k => decide (k < 4)
  | .bktCfgWrite k _ => decide (k < 4)
  | .logStatAck k _ => decide (k < 4)
  | .remapWrite b e _ => decide (b < 16) && decide (e < 16)
  | .scrubAccess k _ => decide (k < 4)
  | .secureRegionWrite src tag => decide (src < 64) && decide (tag < 256)
  | .tamperTrigger t => decide (t < 5)
  | .secureWipeDone => true
  | .lcReqWrite _ => true
  | .ddrCfgWrite _ => true
  | .ddrTrainingEnd _ _ => true
  | .mr4Poll _ => true
  | .lpddr5Write src tag => decide (src < 64) && decide (tag < 256)
  | .lpddr5Read src tag => decide (src < 64) && decide (tag < 256)
  | .rd p => p.wf
  | .wr p _ => p.wf
  | .cpreq p => p.wf
  | .rdrsp src tag _ _ _ _ => decide (src < 64) && decide (tag < 256)
  | .wrrsp src tag _ _ => decide (src < 64) && decide (tag < 256)
  | .cprsp _ _ _ => true
  | .corruptHeader port src tag _ => decide (port < 64) && decide (src < 64) && decide (tag < 256)
  | .reqTimeout src tag => decide (src < 64) && decide (tag < 256)
  | .timetableSlot slot => decide (slot < 64)
  | .guarStarved ini => decide (ini < 32)
  | .ttCtlSwitch => true
  | .ttEntryWrite table slot _ => decide (table < 2) && decide (slot < 64)
  | .jtFenceWrite _ _ => true
  | .fenceDone port => decide (port < 64)
  | .fwCommit => true
  | .fwCommitApplied => true
  | .jtTmoWrite p _ => decide (p < 64)
  | .frameStart n vc _ => decide (n < 6) && decide (vc < 4)
  | .longPacket n vc dt _ _ _ _ => decide (n < 6) && decide (vc < 4) && decide (dt < 64)
  | .frameEnd n vc _ => decide (n < 6) && decide (vc < 4)
  | .camFrame n vc => decide (n < 6) && decide (vc < 4)
  | .camLost n vc => decide (n < 6) && decide (vc < 4)
  | .camStreamCfgWrite n vc _ => decide (n < 6) && decide (vc < 4)
  | .tsLoRead n vc => decide (n < 6) && decide (vc < 4)
  | .passThroughRelease n vc _ _ => decide (n < 6) && decide (vc < 4)
  | .vsyncStart p _ _ => decide (p < 4)
  | .pipeCommitWrite p => decide (p < 4)
  | .pipeCancel p => decide (p < 4)
  | .pipeCtlWrite p _ => decide (p < 4)
  | .linkUp p => decide (p < 4)
  | .linkFail p => decide (p < 4)
  | .hpdLost p => decide (p < 4)
  | .irqHpd p => decide (p < 4)
  | .lineFetch p _ => decide (p < 4)
  | .pipeUnderrun p _ layer => decide (p < 4) && decide (layer < 8)
  | .lockSrcLost p => decide (p < 4)
  | .pipeLockWrite p _ => decide (p < 4)
  | .lutDataAccess p _ _ => decide (p < 4)
  | .sampleTick _ _ => true
  | .ttGoWrite => true
  | .ttPstatFaultWrite _ => true
  | .telltaleState => true
  | .latchSelWrite _ => true
  | .rcommitWrite p => decide (p < 4)
  | .rcommitCancel p => decide (p < 4)
  | .regionVerdict p r => decide (p < 4) && decide (r < 64)
  | .heartbeatVerdict p => decide (p < 4)
  | .safeCtlClr => true
  | .safeCtlForce _ => true
  | .pipeStopped p => decide (p < 4)
  | .frozenWrite p => decide (p < 4)
  | .faultWrite p hi _ => decide (p < 4) && decide (hi < 2)
  | .evtStatAck _ => true
  | .dispCfgWrite ini p _ => decide (ini < 32) && decide (p < 4)
  | .hostBar0Request _ off _ _ _ => decide (off < 0x10000)
  | .hostBar2Request _ _ _ _ _ _ _ => true
  | .safetyPortRead _ _ => true
  | .safetyPortWrite _ _ _ _ _ => true
  | .safetyPortNoAccess _ _ => true
  | .spLateDone _ _ => true
  | .mbDoorbell m _ => decide (m < 4)
  | .mbAbort m => decide (m < 4)
  | .responsePost m _ => decide (m < 4)
  | .mbTimeout m => decide (m < 4)
  | .icPendWrite k _ => decide (k < 4)
  | .icUnpendWrite k _ => decide (k < 4)
  | .icAck n => decide (n < 128)
  | .icEoi n => decide (n < 128)
  | .icHeoi v => decide (v < 64)
  | .msixTableWrite dw _ => decide (dw < 256)
  | .ident m => decide (m < 4)
  | .power m => decide (m < 4)
  | .sceneLoad m _ _ => decide (m < 4)
  | .layerSet m => decide (m < 4)
  | .layerCommit m => decide (m < 4)
  | .telltaleMapSlot m => decide (m < 4)
  | .telltaleMapCommit m => decide (m < 4)
  | .telltaleMapArm m => decide (m < 4)
  | .regionRefLoad m _ => decide (m < 4)
  | .kernelLoad m _ => decide (m < 4)
  | .kernelUnload m => decide (m < 4)
  | .kernelRun m _ _ => decide (m < 4)
  | .cameraConfig m => decide (m < 4)
  | .displayConfig m _ _ => decide (m < 4)
  | .displayConfigRetrain m => decide (m < 4)
  | .updateBegin m => decide (m < 4)
  | .updateChunk m _ => decide (m < 4)
  | .updateVerify m => decide (m < 4)
  | .updateActivate m => decide (m < 4)
  | .updateConfirm m => decide (m < 4)
  | .telemetryRead m _ => decide (m < 4)
  | .logRead m => decide (m < 4)
  | .couplerPair m => decide (m < 4)
  | .couplerUnpair m => decide (m < 4)
  | .couplerSweep m => decide (m < 4)
  | .takeoverGrant m => decide (m < 4)
  | .takeoverRevoke m => decide (m < 4)
  | .metroRead m => decide (m < 4)
  | .fabricLoad m _ _ => decide (m < 4)
  | .fabricRelease m => decide (m < 4)
  | .fabricReadback m _ => decide (m < 4)
  | .decodeSet m => decide (m < 4)
  | .microcodeWrite m _ => decide (m < 4)
  | .undefinedCommand m => decide (m < 4)
  | .gvTick => true
  | .gvPulse _ => true
  | .sealJumperAccepted _ => true
  | .gvPowerOn stCopy cf => decide (stCopy < 3) && decide (cf < 3)
  | .status => true
  | .quiet => true
  | .gvIdent src => src.wf
  | .log src => src.wf
  | .tripReset src => src.wf
  | .challenge src => src.wf
  | .sealAuth src => src.wf
  | .sealAuthDone => true
  | .sealTimeout => true
  | .setK src => src.wf
  | .setDisc src => src.wf
  | .setTotal src => src.wf
  | .setTime src => src.wf
  | .setCan src => src.wf
  | .keyPart src => src.wf
  | .keyCommit src => src.wf
  | .close src => src.wf
  | .bridgeFrame => true
  | .bridgeLinkLost => true
  | .smcSend _ => true
  | .hello p f => decide (p < 2) && f.wf
  | .heartbeat p f => decide (p < 2) && f.wf
  | .req p f _ => decide (p < 2) && f.wf
  | .rsp p f => decide (p < 2) && f.wf
  | .mirror p f => decide (p < 2) && f.wf
  | .commit p f => decide (p < 2) && f.wf
  | .probe p f _ => decide (p < 2) && f.wf
  | .echo p f _ => decide (p < 2) && f.wf
  | .probeTimeout => true
  | .mark p f _ => decide (p < 2) && f.wf
  | .align p f => decide (p < 2) && f.wf
  | .cplFrameError p _ => decide (p < 2)
  | .laneLock p => decide (p < 2)
  | .laneLockLost p => decide (p < 2)
  | .lostRetrain p => decide (p < 2)
  | .helloSend p => decide (p < 2)
  | .heartbeatSend p => decide (p < 2)
  | .heartbeatLimit p => decide (p < 2)
  | .cplTxSend _ => true
  | .cplGenSent => true
  | .cplCtlWrite _ => true
  | .cplSyncWrite _ => true
  | .paccGo _ => true
  | .fabStartFlash => true
  | .fabStartStream => true
  | .fabCfgDataWrite _ => true
  | .fabLoaded _ => true
  | .fabRelease => true
  | .releaseStage => true
  | .fabHold => true
  | .fabProgram => true
  | .fabFlashDone _ => true
  | .fabSnap _ => true
  | .fabRbDataRead => true
  | .fabUsrWrite ini n _ => decide (ini < 32) && decide (n < 16)
  | .fabUser line => decide (line < 4)
  | .pwrGo => true
  | .wakeN => true
  | .couplerWake p => decide (p < 2)
  | .pcieWake => true
  | .wakePattern => true
  | .resetNAssert => true
  | .resetNRelease => true
  | .vddAonRise => true
  | .railInRange => true
  | .railTimeout => true
  | .railDownStep => true
  | .railsDischarged => true
  | .dischargeLate => true
  | .coldStart => true
  | .warmStart => true
  | .tempSensorUpdate t => decide (t.length = 16)
  | .thermtrip => true
  | .vmon => true
  | .undefinedOpcode opc o => decide (opc < 64) && o.wf
  | .telltaleMapReservedSub m => decide (m < 4)
  | .vanFormatError src => src.wf
  | .peerAccessTimeout => true
  | .configurationRequest _ _ _ _ _ => true
  | .pwrStable => true
  | .vddCoreFall => true

end Sys2Proof
end

