-- ==== Sys2Proof/Safety.lean ====
section
/-! DEFINITION. The terms the statements use: that a command completes, which parts of the state a command leaves as they
were, and the canonical form of everything that is held by key. -/

namespace Sys2Proof.Machine

/-- The command is performed: it answers a next state, neither a fault nor a refusal. -/
def Completes (c : Instr) (s : State) : Prop := ∃ t, exec c s = .next t

/-- The parts of the state. `block b` is the registers whose Dispatcher address minus 0x0200_0000 lies in the 4 KiB block
`b` (R32, R34), a copy in force counted with its register (display pipes 2 and 3 count with block 0x14); `regs` is every
register. `planes` is bit-RAM with the state bits, `arr` what else the array holds; `memo` what the memories hold beside
their words; `log` Stationmaster's log. -/
inductive Zone where
  | regs
  | block (b : Nat)
  | arr | planes | trv | disp | cs | sp | sec | ddr | memo | jt | pcie | part | log | repair | sched | kernels | running | pwr
  | cpl | fab | sm | upd | streams | pipes | il | tkt | van | free | out
  deriving DecidableEq, Repr

/-- The block of a register key. -/
def blockOf (a : Nat) : Nat :=
  if a % 0x100000 / 0x1000 = 0x15 then 0x14 else a % 0x100000 / 0x1000

/-- Two states agree in a part. -/
def State.agree (f : Zone) (s t : State) : Prop :=
  match f with
  | .regs => True
  | .block b => ∀ a, blockOf a = b → t.reg a = s.reg a
  | .arr => t.arr = { s.arr with base := t.arr.base, planes := t.arr.planes }
  | .planes => t.arr.base = s.arr.base ∧ t.arr.planes = s.arr.planes
  | .trv => t.trv = s.trv
  | .disp => t.disp = s.disp
  | .cs => t.cs = s.cs
  | .sp => t.mem.sp = s.mem.sp ∧ t.mem.spBase = s.mem.spBase
  | .sec => t.mem.sec = s.mem.sec ∧ t.mem.secBase = s.mem.secBase
  | .ddr => t.mem.ddr = s.mem.ddr
  | .memo => t.mem = { s.mem with sp := t.mem.sp, spBase := t.mem.spBase, sec := t.mem.sec, secBase := t.mem.secBase, ddr := t.mem.ddr }
  | .jt => t.jt = s.jt
  | .pcie => t.pcie = s.pcie
  | .part => t.part = s.part
  | .log => t.log = s.log ∧ t.logSeq = s.logSeq
  | .repair => t.repair = s.repair
  | .sched => t.sched = s.sched
  | .kernels => t.kernels = s.kernels
  | .running => t.running = s.running
  | .pwr => t.pwr = s.pwr
  | .cpl => t.cpl = s.cpl
  | .fab => t.fab = s.fab
  | .sm => t.sm = s.sm
  | .upd => t.upd = s.upd
  | .streams => t.streams = s.streams
  | .pipes => t.pipes = s.pipes
  | .il => t.il = s.il
  | .tkt => t.tkt = s.tkt
  | .van => t.van = s.van
  | .free => t.free = s.free
  | .out => t.out = s.out

/-- The list names the part: a block also where it names all registers. -/
def Zone.inList (f : Zone) (fs : List Zone) : Bool :=
  match f with
  | .regs => true
  | .block b => fs.contains (.block b) || fs.contains .regs
  | f => fs.contains f

/-- From `s` to `t` nothing changes but the parts named, and the queue of waiting commands does not change. -/
def Only (fs : List Zone) (s t : State) : Prop :=
  (∀ f : Zone, f.inList fs = false → s.agree f t) ∧ t.pending = s.pending

/-- The command is performed: it answers a next state, in which nothing but the parts named has changed, and of which the
rest of the statement speaks. -/
def Does (c : Instr) (s : State) (fs : List Zone) (post : State → Prop) : Prop :=
  ∃ t, exec c s = .next t ∧ Only fs s t ∧ post t

/-- Outside the interrupt controller's block, no register changes but those listed. -/
def RegsBut (ks : List Nat) (s t : State) : Prop := ∀ a, a ∉ ks → blockOf a ≠ 1 → t.reg a = s.reg a

/-- Source `i` is pending at the Dispatcher (R474). -/
def State.pends (s : State) (i : Nat) : Bool := s.bit (icReg Reg.IC_PEND i) (i % 32)

/-- The canonical form of a plane of bit-RAM or of state bits. -/
def Arr.canonical (a : Arr) : Bool :=
  Store.wf (fun _ => []) a.planes && a.planes.all fun e => Store.wf (planeDefault a.base e.1) e.2

/-- Everything held by key has its one canonical form: registers, planes, scratchpad, secure region and LPDDR5. -/
def State.canonical (s : State) : Bool :=
  Store.wf bankDefault s.regs && s.arr.canonical && Store.wf (fun _ => s.mem.spBase) s.mem.sp &&
    Store.wf (fun _ => s.mem.secBase) s.mem.sec && Store.wf (fun _ => none) s.mem.ddr

end Sys2Proof.Machine
end

