-- ==== Sys2Proof/Terms.lean ====
section
/-! DEFINITION. Terms of the statements about the Dispatcher: when it stands still between two instructions, when an
instruction issues, and which rows of the table are scalar instructions. -/

namespace Sys2Proof.Machine

/-- The Dispatcher stands between two instructions with nothing on its way: it can issue, no earlier result is still to
become visible, no store pair, store error, hold, multiplication or division is in progress (R201, R206, R213, R214, R231). -/
def State.still (s : State) : Prop :=
  s.canIssue = true ∧ s.disp.wait = .none ∧ s.disp.late = noLate ∧ s.disp.pair = none ∧ s.disp.imprecise = none ∧
    s.disp.hold = none ∧ s.disp.mul = none ∧ s.disp.div = none

/-- Scalar opcode `opc` with operands `o` is a defined instruction whose decode entry is valid (R210, R249). -/
def State.defined (s : State) (opc : Nat) (o : SOp) : Prop := scalarDefined opc o = true ∧ s.decValid (4 * opc + o.mode) = true

/-- It issues and its condition holds (R209). -/
def State.ready (s : State) (opc : Nat) (o : SOp) : Prop := s.still ∧ s.defined opc o ∧ s.cond o.cond = true

/-- `s` after a scalar instruction that wrote `acc` and the flags `f`, with PC on the next one and all else as it was. -/
def State.scalarDone (s : State) (acc : Word) (f : Flags) : State :=
  { s with disp := { s.disp with acc := acc, pc := s.disp.pc + 4,
                                 psw := putBits s.disp.psw 3 0 (f.z.toNat + 2 * f.c.toNat + 4 * f.n.toNat + 8 * f.v.toNat) } }

/-- The Dispatcher has entered a trap of cause `cause` with TADDR `addr`, INFO `info` and return address `ret`: TCAUSE and
TADDR are written, the return address is pushed, PSW is saved in SPSW, PRIV = 1, IE, ASUSP and ASTEP are 0, PBNK is VBNK and PC
16 times the cause; the operand registers and the data stack are as they were (R222, R223). -/
def State.trapped (s t : State) (cause addr info : Nat) (ret : BitVec 52) : Prop :=
  t.disp.tcause = BitVec.ofNat 32 (info % 2 ^ 16 * 2 ^ 16 + cause) ∧ t.disp.taddr = BitVec.ofNat 52 addr ∧
    t.disp.rs = ret :: s.disp.rs ∧ t.disp.spsw = s.disp.psw ∧ t.psw 9 = true ∧ t.psw 8 = false ∧ t.psw 10 = false ∧
    bitsOf t.disp.psw 28 16 = 0 ∧ (∀ i, i < 8 → t.psw i = s.psw i) ∧ t.disp.pbnk = s.disp.vbnk ∧
    t.disp.pc = BitVec.ofNat 16 (16 * cause) ∧ t.disp.acc = s.disp.acc ∧ t.disp.ixa = s.disp.ixa ∧ t.disp.ixb = s.disp.ixb ∧
    t.disp.bnk = s.disp.bnk ∧ t.disp.prod = s.disp.prod ∧ t.disp.quo = s.disp.quo ∧ t.disp.rem = s.disp.rem ∧
    t.disp.fpctl = s.disp.fpctl ∧ t.disp.dsp = s.disp.dsp ∧ t.disp.ds = s.disp.ds ∧ t.disp.vbnk = s.disp.vbnk

/-- The opcode and operands of a scalar row. -/
def scalarOf : Instr → Option (Nat × SOp)
  | .nop o => some (0x00, o)
  | .ld o => some (0x01, o)
  | .st o => some (0x02, o)
  | .lui o => some (0x03, o)
  | .add o => some (0x04, o)
  | .sub o => some (0x05, o)
  | .and o => some (0x06, o)
  | .or o => some (0x07, o)
  | .xor o => some (0x08, o)
  | .shf o => some (0x09, o)
  | .cmp o => some (0x0A, o)
  | .tst o => some (0x0B, o)
  | .ix o => some (0x0C, o)
  | .bnk o => some (0x0D, o)
  | .mul o => some (0x0E, o)
  | .div o => some (0x0F, o)
  | .movxRead o => some (0x10, { o with sub := 0 })
  | .movxWrite o => some (0x10, { o with sub := 1 })
  | .stkPush o => some (0x11, { o with sub := if o.sub = 1 then 0 else o.sub })
  | .stkPop o => some (0x11, { o with sub := 1 })
  | .br o => some (0x12, o)
  | .call o => some (0x13, o)
  | .ret o => some (0x14, { o with sub := 0 })
  | .reti o => some (0x14, { o with sub := 1 })
  | .svc o => some (0x15, { o with sub := 0 })
  | .brk o => some (0x15, { o with sub := 1 })
  | .fps o => some (0x16, o)
  | .fph o => some (0x17, o)
  | .ei o => some (0x18, { o with sub := 0 })
  | .di o => some (0x18, { o with sub := 1 })
  | .wfi o => some (0x18, { o with sub := 2 })
  | .fence o => some (0x18, { o with sub := 3 })
  | .dsflush o => some (0x18, { o with sub := 4 })
  | .coproc u o => some (0x30 + u % 8, o)
  | _ => none

/-- The opcode and operands of a row of the array instructions. -/
def arrayOf : Instr → Option (Nat × AOp)
  | .flog o => some (0x20, o)
  | .fadd o => some (0x21, o)
  | .fsub o => some (0x22, o)
  | .fcmp o => some (0x23, o)
  | .fmul o => some (0x24, o)
  | .fminmax o => some (0x25, o)
  | .fshn o => some (0x26, o)
  | .flut o => some (0x27, o)
  | .fpop o => some (0x28, o)
  | .fsel o => some (0x29, o)
  | .fmaskMFromF o => some (0x2A, { o with sub := 0x0 })
  | .fmaskMAndF o => some (0x2A, { o with sub := 0x1 })
  | .fmaskMOrF o => some (0x2A, { o with sub := 0x2 })
  | .fmaskMFromBit o => some (0x2A, { o with sub := 0x3 })
  | .fmaskMAndBit o => some (0x2A, { o with sub := 0x4 })
  | .fmaskMSet o => some (0x2A, { o with sub := 0x5 })
  | .fmaskMFromValid o => some (0x2A, { o with sub := 0x6 })
  | .fmaskFFromBit o => some (0x2A, { o with sub := 0x7 })
  | .fmaskFClear o => some (0x2A, { o with sub := 0x8 })
  | .fmaskFInvert o => some (0x2A, { o with sub := 0x9 })
  | .fmaskBitFromF o => some (0x2A, { o with sub := 0xA })
  | .fmaskCClear o => some (0x2A, { o with sub := 0xB })
  | .fmaskCSet o => some (0x2A, { o with sub := 0xC })
  | .abandon o => some (0x2A, { o with sub := 0xF })
  | .fbit o => some (0x2B, o)
  | .fxfer o => some (0x2C, o)
  | .fsync o => some (0x2D, o)
  | _ => none

/-- An array instruction issues: the Dispatcher stands still, the decode entry is valid, the condition holds, and none of the
traps before the first bit-step applies (R105 to R107, R209). -/
def State.arrayReady (s : State) (opc : Nat) (o : AOp) : Prop :=
  s.still ∧ s.decValid (4 * opc + o.form) = true ∧ s.cond o.cond = true ∧
    s.arrayTrap opc o s.disp.acc s.firmware = none

/-- The bit of plane `a` at column `c` of row word `k`, as a read through the code gives it. -/
def State.peBit (s : State) (a k c : Nat) : Bool := (laneAt (s.readPlane a) k).getLsbD c

/-- The number that planes `a` to `a + n - 1` hold there, bit 0 in plane `a`. -/
def State.peField (s : State) (a n k c : Nat) : Nat :=
  ((List.range n).map fun i => (s.peBit (a + i) k c).toNat * 2 ^ i).sum

/-- No row word of plane `a` reads as uncorrectable (R66, R157). -/
def State.readable (s : State) (a : Nat) : Prop :=
  ∀ k, k < 2304 → ∀ r, (s.readPlane a)[k]? = some r → ∀ syn, r.stat ≠ .bad syn

/-- No column is substituted or shadowed and no mirror runs (R158, R164, R182). -/
def State.plainArray (s : State) : Prop :=
  (∀ p, p < 72 → (s.subOf p 0).1 = 0 ∧ (s.subOf p 1).1 = 0) ∧ s.bit Reg.MIRROR_CTL 12 = false

/-- The finite value that the bits `b` have in a floating-point format (R239); none for infinities and NaNs. -/
def fpValue (f : Fmt) (b : Nat) : Option ℚ :=
  let ex := b / 2 ^ f.mb % 2 ^ f.eb
  let frac := b % 2 ^ f.mb
  if ex = 2 ^ f.eb - 1 then none
  else some ((if b.testBit (f.eb + f.mb) then -1 else 1) * (if ex = 0 then (frac : ℚ) else (2 ^ f.mb + frac : Nat)) *
    (2 : ℚ) ^ (((if ex = 0 then 1 else ex) : Int) - biasOf f - f.mb))

/-- The bits are those of a NaN. -/
def fpNaN (f : Fmt) (b : Nat) : Prop := b / 2 ^ f.mb % 2 ^ f.eb = 2 ^ f.eb - 1 ∧ b % 2 ^ f.mb ≠ 0

/-- The Dispatcher has entered the interrupt handler (R223): the return address `ret` is pushed, SPSW holds the PSW `psw`,
PRIV = 1, IE, ASUSP and ASTEP are 0, PBNK is VBNK and PC 0x0100. -/
def State.interrupted (s t : State) (ret : BitVec 52) (psw : Word) : Prop :=
  t.disp.rs = ret :: s.disp.rs ∧ t.disp.spsw = psw ∧ t.psw 9 = true ∧ t.psw 8 = false ∧ t.psw 10 = false ∧
    bitsOf t.disp.psw 28 16 = 0 ∧ t.disp.pbnk = s.disp.vbnk ∧ t.disp.pc = 0x0100 ∧ t.disp.wait = .none

/-- A customer routine `m` is in progress and executes its next microword, which is not the 256th; the microword that follows
it lies in customer RAM too (R259, R267). -/
def State.inRoutine (s : State) (m : Micro) : Prop :=
  ({ s with disp := { s.disp with micro := none } }).still ∧ s.disp.micro = some m ∧ m.wdog < 255 ∧ m.t.length = 8 ∧
    0x3800 ≤ m.upc ∧ m.upc < 0x3FFF

/-- The routine goes on at `upc` with the microword counted; of the rest only the temporaries may differ. -/
def State.routineAt (t : State) (m m' : Micro) (upc : Nat) : Prop :=
  t.disp.micro = some m' ∧ m' = { m with upc := upc, wdog := m.wdog + 1, t := m'.t }

/-- From `s` to `t` micro-register `d` takes `v` (R256): read-only codes keep their value, IXA and IXB take 16 bits, FLG four;
no other micro-register but FLG changes. -/
def State.microWrote (s t : State) (m m' : Micro) (d : Nat) (v : Word) : Prop :=
  (∀ c, c < 16 → c ≠ d → c ≠ 7 → t.microGet m' c = s.microGet m c) ∧
    (d ≠ 7 → t.microGet m' d = match d with
      | 1 => BitVec.ofNat 32 (v.toNat % 2 ^ 16)
      | 2 => BitVec.ofNat 32 (v.toNat % 2 ^ 16)
      | 3 => s.microGet m 3
      | 4 => s.microGet m 4
      | 5 => s.microGet m 5
      | 6 => 0
      | _ => v)

/-! Stationmaster -/

/-- The command of mailbox `m` as Stationmaster takes it up (R488). -/
def State.request (s : State) (m : Nat) : Req := ⟨m, s.mbLength m, (List.range 15).map fun k => s.param m (k + 1)⟩

/-- Stationmaster runs, and the command queued in mailbox `m` has opcode `op` and its turn (R465, R488). -/
def State.turn (s : State) (m op : Nat) : Prop :=
  s.dispOn = true ∧ m < 4 ∧ s.mbState m = 1 ∧ s.mbOpcode m = op ∧ s.domainBusy m op = false

/-- It has its turn, and its SEQ is the one that its doorbell gave (R462). -/
def State.smReady (s : State) (m op : Nat) : Prop := s.turn m op ∧ s.mbSeq m = s.fld (mbReg Reg.MB_STAT m) 15 8

/-- In `t` the command of mailbox `m` is DONE with that status and the words `a` from A1 on, and source 8 + m fires (R461, R463). -/
def State.answered (s t : State) (m status : Nat) (a : List Word) : Prop :=
  t.mbState m = 3 ∧ t.fld (mbReg Reg.RSP0 m) 31 24 = status ∧ t.fld (mbReg Reg.RSP0 m) 23 16 = s.mbSeq m ∧
    t.fld (mbReg Reg.RSP0 m) 7 0 = 4 * a.length ∧ (∀ i w, a[i]? = some w → t.reg (mbReg Reg.RSP0 m + 4 * (i + 1)) = w) ∧
    t.pends (8 + m) = true ∧ m ∉ t.tkt.queue ∧ t.smWaits m = none

/-- It is DONE with a status and a reason word: code, and the number of the parameter word at fault (R494). -/
def State.failed (s t : State) (m status code w : Nat) : Prop :=
  s.answered t m status [BitVec.ofNat 32 (code * 2 ^ 16 + w * 2 ^ 8)]

/-- In `t` mailbox `m` is RUNNING and waits for `w`. -/
def State.waiting (t : State) (m : Nat) (w : SmWait) : Prop := t.mbState m = 2 ∧ t.smWaits m = some w

/-- Mailbox, opcode, mailboxes that may carry the command, and LENGTH of a command to Stationmaster (R486, R487, R495 to R523)
that `s` does not yet wait in, nor spells another form of. -/
def stationOf (s : State) : Instr → Option (Nat × Nat × List Nat × Nat)
  | .ident m => some (m, 0x01, [0, 1, 2, 3], 0)
  | .power m => match s.smWaits m with
    | some (.power _ 0 _ _ _) => none
    | _ => some (m, 0x02, [0, 1], 8)
  | .sceneLoad m _ _ => some (m, 0x10, [0, 1], 16)
  | .layerSet m => some (m, 0x11, [0, 1], 32)
  | .layerCommit m => some (m, 0x12, [0, 1], 4)
  | .telltaleMapSlot m => if bitsOf (s.param m 1) 3 0 = 0 then some (m, 0x20, [0, 1, 2], 20) else none
  | .telltaleMapCommit m => if bitsOf (s.param m 1) 3 0 = 1 then some (m, 0x20, [0, 1, 2], 4) else none
  | .telltaleMapArm m => if bitsOf (s.param m 1) 3 0 = 2 then some (m, 0x20, [0, 1, 2], 8) else none
  | .regionRefLoad m _ => some (m, 0x22, [0, 1, 2], 12)
  | .kernelLoad m _ => if (s.param m 1).getLsbD 8 then none else some (m, 0x30, [0, 1], 16)
  | .kernelUnload m => if (s.param m 1).getLsbD 8 then some (m, 0x30, [0, 1], 16) else none
  | .kernelRun m _ _ => match s.smWaits m with
    | some (.krun _ _ _ _ _) => none
    | _ => some (m, 0x31, [0, 1], 28)
  | .cameraConfig m => some (m, 0x40, [0, 1], 36)
  | .displayConfig m _ _ => if (s.param m 1).getLsbD 9 then none else some (m, 0x41, [0, 1], 44)
  | .displayConfigRetrain m => if (s.param m 1).getLsbD 9 then some (m, 0x41, [0, 1], 44) else none
  | .updateBegin m => some (m, 0x50, [0, 1], 12)
  | .updateChunk m _ => some (m, 0x51, [0, 1], 16)
  | .updateVerify m => some (m, 0x52, [0, 1], 0)
  | .updateActivate m => some (m, 0x53, [0, 1], 4)
  | .updateConfirm m => some (m, 0x54, [0, 1], 4)
  | .telemetryRead m _ => some (m, 0x60, [0, 1, 2, 3], 4)
  | .logRead m => some (m, 0x61, [0, 1, 2, 3], 4)
  | .couplerPair m => match s.smWaits m with
    | some (.pair _) => none
    | _ => if (s.param m 1).getLsbD 8 then none else some (m, 0x70, [0, 1], 8)
  | .couplerUnpair m => if (s.param m 1).getLsbD 8 then some (m, 0x70, [0, 1], 8) else none
  | .couplerSweep m => some (m, 0x71, [0, 1], 0)
  | .takeoverGrant m => if (s.param m 1).getLsbD 8 then none else some (m, 0x72, [2], 8)
  | .takeoverRevoke m => if (s.param m 1).getLsbD 8 then some (m, 0x72, [2], 8) else none
  | .metroRead m => some (m, 0x80, [0, 1, 2, 3], 8)
  | .fabricLoad m _ _ => some (m, 0x90, [0, 1], 16)
  | .fabricRelease m => some (m, 0x91, [0, 1], 0)
  | .fabricReadback m _ => some (m, 0x92, [0, 1, 2], 8)
  | .microcodeWrite m _ => some (m, 0xA1, [0, 1], 16)
  | _ => none

/-- The buffer of `len` bytes named by P`k` and P`k + 1` lies in host memory (R492), which holds `b` there. -/
def State.hostBuffer (s : State) (m k len unit : Nat) (host : Option (List Byte)) (b : List Byte) : Prop :=
  bitsOf (s.param m (k + 1)) 31 20 = 0 ∧
    (let a := (s.param m k).toNat + 2 ^ 32 * bitsOf (s.param m (k + 1)) 19 0
     a % 8 = 0 ∧ 2 ^ 51 ≤ a ∧ a + len ≤ 2 ^ 52) ∧
    len % unit = 0 ∧ 0 < len ∧ host = some b ∧ b.length = len

/-- From `s` to `t` Stationmaster keeps what it holds, but for its records of the displays and what mailbox `m` waits for. -/
def State.smKept (s t : State) (m : Nat) : Prop :=
  t.sm = { s.sm with disp := t.sm.disp, waits := t.sm.waits } ∧ ∀ n, n ≠ m → t.smWaits n = s.smWaits n

/-- And the record of display `p` is now `x`, the others are as they were. -/
def State.smShows (s t : State) (m p : Nat) (x : SmDisp) : Prop :=
  s.smKept t m ∧ t.smDisp p = x ∧ ∀ d, d ≠ p → t.smDisp d = s.smDisp d

/-- Command `c` of mailbox `m` is DONE with that reason code, its status and parameter word, and has no other effect (R490, R494). -/
def State.fails (s : State) (c : Instr) (m code w : Nat) : Prop :=
  Does c s [.block 0, .sm, .block 1, .out, .tkt] fun t =>
    s.failed t m (reasonStatus code) code w ∧ s.smKept t m ∧ t.sm.disp = s.sm.disp

/-- Command `c` to Stationmaster, taken up from a mailbox that may carry it and with its LENGTH: a parameter word with a bit
outside its mask ends it with reason RANGE and that word's number (R490), and else `P` holds. -/
def State.accepts (s : State) (c : Instr) (masks : List Nat) (P : Prop) : Prop :=
  ∀ m op boxes len, stationOf s c = some (m, op, boxes, len) → s.smReady m op → m ∈ boxes → s.mbLength m = len →
    match (s.request m).reserved masks with
    | some w => s.fails c m 3 w
    | none => P

/-! The Guard's van -/

/-- The van's log in `t` holds an entry of that SEQ, code, permanence, DETAIL and VALUE (R541). -/
def State.vanLogged (t : State) (seq code : Nat) (perm : Bool) (detail value : Nat) : Prop :=
  ∃ e ∈ t.van.log, e.2.seq = seq ∧ e.2.code = code ∧ e.2.perm = perm ∧ e.2.detail = detail % 2 ^ 16 ∧ e.2.value = value % 2 ^ 32

/-- Who sends a message to the van, its kind, its opcode and the bytes of its arguments (R538, R540, R544). -/
def vanOf : Instr → Option (VanSrc × Nat × Nat × Nat)
  | .gvIdent src => some (src, 1, 0x01, 0)
  | .log src => some (src, 1, 0x02, 1)
  | .tripReset src => some (src, 1, 0x03, 1)
  | .challenge src => some (src, 1, 0x04, 0)
  | .sealAuth src => some (src, 3, 0, 64)
  | .setK src => some (src, 4, 0x10, 2)
  | .setDisc src => some (src, 4, 0x11, 3)
  | .setTotal src => some (src, 4, 0x12, 4)
  | .setTime src => some (src, 4, 0x13, 4)
  | .setCan src => some (src, 4, 0x14, 4)
  | .keyPart src => some (src, 4, 0x15, 33)
  | .keyCommit src => some (src, 4, 0x16, 0)
  | .close src => some (src, 4, 0x17, 0)
  | _ => none

/-- The van is on, and the message `d` from `src` has that kind and opcode, and a length that suits `n` bytes of arguments, or
these padded to the next CAN FD length; `a` are the bytes after the opcode (R543, R544). A SEAL_AUTH has no opcode. -/
def State.vanGets (s : State) (src : VanSrc) (kind op n : Nat) (a : List Byte) : Prop :=
  s.van.alive = true ∧ ∃ d, s.vanMsg src = some (kind, d) ∧
    if kind = 3 then d = a ∧ a.length = n
    else d = BitVec.ofNat 8 op :: a ∧ (d.length = n + 1 ∨ d.length = canLen (n + 1))

/-- From `s` to `t` the van has answered `src` with an opcode, a result and data (R543, R544, R548): on the bus, or in the window
of the bridge with DONE and source 110. -/
def State.vanAnswers (s t : State) (src : VanSrc) (op result : Nat) (data : List Byte) : Prop :=
  let bs := canPad (BitVec.ofNat 8 op :: BitVec.ofNat 8 result :: data)
  match src with
  | .can _ _ => t.out = s.out ++ [Out.can (s.van.cfg.can.2.2 + 2) bs]
  | .window => t.bit Reg.GV_SMC_STAT 31 = false ∧ t.bit Reg.GV_SMC_STAT 30 = true ∧ t.fld Reg.GV_SMC_STAT 6 0 = bs.length ∧
      t.van.smc = none ∧ t.pends 110 = true ∧
      ∀ w, w < 16 → t.reg (Reg.GV_SMR_DATA + 4 * w) = BitVec.ofNat 32 (leNat ((bs.drop (4 * w)).take 4))

/-- The van is `v` but for its quiet mode and the message in the window. -/
def State.vanBecomes (t : State) (v : Van) : Prop := { t.van with quiet := v.quiet, smc := v.smc } = v

/-! The Coupler -/

/-- The port at which a frame arrives, its type, and the frame (R555). -/
def cplOf : Instr → Option (Nat × Nat × CplFrame)
  | .hello p f => some (p, 1, f)
  | .heartbeat p f => some (p, 2, f)
  | .req p f _ => some (p, 3, f)
  | .rsp p f => some (p, 4, f)
  | .mirror p f => some (p, 5, f)
  | .commit p f => some (p, 6, f)
  | .probe p f _ => some (p, 7, f)
  | .echo p f _ => some (p, 8, f)
  | .mark p f _ => some (p, 9, f)
  | .align p f => some (p, 0xA, f)
  | _ => none

/-- A frame of type `ty` has the payload that R555 allows it. -/
def cplSized (ty : Nat) (f : CplFrame) : Prop :=
  match ty with
  | 1 => f.ws.length = 3
  | 3 => f.ws.length = if f.arg.getLsbD 31 then 1 else 0
  | 5 => 1 ≤ f.ws.length ∧ f.ws.length ≤ 32 ∧ bitsOf f.arg 7 0 = 0
  | 7 => f.ws = []
  | 9 => f.ws = []
  | _ => f.ws.length = 1

/-- From `s` to `t` port `p` has sent one frame of its own (R554). -/
def State.cplSends (s t : State) (p ty : Nat) (arg : Word) (ws : List Word64) : Prop :=
  t.out = s.out ++ [Out.cpl p ty (s.cplPort p).seq arg ws] ∧ (t.cplPort p).seq = ((s.cplPort p).seq + 1) % 256

/-- PAIRED and DEGRADED of CPL_STAT are what the ports give (R562, R575). -/
def State.cplShown (t : State) : Prop :=
  (t.bit Reg.CPL_STAT 3 = true ↔ (∃ p, p < 2 ∧ t.bit Reg.CPL_CTL p = true) ∧
    ∀ p, p < 2 → t.bit Reg.CPL_CTL p = true → t.cplState p = 3) ∧
  (t.bit Reg.CPL_STAT 4 = true ↔ ∃ p, p < 2 ∧ t.bit Reg.CPL_CTL p = true ∧ t.cplState p ≠ 3)

/-- From `s` to `t` the generation that was arriving is discarded (R566). -/
def State.rxDiscarded (s t : State) : Prop :=
  t.cpl.rx = none ∧ t.pends 99 = true ∧
    (t.reg Reg.CPL_DISCARD_CNT).toNat = min ((s.reg Reg.CPL_DISCARD_CNT).toNat + 1) (2 ^ 32 - 1)

/-- In `t` the sweep `w` has broken: its command is DONE with FAULT, reason CHAIN and the hop in A2 (R574). -/
def State.sweepBroken (t : State) (w : Sweep) : Prop :=
  t.cpl.sweep = none ∧ (w.mb < 4 → t.mbState w.mb = 3 ∧ t.fld (mbReg Reg.RSP0 w.mb) 31 24 = 8 ∧
    t.reg (mbReg Reg.RSP0 w.mb + 4) = BitVec.ofNat 32 (0x14 * 2 ^ 16) ∧
    t.reg (mbReg Reg.RSP0 w.mb + 8) = BitVec.ofNat 32 w.h ∧ t.pends (8 + w.mb) = true)

/-- From `s` to `t` port `p` enters state `n` and the other port keeps its own (R557, R562, R566, R574): source 96 where PAIRED is
entered or left; where port 0 leaves it, a generation that was arriving is discarded, and where port 1 does, none is being
sent any more and a sweep breaks. -/
def State.cplMoves (s t : State) (p n : Nat) : Prop :=
  t.cplState p = n ∧ (∀ q, q < 2 → q ≠ p → t.cplState q = s.cplState q) ∧ t.cplShown ∧
    (s.cplState p ≠ n → s.cplState p = 3 ∨ n = 3 → t.pends 96 = true) ∧
    (s.cplState p = 3 → n ≠ 3 →
      (p = 0 → s.cpl.rx.isSome = true → s.rxDiscarded t) ∧
      (p = 1 → t.cpl.tx = none ∧ t.bit Reg.CPL_TX_CTL 31 = false ∧ ∀ w, s.cpl.sweep = some w → t.sweepBroken w))

end Sys2Proof.Machine
end

