-- ==== Sys2Proof/Certificates/Slice0/Obligations.lean ====
section
/-! DEFINITION. The statements for the provers. Each says what the numbered rules of spec/ say that the commands of one family
do: the state in which a command completes, what it leaves there, and what it leaves as it was. -/

open Sys2Proof Sys2Proof.Machine

/-- The step of a block: the command at the front of the queue takes effect on the state with the rest of the queue. The queue
is the model's own (log entry 1). With an empty queue the block idles: the model's choice (log entry 1). -/
def Obligations.StepTakesTheFirstCommandOrIdles : Prop :=
  (∀ (c : Instr) (rest : List Instr) (s : State),
    s.pending = c :: rest → step s = exec c { s with pending := rest }) ∧
  (∀ s : State, s.pending = [] → step s = .next s)

/-- No command ends in a fault or a refusal of the model. -/
def Obligations.EveryCommandAnswersANextState : Prop :=
  ∀ (c : Instr) (s : State), Completes c s

/-- A command changes neither the queue nor what was sent before it (log entry 1). -/
def Obligations.ExecLeavesTheQueueAndOnlyAddsOutputs : Prop :=
  ∀ (c : Instr) (s t : State), exec c s = .next t → t.pending = s.pending ∧ s.out <+: t.out

/-- The invariant of `StepKeepsTheCanonicalForm` holds right after reset. -/
def Obligations.ResetIsCanonical : Prop := State.reset.canonical = true

/-- The canonical form is an invariant of the step, from every state: equal contents stay equal data whatever commands ran. -/
def Obligations.StepKeepsTheCanonicalForm : Prop :=
  ∀ s t : State, s.canonical = true → step s = .next t → t.canonical = true

/-- The Dispatcher as R200 leaves it. -/
def Obligations.ResetStateOfTheDispatcher : Prop :=
  let d := State.reset.disp
  d.acc = 0 ∧ d.ixa = 0 ∧ d.ixb = 0 ∧ d.bnk = 0 ∧ (∀ i, State.reset.psw i = decide (i = 9)) ∧ d.spsw = 0 ∧ d.prod = 0 ∧
    d.quo = 0 ∧ d.rem = 0 ∧ d.fpctl = 0 ∧ d.dsp = 0 ∧ d.dsBase = 0 ∧ d.dsLimit = 0 ∧ d.ds = [] ∧ d.rs = [] ∧ d.tcause = 0 ∧
    d.taddr = 0 ∧ d.vbnk = 0 ∧ d.pbnk = 0x2F0 ∧ d.pc = 0 ∧ State.reset.pending = []

/-- The three deliveries (R78 to R82): each takes the oldest snapshot that lacks its result. ACK_TIMEOUT (R85, R91) and the latched read of the bit-step count (R93). -/
def Obligations.SignalBoxAcknowledgementsAndBitStepCount : Prop :=
  (∀ (s : State) (before rest : List Snap) (n : Snap), s.arr.snaps = before ++ n :: rest →
    ((∀ m ∈ before, m.orD = true) → n.orD = false →
      Does .sbOrDelivered s [.block 3, .arr, .disp, .block 1, .out] fun t =>
        t.fld Reg.SB_OR 31 24 = n.num % 256 ∧ t.bit Reg.SB_OR 0 = n.orv ∧ t.psw 4 = n.orv ∧
        (∀ i, i ≠ 4 → t.psw i = s.psw i) ∧ t.disp = { s.disp with psw := t.disp.psw } ∧
        RegsBut [Reg.SB_OR, Reg.SB_SEQ] s t ∧ t.fld Reg.SB_SEQ 7 0 = s.fld Reg.SB_SEQ 7 0 ∧
        (s.fld Reg.SB_IRQ_CFG 1 0 = 3 ∨ (s.fld Reg.SB_IRQ_CFG 1 0 = 1 ∧ n.orv = true) ∨
          (s.fld Reg.SB_IRQ_CFG 1 0 = 2 ∧ n.orv = false) → t.pends 64 = true) ∧
        ({ n with orD := true } ∈ t.arr.snaps ∨ (n.firstD = true ∧ n.countD = true))) ∧
    ((∀ m ∈ before, m.firstD = true) → n.firstD = false →
      Does .sbFirstDelivered s [.block 3, .arr] fun t =>
        t.fld Reg.SB_FIRST 31 24 = n.num % 256 ∧ t.bit Reg.SB_FIRST 23 = n.found ∧ t.fld Reg.SB_FIRST 16 8 = n.x % 512 ∧
        t.fld Reg.SB_FIRST 7 0 = n.y % 256 ∧ RegsBut [Reg.SB_FIRST, Reg.SB_SEQ] s t ∧
        t.fld Reg.SB_SEQ 7 0 = s.fld Reg.SB_SEQ 7 0 ∧
        ({ n with firstD := true } ∈ t.arr.snaps ∨ (n.orD = true ∧ n.countD = true))) ∧
    ((∀ m ∈ before, m.countD = true) → n.countD = false →
      Does .sbCountDelivered s [.block 3, .arr] fun t =>
        t.fld Reg.SB_COUNT 31 24 = n.num % 256 ∧ t.fld Reg.SB_COUNT 17 0 = n.count % 2 ^ 18 ∧
        RegsBut [Reg.SB_COUNT, Reg.SB_SEQ] s t ∧ t.fld Reg.SB_SEQ 7 0 = s.fld Reg.SB_SEQ 7 0 ∧
        ({ n with countD := true } ∈ t.arr.snaps ∨ (n.orD = true ∧ n.firstD = true)))) ∧
  (∀ (s : State),
    (∀ p, p < 128 → Does (.ackTimeout p) s [.block 1, .out, .block 16, .arr] fun t =>
      t.bit Reg.ARR_ERR_STAT 3 = true ∧ t.pends 67 = true ∧ (∀ q, q ∈ t.arr.silent ↔ q = p ∨ q ∈ s.arr.silent) ∧
      (s.bit Reg.ARR_ERR_STAT 0 = false → s.bit Reg.ARR_ERR_STAT 3 = false → t.fld Reg.ARR_ERR_STAT 20 14 = p ∧
        t.bit Reg.ARR_ERR_STAT 1 = s.bit Reg.ARR_ERR_STAT 1) ∧
      (s.bit Reg.ARR_ERR_STAT 0 = true ∨ s.bit Reg.ARR_ERR_STAT 3 = true → t.bit Reg.ARR_ERR_STAT 1 = true ∧
        t.fld Reg.ARR_ERR_STAT 20 14 = s.fld Reg.ARR_ERR_STAT 20 14 ∧ t.fld Reg.ARR_ERR_STAT 25 21 = s.fld Reg.ARR_ERR_STAT 25 21) ∧
      t.arr = { s.arr with silent := t.arr.silent } ∧ RegsBut [Reg.ARR_ERR_STAT] s t) ∧
    Does .arrBscntLoRead s [.block 16] fun t =>
      (t.reg Reg.ARR_BSCNT_LO).toNat = s.arr.bscnt % 2 ^ 32 ∧ (t.reg Reg.ARR_BSCNT_HI).toNat = s.arr.bscnt / 2 ^ 32 % 2 ^ 32 ∧
      RegsBut [Reg.ARR_BSCNT_LO, Reg.ARR_BSCNT_HI] s t)

/-- PROW_MAP_WRITE and MAP_APPLIED (R48, R50). `Reg.act` is the copy in force. -/
def Obligations.PlatformMapWrites : Prop :=
  ∀ (s : State) (n : Nat) (v : Word) (executing : Bool), n < 8 →
    let r := Reg.PROW_MAP + 4 * n
    let g0 := bitsOf v 3 0
    let g1 := bitsOf v 7 4
    let refused := 8 < g0 ∨ (g1 ≠ 15 ∧ 8 < g1) ∨ g1 = g0
    let zones : List Zone := [.block 16, .trv, .arr, .block 1, .out]
    let applied := fun (w : Nat) (t : State) => (t.reg r).toNat = w ∧ (t.reg (Reg.act r)).toNat = w ∧ t.pends 66 = true ∧
      (∀ p, p ∈ t.arr.silent ↔ p ∈ s.arr.silent ∧ ¬ (p / 9 = n ∧ t.isGap n (p % 9) = true)) ∧
      t.arr = { s.arr with silent := t.arr.silent } ∧ RegsBut [r, Reg.act r, Reg.MIRROR_CTL] s t
    (refused → Does (.prowMapWrite n v executing) s [.block 16] fun t =>
      t.bit Reg.ARR_ERR_STAT 4 = true ∧ RegsBut [Reg.ARR_ERR_STAT] s t) ∧
    (¬ refused → executing = true ∨ s.arr.busy = true → Does (.prowMapWrite n v executing) s [.block 16] fun t =>
      t.fld r 3 0 = g0 ∧ t.fld r 7 4 = g1 ∧ t.bit r 8 = true ∧ RegsBut [r] s t) ∧
    (¬ refused → executing = false → s.arr.busy = false →
      Does (.prowMapWrite n v executing) s zones (applied (16 * g1 + g0))) ∧
    (s.bit r 8 = true → Does (.mapApplied n) s zones (applied (s.fld r 7 0))) ∧
    (s.bit r 8 = false → exec (.mapApplied n) s = .next s)

/-- The bit-step (R54 to R60): all reads before all writes, M gating every update but its own, and the count of R93. -/
def Obligations.BitStepComputesInEveryPe : Prop :=
  ∀ (s : State) (w : Word64) (firmware : Bool),
    let d := descOf w
    let yp := match d.sy with | 0 => d.rb | 1 => planeN | 2 => planeC | _ => planeF
    (firmware = true ∨ d.reserved = false) → s.plainArray → d.ws = false → d.ns ≤ 1 →
    s.readable planeC → s.readable planeM → s.readable planeF → s.readable planeN → s.readable d.ra → s.readable yp →
    (d.we = true → s.readable d.wa) →
    Does (.bitStep w firmware) s [.free, .planes, .arr, .block 16, .block 8, .block 1, .out, .block 3, .disp] fun t =>
      t.arr.bscnt = (s.arr.bscnt + 1) % 2 ^ 64 ∧
      t.fld Reg.SB_SEQ 7 0 = (s.fld Reg.SB_SEQ 7 0 + if d.snap then 1 else 0) % 256 ∧
      (d.snap = false ∨ s.arr.snaps.length < 4 → t.disp = s.disp) ∧
      (∀ a, ¬ ((d.we = true ∧ a = d.wa) ∨ (d.cs ≠ 0 ∧ a = planeC) ∨ (d.ns ≠ 0 ∧ a = planeN) ∨ (d.fs ≠ 0 ∧ a = planeF) ∨
          (d.mw ≠ 0 ∧ a = planeM)) →
        Store.get (fun _ => []) t.arr.planes a = Store.get (fun _ => []) s.arr.planes a) ∧
      ∀ k c, k < 2304 → c < 64 → s.executes (k / 32) = true →
        let x := s.peBit d.ra k c
        let y := (s.peBit yp k c) ^^ d.iy
        let z := match d.sz with | 0 => s.peBit planeC k c | 1 => s.peBit planeN k c | 2 => false | _ => true
        let p := d.tt.testBit (4 * x.toNat + 2 * y.toNat + z.toNat)
        let m := s.peBit planeM k c
        (d.we = true → t.peBit d.wa k c = if m then p else s.peBit d.wa k c) ∧
        (d.cs ≠ 0 → t.peBit planeC k c = if m then (match d.cs with | 1 => p | 2 => (x && y) || (x && z) || (y && z) | _ => false)
          else s.peBit planeC k c) ∧
        (d.ns = 1 → t.peBit planeN k c = if m then p else s.peBit planeN k c) ∧
        (d.fs ≠ 0 → t.peBit planeF k c = if m then (match d.fs with | 1 => p | 2 => s.peBit planeF k c || p | _ => s.peBit planeF k c && p)
          else s.peBit planeF k c) ∧
        (d.mw ≠ 0 → t.peBit planeM k c = match d.mw with | 1 => p | 2 => m && p | _ => m || p)

/-- The check of R62. -/
def Obligations.BitStepAtApplicationPrivilege : Prop :=
  ∀ (s : State) (w : Word64), s.disp.rs.length < 16 → s.disp.late = noLate → s.disp.imprecise = none →
    let d := descOf w
    (1008 ≤ d.ra ∨ (d.sy = 0 ∧ 1008 ≤ d.rb) ∨ (d.we = true ∧ 1008 ≤ d.wa)) →
    Does (.bitStep w false) s [.disp, .block 17, .sched, .kernels, .running, .log, .free] fun t =>
      s.trapped t 3 s.here.toNat 0 s.here

/-- The bit-step counts of R114, the snapshot of R112 and the planes an instruction may change (R110). -/
def Obligations.ArrayInstructionsRunToTheirEnd : Prop :=
  ∀ (c : Instr) (opc : Nat) (o : AOp) (s : State), arrayOf c = some (opc, o) → opc < 0x2B → s.arrayReady opc o →
    s.arr.snaps.length < 4 → (s.arr.suspended = false ∨ (opc = 0x2A ∧ o.sub = 0xF)) →
    let n := o.wm1 + 1
    let w := Nat.clog 2 (n + 1)
    let sg := if o.sgn = 0 then 0 else 1
    let extra := fun m : Nat => if o.fm = 0 then 0 else if o.fm = 3 then m + 2 else m
    let times := match opc with
      | 0x20 => n + (if o.fm = 3 then 2 else 0)
      | 0x21 => n + 1 + sg + (if o.sat = 0 then 0 else n)
      | 0x22 => n + 1 + sg + (if o.sat = 0 then 0 else n)
      | 0x23 => if o.sub ≤ 1 then n else n + 1
      | 0x24 => (if o.sgn = 0 then n ^ 2 + 2 * n + 2 else n ^ 2 + 4 * n + 6) + extra n
      | 0x25 => 2 * n + 1
      | 0x26 => (if o.sub ≤ 3 then o.aux * n else 2 * n) + extra n
      | 0x27 => 2 ^ o.aux * (2 * o.aux + 3 * n) + extra n
      | 0x28 => w * (n + 1) + extra w
      | 0x29 => n + 1 + (if o.fm = 3 then 2 else 0)
      | _ => if o.sub = 0xF then 9 else 1
    let width := match opc with
      | 0x21 => n + 1
      | 0x22 => n + 1
      | 0x23 => 0
      | 0x24 => 2 * n
      | 0x28 => w
      | 0x2A => if o.sub = 0xA then 1 else 0
      | _ => n
    let spare := fun a : Nat => (a = 1012 ∧ o.fm = 3) ∨ (a = 1013 ∧ opc = 0x24) ∨ (a = 1015 ∧ opc = 0x27) ∨
      (opc = 0x2A ∧ o.sub = 0xF ∧ 1008 ≤ a ∧ a ≤ 1015)
    Does c s [.disp, .free, .planes, .arr, .block 16, .block 8, .block 1, .out, .block 3] fun t =>
      t.arr.bscnt = (s.arr.bscnt + times) % 2 ^ 64 ∧ t.fld Reg.SB_SEQ 7 0 = (s.fld Reg.SB_SEQ 7 0 + 1) % 256 ∧
      (∃ x, t.arr.snaps = s.arr.snaps ++ [x] ∧ x.num = t.fld Reg.SB_SEQ 7 0 ∧ x.orD = false) ∧
      t.disp = { s.disp with pc := s.disp.pc + 8, hold := some (t.fld Reg.SB_SEQ 7 0, 2) } ∧
      ∀ a, a < 1024 → (a < o.fd ∨ o.fd + width ≤ a) → ¬ spare a →
        Store.get (fun _ => []) t.arr.planes a = Store.get (fun _ => []) s.arr.planes a

/-- What every PE computes (R115 to R121, R124), with cond, C and F (R113, R114). -/
def Obligations.FieldOperationsComputeInEveryPe : Prop :=
  ∀ (c : Instr) (opc : Nat) (o : AOp) (s : State), arrayOf c = some (opc, o) →
    (opc ≤ 0x25 ∨ opc = 0x28 ∨ opc = 0x29) → s.arrayReady opc o → s.arr.suspended = false → s.plainArray →
    let n := o.wm1 + 1
    let w := Nat.clog 2 (n + 1)
    let width := match opc with | 0x21 => n + 1 | 0x22 => n + 1 | 0x23 => 0 | 0x24 => 2 * n | 0x28 => w | _ => n
    (∀ i, i < n → s.readable (o.fa + i) ∧ (o.form = 0 → opc ≠ 0x28 → s.readable (o.fb + i))) →
    (∀ i, i < width → s.readable (o.fd + i)) → (width ≠ 0 → o.fd + width ≤ 1008) →
    s.readable planeC → s.readable planeM → s.readable planeF → s.readable planeN →
    ∃ t, exec c s = .next t ∧
    (∀ p, p = planeM ∨ p = planeN ∨ (p = planeC ∧ opc = 0x20) ∨ (p = planeF ∧ o.fm = 0 ∧ opc ≠ 0x23) →
      Store.get (fun _ => []) t.arr.planes p = Store.get (fun _ => []) s.arr.planes p) ∧
    ∀ k col, k < 2304 → col < 64 → s.executes (k / 32) = true →
      let active := s.peBit planeM k col
      let a := s.peField o.fa n k col
      let b := if o.form = 1 then s.disp.acc.toNat % 2 ^ n else s.peField o.fb n k col
      let f := s.peBit planeF k col
      let ci : Int := (s.peBit planeC k col).toNat
      let x : Int := if o.sgn ≠ 0 ∧ a.testBit (n - 1) then (a : Int) - 2 ^ n else a
      let y : Int := if o.sgn ≠ 0 ∧ b.testBit (n - 1) then (b : Int) - 2 ^ n else b
      let sum : Int := match opc, o.sub with
        | 0x21, 0 => x + y
        | 0x21, _ => x + y + ci
        | _, 0 => x - y
        | _, 1 => y - x
        | _, _ => x - y - ci
      let raw := (sum % 2 ^ (n + 1)).toNat
      let carry := if o.sgn = 0 then raw.testBit n else raw.testBit n != raw.testBit (n - 1)
      let satd := if o.sat = 0 ∨ carry = false then raw
        else if o.sgn = 0 then (if opc = 0x21 then 2 ^ (n + 1) - 1 else 2 ^ n)
        else if raw.testBit n then 2 ^ n + 2 ^ (n - 1) else 2 ^ (n - 1) - 1
      let rel := match o.sub with
        | 0 => decide (x = y) | 1 => decide (x ≠ y) | 2 => decide (x < y) | 3 => decide (y ≤ x) | 4 => decide (x ≤ y) | _ => decide (y < x)
      let takeB := if o.sub = 0 then decide (y < x) else decide (x < y)
      let prod := (x * y % 2 ^ (2 * n)).toNat
      let d := match opc with
        | 0x20 => ((List.range n).map fun i => (o.sub.testBit (2 * (a.testBit i).toNat + (b.testBit i).toNat)).toNat * 2 ^ i).sum
        | 0x21 => satd | 0x22 => satd | 0x23 => 0 | 0x24 => prod
        | 0x25 => if takeB then b else a
        | 0x28 => (List.range n).countP fun i => a.testBit i
        | _ => if f then a else b
      let cond := match opc with
        | 0x21 => carry | 0x22 => carry | 0x23 => rel
        | 0x24 => if o.sgn = 0 then decide (2 ^ n ≤ prod) else decide (¬ (-(2 : Int) ^ (n - 1) ≤ x * y ∧ x * y < 2 ^ (n - 1)))
        | 0x25 => takeB
        | _ => decide (d ≠ 0)
      let fm := if opc = 0x23 ∧ o.fm = 0 then 1 else o.fm
      (width ≠ 0 → t.peField o.fd width k col = if active then d else s.peField o.fd width k col) ∧
      (fm ≠ 0 → t.peBit planeF k col = if active then (match fm with | 1 => cond | 2 => f || cond | _ => f && cond) else f) ∧
      (opc ≠ 0x20 → active = false → t.peBit planeC k col = s.peBit planeC k col) ∧
      (opc ≠ 0x20 → opc ≠ 0x24 → opc ≠ 0x28 → active = true →
        t.peBit planeC k col = match opc with | 0x29 => f | 0x23 => rel | 0x25 => takeB | _ => carry)

/-- FMASK (R125): the sub-operations 0x0 to 0xC. -/
def Obligations.MaskInstructions : Prop :=
  ∀ (c : Instr) (o : AOp) (s : State), arrayOf c = some (0x2A, o) → o.sub ≠ 0xF → s.arrayReady 0x2A o → s.arr.suspended = false →
    s.plainArray → s.readable planeC → s.readable planeM → s.readable planeF → s.readable planeN →
    (o.sub = 3 ∨ o.sub = 4 ∨ o.sub = 7 → s.readable o.fa) → (o.sub = 6 → s.readable 1016) → (o.sub = 0xA → s.readable o.fd) →
    ∃ t, exec c s = .next t ∧
      (∀ a, ¬ ((o.sub ≤ 6 ∧ a = planeM) ∨ (7 ≤ o.sub ∧ o.sub ≤ 9 ∧ a = planeF) ∨ (o.sub = 0xA ∧ a = o.fd) ∨ (0xB ≤ o.sub ∧ a = planeC)) →
        Store.get (fun _ => []) t.arr.planes a = Store.get (fun _ => []) s.arr.planes a) ∧
      ∀ k col, k < 2304 → col < 64 → s.executes (k / 32) = true →
        let m := s.peBit planeM k col
        let f := s.peBit planeF k col
        match o.sub with
        | 0x0 => t.peBit planeM k col = f
        | 0x1 => t.peBit planeM k col = (m && f)
        | 0x2 => t.peBit planeM k col = (m || f)
        | 0x3 => t.peBit planeM k col = s.peBit o.fa k col
        | 0x4 => t.peBit planeM k col = (m && s.peBit o.fa k col)
        | 0x5 => t.peBit planeM k col = true
        | 0x6 => t.peBit planeM k col = s.peBit 1016 k col
        | 0x7 => t.peBit planeF k col = if m then s.peBit o.fa k col else f
        | 0x8 => t.peBit planeF k col = if m then false else f
        | 0x9 => t.peBit planeF k col = if m then !f else f
        | 0xA => t.peBit o.fd k col = if m then f else s.peBit o.fd k col
        | 0xB => t.peBit planeC k col = if m then false else s.peBit planeC k col
        | _ => t.peBit planeC k col = if m then true else s.peBit planeC k col

/-- FXFER and FSYNC (R128, R129, R139). -/
def Obligations.TransfersAreHeldAndAwaited : Prop :=
  ∀ (s : State) (o : AOp),
    (s.arrayReady 0x2C o → s.trv.held.length < 4 → Does (.fxfer o) s [.disp, .trv, .sp, .memo, .block 8, .block 1, .out, .free] fun t =>
      (∃ x, t.trv.held = s.trv.held ++ [x]) ∧ t.trv.active = s.trv.active ∧ t.disp = { s.disp with pc := s.disp.pc + 8 }) ∧
    (s.arrayReady 0x2C o → 4 ≤ s.trv.held.length → Does (.fxfer o) s [.disp] fun t => t.disp = { s.disp with wait := .fxfer }) ∧
    (s.arrayReady 0x2D o → Does (.fsync o) s [.disp] fun t =>
      t.disp = if ∃ x ∈ s.trv.held, x.tag = o.aux then { s.disp with wait := .fsync o.aux } else { s.disp with pc := s.disp.pc + 8 })

/-- FBIT (R126). -/
def Obligations.BitStepRepetitions : Prop :=
  ∀ (s : State) (o : AOp), s.arrayReady 0x2B o → s.arr.suspended = false → o.fa < 1024 → o.fb < 1024 → o.fd < 1024 →
    let n := o.wm1 + 1
    let ns := bitsOf s.disp.acc 19 17
    Does (.fbit o) s [.disp, .free, .planes, .arr, .block 16, .block 8, .block 1, .out, .block 3] fun t =>
      t.arr.bscnt = (s.arr.bscnt + (if 6 ≤ ns then 2 * n else n)) % 2 ^ 64 ∧ t.disp.pc = s.disp.pc + 8 ∧
      (s.disp.acc.getLsbD 24 = false → t.fld Reg.SB_SEQ 7 0 = (s.fld Reg.SB_SEQ 7 0 + 1) % 256) ∧
      ∀ a, a < 1024 → (s.disp.acc.getLsbD 13 = false ∨ ¬ ∃ i, i < n ∧ a = (o.fd + if o.aux.testBit 2 then i else 0) % 1024) →
        Store.get (fun _ => []) t.arr.planes a = Store.get (fun _ => []) s.arr.planes a

/-- TRANSFER_START, TRANSFER_DONE and TRV_ABORT (R129, R135, R141 to R145). -/
def Obligations.TraverserTransfers : Prop :=
  ∀ (s : State) (x : Xfer) (rest : List Xfer), s.trv.held = x :: rest →
    (∀ tag, s.disp.wait ≠ .fxfer ∧ s.disp.wait ≠ .fsync tag) →
    (s.trv.active = false → x.ok = true → exec .transferStart s = .next { s with trv := { s.trv with active := true } }) ∧
    (s.trv.active = false → x.ok = false → Does .transferStart s [.trv, .block 1, .out, .block 16] fun t =>
      t.trv = ⟨rest, false⟩ ∧ t.bit Reg.TRV_DONE x.tag = true ∧ t.pends 69 = true ∧
      (s.bit Reg.TRV_ERR 15 = false → t.bit Reg.TRV_ERR 15 = true ∧ t.fld Reg.TRV_ERR 6 4 = 1 ∧ t.fld Reg.TRV_ERR 3 0 = x.tag ∧
        t.reg Reg.TRV_ERR_WORD = 0) ∧
      (s.bit Reg.TRV_ERR 15 = true → t.bit Reg.TRV_ERR 16 = true ∧ t.fld Reg.TRV_ERR 15 0 = s.fld Reg.TRV_ERR 15 0) ∧
      RegsBut [Reg.TRV_DONE, Reg.TRV_ERR, Reg.TRV_ERR_WORD] s t) ∧
    (∀ met, s.trv.active = true → (∀ p, p < 4 → s.fence p = 0) → ∃ t, exec (.transferDone met) s = .next t ∧
      t.trv.active = false ∧ (t.trv.held = rest ∨ ∃ y, t.trv.held = rest ++ [y]) ∧ t.bit Reg.TRV_DONE x.tag = true ∧
      (t.bit Reg.TRV_IRQ_EN x.tag = true → t.pends 68 = true)) ∧
    Does .trvAbort s [.free, .planes, .trv, .block 1, .out, .block 16] fun t =>
      t.trv = ⟨[], false⟩ ∧ (∀ y ∈ s.trv.held, t.bit Reg.TRV_DONE y.tag = true) ∧ t.pends 69 = true ∧
      (s.bit Reg.TRV_ERR 15 = false → t.bit Reg.TRV_ERR 15 = true ∧ t.fld Reg.TRV_ERR 6 4 = 5 ∧ t.fld Reg.TRV_ERR 3 0 = x.tag) ∧
      RegsBut [Reg.TRV_DONE, Reg.TRV_ERR, Reg.TRV_ERR_WORD] s t

/-- UNDEFINED_OPCODE (R106, R107, R210). -/
def Obligations.UndefinedOpcodes : Prop :=
  ∀ (s : State) (opc : Nat) (o : SOp), s.still → s.disp.rs.length < 16 →
    let zones : List Zone := [.disp, .block 17, .sched, .kernels, .running, .log, .free]
    (opc = 0x2E ∨ opc = 0x2F ∨ (opc < 0x20 ∧ scalarDefined opc o = false) →
      Does (.undefinedOpcode opc o) s zones fun t => s.trapped t 2 s.here.toNat 0 s.here) ∧
    (opc = 0x2A → o.sub = 0xD ∨ o.sub = 0xE →
      Does (.undefinedOpcode opc o) s zones fun t => s.trapped t 5 s.here.toNat 0 s.here)

/-- COL_SUB_WRITE, SUBSTITUTION_APPLIED and COLMON_CLR (R163, R165 to R167). -/
def Obligations.ColumnSubstitution : Prop :=
  ∀ (s : State) (p : Nat) (v : Word) (executing : Bool), p < 72 →
    let r := Reg.COL_SUB + 4 * p
    let tgt := bitsOf v 6 0
    let zones : List Zone := [.block 16, .block 1, .out, .arr]
    let regs := [r, Reg.act r, Reg.REP_STATUS]
    let now := s.arr.suspended = true ∨ (executing = false ∧ s.arr.busy = false)
    ((s.subOf p 1).1 = 0 → s.bit r 27 = false → bitsOf v 25 24 = 0 → bitsOf v 22 16 ≤ 71 →
      (tgt ≤ 71 → bitsOf v 9 8 = 1 → (s.subOf p 0).1 = 0 → Does (.colSubWrite p v executing) s zones fun t =>
        t.subOf p 0 = (1, tgt) ∧ t.fld r 9 8 = 1 ∧ t.fld r 6 0 = tgt ∧ t.bit r 10 = false ∧
        Store.get (fun _ => 0) t.arr.sweep (2 * p) = 0 ∧ t.fld Reg.REP_STATUS 7 0 = t.countActive ∧ RegsBut regs s t) ∧
      (tgt ≤ 71 → bitsOf v 9 8 = 2 → s.subOf p 0 = (1, tgt) → s.bit r 10 = true →
        Does (.colSubWrite p v executing) s zones fun t =>
          (now → t.subOf p 0 = (2, tgt) ∧ t.bit r 11 = false ∧ t.pends 71 = true) ∧
          (¬ now → t.subOf p 0 = (1, tgt) ∧ t.bit r 11 = true ∧ t.fld r 9 8 = 2 ∧ t.fld r 6 0 = tgt) ∧
          t.fld Reg.REP_STATUS 7 0 = t.countActive ∧ RegsBut regs s t) ∧
      (tgt ≤ 71 → bitsOf v 9 8 = 0 → s.subOf p 0 = (2, tgt) → s.isGap (p / 9) (p % 9) = true → now →
        Does (.colSubWrite p v executing) s zones fun t =>
          t.subOf p 0 = (0, tgt) ∧ t.bit r 11 = false ∧ t.pends 71 = true ∧ t.fld Reg.REP_STATUS 7 0 = t.countActive ∧
          RegsBut regs s t) ∧
      (bitsOf v 9 8 = 3 ∨ 71 < tgt ∨ ((s.subOf p 0).1 = 0 ∧ bitsOf v 9 8 = 2) ∨
          ((s.subOf p 0).1 = 1 ∧ bitsOf v 9 8 = 2 ∧ s.bit r 10 = false) ∨
          ((s.subOf p 0).1 = 2 ∧ bitsOf v 9 8 = 0 ∧ s.isGap (p / 9) (p % 9) = false) →
        Does (.colSubWrite p v executing) s zones fun t =>
          t.subOf p 0 = s.subOf p 0 ∧ t.bit Reg.REP_STATUS 8 = true ∧ RegsBut regs s t)) ∧
    (∀ j, j < 2 →
      (s.bit r (11 + 16 * j) = true → Does (.substitutionApplied p j) s zones fun t =>
        t.subOf p j = (s.fld r (9 + 16 * j) (8 + 16 * j), s.fld r (6 + 16 * j) (16 * j)) ∧ t.subOf p (1 - j) = s.subOf p (1 - j) ∧
        t.bit r (11 + 16 * j) = false ∧ t.pends 71 = true ∧ t.fld Reg.REP_STATUS 7 0 = t.countActive ∧ RegsBut regs s t) ∧
      (s.bit r (11 + 16 * j) = false → exec (.substitutionApplied p j) s = .next s)) ∧
    Does (.colmonClr p) s [.block 16] fun t =>
      t.fld (Reg.COLMON + 4 * p) 6 0 = 0 ∧ t.fld (Reg.COLMON + 4 * p) 15 8 = 0 ∧ RegsBut [Reg.COLMON + 4 * p] s t

/-- MIRROR_CTL_WRITE (R182) and BIST_START, BIST_ABORT and BIST_DONE (R184 to R188). -/
def Obligations.MirrorAndBuiltInTest : Prop :=
  ∀ (s : State),
    (∀ v : Word,
      let row := bitsOf v 10 8
      let dst := bitsOf v 7 4
      let src := bitsOf v 3 0
      let map := Reg.act (Reg.PROW_MAP + 4 * row)
      let legal := src ≤ 8 ∧ dst ≤ 8 ∧ (src + 1 = dst ∨ dst + 1 = src) ∧ s.fld map 7 4 = 15 ∧ s.fld map 3 0 = dst ∧
        s.bistOwns (9 * row + dst) = false ∧ s.bit Reg.MIRROR_CTL 12 = false
      (v.getLsbD 12 = true → legal → Does (.mirrorCtlWrite v) s [.block 16, .arr] fun t =>
        t.bit Reg.MIRROR_CTL 12 = true ∧ t.bit Reg.MIRROR_CTL 11 = false ∧ t.fld Reg.MIRROR_CTL 10 8 = row ∧
        t.fld Reg.MIRROR_CTL 7 4 = dst ∧ t.fld Reg.MIRROR_CTL 3 0 = src ∧ t.arr = { s.arr with mirrorSweep := 0 } ∧
        RegsBut [Reg.MIRROR_CTL] s t) ∧
      (v.getLsbD 12 = true → ¬ legal → Does (.mirrorCtlWrite v) s [.block 16] fun t =>
        t.bit Reg.REP_STATUS 9 = true ∧ RegsBut [Reg.REP_STATUS] s t) ∧
      (v.getLsbD 12 = false → Does (.mirrorCtlWrite v) s [.block 16] fun t =>
        t.bit Reg.MIRROR_CTL 12 = false ∧ RegsBut [Reg.MIRROR_CTL] s t)) ∧
    (∀ v : Word,
      let p := bitsOf v 6 0
      let legal := p ≤ 71 ∧ s.isGap (p / 9) (p % 9) = true ∧ s.bit Reg.BIST_STATUS 7 = false ∧
        ¬ (s.bit Reg.MIRROR_CTL 12 = true ∧ s.fld Reg.MIRROR_CTL 10 8 * 9 + s.fld Reg.MIRROR_CTL 7 4 = p)
      (legal → Does (.bistStart v) s [.block 16, .planes] fun t =>
        t.bit Reg.BIST_STATUS 7 = true ∧ t.fld Reg.BIST_STATUS 6 0 = p ∧ t.fld Reg.BIST_STATUS 10 8 = 0 ∧
        t.fld Reg.BIST_STATUS 18 12 = 0x7F ∧ t.fld Reg.BIST_STATUS 25 19 = 0x7F ∧ RegsBut [Reg.BIST_STATUS, Reg.BIST_CTL] s t ∧
        ∀ a k, a < 1028 → k < 2304 → k / 32 ≠ p → (t.planeCells a)[k]? = (s.planeCells a)[k]?) ∧
      (¬ legal → Does (.bistStart v) s [.block 16] fun t =>
        t.fld Reg.BIST_STATUS 10 8 = 5 ∧ t.bit Reg.BIST_STATUS 7 = s.bit Reg.BIST_STATUS 7 ∧
        RegsBut [Reg.BIST_STATUS, Reg.BIST_CTL] s t)) ∧
    (s.bit Reg.BIST_STATUS 7 = true → Does .bistAbort s [.block 1, .out, .block 16] fun t =>
      t.bit Reg.BIST_STATUS 7 = false ∧ t.fld Reg.BIST_STATUS 10 8 = 4 ∧ t.pends 72 = true ∧ RegsBut [Reg.BIST_STATUS] s t) ∧
    (s.bit Reg.BIST_STATUS 7 = true → ∀ (bad : List Nat) (other : Bool), (∀ c ∈ bad, c < 74) → bad.Nodup →
      let p := s.fld Reg.BIST_STATUS 6 0
      let columns := other = false ∧ bad ≠ [] ∧ bad.length ≤ 2 ∧
        bad.countP (fun c => decide (c < 72)) ≤ 2 - bad.countP (fun c => decide (72 ≤ c))
      Does (.bistDone bad other) s [.planes, .block 1, .out, .block 16, .block 4, .sched, .free, .repair, .log] fun t =>
        t.bit Reg.BIST_STATUS 7 = false ∧ t.fld Reg.BIST_STATUS 6 0 = p ∧ t.pends 72 = true ∧
        (bad = [] → other = false → t.fld Reg.BIST_STATUS 10 8 = 1 ∧ t.fld Reg.BIST_STATUS 18 12 = 0x7F ∧ t.repair = s.repair) ∧
        (columns → t.fld Reg.BIST_STATUS 10 8 = 2 ∧ t.fld Reg.BIST_STATUS 18 12 = bad.headD 0x7F ∧
          t.fld Reg.BIST_STATUS 25 19 = bad.tail.headD 0x7F ∧ t.repair = s.repair) ∧
        (¬ columns → ¬ (bad = [] ∧ other = false) → t.fld Reg.BIST_STATUS 10 8 = 3 ∧ p ∈ t.repair.failed) ∧
        RegsBut [Reg.BIST_STATUS, Reg.TLM_ARRAY] s t ∧
        ∀ a k, a < 1028 → k < 2304 →
          (t.planeCells a)[k]? = if k / 32 = p then some (some (if a = planeM then maskReset else 0)) else (s.planeCells a)[k]?) ∧
    (s.bit Reg.BIST_STATUS 7 = false → exec .bistAbort s = .next s ∧ ∀ bad other, exec (.bistDone bad other) s = .next s)

/-- CLEAN_WINDOW_END, EST_STALE, EST_FALLBACK, FORCED_WINDOW and STRIP_RETRY (R20, R30, R190 to R193). -/
def Obligations.SpeedEstimatorAndReserve : Prop :=
  ∀ (s : State),
    (∀ m slow, m < 2 ^ 16 → slow < 72 →
      (s.bit Reg.EST_STATUS 0 = true → Does (.cleanWindowEnd m slow) s [.block 16, .block 1, .out, .sched] fun t =>
        t.fld Reg.EST_RATE 31 16 = m ∧ t.fld Reg.EST_RATE 15 0 = m ∧ t.reg Reg.EST_AGE = 0 ∧ t.bit Reg.EST_STATUS 4 = true ∧
        t.fld Reg.EST_STATUS 14 8 = slow ∧ t.bit Reg.EST_STATUS 3 = decide (m < 850) ∧ t.fld Reg.EST_STATUS 2 0 = 0 ∧
        (s.bit Reg.EST_STATUS 2 = true → t.pends 75 = true) ∧ (m < 850 → t.pends 76 = true) ∧
        t.sched = { s.sched with holdIdle := false, windowNext := false } ∧
        RegsBut [Reg.EST_RATE, Reg.EST_AGE, Reg.EST_STATUS] s t) ∧
      (s.bit Reg.EST_STATUS 0 = false → exec (.cleanWindowEnd m slow) s = .next s)) ∧
    (Does .estStale s [.block 1, .out, .block 16] fun t =>
      t.reg Reg.EST_AGE = 12500000 ∧ t.bit Reg.EST_STATUS 1 = true ∧ t.pends 73 = true ∧
      (∀ i, i ≠ 1 → t.bit Reg.EST_STATUS i = s.bit Reg.EST_STATUS i) ∧ RegsBut [Reg.EST_AGE, Reg.EST_STATUS] s t) ∧
    (let meas := s.fld Reg.EST_RATE 31 16
     Does .estFallback s [.block 1, .out, .block 16] fun t =>
      t.reg Reg.EST_AGE = 25000000 ∧ t.bit Reg.EST_STATUS 2 = true ∧ t.pends 74 = true ∧ t.fld Reg.EST_RATE 31 16 = meas ∧
      t.fld Reg.EST_RATE 15 0 = (if s.bit Reg.EST_STATUS 4 = false then 850
        else if s.bit Reg.EST_STATUS 3 = true then 82 * meas / 100 else max 850 (82 * meas / 100)) ∧
      (∀ i, i ≠ 2 → t.bit Reg.EST_STATUS i = s.bit Reg.EST_STATUS i) ∧
      RegsBut [Reg.EST_AGE, Reg.EST_STATUS, Reg.EST_RATE] s t) ∧
    (Does .forcedWindow s [.log, .free, .sched] fun t =>
      t.sched = if s.sched.reserveSpent = true then { s.sched with windowNext := true }
        else { s.sched with reserveSpent := true, reserveUsed := s.sched.reserveUsed + 1, holdIdle := true }) ∧
    ∀ display strip frame, Does (.stripRetry display strip frame) s [.log, .free, .sched] fun t =>
      (s.sched.retried = true → t.sched = { s.sched with
        retried := false, uncommitted := s.sched.uncommitted + 1, badFrames := s.sched.badFrames ++ [display] }) ∧
      (s.sched.retried = false → t.sched.retried = true ∧ t.sched.repeats = s.sched.repeats + 1 ∧ t.sched.reserveSpent = true ∧
        (s.sched.reserveSpent = false → t.sched.reserveUsed = s.sched.reserveUsed + 1 ∧ t.sched.lostStrip = s.sched.lostStrip) ∧
        (s.sched.reserveSpent = true → t.sched.reserveUsed = s.sched.reserveUsed ∧ t.sched.lostStrip = true))

/-- PLATFORM_FAILURE, STRIP_REPEAT, SUBSTITUTE_COLUMN and ROTATION_STEP (R169 to R187). -/
def Obligations.PlatformFailureAndRotation : Prop :=
  ∀ (s : State),
    let quiet := s.arr.busy = false ∧ s.arr.suspended = false ∧ s.trv.held = [] ∧ s.bit Reg.BIST_STATUS 7 = false
    let spent := fun (t : State) => t.sched.repeats = s.sched.repeats + 1 ∧ t.sched.reserveSpent = true ∧
      (s.sched.reserveSpent = true → t.sched.lostStrip = true ∧ t.sched.uncommitted = s.sched.uncommitted + 1)
    let cleared := fun (t : State) => t.arr.bscnt = (s.arr.bscnt + 1025) % 2 ^ 64 ∧
      (s.arr.silent = [] → s.bit Reg.MIRROR_CTL 12 = false → s.countActive = 0 →
        ∀ a k, a < 1024 → k < 2304 → (t.planeCells a)[k]? = some (some 0))
    (∀ p reason stops, p < 72 →
      let map := Reg.act (Reg.PROW_MAP + 4 * (p / 9))
      let failedRow := ∃ q ∈ s.repair.failed, q / 9 = p / 9
      let dead := 9 * (p / 9) + s.fld map 3 0 ∈ s.repair.failed ∧ s.fld map 7 4 ≠ 15 ∧ 9 * (p / 9) + s.fld map 7 4 ∈ s.repair.failed
      (dead → Does (.platformFailure p reason stops) s [.block 4, .log, .free] fun t =>
        t.bit Reg.TLM_ARRAY 14 = true ∧ RegsBut [Reg.TLM_ARRAY] s t) ∧
      (¬ dead → quiet → ¬ failedRow → ∃ t, exec (.platformFailure p reason stops) s = .next t ∧
        t.fld map 3 0 = p % 9 ∧ t.fld map 7 4 = 15 ∧ t.pends 66 = true ∧ p ∈ t.repair.failed ∧ spent t ∧ cleared t) ∧
      (¬ dead → quiet → failedRow → s.fld map 3 0 ≤ 8 → s.fld map 3 0 ≠ p % 9 →
        ∃ t, exec (.platformFailure p reason stops) s = .next t ∧
        t.fld map 3 0 = s.fld map 3 0 ∧ t.fld map 7 4 = p % 9 ∧ t.pends 66 = true ∧ p ∈ t.repair.failed ∧ spent t ∧ cleared t)) ∧
    (∀ p, p < 72 →
      (s.sched.repeatOf = some p → exec (.stripRepeat p) s =
        exec (.platformFailure p 4 0) { s with sched := { s.sched with repeatOf := none } }) ∧
      (s.sched.repeatOf ≠ some p → quiet → ∃ t, exec (.stripRepeat p) s = .next t ∧ t.sched.repeatOf = some p ∧ spent t ∧
        cleared t ∧ t.repair = s.repair ∧ ∀ n, n < 8 → t.reg (Reg.act (Reg.PROW_MAP + 4 * n)) = s.reg (Reg.act (Reg.PROW_MAP + 4 * n))) ∧
      ((s.subOf p 0).1 = 2 → (s.subOf p 1).1 = 2 →
        exec (.substituteColumn p) s = .next { s with sched := { s.sched with retire := some p } }) ∧
      ((s.subOf p 0).1 ≠ 2 ∨ (s.subOf p 1).1 ≠ 2 → ∃ t, exec (.substituteColumn p) s = .next t ∧
        t.repair.failed = s.repair.failed ∧ (t.repair.subs = s.repair.subs ∨
          ∃ j, j < 2 ∧ t.repair.subs = s.repair.subs ++ [(p, j, s.fld (Reg.COLMON + 4 * p) 6 0)] ∧
            (t.subOf p j).1 = 2 ∧ t.fld (Reg.COLMON + 4 * p) 6 0 = 0 ∧ t.fld (Reg.COLMON + 4 * p) 15 8 = 0))) ∧
    ∀ r, r < 8 →
      let map := Reg.act (Reg.PROW_MAP + 4 * r)
      let g := s.fld map 3 0
      let t' := if g = 0 ∨ (r ∈ s.sched.rotUp ∧ g ≠ 8) then g + 1 else g - 1
      (s.arr.busy = true ∨ s.arr.suspended = true ∨ s.trv.held ≠ [] ∨ s.sched.holdIdle = true ∨
          (∃ q ∈ s.repair.failed, q / 9 = r) → exec (.rotationStep r) s = .next s) ∧
      (quiet → s.sched.holdIdle = false → s.sched.retire = none → s.bit Reg.MIRROR_CTL 12 = false → g ≤ 8 → s.fld map 7 4 = 15 →
        (¬ ∃ q ∈ s.repair.failed, q / 9 = r) → ∃ t, exec (.rotationStep r) s = .next t ∧
          t.fld map 3 0 = t' ∧ t.fld map 7 4 = 15 ∧ t.pends 66 = true ∧ t.bit Reg.MIRROR_CTL 12 = false ∧
          t.bit Reg.BIST_STATUS 7 = true ∧ t.fld Reg.BIST_STATUS 6 0 = 9 * r + t')

/-- ADD, SUB and CMP in immediate mode (R204, R210, R211); the whole next state, so everything else is unchanged. The other immediate forms (R204, R210, R211); LD becomes visible at distance 2 (R213). -/
def Obligations.ImmediateOperands : Prop :=
  (∀ (s : State) (o : SOp), o.mode = 3 →
    let a := s.disp.acc
    let x : Word := (BitVec.ofNat 16 o.addr).signExtend 32
    let ci : Nat := if o.sub = 1 ∧ s.psw 1 then 1 else 0
    let bi : Nat := if o.sub = 1 ∧ s.psw 1 = false then 1 else 0
    let sum : Word := a + x + BitVec.ofNat 32 ci
    let dif : Word := if o.sub = 2 then x - a else a - x - BitVec.ofNat 32 bi
    (s.ready 0x04 o → exec (.add o) s = .next (s.scalarDone sum
      ⟨decide (sum = 0), decide (2 ^ 32 ≤ a.toNat + x.toNat + ci), sum.msb, decide (a.toInt + x.toInt + ci ≠ sum.toInt)⟩)) ∧
    (s.ready 0x05 o → exec (.sub o) s = .next (s.scalarDone dif
      ⟨decide (dif = 0), if o.sub = 2 then decide (a.toNat ≤ x.toNat) else decide (x.toNat + bi ≤ a.toNat), dif.msb,
        if o.sub = 2 then decide (x.toInt - a.toInt ≠ dif.toInt) else decide (a.toInt - x.toInt - bi ≠ dif.toInt)⟩)) ∧
    (s.ready 0x0A o → exec (.cmp o) s = .next (s.scalarDone a
      ⟨decide (a = x), decide (x.toNat ≤ a.toNat), (a - x).msb, decide (a.toInt - x.toInt ≠ (a - x).toInt)⟩))) ∧
  (∀ (s : State) (o : SOp),
    let a := s.disp.acc
    let z : Word := BitVec.ofNat 32 (o.addr % 2 ^ 16)
    let zn := fun r : Word => (⟨decide (r = 0), s.psw 1, r.msb, s.psw 3⟩ : Flags)
    let n := o.addr % 32
    let r : Word := match o.sub with | 0 => a <<< n | 1 => a >>> n | 2 => a.sshiftRight n | _ => a.rotateRight n
    (s.ready 0x00 o → exec (.nop o) s = .next (s.scalarDone a s.flags)) ∧
    (o.mode = 3 →
      (s.ready 0x03 o → exec (.lui o) s = .next (s.scalarDone (BitVec.ofNat 16 o.addr ++ a.extractLsb' 0 16) s.flags)) ∧
      (s.ready 0x06 o → exec (.and o) s = .next (s.scalarDone (a &&& z) (zn (a &&& z)))) ∧
      (s.ready 0x07 o → exec (.or o) s = .next (s.scalarDone (a ||| z) (zn (a ||| z)))) ∧
      (s.ready 0x08 o → exec (.xor o) s = .next (s.scalarDone (a ^^^ z) (zn (a ^^^ z)))) ∧
      (s.ready 0x0B o → exec (.tst o) s = .next (s.scalarDone a (zn (a &&& z)))) ∧
      (s.ready 0x09 o → exec (.shf o) s = .next (s.scalarDone r { zn r with c := if n = 0 then s.psw 1 else if o.sub = 0 then a.getLsbD (32 - n) else a.getLsbD (n - 1) })) ∧
      (s.ready 0x01 o → exec (.ld o) s =
        .next { s with disp := { s.disp with pc := s.disp.pc + 4, late := { noLate with acc := some ((BitVec.ofNat 16 o.addr).signExtend 32) } } })))

/-- IX and BNK in immediate mode, or in any mode where no operand is fetched (R210, R213). The multiplier and the divider (R233, R236, R238). -/
def Obligations.IndexBankMultiplierAndDivider : Prop :=
  (∀ (s : State) (o : SOp),
    let d := s.disp
    let z : BitVec 16 := BitVec.ofNat 16 o.addr
    let low : BitVec 16 := d.bnk.extractLsb' 0 16
    let high : BitVec 20 := d.bnk.extractLsb' 16 20
    (s.ready 0x0C o → o.mode = 3 ∨ 4 ≤ o.sub → Does (.ix o) s [.disp, .free] fun t => t.disp =
      match o.sub with
      | 0 => { d with ixa := z, pc := d.pc + 4 }
      | 1 => { d with ixb := z, pc := d.pc + 4 }
      | 2 => { d with ixa := d.ixa + z, pc := d.pc + 4 }
      | 3 => { d with ixb := d.ixb + z, pc := d.pc + 4 }
      | 4 => { d with acc := d.ixa.setWidth 32, pc := d.pc + 4 }
      | _ => { d with acc := d.ixb.setWidth 32, pc := d.pc + 4 }) ∧
    (s.ready 0x0D o → o.mode = 3 ∨ o.sub = 2 ∨ o.sub = 3 → Does (.bnk o) s [.disp, .free] fun t => t.disp =
      match o.sub with
      | 0 => { d with bnk := high ++ z, pc := d.pc + 4, late := { noLate with bnk := some d.bnk } }
      | 1 => { d with bnk := BitVec.ofNat 20 (o.addr % 2 ^ 16) ++ low, pc := d.pc + 4, late := { noLate with bnk := some d.bnk } }
      | 2 => { d with acc := d.bnk.extractLsb' 0 32, pc := d.pc + 4 }
      | 3 => { d with acc := (d.bnk.extractLsb' 32 4).setWidth 32, pc := d.pc + 4 }
      | _ => { d with bnk := d.bnk + z.signExtend 36, pc := d.pc + 4, late := { noLate with bnk := some d.bnk } })) ∧
  (∀ (s : State) (o : SOp),
    let d := s.disp
    let a := d.acc
    let x : Word := (BitVec.ofNat 16 o.addr).signExtend 32
    (o.mode = 3 → s.ready 0x0E o → Does (.mul o) s [.disp] fun t => ∃ m, t.disp.mul = some m ∧ t.psw 5 = false ∧
      (o.sub = 0 → m.prod.toNat = a.toNat * x.toNat) ∧ (o.sub = 1 → m.prod.toInt = a.toInt * x.toInt) ∧
      (∀ i, i ≠ 5 → t.psw i = s.psw i) ∧ t.disp = { d with psw := t.disp.psw, mul := some m, pc := d.pc + 4 }) ∧
    (o.mode = 3 → s.ready 0x0F o → (x = 0 → d.fpctl.getLsbD 13 = false) → Does (.div o) s [.disp] fun t => ∃ m, t.disp.div = some m ∧
      t.psw 6 = false ∧ (∀ i, i ≠ 3 → i ≠ 6 → t.psw i = s.psw i) ∧
      t.disp = { d with psw := t.disp.psw, div := some m, pc := d.pc + 4 } ∧
      (x = 0 → t.psw 3 = true ∧ m.rem = a ∧
        m.quo = if o.sub = 0 then 0xFFFFFFFF else if a.msb then 0x80000000 else 0x7FFFFFFF) ∧
      (x ≠ 0 → o.sub = 0 → t.psw 3 = false ∧ m.quo.toNat = a.toNat / x.toNat ∧ m.rem.toNat = a.toNat % x.toNat) ∧
      (x ≠ 0 → o.sub = 1 → (a = 0x80000000 ∧ x = 0xFFFFFFFF → t.psw 3 = true ∧ m.quo = 0x80000000 ∧ m.rem = 0) ∧
        (¬ (a = 0x80000000 ∧ x = 0xFFFFFFFF) → t.psw 3 = false ∧ m.quo.toInt = a.toInt.tdiv x.toInt ∧
          m.rem.toInt = a.toInt.tmod x.toInt))) ∧
    (o.mode = 3 → s.ready 0x0F o → x = 0 → d.fpctl.getLsbD 13 = true → d.rs.length < 16 →
      Does (.div o) s [.disp, .block 17, .sched, .kernels, .running, .log, .free] fun t => s.trapped t 0x0A s.here.toNat 0 s.here) ∧
    (∀ m, d.mul = some m → Does .mulDone s [.disp] fun t => t.psw 5 = true ∧ (∀ i, i ≠ 5 → t.psw i = s.psw i) ∧
      t.disp = { d with psw := t.disp.psw, prod := m.prod, mul := none }) ∧
    (∀ m, d.div = some m → Does .divDone s [.disp] fun t => t.psw 6 = true ∧ (∀ i, i ≠ 6 → t.psw i = s.psw i) ∧
      t.disp = { d with psw := t.disp.psw, quo := m.quo, rem := m.rem, div := none }))

/-- MOVX (R201, R202): every register of the table, both directions. The data stack (R216). -/
def Obligations.SystemRegistersAndDataStack : Prop :=
  (∀ (s : State) (o : SOp), o.addr < 256 → (s.firmware = true ∨ (o.addr ≠ 7 ∧ o.addr ≠ 8 ∧ (o.addr < 0x0B ∨ 0x12 < o.addr))) →
    let d := s.disp
    let a := d.acc
    let top := d.rs.headD 0
    (s.ready 0x10 { o with sub := 0 } → Does (.movxRead o) s [.disp, .free] fun t => t.disp = { d with pc := d.pc + 4, acc :=
      match o.addr with
      | 0x00 => d.psw
      | 0x01 => d.fpctl
      | 0x02 => d.prod.extractLsb' 0 32
      | 0x03 => d.prod.extractLsb' 32 32
      | 0x04 => d.quo
      | 0x05 => d.rem
      | 0x06 => d.dsp
      | 0x07 => d.dsBase
      | 0x08 => d.dsLimit
      | 0x09 => BitVec.ofNat 32 d.ds.length
      | 0x0A => BitVec.ofNat 32 d.rs.length
      | 0x0B => top.extractLsb' 0 32
      | 0x0C => (top.extractLsb' 32 20).setWidth 32
      | 0x0D => d.spsw
      | 0x0E => d.tcause
      | 0x0F => d.taddr.extractLsb' 0 32
      | 0x10 => (d.taddr.extractLsb' 32 20).setWidth 32
      | 0x11 => d.vbnk.extractLsb' 0 32
      | 0x12 => (d.vbnk.extractLsb' 32 4).setWidth 32
      | _ => 0 }) ∧
    (s.ready 0x10 { o with sub := 1 } → Does (.movxWrite o) s [.disp] fun t =>
      let next : Disp := { d with pc := d.pc + 4 }
      let mode : Late := { noLate with mode := some (d.fpctl, s.psw 7) }
      match o.addr with
      | 0x00 => t.disp = { next with psw := (d.psw &&& 0xFFFFFF70) ||| (a &&& 0x8F), late := mode }
      | 0x01 => t.disp = { next with fpctl := (d.fpctl &&& 0xFFFCC0E0) ||| (a &&& 0x33F1F), late := mode }
      | 0x02 => t.disp = { next with prod := d.prod.extractLsb' 32 32 ++ a, psw := t.disp.psw } ∧ t.psw 5 = true ∧ ∀ i, i ≠ 5 → t.psw i = s.psw i
      | 0x03 => t.disp = { next with prod := a ++ d.prod.extractLsb' 0 32, psw := t.disp.psw } ∧ t.psw 5 = true ∧ ∀ i, i ≠ 5 → t.psw i = s.psw i
      | 0x04 => t.disp = { next with quo := a, psw := t.disp.psw } ∧ t.psw 6 = true ∧ ∀ i, i ≠ 6 → t.psw i = s.psw i
      | 0x05 => t.disp = { next with rem := a, psw := t.disp.psw } ∧ t.psw 6 = true ∧ ∀ i, i ≠ 6 → t.psw i = s.psw i
      | 0x06 => t.disp = if s.firmware then { next with dsp := a &&& 0xFFFFFFF8 } else next
      | 0x07 => t.disp = { next with dsBase := a &&& 0xFFFFFFF8 }
      | 0x08 => t.disp = { next with dsLimit := a &&& 0xFFFFFFF8 }
      | 0x0A => t.disp = if s.firmware ∧ a.toNat < d.rs.length then { next with rs := d.rs.drop (d.rs.length - a.toNat) } else next
      | 0x0B => t.disp = if d.rs = [] then next else { next with rs := (top.extractLsb' 32 20 ++ a) :: d.rs.tail }
      | 0x0C => t.disp = if d.rs = [] then next else { next with rs := (a.extractLsb' 0 20 ++ top.extractLsb' 0 32) :: d.rs.tail }
      | 0x0D => t.disp = { next with spsw := a &&& 0x1FFF07FF }
      | 0x11 => t.disp = { next with vbnk := d.vbnk.extractLsb' 32 4 ++ a }
      | 0x12 => t.disp = { next with vbnk := a.extractLsb' 0 4 ++ d.vbnk.extractLsb' 0 32 }
      | _ => t.disp = next)) ∧
  (∀ (s : State) (o : SOp),
    let d := s.disp
    let v : Word := if o.sub = 2 then (BitVec.ofNat 16 o.addr).signExtend 32 else d.acc
    let po : SOp := { o with sub := if o.sub = 1 then 0 else o.sub }
    let trapZone : List Zone := [.disp, .block 17, .sched, .kernels, .running, .log, .free]
    (s.ready 0x11 po → (o.sub = 2 → o.mode = 3) →
      (d.ds.length < 32 → Does (.stkPush o) s [.disp] fun t => t.disp = { d with ds := v :: d.ds, pc := d.pc + 4 }) ∧
      (d.ds.length = 32 → d.dsp.toNat + 8 ≤ d.dsLimit.toNat → s.postedCount < 8 →
        Does (.stkPush o) s [.disp, .jt] fun t =>
          t.disp = { d with ds := v :: d.ds.take 30, dsp := d.dsp + 8, pc := d.pc + 4 } ∧
          ∃ x : Txn, t.jt.txns = s.jt.txns ++ [x] ∧ x.src = 56 ∧ x.write = true ∧ x.addr = d.dsp.toNat / 8 * 8 ∧
            (d.dsp.toNat % 8 = 0 → x.data = [((d.ds.getD 30 0 ++ d.ds.getD 31 0 : Word64), 0xFF)])) ∧
      (d.ds.length = 32 → d.dsLimit.toNat < d.dsp.toNat + 8 → s.postedCount < 8 → d.rs.length < 16 →
        Does (.stkPush o) s trapZone fun t => s.trapped t 9 s.here.toNat 0 s.here)) ∧
    (s.ready 0x11 { o with sub := 1 } →
      (∀ x r, d.ds = x :: r → Does (.stkPop o) s [.disp] fun t =>
        t.disp = { d with ds := r, pc := d.pc + 4, late := { noLate with acc := some x } }) ∧
      (d.ds = [] → d.dsBase.toNat < d.dsp.toNat → Does (.stkPop o) s [.disp, .jt] fun t => t.disp = { d with wait := .fill } ∧
        ∃ x : Txn, t.jt.txns = s.jt.txns ++ [x] ∧ x.src = 56 ∧ x.write = false ∧ x.addr = d.dsp.toNat - 8 ∧ x.len = 8) ∧
      (d.ds = [] → d.dsp.toNat ≤ d.dsBase.toNat → d.rs.length < 16 →
        Does (.stkPop o) s trapZone fun t => s.trapped t 9 s.here.toNat 0 s.here)) ∧
    (s.ready 0x18 { o with sub := 4 } → s.firmware = true →
      (d.ds = [] → Does (.dsflush o) s [.disp] fun t => t.disp = { d with pc := d.pc + 4 }) ∧
      (∀ x y, d.ds = [y, x] ∨ (d.ds = [x] ∧ y = 0) → d.dsp.toNat + 8 ≤ d.dsLimit.toNat → s.postedCount < 8 →
        Does (.dsflush o) s [.disp, .jt] fun t => t.disp = { d with ds := [], dsp := d.dsp + 8, pc := d.pc + 4 } ∧
          ∃ q : Txn, t.jt.txns = s.jt.txns ++ [q] ∧ q.src = 56 ∧ q.write = true ∧ q.addr = d.dsp.toNat / 8 * 8 ∧
            (d.dsp.toNat % 8 = 0 → q.data = [((y ++ x : Word64), 0xFF)]))))

/-- Transfers of control (R212, R217, R224). SVC, BRK and the SYS instructions but DSFLUSH (R221 to R226, R229). -/
def Obligations.ControlFlowAndCallsOfTheSystem : Prop :=
  (∀ (s : State) (o : SOp),
    let d := s.disp
    let target : BitVec 16 := d.pc + 4 * BitVec.ofNat 16 o.addr
    let bank : BitVec 36 := if o.sub = 1 then d.bnk else d.pbnk
    let trapZone : List Zone := [.disp, .block 17, .sched, .kernels, .running, .log, .free]
    (o.mode = 3 → target.toNat % 4 = 0 →
      (s.ready 0x12 o → Does (.br o) s [.disp] fun t => t.disp = { d with pbnk := bank, pc := target }) ∧
      (s.ready 0x13 o → d.rs.length < 14 → Does (.call o) s [.disp] fun t =>
        t.disp = { d with pbnk := bank, pc := target, rs := (d.pbnk ++ (d.pc + 4)) :: d.rs }) ∧
      (s.ready 0x13 o → 14 ≤ d.rs.length → d.rs.length < 16 → Does (.call o) s trapZone fun t => s.trapped t 7 s.here.toNat 0 s.here)) ∧
    (o.mode = 3 → target.toNat % 4 ≠ 0 → d.rs.length < 16 →
      (s.ready 0x12 o → Does (.br o) s trapZone fun t => s.trapped t 4 (bank ++ target : BitVec 52).toNat 0 s.here) ∧
      (s.ready 0x13 o → Does (.call o) s trapZone fun t => s.trapped t 4 (bank ++ target : BitVec 52).toNat 0 s.here)) ∧
    (s.ready 0x14 { o with sub := 0 } →
      (∀ x r, d.rs = x :: r → Does (.ret o) s [.disp] fun t =>
        t.disp = { d with rs := r, pbnk := x.extractLsb' 16 36, pc := x.extractLsb' 0 16 }) ∧
      (d.rs = [] → Does (.ret o) s trapZone fun t => s.trapped t 8 s.here.toNat 0 s.here)) ∧
    (s.ready 0x14 { o with sub := 1 } → s.firmware = true →
      (∀ x r, d.rs = x :: r → d.spsw.getLsbD 10 = false → Does (.reti o) s [.disp] fun t =>
        t.disp = { d with rs := r, pbnk := x.extractLsb' 16 36, pc := x.extractLsb' 0 16,
                          psw := (d.spsw &&& 0xFFFFFF8F) ||| (d.psw &&& 0x70) }) ∧
      (d.rs = [] → Does (.reti o) s trapZone fun t => s.trapped t 8 s.here.toNat 0 s.here))) ∧
  (∀ (s : State) (o : SOp),
    let d := s.disp
    let trapZone : List Zone := [.disp, .block 17, .sched, .kernels, .running, .log, .free]
    (s.ready 0x15 { o with sub := 0 } → d.rs.length < 16 → Does (.svc o) s trapZone fun t => s.trapped t 0x0E s.here.toNat o.addr s.here) ∧
    (s.ready 0x15 { o with sub := 1 } → d.rs.length < 16 → Does (.brk o) s trapZone fun t => s.trapped t 0x0F s.here.toNat o.addr s.here) ∧
    (s.ready 0x18 { o with sub := 0 } → s.firmware = true → Does (.ei o) s [.disp] fun t =>
      t.psw 8 = true ∧ (∀ i, i ≠ 8 → t.psw i = s.psw i) ∧ t.disp = { d with psw := t.disp.psw, pc := d.pc + 4 }) ∧
    (s.ready 0x18 { o with sub := 1 } → s.firmware = true → Does (.di o) s [.disp] fun t =>
      t.psw 8 = false ∧ (∀ i, i ≠ 8 → t.psw i = s.psw i) ∧ t.disp = { d with psw := t.disp.psw, pc := d.pc + 4 }) ∧
    (s.ready 0x18 { o with sub := 2 } → s.firmware = true → Does (.wfi o) s [.disp] fun t =>
      t.disp = if s.icRequest ∧ s.psw 8 = false then { d with pc := d.pc + 4 } else { d with wait := .wfi }) ∧
    (s.ready 0x18 { o with sub := 3 } → Does (.fence o) s [.disp] fun t =>
      t.disp = if ∃ x ∈ s.jt.txns, x.src = 56 ∧ (x.write = true ∨ x.cp = true) ∧ x.open' = true then { d with wait := .fence }
        else { d with pc := d.pc + 4 }))

/-- The order of R209, R210 and R221 before an operand is fetched, for every scalar row. -/
def Obligations.ScalarTrapsAndFailedConditions : Prop :=
  ∀ (c : Instr) (opc : Nat) (o : SOp) (s : State), scalarOf c = some (opc, o) → s.still → s.disp.rs.length < 16 →
    let trapZone : List Zone := [.disp, .block 17, .sched, .kernels, .running, .log, .free]
    let priv := s.firmware = false ∧ ((opc = 0x14 ∧ o.sub = 1) ∨ (opc = 0x18 ∧ o.sub ≠ 3) ∨
      (opc = 0x10 ∧ (o.addr = 7 ∨ o.addr = 8 ∨ (0x0B ≤ o.addr ∧ o.addr ≤ 0x12))))
    (¬ s.defined opc o → Does c s trapZone fun t => s.trapped t 2 s.here.toNat 0 s.here) ∧
    (s.defined opc o → s.cond o.cond = false → Does c s [.disp] fun t => t.disp = { s.disp with pc := s.disp.pc + 4 }) ∧
    (s.ready opc o → priv → Does c s trapZone fun t => s.trapped t 3 s.here.toNat 0 s.here) ∧
    (s.ready opc o → ¬ priv → o.mode ≠ 3 → (hasOperand opc o.sub = true ∨ opc = 0x02) →
      misaligned (decide (opc ≠ 0x02)) (s.operandAddr o) (operandBytes opc o.sub) = true →
      Does c s trapZone fun t => s.trapped t 4 (s.operandAddr o) 0 s.here)

/-- Memory operands (R204, R205, R230), ST and the store-pair buffer (R206, R231). -/
def Obligations.MemoryOperandsAndStores : Prop :=
  ∀ (s : State) (o : SOp),
    let d := s.disp
    let index : Nat := match o.mode with | 1 => d.ixa.toNat | 2 => d.ixb.toNat | _ => 0
    let addr := d.bnk.toNat * 0x10000 + (o.addr + index) % 0x10000
    let bytes : Nat := match o.sub with | 0 => 4 | 1 => 2 | 2 => 1 | _ => 1
    let post := fun (t : State) (a : Nat) (v : Word64) (be : BitVec 8) => ∃ tag, t.jt.txns = s.jt.txns ++
      [⟨56, s.dispInit, tag, true, false, a, 8, [(v, be)], false, .issued, 0, []⟩]
    let room := s.postedCount < 8
    o.mode < 3 →
    (∀ (c : Instr) (opc : Nat), scalarOf c = some (opc, o) → s.ready opc o → hasOperand opc o.sub = true →
      (opc = 0x11 → d.ds.length < 32) →
      let n := if opc = 0x01 then (match o.sub with | 0 => 4 | 1 => 2 | 2 => 2 | _ => 1) else 4
      (addr % n = 0 ∨ addr < 0x800000) → addr % 0x10000 + n ≤ 0x10000 → Does c s [.disp, .jt] fun t =>
        t.disp = { d with wait := .operand opc o } ∧ ∃ tag, t.jt.txns = s.jt.txns ++
          [⟨56, s.dispInit, tag, false, false, addr, n, [], false, .issued, 0, []⟩]) ∧
    (s.ready 0x02 o → addr % bytes = 0 →
      (¬ (o.sub = 0 ∧ addr < 0x800000 ∧ addr % 8 = 0) → room → Does (.st o) s [.disp, .jt] fun t =>
        t.disp = { d with pc := d.pc + 4 } ∧
        post t (addr / 8 * 8) (BitVec.ofNat 64 (d.acc.toNat % 2 ^ (8 * bytes) * 2 ^ (8 * (addr % 8))))
          (BitVec.ofNat 8 ((2 ^ bytes - 1) * 2 ^ (addr % 8)))) ∧
      (¬ (o.sub = 0 ∧ addr < 0x800000 ∧ addr % 8 = 0) → ¬ room → Does (.st o) s [.disp] fun t =>
        t.disp = { d with wait := .posted 0x02 o }) ∧
      (o.sub = 0 ∧ addr < 0x800000 ∧ addr % 8 = 0 → Does (.st o) s [.disp] fun t =>
        t.disp = { d with pair := some (BitVec.ofNat 52 addr, d.acc), pc := d.pc + 4 })) ∧
    (s.ready 0x02 o → addr % bytes ≠ 0 → d.rs.length < 16 →
      Does (.st o) s [.disp, .block 17, .sched, .kernels, .running, .log, .free] fun t => s.trapped t 4 addr 0 s.here) ∧
    ∀ lo, d.pair = some (BitVec.ofNat 52 (addr - 4), lo) → ({ s with disp := { d with pair := none } }).ready 0x02 o → o.sub = 0 →
      addr % 8 = 4 → room → Does (.st o) s [.disp, .jt] fun t =>
        t.disp = { d with pair := none, pc := d.pc + 4 } ∧ post t (addr - 4) (d.acc ++ lo) 0xFF

/-- LOAD_RESPONSE and STORE_ERROR (R208, R230, R231). -/
def Obligations.LoadAndStoreResponses : Prop :=
  ∀ (s : State),
    let d := s.disp
    let base := s.waitFor .none
    let zones : List Zone := [.disp, .jt, .block 17, .sched, .kernels, .running, .log, .free]
    let error := fun (t : State) (cause addr flags : Nat) (ret : BitVec 52) =>
      t.disp.tcause = BitVec.ofNat 32 (flags + cause) ∧ t.disp.taddr = BitVec.ofNat 52 addr ∧ t.disp.rs = ret :: d.rs ∧
      t.disp.pc = BitVec.ofNat 16 (16 * cause) ∧ t.disp.acc = d.acc ∧ t.psw 9 = true ∧ t.disp.spsw = d.psw
    (∀ (opc : Nat) (o : SOp) (x : Txn) (r : Resp) (bytes : List Byte) (er : Resp) (ext : Word64),
      base.still → d.wait = .operand opc o → s.loadTxn = some x → s.txn 56 x.tag = some x → x.stage = .answered r bytes →
      let n := leNat bytes
      let gone := fun (t : State) => ∀ y, y ∈ t.jt.txns ↔ y ∈ s.jt.txns ∧ ¬ (y.src = 56 ∧ y.tag = x.tag)
      (r = .ok → opc = 0x01 → o.sub ≤ 4 → Does (.loadResponse er ext) s [.disp, .jt] fun t =>
        gone t ∧ t.disp = { d with wait := .none, pc := d.pc + 4, late := { noLate with acc := some (
          match o.sub with
          | 0 => BitVec.ofNat 32 n
          | 1 => BitVec.ofNat 32 (n % 2 ^ 16)
          | 2 => (BitVec.ofNat 16 n).signExtend 32
          | 3 => BitVec.ofNat 32 (n % 2 ^ 8)
          | _ => (BitVec.ofNat 8 n).signExtend 32) } }) ∧
      (r = .ok → opc = 0x04 ∨ opc = 0x05 ∨ opc = 0x06 ∨ opc = 0x07 ∨ opc = 0x08 → o.sub = 0 →
        Does (.loadResponse er ext) s [.disp, .jt] fun t => gone t ∧ t.disp.pc = d.pc + 4 ∧ t.disp.wait = .none ∧
          t.disp = { d with wait := .none, pc := d.pc + 4, acc := t.disp.acc, psw := t.disp.psw } ∧
          (∀ i, 4 ≤ i → t.psw i = s.psw i) ∧
          t.disp.acc = match opc with
            | 0x04 => d.acc + BitVec.ofNat 32 n
            | 0x05 => d.acc - BitVec.ofNat 32 n
            | 0x06 => d.acc &&& BitVec.ofNat 32 n
            | 0x07 => d.acc ||| BitVec.ofNat 32 n
            | _ => d.acc ^^^ BitVec.ofNat 32 n) ∧
      (r ≠ .ok → d.rs.length < 16 → Does (.loadResponse er ext) s zones fun t =>
        gone t ∧ error t 6 x.addr (respCode r * 2 ^ 12) s.here)) ∧
    (∀ (er : Resp) (ext : Word64), s.loadTxn = none → s.still → d.rs.length < 16 → er ≠ .ok →
      Does (.loadResponse er ext) s [.disp, .block 17, .sched, .kernels, .running, .log, .free] fun t =>
        error t 1 s.here.toNat (respCode er * 2 ^ 12) s.here) ∧
    ∀ (addr : Nat) (x : Txn) (r : Resp), s.still → d.rs.length < 16 → x ∈ s.jt.txns → x.src = 56 → x.write = true →
      x.addr = addr / 8 * 8 → x.late = false →
      (∀ y ∈ s.jt.txns, y.src = 56 → y.write = true → y.addr = addr / 8 * 8 → y = x) →
      (r = .ok → Does (.storeError addr r) s [.jt] fun t => ∀ y, y ∈ t.jt.txns ↔ y ∈ s.jt.txns ∧ y ≠ x) ∧
      (r ≠ .ok → Does (.storeError addr r) s zones fun t => (∀ y, y ∈ t.jt.txns ↔ y ∈ s.jt.txns ∧ y ≠ x) ∧
        error t 6 addr (2 ^ 15 + respCode r * 2 ^ 12) s.here)

/-- INTERRUPT_ENTRY (R223, R225), COPROC (R245), COPROC_RESPONSE and CPRSP (R246). -/
def Obligations.InterruptsAndCoprocessor : Prop :=
  ∀ (s : State),
    let d := s.disp
    (s.mayInterrupt = true →
      (s.atBoundary = true → Does (.interruptEntry .boundary) s [.disp, .block 17] fun t => s.interrupted t s.here d.psw) ∧
      (d.wait = .fxfer ∨ (∃ tag, d.wait = .fsync tag) →
        Does (.interruptEntry .wait) s [.disp, .block 17] fun t => s.interrupted t s.here d.psw) ∧
      (d.wait = .wfi → Does (.interruptEntry .wait) s [.disp, .block 17] fun t => s.interrupted t (s.after 4) d.psw) ∧
      (∀ (c : Instr) (opc : Nat) (o : AOp) (k : Nat), arrayOf c = some (opc, o) → opc ≤ 0x2B → opc ≠ 0x2A → s.arrayReady opc o →
        s.arr.suspended = false → 0 < k → 8 * k < baseSteps opc o → ∃ t, exec (.interruptEntry (.safePoint opc o k)) s = .next t ∧
          s.interrupted t s.here t.disp.spsw ∧ t.disp.spsw.getLsbD 10 = true ∧ bitsOf t.disp.spsw 28 16 = k % 2 ^ 13 ∧
          t.arr.suspended = true ∧ t.disp.acc = d.acc ∧ t.disp.tcause = d.tcause)) ∧
    (s.mayInterrupt = false → exec (.interruptEntry .boundary) s = .next s ∧ exec (.interruptEntry .wait) s = .next s) ∧
    (∀ (u : Nat) (o : SOp), u < 8 → o.mode = 3 → s.ready (0x30 + u) o → Does (.coproc u o) s [.disp, .jt] fun t =>
      t.disp = { d with wait := .coproc u } ∧ ∃ tag, t.jt.txns = s.jt.txns ++ [⟨56, s.dispInit, tag, false, true, 0, 0,
        [(BitVec.ofNat 64 (u + 8 * o.sub + 128 * 3), 0xFF), ((BitVec.ofNat 32 (o.addr % 2 ^ 16) : Word) ++ d.acc, 0xFF)],
        false, .issued, 52, []⟩]) ∧
    ∀ (u : Nat) (x : Txn) (r : Resp) (result : Word) (flags : Option (BitVec 4)), d.wait = .coproc u → (s.waitFor .none).still →
      s.coprocTxn = some x → s.txn 56 x.tag = some x →
      (x.stage = .delivered 52 → r = .ok → ∀ c ∈ [Instr.coprocResponse r result flags, .cprsp r result flags], Does c s [.disp, .jt] fun t =>
        t.disp = { d with wait := .none, pc := d.pc + 4, late := { noLate with acc := some result }, psw := t.disp.psw } ∧
        (∀ i, 4 ≤ i → t.psw i = s.psw i) ∧ (∀ i, i < 4 → t.psw i = (flags.map fun f => f.getLsbD i).getD (s.psw i))) ∧
      ((x.stage = .delivered 52 ∧ r ≠ .ok) ∨ (x.stage = .issued ∧ x.guar = false ∧ s.fence 56 = 0 ∧ s.fence 52 = 0 ∧ s.fabState ≠ 4) →
        d.rs.length < 16 →
        Does (.coprocResponse r result flags) s [.disp, .jt, .block 17, .sched, .kernels, .running, .log, .free] fun t =>
          t.disp.tcause = BitVec.ofNat 32 ((if x.stage = .issued then 1 else respCode r) * 2 ^ 12 + 0x0C) ∧
          t.disp.taddr = s.here ∧ t.disp.rs = s.here :: d.rs ∧ t.disp.pc = 0xC0 ∧ t.disp.acc = d.acc)

/-- FPS and FPH with an immediate operand (R239 to R241, R243, R244). -/
def Obligations.FloatingPoint : Prop :=
  ∀ (s : State) (o : SOp) (single : Bool), o.mode = 3 →
    let d := s.disp
    let f := if single then fmtS else fmtH
    let c := if single then Instr.fps o else Instr.fph o
    let a := if single then d.acc.toNat else d.acc.toNat % 2 ^ 16
    let b := if single then o.addr % 2 ^ 16 * 2 ^ 16 else o.addr % 2 ^ 16
    let nan : Nat := if single then 0x7FC00000 else 0x7E00
    s.ready (if single then 0x16 else 0x17) o →
    (bitsOf d.fpctl 12 8 = 0 → Does c s [.disp] fun t =>
      t.disp = { d with pc := d.pc + 4, acc := t.disp.acc, psw := t.disp.psw, fpctl := t.disp.fpctl } ∧
      (∀ i, 5 ≤ i → t.disp.fpctl.getLsbD i = d.fpctl.getLsbD i) ∧ (∀ i, d.fpctl.getLsbD i = true → t.disp.fpctl.getLsbD i = true) ∧
      (∀ i, 4 ≤ i → t.psw i = s.psw i) ∧ (o.sub ≠ 7 → t.disp.psw = d.psw) ∧ (o.sub = 7 → t.disp.acc = d.acc) ∧
      (∀ x y z : ℚ, ∀ v < 2 ^ (1 + f.eb + f.mb), fpValue f a = some x → fpValue f b = some y → fpValue f v = some z → z ≠ 0 →
        (o.sub = 0 ∧ z = x + y) ∨ (o.sub = 1 ∧ z = x - y) ∨ (o.sub = 2 ∧ z = x * y) →
        t.disp.acc.toNat = v ∧ t.disp.fpctl = d.fpctl) ∧
      (∀ x y : ℚ, o.sub = 7 → fpValue f a = some x → fpValue f b = some y →
        t.psw 0 = decide (x = y) ∧ t.psw 1 = decide (y ≤ x) ∧ t.psw 2 = decide (x < y) ∧ t.psw 3 = false) ∧
      (o.sub = 7 → fpNaN f a ∨ fpNaN f b → t.psw 0 = false ∧ t.psw 1 = false ∧ t.psw 2 = false ∧ t.psw 3 = true) ∧
      (o.sub ≤ 3 → fpNaN f a ∨ fpNaN f b → t.disp.acc.toNat = nan) ∧
      (single = true → o.sub = 0xE ∨ o.sub = 0xF → t.disp.fpctl = d.fpctl ∧ (fpNaN f b → t.disp.acc.toNat = nan) ∧
        (¬ fpNaN f b → o.sub = 0xE → t.disp.acc.toNat = b % 2 ^ 31) ∧
        (¬ fpNaN f b → o.sub = 0xF → t.disp.acc.toNat = (b + 2 ^ 31) % 2 ^ 32))) ∧
    (∀ x : ℚ, o.sub = 3 → fpValue f a = some x → x ≠ 0 → fpValue f b = some 0 → bitsOf d.fpctl 12 8 / 8 % 2 = 1 → d.rs.length < 16 →
      Does c s [.disp, .block 17, .sched, .kernels, .running, .log, .free] fun t =>
        t.disp.tcause = 0x0B ∧ t.disp.taddr = s.here ∧ t.disp.rs = s.here :: d.rs ∧ t.disp.pc = 0xB0 ∧ t.disp.acc = d.acc ∧
        t.disp.spsw = d.psw ∧ bitsOf t.disp.fpctl 28 24 = 8 ∧ bitsOf t.disp.fpctl 4 0 = bitsOf d.fpctl 4 0)

/-- MNOP, MALU, MALUI, MLUI, MBR, MCALL, MRET, MLOOP, BSD, BSA and BSW (R255 to R262). -/
def Obligations.MicrowordsOfARoutine : Prop :=
  ∀ (s : State) (m : Micro), s.inRoutine m →
    let d := s.disp
    let next := m.upc + 1
    let inside := fun a : Nat => 0x3800 ≤ a ∧ a ≤ 0x3FFF
    let undef := fun (c : Instr) (reason : Nat) => s.bit Reg.CS_ERR 31 = false → d.rs.length < 16 →
      Does c s [.disp, .block 17, .sched, .kernels, .running, .log, .free] fun t => s.trapped t 2 s.here.toNat 0 s.here ∧
        t.disp.micro = none ∧ t.bit Reg.CS_ERR 31 = true ∧ t.fld Reg.CS_ERR 18 16 = reason ∧ t.fld Reg.CS_ERR 13 0 = m.upc
    let goes := fun (c : Instr) (m' : Micro) => Does c s [.disp] fun t =>
      t.disp = { d with micro := some { m' with wdog := m.wdog + 1 } }
    goes .mnop { m with upc := next } ∧ goes .bsw { m with upc := next } ∧
    (∀ (dst op : Nat) (f : Bool) (a b : Word) (c : Instr), dst < 16 →
      (∃ ra rb, c = .malu dst ra rb op f ∧ a = s.microGet m ra ∧ b = s.microGet m rb) ∨
        (∃ ra imm, c = .malui dst ra op f imm ∧ a = s.microGet m ra ∧
          b = if op = 0 ∨ op = 1 then imm.signExtend 32 else imm.setWidth 32) →
      let n := b.toNat % 32
      let r : Word := match op with
        | 0x0 => a + b
        | 0x1 => a - b
        | 0x2 => a &&& b
        | 0x3 => a ||| b
        | 0x4 => a ^^^ b
        | 0x5 => a &&& ~~~b
        | 0x6 => a <<< n
        | 0x7 => a >>> n
        | 0x8 => a.sshiftRight n
        | 0x9 => if a.toNat ≤ b.toNat then a else b
        | 0xA => if a.toNat ≤ b.toNat then b else a
        | _ => b
      (op < 0xC → Does c s [.disp] fun t => ∃ m', t.routineAt m m' next ∧ s.microWrote t m m' dst r ∧
        (∀ i, 4 ≤ i → t.psw i = s.psw i) ∧ t.disp.pc = d.pc ∧ t.disp.bnk = d.bnk ∧ t.disp.fpctl = d.fpctl ∧ t.disp.rs = d.rs ∧
        t.disp.ds = d.ds ∧ t.disp.prod = d.prod ∧ t.disp.quo = d.quo ∧ t.disp.rem = d.rem ∧ t.disp.spsw = d.spsw ∧
        (f = false → ∀ i, i < 4 → t.psw i = if dst = 7 then r.getLsbD i else s.psw i) ∧
        (f = true → t.psw 0 = decide (r = 0) ∧ t.psw 2 = r.msb) ∧
        (f = true → dst ≠ 7 → 2 ≤ op → t.psw 3 = s.psw 3 ∧ (op < 6 ∨ 8 < op → t.psw 1 = s.psw 1)) ∧
        (f = true → op = 0 → t.psw 1 = decide (2 ^ 32 ≤ a.toNat + b.toNat) ∧ t.psw 3 = decide (a.toInt + b.toInt ≠ r.toInt)) ∧
        (f = true → op = 1 → t.psw 1 = decide (b.toNat ≤ a.toNat) ∧ t.psw 3 = decide (a.toInt - b.toInt ≠ r.toInt))) ∧
      (0xC ≤ op → undef c 1)) ∧
    (∀ (dst : Nat) (imm : BitVec 16), dst < 16 → Does (.mlui dst imm) s [.disp] fun t => ∃ m', t.routineAt m m' next ∧
      s.microWrote t m m' dst (imm ++ (s.microGet m dst).extractLsb' 0 16) ∧ t.disp.pc = d.pc) ∧
    (∀ mc tgt : Nat, (s.cond mc = true → inside tgt → goes (.mbr mc tgt) { m with upc := tgt }) ∧
      (s.cond mc = true → ¬ inside tgt → undef (.mbr mc tgt) 2) ∧
      (s.cond mc = false → goes (.mbr mc tgt) { m with upc := next })) ∧
    (∀ tgt : Nat, (m.stack.length < 8 → inside tgt → goes (.mcall tgt) { m with upc := tgt, stack := next :: m.stack }) ∧
      (8 ≤ m.stack.length → undef (.mcall tgt) 3)) ∧
    (∀ a rest, m.stack = a :: rest → inside a → goes (.mret false) { m with upc := a, stack := rest }) ∧
    (m.stack = [] → undef (.mret false) 4) ∧
    (m.snapTaken = false → Does (.mret true) s [.disp] fun t => t.disp = { d with micro := none, pc := d.pc + 4 }) ∧
    (∀ dst tgt : Nat, 8 ≤ dst → dst < 16 → inside tgt → Does (.mloop dst tgt) s [.disp] fun t => ∃ m',
      t.routineAt m m' (if s.microGet m dst = 1 then next else tgt) ∧ s.microWrote t m m' dst (s.microGet m dst - 1) ∧
      t.disp = { d with micro := some m' }) ∧
    (∀ dst tgt : Nat, dst < 8 → undef (.mloop dst tgt) 7) ∧
    ∀ r : Nat, goes (.bsd r) { m with upc := next, template := (s.microGet m r).extractLsb' 0 25 } ∧
      goes (.bsa r) { m with
        upc := next, ra := bitsOf (s.microGet m r) 9 0, rb := bitsOf (s.microGet m r) 19 10, wa := bitsOf (s.microGet m r) 29 20 }

/-- CUSTOMER_INSTRUCTION, MRD, MWR, BSI, POLL, WATCHDOG, CS_WDATA_ACCESS and DEC_ENTRY_WRITE (R249 to R275). -/
def Obligations.CustomerInstructionsAndTheirAccesses : Prop :=
  ∀ (s : State),
    let d := s.disp
    let traps : List Zone := [.disp, .block 17, .sched, .kernels, .running, .log, .free]
    (∀ (opc : Nat) (o : SOp), s.still → 0x38 ≤ opc → opc ≤ 0x3F → o.mode < 4 → o.sub < 16 → o.addr < 2 ^ 16 → o.cond < 16 →
      let i := 4 * opc + o.mode
      (s.decValid i = true → s.cond o.cond = true → Does (.customerInstruction opc o) s [.disp, .free] fun t => ∃ temps,
        temps.length = 8 ∧ t.disp = { d with micro := some ⟨bitsOf (s.decEntry i) 13 0, [], temps, 0, 0, 0, 0,
          BitVec.ofNat 16 (match o.mode with | 0 => o.addr | 1 => o.addr + d.ixa.toNat | 2 => o.addr + d.ixb.toNat | _ => o.addr),
          (BitVec.ofNat 16 o.addr).signExtend 32,
          BitVec.ofNat 32 (o.cond * 2 ^ 28 + opc * 2 ^ 22 + o.mode * 2 ^ 20 + o.sub * 2 ^ 16 + o.addr), 0, false, false⟩ }) ∧
      (s.decValid i = true → s.cond o.cond = false → Does (.customerInstruction opc o) s [.disp] fun t =>
        t.disp = { d with pc := d.pc + 4 }) ∧
      (s.decValid i = false → d.rs.length < 16 → Does (.customerInstruction opc o) s traps fun t =>
        s.trapped t 2 s.here.toNat 0 s.here)) ∧
    (∀ m : Micro, s.inRoutine m →
      let m1 := { m with upc := m.upc + 1, wdog := m.wdog + 1 }
      (∀ (r a sz : Nat) (off : BitVec 16), r < 16 → sz < 4 → (sz = 3 → 8 ≤ r ∧ r % 2 = 0) →
        let n : Nat := match sz with | 0 => 4 | 1 => 2 | 2 => 1 | _ => 8
        let addr := d.bnk.toNat * 0x10000 + ((s.microGet m a).toNat + off.toNat) % 0x10000
        let v : Nat := if sz = 3 then (s.microGet m (r + 1)).toNat * 2 ^ 32 + (s.microGet m r).toNat
          else (s.microGet m r).toNat % 2 ^ (8 * n)
        (addr % n = 0 → Does (.mrd r a sz off) s [.disp, .jt] fun t =>
          t.disp = { d with micro := some m1, wait := .micro r sz } ∧ ∃ tag, t.jt.txns = s.jt.txns ++
            [⟨56, s.dispInit, tag, false, false, addr, n, [], false, .issued, 0, []⟩]) ∧
        (addr % n = 0 → s.postedCount < 8 → Does (.mwr r a sz off) s [.disp, .jt] fun t =>
          t.disp = { d with micro := some m1 } ∧ ∃ tag, t.jt.txns = s.jt.txns ++
            [⟨56, s.dispInit, tag, true, false, addr / 8 * 8, 8, [(BitVec.ofNat 64 (v * 2 ^ (8 * (addr % 8))),
              BitVec.ofNat 8 ((2 ^ n - 1) * 2 ^ (addr % 8)))], false, .issued, 0, []⟩]) ∧
        (addr % n = 0 → 8 ≤ s.postedCount → Does (.mwr r a sz off) s [.disp] fun t =>
          t.disp = { d with wait := .microPosted r a sz off }) ∧
        (addr % n ≠ 0 → d.rs.length < 16 → Does (.mwr r a sz off) s traps fun t =>
          s.trapped t 4 addr 0 s.here ∧ t.disp.micro = none)) ∧
      (∀ r inc : Nat,
        let n := (s.microGet m r).toNat % 2 ^ 11
        let desc := descOf (BitVec.ofNat 64 (m.template.toNat * 2 ^ 30))
        let last := fun (base bit : Nat) => base + (if inc.testBit bit then n - 1 else 0)
        let uses := fun (lo hi : Nat) => (lo, hi) = (m.ra, last m.ra 0) ∨ (desc.sy = 0 ∧ (lo, hi) = (m.rb, last m.rb 1)) ∨
          (desc.we = true ∧ (lo, hi) = (m.wa, last m.wa 2))
        (n ≤ 1024 → (∀ lo hi, uses lo hi → hi < 1008) →
          Does (.bsi r inc) s [.disp, .planes, .arr, .block 16, .free, .block 8, .block 1, .out, .block 3] fun t =>
            ∃ m', t.disp.micro = some m' ∧ m'.upc = m.upc + 1 ∧ m'.wdog = m.wdog + 1 ∧ t.disp.pc = d.pc ∧ t.disp.acc = d.acc ∧
              m'.ra = (m.ra + if inc.testBit 0 then n else 0) % 1024 ∧ m'.rb = (m.rb + if inc.testBit 1 then n else 0) % 1024 ∧
              m'.wa = (m.wa + if inc.testBit 2 then n else 0) % 1024 ∧ m'.t = m.t ∧
              t.arr.bscnt % 2 ^ 64 = (s.arr.bscnt + n) % 2 ^ 64) ∧
        (n ≤ 1024 → n ≠ 0 → d.rs.length < 16 → (∃ lo hi, uses lo hi ∧ 1008 ≤ hi ∧ lo ≤ 1023) →
          Does (.bsi r inc) s traps fun t => s.trapped t 3 s.here.toNat 0 s.here ∧ t.disp.micro = none) ∧
        (1024 < n → s.bit Reg.CS_ERR 31 = false → d.rs.length < 16 → Does (.bsi r inc) s traps fun t =>
          s.trapped t 2 s.here.toNat 0 s.here ∧ t.disp.micro = none ∧ t.fld Reg.CS_ERR 18 16 = 5)) ∧
      (s.psw 8 = false ∨ s.icRequest = false ∨ 15 ≤ d.rs.length ∨ s.arr.suspended = true → Does .poll s [.disp] fun t =>
        t.disp = { d with micro := some { m1 with wdog := 0 } }) ∧
      (s.psw 8 = true → s.icRequest = true → d.rs.length < 15 → s.arr.suspended = false →
        Does .poll s [.block 17, .disp, .free, .planes, .arr, .block 16, .block 8, .block 1, .out] fun t =>
          s.interrupted t s.here t.disp.spsw ∧ t.disp.spsw.getLsbD 10 = true ∧ bitsOf t.disp.spsw 28 16 = 0 ∧
          t.arr.suspended = true ∧ t.disp.micro = none)) ∧
    (∀ m : Micro, d.micro = some m → 255 ≤ m.wdog → ({ s with disp := { d with micro := none } }).still → d.rs.length < 16 →
      s.bit Reg.CS_ERR 31 = false → Does .watchdog s traps fun t => s.trapped t 0x0D s.here.toNat 0 s.here ∧
        t.disp.micro = none ∧ t.bit Reg.CS_ERR 31 = true ∧ t.fld Reg.CS_ERR 18 16 = 6 ∧ t.fld Reg.WDOG_CNT 8 0 = 256) ∧
    (∀ v : Word,
      let a := s.fld Reg.CS_WADDR 13 0
      let a' : Nat := if a = 0x3FFF then 0x3800 else if a = 0x37FF then 0x3000 else a + 1
      let denied := a < 0x3000 ∨ (s.bit Reg.CS_CTL 0 = true ∧ a < 0x3800)
      let i := s.fld Reg.DEC_IDX 7 0
      let refused := (i < 0xE0 ∧ s.bit Reg.CS_CTL 0 = true) ∨ (0xE0 ≤ i ∧ bitsOf v 13 0 < 0x3800)
      (Does (.csWdataAccess false v) s [.block 17] fun t => t.fld Reg.CS_WADDR 13 0 = a' ∧ RegsBut [Reg.CS_WADDR] s t) ∧
      (denied → exec (.csWdataAccess true v) s = .next s) ∧
      (¬ denied → Does (.csWdataAccess true v) s [.block 17, .cs] fun t => t.fld Reg.CS_WADDR 13 0 = a' ∧ t.csWord a = v ∧
        (∀ b, b ≠ a → t.csWord b = s.csWord b) ∧ t.cs.dec = s.cs.dec ∧ RegsBut [Reg.CS_WADDR] s t) ∧
      (refused → exec (.decEntryWrite v) s = .next s) ∧
      (¬ refused → Does (.decEntryWrite v) s [.cs] fun t => t.decEntry i = v &&& 0x80003FFF ∧
        (∀ j, j ≠ i → t.decEntry j = s.decEntry j) ∧ t.cs.ram = s.cs.ram))

/-- SCRATCHPAD_READ and SCRATCHPAD_WRITE (R283 to R288). -/
def Obligations.ScratchpadAccesses : Prop :=
  ∀ (s : State) (src tag : Nat) (met : List Nat),
    let answered := fun (t : State) (r : Resp) => ∃ y data, t.txn src tag = some y ∧ y.stage = .answered r data
    let data := fun (w : Nat) => (decode72 (s.spCell (s.spKey w))).1
    let clean := fun (w : Nat) => (decode72 (s.spCell (s.spKey w))).2 = .clean
    let bad := fun (w : Nat) => ∃ syn, (decode72 (s.spCell (s.spKey w))).2 = .bad syn
    (∀ x, s.txn src tag = some x → x.stage = .delivered 57 → x.cp = false → x.write = false → 0 < x.len →
      let last := (x.addr + x.len - 1) / 8
      (x.addr + x.len ≤ 0x800000 → s.bit Reg.MEM_STAT 0 = false → (∀ w, x.addr / 8 ≤ w → w ≤ last → clean w) →
        Does (.scratchpadRead src tag) s [.jt, .free] fun t => ∃ y bytes, t.txn src tag = some y ∧
          y.stage = .answered .ok bytes ∧ bytes.length = x.len ∧ ∀ i, i < x.len →
            bytes[i]? = some ((data ((x.addr + i) / 8)).extractLsb' (8 * ((x.addr + i) % 8)) 8)) ∧
      (x.addr + x.len ≤ 0x800000 → s.bit Reg.MEM_STAT 0 = false → (∃ w, x.addr / 8 ≤ w ∧ w ≤ last ∧ bad w) →
        (∀ w, x.addr / 8 ≤ w → w ≤ last → clean w ∨ bad w) →
        Does (.scratchpadRead src tag) s [.jt, .free, .block 8, .block 1, .out] fun t => answered t .poison ∧ t.pends 52 = true) ∧
      (x.addr + x.len ≤ 0x800000 → s.bit Reg.MEM_STAT 0 = true → Does (.scratchpadRead src tag) s [.jt, .free] fun t => answered t .slverr) ∧
      (0x800000 < x.addr + x.len → Does (.scratchpadRead src tag) s [.jt, .free] fun t => answered t .decerr)) ∧
    (∀ x, s.txn src tag = some x → x.stage = .delivered 57 → x.cp = false → x.write = true → x.bad = [] → x.addr % 8 = 0 →
      let c := Instr.scratchpadWrite src tag met
      let w := x.addr / 8
      (s.bit Reg.MEM_STAT 0 = true → x.data ≠ [] → Does c s [.jt] fun t => answered t .slverr) ∧
      (s.bit Reg.MEM_STAT 0 = false → Does c s [.jt, .sp, .block 8, .block 1, .out] fun t => ∀ k,
        (∀ i, i < x.data.length → k ≠ s.spKey (w + i)) → t.spCell k = s.spCell k) ∧
      ∀ d be, x.data = [(d, be)] → s.bit Reg.MEM_STAT 0 = false →
        (w < 0x100000 → be = 0xFF → w ∉ met → Does c s [.jt, .sp] fun t => answered t .ok ∧ t.spCell (t.spKey w) = encode72 d) ∧
        (w < 0x100000 → be ≠ 0xFF → Does c s [.jt] fun t => answered t .narrow) ∧
        (w < 0x100000 → be = 0xFF → w ∈ met → Does c s [.jt, .block 8, .block 1, .out] fun t => answered t .collided ∧
          t.pends 56 = true ∧ (t.reg Reg.COLL_CNT).toNat = min ((s.reg Reg.COLL_CNT).toNat + 1) (2 ^ 32 - 1) ∧
          t.bit Reg.COLL_REC_HI 31 = true) ∧
        (0x100000 ≤ w → Does c s [.jt] fun t => answered t .decerr)) ∧
    (s.txn src tag = none → exec (.scratchpadRead src tag) s = .next s ∧ exec (.scratchpadWrite src tag met) s = .next s)

/-- SECURE_REGION_WRITE (R304, R308), LPDDR5_WRITE and LPDDR5_READ (R315 to R318). -/
def Obligations.SecureRegionAndLpddr5Accesses : Prop :=
  ∀ (s : State) (src tag : Nat) (x : Txn), s.txn src tag = some x → x.cp = false → x.bad = [] →
    let answered := fun (t : State) (r : Resp) => ∃ y data, t.txn src tag = some y ∧ y.stage = .answered r data
    let merged := fun (old new m : Word64) (be : BitVec 8) => ∀ i, i < 64 →
      m.getLsbD i = if be.getLsbD (i / 8) then new.getLsbD i else old.getLsbD i
    (∀ k d be, x.stage = .delivered 58 → x.write = true → x.addr = 0x1000000 + 8 * k → x.data = [(d, be)] → k < 0x8000 →
      let c := Instr.secureRegionWrite src tag
      (s.bit Reg.MEM_STAT 2 = true → Does c s [.jt] fun t => answered t .slverr) ∧
      (s.bit Reg.MEM_STAT 2 = false → be = 0xFF → Does c s [.jt, .sec] fun t =>
        answered t .ok ∧ t.secCell k = encode72 d ∧ ∀ j, j ≠ k → t.secCell j = s.secCell j) ∧
      (s.bit Reg.MEM_STAT 2 = false → be = 0x0F ∨ be = 0xF0 → (decode72 (s.secCell k)).2 = .clean →
        Does c s [.jt, .sec, .free] fun t => answered t .ok ∧
          (∃ m, t.secCell k = encode72 m ∧ merged (decode72 (s.secCell k)).1 d m be) ∧
          ∀ j, j ≠ k → Store.get (fun _ => s.mem.secBase) t.mem.sec j = Store.get (fun _ => s.mem.secBase) s.mem.sec j) ∧
      (s.bit Reg.MEM_STAT 2 = false → be ≠ 0xFF → be ≠ 0x0F → be ≠ 0xF0 → Does c s [.jt] fun t => answered t .narrow)) ∧
    (∀ p k d be, x.stage = .delivered p → 60 ≤ p → p < 64 → x.write = true → x.addr = 0x100000000 + 8 * k → x.data = [(d, be)] →
      let c := Instr.lpddr5Write src tag
      (8 * (k + 1) ≤ s.ddrUsable → be = 0xFF → Does c s [.jt, .ddr] fun t =>
        answered t .ok ∧ t.ddrCell k = encode72 d ∧ ∀ j, j ≠ k → t.ddrCell j = s.ddrCell j) ∧
      (8 * (k + 1) ≤ s.ddrUsable → be ≠ 0xFF → be ≠ 0 → (s.bit Reg.DDR_CFG 8 = true → (decode72 (s.ddrCell k)).2 = .clean) →
        Does c s [.jt, .ddr, .free] fun t => answered t .ok ∧
          (∃ m, t.ddrCell k = encode72 m ∧
            merged (if s.bit Reg.DDR_CFG 8 then (decode72 (s.ddrCell k)).1 else (s.ddrCell k).extractLsb' 0 64) d m be) ∧
          ∀ j, j ≠ k → Store.get (fun _ => none) t.mem.ddr j = Store.get (fun _ => none) s.mem.ddr j) ∧
      (s.ddrUsable < 8 * (k + 1) → Does c s [.jt] fun t => answered t .decerr)) ∧
    (∀ p, x.stage = .delivered p → 60 ≤ p → p < 64 → x.write = false → 0x100000000 ≤ x.addr → 0 < x.len →
      let c := Instr.lpddr5Read src tag
      let off := x.addr - 0x100000000
      (off + x.len ≤ s.ddrUsable → s.bit Reg.DDR_CFG 8 = false → Does c s [.jt, .free] fun t => ∃ y bytes,
        t.txn src tag = some y ∧ y.stage = .answered .ok bytes ∧ bytes.length = x.len ∧ ∀ i, i < x.len →
          bytes[i]? = some ((s.ddrCell ((off + i) / 8)).extractLsb' (8 * ((off + i) % 8)) 8)) ∧
      (s.ddrUsable < off + x.len → Does c s [.jt, .free] fun t => answered t .decerr))

/-- MEM_FILL_START, FILL_DONE, BUCKET_LEAK, BKT_CFG_WRITE, LOG_STAT_ACK, REMAP_WRITE and SCRUB_ACCESS (R288 to R303). -/
def Obligations.MemoryHousekeeping : Prop :=
  ∀ (s : State),
    let refused := fun (c : Instr) => Does c s [.block 8] fun t => t.bit Reg.MEM_STAT 4 = true ∧ RegsBut [Reg.MEM_STAT] s t
    (Does .memFillStart s [.block 8] fun t => t.bit Reg.MEM_STAT 0 = true ∧ RegsBut [Reg.MEM_STAT] s t) ∧
    (s.bit Reg.MEM_STAT 0 = true → Does .fillDone s [.block 1, .out, .block 8, .sp] fun t =>
      (∀ k, t.spCell k = 0) ∧ t.bit Reg.MEM_STAT 0 = false ∧ t.bit Reg.MEM_STAT 1 = true ∧ t.pends 59 = true ∧
      RegsBut [Reg.MEM_STAT] s t) ∧
    (s.bit Reg.MEM_STAT 0 = false → exec .fillDone s = .next s) ∧
    (∀ k v, k < 4 →
      let stat := Reg.BKT_STAT + 0x80 * k
      let cfg := Reg.BKT_CFG + 0x80 * k
      let log := Reg.LOG_STAT + 0x80 * k
      let legal := bitsOf v 7 0 ≠ 0 ∧ 1 ≤ bitsOf v 25 16 ∧ bitsOf v 25 16 ≤ 1000
      let n := min (bitsOf v 19 16) (s.fld log 11 8)
      (Does (.bucketLeak k) s [.block 8] fun t => t.fld stat 7 0 = s.fld stat 7 0 - 1 ∧
        t.bit stat 31 = s.bit stat 31 ∧ RegsBut [stat] s t) ∧
      (legal → Does (.bktCfgWrite k v) s [.block 8] fun t => t.fld cfg 7 0 = bitsOf v 7 0 ∧
        t.fld cfg 25 16 = bitsOf v 25 16 ∧ t.fld stat 7 0 = 0 ∧ RegsBut [cfg, stat] s t) ∧
      (¬ legal → refused (.bktCfgWrite k v)) ∧
      (Does (.logStatAck k v) s [.block 8] fun t => t.fld log 11 8 = s.fld log 11 8 - n ∧
        t.fld log 2 0 = (s.fld log 2 0 + n) % 8 ∧ t.bit log 31 = (s.bit log 31 && !v.getLsbD 31) ∧ RegsBut [log] s t)) ∧
    (∀ b e v, b < 16 → e < 16 →
      let r := Reg.REMAP + 4 * (16 * b + e)
      let named := ∃ i, i < 16 ∧ i ≠ e ∧ s.bit (Reg.REMAP + 4 * (16 * b + i)) 31 = true ∧
        s.fld (Reg.REMAP + 4 * (16 * b + i)) 15 0 = bitsOf v 15 0
      let legal := s.bit Reg.MEM_STAT 0 = false ∧ s.bit Reg.MEM_STAT 1 = false ∧ ¬ named ∧ (s.bit r 30 = true → v.getLsbD 30 = true)
      (legal → Does (.remapWrite b e v) s [.block 8] fun t => t.bit r 31 = v.getLsbD 31 ∧ t.fld r 15 0 = bitsOf v 15 0 ∧
        t.bit r 30 = s.bit r 30 ∧ RegsBut [r] s t) ∧
      (¬ legal → refused (.remapWrite b e v))) ∧
    (∀ k dropped, k < 4 → s.fld (Reg.SCRUB_CFG + 0x80 * k) 15 0 = 0 → exec (.scrubAccess k dropped) s = .next s) ∧
    ∀ dropped, s.fld (Reg.SCRUB_CFG + 0x80) 15 0 ≠ 0 → s.bit Reg.MEM_STAT 2 = false →
      let u := Store.get (fun _ => 0) s.mem.scrubPtr 1
      let found := decode72 (s.secCell u)
      let ce := Reg.CE_COUNT + 0x80
      let ue := Reg.UE_COUNT + 0x80
      u < 0x8000 → Does (.scrubAccess 1 dropped) s [.memo, .block 1, .out, .block 8, .free, .sec] fun t =>
        Store.get (fun _ => 0) t.mem.scrubPtr 1 = (u + 1) % 0x8000 ∧
        (u = 0x7FFF → t.pends 58 = true ∧
          t.fld (Reg.SCRUB_CFG + 0x80) 31 24 = (s.fld (Reg.SCRUB_CFG + 0x80) 31 24 + 1) % 256) ∧
        (∀ j, j ≠ u → Store.get (fun _ => s.mem.secBase) t.mem.sec j = Store.get (fun _ => s.mem.secBase) s.mem.sec j) ∧
        t.mem = { s.mem with scrubPtr := t.mem.scrubPtr, sec := t.mem.sec } ∧
        match found.2 with
        | .clean => t.mem.sec = s.mem.sec ∧ t.reg ce = s.reg ce ∧ t.reg ue = s.reg ue
        | .fixed _ _ => (if dropped then t.mem.sec = s.mem.sec else t.secCell u = encode72 found.1) ∧
            (t.reg ce).toNat = min ((s.reg ce).toNat + 1) (2 ^ 32 - 1) ∧ t.reg ue = s.reg ue
        | .bad _ => t.mem.sec = s.mem.sec ∧ t.reg ce = s.reg ce ∧ t.pends 53 = true ∧
            (t.reg ue).toNat = min ((s.reg ue).toNat + 1) (2 ^ 32 - 1)

/-- TAMPER_TRIGGER, SECURE_WIPE_DONE, LC_REQ_WRITE, DDR_CFG_WRITE, DDR_TRAINING_END and MR4_POLL (R307 to R326). -/
def Obligations.WipesLifeCycleAndLpddr5Start : Prop :=
  ∀ (s : State),
    let refused := fun (c : Instr) (keys : List Nat) => Does c s [.block 8] fun t => t.bit Reg.MEM_STAT 4 = true ∧ RegsBut (Reg.MEM_STAT :: keys) s t
    (∀ trig, s.pwr.mode = .run ∨ s.pwr.mode = .idle ∨ s.pwr.mode = .sleep → trig ∈ [0, 1, 2, 5, 6] →
      Does (.tamperTrigger trig) s [.block 8] fun t => t.bit Reg.TAMPER_STAT trig = true ∧ t.bit Reg.MEM_STAT 2 = true ∧
        (s.bit Reg.MEM_STAT 2 = false → t.bit Reg.TAMPER_STAT 4 = true ∧
          t.fld Reg.TAMPER_STAT 31 24 = (s.fld Reg.TAMPER_STAT 31 24 + 1) % 256) ∧
        (s.bit Reg.MEM_STAT 2 = true → t.fld Reg.TAMPER_STAT 31 24 = s.fld Reg.TAMPER_STAT 31 24) ∧
        RegsBut [Reg.TAMPER_STAT, Reg.MEM_STAT] s t) ∧
    (∀ trig, s.pwr.mode = .deep → trig = 5 ∨ trig = 6 → Does (.tamperTrigger trig) s [.sec, .memo] fun t =>
      (∀ k, t.secCell k = 0) ∧ t.mem.wipeRec = s.mem.wipeRec ||| 2 ^ trig) ∧
    (∀ trig, s.pwr.mode = .off ∨ (s.pwr.mode = .deep ∧ trig ≠ 5 ∧ trig ≠ 6) → exec (.tamperTrigger trig) s = .next s) ∧
    (s.bit Reg.MEM_STAT 2 = true → Does .secureWipeDone s [.block 1, .out, .block 8, .sec] fun t =>
      (∀ k, t.secCell k = 0) ∧ t.bit Reg.MEM_STAT 2 = false ∧ (s.bit Reg.TAMPER_STAT 4 = true → t.pends 57 = true) ∧
      RegsBut [Reg.MEM_STAT] s t) ∧
    (s.bit Reg.MEM_STAT 2 = false → exec .secureWipeDone s = .next s) ∧
    (∀ v : Word,
      let cur := s.fld Reg.LC_STATE 2 0
      let tgt := bitsOf v 2 0
      let confirm := bitsOf v 31 24
      let permitted := (cur, tgt) ∈ [(0, 1), (0, 2), (0, 4), (1, 4), (2, 3), (2, 4), (3, 4)]
      let rejected := fun (t : State) => t.bit Reg.LC_REQ 8 = (s.bit Reg.LC_REQ 8 && !v.getLsbD 8)
      (confirm = 0xC5 → permitted → Does (.lcReqWrite v) s [.block 8, .memo] fun t => t.bit Reg.LC_REQ 9 = true ∧
        t.fld Reg.LC_REQ 2 0 = tgt ∧ t.mem.lcReq = some tgt ∧ rejected t ∧ RegsBut [Reg.LC_REQ] s t) ∧
      (confirm = 0xC5 → tgt = cur → Does (.lcReqWrite v) s [.block 8, .memo] fun t => t.bit Reg.LC_REQ 9 = false ∧
        t.fld Reg.LC_REQ 2 0 = cur ∧ t.mem.lcReq = none ∧ rejected t ∧ RegsBut [Reg.LC_REQ] s t) ∧
      (confirm = 0 → Does (.lcReqWrite v) s [.block 8] fun t => rejected t ∧ t.bit Reg.LC_REQ 9 = s.bit Reg.LC_REQ 9 ∧
        t.fld Reg.LC_REQ 2 0 = s.fld Reg.LC_REQ 2 0 ∧ RegsBut [Reg.LC_REQ] s t) ∧
      (confirm ≠ 0 → (confirm ≠ 0xC5 ∨ (¬ permitted ∧ tgt ≠ cur)) → refused (.lcReqWrite v) [Reg.LC_REQ])) ∧
    (∀ v : Word, s.bit Reg.DDR_CFG 31 = true ∨ 1 < bitsOf v 6 5 ∨ 3 < bitsOf v 4 2 → refused (.ddrCfgWrite v) []) ∧
    (∀ v : Word, s.bit Reg.DDR_CFG 31 = false → bitsOf v 6 5 ≤ 1 → bitsOf v 4 2 ≤ 3 → Does (.ddrCfgWrite v) s [.block 8] fun t =>
      t.fld Reg.DDR_CFG 6 0 = bitsOf v 6 0 ∧ t.bit Reg.DDR_CFG 8 = v.getLsbD 8 ∧ t.bit Reg.DDR_CFG 31 = v.getLsbD 31 ∧
      RegsBut [Reg.DDR_CFG] s t) ∧
    (∀ cached : Bool, s.bit Reg.DDR_CFG 31 = true → s.bit Reg.DDR_STAT 0 = false →
      let units := 32 * (s.fld Reg.DDR_CFG 4 2 + 1) * (s.fld Reg.DDR_CFG 6 5 + 1)
      (s.fld Reg.DDR_CFG 6 5 ≤ 1 → s.fld Reg.DDR_CFG 4 2 ≤ 3 → Does (.ddrTrainingEnd true cached) s [.block 8, .memo] fun t =>
        t.bit Reg.DDR_STAT 0 = true ∧ t.fld Reg.DDR_STAT 24 16 = (if s.bit Reg.DDR_CFG 8 then units * 7 / 8 else units) ∧
        t.ddrUsable = t.fld Reg.DDR_STAT 24 16 * 2 ^ 26 ∧ RegsBut [Reg.DDR_STAT] s t) ∧
      (Does (.ddrTrainingEnd false cached) s [.block 8, .block 1, .out] fun t => t.bit Reg.DDR_STAT 4 = true ∧
        t.bit Reg.DDR_STAT 0 = false ∧ t.pends 60 = true ∧ RegsBut [Reg.DDR_STAT] s t)) ∧
    (s.bit Reg.DDR_STAT 0 = true → Does (.mr4Poll true) s [.block 8, .block 1, .out] fun t =>
      t.bit Reg.DDR_STAT 3 = true ∧ t.pends 60 = true ∧ RegsBut [Reg.DDR_STAT] s t) ∧
    exec (.mr4Poll false) s = .next s

/-- RD, WR and CPREQ (R331 to R355). -/
def Obligations.RequestsAtTheRoot : Prop :=
  ∀ (s : State) (p : Packet) (write : Bool), s.txn p.src p.tag = none → p.bad = [] → p.ce = 0 → p.ini < 8 ∨ 17 < p.ini →
    let c := if write then Instr.wr p [] else .rd p
    let len := if write then 8 * p.data.length else p.len
    let others := fun (t : State) => ∀ src tag, (src, tag) ≠ (p.src, p.tag) → t.txn src tag = s.txn src tag
    let stage := fun (t : State) (g : Stage) => ∃ y, t.txn p.src p.tag = some y ∧ y.stage = g ∧ y.addr = p.addr ∧ y.init = p.ini
    let port := portOf s.ddrUsable p.addr
    let mapped := port ≠ none ∧ portOf s.ddrUsable (p.addr + (len - 1)) ≠ none
    let ranged := privileged p.addr = true → p.ini = 0
    let allowed := s.fwAllows p.ini p.addr len write = true
    (s.fence p.src ≠ 0 → Does c s [.jt] fun t => stage t .issued ∧ others t) ∧
    (s.fence p.src = 0 → ¬ mapped → Does c s [.jt, .block 18] fun t => stage t (.answered .decerr []) ∧ others t ∧
      t.bit Reg.JT_ERR_STAT 31 = true ∧ (s.bit Reg.JT_ERR_STAT 31 = true → t.bit Reg.JT_ERR_STAT 30 = true) ∧
      (s.bit Reg.JT_ERR_STAT 31 = false → t.fld Reg.JT_ERR_STAT 29 27 = 3 ∧ t.fld Reg.JT_ERR_STAT 19 15 = p.ini % 32 ∧
        (t.reg Reg.JT_ERR_ADDR_LO).toNat = p.addr % 2 ^ 32)) ∧
    (s.fence p.src = 0 → mapped → ¬ ranged → Does c s [.jt] fun t => stage t (.answered .denied []) ∧ others t) ∧
    (s.fence p.src = 0 → mapped → ranged → ¬ allowed → Does c s [.jt, .block 9, .block 1, .out] fun t =>
      stage t (.answered .denied []) ∧ others t ∧ t.pends 86 = true ∧ t.bit Reg.FW_DENY_HI 31 = true ∧
      (t.reg Reg.FW_DENY_CNT).toNat = min ((s.reg Reg.FW_DENY_CNT).toNat + 1) (2 ^ 32 - 1) ∧
      (s.bit Reg.FW_DENY_HI 31 = false → t.bit Reg.FW_DENY_HI 29 = write ∧ t.fld Reg.FW_DENY_HI 28 24 = p.ini % 32 ∧
        (t.reg Reg.FW_DENY_LO).toNat = p.addr % 2 ^ 32)) ∧
    (∀ q, port = some q → s.fence p.src = 0 → mapped → ranged → allowed →
      (s.fence q ≠ 0 ∨ malformed q p.addr len write = true → Does c s [.jt] fun t => stage t (.answered .slverr []) ∧ others t) ∧
      (s.fence q = 0 → malformed q p.addr len write = false → q = 48 ∨ q = 57 ∨ 60 ≤ q → Does c s [.jt] fun t =>
        stage t (.delivered q) ∧ others t)) ∧
    (s.fence p.src = 0 →
      (s.fence 52 ≠ 0 → Does (.cpreq p) s [.jt] fun t => stage t (.answered .slverr []) ∧ others t) ∧
      (s.fence 52 = 0 → s.fabState ≠ 4 → Does (.cpreq p) s [.jt] fun t => stage t (.answered .decerr []) ∧ others t) ∧
      (s.fence 52 = 0 → s.fabState = 4 → Does (.cpreq p) s [.jt] fun t => stage t (.delivered 52) ∧ others t))

/-- RDRSP, WRRSP, CPRSP, REQ_TIMEOUT and CORRUPT_HEADER (R336 to R352). -/
def Obligations.ResponsesAndLostPackets : Prop :=
  ∀ (s : State) (src tag : Nat) (x : Txn), s.txn src tag = some x → x.src = src →
    ¬ (16 ≤ src ∧ src < 20) → ¬ (32 ≤ src ∧ src < 38) → src ≠ 52 → src ≠ 56 →
    let gone := fun (t : State) => t.txn src tag = none ∧ ∀ a b, (a, b) ≠ (src, tag) → t.txn a b = s.txn a b
    let sends := fun (t : State) (r : Resp) (data : List Byte) => t.out = s.out ++ [Out.response src tag r data]
    (∀ ext data, x.write = false → x.cp = false →
      (∀ r d, x.stage = .answered r d → Does (.rdrsp src tag ext data false 0) s [.jt, .out] fun t =>
        gone t ∧ sends t r (if r = .ok then d else [])) ∧
      (x.stage = .delivered 48 → Does (.rdrsp src tag ext data false 0) s [.jt, .out] fun t =>
        gone t ∧ sends t ext (if ext = .ok then (data ++ List.replicate x.len 0).take x.len else [])) ∧
      (∀ d, x.stage = .answered .ok d → Does (.rdrsp src tag ext data true 0) s [.jt, .out, .block 1, .block 18, .free] fun t =>
        gone t ∧ .response src tag .poison [] ∈ t.out ∧ t.pends 81 = true)) ∧
    (∀ ext, x.write = true → ∀ r d, x.stage = .answered r d → Does (.wrrsp src tag ext 0) s [.jt, .out] fun t => gone t ∧ sends t r []) ∧
    (∀ ext todo, x.stage = .quarantined todo → x.cp = false →
      Does (if x.write then Instr.wrrsp src tag ext 0 else .rdrsp src tag ext [] false 0) s [.jt, .out, .block 1, .block 18] fun t =>
        gone t ∧ t.pends 85 = true ∧ (t.reg Reg.JT_LATE_CNT).toNat = min ((s.reg Reg.JT_LATE_CNT).toNat + 1) (2 ^ 32 - 1) ∧
        ∀ r d, .response src tag r d ∈ t.out → .response src tag r d ∈ s.out) ∧
    ((∃ q, x.stage = .delivered q) ∨ (∃ r d, x.stage = .answered r d) →
      Does (.reqTimeout src tag) s [.jt, .out, .block 1, .block 18, .free] fun t => .response src tag .timeout [] ∈ t.out ∧
        (∃ y, t.txn src tag = some y ∧ y.late = true) ∧ t.pends 82 = true ∧
        (t.reg Reg.JT_TMO_CNT).toNat = min ((s.reg Reg.JT_TMO_CNT).toNat + 1) (2 ^ 32 - 1) ∧
        (s.bit Reg.JT_ERR_STAT 31 = false → t.fld Reg.JT_ERR_STAT 29 27 = 2 ∧ t.fld Reg.JT_ERR_STAT 25 20 = x.dst % 64 ∧
          t.fld Reg.JT_ERR_STAT 14 7 = tag % 256 ∧ (t.reg Reg.JT_ERR_ADDR_LO).toNat = x.addr % 2 ^ 32)) ∧
    (∀ port response q, x.stage = .delivered q → Does (.corruptHeader port src tag response) s [.jt, .out, .block 1, .block 18] fun t =>
      (∃ y, t.txn src tag = some y ∧ y.stage = .lost response) ∧ t.pends 81 = true ∧
      (s.bit Reg.JT_ERR_STAT 31 = false → t.fld Reg.JT_ERR_STAT 29 27 = 0 ∧ t.fld Reg.JT_ERR_STAT 25 20 = port % 64 ∧
        t.fld Reg.JT_ERR_STAT 14 7 = tag % 256)) ∧
    (∀ r result flags y, s.coprocTxn = some y → y.late = true →
      Does (.cprsp r result flags) s [.jt, .out, .block 1, .block 18] fun t => t.txn 56 y.tag = none ∧ t.pends 85 = true) ∧
    (∀ a b ext data poison ce, s.txn a b = none → exec (.rdrsp a b ext data poison ce) s = .next s ∧
      exec (.wrrsp a b ext ce) s = .next s ∧ exec (.reqTimeout a b) s = .next s) ∧
    ∀ r result flags, s.coprocTxn = none → exec (.cprsp r result flags) s = .next s

/-- TIMETABLE_SLOT, TT_CTL_SWITCH, TT_ENTRY_WRITE, GUAR_STARVED, JT_TMO_WRITE, JT_FENCE_WRITE, FENCE_DONE, FW_COMMIT and
FW_COMMIT_APPLIED (R348 to R361). -/
def Obligations.JunctionConfiguration : Prop :=
  ∀ (s : State),
    let entry := fun t i : Nat => 0x12400 + 0x100 * t + 4 * i
    let refuses := fun c : Instr => Does c s [.block 18] fun t => t.bit Reg.JT_ERR_STAT 0 = true ∧ RegsBut [Reg.JT_ERR_STAT] s t
    let owners := fun v : Word => (List.range 4).filter fun k => v.getLsbD (8 * k + 7)
    let owner := fun (v : Word) (k : Nat) => bitsOf v (8 * k + 4) (8 * k)
    let quantum := fun (v : Word) (k : Nat) => bitsOf v (8 * k + 6) (8 * k + 5) + 1
    (∀ i, i < 64 →
      let switch := i = 0 ∧ s.bit Reg.TT_CTL 8 = true
      Does (.timetableSlot i) s [.block 1, .out, .block 18, .jt] fun t =>
        t.fld Reg.TT_CTL 0 0 = (if switch then 1 - s.fld Reg.TT_CTL 0 0 else s.fld Reg.TT_CTL 0 0) ∧
        (switch → t.bit Reg.TT_CTL 8 = false ∧ t.pends 83 = true) ∧ RegsBut [Reg.TT_CTL] s t ∧ t.jt.slot = i ∧
        let v := s.reg (entry (t.fld Reg.TT_CTL 0 0) i)
        t.jt = { s.jt with slot := i, credits := (owners v).map fun k => (owner v k, quantum v k) }) ∧
    (Does .ttCtlSwitch s [.block 18] fun t => t.bit Reg.TT_CTL 8 = true ∧ RegsBut [Reg.TT_CTL] s t) ∧
    (∀ tab i v, tab < 2 → i < 64 →
      let bad := (∃ k ∈ owners v, owner v k < 8 ∨ 17 < owner v k) ∨
        (∃ j ∈ owners v, ∃ k ∈ owners v, j ≠ k ∧ owner v j = owner v k) ∨ 4 < ((owners v).map (quantum v)).sum
      (s.fld Reg.TT_CTL 0 0 = tab ∨ bad → refuses (.ttEntryWrite tab i v)) ∧
      (s.fld Reg.TT_CTL 0 0 ≠ tab → ¬ bad → Does (.ttEntryWrite tab i v) s [.block 18] fun t =>
        t.reg (entry tab i) = v ∧ RegsBut [entry tab i] s t)) ∧
    (∀ ini, ini < 32 → s.bit Reg.TT_CTL 1 = true → (∃ x ∈ s.jt.txns, x.init = ini ∧ x.guar = true ∧ x.stage = .issued) →
      Does (.guarStarved ini) s [.block 1, .out, .block 18] fun t => t.bit Reg.JT_STARVE ini = true ∧ t.pends 84 = true ∧
        RegsBut [Reg.JT_STARVE] s t) ∧
    (∀ p v, 48 ≤ p → p < 64 →
      let r := Reg.JT_TMO + 4 * (p - 48)
      (bitsOf v 9 0 = 0 ∨ 1000 < bitsOf v 9 0 → refuses (.jtTmoWrite p v)) ∧
      (1 ≤ bitsOf v 9 0 → bitsOf v 9 0 ≤ 1000 → Does (.jtTmoWrite p v) s [.block 18] fun t =>
        t.fld r 9 0 = bitsOf v 9 0 ∧ RegsBut [r] s t)) ∧
    (∀ (hi : Bool) v, Does (.jtFenceWrite hi v) s [.block 18, .jt] fun t =>
      RegsBut [Reg.JT_FENCE, Reg.JT_FENCE + 4, Reg.JT_FENCED, Reg.JT_FENCED + 4] s t ∧ t.jt = { s.jt with fences := t.jt.fences } ∧
      ∀ p, p < 64 → t.fence p = if fenceable p = true ∧ p / 32 = hi.toNat then
          (if v.getLsbD (p % 32) then (if s.fence p = 0 then 1 else s.fence p) else 0)
        else s.fence p) ∧
    (∀ p, p < 64 → s.fence p = 1 → s.drained p = true → Does (.fenceDone p) s [.jt, .block 1, .out, .block 18] fun t =>
      t.fence p = 2 ∧ (∀ q, q ≠ p → t.fence q = s.fence q) ∧ t.bit (Reg.JT_FENCED + 4 * (p / 32)) (p % 32) = true ∧
      t.pends 80 = true ∧ ∀ x, x ∈ t.jt.txns ↔ x ∈ s.jt.txns ∧ ¬ (x.late = true ∧ (x.src = p ∨ x.dst = p))) ∧
    (∀ p, s.fence p ≠ 1 ∨ s.drained p = false → exec (.fenceDone p) s = .next s) ∧
    (Does .fwCommit s [.block 9] fun t => t.bit Reg.FW_CTL 1 = true ∧ RegsBut [Reg.FW_CTL] s t) ∧
    (s.bit Reg.FW_CTL 1 = true → Does .fwCommitApplied s [.block 9] fun t => t.bit Reg.FW_CTL 1 = false ∧
      ∀ w j, w < 32 → j < 6 → t.reg (Reg.act (Reg.WIN_BASE_LO + 0x20 * w + 4 * j)) = s.reg (Reg.WIN_BASE_LO + 0x20 * w + 4 * j) ∧
        t.reg (Reg.WIN_BASE_LO + 0x20 * w + 4 * j) = s.reg (Reg.WIN_BASE_LO + 0x20 * w + 4 * j)) ∧
    (s.bit Reg.FW_CTL 1 = false → exec .fwCommitApplied s = .next s)

/-- FRAME_START, FRAME_END, CAM_FRAME, LONG_PACKET, CAM_LOST, TS_LO_READ, PASS_THROUGH_RELEASE and CAM_STREAM_CFG_WRITE (R364 to
R376, R397). That a full FIFO discards the line whole is the model's choice. -/
def Obligations.CameraFramesAndLines : Prop :=
  ∀ (s : State) (n v : Nat), n < 6 → v < 4 → s.streams.length = 24 →
    let st := strReg Reg.STR_SSTAT n v
    let cfg := strReg Reg.STR_CFG n v
    let stat := camReg Reg.CAM_STAT n
    let cnt := camReg Reg.CAM_ERRCNT n
    let x := s.stream n v
    let on := s.bit (camReg Reg.CAM_CTL n) 0 = true ∧ s.bit cfg 0 = true
    let dt := s.fld cfg 9 4
    let nb := s.fld cfg 13 12 + 1
    let cur := s.fld st 17 16
    let zs := [Zone.block 20, .sm, .block 1, .out, .streams]
    (∀ time,
      let last := if x.live then cur else s.fld st 19 18
      let taken := fun b => s.bit cfg (16 + b) = true ∨ b = last
      let ring := fun i => (cur + 1 + i) % nb
      let began := fun (t : State) => t.fld st 15 0 = 0 ∧ t.bit st 23 = false ∧
        t.reg (strReg Reg.STR_TS_LO n v) = BitVec.ofNat 32 time ∧ t.fld st 19 18 = last ∧
        t.fld st 31 24 = (s.fld st 31 24 + x.live.toNat) % 256 ∧
        t.bit st 21 = (if x.live then x.bad || !x.ended else s.bit st 21) ∧
        (x.live = true → x.ended = false → s.bit cfg 3 = true → t.pends 34 = true)
      (¬ on → exec (.frameStart n v time) s = .next s) ∧
      (on → ∀ i, i < nb → ¬ taken (ring i) → (∀ j, j < i → taken (ring j)) → Does (.frameStart n v time) s zs fun t =>
        began t ∧ t.fld st 17 16 = ring i ∧ t.bit st 22 = false ∧ t.reg cnt = s.reg cnt ∧ (t.stream n v).live = true ∧
        (t.stream n v).next = 0 ∧ (t.stream n v).page = s.fld (strReg Reg.STR_BUF n v + 4 * ring i) 21 0) ∧
      (on → (∀ i, i < nb → taken (ring i)) → Does (.frameStart n v time) s zs fun t =>
        began t ∧ t.fld st 17 16 = cur ∧ t.bit st 22 = true ∧ t.fld cnt 31 16 = min (s.fld cnt 31 16 + 1) 65535 ∧
        t.fld cnt 15 0 = s.fld cnt 15 0 ∧ (t.stream n v).live = false)) ∧
    (∀ ps,
      (¬ on → exec (.frameEnd n v ps) s = .next s) ∧
      (on → Does (.frameEnd n v ps) s [.block 1, .out, .block 20, .streams] fun t =>
        t.stream n v = { x with ended := x.live, lastFe := some ps } ∧ ∀ p, p < 4 →
          let lock := s.reg (pipeReg Reg.PIPE_LOCK p)
          let named := s.bit (pipeReg Reg.LOCK_STAT p) 1 = true ∧ lock.getLsbD 0 = true ∧ bitsOf lock 3 1 = n ∧ bitsOf lock 5 4 = v
          (named → t.bit (pipeReg Reg.LOCK_STAT p) 1 = false ∧ t.pends 43 = true) ∧
          (¬ named → t.reg (pipeReg Reg.LOCK_STAT p) = s.reg (pipeReg Reg.LOCK_STAT p)))) ∧
    (let done := x.live = true ∧ x.ended = true ∧ ∀ w ∈ x.writes, w.2 + 1 ≠ x.next;
      (done → Does (.camFrame n v) s zs fun t => t.fld st 19 18 = cur ∧ t.bit st 21 = x.bad ∧ t.fld st 17 16 = cur ∧
        t.fld st 31 24 = (s.fld st 31 24 + 1) % 256 ∧ (t.stream n v).live = false ∧ (s.bit cfg 1 = true → t.pends 32 = true) ∧
        RegsBut [st] s t) ∧
      (¬ done → exec (.camFrame n v) s = .next s)) ∧
    (let lost := on ∧ s.fld (strReg Reg.STR_TMO n v) 15 0 ≠ 0 ∧ s.bit st 23 = false;
      (lost → Does (.camLost n v) s [.block 1, .out, .block 20] fun t => t.bit st 23 = true ∧ t.pends 36 = true ∧ RegsBut [st] s t) ∧
      (¬ lost → exec (.camLost n v) s = .next s)) ∧
    (Does (.tsLoRead n v) s [.block 20] fun t =>
      t.reg (strReg Reg.STR_TS_HI n v) = BitVec.ofNat 32 (x.ts / 2 ^ 32) ∧ RegsBut [strReg Reg.STR_TS_HI n v] s t) ∧
    (∀ need strip,
      (need ≤ s.fld st 15 0 → Does (.passThroughRelease n v need strip) s [.sched] fun t =>
        t.sched = { s.sched with passReady := s.sched.passReady ++ [(strip, false)] }) ∧
      (s.fld st 15 0 < need → x.done = true → Does (.passThroughRelease n v need strip) s [.sched] fun t =>
        t.sched = { s.sched with passReady := s.sched.passReady ++ [(strip, true)], passErrors := s.sched.passErrors + 1 }) ∧
      (s.fld st 15 0 < need → x.done = false → exec (.passThroughRelease n v need strip) s = .next s)) ∧
    (∀ w : Word,
      let wd := s.fld (strReg Reg.STR_GEOM n v) 15 0
      let ht := s.fld (strReg Reg.STR_GEOM n v) 31 16
      let stride := (s.reg (strReg Reg.STR_STRIDE n v)).toNat
      let d := bitsOf w 9 4
      let bytes := wd * (if d = 0x24 then 4 else if d = 0x2A then 1 else 2)
      let known := d ∈ [0x1E, 0x22, 0x24, 0x2A, 0x2B, 0x2C, 0x2D, 0x2E] ∧ 2 ≤ bitsOf w 13 12
      let fits := 1 ≤ wd ∧ wd ≤ 4096 ∧ 1 ≤ ht ∧ ht ≤ 4096 ∧ bytes ≤ 8192 ∧ (d = 0x1E → wd % 2 = 0) ∧ stride % 256 = 0 ∧
        (bytes + 7) / 8 * 8 ≤ stride ∧ ∀ i, i ≤ bitsOf w 13 12 →
          s.fld (strReg Reg.STR_BUF n v + 4 * i) 21 0 * 4096 + stride * ht ≤ s.ddrUsable
      let legal := known ∧ (s.bit cfg 0 = true → d = dt ∧ bitsOf w 13 12 = s.fld cfg 13 12) ∧
        (s.bit cfg 0 = false → w.getLsbD 0 = true → fits)
      (legal → Does (.camStreamCfgWrite n v w) s [.block 20, .streams] fun t =>
        t.fld cfg 19 16 = bitsOf w 19 16 ∧ t.fld cfg 13 12 = bitsOf w 13 12 ∧ t.fld cfg 9 0 = bitsOf w 9 0 ∧ RegsBut [cfg] s t ∧
        (s.bit cfg 0 ≠ w.getLsbD 0 → (t.stream n v).live = false)) ∧
      (¬ legal → Does (.camStreamCfgWrite n v w) s [.block 20] fun t => t.bit stat 6 = true ∧ RegsBut [stat] s t)) ∧
    ∀ d px,
      let send := fun hdr crc full => Instr.longPacket n v d px hdr crc full
      let wd := s.fld (strReg Reg.STR_GEOM n v) 15 0
      let taken := on ∧ d = dt ∧ x.live = true ∧ x.ended = false ∧ x.skip = false
      let good := taken ∧ 1 ≤ wd ∧ x.next < s.fld (strReg Reg.STR_GEOM n v) 31 16 ∧ px.length = if d = 0x1E then 2 * wd else wd
      let stored := fun (t : State) => ∃ new : List Txn, t.jt.txns = s.jt.txns ++ new ∧
        let words := new.flatMap fun q => q.data.map Prod.fst
        let len := if d = 0x1E ∨ d = 0x2A then px.length else if d = 0x24 then 4 * px.length else 2 * px.length
        words.length = (len + 7) / 8 ∧ new.length = (words.length + 31) / 32 ∧
        (∀ i q, new[i]? = some q → q.src = 32 + n ∧ q.init = 8 + n ∧ q.write = true ∧ q.stage = .issued ∧
          q.addr = 0x100000000 + x.page * 4096 + x.next * (s.reg (strReg Reg.STR_STRIDE n v)).toNat + 256 * i ∧
          q.data.length ≤ 32 ∧ q.len = 8 * q.data.length ∧ ∀ e ∈ q.data, e.2 = 0xFF) ∧
        ∀ j, j < 8 * words.length →
          let bits := if d = 0x2B then 10 else if d = 0x2C then 12 else if d = 0x2D then 14 else 16
          ((words.getD (j / 8) 0).extractLsb' (8 * (j % 8)) 8).toNat = if len ≤ j then 0
            else if d = 0x1E ∨ d = 0x2A then px.getD j 0 % 256
            else if d = 0x24 then if j % 4 = 3 then 255 else px.getD (j / 4) 0 / 2 ^ (8 * (j % 4)) % 256
            else px.getD (j / 2) 0 % 2 ^ bits / 2 ^ (8 * (j % 2)) % 256
      (good → d ∈ [0x1E, 0x22, 0x24, 0x2A, 0x2B, 0x2C, 0x2D, 0x2E] → Does (send false false false) s [.streams, .jt] fun t =>
        (t.stream n v).next = x.next + 1 ∧ (t.stream n v).bad = x.bad ∧ stored t) ∧
      (good → d ∈ [0x1E, 0x22, 0x24, 0x2A, 0x2B, 0x2C, 0x2D, 0x2E] →
        Does (send false true false) s [.block 20, .block 1, .out, .streams, .jt] fun t =>
          (t.stream n v).next = x.next + 1 ∧ (t.stream n v).bad = true ∧ stored t ∧ t.bit stat 3 = true ∧
          t.fld cnt 15 0 = min (s.fld cnt 15 0 + 1) 65535 ∧ (s.bit cfg 3 = true → t.pends 34 = true)) ∧
      (∀ crc, taken → Does (send false crc true) s [.block 20, .block 1, .out, .streams] fun t =>
        t.stream n v = { x with skip := true, bad := true } ∧ t.bit stat 5 = true ∧ t.pends 35 = true) ∧
      (∀ crc full, s.bit (camReg Reg.CAM_CTL n) 0 = true → Does (send true crc full) s [.block 20, .block 1, .out, .streams] fun t =>
        t.bit stat 2 = true ∧ (on → (t.stream n v).bad = true ∧ (s.bit cfg 3 = true → t.pends 34 = true))) ∧
      ∀ crc full, ¬ taken → exec (send false crc full) s = .next s

/-- PIPE_COMMIT_WRITE, PIPE_CANCEL, PIPE_CTL_WRITE, PIPE_LOCK_WRITE, LUT_DATA_ACCESS, LOCK_SRC_LOST, IRQ_HPD and HPD_LOST (R387
to R397, R402). -/
def Obligations.PipeConfiguration : Prop :=
  ∀ (s : State) (p : Nat), p < 4 → s.pipes.length = 4 →
    let x := s.pipe p
    let ctl := pipeReg Reg.PIPE_CTL p
    let stat := pipeReg Reg.PIPE_STAT p
    let err := pipeReg Reg.PIPE_ERR p
    let com := pipeReg Reg.PIPE_COMMIT p
    let lock := pipeReg Reg.PIPE_LOCK p
    let lst := pipeReg Reg.LOCK_STAT p
    let vfp := s.fld (pipeReg Reg.VTIM0 p) 31 16
    let refused := fun (c : Instr) => Does c s [.block 20] fun t => t.bit err 3 = true ∧ RegsBut [err] s t
    (let ok := fun (y : Layer) =>
        y.fmt ≤ 3 ∧ y.base % 8 = 0 ∧ y.stride % 8 = 0 ∧ y.x + y.w ≤ s.hact p ∧ y.y + y.h ≤ s.vact p ∧ 0x100000000 ≤ y.base ∧
        y.base + (y.h - 1) * y.stride + y.lineBytes ≤ 0x100000000 + s.ddrUsable ∧ 1 ≤ y.w ∧ 1 ≤ y.h ∧ y.lineBytes ≤ 16384 ∧
        (y.fmt = 3 → y.x % 2 = 0 ∧ y.w % 2 = 0)
      let need := fun l => ((s.layer id p l).map fun y => 2 * y.lineBytes).getD 0
      let legal := (∀ l y, l < 8 → s.layer id p l = some y → ok y) ∧ ((List.range 8).map need).sum ≤ 131072;
      (s.bit com 2 = true → exec (.pipeCommitWrite p) s = .next s) ∧
      (s.bit com 2 = false → legal → Does (.pipeCommitWrite p) s [.block 20] fun t => t.bit com 2 = true ∧ RegsBut [com] s t) ∧
      (s.bit com 2 = false → ¬ legal → Does (.pipeCommitWrite p) s [.block 1, .out, .block 20] fun t =>
        t.bit err 3 = true ∧ t.pends 44 = true ∧ RegsBut [err] s t)) ∧
    (Does (.pipeCancel p) s [.block 20] fun t => t.bit com 2 = false ∧ RegsBut [com] s t) ∧
    (∀ v : Word,
      let bpc := bitsOf v 3 2
      let on := s.bit ctl 0 = true ∨ x.mode ≠ .off
      let total := s.htotal p * s.vtotal p
      let timed := 0 ∉ s.pipeTiming p ∧ s.vtotal p ≤ 16383 ∧ s.hact p ≤ (if p < 2 then 3840 else 2560) ∧
        s.vact p ≤ (if p < 2 then 1440 else 1080) ∧ 0 < s.pclk p ∧ s.pclk p ≤ (if p < 2 then 400000 else 200000) ∧
        24 * total ≤ s.pclk p * 1000 ∧ s.pclk p * 1000 ≤ 61 * total
      let took := fun (t : State) => t.fld ctl 7 2 = bitsOf v 7 2 ∧ t.bit ctl 0 = v.getLsbD 0
      let depth := bpc ≠ 3 ∧ (2 ≤ p → bpc ≠ 2)
      let fixed := bpc = s.fld ctl 3 2 ∧ bitsOf v 7 6 = s.fld ctl 7 6
      let locked := s.bit lock 0 = true ∧ vfp ≤ s.fld lock 15 8
      (¬ depth → refused (.pipeCtlWrite p v)) ∧
      (on → ¬ fixed → refused (.pipeCtlWrite p v)) ∧
      (¬ on → v.getLsbD 0 = true → ¬ timed ∨ locked → refused (.pipeCtlWrite p v)) ∧
      (depth → ¬ on → v.getLsbD 0 = true → timed → ¬ locked → Does (.pipeCtlWrite p v) s [.block 20, .pipes] fun t =>
        took t ∧ (t.pipe p).mode = .bringup ∧ t.fld stat 31 16 = 0 ∧ t.fld stat 15 0 = s.fld stat 15 0 ∧
        ∀ l, l < 8 → t.layer Reg.act p l = none) ∧
      (depth → ¬ on → v.getLsbD 0 = false → Does (.pipeCtlWrite p v) s [.block 20] fun t => took t ∧ RegsBut [ctl] s t) ∧
      (depth → fixed → s.bit ctl 0 = true → v.getLsbD 0 = true → Does (.pipeCtlWrite p v) s [.block 20] fun t =>
        took t ∧ RegsBut [ctl] s t) ∧
      (depth → fixed → s.bit ctl 0 = true → v.getLsbD 0 = false → x.mode = .running → Does (.pipeCtlWrite p v) s [.block 20, .pipes]
        fun t => took t ∧ t.pipe p = { x with stopReq := true } ∧ RegsBut [ctl] s t)) ∧
    (∀ v : Word,
      let legal := bitsOf v 3 1 < 6 ∧ (v.getLsbD 0 = true → bitsOf v 15 8 < vfp)
      (legal → Does (.pipeLockWrite p v) s [.block 20] fun t =>
        t.fld lock 31 8 = bitsOf v 31 8 ∧ t.fld lock 5 0 = bitsOf v 5 0 ∧ RegsBut [lock] s t) ∧
      (¬ legal → refused (.pipeLockWrite p v))) ∧
    (∀ v : Word,
      let idx := pipeReg Reg.LUT_IDX p
      let i := s.fld idx 9 0
      let next := fun (t : State) => t.fld idx 9 0 = (if i = 767 then 0 else i + 1) ∧ RegsBut [idx] s t
      i < 768 →
      (Does (.lutDataAccess p false v) s [.block 20] next) ∧
      (s.bit com 2 = true → refused (.lutDataAccess p true v)) ∧
      (s.bit com 2 = false → Does (.lutDataAccess p true v) s [.block 20, .pipes] fun t => next t ∧
        t.pipe p = { x with lut := (t.pipe p).lut } ∧ Store.get (fun _ => 0) (t.pipe p).lut i = bitsOf v 9 0 ∧
        ∀ j, j ≠ i → Store.get (fun _ => 0) (t.pipe p).lut j = Store.get (fun _ => 0) x.lut j)) ∧
    (let lockable := s.lockOn p = true ∧ s.bit lst 1 = false;
      (lockable → Does (.lockSrcLost p) s [.block 20, .block 1, .out, .pipes] fun t =>
        t.bit lst 1 = true ∧ t.bit lst 0 = false ∧ t.pends 43 = true ∧ t.bit err 4 = (s.bit err 4 || s.bit lst 0) ∧
        (t.pipe p).porch = vfp ∧ RegsBut [lst, err] s t) ∧
      (¬ lockable → exec (.lockSrcLost p) s = .next s)) ∧
    (p < 2 → Does (.irqHpd p) s [.block 1, .out] fun t => t.pends 45 = true) ∧
    (2 ≤ p → exec (.irqHpd p) s = .next s) ∧
    (p < 2 → s.bit stat 15 = true → Does (.hpdLost p) s [.block 1, .out, .block 20, .block 3, .free] fun t =>
      t.bit stat 15 = false ∧ t.bit stat 14 = s.bit stat 14 ∧ t.bit err 2 = true ∧ t.pends 45 = true ∧
      (s.bit (Reg.DISP_STAT + 0x80 * p) 0 = true → t.bit Reg.SAFE_STAT 6 = true ∧ t.bit Reg.SAFE_STAT 31 = true)) ∧
    (2 ≤ p ∨ s.bit stat 15 = false → exec (.hpdLost p) s = .next s)

/-- VSYNC_START, LINK_UP, LINK_FAIL, LINE_FETCH and PIPE_UNDERRUN (R387, R390 to R395). -/
def Obligations.PipeTiming : Prop :=
  ∀ (s : State) (p : Nat), p < 4 → s.pipes.length = 4 →
    let x := s.pipe p
    let ctl := pipeReg Reg.PIPE_CTL p
    let stat := pipeReg Reg.PIPE_STAT p
    let err := pipeReg Reg.PIPE_ERR p
    let com := pipeReg Reg.PIPE_COMMIT p
    let quiet := s.dispOn = false ∨ (s.sm.waits = [] ∧ (s.smDisp p).bind = none ∧ (s.smDisp p).active = none)
    (∀ ps kat,
      let zs := [Zone.block 3, .block 20, .block 1, .out, .free, .pipes, .il, .block 6, .sm, .block 18, .jt, .block 0, .tkt, .sched,
        .regs, .block 8, .cpl, .running, .memo, .sp]
      let due := x.mode = .running ∨ (x.mode = .bringup ∧ s.bit stat 15 = true)
      (due → x.stopReq = false → quiet → Does (.vsyncStart p ps kat) s zs fun t =>
        t.fld stat 31 16 = (s.fld stat 31 16 + 1) % 65536 ∧ t.bit stat 15 = s.bit stat 15 ∧ t.bit stat 14 = true ∧
        t.fld stat 13 0 = 0 ∧ (t.pipe p).mode = .running ∧ (s.bit ctl 4 = true → t.pends 40 = true) ∧ t.bit com 2 = false ∧
        (∀ a ∈ pendingRegs p, t.reg a = s.reg a ∧
          t.reg (Reg.act a) = if s.bit com 2 then s.reg a else s.reg (Reg.act a)) ∧
        (t.pipe p).lut = x.lut ∧ (t.pipe p).lutAct = (if s.bit com 2 then x.lut else x.lutAct) ∧
        (s.bit com 2 = true → t.pends 41 = true)) ∧
      (due → x.stopReq = true → quiet → Does (.vsyncStart p ps kat) s zs fun t =>
        (t.pipe p).mode = .off ∧ t.bit stat 15 = false ∧ t.bit stat 14 = false ∧ t.fld stat 13 0 = 0 ∧
        t.fld stat 31 16 = s.fld stat 31 16 ∧ t.bit com 2 = false) ∧
      (¬ due → exec (.vsyncStart p ps kat) s = .next s)) ∧
    (x.mode = .bringup → quiet → Does (.linkUp p) s [.block 20] fun t => t.bit stat 15 = true ∧ RegsBut [stat] s t) ∧
    (x.mode = .off ∨ x.mode = .failed → s.bit stat 15 = false → exec (.linkUp p) s = .next s) ∧
    (x.mode = .bringup → s.bit stat 15 = false → x.stopReq = false → quiet →
      Does (.linkFail p) s [.block 1, .out, .block 20, .block 6, .pipes] fun t =>
        (t.pipe p).mode = .failed ∧ t.bit err 2 = true ∧ t.pends 45 = true ∧ t.reg stat = s.reg stat) ∧
    (x.mode = .off ∨ x.mode = .failed → exec (.linkFail p) s = .next s) ∧
    (∀ y,
      let covers := fun (z : Layer) => z.y ≤ y ∧ y < z.y + z.h
      let fetched := fun l => ∃ q ∈ x.lines, q.layer = l ∧ q.y = y
      (x.mode = .running → y < s.vact p → Does (.lineFetch p y) s [.pipes, .jt] fun t =>
        (∀ l z, l < 8 → s.layer Reg.act p l = some z → covers z → ∃ q ∈ (t.pipe p).lines, q.layer = l ∧ q.y = y) ∧
        (∀ q ∈ (t.pipe p).lines, q ∈ x.lines ∨ (q.y = y ∧ ¬ fetched q.layer ∧ q.failed = false ∧ q.late = false ∧ q.parts = [] ∧
          ∃ z, s.layer Reg.act p q.layer = some z ∧ covers z)) ∧
        (∀ l z, l < 8 → s.layer Reg.act p l = some z → covers z → ¬ fetched l → 0 < z.lineBytes →
          (∀ l' z', l' < l → s.layer Reg.act p l' = some z' → ¬ covers z') → x.queue = [] →
          s.jt.txns.countP (fun q => q.src == 16 + p) < 256 → ∃ q ∈ t.jt.txns, q.src = 16 + p ∧ q.init = 14 + p ∧ q.write = false ∧
            q.addr = z.base + (y - z.y) * z.stride ∧ q.len = min (256 - q.addr % 256) ((z.lineBytes + 7) / 8 * 8))) ∧
      (x.mode ≠ .running ∨ s.vact p ≤ y → exec (.lineFetch p y) s = .next s)) ∧
    ∀ y l,
      let due := fun (q : LayerLine) => (0 < q.left ∨ q.failed = true) ∧ q.late = false
      let cnt := pipeReg Reg.UNDERRUN_CNT p
      (∀ q, x.lines.find? (fun q => q.layer == l && q.y == y) = some q → due q →
        Does (.pipeUnderrun p y l) s [.block 20, .pipes, .block 1, .out] fun t =>
          (t.reg cnt).toNat = min ((s.reg cnt).toNat + 1) (2 ^ 32 - 1) ∧ t.bit err 0 = true ∧
          t.bit err 1 = (s.bit err 1 || q.failed) ∧ (s.bit ctl 5 = true → t.pends 42 = true) ∧ RegsBut [cnt, err] s t ∧
          ∃ q' ∈ (t.pipe p).lines, q' = { q with late := true }) ∧
      (x.lines.find? (fun q => q.layer == l && q.y == y) = none → exec (.pipeUnderrun p y l) s = .next s) ∧
      ∀ q, x.lines.find? (fun q => q.layer == l && q.y == y) = some q → ¬ due q → exec (.pipeUnderrun p y l) s = .next s

/-- SAMPLE_TICK, TT_GO_WRITE, TT_PSTAT_FAULT_WRITE, TELLTALE_STATE, LATCH_SEL_WRITE, DISP_CFG_WRITE, RCOMMIT_CANCEL, FROZEN_WRITE,
FAULT_WRITE, EVT_STAT_ACK, SAFE_CTL_FORCE, SAFE_CTL_CLR and PIPE_STOPPED (R404 to R416, R429, R436, R437, R443). -/
def Obligations.TellTalesLatchesAndSafeOutput : Prop :=
  ∀ (s : State),
    let safe := Reg.SAFE_STAT
    let asserts := fun (t : State) (b : Nat) => t.bit safe b = true ∧ t.bit safe 31 = true ∧
      (∀ j, j < 7 → j ≠ b → t.bit safe j = s.bit safe j) ∧ (s.bit safe 31 = false → t.pends 20 = true)
    (s.bit Reg.TO_STAT 2 = false → ∀ a b, exec (.sampleTick a b) s = .next s) ∧
    (s.bit Reg.TO_STAT 2 = true → s.il.pairs.length = 16 → ∀ a b : Nat,
      Does (.sampleTick a b) s [.block 3, .il, .block 1, .out] fun t =>
        t.reg Reg.TT_TICK = s.reg Reg.TT_TICK + 1 ∧ t.il.go = false ∧ t.il.clears = [] ∧
        (∀ i, i < 16 →
          let f := fun hi lo => s.fld (Reg.TT_PCFG + 4 * i) hi lo
          let x := s.pair i
          let va := a.testBit i ^^ s.bit (Reg.TT_PCFG + 4 * i) 9
          let vb := b.testBit i ^^ s.bit (Reg.TT_PCFG + 4 * i) 9 ^^ s.bit (Reg.TT_PCFG + 4 * i) 8
          let agreed := if va then f 15 12 else f 19 16
          let goes := fun (x : Pair) (fault : Bool) => t.pair i = x ∧ t.bit Reg.TT_PSTAT i = fault
          t.bit Reg.TT_PSTAT (16 + i) = (va != vb) ∧
          if s.bit Reg.TT_PSTAT i then
            if i ∈ s.il.clears ∧ va = vb then goes ⟨agreed, 0⟩ false else goes ⟨f 23 20, x.cnt⟩ true
          else if va = vb then goes ⟨agreed, 0⟩ false
          else if x.cnt + 1 < f 7 0 then goes ⟨x.st, x.cnt + 1⟩ false
          else goes ⟨f 23 20, f 7 0⟩ true ∧ t.pends 19 = true) ∧
        ∀ i, i < 64 →
          let state := fun r => t.fld (r + 4 * (i / 8)) (4 * (i % 8) + 3) (4 * (i % 8))
          state Reg.TT_CMD = s.fld (Reg.TT_CMD + 4 * (i / 8)) (4 * (i % 8) + 3) (4 * (i % 8)) ∧
          t.ttCommanded i = (if s.il.go then state Reg.TT_CMD else s.ttCommanded i) ∧
          state Reg.TT_STATE = if i < 16 ∧ s.bit Reg.TT_SRC i = true then (t.pair i).st % 16 else t.ttCommanded i) ∧
    (Does .ttGoWrite s [.il] fun t => t.il = { s.il with go := true }) ∧
    (∀ v, Does (.ttPstatFaultWrite v) s [.il] fun t => t.il = { s.il with clears := t.il.clears } ∧
      ∀ i, i ∈ t.il.clears ↔ i ∈ s.il.clears ∨ (i < 16 ∧ v.getLsbD i = true ∧ s.bit Reg.TT_PSTAT i = true)) ∧
    (let mine := s.mbState 2 = 2 ∧ s.mbOpcode 2 = 0x21;
      (¬ mine → exec .telltaleState s = .next s) ∧
      (mine → s.mbLength 2 ≤ 32 → Does .telltaleState s [.block 3, .block 1, .out, .block 0, .tkt, .il] fun t =>
        (∀ k, k < 8 → t.reg (Reg.TT_CMD + 4 * k) = if k < s.mbLength 2 / 4 then s.param 2 (k + 1) else s.reg (Reg.TT_CMD + 4 * k)) ∧
        t.il = { s.il with go := true } ∧ t.mbState 2 = 3 ∧ t.fld (Reg.RSP0 + 0x200) 31 24 = 0 ∧ t.pends 10 = true)) ∧
    (∀ v : Word,
      let kept := (s.chan (bitsOf v 5 4)).hist[bitsOf v 1 0]?
      Does (.latchSelWrite v) s [.block 3] fun t =>
        t.fld Reg.LATCH_SEL 5 4 = bitsOf v 5 4 ∧ t.fld Reg.LATCH_SEL 1 0 = bitsOf v 1 0 ∧
        (kept = none → t.bit Reg.LATCH_NUM 16 = false) ∧
        ∀ l, kept = some l → t.bit Reg.LATCH_NUM 16 = true ∧ t.fld Reg.LATCH_NUM 15 0 = l.num % 65536 ∧
          t.reg Reg.LATCH_TOTAL = BitVec.ofNat 32 l.total ∧ t.reg Reg.LATCH_TRIP1 = BitVec.ofNat 32 l.trip1 ∧
          t.reg Reg.LATCH_TRIP2 = BitVec.ofNat 32 l.trip2 ∧ t.reg Reg.LATCH_GV = BitVec.ofNat 32 l.valid ∧
          ∀ i, i < 64 → t.fld (Reg.LATCH_TT + 4 * (i / 8)) (4 * (i % 8) + 3) (4 * (i % 8)) = l.vec.getD i 0 % 16) ∧
    (∀ p v, p < 4 →
      let cfg := Reg.DISP_CFG + 0x80 * p
      let dst := Reg.DISP_STAT + 0x80 * p
      let com := Reg.DISP_RCOMMIT + 0x80 * p
      let faulty := s.reg (Reg.FAULT + 0x80 * p) ≠ 0 ∨ s.reg (Reg.FAULT + 0x80 * p + 4) ≠ 0 ∨ s.bit dst 1 = true
      (faulty → v.getLsbD 0 = false → exec (.dispCfgWrite 0 p v) s = .next s) ∧
      (∀ ini, ¬ (ini = 0 ∧ faulty ∧ v.getLsbD 0 = false) → Does (.dispCfgWrite ini p v) s [.block 3] fun t =>
        t.fld cfg 27 16 = bitsOf v 27 16 ∧ t.fld cfg 5 2 = bitsOf v 5 2 ∧ t.bit cfg 0 = v.getLsbD 0 ∧ RegsBut [cfg] s t) ∧
      (Does (.rcommitCancel p) s [.block 3] fun t => t.bit com 2 = false ∧ RegsBut [com] s t) ∧
      (s.bit dst 2 = true → Does (.frozenWrite p) s [.block 3] fun t => t.bit dst 1 = false ∧ RegsBut [dst] s t) ∧
      (s.bit dst 2 = false → exec (.frozenWrite p) s = .next s) ∧
      (∀ hi, hi < 2 → Does (.faultWrite p hi v) s [.block 3] fun t =>
        let r := Reg.FAULT + 0x80 * p + 4 * hi
        t.reg r = s.reg r &&& ~~~ v ∧ RegsBut [r] s t) ∧
      (s.bit dst 0 = true → Does (.pipeStopped p) s [.block 3, .block 1, .out, .free] fun t => t.bit dst 4 = true ∧ asserts t 5) ∧
      (s.bit dst 0 = false → exec (.pipeStopped p) s = .next s)) ∧
    (∀ v : Word,
      let n := min (bitsOf v 20 16) (s.fld Reg.EVT_STAT 12 8)
      Does (.evtStatAck v) s [.block 3] fun t => t.fld Reg.EVT_STAT 12 8 = s.fld Reg.EVT_STAT 12 8 - n ∧
        t.fld Reg.EVT_STAT 3 0 = (s.fld Reg.EVT_STAT 3 0 + n) % 16 ∧
        t.bit Reg.EVT_STAT 31 = (s.bit Reg.EVT_STAT 31 && !v.getLsbD 31) ∧ RegsBut [Reg.EVT_STAT] s t) ∧
    (Does (.safeCtlForce true) s [.block 3, .block 1, .out, .free] fun t => t.bit Reg.SAFE_CTL 1 = true ∧ asserts t 1) ∧
    (Does (.safeCtlForce false) s [.block 3, .block 1, .out, .free] fun t => t.bit Reg.SAFE_CTL 1 = false ∧ t.bit safe 1 = false ∧
      (∀ j, j < 7 → j ≠ 1 → t.bit safe j = s.bit safe j) ∧
      (t.bit safe 31 = true ↔ s.bit safe 31 = true ∧ ∃ j, j < 7 ∧ t.bit safe j = true)) ∧
    Does .safeCtlClr s [.block 3, .free] fun t =>
      let armed := fun p => p < 4 ∧ s.bit (Reg.DISP_STAT + 0x80 * p) 0 = true
      let holds := fun j => (j = 1 ∨ j = 4) ∨ (j = 2 ∧ ∃ p r, p < 4 ∧ r < 64 ∧ (s.slot p r).mode = .failed) ∨
        (j = 3 ∧ ∃ p, p < 4 ∧ s.bit (Reg.DISP_STAT + 0x80 * p) 1 = true) ∨
        (j = 5 ∧ ∃ p, armed p ∧ s.bit (pipeReg Reg.PIPE_STAT p) 14 = false) ∨
        (j = 6 ∧ ∃ p, armed p ∧ s.bit (pipeReg Reg.PIPE_STAT p) 15 = false)
      (∀ j, j < 7 → (t.bit safe j = true ↔ s.bit safe j = true ∧ holds j)) ∧
      (t.bit safe 31 = true ↔ s.bit safe 31 = true ∧ ∃ j, j < 7 ∧ t.bit safe j = true)

/-- RCOMMIT_WRITE, REGION_VERDICT and HEARTBEAT_VERDICT (R414 to R431). -/
def Obligations.SupervisionOfRegions : Prop :=
  ∀ (s : State) (p : Nat) (m : Nat → Word64), p < 4 → s.il.chans.length = 4 → (s.chan p).slots.length = 64 →
    let held := s.bit Reg.MEM_STAT 2 = false ∧
      ∀ k, 0x2000 ≤ k → k < 0x4000 → Store.get (fun _ => s.mem.secBase) s.mem.sec k = some (encode72 (m k))
    let rec' := fun n off => natBits (m (0x2000 + 32 * n + off / 8)).toNat (8 * (off % 8) + 31) (8 * (off % 8))
    let dst := Reg.DISP_STAT + 0x80 * p
    let com := Reg.DISP_RCOMMIT + 0x80 * p
    let cfg := Reg.DISP_CFG + 0x80 * p
    let fault := fun (t : State) r => t.bit (Reg.FAULT + 0x80 * p + 4 * (r / 32)) (r % 32)
    let c := s.chan p
    let persist := s.fld (Reg.act cfg) 3 2
    (s.bit com 2 = true → exec (.rcommitWrite p) s = .next s) ∧
    (let slot := fun r => Reg.REG + 256 * p + 4 * r
      let on := fun r => r < 64 ∧ s.bit (slot r) 31 = true
      let hdr := fun r => rec' (s.fld (slot r) 7 0) 0
      let x := fun r => rec' (s.fld (slot r) 7 0) 4 % 65536
      let y := fun r => rec' (s.fld (slot r) 7 0) 4 / 65536
      let w := fun r => rec' (s.fld (slot r) 7 0) 8 % 65536
      let h := fun r => rec' (s.fld (slot r) 7 0) 8 / 65536
      let px := fun r => if natBits (hdr r) 3 2 = 2 then 4 else 3
      let hb := s.fld cfg 27 16
      let fits := fun r => (hdr r).testBit 0 = true ∧ 0 < w r ∧ 0 < h r ∧ x r + w r ≤ s.hact p ∧ y r + h r ≤ s.vact p ∧
        natBits (hdr r) 3 2 = s.fld (pipeReg Reg.PIPE_CTL p) 3 2 ∧ ¬ (y r = 0 ∧ x r ≤ hb ∧ hb < x r + w r)
      let apart := fun r q => x r + w r ≤ x q ∨ x q + w q ≤ x r ∨ y r + h r ≤ y q ∨ y q + h q ≤ y r
      let span := fun line => ((List.range 64).map fun r =>
        if s.bit (slot r) 31 = true ∧ y r ≤ line ∧ line < y r + h r then w r * px r else 0).sum
      let legal := (∀ r, on r → fits r) ∧ (∀ r q, on r → on q → r ≠ q → apart r q) ∧ (∀ r, r < 64 → fault s r = true → on r) ∧
        ∀ line, span line ≤ 4096
      let zs := [Zone.block 1, .out, .block 8, .free, .block 3];
      held → s.bit com 2 = false → (∀ r, on r → (hdr r).testBit 1 = false) →
      (legal → Does (.rcommitWrite p) s zs fun t => t.bit com 2 = true ∧ RegsBut [com] s t) ∧
      (¬ legal → Does (.rcommitWrite p) s zs fun t => t.bit dst 3 = true ∧ t.pends 23 = true ∧ RegsBut [dst] s t)) ∧
    (∀ r, (∀ f, c.frame = some f → f.armed = true → r ∈ f.judged) → exec (.regionVerdict p r) s = .next s) ∧
    (∀ r f g, r < 64 → c.frame = some f → f.armed = true → r ∉ f.judged → c.active.find? (fun g => g.slot == r) = some g →
      g.numeric = false → g.record < 256 → (f.stamps.find? fun q => q.1 == r) = none → (s.slot p r).mode = .normal →
      (s.slot p r).due = false →
      let zs := [Zone.block 1, .out, .block 8, .free, .il, .block 3]
      let x := s.slot p r
      let l := (s.resolveL p f.num).bind c.latch
      let matched := ∃ k, l = some k ∧
        let st := k.vec.getD g.tt 0
        (rec' g.record 0).testBit 0 = true ∧ st ≤ natBits (rec' g.record 0) 7 4 ∧
          crc32 (s.arrayBytes p g) = rec' g.record (0x10 + 4 * st)
      held →
      (matched → Does (.regionVerdict p r) s zs fun t => t.slot p r = { x with cnt := 0 } ∧ fault t r = fault s r) ∧
      (¬ matched → x.cnt + 1 < persist + 1 → Does (.regionVerdict p r) s zs fun t =>
        t.slot p r = { x with cnt := x.cnt + 1 } ∧ fault t r = fault s r) ∧
      (¬ matched → persist + 1 ≤ x.cnt + 1 → Does (.regionVerdict p r) s zs fun t =>
        t.slot p r = { x with cnt := x.cnt + 1, due := true } ∧ fault t r = true ∧ t.pends 16 = true)) ∧
    (∀ f, c.frame = some f → f.armed = true → f.hbDone = false →
      let near := fun n => n = (f.num + 65535) % 65536 ∨ n = (f.num + 65534) % 65536
      let passed := ∃ n, s.resolveL p f.num = some n ∧ near n ∧ c.lastL ≠ some n
      let zs := [Zone.block 3, .il, .block 1, .out, .free]
      (passed → Does (.heartbeatVerdict p) s zs fun t =>
        (t.chan p).hbCnt = 0 ∧ t.bit dst 2 = true ∧ t.bit dst 1 = s.bit dst 1 ∧ RegsBut [dst] s t) ∧
      (¬ passed → c.hbCnt < persist → Does (.heartbeatVerdict p) s zs fun t =>
        (t.chan p).hbCnt = c.hbCnt + 1 ∧ t.bit dst 2 = false ∧ t.bit dst 1 = s.bit dst 1 ∧ RegsBut [dst] s t) ∧
      (¬ passed → persist ≤ c.hbCnt → Does (.heartbeatVerdict p) s zs fun t =>
        (t.chan p).hbCnt = c.hbCnt + 1 ∧ t.bit dst 2 = false ∧ t.bit dst 1 = true ∧
        (s.bit dst 1 = false → t.pends 18 = true ∧
          (s.bit (Reg.act cfg) 4 = true → t.bit Reg.SAFE_STAT 3 = true ∧ t.bit Reg.SAFE_STAT 31 = true)))) ∧
    ((∀ f, c.frame = some f → f.armed = true → f.hbDone = true) → exec (.heartbeatVerdict p) s = .next s)

/-- IC_PEND_WRITE of one source, IC_ACK and IC_EOI (R475). -/
def Obligations.InterruptSourceStates : Prop :=
  ∀ (s : State) (k b : Nat), k < 4 → b < 32 →
    let n := 32 * k + b
    let pend := fun (t : State) => t.bit (Reg.IC_PEND + 4 * k) b
    let act := fun (t : State) => t.bit (Reg.IC_ACTIVE + 4 * k) b
    let lost := fun (t : State) => t.bit (Reg.IC_LOST + 4 * k) b
    let only := fun (t : State) (as : List Nat) => ∀ a, a ∉ as → t.reg a = s.reg a
    (Does (.icPendWrite k (BitVec.ofNat 32 (2 ^ b))) s [.block 1, .out] fun t =>
      pend t = true ∧ act t = act s ∧ lost t = (lost s || pend s)) ∧
    (pend s = true → act s = false → Does (.icAck n) s [.block 1] fun t =>
      pend t = false ∧ act t = true ∧ lost t = lost s ∧ only t [Reg.IC_PEND + 4 * k, Reg.IC_ACTIVE + 4 * k]) ∧
    (¬ (pend s = true ∧ act s = false) → Does (.icAck n) s [.block 1] fun t => t.bit Reg.IC_ERR 0 = true ∧ only t [Reg.IC_ERR]) ∧
    (act s = true → Does (.icEoi n) s [.block 1] fun t =>
      act t = false ∧ pend t = pend s ∧ lost t = lost s ∧ only t [Reg.IC_ACTIVE + 4 * k] ∧
      (pend s = true → s.bit (Reg.IC_EN + 4 * k) b = true → t.icEligible n = true)) ∧
    (act s = false → Does (.icEoi n) s [.block 1] fun t => t.bit Reg.IC_ERR 1 = true ∧ only t [Reg.IC_ERR])

/-- MB_DOORBELL, MB_ABORT, RESPONSE_POST, MB_TIMEOUT, IC_UNPEND_WRITE, IC_HEOI, MSIX_TABLE_WRITE and CONFIGURATION_REQUEST (R461 to
R466, R469, R471, R476 to R479). -/
def Obligations.MailboxesAndHostInterrupts : Prop :=
  ∀ (s : State),
    (∀ (m : Nat) (rivals : List Nat), m < 4 →
      let stat := Reg.MB_STAT + 0x100 * m
      let rsp := Reg.RSP0 + 0x100 * m
      let cmd := s.reg (Reg.CMD0 + 0x100 * m)
      let op := bitsOf cmd 31 24
      let seq := bitsOf cmd 23 16
      let len := bitsOf cmd 15 0
      let st := s.fld stat 1 0
      let same := seq = s.fld stat 15 8
      let fresh := (st = 0 ∨ st = 3) ∧ ¬ (st = 3 ∧ same)
      let sized := len ≤ 60 ∧ len % 4 = 0
      let zs := [Zone.block 0, .block 1, .out, .tkt]
      let ended := fun (t : State) (status retry n : Nat) => t.fld stat 1 0 = 3 ∧ t.fld stat 15 8 = seq ∧ t.bit stat 3 = false ∧
        t.reg rsp = BitVec.ofNat 32 (status * 2 ^ 24 + seq * 2 ^ 16 + retry * 2 ^ 8 + n) ∧ t.pends (8 + m) = true ∧
        m ∉ t.tkt.queue ∧ ∀ q, q < 4 → q ≠ m → t.fld (Reg.MB_STAT + 0x100 * q) 1 0 = s.fld (Reg.MB_STAT + 0x100 * q) 1 0
      let reason := fun (t : State) (n : Nat) => t.reg (rsp + 4) = BitVec.ofNat 32 (n * 2 ^ 16)
      let c := Instr.mbDoorbell m rivals
      (st = 1 ∨ st = 2 → same → exec c s = .next s) ∧
      (st = 1 ∨ st = 2 → ¬ same → Does c s [.block 0] fun t => t.bit stat 6 = true ∧ RegsBut [stat] s t) ∧
      (st = 3 → same → Does c s [.block 0] fun t => t.bit stat 7 = true ∧ RegsBut [stat] s t) ∧
      (fresh → s.mbLoses m rivals = true → Does c s zs fun t => ended t 7 0 0 ∧ t.pends 13 = true ∧
        (t.reg Reg.TO_COLL_CNT).toNat = min ((s.reg Reg.TO_COLL_CNT).toNat + 1) (2 ^ 32 - 1)) ∧
      (fresh → s.mbLoses m rivals = false → ¬ sized → Does c s zs fun t => ended t 4 0 4 ∧ reason t 2) ∧
      (fresh → s.mbLoses m rivals = false → sized → op = 0x21 ∨ op = 0x72 → m ≠ 2 → Does c s zs fun t =>
        ended t 5 0 4 ∧ reason t 5) ∧
      (fresh → s.mbLoses m rivals = false → sized → op = 0x21 → m = 2 → (4 ≤ len ∧ len ≤ 32 → Does c s [.block 0] fun t =>
          t.fld stat 1 0 = 2 ∧ t.fld stat 15 8 = seq ∧ t.bit stat 3 = false ∧ t.reg rsp = BitVec.ofNat 32 (2 ^ 24 + seq * 2 ^ 16) ∧
          RegsBut [stat, rsp] s t) ∧
        (¬ (4 ≤ len ∧ len ≤ 32) → Does c s zs fun t => ended t 4 0 4 ∧ reason t 2)) ∧
      (fresh → s.mbLoses m rivals = false → sized → op ≠ 0x21 → op = 0x72 → m = 2 → s.bit Reg.TO_STAT 0 = false →
        Does c s zs fun t => ended t 2 10 4 ∧ reason t 0x17) ∧
      (fresh → s.mbLoses m rivals = false → sized → op ≠ 0x21 → op ≠ 0x72 → s.bit Reg.TO_STAT 0 = false →
        Does c s zs fun t => ended t 2 10 4 ∧ reason t 0x17) ∧
      (fresh → s.mbLoses m rivals = false → sized → op ≠ 0x21 → (op = 0x72 → m = 2) → s.bit Reg.TO_STAT 0 = true →
        (op = 2 → 1 < m ∨ s.pwr.phase = .starting ∨ (s.pwr.phase = .stable ∧ s.fld (Reg.CMD0 + 0x100 * m + 4) 2 0 ≠ 0)) →
        Does c s zs fun t => t.fld stat 1 0 = 1 ∧ t.fld stat 15 8 = seq ∧ t.bit stat 3 = false ∧
          t.reg rsp = BitVec.ofNat 32 (2 ^ 24 + seq * 2 ^ 16) ∧ t.pends m = true ∧ m ∈ t.tkt.queue ∧
          (rivals = [] → t.tkt.queue = s.tkt.queue ++ [m]) ∧ RegsBut [stat, rsp] s t) ∧
      (fresh → s.mbLoses m rivals = false → sized → op = 2 → m < 2 → s.bit Reg.TO_STAT 0 = true → s.pwr.phase = .stable →
        s.fld (Reg.CMD0 + 0x100 * m + 4) 2 0 = 0 → s.pwr.mode = .idle ∨ s.pwr.mode = .sleep →
        Does c s (.block 2 :: .pwr :: zs) fun t => t.fld stat 1 0 = 1 ∧ t.pends m = true ∧ t.pwr = { s.pwr with phase := .switching 0 } ∧
          t.bit Reg.PWR_STAT 12 = true)) ∧
    (∀ m v, m < 4 →
      let stat := Reg.MB_STAT + 0x100 * m
      let rsp := Reg.RSP0 + 0x100 * m
      let st := s.fld stat 1 0
      let aborted := s.bit stat 3 = true
      let running21 := m = 2 ∧ bitsOf (s.reg (Reg.CMD0 + 0x200)) 31 24 = 0x21
      let final := fun (t : State) (status retry n : Nat) (late : Bool) => t.fld stat 1 0 = 3 ∧ t.pends (8 + m) = true ∧
        t.fld rsp 31 24 = status ∧ t.fld rsp 23 16 = s.fld stat 15 8 ∧ t.bit rsp 15 = late ∧ t.fld rsp 14 8 = retry ∧
        t.fld rsp 7 0 = n ∧ m ∉ t.tkt.queue ∧ RegsBut [stat, rsp] s t
      let zs := [Zone.block 1, .out, .block 0, .tkt]
      (st = 0 ∨ (st = 2 ∧ aborted) ∨ (st = 3 ∧ aborted) → exec (.mbAbort m) s = .next s) ∧
      (st = 1 → Does (.mbAbort m) s zs fun t => final t 3 0 0 false ∧ t.bit stat 3 = true) ∧
      (st = 2 → ¬ aborted → Does (.mbAbort m) s zs fun t => t.bit stat 3 = true ∧ t.fld stat 1 0 = 2 ∧
        (¬ running21 → t.pends (4 + m) = true) ∧ RegsBut [stat] s t) ∧
      (st = 3 → ¬ aborted → Does (.mbAbort m) s [.block 0] fun t => t.bit stat 3 = true ∧ t.bit rsp 15 = true ∧
        t.fld rsp 31 24 = s.fld rsp 31 24 ∧ t.fld stat 1 0 = 3 ∧ RegsBut [stat, rsp] s t) ∧
      (let mine := (st = 1 ∨ st = 2) ∧ bitsOf v 23 16 = s.fld stat 15 8;
        (¬ mine → exec (.responsePost m v) s = .next s) ∧
        (mine → bitsOf v 31 24 = 1 → Does (.responsePost m v) s [.block 0, .tkt] fun t => t.fld stat 1 0 = 2 ∧
          t.fld rsp 31 16 = bitsOf v 31 16 ∧ t.fld rsp 14 0 = bitsOf v 14 0 ∧ RegsBut [stat, rsp] s t) ∧
        (mine → bitsOf v 31 24 ≠ 1 → Does (.responsePost m v) s zs fun t =>
          final t (bitsOf v 31 24) (bitsOf v 14 8) (bitsOf v 7 0) (s.bit stat 3 && bitsOf v 31 24 != 3))) ∧
      (st = 1 ∨ st = 2 → Does (.mbTimeout m) s zs fun t => final t 6 0 0 (s.bit stat 3) ∧ t.pends 15 = true) ∧
      (st = 0 ∨ st = 3 → exec (.mbTimeout m) s = .next s)) ∧
    (∀ k v, k < 4 → Does (.icUnpendWrite k v) s [.block 1] fun t =>
      t.reg (Reg.IC_PEND + 4 * k) = s.reg (Reg.IC_PEND + 4 * k) &&& ~~~ v ∧
      ∀ a, a ≠ Reg.IC_PEND + 4 * k → t.reg a = s.reg a) ∧
    (∀ v, v < 64 →
      let serving := fun (t : State) => t.bit (Reg.IC_HINSVC + 4 * (v / 32)) (v % 32)
      let pba := fun (t : State) => t.bit (Reg.MSIX_PBA + 4 * (v / 32)) (v % 32)
      let entry := Reg.MSIX_TABLE + 16 * v
      let asks := ∃ i, i < 128 ∧ s.bit (Reg.IC_HPEND + 4 * (i / 32)) (i % 32) = true ∧
        s.bit (Reg.IC_HROUTE + 4 * (i / 4)) (8 * (i % 4) + 7) = true ∧
        s.fld (Reg.IC_HROUTE + 4 * (i / 4)) (8 * (i % 4) + 5) (8 * (i % 4)) = v
      let enabled := s.pcie.msixEnable = true ∧ s.pcie.msixFuncMask = false ∧ s.pcie.busMaster = true
      let sent := fun (t : State) => t.out = s.out ++ [Out.msix v ((s.reg entry).toNat + 2 ^ 32 * (s.reg (entry + 4)).toNat) (s.reg (entry + 8))]
      (serving s = false → Does (.icHeoi v) s [.block 1] fun t => t.bit Reg.IC_ERR 2 = true) ∧
      (serving s = true → ¬ asks → Does (.icHeoi v) s [.block 1] fun t => serving t = false ∧ pba t = false) ∧
      (serving s = true → asks → enabled → s.bit (entry + 12) 0 = false → Does (.icHeoi v) s [.block 1, .out] fun t =>
        serving t = true ∧ pba t = false ∧ sent t) ∧
      (serving s = true → asks → ¬ (enabled ∧ s.bit (entry + 12) 0 = false) → Does (.icHeoi v) s [.block 1] fun t =>
        serving t = false ∧ pba t = true) ∧
      (∀ w, Does (.msixTableWrite (4 * v + 3) w) s [.block 1, .out] fun t => t.bit (entry + 12) 0 = w.getLsbD 0 ∧
        (asks → enabled → serving s = false → w.getLsbD 0 = false → sent t ∧ serving t = true ∧ pba t = false) ∧
        (asks → serving s = false → w.getLsbD 0 = true ∨ ¬ enabled → t.out = s.out ∧ serving t = false ∧ pba t = true) ∧
        (¬ asks → t.out = s.out ∧ serving t = serving s ∧ pba t = false)) ∧
      ∀ j w, j < 3 → Does (.msixTableWrite (4 * v + j) w) s [.block 1, .out] fun t => t.reg (entry + 4 * j) = w) ∧
    ∀ write mem bus msix mask,
      (s.bit Reg.TO_STAT 1 = false → Does (.configurationRequest write mem bus msix mask) s [.out] fun t =>
        t.out = s.out ++ [Out.configRetry]) ∧
      (s.bit Reg.TO_STAT 1 = true → exec (.configurationRequest false mem bus msix mask) s = .next s) ∧
      (s.bit Reg.TO_STAT 1 = true → Does (.configurationRequest true mem bus msix mask) s [.out, .block 1, .pcie] fun t =>
        t.pcie = ⟨mem, bus, msix, mask⟩)

/-- REGISTER_WRITE (R9, R10, R33, R34, R440, R448, R463). -/
def Obligations.RegisterWrites : Prop :=
  ∀ (s : State) (ini a : Nat) (v : Word),
    let c := Instr.registerWrite ini a v
    let same := exec c s = .next s
    (isReg a = false ∨ (0xF00000 ≤ a ∧ a < 0xF10000) → same) ∧
    (0x10000 ≤ a → ini ≠ 0 → same) ∧
    (0x3000 ≤ a → a < 0x3800 → ini ≠ 0 → ini ≠ 6 → same) ∧
    (0x4000 ≤ a ∧ a < 0x5000 ∨ 0xF000 ≤ a ∧ a < 0x10000 → same) ∧
    ((a ∈ [0xF00, 0x404, 0x40C, 0x414, 0x41C] ∨ (ini = 0 ∧ a ∈ [0x400, 0x10000, 0x1000C, 0x10010, 0x10108, 0x1010C, 0x10200, 0x10204,
        0x11000, 0x11004, 0x11008, 0x11010, 0x14030, 0x1403C])) →
      Does c s [.block (blockOf a)] fun t => RegsBut [a] s t ∧ ∀ r, regRow? a = some r → ∀ i, i < 32 → t.bit a i =
        if r.w1s.testBit i && v.getLsbD i then true
        else if r.w1c.testBit i && v.getLsbD i then false
        else if r.rw.testBit i then v.getLsbD i else s.bit a i) ∧
    ∀ m w, m < 4 → w < 16 →
      let st := s.fld (Reg.MB_STAT + 0x100 * m) 1 0
      let owner := if m < 2 then 5 else if m = 2 then 6 else if s.part.cplRole then 19 else 20
      (a = Reg.CMD0 + 0x100 * m + 4 * w →
        (ini = owner → st = 0 ∨ st = 3 → Does c s [.block 0] fun t => t.reg a = v ∧ RegsBut [a] s t) ∧
        (ini ≠ owner ∨ st = 1 ∨ st = 2 → same)) ∧
      (a = Reg.RSP0 + 0x100 * m + 4 * w → 0 < w →
        (ini = 0 → st = 1 ∨ st = 2 → Does c s [.block 0] fun t => t.reg a = v ∧ RegsBut [a] s t) ∧
        (ini ≠ 0 ∨ st = 0 ∨ st = 3 → same))

/-- HOST_BAR0_REQUEST, HOST_BAR2_REQUEST, SAFETY_PORT_READ, SAFETY_PORT_WRITE, SAFETY_PORT_NO_ACCESS and SP_LATE_DONE (R34 to R38,
R346, R449 to R457, R471). -/
def Obligations.HostRequestsAndSafetyPort : Prop :=
  ∀ (s : State),
    let live := s.bit Reg.TO_STAT 1 = true ∧ s.pcie.memEnable = true
    let unsupported := fun (c : Instr) => Does c s [.out] fun t => t.out = s.out ++ [Out.unsupported]
    let recorded := fun (t : State) (kind resp ini off : Nat) => t.pends 12 = true ∧ t.bit Reg.TO_ERR_STAT 31 = true ∧
      (t.reg Reg.TO_ERR_CNT).toNat = min ((s.reg Reg.TO_ERR_CNT).toNat + 1) (2 ^ 32 - 1) ∧
      (s.bit Reg.TO_ERR_STAT 31 = true → t.bit Reg.TO_ERR_STAT 30 = true) ∧
      (s.bit Reg.TO_ERR_STAT 31 = false → t.fld Reg.TO_ERR_STAT 29 27 = kind ∧ t.fld Reg.TO_ERR_STAT 26 24 = resp ∧
        t.fld Reg.TO_ERR_STAT 23 19 = ini ∧ t.reg Reg.TO_ERR_ADDR = BitVec.ofNat 32 off)
    (∀ kind off dws rivals tmo,
      let c := Instr.hostBar0Request kind off dws rivals tmo
      (¬ live → kind = .write → exec c s = .next s) ∧
      (¬ live → kind ≠ .write → unsupported c) ∧
      (live → kind = .atomic → s.fence 49 = 0 → unsupported c)) ∧
    (∀ kind off len data met rivals tmo,
      let c := Instr.hostBar2Request kind off len data met rivals tmo
      (¬ live → kind = .write → exec c s = .next s) ∧
      (¬ live → kind ≠ .write → unsupported c) ∧
      (live → kind = .atomic → unsupported c) ∧
      (live → kind ≠ .atomic → s.fence 48 ≠ 0 → exec c s = .next s)) ∧
    (live → ∀ off v, off % 4 = 0 → off < 0x10000 →
      let write := fun be => Instr.hostBar0Request .write off [(v, be)] [] []
      let read := Instr.hostBar0Request .read off [(v, 0xF)] [] []
      (inCycle off = true → (s.regWrite 5 off v []).2 = .ok → exec (write 0xF) s = exec (.registerWrite 5 off v) s) ∧
      (0x3000 ≤ off → off < 0x3800 → isReg off = true → Does (write 0xF) s [.block 0, .block 1, .out] fun t => recorded t 1 6 5 off) ∧
      (∀ be, be ≠ 0 → be ≠ 0xF → inCycle off = true ∨ s.fence 49 = 0 → Does (write be) s [.block 0, .block 1, .out] fun t =>
        recorded t 0 0 5 off) ∧
      (exec (write 0) s = .next s) ∧
      (inCycle off = true → Does read s [.out, .block 0, .free] fun t =>
        t.out = s.out ++ [Out.completion true (natLe 4 (s.readValue off).toNat)] ∧
        (off = Reg.TO_ERR_CNT → t.reg off = 0) ∧ (off ≠ Reg.TO_ERR_CNT → off ≠ Reg.TO_COLL_CNT → off ≠ Reg.SP_ERR_CNT → s.regs = t.regs)) ∧
      (off = 0xF000 → s.reg off = 0x7131025E → Does read s [.out, .free] fun t =>
        t.out = s.out ++ [Out.completion true [0x5E, 0x02, 0x31, 0x71]]) ∧
      (0xA000 ≤ off → off < 0xF000 → exec (write 0xF) s = .next s ∧
        Does read s [.out] fun t => t.out = s.out ++ [Out.completion true [0, 0, 0, 0]]) ∧
      (inCycle off = false → ¬ (0xA000 ≤ off ∧ off < 0xF000) → s.fence 49 ≠ 0 →
        exec (write 0xF) s = .next s ∧ exec read s = .next s)) ∧
    (live → s.fence 48 = 0 → s.fence 57 = 0 → s.bit Reg.MEM_STAT 0 = false → ∀ off d, off % 8 = 0 → off < 0x800000 →
      s.fld Reg.BAR2_BANK 22 0 = 0 →
      let k := s.spKey (off / 8)
      let write := Instr.hostBar2Request .write off 8 [(d, 0xFF)] [] [] []
      let word := decode72 (s.spCell k)
      (s.fwAllows 4 off 8 true = true → Does write s [.sp] fun t =>
        t.spCell k = encode72 d ∧ ∀ j, j ≠ k → t.spCell j = s.spCell j) ∧
      (s.fwAllows 4 off 8 true = false → Does write s [.block 9, .block 0, .block 1, .out] fun t =>
        recorded t 3 6 4 off ∧ t.pends 86 = true) ∧
      (s.fwAllows 4 off 8 false = true → word.2 = .clean → Does (.hostBar2Request .read off 8 [] [] [] []) s [.out, .free] fun t =>
        t.out = s.out ++ [Out.completion true (natLe 8 word.1.toNat)]) ∧
      (s.fwAllows 4 off 8 false = false → Does (.hostBar2Request .read off 8 [] [] [] []) s [.block 9, .block 0, .block 1, .out, .free] fun t =>
        recorded t 3 6 4 off ∧ .completion false [] ∈ t.out)) ∧
    (∀ h d c cut rivals,
      let good := crc16 (natBe 2 (h.toNat / 65536)) = h.toNat % 65536
      let whole := crc16 (natBe 4 d.toNat) = bitsOf c 31 16
      let a := 4 * bitsOf h 29 16
      let cmd := bitsOf h 31 30
      let up := s.bit Reg.TO_STAT 2 = true
      let event := fun (t : State) b => t.bit Reg.SP_STAT b = true ∧ t.pends 14 = true ∧
        (t.reg Reg.SP_ERR_CNT).toNat = min ((s.reg Reg.SP_ERR_CNT).toNat + 1) (2 ^ 32 - 1)
      let frame := fun (t : State) (word f : Word) (resp flags : Nat) => bitsOf f 31 29 = resp ∧ bitsOf f 28 24 = 2 * flags ∧
        bitsOf f 23 16 = t.tkt.tcnt ∧ crc16 (natBe 4 word.toNat ++ natBe 2 (f.toNat / 65536)) = bitsOf f 15 0
      let reads := fun (t : State) (o : List Out) (word : Word) (resp flags : Nat) =>
        ∃ f, t.out = o ++ [Out.miso (some word) (some f)] ∧ frame t word f resp flags
      let wrote := fun (t : State) (o : List Out) (resp flags : Nat) => ∃ f, t.out = o ++ [Out.miso none (some f)] ∧ frame t d f resp flags
      let occupied := s.bit Reg.SP_LATE_STAT 31 = true ∨ s.bit Reg.SP_LATE_STAT 30 = true
      let counted := fun (t : State) => t.tkt.tcnt = (s.tkt.tcnt + 1) % 256
      let outer := inCycle a = false ∧ ¬ (0xA000 ≤ a ∧ a < 0xF000)
      let late := fun (t : State) (w : Bool) => t.bit Reg.SP_LATE_STAT 31 = true ∧ t.bit Reg.SP_LATE_STAT 29 = w ∧
        t.fld Reg.SP_LATE_STAT 13 0 = a / 4 ∧ t.tkt.late = some (w, a, if w then d else 0) ∧ counted t
      let rd := Instr.safetyPortRead h none
      let wr := Instr.safetyPortWrite h d c none []
      let faults := [Zone.block 0, .block 1, .out]
      s.tkt.tcnt < 256 →
      (¬ up → exec (.safetyPortRead h cut) s = .next s ∧ exec (.safetyPortWrite h d c cut rivals) s = .next s ∧
        exec (.safetyPortNoAccess h cut) s = .next s) ∧
      (up → cmd = 1 → good → inCycle a = true → Does rd s [.out, .block 0, .tkt, .free] fun t =>
        counted t ∧ reads t s.out (s.readValue a) 0 0) ∧
      (up → cmd = 1 → good → outer → ¬ occupied → Does rd s [.out, .block 0, .tkt] fun t => late t false ∧ reads t s.out 0 0 2) ∧
      (up → cmd = 1 → good → outer → occupied → Does rd s [.out] fun t => reads t s.out 0 0 1) ∧
      (up → cmd = 1 → ¬ good → Does rd s faults fun t => event t 1 ∧ t.tkt.tcnt = s.tkt.tcnt ∧
        ∃ f, Out.miso (some 0) (some f) ∈ t.out ∧ frame t 0 f 2 8) ∧
      (up → cmd = 0 ∨ cmd = 3 → good → Does (.safetyPortNoAccess h none) s faults fun t => event t 0 ∧
        ∃ f, Out.miso (some 0) (some f) ∈ t.out ∧ frame t 0 f 1 0) ∧
      (up → cmd = 2 → good → whole → inCycle a = true → ∃ u t, exec (.registerWrite 6 a d) s = .next u ∧ exec wr s = .next t ∧
        t = { u with tkt := { u.tkt with tcnt := (u.tkt.tcnt + 1) % 256 }, out := t.out } ∧
        wrote t u.out (respCode (s.regWrite 6 a d []).2) 0) ∧
      (up → cmd = 2 → good → whole → outer → ¬ occupied → Does wr s [.out, .block 0, .tkt] fun t => late t true ∧ wrote t s.out 0 2) ∧
      (up → cmd = 2 → good → whole → outer → occupied → Does wr s [.out] fun t => wrote t s.out 0 1) ∧
      (up → cmd = 2 → good → ¬ whole → Does wr s faults fun t => event t 2 ∧
        ∃ f, Out.miso none (some f) ∈ t.out ∧ frame t d f 2 4) ∧
      (up → cmd = 2 → ¬ good → Does wr s faults fun t => event t 1 ∧ ∃ f, Out.miso none (some f) ∈ t.out ∧ frame t d f 2 8) ∧
      (up → cmd = 2 → good → ∀ n, n < 96 → Does (.safetyPortWrite h d c (some n) rivals) s faults fun t => event t 3 ∧
        Out.miso none none ∈ t.out ∧ t.tkt = s.tkt)) ∧
    (s.tkt.late = none ∨ s.fence 49 ≠ 0 → ∀ tmo rivals, exec (.spLateDone tmo rivals) s = .next s) ∧
    ∀ a r rivals, s.tkt.late = some (false, a, 0) → s.fence 49 = 0 → regRow? a = some r → a % 4 = 0 → 0x2000 ≤ a → a < 0xA000 → r.rc = 0 →
      a ≠ Reg.FAB_RB_DATA → s.fence (regPort a) = 0 →
      let allowed := s.fwAllows 6 (0x2000000 + a) 4 false
      let placed := fun (t : State) (resp : Nat) => t.tkt.late = none ∧ t.bit Reg.SP_LATE_STAT 31 = false ∧
        t.bit Reg.SP_LATE_STAT 30 = true ∧ t.fld Reg.SP_LATE_STAT 18 16 = resp
      (allowed = true → Does (.spLateDone false rivals) s [.block 0, .tkt, .free] fun t =>
        placed t 0 ∧ t.reg Reg.SP_LATE_DATA = s.readValue a) ∧
      (allowed = false → Does (.spLateDone false rivals) s [.block 9, .block 0, .block 1, .out, .tkt, .free] fun t => placed t 6) ∧
      (allowed = true → Does (.spLateDone true rivals) s [.block 0, .block 1, .block 18, .out, .tkt, .free] fun t =>
        placed t 3 ∧ t.pends 82 = true)

/-- The take-up of every command to Stationmaster (R465, R487 to R490, R494); UNDEFINED_COMMAND (R486), IDENT (R495),
TELEMETRY_READ (R512), LOG_READ (R514) and METRO_READ (R515). The contents of A5 to A7 of IDENT and of telemetry pages 0, 1, 3 and
4 are those of the functions named. -/
def Obligations.StationmasterTakesUpCommandsAndReads : Prop :=
  ∀ (s : State),
    let zs := [Zone.block 0, .sm, .block 1, .out, .tkt]
    (∀ c m op boxes len, stationOf s c = some (m, op, boxes, len) →
      (¬ s.turn m op → exec c s = .next s) ∧
      (s.smReady m op → m ∉ boxes → Does c s zs fun t => s.failed t m 5 5 0) ∧
      (s.smReady m op → m ∈ boxes → s.mbLength m ≠ len → Does c s zs fun t => s.failed t m 4 2 0)) ∧
    (∀ m, m < 4 →
      let op := s.mbOpcode m
      (opKnown op = true ∨ ¬ s.turn m op → exec (.undefinedCommand m) s = .next s) ∧
      (opKnown op = false → s.smReady m op → Does (.undefinedCommand m) s zs fun t => s.failed t m 4 1 0)) ∧
    (∀ m, s.smReady m 0x01 → s.mbLength m = 0 → Does (.ident m) s zs fun t => s.answered t m 0
      [0x7131025E, word s.stepping, s.view Reg.MCVER, s.sm.version, word s.identA5, word s.identA6, word (s.identA7 m)]) ∧
    (∀ m mv, s.smReady m 0x60 → s.mbLength m = 4 → bitsOf (s.param m 1) 31 8 = 0 → s.sm.pipeTot.length = 4 →
      let page := bitsOf (s.param m 1) 7 0
      let c := Instr.telemetryRead m mv
      let count := fun r => (s.reg r).toNat
      let sum := fun a b => BitVec.ofNat 32 (min (a + b) 0xFFFFFFFF)
      let rc := [Reg.COLL_CNT, Reg.STORE_ERR_CNT] ++ ((List.range 4).flatMap fun k =>
        [Reg.CE_COUNT + 0x80 * k, Reg.UE_COUNT + 0x80 * k, Reg.UNDERRUN_CNT + 0x400 * k]) ++
        (List.range 6).map fun n => Reg.CAM_ERRCNT + 0x100 * n
      (4 < page → Does c s zs fun t => s.failed t m 4 3 1) ∧
      (page ≤ 4 → Does c s (.regs :: zs) fun t => ∃ a, s.answered t m 0 a ∧ a.length = [10, 6, 12, 10, 4].getD page 0 ∧
        (∀ r ∈ rc, t.reg r = 0) ∧ (∀ r, r ∉ rc → blockOf r ≠ 0 → blockOf r ≠ 1 → t.reg r = s.reg r) ∧
        (page = 2 → (∀ k, k < 4 → a[k]? = some (sum (s.sm.ceTot.getD k 0) (count (Reg.CE_COUNT + 0x80 * k))) ∧
            a[k + 4]? = some (sum (s.sm.ueTot.getD k 0) (count (Reg.UE_COUNT + 0x80 * k)))) ∧
          a[9]? = some (sum s.sm.collTot (count Reg.COLL_CNT)) ∧ a[10]? = some (sum s.sm.storeTot (count Reg.STORE_ERR_CNT)) ∧
          a[11]? = some (s.reg Reg.TAMPER_STAT)))) ∧
    (∀ m, s.smReady m 0x61 → s.mbLength m = 4 → Does (.logRead m) s zs fun t =>
      let es := (s.log.filter fun e => decide ((s.param m 1).toNat ≤ e.seq)).take 3
      s.answered t m 0 ([word ((s.log.head?.map LogEntry.seq).getD s.logSeq), word s.logSeq] ++
        es.flatMap fun e => [word e.seq, e.ms, e.w2, e.w3])) ∧
    ∀ m, s.smReady m 0x80 → s.mbLength m = 8 → bitsOf (s.param m 1) 31 2 = 0 →
      let sel := bitsOf (s.param m 1) 1 0
      let gv := fun k => s.reg (Reg.GV_TOTAL + 4 * k)
      let flags := s.fld Reg.GV_VALID 2 0 + 2 ^ 8 * (s.bit Reg.GV_STAT 28).toNat + 2 ^ 9 * (s.bit Reg.GV_STAT 30).toNat
      (sel = 0 → s.param m 2 = 0 → Does (.metroRead m) s zs fun t => s.answered t m 0 [s.reg Reg.GV_PULSE_LO, s.reg Reg.GV_PULSE_HI,
        s.reg Reg.GV_K, gv 0, gv 1, gv 2, s.reg Reg.GV_SPEED, word flags]) ∧
      (sel = 1 → s.param m 2 = 0 → Does (.metroRead m) s zs fun t =>
        s.answered t m 0 [s.reg Reg.GV_FWID, s.reg (Reg.GV_FWID + 4)]) ∧
      (sel = 2 → bitsOf (s.param m 2) 31 8 = 0 → Does (.metroRead m) s zs fun t =>
        s.answered t m 0 ((List.range 4).map fun k => s.reg (0x16000 + 16 * bitsOf (s.param m 2) 7 0 + 4 * k))) ∧
      (sel = 3 → s.param m 2 = 0 → Does (.metroRead m) s zs fun t => s.failed t m 4 3 1)

/-- The commands on scenes, maps, references and kernels (R497 to R507). Which containers are well formed and accepted is said by
`State.parseScene`, `State.sceneReason`, `State.refReason` and `parseKernel`. That the registers take the pending region table's
masks is R446's. -/
def Obligations.ScenesMapsReferencesAndKernels : Prop :=
  ∀ (s : State) (m : Nat), s.sm.disp.length = 4 →
    let zs := [Zone.block 0, .sm, .block 1, .out, .tkt]
    let f := 0xFFFFFFFF
    let q := s.request m
    let display := bitsOf (s.param m 1) 1 0
    let kid := bitsOf (s.param m 1) 5 0
    (∀ host lut b, s.accepts (.sceneLoad m host lut) [3, f, f, f] (s.hostBuffer m 2 (s.param m 4).toNat 8 host b →
      let fail := s.fails (.sceneLoad m host lut) m
      let ws := wordsLe b (b.length / 4)
      let la := (ws.getD 4 0).toNat + 2 ^ 32 * (ws.getD 5 0).toNat
      (s.parseScene ws = none → fail 6 0) ∧
      ∀ c, s.parseScene ws = some c →
        ∀ table : List Byte, la = 0 ∨ (la % 8 = 0 ∧ 2 ^ 51 ≤ la ∧ la + 1536 ≤ 2 ^ 52 ∧ lut = some table ∧ table.length = 1536) →
        let c1 := if la = 0 then c else
          { c with lut := some ((List.range 768).map fun i => (leNat ((table.drop (2 * i)).take 2)) % 1024) }
        ((s.smDisp display).keeps c1 = false → fail 0xB 0) ∧
        ((s.smDisp display).keeps c1 = true →
          (∀ r, s.sceneReason display c1 = some r → fail r 0) ∧
          (s.sceneReason display c1 = none → Does (.sceneLoad m host lut) s zs fun t =>
            s.answered t m 0 [] ∧ s.smShows t m display { s.smDisp display with staged := some c1 })))) ∧
    (s.accepts (.layerSet m) [0x1F73, 1, f, f, 0xFF, f, f, 0x1FFF] (
      let what := fun i => (s.param m 1).getLsbD i
      let n := bitsOf (s.param m 1) 6 4
      let plen := bitsOf (s.param m 8) 12 0
      (∀ w, q.unselected = some w → s.fails (.layerSet m) m 3 w) ∧
      (q.unselected = none → plen ≤ 4096 → plen % 8 = 0 → bitsOf (s.param m 7) 31 20 = 0 →
        (what 12 = true → s.bufOk (q.addr 6) plen 8 = true) →
        ∀ c front e back, (s.smDisp display).staged = some c → c.layers = front ++ e :: back → e.num = n →
          (∀ x ∈ front ++ back, x.num ≠ n) → 8 ≤ e.w.length →
          let w := fun k => e.w.getD k 0
          let e1 : LayerEnt := { e with
            on := if what 8 then (s.param m 2).getLsbD 0 else e.on
            source := if what 12 then some (q.addr 6, plen) else e.source
            w := (if what 11 then putBits (w 0) 31 24 (bitsOf (s.param m 5) 7 0) else w 0) ::
              (if what 9 then s.param m 3 else w 1) :: (if what 10 then s.param m 4 else w 2) :: e.w.drop 3 }
          let c1 := { c with layers := front ++ e1 :: back }
          let moved := what 9 = true ∨ what 10 = true
          (e.telltale = true → s.fails (.layerSet m) m 0x15 0) ∧
          (e.telltale = false → ∀ r, moved → s.sceneReason display c1 = some r → s.fails (.layerSet m) m r 0) ∧
          (e.telltale = false → (moved → s.sceneReason display c1 = none) → Does (.layerSet m) s zs fun t =>
            s.answered t m 0 [] ∧ s.smShows t m display { s.smDisp display with staged := some c1 })))) ∧
    (s.accepts (.layerCommit m) [0xF] (
      let mask := bitsOf (s.param m 1) 3 0
      let good := ∀ d, d < 4 → mask.testBit d = true → (s.smDisp d).configured = true ∧ (s.smDisp d).staged.isSome = true
      (¬ good → s.fails (.layerCommit m) m 3 1) ∧
      (mask = 0 → Does (.layerCommit m) s zs fun t => s.answered t m 0 [0] ∧ s.smKept t m ∧ t.sm.disp = s.sm.disp) ∧
      (good → mask ≠ 0 → Does (.layerCommit m) s zs fun t => t.waiting m (.commit mask mask 0) ∧ s.smKept t m ∧
        (∀ d, d < 4 → mask.testBit d = false → t.smDisp d = s.smDisp d) ∧
        ∀ d c, mask.testBit d = true → (s.smDisp d).staged = some c →
          t.smDisp d = { s.smDisp d with bind := some ⟨c, none, none, false⟩ }))) ∧
    (let p := bitsOf (s.param m 1) 5 4
      let r := bitsOf (s.param m 1) 13 8
      let key := Reg.REG + 0x100 * p + 4 * r
      let layer := bitsOf (s.param m 3) 2 0
      let x := s.smDisp p
      let com := Reg.DISP_RCOMMIT + 0x80 * p
      s.accepts (.telltaleMapSlot m) [0x3F3F, 0x80003FFF, 7, f, f] (
        bitsOf (s.param m 5) 31 20 = 0 → s.bufOk (q.addr 4) 8 8 = true →
        let known := ∃ c, x.staged = some c ∧ ∃ e ∈ c.layers, e.num = layer ∧ e.telltale = true
        (¬ known → s.fails (.telltaleMapSlot m) m 3 3) ∧
        (known → s.bit com 2 = true → s.fails (.telltaleMapSlot m) m 0x11 0) ∧
        (known → s.bit com 2 = false → Does (.telltaleMapSlot m) s (.block 3 :: zs) fun t => s.answered t m 0 [] ∧
          t.bit key 31 = (s.param m 2).getLsbD 31 ∧ t.fld key 13 0 = bitsOf (s.param m 2) 13 0 ∧
          (∀ a, blockOf a = 3 → a ≠ key → t.reg a = s.reg a) ∧ s.smShows t m p { x with slots := (x.slots.filter (fun e => e.1 != r)) ++ (if (s.param m 2).getLsbD 31 then [(r, layer, q.addr 4)] else []) })) ∧
      s.accepts (.telltaleMapCommit m) [0x3F] (
        ((s.regionCommit p).2 = .ok → Does (.telltaleMapCommit m) s (.block 8 :: .free :: .block 3 :: zs) fun t =>
          t.waiting m (.map p) ∧ t.bit com 2 = true ∧ s.smKept t m ∧ t.sm.disp = s.sm.disp) ∧
        ((s.regionCommit p).2 ≠ .ok → Does (.telltaleMapCommit m) s (.block 8 :: .free :: .block 3 :: zs) fun t =>
          s.failed t m 4 0x11 0 ∧ t.bit (Reg.DISP_STAT + 0x80 * p) 3 = true ∧ t.pends 23 = true ∧ s.smKept t m)) ∧
      s.accepts (.telltaleMapArm m) [0x3F, 0x0FFF003D] (
        let cfg := Reg.DISP_CFG + 0x80 * p
        let faulty := s.reg (Reg.FAULT + 0x80 * p) ≠ 0 ∨ s.reg (Reg.FAULT + 0x80 * p + 4) ≠ 0 ∨
          s.bit (Reg.DISP_STAT + 0x80 * p) 1 = true
        (faulty → (s.param m 2).getLsbD 0 = false → s.fails (.telltaleMapArm m) m 0xC 0) ∧
        (¬ (faulty ∧ (s.param m 2).getLsbD 0 = false) → Does (.telltaleMapArm m) s (.block 3 :: zs) fun t =>
          s.answered t m 0 [] ∧ t.fld cfg 27 16 = bitsOf (s.param m 2) 27 16 ∧ t.fld cfg 5 2 = bitsOf (s.param m 2) 5 2 ∧
          t.bit cfg 0 = (s.param m 2).getLsbD 0 ∧ (∀ a, blockOf a = 3 → a ≠ cfg → t.reg a = s.reg a) ∧
          s.smKept t m ∧ t.sm.disp = s.sm.disp)) ∧
      (2 < bitsOf (s.param m 1) 3 0 → s.smReady m 0x20 →
        (m = 3 → s.fails (.telltaleMapReservedSub m) m 5 0) ∧
        (m < 3 → if s.mbLength m = 4 ∨ s.mbLength m = 8 ∨ s.mbLength m = 20 then s.fails (.telltaleMapReservedSub m) m 3 1
          else s.fails (.telltaleMapReservedSub m) m 2 0))) ∧
    (∀ host b, s.accepts (.regionRefLoad m host) [f, f, f] (
      (s.bit Reg.TAMPER_STAT 4 = true → s.fails (.regionRefLoad m host) m 0xF 0) ∧
      (s.bit Reg.TAMPER_STAT 4 = false → s.hostBuffer m 2 (s.param m 1).toNat 4 host b →
        (∀ r, s.refReason b = some r → s.fails (.regionRefLoad m host) m r 0) ∧
        (s.refReason b = none → Does (.regionRefLoad m host) s (.free :: .memo :: .sec :: zs) fun t =>
          s.answered t m 0 [word (leNat ((b.drop 6).take 2)), word (leNat ((b.drop 8).take 4))] ∧
          t.mem.sec = (s.writeRecords b).mem.sec ∧ s.smKept t m ∧ t.sm.disp = s.sm.disp)))) ∧
    (∀ host b, s.accepts (.kernelLoad m host) [0x13F, f, f, f] (
      let fail := s.fails (.kernelLoad m host) m
      (47 < kid → fail 3 1) ∧
      (kid ≤ 47 → s.hostBuffer m 2 (s.param m 4).toNat 8 host b →
        (parseKernel kid b = none → fail 6 0) ∧
        ∀ x, parseKernel kid b = some x →
          if s.kidUsed kid = true ∧ (s.kernel kid).isSome = true then fail 0xB 0
          else Does (.kernelLoad m host) s (.kernels :: zs) fun t => s.answered t m 0 [word kid, word x.codelen] ∧
            t.kernel kid = some x ∧ (∀ k, k ≠ kid → t.kernel k = s.kernel k) ∧ s.smKept t m ∧ t.sm.disp = s.sm.disp))) ∧
    (s.accepts (.kernelUnload m) [0x13F, 0, 0, 0] (
      (47 < kid → s.fails (.kernelUnload m) m 3 1) ∧
      (kid ≤ 47 → s.kidUsed kid = true → s.fails (.kernelUnload m) m 0xB 0) ∧
      (kid ≤ 47 → s.kidUsed kid = false → Does (.kernelUnload m) s (.kernels :: zs) fun t => s.answered t m 0 [word kid, 0] ∧
        t.kernel kid = none ∧ (∀ k, k ≠ kid → t.kernel k = s.kernel k) ∧ s.smKept t m ∧ t.sm.disp = s.sm.disp))) ∧
    (∀ host b stored, s.accepts (.kernelRun m host stored) [0x3F, f, f, 0x7FFFF, f, f, f] (
      let fail := s.fails (.kernelRun m host stored) m
      let n := bitsOf (s.param m 4) 15 0
      let nd := bitsOf (s.param m 4) 18 16 + 1
      let plen := (s.param m 7).toNat
      (47 < kid → fail 3 1) ∧
      (kid ≤ 47 → n = 0 ∨ 1024 < n → fail 3 4) ∧
      (kid ≤ 47 → 1 ≤ n → n ≤ 1024 → 4096 < plen ∨ plen % 8 ≠ 0 → fail 3 7) ∧
      (kid ≤ 47 → 1 ≤ n → n ≤ 1024 → plen ≤ 4096 → plen % 8 = 0 → bitsOf (s.param m 6) 31 20 = 0 →
        s.bufOk (q.addr 5) plen 8 = true →
        let usable := ∃ x, s.kernel kid = some x ∧ x.faulted = false
        (¬ usable → fail 0xD 1) ∧
        (usable → s.hostBuffer m 2 (32 * n * nd) 8 host b →
          let ok := ∀ i, i < n * nd → (stripDesc (b.drop (32 * i))).ok = true ∧
            (stripDesc (b.drop (32 * i))).plane + (stripDesc (b.drop (32 * i))).nb1 ≤ 503
          (¬ ok → fail 6 0) ∧
          (ok → Does (.kernelRun m host stored) s zs fun t => t.waiting m (.krun kid n nd (q.addr 2) 0) ∧ s.smKept t m ∧
            t.sm.disp = s.sm.disp))))) ∧
    ∀ host k n nd a i stored, m < 4 → s.smWaits m = some (.krun k n nd a i) →
      let c := Instr.kernelRun m host stored
      (s.dispOn = false ∨ s.mbState m ≠ 2 → exec c s = .next s) ∧
      (s.dispOn = true → s.mbState m = 2 → s.mbSeq m = s.fld (mbReg Reg.MB_STAT m) 15 8 →
        let fine := ∃ x, s.kernel k = some x ∧ x.faulted = false
        (stored = false ∨ ¬ fine → Does c s zs fun t => s.failed t m 8 0xE 0 ∧ t.reg (mbReg Reg.RSP0 m + 8) = word i ∧ s.smKept t m) ∧
        (stored = true → fine → s.mbAborted m = true → Does c s zs fun t => s.answered t m 3 [] ∧
          t.reg (mbReg Reg.RSP0 m + 4) = word (i + 1) ∧ s.smKept t m) ∧
        (stored = true → fine → s.mbAborted m = false → i + 1 = n → Does c s (.free :: zs) fun t =>
          ∃ x, s.answered t m 0 [word n, x] ∧ s.smKept t m) ∧
        (stored = true → fine → s.mbAborted m = false → i + 1 ≠ n → Does c s zs fun t =>
          t.waiting m (.krun k n nd a (i + 1)) ∧ s.smKept t m))

/-- CAMERA_CONFIG (R508), DISPLAY_CONFIG without a set-up sequence and its RETRAIN form (R509), and the update commands (R510,
R511). Admission is `State.admits` and `State.displayReason`, the choice of OFFSET `State.lockOffset` (log entries 80 and 82), what
verifies an image `State.imgReason`. That each judged end of an update command is logged is the model's reading of R513. -/
def Obligations.CamerasDisplaysAndUpdates : Prop :=
  ∀ (s : State) (m : Nat), s.sm.disp.length = 4 → s.streams.length = 24 → s.pipes.length = 4 →
    let zs := [Zone.block 0, .sm, .block 1, .out, .tkt]
    let f := 0xFFFFFFFF
    let q := s.request m
    let p1 := s.param m 1
    (let n := bitsOf p1 2 0
      let v := bitsOf p1 5 4
      let en := p1.getLsbD 8
      let lanes := bitsOf p1 17 16
      let dt := bitsOf (s.param m 2) 5 0
      let nbuf := bitsOf (s.param m 2) 10 8
      let c := Instr.cameraConfig m
      let cfg := strReg Reg.STR_CFG n v
      let ctl := camReg Reg.CAM_CTL n
      let wd := bitsOf (s.param m 3) 15 0
      let ht := bitsOf (s.param m 3) 31 16
      let stride := (s.param m 4).toNat
      let bytes := wd * (if dt = 0x24 then 4 else if dt = 0x2A then 1 else 2)
      let fits := 1 ≤ wd ∧ wd ≤ 4096 ∧ 1 ≤ ht ∧ ht ≤ 4096 ∧ bytes ≤ 8192 ∧ (dt = 0x1E → wd % 2 = 0) ∧ stride % 256 = 0 ∧
        (bytes + 7) / 8 * 8 ≤ stride ∧ ∀ i, i < nbuf → bitsOf (s.param m (5 + i)) 21 0 * 4096 + stride * ht ≤ s.ddrUsable
      let admitted := ((s.streamRegs q n v).streamEnable q n v).admits s.displaysOn = true
      let others := ∃ w, w < 4 ∧ w ≠ v ∧ s.bit (strReg Reg.STR_CFG n w) 0 = true
      s.accepts c [0x30137, 0x73F, f, f, 0x3FFFFF, 0x3FFFFF, 0x3FFFFF, 0x3FFFFF, 0xFFFF] (
        let ranged := n ≤ 5 ∧ lanes ≠ 3
        let typed := (nbuf = 3 ∨ nbuf = 4) ∧ dt ∈ [0x1E, 0x22, 0x24, 0x2A, 0x2B, 0x2C, 0x2D, 0x2E]
        let good := ranged ∧ typed ∧ (nbuf = 3 → s.param m 8 = 0)
        (¬ ranged → s.fails c m 3 1) ∧
        (ranged → ¬ typed → s.fails c m 3 2) ∧
        (ranged → typed → nbuf = 3 → s.param m 8 ≠ 0 → s.fails c m 3 8) ∧
        (good → en = true → ¬ fits → s.fails c m 0x11 0) ∧
        (good → en = true → fits → ¬ admitted → s.fails c m 0xA 0) ∧
        (good → (en = true → fits ∧ admitted) →
          let clash := others ∧ s.fld ctl 2 1 ≠ lanes
          (clash → s.fails c m 0xB 0) ∧
          (¬ clash → en = false → s.streamNamed n v = true → s.fails c m 0xB 0) ∧
          (¬ clash → (en = false → s.streamNamed n v = false) → Does c s (.block 20 :: .streams :: zs) fun t =>
            s.answered t m 0 [] ∧ s.smKept t m ∧ t.sm.disp = s.sm.disp ∧
            t.bit cfg 0 = en ∧ t.fld cfg 9 4 = dt ∧ t.fld cfg 13 12 = nbuf - 1 ∧ (∀ i, 1 ≤ i → i ≤ 3 → t.bit cfg i = s.bit cfg i) ∧
            t.fld cfg 19 16 = s.fld cfg 19 16 ∧ t.reg (strReg Reg.STR_GEOM n v) = s.param m 3 ∧
            t.reg (strReg Reg.STR_STRIDE n v) = s.param m 4 ∧ t.reg (strReg Reg.STR_TMO n v) = s.param m 9 ∧
            (∀ i, i < 4 → t.reg (strReg Reg.STR_BUF n v + 4 * i) = s.param m (5 + i)) ∧ t.fld ctl 2 1 = lanes ∧
            (t.bit ctl 0 = true ↔ en = true ∨ others) ∧
            (∀ w, w < 4 → w ≠ v → t.reg (strReg Reg.STR_CFG n w) = s.reg (strReg Reg.STR_CFG n w)) ∧
            (∀ k, k < 24 → k ≠ 4 * n + v → t.streams[k]? = s.streams[k]?) ∧
            t.stream n v = if en = true ∨ s.bit cfg 0 = true then { s.stream n v with live := false, ended := false, done := false }
              else s.stream n v)))) ∧
    (∀ host bad,
      let p := bitsOf p1 1 0
      let en := p1.getLsbD 8
      let c := Instr.displayConfig m host bad
      let ctl := pipeReg Reg.PIPE_CTL p
      let dsi := 2 ≤ p
      let p7 := s.param m 7
      let lanesOk := bitsOf p7 2 0 = 1 ∨ bitsOf p7 2 0 = 2 ∨ bitsOf p7 2 0 = 4
      let linkGood := lanesOk ∧ (dsi → bitsOf p7 5 4 ≤ 2 ∧ bitsOf p7 7 6 ≤ 2 ∧ 80 ≤ bitsOf p7 27 16 ∧ bitsOf p7 27 16 ≤ 2500)
      let same := s.hact p = bitsOf (s.param m 2) 15 0 ∧ s.vact p = bitsOf (s.param m 4) 15 0
      let link := if dsi then 0 else bitsOf p7 2 0 + 16 * bitsOf p7 6 4
      let kept := if same then s.smDisp p else { s.smDisp p with staged := none, active := none, slots := [], bind := none }
      let written := fun (t : State) => t.reg (pipeReg Reg.HTIM0 p) = s.param m 2 ∧ t.reg (pipeReg Reg.HTIM1 p) = s.param m 3 ∧
        t.reg (pipeReg Reg.VTIM0 p) = s.param m 4 ∧ t.reg (pipeReg Reg.VTIM1 p) = s.param m 5 ∧
        t.reg (pipeReg Reg.PCLK p) = s.param m 6 ∧ t.fld ctl 3 2 = bitsOf p1 11 10 ∧ t.bit ctl 6 = p1.getLsbD 12 ∧
        t.bit ctl 7 = p1.getLsbD 13 ∧ t.fld (pipeReg Reg.PIPE_LOCK p) 15 0 = bitsOf (s.param m 8) 15 0 ∧
        t.fld (pipeReg Reg.PIPE_LOCK p) 31 16 = (s.displayRegs q p).lockOffset p % 65536 ∧
        s.smShows t m p { kept with configured := en, link := link }
      s.accepts c [0x3D03, f, f, f, f, 0x7FFFF, if dsi then 0x0FFF00F7 else 0x177, 0xFF3F, f, f, 0x1FFF] (
        (¬ linkGood → s.fails c m 3 7) ∧
        (linkGood → s.param m 9 = 0 → s.param m 10 = 0 → s.param m 11 = 0 →
          (s.armed p = true → s.fails c m 0xC 0) ∧
          (s.armed p = false → ∀ r, (s.displayRegs q p).displayReason p en = some r → s.fails c m r 0) ∧
          (s.armed p = false → (s.displayRegs q p).displayReason p en = none →
            let off := (s.pipe p).mode = .off ∧ s.bit ctl 0 = false
            let running := (s.pipe p).mode ≠ .off ∧ (s.pipe p).mode ≠ .failed
            (off → en = false → Does c s (.block 20 :: zs) fun t => written t ∧ t.bit ctl 0 = false ∧
              s.answered t m 0 [word (t.fld (pipeReg Reg.PIPE_LOCK p) 31 16 * 2 ^ 16 + link)]) ∧
            (off → en = true → Does c s (.block 20 :: .block 3 :: .pipes :: .free :: .il :: zs) fun t => written t ∧ t.bit ctl 0 = true ∧
              (t.pipe p).mode = .bringup ∧ t.waiting m (.display p 1 false q.ps 0)) ∧
            (running → Does c s (.block 20 :: .pipes :: zs) fun t => t.bit ctl 0 = false ∧
              t.pipe p = { s.pipe p with stopReq := true } ∧ (∀ k, k ≠ p → t.pipe k = s.pipe k) ∧
              t.waiting m (.display p 0 false q.ps 0) ∧ RegsBut [ctl, mbReg Reg.MB_STAT m, mbReg Reg.RSP0 m] s t ∧
              s.smKept t m ∧ t.sm.disp = s.sm.disp))))) ∧
    (let p := bitsOf p1 1 0;
      s.accepts (.displayConfigRetrain m) [0x203, 0, 0, 0, 0, 0, 0, 0, 0, 0, 0] (
        ((s.pipe p).mode = .off → s.fails (.displayConfigRetrain m) m 0xD 0) ∧
        ((s.pipe p).mode ≠ .off → (s.pipe p).mode ≠ .failed → Does (.displayConfigRetrain m) s zs fun t =>
          t.waiting m (.display p 1 true q.ps 0) ∧ s.smKept t m ∧ t.sm.disp = s.sm.disp))) ∧
    let u := s.upd
    let logged := fun (t : State) (k op status : Nat) => ∃ e : LogEntry, t.log.getLast? = some e ∧ bitsOf e.w2 31 24 = 0x0B ∧
      bitsOf e.w2 15 0 = (k * 16 + op) % 2 ^ 16 ∧ e.w3 = BitVec.ofNat 32 status ∧ (u.sess = 0 ∨ op ≠ 0 → t.logSeq = (s.logSeq + 1) % 2 ^ 32)
    let fail := fun (c : Instr) (k op code w : Nat) => Does c s (.log :: .free :: zs) fun t =>
      s.failed t m (reasonStatus code) code w ∧ logged t k op (reasonStatus code) ∧ s.smKept t m ∧ t.sm.disp = s.sm.disp
    let done := fun (c : Instr) (k op : Nat) (a : List Word) (post : State → Prop) => Does c s (.log :: .free :: .upd :: zs) fun t =>
      s.answered t m 0 a ∧ logged t k op 0 ∧ s.smKept t m ∧ t.sm.disp = s.sm.disp ∧ post t
    let k := u.sessKind
    let x := s.kindRec k
    let inactive := fun (i : Nat) => 1 - (s.kindRec i).active % 2
    let image := bitsOf p1 1 0
    let start := [0x80000, 0x10000, 0x880000, 0x30000].getD k 0 + inactive k * [0x400000, 0x10000, 0x800000, 0x20000].getD k 0
    (s.accepts (.updateBegin m) [3, f, f] (
      let c := Instr.updateBegin m
      let size := [0x400000, 0x10000, 0x800000, 0x20000].getD image 0
      let y := s.kindRec image
      (size < (s.param m 2).toNat → fail c image 0 3 2) ∧
      ((s.param m 2).toNat ≤ size → u.kinds.any ImgKind.trial = true → fail c image 0 0xD 0) ∧
      ((s.param m 2).toNat ≤ size → u.kinds.any ImgKind.trial = false → done c image 0 [word (inactive image), word size] fun t =>
        t.upd = { u with sessKind := image, sess := 1, length := (s.param m 2).toNat, version := (s.param m 3).toNat, got := 0
                         kinds := listSet u.kinds image { y with slots := listSet y.slots (inactive image) 0 } }))) ∧
    (∀ host b, s.accepts (.updateChunk m host) [f, f, f, f] (
      let c := Instr.updateChunk m host
      let n := (s.param m 4).toNat
      let sized := 4 ≤ n ∧ n ≤ 262144 ∧ n % 4 = 0
      let fits := u.got + n ≤ u.length ∧ (n % 4096 = 0 ∨ u.got + n = u.length)
      (u.sess ≠ 1 → fail c k 1 0xD 0) ∧
      (u.sess = 1 → ¬ sized → fail c k 1 3 4) ∧
      (u.sess = 1 → sized → p1.toNat ≠ u.got → Does c s (.log :: .free :: zs) fun t => s.failed t m 4 0x10 1 ∧
        t.reg (mbReg Reg.RSP0 m + 8) = word u.got ∧ logged t k 1 4 ∧ s.smKept t m ∧ t.sm.disp = s.sm.disp) ∧
      (u.sess = 1 → sized → p1.toNat = u.got → ¬ fits → fail c k 1 3 4) ∧
      (u.sess = 1 → sized → p1.toNat = u.got → fits → s.hostBuffer m 2 n 4 host b →
        let all := u.got + n = u.length
        done c k 1 [word (u.got + n)] fun t =>
          t.upd = { u with ext := t.upd.ext, got := u.got + n, sess := if all then 2 else 1
                           kinds := if all then listSet u.kinds k { x with slots := listSet x.slots (inactive k) 1 } else u.kinds } ∧
          (∀ i, i < n → b[i]? = some (Store.get erased t.upd.ext (start + u.got + i))) ∧
          ∀ a, a < start + u.got ∨ start + u.got + n ≤ a → Store.get erased t.upd.ext a = Store.get erased u.ext a))) ∧
    (s.accepts (.updateVerify m) [] (
      let c := Instr.updateVerify m
      let wiped := s.bit Reg.TAMPER_STAT 4 = true
      let b := s.slotImage k (inactive k)
      (u.sess ≠ 2 → fail c k 2 0xD 0) ∧
      (u.sess = 2 → wiped → fail c k 2 0xF 0) ∧
      (u.sess = 2 → ¬ wiped → b.length ≠ u.length → fail c k 2 6 0) ∧
      (u.sess = 2 → ¬ wiped → b.length = u.length → (∀ r, s.imgReason k b = some r → fail c k 2 r 0) ∧
        (s.imgReason k b = none → done c k 2 [word (imgVersion k b)] fun t =>
          t.upd = { u with sess := 3, kinds := listSet u.kinds k { x with slots := listSet x.slots (inactive k) 2 } })))) ∧
    (s.accepts (.updateActivate m) [3] (
      let c := Instr.updateActivate m
      (u.sess ≠ 3 → fail c k 3 0xD 0) ∧
      (u.sess = 3 → image ≠ k → fail c k 3 3 1) ∧
      (u.sess = 3 → image = k → ∃ a, done c k 3 [a] fun t =>
        t.upd = { u with sess := 0, kinds := listSet u.kinds k { x with active := inactive k, trial := true, trials := 0 } }))) ∧
    s.accepts (.updateConfirm m) [3] (
      let c := Instr.updateConfirm m
      let y := s.kindRec image
      let v := imgVersion image (s.slotImage image y.active)
      let fs := u.floors.getD image []
      (u.sess ≠ 0 ∨ y.trial = false → fail c image 4 0xD 0) ∧
      (u.sess = 0 → y.trial = true → ∃ a, done c image 4 [a] fun t => t.upd = { u with
        kinds := listSet u.kinds image { y with trial := false, trials := 0, slots := listSet y.slots y.active 3 }
        floors := if fs.getLast?.getD 0 < v ∧ fs.length < 16 then listSet u.floors image (fs ++ [v]) else u.floors }))

/-- COUPLER_PAIR and UNPAIR, COUPLER_SWEEP, TAKEOVER_GRANT and REVOKE, the fabric commands, DECODE_SET, MICROCODE_WRITE and POWER
(R496, R516 to R523, R559, R570, R571, R574, R598, R612). On duty and able to take it are `State.onDuty` and `State.dutyMay`. -/
def Obligations.PairingDutyFabricMicrocodeAndPower : Prop :=
  ∀ (s : State) (m : Nat), s.sm.disp.length = 4 → s.pipes.length = 4 →
    let zs := [Zone.block 0, .sm, .block 1, .out, .tkt]
    let f := 0xFFFFFFFF
    let p1 := s.param m 1
    let kept := fun (t : State) => s.smKept t m ∧ t.sm.disp = s.sm.disp
    (let mask := bitsOf p1 1 0
      let named := fun (p : Nat) => p < 2 ∧ mask.testBit p = true
      let first := if mask = 2 then 1 else 0
      let zc := .block 6 :: .cpl :: zs
      (s.accepts (.couplerPair m) [0x103, 0xF] (
        (s.part.cplRole = true → s.param m 2 ≠ 0 → s.fails (.couplerPair m) m 3 2) ∧
        ((s.part.cplRole = true → s.param m 2 = 0) → (∀ e ∈ s.sm.waits, ∀ k, e.2 ≠ .pair k) →
          (∀ w, s.cpl.sweep = some w → w.mb ≠ m) →
          let up := ∀ p, named p → s.bit Reg.CPL_CTL p = true ∧ s.cplState p = 3
          let ports := fun (t : State) => (∀ p, p < 2 → t.bit Reg.CPL_CTL p = (s.bit Reg.CPL_CTL p || mask.testBit p)) ∧
            (∀ p, named p → s.bit Reg.CPL_CTL p = false → t.cplState p = 1) ∧
            (∀ p, named p → s.bit Reg.CPL_CTL p = true → t.cplState p = s.cplState p) ∧
            (s.part.cplRole = false → t.fld Reg.CPL_CTL 19 16 = bitsOf (s.param m 2) 3 0) ∧ kept t
          (up → Does (.couplerPair m) s zc fun t => ports t ∧ s.answered t m 0 [word t.identA6, (t.cplPort first).chip]) ∧
          (¬ up → Does (.couplerPair m) s zc fun t => ports t ∧ t.waiting m (.pair mask))))) ∧
      (s.accepts (.couplerUnpair m) [0x103, 0xF] (
        (s.part.cplRole = true → s.param m 2 ≠ 0 → s.fails (.couplerUnpair m) m 3 2) ∧
        ((s.part.cplRole = true → s.param m 2 = 0) → Does (.couplerUnpair m) s zc fun t =>
          (∀ p, p < 2 → t.bit Reg.CPL_CTL p = (s.bit Reg.CPL_CTL p && !mask.testBit p)) ∧
          (∀ p, named p → t.cplState p = 0) ∧ s.answered t m 0 [word t.identA6, (t.cplPort first).chip] ∧ kept t)))) ∧
    (∀ mask, m < 4 → s.smWaits m = some (.pair mask) →
      let late := fun (p : Nat) => p < 2 ∧ mask.testBit p = true ∧ s.cplState p ≠ 3
      ((∀ p, ¬ late p) → exec (.couplerPair m) s = .next s) ∧
      (s.mbSeq m = s.fld (mbReg Reg.MB_STAT m) 15 8 → ∀ p, late p → (p = 1 → ¬ late 0) → Does (.couplerPair m) s zs fun t =>
        s.failed t m 8 0x14 0 ∧ t.reg (mbReg Reg.RSP0 m + 8) = word p ∧ kept t)) ∧
    (s.accepts (.couplerSweep m) [] (
      let may := s.part.cplRole = false ∧ s.bit Reg.CPL_STAT 3 = true ∧ s.cplState 1 = 3
      let zc := .block 6 :: .cpl :: zs
      (¬ may → s.fails (.couplerSweep m) m 0xD 0) ∧
      (may → s.cpl.top ≠ 0 → Does (.couplerSweep m) s zc fun t => t.mbState m = 2 ∧
        t.cpl.sweep = some ⟨m, 1, s.cpl.top, []⟩ ∧ t.out = s.out ++ [Out.cpl 1 7 (s.cplPort 1).seq 1 []] ∧ t.sm = s.sm) ∧
      (may → s.cpl.top = 0 → Does (.couplerSweep m) s zc fun t => t.mbState m = 3 ∧ t.reg (mbReg Reg.RSP0 m + 4) = 0 ∧
        t.fld (mbReg Reg.RSP0 m) 31 24 = 0 ∧ t.bit Reg.CPL_SWEEP_STAT 31 = true ∧ t.fld Reg.CPL_SWEEP_STAT 17 16 = 0 ∧
        t.cpl.sweep = none))) ∧
    (let mask := bitsOf p1 3 0
      let named := fun (d : Nat) => d < 4 ∧ mask.testBit d = true
      let faulty := fun (d : Nat) => s.reg (Reg.FAULT + 0x80 * d) ≠ 0 ∨ s.reg (Reg.FAULT + 0x80 * d + 4) ≠ 0 ∨
        s.bit (Reg.DISP_STAT + 0x80 * d) 1 = true
      let c := Instr.takeoverGrant m
      let r := Instr.takeoverRevoke m
      let zd := .block 20 :: .pipes :: .block 3 :: .free :: .il :: zs
      (s.accepts c [0x10F, f] (
        let may := ∀ d, named d → s.dutyMay false d = true
        (s.param m 2 ≠ ~~~p1 → s.fails c m 3 2) ∧
        (s.param m 2 = ~~~p1 → ¬ may → s.fails c m 0xD 0) ∧
        (s.param m 2 = ~~~p1 → mask = 0 → Does c s zs fun t => s.answered t m 0 [word (s.fld Reg.CPL_STAT 15 12)] ∧ kept t) ∧
        (s.param m 2 = ~~~p1 → mask ≠ 0 → may → Does c s zd fun t => s.smKept t m ∧
          t.waiting m (.take mask mask (maskOf 4 fun d => mask.testBit d && !s.bit (pipeReg Reg.PIPE_STAT d) 14)) ∧
          (∀ d, d < 4 → mask.testBit d = false → t.smDisp d = s.smDisp d) ∧
          (∀ d, named d → ∃ b, b.cfg.isSome = true ∧ t.smDisp d = { s.smDisp d with bind := some b }) ∧
          (s.part.cplRole = false → ∀ d x, named d → (s.smDisp d).active = some x → t.smDisp d = { s.smDisp d with
            bind := some ⟨x, none, some (s.reg (Reg.DISP_CFG + 0x80 * d) ||| 1), false⟩ })))) ∧
      (s.accepts r [0x10F, f] (
        let may := ∀ d, named d → s.onDuty d = true
        (s.param m 2 ≠ ~~~p1 → s.fails r m 3 2) ∧
        (s.param m 2 = ~~~p1 → ¬ may → s.fails r m 0xD 0) ∧
        (s.param m 2 = ~~~p1 → may → (∃ d, named d ∧ faulty d) → s.fails r m 0xC 0) ∧
        (s.param m 2 = ~~~p1 → mask = 0 → Does r s zs fun t => s.answered t m 0 [word (s.fld Reg.CPL_STAT 15 12)] ∧ kept t) ∧
        (s.param m 2 = ~~~p1 → mask ≠ 0 → may → (∀ d, named d → ¬ faulty d) → Does r s zd fun t =>
          t.waiting m (.leave mask mask) ∧ kept t ∧
          ∀ d, named d → t.bit (Reg.DISP_CFG + 0x80 * d) 0 = false ∧ t.bit (pipeReg Reg.PIPE_CTL d) 0 = false)))) ∧
    (let st := s.fld Reg.FAB_STAT 2 0
      let programs := s.bit Reg.FAB_FLASH_CTL 8 = true
      let free := st = 0 ∨ st = 2 ∨ st = 3 ∨ st = 4 ∨ st = 5 ∨ (st = 1 ∧ s.fab.stream = true ∧ s.fab.got.length < s.fld Reg.FAB_CFG_LEN 17 0)
      let released := st = 3 ∨ st = 4
      let force := p1.getLsbD 8
      let zf := .block 7 :: .jt :: .fab :: zs
      (∀ host bad b, s.accepts (.fabricLoad m host bad) (if p1.getLsbD 0 then [0x103, f, f, f] else [0x101, 0, 0, 0]) (
        let c := Instr.fabricLoad m host bad
        (released → force = false → s.fails c m 0xD 0) ∧
        ((released → force = true) → p1.getLsbD 0 = false →
          (¬ free ∨ programs → s.fails c m 0x11 0) ∧
          (free → ¬ programs → Does c s zf fun t => t.fld Reg.FAB_STAT 2 0 = 1 ∧ t.fab.got = s.fab.flash ∧ t.fab.stream = false ∧
            t.waiting m (.fabLoad false 0) ∧ kept t)) ∧
        ((released → force = true) → p1.getLsbD 0 = true → s.hostBuffer m 2 (s.param m 4).toNat 8 host b →
          (bad = true → s.fails c m 6 0) ∧
          (bad = false → (∀ r, s.imgReason 3 b = some r → s.fails c m r 0) ∧
            (s.imgReason 3 b = none → ¬ free → s.fails c m 0x11 0) ∧
            (s.imgReason 3 b = none → free → Does c s zf fun t => t.fld Reg.FAB_STAT 2 0 = 1 ∧ t.fab.got = b ∧
              t.fab.stream = true ∧ t.waiting m (.fabLoad (p1.getLsbD 1) 0) ∧ kept t))))) ∧
      (s.accepts (.fabricRelease m) [] (
        let c := Instr.fabricRelease m
        let alone := ∀ e ∈ s.sm.waits, e.2 ≠ .fabRelease ∧ ∀ a b, e.2 ≠ .fabLoad a b
        (st = 2 → Does c s (.block 7 :: .fab :: zs) fun t => t.fld Reg.FAB_STAT 2 0 = 3 ∧ t.fab.stage = 0 ∧ t.waiting m .fabRelease ∧ kept t) ∧
        (st = 3 → alone → Does c s zs fun t => t.waiting m .fabRelease ∧ kept t) ∧
        (st = 4 → alone → Does c s zs fun t => s.answered t m 0 [] ∧ kept t) ∧
        (st ≠ 2 → ¬ released → s.fails c m 0xD 0))) ∧
      ∀ w, s.accepts (.fabricReadback m w) [0xFFFF, 0xF] (
        let c := Instr.fabricReadback m w
        let i := bitsOf p1 15 0
        let n := bitsOf (s.param m 2) 3 0
        let loading := ∃ e ∈ s.sm.waits, ∃ a b, e.2 = .fabLoad a b
        (6149 < i → s.fails c m 3 1) ∧
        (i ≤ 6149 → n = 0 ∨ n = 15 → s.fails c m 3 2) ∧
        (i ≤ 6149 → 1 ≤ n → n ≤ 14 → loading → Does c s zs fun t => s.failed t m 2 0x16 0 ∧ t.fld (mbReg Reg.RSP0 m) 14 8 = 50 ∧ kept t) ∧
        (i ≤ 6149 → 1 ≤ n → n ≤ 14 → ¬ loading → Does c s (.block 7 :: .fab :: .free :: zs) fun t =>
          ∃ a : List Word, s.answered t m 0 a ∧ a.length = n ∧ (∀ j, j < n → i + j < 6150 → a[j]? = some
            (if st = 2 ∨ st = 3 ∨ st = 4 then w.getD (i + j) 0 &&& rbMask (i + j) else 0)) ∧
            t.fld Reg.FAB_RB_IDX 12 0 = i + n ∧ kept t))) ∧
    (let used := s.kernels.any (fun x => x.copc != 0)
      let len := s.mbLength m
      let d := Instr.decodeSet m
      (¬ s.turn m 0xA0 → exec d s = .next s) ∧
      (s.smReady m 0xA0 → (2 ≤ m → s.fails d m 5 0) ∧ (m < 2 →
        let sized := 0 < len ∧ len % 8 = 0 ∧ len ≤ 56
        let index := fun (i : Nat) => (s.param m (2 * i + 1)).toNat
        let entry := fun (i : Nat) => s.param m (2 * i + 2)
        let indexOk := fun (i : Nat) => 0xE0 ≤ index i ∧ index i ≤ 0xFF
        let ok := fun (i : Nat) => indexOk i ∧ bitsOf (entry i) 30 14 = 0 ∧ 0x3800 ≤ bitsOf (entry i) 13 0
        (¬ sized → s.fails d m 2 0) ∧
        (sized → ∀ i, i < len / 8 → ¬ ok i → (∀ j, j < i → ok j) → s.fails d m 3 (if indexOk i then 2 * i + 2 else 2 * i + 1)) ∧
        (sized → (∀ i, i < len / 8 → ok i) → used = true → s.fails d m 0xB 0) ∧
        (sized → (∀ i, i < len / 8 → ok i) → used = false → Does d s (.cs :: .block 17 :: zs) fun t =>
          s.answered t m 0 [] ∧ kept t ∧ t.cs = { s.cs with dec := t.cs.dec } ∧
          (∀ i, i < len / 8 → (∀ j, i < j → j < len / 8 → index j ≠ index i) → Store.get decDefault t.cs.dec (index i) = entry i) ∧
          ∀ k, (∀ i, i < len / 8 → index i ≠ k) → Store.get decDefault t.cs.dec k = Store.get decDefault s.cs.dec k))) ∧
      ∀ host b, s.accepts (.microcodeWrite m host) [0x3FFF, f, f, f] (
        let c := Instr.microcodeWrite m host
        let a := bitsOf p1 13 0
        let n := (s.param m 4).toNat
        let sized := 1 ≤ n ∧ n ≤ 2048 ∧ a + n ≤ 0x4000
        (a < 0x3800 → s.fails c m 3 1) ∧
        (0x3800 ≤ a → ¬ sized → s.fails c m 3 4) ∧
        (0x3800 ≤ a → sized → used = true → s.fails c m 0xB 0) ∧
        (0x3800 ≤ a → sized → used = false → s.hostBuffer m 2 (4 * n) 4 host b → Does c s (.cs :: .block 17 :: zs) fun t =>
          s.answered t m 0 [] ∧ kept t ∧ t.cs = { s.cs with ram := t.cs.ram } ∧
          (∀ i, i < n → Store.get (fun _ => 0) t.cs.ram (a + i) = BitVec.ofNat 32 (leNat ((b.drop (4 * i)).take 4))) ∧
          ∀ k, k < a ∨ a + n ≤ k → Store.get (fun _ => 0) t.cs.ram k = Store.get (fun _ => 0) s.cs.ram k))) ∧
    (let target := bitsOf p1 2 0
      let wake := bitsOf (s.param m 2) 3 0
      let c := Instr.power m
      let armed := fun (d : Nat) => d < 4 ∧ (s.bit (Reg.DISP_CFG + 0x80 * d) 0 = true ∨ s.bit (Reg.act (Reg.DISP_CFG + 0x80 * d)) 0 = true)
      let faulty := fun (d : Nat) => s.reg (Reg.FAULT + 0x80 * d) ≠ 0 ∨ s.reg (Reg.FAULT + 0x80 * d + 4) ≠ 0 ∨
        s.bit (Reg.DISP_STAT + 0x80 * d) 1 = true
      let zp := .block 2 :: zs
      (s.accepts c [7, 0xF] (
        let allowed := (target < 3 → s.param m 2 = 0) ∧ (target = 4 → s.param m 2 = 1)
        (4 < target → s.fails c m 3 1) ∧
        (target ≤ 4 → ¬ allowed → s.fails c m 3 2) ∧
        (allowed → target = 0 → Does c s zp fun t => s.answered t m 0 [0] ∧ t.bit Reg.PWR_STAT 16 = false ∧ kept t) ∧
        (allowed → target = 1 → (∃ d, armed d) → Does c s zp fun t => s.failed t m 5 0xC 0 ∧ kept t) ∧
        (allowed → target = 1 → (∀ d, ¬ armed d) → Does c s (.pwr :: .block 18 :: .jt :: .block 3 :: .free :: zp) fun t =>
          s.answered t m 0 [1] ∧ t.fld Reg.PWR_CTL 4 2 = 1 ∧ t.pwr.phase = .switching 1 ∧ kept t) ∧
        (allowed → 2 ≤ target → target ≤ 4 → (∃ d, armed d ∧ faulty d) → Does c s zp fun t => s.failed t m 5 0xC 0 ∧ kept t) ∧
        (allowed → 2 ≤ target → target ≤ 4 → (∀ d, armed d → ¬ faulty d) → Does c s (.pwr :: zp) fun t =>
          t.waiting m (.power target 0 0 0 0) ∧ t.fld Reg.PWR_CTL 4 2 = target ∧ t.fld Reg.PWR_CTL 11 8 = wake ∧
          (s.pwr.phase = .stable → t.pwr.phase = .entering target) ∧ kept t))) ∧
      ∀ k a x y, m < 4 → s.smWaits m = some (.power k 0 a x y) → s.mbSeq m = s.fld (mbReg Reg.MB_STAT m) 15 8 →
        (∀ e ∈ s.sm.waits, ∀ k a x y, e.2 ≠ .power k 1 a x y) →
        ((∃ d, armed d ∧ faulty d) → Does c s (.pwr :: zp) fun t => s.failed t m 5 0xC 0 ∧ t.fld Reg.PWR_CTL 4 2 = 0 ∧ kept t) ∧
        ((∀ d, armed d → ¬ faulty d) → Does c s (.block 20 :: .pipes :: .streams :: .free :: .il :: .block 3 :: .block 18 :: .jt :: zs) fun t =>
          ∃ arms cams pipes, t.mbState m = s.mbState m ∧
          t.smWaits m = some (.power k (if (List.range 4).all fun d => (t.pipe d).mode == .off then 2 else 1) arms cams pipes) ∧
          (∀ d, d < 4 → (arms.testBit d = true ↔ armed d) ∧ t.bit (Reg.DISP_CFG + 0x80 * d) 0 = false ∧
            pipes.testBit d = s.bit (pipeReg Reg.PIPE_CTL d) 0 ∧ t.bit (pipeReg Reg.PIPE_CTL d) 0 = false) ∧
          (∀ n v, n < 6 → v < 4 → cams.testBit (4 * n + v) = s.bit (strReg Reg.STR_CFG n v) 0 ∧
            t.bit (strReg Reg.STR_CFG n v) 0 = false) ∧ kept t))

/-- GV_PULSE and GV_TICK with at most one command waiting (R527 to R535, R539 to R541, R549). -/
def Obligations.GuardsVanTick : Prop :=
  ∀ (s : State),
    let v := s.van
    (v.alive = false → exec .gvTick s = .next s ∧ ∀ b, exec (.gvPulse b) s = .next s) ∧
    (v.alive = true → ∀ b, Does (.gvPulse b) s [.van] fun t => t.van =
      if b then { v with quiet := false, nB := v.nB + 1 } else { v with quiet := false, nA := v.nA + 1 }) ∧
    (v.alive = true → ∀ c : Option VanCmd, v.queue = c.toList →
      let on := v.cfg.kSet = true ∧ v.cfg.k ≠ 0
      let n := if on then (v.st.r + 10 * v.nA) / v.cfg.k else 0
      let rem := if on then (v.st.r + 10 * v.nA) % v.cfg.k else v.st.r
      let grown := fun (x : Nat) => if on then (x + n) % 10 ^ 8 else x
      let tick := (v.ticks + 1) % 2 ^ 64
      let time := if tick % 64 = 0 then v.st.time + 1 else v.st.time
      let winA := (v.nA :: v.winA).take 64
      let winB := (v.nB :: v.winB).take 64
      let d := max (-32767) (min 32767 ((winA.sum : Int) - winB.sum))
      Does .gvTick s [.van, .free] fun t =>
        let w := t.van
        let bad := w.cfg.tol < d.natAbs
        let opens := v.st.disputed = false ∧ bad ∧ w.cfg.disc ≤ v.st.dcnt + 1
        let closes := v.st.disputed = true ∧ ¬ bad ∧ w.cfg.close ≤ v.st.ccnt + 1
        let logged := fun (code : Nat) (perm : Bool) (detail value : Nat) => t.vanLogged v.seq code perm detail value
        w.ticks = tick ∧ w.nA = 0 ∧ w.nB = 0 ∧ w.winA = winA ∧ w.winB = winB ∧ w.queue = [] ∧ w.diff = d ∧
        w.st.p = (v.st.p + v.nA) % 2 ^ 48 ∧
        w.st.r = (match c with
          | some (.setK k) => if v.cfg.kSet = true then rem * k / v.cfg.k else 0
          | _ => rem) ∧
        w.st.total = (match c with
          | some (.setTotal x) => x
          | _ => grown v.st.total) ∧
        w.st.trip1 = (match c with
          | some (.tripReset true _) => 0
          | _ => grown v.st.trip1) ∧
        w.st.trip2 = (match c with
          | some (.tripReset _ true) => 0
          | _ => grown v.st.trip2) ∧
        w.st.time = (match c with
          | some (.setTime x) => x
          | _ => time) ∧
        (w.st.ok1 = true ↔ v.st.ok1 = true ∨ ∃ b, c = some (.tripReset true b)) ∧
        (w.st.ok2 = true ↔ v.st.ok2 = true ∨ ∃ b, c = some (.tripReset b true)) ∧
        (w.st.okTotal = true ↔ v.st.okTotal = true ∨ ∃ x, c = some (.setTotal x)) ∧
        (w.st.timeValid = true ↔ v.st.timeValid = true ∨ ∃ x, c = some (.setTime x)) ∧
        w.cfg = (match c with
          | some (.setK k) => { v.cfg with k := k, kSet := true }
          | some (.setDisc tol disc close) => { v.cfg with tol := tol, disc := disc, close := close }
          | some (.keyCommit x y) => { v.cfg with key := some (x, y) }
          | some .close => if v.sealOpen = true then { v.cfg with can := v.stageCan.getD v.cfg.can } else v.cfg
          | _ => v.cfg) ∧
        (w.cfg ≠ v.cfg → w.cfgRec = (w.cfg :: v.cfgRec).take 2) ∧
        w.sealOpen = (match c with
          | some .openSeal => true
          | some .close => false
          | _ => v.sealOpen) ∧
        w.stageCan = (match c with
          | some (.setCan nom dat base) => some (nom, dat, base)
          | some .close => if v.sealOpen = true then none else v.stageCan
          | _ => v.stageCan) ∧
        w.speed = (if w.cfg.kSet = true ∧ w.cfg.k ≠ 0 then min 65535 (winA.sum * 360000 / w.cfg.k) else 0) ∧
        (¬ opens → ¬ closes → (match c with
          | some (.setK k) => logged 0x30 true v.cfg.k k
          | some (.setDisc tol disc close) => logged 0x34 true (tol + 256 * disc) close
          | some (.setTotal x) => logged 0x31 true 0 (bcd8 x)
          | some (.setTime _) => logged 0x32 false 0 time.toNat
          | some (.setCan nom dat base) => logged 0x35 false (nom + 256 * dat) base
          | some (.keyCommit x y) => logged 0x33 true (if v.cfg.key.isSome then 1 else 0) (leNat ((Config.sha256 (x ++ y)).take 4))
          | some .close => v.sealOpen = true → logged 0x21 false 2 (bcd8 (grown v.st.total))
          | _ => w.log = v.log ∧ w.seq = v.seq)) ∧
        (w.st.disputed = true ↔ opens ∨ (v.st.disputed = true ∧ ¬ closes)) ∧
        w.st.shortCnt = (if v.st.disputed = false ∧ ¬ bad ∧ 0 < v.st.dcnt then min 65535 (v.st.shortCnt + 1) else v.st.shortCnt) ∧
        (v.st.disputed = false → w.st.dcnt = if bad ∧ ¬ opens then v.st.dcnt + 1 else 0) ∧
        (v.st.disputed = true → w.st.ccnt = if ¬ bad ∧ ¬ closes then v.st.ccnt + 1 else 0) ∧
        (opens → w.st.ccnt = 0 ∧ ∃ q, (q + 1) % 2 ^ 32 = w.seq ∧ t.vanLogged q 0x10 false (BitVec.ofInt 16 d).toNat (bcd8 w.st.total)) ∧
        (closes → ∃ q, (q + 1) % 2 ^ 32 = w.seq ∧ t.vanLogged q 0x11 false
          (BitVec.ofInt 16 (max (-32767) (min 32767 ((v.st.sumA + v.nA : Int) - (v.st.sumB + v.nB : Int))))).toNat
          (min (v.st.sumA + v.nA) (2 ^ 32 - 1))) ∧
        w.stRec = (w.st :: v.stRec).take 2 ∧
        (∃ slot fresh, w.tx = some ⟨t.vanRegs, slot, w.slotWords slot, fresh⟩ ∧
          (∀ i rest, v.dirty = i :: rest → slot = i ∧ fresh = true) ∧
          (v.dirty = [] → w.seq = v.seq → w.log = v.log → ¬ opens → ¬ closes → c = none →
            slot = v.mirrorNext ∧ fresh = false ∧ w.mirrorNext = (v.mirrorNext + 1) % 256)))

/-- GV_IDENT, LOG, TRIP_RESET, CHALLENGE, SEAL_AUTH, SEAL_AUTH_DONE, SET_K, SET_DISC, SET_TOTAL, SET_TIME, SET_CAN, KEY_PART, KEY_COMMIT,
CLOSE and VAN_FORMAT_ERROR (R525, R538, R540, R543, R544, R548). SHA-256 and ECDSA are uninterpreted (log entry 3). -/
def Obligations.GuardsVanMessages : Prop :=
  ∀ (s : State),
    let v := s.van
    let zs := [Zone.van, .out, .block 5, .block 1]
    (∀ c src kind op n, vanOf c = some (src, kind, op, n) → (∀ a, ¬ s.vanGets src kind op n a) → exec c s = .next s) ∧
    (∀ c k d kind op n a, vanOf c = some (.can k d, kind, op, n) → s.vanGets (.can k d) kind op n a →
      ∃ t, exec c s = .next t ∧ t.van.quiet = false) ∧
    (∀ src k d, s.vanMsg src = some (k, d) → v.alive = true → k = 1 ∨ k = 3 ∨ k = 4 → msgOk k d = false →
      Does (.vanFormatError src) s zs fun t => s.vanAnswers t src (if k = 3 then 0xFF else leNat (d.take 1)) 5 [] ∧ t.vanBecomes v ∧
        (src = .can k d → t.van.quiet = false)) ∧
    (∀ src, s.vanMsg src = none ∨ v.alive = false ∨ (∃ k d, s.vanMsg src = some (k, d) ∧ (msgOk k d = true ∨ k ∉ [1, 3, 4])) →
      exec (.vanFormatError src) s = .next s) ∧
    (∀ src a,
      (s.vanGets src 1 0x01 0 a → Does (.gvIdent src) s zs fun t => t.vanBecomes v ∧ s.vanAnswers t src 0x01 0
        ((if s.part.stepB then natLe 4 0x47560102 ++ natLe 4 0x3B18D26E else natLe 4 0x47560101 ++ natLe 4 0x9E4A71C3) ++
          natLe 8 Config.partSerial.toNat ++ natLe 4 v.openings ++ natLe 1 v.perm)) ∧
      (s.vanGets src 1 0x02 1 a → Does (.log src) s zs fun t => t.vanBecomes v ∧
        s.vanAnswers t src 0x02 0 ((v.slotWords (leNat (a.take 1))).flatMap fun w => natLe 4 w.toNat)) ∧
      (s.vanGets src 1 0x03 1 a → Does (.tripReset src) s zs fun t => s.vanAnswers t src 0x03 0 [] ∧
        t.vanBecomes { v with queue := v.queue ++ [VanCmd.tripReset ((a.getD 0 0).getLsbD 0) ((a.getD 0 0).getLsbD 1)] }) ∧
      (s.vanGets src 1 0x04 0 a →
        let data := natLe 4 v.openings ++ natLe 8 Config.partSerial.toNat ++ natLe 8 v.ticks ++ natLe 6 v.st.p ++ natLe 6 0
        let c := Instr.challenge src
        (v.jumper = false → Does c s zs fun t => s.vanAnswers t src 0x04 6 [] ∧ t.vanBecomes v) ∧
        (v.jumper = true → 216 ≤ v.perm → Does c s zs fun t => s.vanAnswers t src 0x04 4 [] ∧ t.vanBecomes v) ∧
        (v.jumper = true → v.perm < 216 → v.cfg.key.isSome = true → Does c s zs fun t => s.vanAnswers t src 0x04 0 data ∧
          t.vanBecomes { v with challenge := some (v.ticks, data) }) ∧
        (v.jumper = true → v.perm < 216 → v.cfg.key = none → Does c s (.free :: zs) fun t => s.vanAnswers t src 0x04 0 data ∧
          t.vanLogged v.seq 0x20 true (v.openings + 1) (bcd8 v.st.total) ∧ t.vanBecomes { v with
            challenge := some (v.ticks, data), openings := v.openings + 1, queue := v.queue ++ [VanCmd.openSeal]
            log := t.van.log, seq := (v.seq + 1) % 2 ^ 32, dirty := t.van.dirty })) ∧
      (s.vanGets src 3 0 64 a →
        let c := Instr.sealAuth src
        let stale := ∀ x, v.challenge = some x → 3840 < v.ticks - x.1
        (v.jumper = false → Does c s zs fun t => s.vanAnswers t src 0xFF 6 [] ∧ t.vanBecomes v) ∧
        (v.jumper = true → stale → Does c s zs fun t => s.vanAnswers t src 0xFF 3 [] ∧ t.vanBecomes v) ∧
        (v.jumper = true → ¬ stale → 216 ≤ v.perm → Does c s zs fun t => s.vanAnswers t src 0xFF 4 [] ∧ t.vanBecomes v) ∧
        (v.jumper = true → ¬ stale → v.perm < 216 → v.verify.isSome = true → Does c s zs fun t => s.vanAnswers t src 0xFF 7 [] ∧
          t.vanBecomes v) ∧
        (v.jumper = true → ¬ stale → v.perm < 216 → v.verify = none → Does c s [.van] fun t =>
          ∃ x, v.challenge = some x ∧ t.vanBecomes { v with verify := some (src, x.2, a) }))) ∧
    ((v.verify = none → exec .sealAuthDone s = .next s) ∧
      ∀ src c sig, v.verify = some (src, c, sig) →
        let good := ∃ x y, v.cfg.key = some (x, y) ∧ Config.ecdsaOk x y c sig = true
        let u := fun (t : State) => { v with verify := none, log := t.van.log, seq := (v.seq + 1) % 2 ^ 32, dirty := t.van.dirty }
        (good → Does .sealAuthDone s (.free :: zs) fun t =>
          t.vanLogged v.seq 0x20 true (v.openings + 1) (bcd8 v.st.total) ∧
          t.vanBecomes { u t with openings := v.openings + 1, queue := v.queue ++ [VanCmd.openSeal] } ∧
          s.vanAnswers t src 0xFF 0 []) ∧
        (¬ good → Does .sealAuthDone s (.free :: zs) fun t => t.vanLogged v.seq 0x22 false 0 0 ∧ t.vanBecomes (u t) ∧
          s.vanAnswers t src 0xFF 3 [])) ∧
    ∀ c src op n a, vanOf c = some (src, 4, op, n) → s.vanGets src 4 op n a →
      let answers := fun (result : Nat) (w : Van) => Does c s zs fun t => s.vanAnswers t src op result [] ∧ t.vanBecomes w
      let due := v.perm + v.queue.countP fun c => match c with
        | .setK _ | .setDisc _ _ _ | .setTotal _ | .keyCommit _ _ => true
        | _ => false
      let byte := fun (i : Nat) => (a.getD i 0).toNat
      let word := fun (i k : Nat) => leNat ((a.drop i).take k)
      let accepted := fun (x : VanCmd) => answers 0 { v with queue := v.queue ++ [x] }
      let judged := fun (valid perm : Prop) (x : VanCmd) => (¬ valid → answers 2 v) ∧ (valid → perm → 224 ≤ due → answers 4 v) ∧
        (valid → (perm → due < 224) → accepted x)
      (v.sealOpen = false → answers 1 v) ∧
      (v.sealOpen = true →
        (op = 0x10 → judged (2000 ≤ word 0 2) True (.setK (word 0 2))) ∧
        (op = 0x11 → judged (byte 1 ≠ 0 ∧ byte 2 ≠ 0) True (.setDisc (byte 0) (byte 1) (byte 2))) ∧
        (op = 0x12 → judged (∀ i, i < 8 → word 0 4 / 16 ^ i % 16 ≤ 9) True (.setTotal (unBcd (word 0 4)))) ∧
        (op = 0x13 → judged True False (.setTime (BitVec.ofNat 32 (word 0 4)))) ∧
        (op = 0x14 → judged (byte 0 ≤ 2 ∧ byte 1 ≤ 2 ∧ word 2 2 ≤ 0x7FB) False (.setCan (byte 0) (byte 1) (word 2 2))) ∧
        (op = 0x15 → (1 < byte 0 → answers 2 v) ∧ (byte 0 = 0 → answers 0 { v with stageX := some ((a.drop 1).take 32) }) ∧
          (byte 0 = 1 → answers 0 { v with stageY := some ((a.drop 1).take 32) })) ∧
        (op = 0x16 →
          let point := fun (x y : List Byte) => v.stageX = some x ∧ v.stageY = some y ∧ onCurve (beNat x) (beNat y) = true
          ((∀ x y, ¬ point x y) → answers 5 v) ∧
          ∀ x y, point x y → if 224 ≤ due then answers 4 v else accepted (.keyCommit x y)) ∧
        (op = 0x17 → accepted .close))

/-- GV_POWER_ON, SEAL_JUMPER_ACCEPTED, SEAL_TIMEOUT, QUIET, STATUS, BRIDGE_FRAME, BRIDGE_LINK_LOST and SMC_SEND (R525, R536, R537, R539,
R543, R546 to R549, R552). Which copy of a record is the newest valid one is given with the command. -/
def Obligations.GuardsVanSupplySealAndBridge : Prop :=
  ∀ (s : State),
    let v := s.van
    let closed := fun (t : State) (cause : Nat) => t.van.sealOpen = false ∧
      t.vanLogged v.seq 0x21 false cause (bcd8 v.st.total) ∧
      t.van.cfg = { v.cfg with can := v.stageCan.getD v.cfg.can } ∧ t.van.stageCan = none ∧
      t.van.cfgRec = (if v.stageCan.isSome then (t.van.cfg :: v.cfgRec).take 2 else v.cfgRec) ∧
      t.van.st = v.st ∧ t.van.openings = v.openings ∧ t.van.queue = v.queue
    (∀ st cf, Does (.gvPowerOn st cf) s [.van, .free] fun t =>
      let w := t.van
      w.alive = true ∧ w.quiet = false ∧ w.ticks = 0 ∧ w.winA = [] ∧ w.winB = [] ∧ w.speed = 0 ∧ w.nA = 0 ∧ w.nB = 0 ∧
      w.challenge = none ∧ w.verify = none ∧ w.stageX = none ∧ w.stageY = none ∧ w.queue = [] ∧ w.tx = none ∧ w.smc = none ∧
      w.sealOpen = false ∧ w.openings = v.openings ∧
      (∀ x, v.stRec[st]? = some x → w.st = { x with timeValid := false }) ∧
      (v.stRec[st]? = none → w.st = VanSt.init) ∧
      (v.sealOpen = false → w.cfg = (v.cfgRec[cf]?).getD ⟨0, false, 4, 64, 64, (1, 1, 0x640), none⟩ ∧
        (∀ x y, v.stRec[st]? = some x → v.cfgRec[cf]? = some y → t.vanLogged v.seq 0x01 false 0 x.time.toNat ∧
          w.seq = (v.seq + 1) % 2 ^ 32) ∧
        (∀ x, v.stRec[st]? = some x → v.cfgRec[cf]? = none → ∃ q, (q + 1) % 2 ^ 32 = w.seq ∧
          (t.vanLogged q 0x02 true 1 0 ∨ (w.logLimit = true ∧ t.vanLogged q 0x02 false (2 ^ 15 + 1) 0)))) ∧
      (v.sealOpen = true → ∃ q, (q + 1) % 2 ^ 32 = w.seq ∧ t.vanLogged q 0x21 false 3 (bcd8 w.st.total))) ∧
    (v.alive = false → exec .sealTimeout s = .next s ∧ exec .status s = .next s ∧ exec .quiet s = .next s ∧
      ∀ b, exec (.sealJumperAccepted b) s = .next s) ∧
    (v.alive = true →
      (Does (.sealJumperAccepted true) s [.van] fun t => t.van = { v with jumper := true }) ∧
      (v.sealOpen = false → (Does (.sealJumperAccepted false) s [.van] fun t => t.van = { v with jumper := false }) ∧
        exec .sealTimeout s = .next s) ∧
      (v.sealOpen = true → (Does (.sealJumperAccepted false) s [.van, .free] fun t => t.van.jumper = false ∧ closed t 0) ∧
        Does .sealTimeout s [.van, .free] fun t => t.van.jumper = v.jumper ∧ closed t 1) ∧
      (let calm := v.sealOpen = false ∧ v.verify = none;
        (calm → Does .quiet s [.van] fun t => t.van = { v with quiet := true }) ∧ (¬ calm → exec .quiet s = .next s)) ∧
      (v.quiet = true → exec .status s = .next s) ∧
      (v.quiet = false → Does .status s [.out] fun t =>
        let b := fun (x : Bool) (k : Nat) => if x then 2 ^ k else 0
        let k := v.cfg.kSet
        let flags := b (k && v.st.okTotal) 0 + b (k && v.st.ok1) 1 + b (k && v.st.ok2) 2 + b v.st.disputed 3 + b v.sealOpen 4 +
          b v.st.timeValid 5 + b k 6 + b v.logLimit 7
        t.out = s.out ++ [Out.can v.cfg.can.2.2 (natLe 6 v.st.p ++ natLe 2 v.cfg.k ++ natLe 4 (bcd8 v.st.total) ++
          natLe 4 (bcd8 v.st.trip1) ++ natLe 4 (bcd8 v.st.trip2) ++ natLe 2 v.speed ++ natLe 1 flags ++ natLe 1 v.gen ++
          natLe 4 v.st.time.toNat ++ natLe 2 (BitVec.ofInt 16 v.diff).toNat ++ natLe 2 v.st.shortCnt)])) ∧
    ((v.tx = none → exec .bridgeFrame s = .next s) ∧
      ∀ x slot entry fresh, v.tx = some ⟨State.vanRegs x, slot, entry, fresh⟩ → slot < 256 →
        let was := s.bit Reg.GV_STAT 31 = true
        let gen := (v.gen + 1) % 65536
        let left := (if was then v.unmirrored else List.range 256).filter (· != slot)
        let now := fun (a : Nat) => (((State.vanRegs x).find? fun r => r.1 == a).map Prod.snd).getD 0
        let mirror := (List.range 4).map fun i => 0x16000 + 16 * slot + 4 * i
        let moved := fun (b : Nat) => s.bit Reg.GV_STAT b ≠ (now Reg.GV_STAT).getLsbD b
        Does .bridgeFrame s [.regs, .block 5, .van, .block 1, .out] fun t =>
          (∀ r ∈ State.vanRegs x, r.1 ≠ Reg.GV_STAT → r.1 ≠ Reg.GV_LOG_STAT → t.reg r.1 = r.2) ∧
          t.bit Reg.GV_STAT 31 = true ∧ t.fld Reg.GV_STAT 15 0 = gen ∧ t.fld Reg.GV_STAT 30 24 = bitsOf (now Reg.GV_STAT) 30 24 ∧
          t.reg Reg.GV_GEN = BitVec.ofNat 32 gen ∧ (t.bit Reg.GV_LOG_STAT 31 = true ↔ left = []) ∧
          t.fld Reg.GV_LOG_STAT 23 0 = bitsOf (now Reg.GV_LOG_STAT) 23 0 ∧
          (∀ i, i < 4 → t.reg (0x16000 + 16 * slot + 4 * i) = entry.getD i 0) ∧
          t.van = { v with tx := none, unmirrored := left, gen := gen } ∧
          (¬ was → t.pends 104 = true) ∧ (moved 30 ∨ moved 29 → t.pends 107 = true) ∧
          (moved 27 ∨ moved 26 ∨ s.reg Reg.GV_VALID ≠ now Reg.GV_VALID → t.pends 109 = true) ∧
          (was → s.bit Reg.GV_STAT 28 = false → (now Reg.GV_STAT).getLsbD 28 = true → t.pends 105 = true) ∧
          (was → s.bit Reg.GV_STAT 28 = true → (now Reg.GV_STAT).getLsbD 28 = false → t.pends 106 = true) ∧
          (fresh = true → t.pends 108 = true) ∧
          RegsBut ((State.vanRegs x).map Prod.fst ++ (Reg.GV_GEN :: mirror)) s t) ∧
    (s.bit Reg.GV_STAT 31 = false → exec .bridgeLinkLost s = .next s) ∧
    (s.bit Reg.GV_STAT 31 = true → Does .bridgeLinkLost s [.regs, .block 1, .out, .van] fun t =>
      let ks := Reg.GV_GEN :: s.vanRegs.map Prod.fst
      (∀ a ∈ ks, t.reg a = 0) ∧ t.van = { v with tx := none } ∧ t.pends 104 = true ∧ RegsBut ks s t) ∧
    ∀ w : Word,
      let len := bitsOf w 14 8
      let kind := bitsOf w 2 0
      let send := w.getLsbD 31 = true
      let allowed := s.bit Reg.GV_STAT 29 = true ∧ s.bit Reg.GV_SMC_STAT 31 = false ∧ (kind = 1 ∨ kind = 3 ∨ kind = 4) ∧
        (send → 1 ≤ len ∧ len ≤ 64)
      let message := ((List.range 16).flatMap fun k => natLe 4 (s.reg (Reg.GV_SMC_DATA + 4 * k)).toNat).take len
      (¬ allowed → exec (.smcSend w) s = .next s) ∧
      (allowed → Does (.smcSend w) s [.block 5, .van] fun t => t.fld Reg.GV_SMC_CTL 14 8 = len ∧ t.fld Reg.GV_SMC_CTL 2 0 = kind ∧
        RegsBut [Reg.GV_SMC_CTL, Reg.GV_SMC_STAT] s t ∧
        (send → t.bit Reg.GV_SMC_STAT 31 = true ∧ t.van = { v with smc := some (kind, message) }) ∧
        (¬ send → t.reg Reg.GV_SMC_STAT = s.reg Reg.GV_SMC_STAT ∧ t.van = v))

/-- HELLO, HELLO_SEND, HEARTBEAT, HEARTBEAT_SEND, HEARTBEAT_LIMIT, LANE_LOCK, LANE_LOCK_LOST, LOST_RETRAIN, CPL_FRAME_ERROR,
CPL_CTL_WRITE, and what every received frame needs (R554 to R562, R566, R574, R575). -/
def Obligations.CouplerPortsAndHeartbeats : Prop :=
  ∀ (s : State), s.cpl.ports.length = 2 →
    let pz := [Zone.block 6, .cpl, .block 1, .out, .block 0, .tkt]
    let calm := ∀ e ∈ s.sm.waits, ∀ k, e.2 ≠ .pair k
    let errored := fun (t : State) (p : Nat) (gen : Prop) => t.pends 103 = true ∧
      t.fld (cplReg Reg.CPL_PERR p) 31 16 = min (s.fld (cplReg Reg.CPL_PERR p) 31 16 + 1) 65535 ∧
      (gen → p = 0 → s.cpl.rx.isSome = true → s.rxDiscarded t) ∧ (¬ (gen ∧ p = 0 ∧ s.cpl.rx.isSome = true) → t.cpl = s.cpl)
    (∀ c p ty f, cplOf c = some (p, ty, f) → p < 2 → calm →
      (s.cplState p ≠ 2 → s.cplState p ≠ 3 → exec c s = .next s) ∧
      (s.cplState p = 2 → ty = 3 → Does c s [.cpl, .out] fun t => s.cplSends t p 4 6 [0]) ∧
      (s.cplState p = 2 → ty ≠ 1 → ty ≠ 3 → exec c s = .next s) ∧
      (s.cplState p = 3 ∨ (s.cplState p = 2 ∧ ty = 1) → ¬ cplSized ty f → Does c s [.block 6, .cpl, .block 1, .out] fun t =>
        errored t p (ty = 5))) ∧
    (∀ p, p < 2 →
      let st := s.cplState p
      (∀ gen : Bool, (st = 2 ∨ st = 3 → Does (.cplFrameError p gen) s [.block 6, .cpl, .block 1, .out] fun t => errored t p (gen = true)) ∧
        (st ≠ 2 → st ≠ 3 → exec (.cplFrameError p gen) s = .next s)) ∧
      (st = 1 → Does (.laneLock p) s pz fun t => s.cplMoves t p 2 ∧ (t.cplPort p).sent = false ∧ (t.cplPort p).heard = false) ∧
      (st ≠ 1 → exec (.laneLock p) s = .next s) ∧
      (st = 2 ∨ st = 3 → Does (.laneLockLost p) s pz fun t => s.cplMoves t p 4) ∧
      (st ≠ 2 → st ≠ 3 → exec (.laneLockLost p) s = .next s) ∧
      (st = 4 → Does (.lostRetrain p) s pz fun t => s.cplMoves t p 1) ∧
      (st ≠ 4 → exec (.lostRetrain p) s = .next s) ∧
      (st = 3 → Does (.heartbeatLimit p) s pz fun t => s.cplMoves t p 4 ∧ t.pends 97 = true ∧
        t.fld (cplReg Reg.CPL_PERR p) 15 0 = min (s.fld (cplReg Reg.CPL_PERR p) 15 0 + 1) 65535) ∧
      (st ≠ 3 → exec (.heartbeatLimit p) s = .next s) ∧
      (st = 3 → Does (.heartbeatSend p) s [.cpl, .out] fun t => s.cplSends t p 2 (s.reg Reg.CPL_ALIVE)
        [BitVec.ofNat 64 (s.fld Reg.CPL_STAT 15 12 + 16 * s.fld Reg.CPL_STAT 4 4 +
          2 ^ 32 * if s.part.cplRole then (s.reg Reg.CPL_RXGEN).toNat else 0)]) ∧
      (st ≠ 3 → exec (.heartbeatSend p) s = .next s) ∧
      (st ≠ 2 → calm → exec (.helloSend p) s = .next s) ∧
      (st = 2 → calm →
        let role := if s.part.cplRole then s.fld Reg.CPL_STAT 2 1 + 256 else 0
        let ws := [BitVec.ofNat 64 (0x7131025E + 2 ^ 32 * s.stepping), BitVec.ofNat 64 s.storeId, BitVec.ofNat 64 s.sm.version.toNat]
        ((s.cplPort p).heard = false → Does (.helloSend p) s [.cpl, .out] fun t => s.cplSends t p 1 (BitVec.ofNat 32 role) ws ∧
          t.cplPort p = { s.cplPort p with sent := true, seq := ((s.cplPort p).seq + 1) % 256 }) ∧
        ((s.cplPort p).heard = true → Does (.helloSend p) s pz fun t => s.cplMoves t p 3 ∧
          Out.cpl p 1 (s.cplPort p).seq (BitVec.ofNat 32 role) ws ∈ t.out)) ∧
      (st = 2 → (s.cplPort p).heard = true → s.dispOn = true → ∀ m mask, m < 4 → s.sm.waits = [(m, .pair mask)] →
        (∀ q, q < 2 → mask.testBit q = true → q = p ∨ s.cplState q = 3) → Does (.helloSend p) s (.sm :: pz) fun t =>
          t.cplState p = 3 ∧ t.mbState m = 3 ∧ t.fld (mbReg Reg.RSP0 m) 31 24 = 0 ∧ t.sm.waits = [])) ∧
    (∀ p f, p < 2 → f.ws.length = 3 → calm →
      let word := fun (i : Nat) => (f.ws.getD i 0).toNat
      let pos := bitsOf f.arg 1 0
      let facing := if p = 1 then f.arg.getLsbD 8 else s.part.cplRole
      let mine := if s.part.cplRole then s.fld Reg.CPL_STAT 2 1 else 0
      let reason := if facing = false then 1 else if word 1 % 2 ^ 32 ≠ s.storeId then 2
        else if 3 ≤ (if p = 0 then pos else mine) then 3 else if word 0 % 2 ^ 16 ≠ 0x025E then 4 else 0
      let top := if p = 1 then max s.cpl.top pos else s.cpl.top
      let why := cplReg Reg.CPL_PSTAT p
      let chip := BitVec.ofNat 32 (word 0)
      (s.cplState p = 3 → Does (.hello p f) s [.cpl] fun t => t.cpl = { s.cpl with top := top }) ∧
      (s.cplState p = 2 → reason ≠ 0 → Does (.hello p f) s [.block 6, .cpl] fun t => t.fld why 10 8 = reason ∧
        t.cplState p = 2 ∧ t.cpl = { s.cpl with top := top }) ∧
      (s.cplState p = 2 → reason = 0 → Does (.hello p f) s pz fun t => t.fld why 10 8 = 0 ∧ t.cpl.top = top ∧
        (p = 0 → t.fld Reg.CPL_STAT 2 1 = pos + 1) ∧ (t.cplPort p).heard = true ∧ (t.cplPort p).chip = chip ∧
        ((s.cplPort p).sent = true → s.cplMoves t p 3) ∧ ((s.cplPort p).sent = false → t.cplState p = 2))) ∧
    (∀ p f, p < 2 → s.cplState p = 3 → f.ws.length = 1 →
      let q := s.cplPort p
      let w := (f.ws.getD 0 0).toNat
      let st := cplReg Reg.CPL_PSTAT p
      let n := if q.alive = some f.arg then q.same + 1 else 0
      let limit := s.fld Reg.CPL_CTL 31 28
      Does (.heartbeat p f) s [.block 6, .cpl, .block 1, .out] fun t => t.fld st 31 28 = w % 16 ∧ t.bit st 26 = w.testBit 4 ∧
        t.cplPort p = { q with alive := some f.arg, same := n } ∧ t.cplState p = 3 ∧
        (limit ≤ n → t.bit st 27 = true ∧ (s.bit st 27 = false → t.pends 97 = true)) ∧
        (n < limit → t.bit st 27 = if n = 0 then false else s.bit st 27)) ∧
    ∀ v : Word,
      (bitsOf v 31 28 = 0 → exec (.cplCtlWrite v) s = .next s) ∧
      (bitsOf v 31 28 ≠ 0 → Does (.cplCtlWrite v) s pz fun t => t.fld Reg.CPL_CTL 31 28 = bitsOf v 31 28 ∧
        t.fld Reg.CPL_CTL 19 16 = bitsOf v 19 16 ∧ t.fld Reg.CPL_CTL 1 0 = bitsOf v 1 0 ∧
        t.bit Reg.CPL_CTL 8 = s.bit Reg.CPL_CTL 8 ∧ t.cplShown ∧
        ∀ p, p < 2 → t.cplState p = if v.getLsbD p then (if s.bit Reg.CPL_CTL p then s.cplState p else 1) else 0)

/-- CPL_TX_SEND, CPL_GEN_SENT, MIRROR, COMMIT, MARK, ALIGN, PROBE, ECHO, PROBE_TIMEOUT, CPL_SYNC_WRITE, PACC_GO, RSP, PEER_ACCESS_TIMEOUT and
REQ (R555, R564 to R568, R572 to R575). SEND takes the half that was not last sent: the model's choice (log entry 71). -/
def Obligations.CouplerGenerationsSweepAndPeerAccess : Prop :=
  ∀ (s : State), s.cpl.ports.length = 2 →
    let bz := [Zone.block 1, .out, .block 6, .cpl]
    let below := s.cplState 1 = 3
    let held := fun (t : State) (a : Nat) => Store.get (fun _ => none) t.cpl.halves a
    (∀ v : Word,
      let len := bitsOf v 12 0
      let half := 1 - s.fld Reg.CPL_TX_CTL 13 13
      let may := s.bit Reg.CPL_TX_CTL 31 = false ∧ below ∧ 64 ≤ len ∧ len ≤ 3200 ∧ len % 8 = 0
      let seq := (s.cplPort 1).seq
      let gen := s.reg Reg.CPL_TXGEN
      (v.getLsbD 16 = false → Does (.cplTxSend v) s [.block 6] fun t => t.fld Reg.CPL_TX_CTL 12 0 = len) ∧
      (v.getLsbD 16 = true → ¬ may → Does (.cplTxSend v) s [.block 6] fun t => t.bit Reg.CPL_STAT 8 = true ∧
        t.bit Reg.CPL_TX_CTL 31 = s.bit Reg.CPL_TX_CTL 31) ∧
      (v.getLsbD 16 = true → may → Does (.cplTxSend v) s [.block 6, .cpl, .free, .out] fun t =>
        t.bit Reg.CPL_TX_CTL 31 = true ∧ t.fld Reg.CPL_TX_CTL 13 13 = half ∧ t.fld Reg.CPL_TX_CTL 12 0 = len ∧
        t.cpl.tx = some (half, gen.toNat, len) ∧ t.cpl.halves = s.cpl.halves ∧
        ∃ fs, t.out = s.out ++ fs ∧ fs.length = (len + 255) / 256 ∧ ∀ k, k < (len + 255) / 256 → fs[k]? = some (Out.cpl 1 5
          (if k = 0 then seq else (seq + k) % 256) (BitVec.ofNat 32 (bitsOf gen 15 0 * 2 ^ 16 + 256 * k))
          ((List.range (min 32 (len / 8 - 32 * k))).map fun j => s.halfWord half (32 * k + j))))) ∧
    (s.cpl.tx = none → exec .cplGenSent s = .next s) ∧
    (∀ half gen len, s.cpl.tx = some (half, gen, len) → Does .cplGenSent s (.free :: bz) fun t =>
      Out.cpl 1 6 (s.cplPort 1).seq (BitVec.ofNat 32 gen) [BitVec.ofNat 64 (len + 2 ^ 32 * crc32 (s.halfBytes half len))] ∈ t.out ∧
      t.cpl.tx = none ∧ t.bit Reg.CPL_TX_CTL 31 = false ∧ t.pends 100 = true ∧ t.cpl.halves = s.cpl.halves) ∧
    (∀ c p ty f, cplOf c = some (p, ty, f) → ty ∈ [5, 6, 7, 9, 10] → s.cplState p = 3 → p < 2 → cplSized ty f →
      s.part.cplRole = false ∨ p = 1 → exec c s = .next s) ∧
    (s.part.cplRole = true → s.cplState 0 = 3 → ∀ f : CplFrame,
      let word := (f.ws.getD 0 0).toNat
      let target := bitsOf f.arg 1 0
      let position := s.fld Reg.CPL_STAT 2 1
      let passes := fun (t : State) (ty : Nat) => below → Out.cpl 1 ty f.seq f.arg f.ws ∈ t.out
      let inactive := 2 + (1 - s.fld Reg.CPL_RX_STAT 16 16)
      (cplSized 5 f →
        let g := bitsOf f.arg 31 16
        let off := bitsOf f.arg 11 0
        let base := 512 * inactive + off / 8
        Does (.mirror 0 f) s bz fun t => passes t 5 ∧
          (∀ j w, f.ws[j]? = some w → held t (base + j) = some w) ∧
          (∀ a, a < base ∨ base + f.ws.length ≤ a → held t a = held s a) ∧
          (s.cpl.rx = none → t.cpl.rx = some (g, [(off, f.ws.length)])) ∧
          ∀ h l, s.cpl.rx = some (h, l) →
            (h = g → t.cpl.rx = some (g, (off, f.ws.length) :: l)) ∧
            (h ≠ g → t.cpl.rx = some (g, [(off, f.ws.length)]) ∧ t.pends 99 = true ∧
              (t.reg Reg.CPL_DISCARD_CNT).toNat = min ((s.reg Reg.CPL_DISCARD_CNT).toNat + 1) (2 ^ 32 - 1))) ∧
      (cplSized 6 f →
        let gen := f.arg.toNat
        let len := word % 2 ^ 13
        let bytes := s.halfBytes inactive len
        let rxgen := (s.reg Reg.CPL_RXGEN).toNat
        let whole := len ≤ 4096 ∧ ∃ l, s.cpl.rx = some (gen % 65536, l) ∧
          ∀ k, k < (len + 255) / 256 → ∃ e ∈ l, e.1 = 256 * k ∧ min 256 (len - 256 * k) ≤ 8 * e.2
        let newer := rxgen < gen ∨ (gen = 1 ∧ (rxgen = 0xFFFFFFFF ∨ s.cpl.fresh = true))
        let good := whole ∧ crc32 bytes = word / 2 ^ 32 ∧ newer
        let same := (s.halfBytes inactive 0x30).drop 0x10 = (List.range 8).flatMap fun k => natLe 4 (s.reg (Reg.TT_STATE + 4 * k)).toNat
        (good → Does (.commit 0 f) s (.free :: bz) fun t => passes t 6 ∧ t.fld Reg.CPL_RX_STAT 16 16 = inactive - 2 ∧
          t.fld Reg.CPL_RX_STAT 12 0 = len ∧ t.reg Reg.CPL_RXGEN = f.arg ∧ t.bit Reg.CPL_STAT 6 = true ∧ t.pends 98 = true ∧
          t.cpl.rx = none ∧ t.cpl.fresh = false ∧ t.cpl.halves = s.cpl.halves ∧
          (same → t.cpl.differ = 0) ∧ (¬ same → t.cpl.differ = (s.cpl.differ + 1) % 3 ∧
            (s.cpl.differ + 1 = 3 → t.bit Reg.CPL_STAT 7 = true ∧ t.pends 101 = true))) ∧
        (¬ good → Does (.commit 0 f) s (.free :: bz) fun t => passes t 6 ∧ s.rxDiscarded t ∧ t.cpl.halves = s.cpl.halves ∧
          t.reg Reg.CPL_RXGEN = s.reg Reg.CPL_RXGEN ∧ t.reg Reg.CPL_RX_STAT = s.reg Reg.CPL_RX_STAT ∧
          t.reg Reg.CPL_STAT = s.reg Reg.CPL_STAT)) ∧
      (cplSized 9 f → ∀ ps, Does (.mark 0 f ps) s [.block 1, .out, .block 6, .cpl, .block 20] fun t => passes t 9 ∧
        t.cpl = { s.cpl with mark := some ((ps : Int) - 1000 * (s.fld Reg.CPL_SWEEP_STAT 15 0 : Nat)) } ∧
        ∀ q, q < 4 →
          let lost := s.bit Reg.CPL_SYNC 0 = true ∧ s.bit Reg.CPL_SYNC (4 + q) = true ∧ s.bit (pipeReg Reg.PIPE_LOCK q) 0 = false ∧
            s.bit (pipeReg Reg.LOCK_STAT q) 1 = true
          (lost → t.bit (pipeReg Reg.LOCK_STAT q) 1 = false ∧ t.pends 43 = true) ∧
          (¬ lost → t.reg (pipeReg Reg.LOCK_STAT q) = s.reg (pipeReg Reg.LOCK_STAT q))) ∧
      (cplSized 7 f → ∀ ta,
        (target = position → Does (.probe 0 f ta) s [.cpl, .out] fun t =>
          s.cplSends t 0 8 (BitVec.ofNat 32 position) [BitVec.ofNat 64 ta]) ∧
        (position < target → Does (.probe 0 f ta) s [.out] fun t => passes t 7) ∧
        (target < position → exec (.probe 0 f ta) s = .next s)) ∧
      (cplSized 10 f →
        (target = position → Does (.align 0 f) s [.block 6] fun t => t.fld Reg.CPL_SWEEP_STAT 15 0 = word % 65536 ∧
          RegsBut [Reg.CPL_SWEEP_STAT] s t) ∧
        (position < target → Does (.align 0 f) s [.out] fun t => passes t 10) ∧
        (target < position → exec (.align 0 f) s = .next s))) ∧
    (∀ p f rtt, p < 2 → s.cplState p = 3 → cplSized 8 f →
      let named := bitsOf f.arg 1 0
      let c := Instr.echo p f rtt
      (p = 0 → exec c s = .next s) ∧
      (p = 1 → s.part.cplRole = true → Does c s [.out] fun t => t.out = s.out ++ if s.cplState 0 = 3 then [Out.cpl 0 8 f.seq f.arg f.ws] else []) ∧
      (p = 1 → s.part.cplRole = false → (∀ w, s.cpl.sweep = some w → w.h ≠ named) → exec c s = .next s) ∧
      (p = 1 → s.part.cplRole = false → ∀ w, s.cpl.sweep = some w → w.h = named →
        let delay : Int := ((rtt : Int) - ((f.ws.getD 0 0).toNat : Int)) / 2
        let cum := w.cum ++ [delay]
        let hop := fun (j : Nat) => cum.getD j 0 - if j = 0 then 0 else cum.getD (j - 1) 0
        (w.h < w.hops → Does c s [.cpl, .out] fun t => t.cpl.sweep = some ⟨w.mb, w.h + 1, w.hops, cum⟩ ∧
          s.cplSends t 1 7 (BitVec.ofNat 32 (w.h + 1)) []) ∧
        (w.hops ≤ w.h → cum.length ≤ 3 → w.mb < 4 → w.hops < 4 → Does c s (.block 0 :: .tkt :: bz) fun t => t.cpl.sweep = none ∧
          t.bit Reg.CPL_SWEEP_STAT 31 = true ∧ t.fld Reg.CPL_SWEEP_STAT 17 16 = w.hops ∧
          (∀ j, j < cum.length → t.fld (Reg.CPL_HOPDLY + 4 * j) 15 0 = (BitVec.ofInt 16 (hop j)).toNat ∧
            t.reg (mbReg Reg.RSP0 w.mb + 4 * (j + 2)) = BitVec.ofInt 32 (hop j) ∧
            ∃ q, Out.cpl 1 0xA q (BitVec.ofNat 32 (j + 1)) [BitVec.ofInt 64 (cum.getD j 0)] ∈ t.out) ∧
          t.reg (mbReg Reg.RSP0 w.mb + 4) = BitVec.ofNat 32 w.hops ∧ t.mbState w.mb = 3 ∧
          t.fld (mbReg Reg.RSP0 w.mb) 31 24 = 0 ∧ t.fld (mbReg Reg.RSP0 w.mb) 7 0 = 4 + 4 * w.hops))) ∧
    (s.cpl.sweep = none → exec .probeTimeout s = .next s) ∧
    (∀ w, s.cpl.sweep = some w → Does .probeTimeout s [.block 1, .out, .block 0, .tkt, .cpl] fun t => t.sweepBroken w) ∧
    (∀ v : Word,
      let clash := v.getLsbD 0 = true ∧ ∃ p, p < 4 ∧ v.getLsbD (4 + p) = true ∧ s.bit (pipeReg Reg.PIPE_LOCK p) 0 = true
      (clash → Does (.cplSyncWrite v) s [.block 6] fun t => t.bit Reg.CPL_STAT 8 = true ∧ RegsBut [Reg.CPL_STAT] s t) ∧
      (¬ clash → Does (.cplSyncWrite v) s [.block 6] fun t => t.bit Reg.CPL_SYNC 0 = v.getLsbD 0 ∧
        t.fld Reg.CPL_SYNC 9 4 = bitsOf v 9 4 ∧ t.fld Reg.CPL_SYNC 23 16 = bitsOf v 23 16 ∧ RegsBut [Reg.CPL_SYNC] s t)) ∧
    (∀ v : Word,
      let ctl := Reg.CPL_PACC_CTL
      let go := v.getLsbD 29 = true ∧ s.bit ctl 31 = false ∧ s.bit ctl 30 = false
      let p := if v.getLsbD 28 then 1 else 0
      let wr := v.getLsbD 24
      let fields := fun (t : State) => t.fld ctl 13 0 = bitsOf v 13 0 ∧ t.bit ctl 24 = wr ∧ t.bit ctl 28 = v.getLsbD 28 ∧
        RegsBut [ctl] s t
      (¬ go → Does (.paccGo v) s [.block 6] fun t => fields t ∧ t.bit ctl 31 = s.bit ctl 31) ∧
      (go → Does (.paccGo v) s [.block 6, .cpl, .out] fun t => fields t ∧ t.bit ctl 31 = true ∧ t.cpl.pacc = some (p, wr) ∧
        (s.cplState p ≠ 3 → t.out = s.out) ∧
        (s.cplState p = 3 → s.cplSends t p 3 (BitVec.ofNat 32 (bitsOf v 13 0 + if wr then 2 ^ 31 else 0))
          (if wr then [BitVec.ofNat 64 (s.reg Reg.CPL_PACC_DATA).toNat] else [])))) ∧
    (let done := fun (t : State) (r : Nat) => t.cpl = { s.cpl with pacc := none } ∧ t.bit Reg.CPL_PACC_CTL 31 = false ∧
        t.bit Reg.CPL_PACC_CTL 30 = true ∧ t.fld Reg.CPL_PACC_CTL 18 16 = r ∧ t.pends 102 = true;
      (∀ p f, p < 2 → s.cplState p = 3 → cplSized 4 f →
        ((∀ wr, s.cpl.pacc ≠ some (p, wr)) → exec (.rsp p f) s = .next s) ∧
        ∀ wr, s.cpl.pacc = some (p, wr) → Does (.rsp p f) s bz fun t => done t (bitsOf f.arg 2 0) ∧
          t.reg Reg.CPL_PACC_DATA = if wr = true then s.reg Reg.CPL_PACC_DATA else BitVec.ofNat 32 (f.ws.getD 0 0).toNat) ∧
      (s.cpl.pacc = none → exec .peerAccessTimeout s = .next s) ∧
      (s.cpl.pacc ≠ none → Does .peerAccessTimeout s bz fun t => done t 3)) ∧
    ∀ p f rivals, p < 2 → s.cplState p = 3 → cplSized 3 f →
      let a := 4 * bitsOf f.arg 13 0
      let wr := f.arg.getLsbD 31 = true
      let owner := p = if s.part.cplRole then 0 else 1
      let mb3 := 0x300 ≤ a ∧ a < 0x340 ∨ a = 0x380 ∨ a = 0x384
      let inside := a < 0x2000 ∨ (0x3000 ≤ a ∧ a < 0x4000) ∨ 0xF000 ≤ a
      (wr → ¬ (owner ∧ mb3) → Does (.req p f rivals) s [.cpl, .out] fun t => s.cplSends t p 4 6 [0]) ∧
      (wr → owner → mb3 → ∃ u t, exec (.registerWrite (19 + p) a (BitVec.ofNat 32 (f.ws.getD 0 0).toNat)) s = .next u ∧
        exec (.req p f []) s = .next t ∧ t = { u with out := t.out, cpl := t.cpl } ∧ u.cplSends t p 4
          (BitVec.ofNat 32 (respCode (s.regWrite (19 + p) a (BitVec.ofNat 32 (f.ws.getD 0 0).toNat) []).2)) [0]) ∧
      (¬ wr → ¬ inside → Does (.req p f rivals) s [.cpl, .out] fun t => s.cplSends t p 4 6 [0]) ∧
      (¬ wr → inside → Does (.req p f rivals) s [.cpl, .out, .block 0, .free, .regs] fun t =>
        s.cplSends t p 4 0 [BitVec.ofNat 64 (s.readValue a).toNat] ∧
        (a ∉ [Reg.TO_ERR_CNT, Reg.TO_COLL_CNT, Reg.SP_ERR_CNT] → ∀ k, t.reg k = s.reg k))

/-- FAB_START_FLASH, FAB_START_STREAM, FAB_CFG_DATA_WRITE, FAB_LOADED, FAB_RELEASE, RELEASE_STAGE, FAB_HOLD, FAB_PROGRAM, FAB_FLASH_DONE,
FAB_SNAP, FAB_RB_DATA_READ, FAB_USR_WRITE and FAB_USER (R586 to R592, R596 to R599), and the FABRIC_LOAD and FABRIC_RELEASE that
wait for them (R519, R520). FAB_VERSION is 0 after a failed load: the model's choice. -/
def Obligations.FabricImagesReleaseFlashAndReadback : Prop :=
  ∀ (s : State),
    let stat := Reg.FAB_STAT
    let st := s.fld stat 2 0
    let len := s.fld Reg.FAB_CFG_LEN 17 0
    let short := s.fab.stream = true ∧ s.fab.got.length < len
    let may := st = 0 ∨ st = 2 ∨ st = 5 ∨ (st = 1 ∧ short)
    let programs := s.bit Reg.FAB_FLASH_CTL 8 = true
    let calm := ∀ e ∈ s.sm.waits, e.2 ≠ .fabRelease ∧ ∀ a b, e.2 ≠ .fabLoad a b
    let refused := fun (c : Instr) => Does c s [.block 7] fun t => t.bit stat 4 = true ∧ t.fld stat 2 0 = st ∧ RegsBut [stat] s t
    let num := fun (b : List Byte) (o n : Nat) => leNat ((b.drop o).take n)
    let header := fun (b : List Byte) => num b 0 4 = 0x42414650 ∧ num b 4 2 = 1 ∧ num b 6 2 = 64 ∧ 5 ≤ num b 0x1C 2 ∧ num b 0x1C 2 ≤ 250 ∧
      5 ≤ num b 0x1E 2 ∧ num b 0x1E 2 ≤ 250 ∧ 2 ≤ num b 0x1A 2 ∧ num b 0x1A 2 ≤ 1024 ∧ b.length = 0x80 + num b 0xC 4
    let sound := fun (b : List Byte) => crc32 ((b.drop 0x40).take (num b 0xC 4)) = num b 0x10 4
    let zl := [Zone.block 7, .fab, .block 1, .out]
    let zw := .block 0 :: .sm :: .tkt :: zl
    let bad := fun (t : State) (bit : Nat) => t.fld stat 2 0 = 5 ∧ t.bit stat bit = true ∧ t.fld stat 15 8 = 0 ∧ t.reg Reg.FAB_CRC = 0 ∧
      t.reg Reg.FAB_VERSION = 0 ∧ t.pends 112 = true ∧ t.fab = { s.fab with got := [] }
    (may → ¬ programs → Does .fabStartFlash s [.block 7, .fab] fun t => t.fld stat 2 0 = 1 ∧
      t.fab = { s.fab with stream := false, auto := false, got := s.fab.flash } ∧ RegsBut [stat] s t) ∧
    (¬ may ∨ programs → refused .fabStartFlash) ∧
    (may → Does .fabStartStream s [.block 7, .fab] fun t => t.fld stat 2 0 = 1 ∧
      t.fab = { s.fab with stream := true, auto := false, got := [] } ∧ RegsBut [stat] s t) ∧
    (¬ may → refused .fabStartStream) ∧
    (∀ v : Word,
      (st = 1 → short → Does (.fabCfgDataWrite v) s [.fab] fun t =>
        t.fab = { s.fab with got := (s.fab.got ++ natLe 4 v.toNat).take len }) ∧
      (¬ (st = 1 ∧ short) → exec (.fabCfgDataWrite v) s = .next s)) ∧
    (∀ r : Bool,
      let b := s.fab.got
      let c := Instr.fabLoaded r
      let fine := header b ∧ r = false ∧ sound b
      let auto := s.fab.auto = true ∧ num b 0x19 1 / 2 % 2 = 1
      let shows := fun (t : State) => t.fld stat 15 8 = num b 0x18 1 ∧ t.reg Reg.FAB_CRC = BitVec.ofNat 32 (num b 0x10 4) ∧
        t.reg Reg.FAB_VERSION = BitVec.ofNat 32 (num b 8 4) ∧ t.pends 112 = true
      (calm → st ≠ 1 ∨ short → exec c s = .next s) ∧
      (calm → st = 1 → ¬ short →
        (¬ header b ∨ r = true → Does c s zl fun t => bad t 6) ∧
        (header b → r = false → ¬ sound b → Does c s zl fun t => bad t 5) ∧
        (fine → auto → Does c s zl fun t => shows t ∧ t.fld stat 2 0 = 3 ∧
          t.fab = { s.fab with got := [], image := b, imageStream := s.fab.stream, stage := 0 }) ∧
        (fine → ¬ auto → Does c s zl fun t => shows t ∧ t.fld stat 2 0 = 2 ∧
          t.fab = { s.fab with got := [], image := b, imageStream := s.fab.stream })) ∧
      ∀ m store, m < 4 → s.sm.waits = [(m, .fabLoad store 0)] → s.dispOn = true → s.mbSeq m = s.fld (mbReg Reg.MB_STAT m) 15 8 →
        st = 1 → ¬ short → ¬ programs → s.fab.auto = false → (store = true → s.fab.stream = true) →
        (¬ fine → Does c s zw fun t => s.failed t m (reasonStatus 6) 6 0 ∧ t.fld stat 2 0 = 5) ∧
        (fine → store = false ∨ b = s.fab.flash → Does c s zw fun t => shows t ∧ t.fld stat 2 0 = 2 ∧
          s.answered t m 0 [BitVec.ofNat 32 (num b 0x10 4)]) ∧
        (fine → store = true → b ≠ s.fab.flash → Does c s zw fun t => shows t ∧ t.fld stat 2 0 = 2 ∧
          t.smWaits m = some (.fabLoad true 1) ∧ t.fab.prog = some b ∧ t.bit Reg.FAB_FLASH_CTL 8 = true)) ∧
    (st = 2 → Does .fabRelease s [.block 7, .fab] fun t => t.fld stat 2 0 = 3 ∧ t.fab = { s.fab with stage := 0 } ∧ RegsBut [stat] s t) ∧
    (st ≠ 2 → refused .fabRelease) ∧
    (calm → st ≠ 3 → exec .releaseStage s = .next s) ∧
    (calm → st = 3 → s.fab.stage ≠ 2 → Does .releaseStage s [.fab] fun t => t.fab = { s.fab with stage := s.fab.stage + 1 }) ∧
    (st = 3 → s.fab.stage = 2 →
      let last := fun (t : State) => t.fld stat 2 0 = 4 ∧ t.fab = { s.fab with stage := 3 } ∧ t.pends 113 = true
      (calm → Does .releaseStage s zl last) ∧
      ∀ m, m < 4 → s.sm.waits = [(m, .fabRelease)] → s.dispOn = true → s.mbSeq m = s.fld (mbReg Reg.MB_STAT m) 15 8 →
        Does .releaseStage s zw fun t => last t ∧ s.answered t m 0 []) ∧
    (st = 3 ∨ st = 4 → Does .fabHold s [.block 7, .fab, .jt] fun t => t.fld stat 2 0 = 2 ∧ t.fab = { s.fab with stage := 0 } ∧
      t.jt = { s.jt with txns := t.jt.txns } ∧ t.jt.txns.length = s.jt.txns.length ∧ RegsBut [stat] s t ∧
      ∀ (k : Nat) (x : Txn), s.jt.txns[k]? = some x → t.jt.txns[k]? = some
        (if x.cp = true ∧ x.stage = Stage.delivered 52 then { x with stage := .answered .decerr [] } else x)) ∧
    (st = 1 → short → Does .fabHold s zl fun t => bad t 6) ∧
    (st ≠ 3 → st ≠ 4 → ¬ (st = 1 ∧ short) → refused .fabHold) ∧
    (let can := (st = 2 ∨ st = 4) ∧ s.fab.imageStream = true ∧ ¬ programs;
      (can → Does .fabProgram s [.block 7, .fab] fun t => t.fab = { s.fab with prog := some s.fab.image, flash := [] } ∧
        t.bit Reg.FAB_FLASH_CTL 8 = true ∧ t.reg Reg.FAB_FLASH_STAT = 0 ∧
        RegsBut [Reg.FAB_FLASH_CTL, Reg.FAB_FLASH_STAT, Reg.FAB_FLASH_VER, Reg.FAB_FLASH_CRC] s t) ∧
      (¬ can → refused .fabProgram)) ∧
    (∀ fail : Bool,
      let c := Instr.fabFlashDone fail
      let ended := fun (t : State) (b : List Byte) => t.fab = { s.fab with prog := none, flash := if fail then [] else b } ∧
        t.bit Reg.FAB_FLASH_CTL 8 = false ∧ t.fld Reg.FAB_FLASH_CYC 15 0 = min (s.fld Reg.FAB_FLASH_CYC 15 0 + 1) 65535 ∧
        t.bit Reg.FAB_FLASH_CTL 9 = (fail || s.bit Reg.FAB_FLASH_CTL 9) ∧ t.pends 114 = true ∧
        (fail = false → header b → sound b → t.reg Reg.FAB_FLASH_STAT = BitVec.ofNat 32 (1 + 2 * (num b 0x19 1 % 4)) ∧
          t.reg Reg.FAB_FLASH_VER = BitVec.ofNat 32 (num b 8 4) ∧ t.reg Reg.FAB_FLASH_CRC = BitVec.ofNat 32 (num b 0x10 4)) ∧
        (fail = true ∨ ¬ header b ∨ ¬ sound b → t.reg Reg.FAB_FLASH_STAT = 0)
      (calm → s.fab.prog = none → exec c s = .next s) ∧
      ∀ b, s.fab.prog = some b → (calm → Does c s zl fun t => ended t b) ∧
        ∀ m store, m < 4 → s.sm.waits = [(m, .fabLoad store 1)] → s.dispOn = true → s.mbSeq m = s.fld (mbReg Reg.MB_STAT m) 15 8 →
          (fail = true → Does c s zw fun t => ended t b ∧ s.failed t m (reasonStatus 0xE) 0xE 0) ∧
          (fail = false → Does c s zw fun t => ended t b ∧ s.answered t m 0 [s.reg Reg.FAB_CRC])) ∧
    (∀ w : List Word, Does (.fabSnap w) s [.block 7, .fab] fun t => t.bit Reg.FAB_RB_CTL 1 = true ∧ RegsBut [Reg.FAB_RB_CTL] s t ∧
      t.fab = { s.fab with shadow := t.fab.shadow } ∧ ∀ i, i < 6150 → Store.get (fun _ => 0) t.fab.shadow i =
        if st = 2 ∨ st = 3 ∨ st = 4 then w.getD i 0 &&& rbMask i else 0) ∧
    (let i := s.fld Reg.FAB_RB_IDX 12 0;
      (i < 6150 → s.readValue Reg.FAB_RB_DATA = Store.get (fun _ => 0) s.fab.shadow i) ∧
      Does .fabRbDataRead s [.block 7, .free] fun t => t.fld Reg.FAB_RB_IDX 12 0 = (i + 1) % 2 ^ 13 ∧ RegsBut [Reg.FAB_RB_IDX] s t) ∧
    (∀ (ini n : Nat) (v : Word),
      let mine := (ini = 0 ∨ ini = 5) ∧ n < 16
      (mine → Does (.fabUsrWrite ini n v) s [.block 7] fun t => t.reg (Reg.FAB_USR + 4 * n) = v ∧ RegsBut [Reg.FAB_USR + 4 * n] s t) ∧
      (¬ mine → exec (.fabUsrWrite ini n v) s = .next s)) ∧
    ∀ i, (st = 4 → i < 4 → Does (.fabUser i) s [.block 1, .out] fun t => t.pends (116 + i) = true) ∧
      (st ≠ 4 ∨ 4 ≤ i → exec (.fabUser i) s = .next s)

/-- RAIL_IN_RANGE, RAIL_TIMEOUT, RAIL_DOWN_STEP, RAILS_DISCHARGED, DISCHARGE_LATE, PWR_GO, WAKE_N, COUPLER_WAKE, PCIE_WAKE, WAKE_PATTERN,
PWR_STABLE, RESET_N_ASSERT, RESET_N_RELEASE and VDD_AON_RISE (R601 to R616). The registers that follow flash, fuses and straps
are LC_STATE, LC_REQ, the FAB_FLASH registers and CPL_CTL. -/
def Obligations.RailsResetsAndPowerTransitions : Prop :=
  ∀ (s : State), s.sm.parked = none →
    let ph := s.pwr.phase
    let zb := [Zone.block 2, .pwr]
    let zr := [Zone.block 2, .pwr, .block 18, .jt, .block 1, .out]
    let zf := [Zone.pwr, .block 7, .fab, .block 2]
    let zl := [Zone.pwr, .regs, .arr, .planes, .trv, .disp, .cs, .sp, .sec, .ddr, .memo, .jt, .pcie, .sched, .kernels, .running, .cpl, .fab,
      .sm, .streams, .pipes, .il, .tkt]
    let z := State.reset
    let goes := [48, 49, 53, 57, 58]
    let stat := Reg.PWR_STAT
    let lost := fun (t : State) (k : Nat → Nat) (sec : Bool) (ks : List Nat) =>
      t.arr = z.arr ∧ t.trv = z.trv ∧ t.disp = z.disp ∧ t.cs = z.cs ∧ t.jt = z.jt ∧ t.pcie = z.pcie ∧ t.sched = z.sched ∧ t.kernels = [] ∧
      t.running = none ∧ t.cpl = z.cpl ∧ t.sm = z.sm ∧ t.streams = z.streams ∧ t.pipes = z.pipes ∧ t.tkt = z.tkt ∧
      t.il = { z.il with store := s.il.store } ∧ t.fab = { z.fab with flash := s.fab.flash } ∧ t.mem.sp = [] ∧ t.mem.ddr = [] ∧
      t.mem.sec = (if sec then s.mem.sec else []) ∧ t.mem.secBase = (if sec then s.mem.secBase else none) ∧
      t.mem.lcFuse = s.mem.lcFuse ∧ t.mem.lcReq = s.mem.lcReq ∧ t.fld Reg.LC_STATE 2 0 = s.mem.lcFuse % 8 ∧
      t.bit Reg.CPL_CTL 8 = s.part.cplRole ∧
      ∀ a, a ∉ [Reg.LC_STATE, Reg.LC_REQ, Reg.FAB_FLASH_STAT, Reg.FAB_FLASH_VER, Reg.FAB_FLASH_CRC, Reg.CPL_CTL] → a ∉ ks →
        t.reg a = (s.reg a &&& BitVec.ofNat 32 (k a)) ||| (bankDefault a &&& ~~~BitVec.ofNat 32 (k a))
    let dropped := fun (t : State) (g : Nat) => t.pwr.enCore = false ∧ t.pwr.enDdr = (s.pwr.enCore && s.pwr.enDdr) ∧
      t.pwr.enIo = (s.pwr.enIo && (s.pwr.enCore || s.pwr.enDdr || g != 4)) ∧
      t.pwr.phase = (if t.pwr.enDdr = true ∨ (g = 4 ∧ t.pwr.enIo = true) then .down g else .discharging g)
    let rails := fun (t : State) (p : Pwr) => t.pwr = { p with enIo := t.pwr.enIo, enCore := t.pwr.enCore, enDdr := t.pwr.enDdr, phase := t.pwr.phase }
    let upFrom := fun (p : Pwr) => if p.enIo then { p with enCore := true, phase := .up 2 } else { p with enIo := true, phase := .up 1 }
    let started := fun (t : State) (p : Pwr) =>
      t.pwr = { p with mode := .run, phase := .starting, wake := 0, starts := p.starts + 1, cool := true } ∧
      t.fld stat 23 20 = p.wake % 16 ∧ t.fld stat 19 18 = p.kind % 4 ∧ t.bit stat 12 = true ∧ t.fld stat 11 9 = 0 ∧ t.fld stat 2 0 = 0 ∧
      t.fab.image = [] ∧ t.fab.prog = none ∧ t.fab.flash = s.fab.flash ∧
      (let loads := t.bit Reg.FAB_FLASH_STAT 0 = true ∧ t.bit Reg.FAB_FLASH_STAT 1 = true;
        t.fld Reg.FAB_STAT 2 0 = (if loads then 1 else 0) ∧ (loads → t.fab.got = s.fab.flash ∧ t.fab.auto = true ∧ t.fab.stream = false))
    let reversed := fun (t : State) => t.pwr = { s.pwr with phase := .stable, wake := 0 } ∧ t.bit stat 17 = true ∧ t.fld stat 11 9 = 0 ∧
      t.bit stat 12 = false ∧ t.fld Reg.PWR_CTL 4 2 = 0 ∧ t.pends 121 = true ∧ ∀ p, p ∈ goes → t.fence p = 0 ∧
        t.bit (fenceReg Reg.JT_FENCE p) (p % 32) = false ∧ t.bit (fenceReg Reg.JT_FENCED p) (p % 32) = false
    let begins := fun (t : State) (x : PwrPhase) (g : Nat) => t.pwr = { s.pwr with phase := x } ∧ t.bit stat 12 = true ∧ t.fld stat 11 9 = g
    let drops := fun (t : State) (g : Nat) => begins t (.dropping g) g ∧ ∀ p, p ∈ goes →
      t.bit (fenceReg Reg.JT_FENCE p) (p % 32) = true ∧ t.fence p = if s.fence p = 0 then 1 else s.fence p
    (∀ n, ph = .up n →
      (n = 1 → Does .railInRange s [.pwr] fun t => t.pwr = { s.pwr with enCore := true, phase := .up 2 }) ∧
      (n = 2 → Does .railInRange s [.pwr] fun t => t.pwr = { s.pwr with enDdr := true, phase := .up 3 }) ∧
      (n ≠ 1 → n ≠ 2 → Does .railInRange s zf fun t => started t s.pwr) ∧
      (s.canonical = true → Does .railTimeout s zl fun t => lost t keptOff false [Reg.PWR_ERR] ∧ t.bit Reg.PWR_ERR 0 = true ∧ dropped t 4 ∧
        rails t { s.pwr with mode := .off, wake := 0, kind := if s.pwr.mode = .deep then 3 else s.pwr.kind })) ∧
    ((∀ n, ph ≠ .up n) → exec .railInRange s = .next s ∧ exec .railTimeout s = .next s) ∧
    (∀ g, ph = .dropping g →
      let out := ∀ p, p ∈ goes → s.fence p = 2
      (¬ out → exec .railDownStep s = .next s) ∧
      (out → s.canonical = true → g = 3 → Does .railDownStep s zl fun t => lost t keptDeep true [] ∧ dropped t 3 ∧
        rails t { s.pwr with mode := .deep, kind := 2 }) ∧
      (out → s.canonical = true → g ≠ 3 → Does .railDownStep s zl fun t => lost t keptOff false [] ∧ dropped t g ∧
        rails t { s.pwr with mode := .off, kind := 3 })) ∧
    (∀ g, ph = .down g → Does .railDownStep s [.pwr] fun t => dropped t g ∧ rails t s.pwr) ∧
    ((∀ g, ph ≠ .dropping g ∧ ph ≠ .down g) → exec .railDownStep s = .next s) ∧
    (∀ g, ph = .discharging g →
      let next := fun (t : State) => t.pwr =
        if s.pwr.wake = 0 then { s.pwr with phase := .stable, thermtrip := false } else upFrom { s.pwr with thermtrip := false }
      Does .railsDischarged s [.pwr] next ∧
      Does .dischargeLate s zb fun t => next t ∧ t.bit Reg.PWR_ERR 1 = true ∧ RegsBut [Reg.PWR_ERR] s t) ∧
    ((∀ g, ph ≠ .discharging g) → exec .railsDischarged s = .next s ∧ exec .dischargeLate s = .next s) ∧
    (let g := s.fld Reg.PWR_CTL 4 2;
      (s.dispOn = false → exec .pwrGo s = .next s) ∧
      (s.dispOn = true → (∀ e ∈ s.sm.waits, ∀ a b c d f, e.2 ≠ .power a b c d f) →
        (g = 1 ∨ g = 2 → Does .pwrGo s zb fun t => begins t (.switching g) g) ∧
        (g = 3 ∨ g = 4 → s.pwr.wake = 0 → Does .pwrGo s zr fun t => drops t g) ∧
        (g = 3 ∨ g = 4 → s.pwr.wake ≠ 0 → Does .pwrGo s zr reversed) ∧
        (g = 0 ∨ 4 < g → exec .pwrGo s = .next s)) ∧
      ∀ m k n a c p, m < 4 → s.dispOn = true → s.sm.waits = [(m, .power k n a c p)] →
        let fenced := n = 2 ∧ ∀ q, q ∈ s.powerPorts k → s.fence q = 2
        (¬ fenced → exec .pwrGo s = .next s) ∧
        (fenced → g = k → s.mbSeq m = s.fld (mbReg Reg.MB_STAT m) 15 8 → s.pwr.wake = 0 →
          let zg := .block 0 :: .sm :: .tkt :: zr
          (k = 2 → Does .pwrGo s zg fun t => begins t (.switching 2) 2 ∧ s.answered t m 0 [2] ∧
            t.bit Reg.TO_STAT 0 = s.bit Reg.TO_STAT 0) ∧
          (k = 3 ∨ k = 4 → Does .pwrGo s zg fun t => drops t k ∧ s.answered t m 0 [word k] ∧ t.bit Reg.TO_STAT 0 = false ∧
            ∀ r, r < 4 → r ≠ m → s.mbState r = 1 → t.mbState r = 3 ∧ t.fld (mbReg Reg.RSP0 r) 31 24 = 5 ∧
              t.reg (mbReg Reg.RSP0 r + 4) = word (0xD * 2 ^ 16)))) ∧
    (∀ c k, (c = Instr.wakeN ∧ k = 0) ∨ (∃ p, c = Instr.couplerWake p ∧ k = 1 ∧ p < 2 ∧ s.bit Reg.PWR_CTL (12 + p) = true) ∨
        (c = Instr.pcieWake ∧ k = 2) ∨ (c = Instr.wakePattern ∧ k = 3) →
      let acts := fun (g : Nat) => if g = 4 then k = 0 else s.bit Reg.PWR_CTL (8 + k) = true
      let held := { s.pwr with wake := s.pwr.wake ||| 2 ^ k }
      let idle := exec c s = .next s
      let latched := Does c s [.block 2, .block 1, .out] fun t => t.bit stat 16 = true ∧ t.fld stat 15 13 = 0 ∧ t.pends 125 = true ∧
        RegsBut [stat] s t
      (s.pwr.resetN = true → idle) ∧
      (s.pwr.resetN = false →
        (ph = .stable →
          let off := (s.pwr.mode = .deep ∧ acts 3) ∨ (s.pwr.mode = .off ∧ acts 4)
          let exits := (s.pwr.mode = .idle ∨ s.pwr.mode = .sleep) ∧ k = 0
          (off → Does c s [.pwr] fun t => t.pwr = upFrom held) ∧ (exits → Does c s zb fun t => begins t (.switching 0) 0) ∧
          (¬ off → ¬ exits → idle)) ∧
        (∀ g, ph = .entering g →
          ((g = 1 ∨ g = 2) → (k = 0 → latched) ∧ (k ≠ 0 → idle)) ∧
          (g ≠ 1 → g ≠ 2 → (acts g → Does c s [.pwr, .block 1, .out] fun t => t.pwr = held ∧ t.pends 125 = true) ∧ (¬ acts g → idle))) ∧
        (∀ g, ph = .switching g → (k = 0 → g = 1 ∨ g = 2 → latched) ∧ (¬ (k = 0 ∧ (g = 1 ∨ g = 2)) → idle)) ∧
        (∀ g, ph = .dropping g → (acts g → Does c s zr reversed) ∧ (¬ acts g → idle)) ∧
        (∀ g, ph = .down g ∨ ph = .discharging g → (acts g → Does c s [.pwr] fun t => t.pwr = held) ∧ (¬ acts g → idle)) ∧
        (∀ n, ph = .up n → idle) ∧ (ph = .starting → idle))) ∧
    (∀ p, ¬ (p < 2 ∧ s.bit Reg.PWR_CTL (12 + p) = true) → exec (.couplerWake p) s = .next s) ∧
    (let asked := s.bit stat 16 = true ∧ s.fld stat 15 13 = 0
      let enters := fun (t : State) (md : PMode) (n : Nat) => t.fld stat 2 0 = n ∧
        (¬ asked → t.pwr = { s.pwr with mode := md, phase := .stable } ∧ t.bit stat 12 = false) ∧
        (asked → t.pwr = { s.pwr with mode := md, phase := .switching 0 } ∧ t.bit stat 12 = true ∧ t.bit stat 16 = false)
      let runs := fun (t : State) => t.pwr = { s.pwr with mode := .run, phase := .stable } ∧ t.fld stat 2 0 = 0 ∧ t.bit stat 12 = false ∧
        t.pends 120 = true
      let keeps := s.bit Reg.FAB_CTL 4 = true;
      (ph = .switching 1 → Does .pwrStable s zb fun t => enters t .idle 1) ∧
      (ph = .switching 2 → Does .pwrStable s [.block 2, .pwr, .planes, .block 6, .cpl, .block 1, .out, .block 0, .tkt, .block 7, .fab] fun t =>
        enters t .sleep 2 ∧ t.arr.base = none ∧ t.arr.planes = [] ∧
        (∀ p, p < 2 → s.bit Reg.CPL_CTL p = true → t.cplState p = 1) ∧ (keeps → t.fab = s.fab) ∧
        (¬ keeps → t.fld Reg.FAB_STAT 2 0 = 0 ∧ t.fab.image = [])) ∧
      (∀ g, ph = .switching g → g ≠ 1 → g ≠ 2 →
        (s.pwr.mode ≠ .sleep → Does .pwrStable s [.block 2, .pwr, .block 1, .out] runs) ∧
        (s.pwr.mode = .sleep → Does .pwrStable s [.block 2, .pwr, .block 1, .out, .planes, .block 7, .fab, .block 16, .arr] fun t =>
          runs t ∧ t.bit Reg.ARR_CTL 0 = false ∧ (keeps → t.fab = s.fab))) ∧
      ((∀ g, ph ≠ .switching g) → exec .pwrStable s = .next s)) ∧
    let up := s.pwr.enIo = true ∧ s.pwr.enCore = true ∧ s.pwr.enDdr = true
    (s.canonical = true → Does .resetNAssert s zl fun t => lost t keptBits true [] ∧
      t.pwr = { s.pwr with resetN := true, wake := 0, thermtrip := false, mode := if up then .run else .off, phase := if up then .starting else .stable }) ∧
    (s.pwr.resetN = false → exec .resetNRelease s = .next s) ∧
    (s.pwr.resetN = true →
      let p := { s.pwr with resetN := false, kind := 1 }
      (up → Does .resetNRelease s zf fun t => started t p) ∧ (¬ up → Does .resetNRelease s [.pwr] fun t => t.pwr = upFrom p)) ∧
    (s.canonical = true → Does .vddAonRise s zl fun t => lost t (fun _ => 0) false [] ∧ t.mem.wipeRec = 0 ∧
      t.pwr = { Pwr.init with mode := .off, phase := .stable, enIo := false, enCore := false, enDdr := false, resetN := s.pwr.resetN, starts := s.pwr.starts })

/-- COLD_START and WARM_START (R616 to R619, R627), TEMP_SENSOR_UPDATE, THERMTRIP, VDD_CORE_FALL and VMON (R635, R652 to R654). That a start
is carried by several of these commands is the model's choice (log entry 84). -/
def Obligations.StartsAndSensors : Prop :=
  ∀ (s : State),
    (∀ cold : Bool,
      let c := if cold then Instr.coldStart else .warmStart
      let z := [Zone.block 8, .block 1, .out, .memo, .sec, .block 6, .block 7, .sp, .disp, .block 2, .block 0, .upd, .block 16, .trv, .arr,
        .block 4, .planes, .fab, .jt, .il, .free, .cs, .block 17, .block 15, .block 18, .block 9, .sm, .pwr, .log, .tkt, .block 3,
        .kernels, .block 20, .streams, .pipes, .cpl, .ddr]
      let may := s.pwr.phase = .starting ∧ s.pwr.mode = .run ∧ s.pwr.resetN = false ∧ (cold = true ↔ s.fld Reg.PWR_STAT 19 18 ≠ 2) ∧
        s.disp.halted = false
      let step := s.fld Reg.PWR_BOOT 3 0
      let ready := fun (t : State) => t.bit Reg.TO_STAT 0 = true ∧ t.fld Reg.PWR_BOOT 3 0 = 7 ∧ t.bit Reg.PWR_STAT 12 = false ∧
        t.pwr.phase = .stable ∧ t.pends 120 = true ∧ ∃ e, t.log.getLast? = some e ∧ bitsOf e.w2 31 24 = 0x0D
      let fails := fun (k : Nat) => ∀ i, i < 2 → s.imgReason k (s.slotImage k i) ≠ none
      let image := fun (k : Nat) => s.slotImage k ((s.kindRec k).active % 2)
      let sound := fun (k : Nat) => (s.kindRec k).trial = false ∧ s.imgReason k (image k) = none
      (¬ may → exec c s = .next s) ∧
      (may → step = 4 → s.bit Reg.DDR_STAT 0 = false → exec c s = .next s) ∧
      (may → step ≠ 0 → step ≠ 4 → s.sm.boot = none ∨ (s.smWaits 4).isSome = true → exec c s = .next s) ∧
      (may → step = 0 → s.mem.lcReq = none →
        (s.fld Reg.LC_STATE 2 0 = 4 → Does c s z fun t => t.disp.halted = true ∧ t.mem.sec = [] ∧ t.mem.secBase = some 0 ∧
          t.fld Reg.PWR_BOOT 3 0 = 0) ∧
        (s.fld Reg.LC_STATE 2 0 ≠ 4 → fails 0 → Does c s z fun t => t.disp.halted = true ∧ t.fld Reg.PWR_BOOT 3 0 = 1 ∧
          t.bit Reg.PWR_BOOT 4 = true ∧ t.bit Reg.TO_STAT 0 = s.bit Reg.TO_STAT 0) ∧
        (s.fld Reg.LC_STATE 2 0 ≠ 4 → sound 0 →
          let runs := fun (t : State) => t.sm.version = word (imgVersion 0 (image 0)) ∧ t.bit Reg.CS_CTL 0 = true ∧ t.disp.halted = false
          (fails 2 → Does c s z fun t => runs t ∧ ready t ∧ t.bit Reg.PWR_BOOT 6 = true) ∧
          (sound 2 → Does c s z fun t => runs t ∧ t.fld Reg.PWR_BOOT 3 0 = 4 ∧
            ∃ b, t.sm.boot = some b ∧ b.rest = bootSection (imgBody (image 2)) 4 ∧ b.idx = 0))) ∧
      ∀ b, may → step ≠ 0 → step ≠ 4 → s.sm.boot = some b → s.smWaits 4 = none →
        (s.sm.status = none ∨ s.sm.status = some 0 → leNat (b.rest.take 4) = 0 → Does c s z fun t => ready t ∧ t.sm.boot = none) ∧
        ∀ e, s.sm.status = some (e + 1) → Does c s z fun t => ready t ∧ t.sm.boot = none ∧ t.pends 126 = true ∧
          t.fld Reg.PWR_BOOT 23 16 = b.idx % 256 ∧ t.fld Reg.PWR_BOOT 31 24 = (e + 1) % 256) ∧
    (∀ l : List (BitVec 16),
      let warn := (BitVec.ofNat 16 (s.fld Reg.PWR_THERM 15 0)).toInt
      (s.pwr.enCore = false → exec (.tempSensorUpdate l) s = .next s) ∧
      (s.pwr.enCore = true → l.length = 16 → ∀ v, v ∈ l → (∀ w ∈ l, w.toInt ≤ v.toInt) →
        Does (.tempSensorUpdate l) s [.block 2, .pwr, .block 1, .out] fun t => t.fld Reg.PWR_THERM 31 16 = v.toNat ∧
          RegsBut [Reg.PWR_THERM] s t ∧ t.fld Reg.PWR_THERM 15 0 = s.fld Reg.PWR_THERM 15 0 ∧
          t.pwr = { s.pwr with sensors := l, cool := if warn ≤ v.toInt then false else s.pwr.cool || decide (v.toInt < warn - 16) } ∧
          (s.pwr.cool = true → warn ≤ v.toInt → t.pends 122 = true) ∧
          (s.pwr.cool = false ∨ v.toInt < warn → t.out = s.out ∧ t.pends 122 = s.pends 122))) ∧
    (s.pwr.thermtrip = true → exec .thermtrip s = .next s) ∧
    (s.pwr.thermtrip = false → Does .thermtrip s [.block 2, .pwr, .block 1, .out] fun t => t.pwr = { s.pwr with thermtrip := true } ∧
      t.bit Reg.PWR_ERR 4 = true ∧ t.pends 123 = true ∧ RegsBut [Reg.PWR_ERR] s t) ∧
    Does .vddCoreFall s [.pwr] (fun t => t.pwr = { s.pwr with thermtrip := false }) ∧
    (s.pwr.mode = .run → Does .vmon s [.block 2, .block 1, .out] fun t => t.bit Reg.PWR_ERR 5 = true ∧ t.pends 124 = true ∧
      RegsBut [Reg.PWR_ERR] s t) ∧
    (s.pwr.mode ≠ .run → exec .vmon s = .next s)
end

