-- ==== Sys2Proof/Laws/Bits.lean ====
section
/-! SUPPORT. What taking and putting bit fields of a register word says: a field reads back what was put there, and every
other bit stays. -/

namespace Sys2Proof.Machine

theorem bitsOf_testBit (v : Word) (hi lo j : Nat) :
    (bitsOf v hi lo).testBit j = (decide (j < hi + 1 - lo) && v.getLsbD (lo + j)) := by
  unfold bitsOf
  rw [Nat.testBit_mod_two_pow, Nat.testBit_div_two_pow]
  simp [BitVec.getLsbD, Nat.add_comm]

theorem bitsOf_lt (v : Word) (hi lo : Nat) : bitsOf v hi lo < 2 ^ (hi + 1 - lo) :=
  Nat.mod_lt _ (Nat.two_pow_pos _)

/-- Two words with the same bits in a field have the same field. -/
theorem bitsOf_congr {v w : Word} {hi lo : Nat} (h : ∀ i, lo ≤ i → i ≤ hi → v.getLsbD i = w.getLsbD i) :
    bitsOf v hi lo = bitsOf w hi lo := by
  apply Nat.eq_of_testBit_eq
  intro j
  rw [bitsOf_testBit, bitsOf_testBit]
  by_cases hj : j < hi + 1 - lo
  · simp [hj, h (lo + j) (by omega) (by omega)]
  · simp [hj]

/-- The number `a` with a field's worth at `lo` replaced. -/
theorem putBits_nat (a lo w n : Nat) :
    a - a / 2 ^ lo % 2 ^ w * 2 ^ lo + n % 2 ^ w * 2 ^ lo
      = a / 2 ^ (lo + w) * 2 ^ (lo + w) + (n % 2 ^ w * 2 ^ lo + a % 2 ^ lo) := by
  have h1 : a = 2 ^ lo * (a / 2 ^ lo) + a % 2 ^ lo := (Nat.div_add_mod a (2 ^ lo)).symm
  have h2 : a / 2 ^ lo = 2 ^ w * (a / 2 ^ lo / 2 ^ w) + a / 2 ^ lo % 2 ^ w := (Nat.div_add_mod _ _).symm
  have h3 : a / 2 ^ lo / 2 ^ w = a / 2 ^ (lo + w) := by rw [Nat.div_div_eq_div_mul, pow_add]
  rw [h3] at h2
  set q := a / 2 ^ lo
  set f := q % 2 ^ w
  set t := a / 2 ^ (lo + w)
  have h4 : a = t * 2 ^ (lo + w) + f * 2 ^ lo + a % 2 ^ lo := by
    calc a = 2 ^ lo * q + a % 2 ^ lo := h1
      _ = 2 ^ lo * (2 ^ w * t + f) + a % 2 ^ lo := by rw [← h2]
      _ = _ := by rw [pow_add]; ring
  omega

theorem putBits_getLsbD (v : Word) {hi lo : Nat} (n i : Nat) (hhi : hi < 32) (hlo : lo ≤ hi) :
    (putBits v hi lo n).getLsbD i
      = if lo ≤ i ∧ i ≤ hi then n.testBit (i - lo) else v.getLsbD i := by
  unfold putBits bitsOf
  rw [putBits_nat]
  have hw : lo + (hi + 1 - lo) = hi + 1 := by omega
  rw [hw]
  simp only [BitVec.getLsbD, BitVec.toNat_ofNat]
  rw [Nat.testBit_mod_two_pow]
  have hl : n % 2 ^ (hi + 1 - lo) * 2 ^ lo + v.toNat % 2 ^ lo < 2 ^ (hi + 1) := by
    have a1 := Nat.mod_lt n (Nat.two_pow_pos (hi + 1 - lo))
    have a2 := Nat.mod_lt v.toNat (Nat.two_pow_pos lo)
    have a3 : 2 ^ (hi + 1) = 2 ^ (hi + 1 - lo) * 2 ^ lo := by rw [← pow_add]; congr 1; omega
    have a4 : (n % 2 ^ (hi + 1 - lo) + 1) * 2 ^ lo ≤ 2 ^ (hi + 1 - lo) * 2 ^ lo := Nat.mul_le_mul_right _ a1
    rw [a3]
    have a5 : (n % 2 ^ (hi + 1 - lo) + 1) * 2 ^ lo = n % 2 ^ (hi + 1 - lo) * 2 ^ lo + 2 ^ lo := by ring
    omega
  have e1 : v.toNat / 2 ^ (hi + 1) * 2 ^ (hi + 1) + (n % 2 ^ (hi + 1 - lo) * 2 ^ lo + v.toNat % 2 ^ lo)
      = 2 ^ (hi + 1) * (v.toNat / 2 ^ (hi + 1)) + (n % 2 ^ (hi + 1 - lo) * 2 ^ lo + v.toNat % 2 ^ lo) := by ring
  have e2 : n % 2 ^ (hi + 1 - lo) * 2 ^ lo + v.toNat % 2 ^ lo
      = 2 ^ lo * (n % 2 ^ (hi + 1 - lo)) + v.toNat % 2 ^ lo := by ring
  by_cases hi32 : i < 32
  · simp only [hi32, decide_true, Bool.true_and]
    rw [e1, Nat.testBit_two_pow_mul_add _ hl, e2, Nat.testBit_two_pow_mul_add _ (Nat.mod_lt _ (Nat.two_pow_pos lo))]
    by_cases c1 : i < hi + 1
    · by_cases c2 : i < lo
      · simp [c1, c2, show ¬ (lo ≤ i) by omega]
      · simp [c1, c2, show lo ≤ i by omega, show i ≤ hi by omega]
        omega
    · rw [if_neg c1, if_neg (by omega), Nat.testBit_div_two_pow]
      congr 1; omega
  · simp only [hi32, decide_false, Bool.false_and]
    rw [if_neg (by omega)]
    exact (Nat.testBit_lt_two_pow (lt_of_lt_of_le v.isLt (Nat.pow_le_pow_right (by omega) (by omega)))).symm

/-- A field reads back what was put there. -/
@[simp] theorem bitsOf_putBits_same (v : Word) {hi lo : Nat} (n : Nat) (hhi : hi < 32) (hlo : lo ≤ hi) :
    bitsOf (putBits v hi lo n) hi lo = n % 2 ^ (hi + 1 - lo) := by
  apply Nat.eq_of_testBit_eq
  intro j
  rw [bitsOf_testBit, putBits_getLsbD v n _ hhi hlo, Nat.testBit_mod_two_pow]
  by_cases hj : j < hi + 1 - lo
  · simp [hj]; omega
  · simp [hj]

/-- Putting a field leaves every disjoint field. -/
theorem bitsOf_putBits_other (v : Word) {hi lo a b : Nat} (n : Nat) (hhi : hi < 32) (hlo : lo ≤ hi)
    (hd : a < lo ∨ hi < b) : bitsOf (putBits v hi lo n) a b = bitsOf v a b := by
  apply bitsOf_congr
  intro i h1 h2
  rw [putBits_getLsbD v n i hhi hlo, if_neg (by omega)]

theorem getLsbD_putBits_other (v : Word) {hi lo i : Nat} (n : Nat) (hhi : hi < 32) (hlo : lo ≤ hi)
    (hd : i < lo ∨ hi < i) : (putBits v hi lo n).getLsbD i = v.getLsbD i := by
  rw [putBits_getLsbD v n i hhi hlo, if_neg (by omega)]

@[simp] theorem getLsbD_putBits_bit (v : Word) {k : Nat} (n : Nat) (h : k < 32) :
    (putBits v k k n).getLsbD k = n.testBit 0 := by
  rw [putBits_getLsbD v n k h (Nat.le_refl k)]; simp

/-- A field one bit wide is that bit. -/
theorem bitsOf_bit (v : Word) (k : Nat) : bitsOf v k k = (v.getLsbD k).toNat := by
  have h := bitsOf_testBit v k k 0
  have hl := bitsOf_lt v k k
  simp at h hl
  rcases hb : v.getLsbD k with _ | _ <;> simp [hb] at h ⊢ <;> omega

end Sys2Proof.Machine
end

