-- ==== Sys2Proof/Laws/Store.lean ====
section
/-! SUPPORT. What reading and writing a Store says: read after write, all other keys kept, the canonical form kept. -/

namespace Sys2Proof

variable {α : Type} (d : Nat → α)

theorem Store.get_drop_same (m : List (Nat × α)) (k : Nat) : Store.get d (Store.drop m k) k = d k := by
  induction m with
  | nil => rfl
  | cons p t ih =>
    obtain ⟨j, v⟩ := p
    by_cases h : k = j
    · subst h; simp only [Store.drop, if_true]; exact ih
    · simp [Store.drop, Store.get, h, ih]

theorem Store.get_drop_other (m : List (Nat × α)) {k a : Nat} (h : a ≠ k) :
    Store.get d (Store.drop m k) a = Store.get d m a := by
  induction m with
  | nil => rfl
  | cons p t ih =>
    obtain ⟨j, v⟩ := p
    by_cases hk : k = j
    · subst hk; simp [Store.drop, Store.get, h, ih]
    · by_cases ha : a = j <;> simp [Store.drop, Store.get, hk, ha, ih]

theorem Store.get_put_same (m : List (Nat × α)) (k : Nat) (v : α) (hk : ∀ p ∈ m, p.1 ≠ k) :
    Store.get d (Store.put m k v) k = v := by
  induction m with
  | nil => simp [Store.put, Store.get]
  | cons p t ih =>
    obtain ⟨j, w⟩ := p
    have hj : k ≠ j := fun e => hk (j, w) (by simp) e.symm
    by_cases hlt : k < j
    · simp [Store.put, hlt, Store.get]
    · simp [Store.put, hlt, Store.get, hj, ih (fun q hq => hk q (by simp [hq]))]

theorem Store.get_put_other (m : List (Nat × α)) {k a : Nat} (v : α) (h : a ≠ k) :
    Store.get d (Store.put m k v) a = Store.get d m a := by
  induction m with
  | nil => simp [Store.put, Store.get, h]
  | cons p t ih =>
    obtain ⟨j, w⟩ := p
    by_cases hlt : k < j
    · simp [Store.put, hlt, Store.get, h]
    · by_cases ha : a = j <;> simp [Store.put, hlt, Store.get, ha, ih]

theorem Store.drop_keys (m : List (Nat × α)) (k : Nat) : ∀ p ∈ Store.drop m k, p.1 ≠ k := by
  induction m with
  | nil => simp [Store.drop]
  | cons p t ih =>
    obtain ⟨j, v⟩ := p
    by_cases h : k = j
    · subst h; simp only [Store.drop, if_true]; exact ih
    · intro q hq
      simp [Store.drop, h] at hq
      rcases hq with rfl | hq
      · exact fun e => h e.symm
      · exact ih q hq

variable [DecidableEq α]

@[simp] theorem Store.get_set_same (m : List (Nat × α)) (k : Nat) (v : α) :
    Store.get d (Store.set d m k v) k = v := by
  unfold Store.set
  split
  · next h => rw [Store.get_drop_same, h]
  · exact Store.get_put_same d _ k v (Store.drop_keys m k)

theorem Store.get_set_other (m : List (Nat × α)) {k a : Nat} (v : α) (h : a ≠ k) :
    Store.get d (Store.set d m k v) a = Store.get d m a := by
  unfold Store.set
  split
  · exact Store.get_drop_other d m h
  · rw [Store.get_put_other d _ v h, Store.get_drop_other d m h]

theorem Store.get_set (m : List (Nat × α)) (k a : Nat) (v : α) :
    Store.get d (Store.set d m k v) a = if a = k then v else Store.get d m a := by
  by_cases h : a = k
  · subst h; simp
  · simp [h, Store.get_set_other d m v h]

omit [DecidableEq α] in
/-- Rising above a lower bound follows from rising above a higher one. -/
theorem Store.rising_weaken (m : List (Nat × α)) {b c : Nat} (hbc : b ≤ c)
    (h : Store.rising (some c) m = true) : Store.rising (some b) m = true := by
  cases m with
  | nil => rfl
  | cons p t =>
    obtain ⟨j, v⟩ := p
    simp [Store.rising] at h ⊢
    exact ⟨by omega, h.2⟩

omit [DecidableEq α] in
theorem Store.rising_drop (m : List (Nat × α)) (k : Nat) :
    ∀ b, Store.rising b m = true → Store.rising b (Store.drop m k) = true := by
  induction m with
  | nil => intro b _; cases b <;> rfl
  | cons p t ih =>
    obtain ⟨j, v⟩ := p
    intro b h
    by_cases hk : k = j
    · simp only [Store.drop, hk, if_true]
      cases b with
      | none =>
        simp only [Store.rising] at h
        have h1 := ih (some j) h
        rw [← hk] at h1 ⊢
        cases hd : Store.drop t k with
        | nil => rfl
        | cons q r =>
          obtain ⟨i, w⟩ := q
          rw [hd] at h1
          simp [Store.rising] at h1 ⊢
          exact h1.2
      | some c =>
        simp [Store.rising] at h
        rw [← hk]
        have h1 := ih (some j) h.2
        exact Store.rising_weaken _ (by omega) h1
    · simp only [Store.drop, hk, if_false]
      cases b with
      | none => simp only [Store.rising] at h ⊢; exact ih _ h
      | some c => simp [Store.rising] at h ⊢; exact ⟨h.1, ih _ h.2⟩

omit [DecidableEq α] in
theorem Store.rising_put (m : List (Nat × α)) (k : Nat) (v : α) (hk : ∀ p ∈ m, p.1 ≠ k) :
    ∀ b, (∀ c, b = some c → c < k) → Store.rising b m = true → Store.rising b (Store.put m k v) = true := by
  induction m with
  | nil =>
    intro b hb _
    cases b with
    | none => rfl
    | some c => simp [Store.put, Store.rising, hb c rfl]
  | cons p t ih =>
    obtain ⟨j, w⟩ := p
    intro b hb h
    have hj : j ≠ k := hk (j, w) (by simp)
    by_cases hlt : k < j
    · cases b with
      | none => simp [Store.rising] at h; simp [Store.put, hlt, Store.rising, h]
      | some c => simp [Store.rising] at h; simp [Store.put, hlt, Store.rising, h, hb c rfl]
    · have hjk : j < k := by omega
      have ht := ih (fun q hq => hk q (by simp [hq])) (some j) (fun c e => by cases e; exact hjk)
      cases b with
      | none => simp [Store.rising] at h; simp [Store.put, hlt, Store.rising, ht h]
      | some c => simp [Store.rising] at h; simp [Store.put, hlt, Store.rising, ht h.2, h.1]

theorem Store.noDefault_drop (m : List (Nat × α)) (k : Nat) (h : Store.noDefault d m = true) :
    Store.noDefault d (Store.drop m k) = true := by
  induction m with
  | nil => rfl
  | cons p t ih =>
    obtain ⟨j, v⟩ := p
    simp [Store.noDefault] at h
    by_cases hk : k = j
    · simp [Store.drop, hk]; rw [← hk]; exact ih h.2
    · simp [Store.drop, hk, Store.noDefault, h.1, ih h.2]

theorem Store.noDefault_put (m : List (Nat × α)) (k : Nat) (v : α) (hv : v ≠ d k)
    (h : Store.noDefault d m = true) : Store.noDefault d (Store.put m k v) = true := by
  induction m with
  | nil => simp [Store.put, Store.noDefault, hv]
  | cons p t ih =>
    obtain ⟨j, w⟩ := p
    simp [Store.noDefault] at h
    by_cases hlt : k < j
    · simp [Store.put, hlt, Store.noDefault, hv, h.1, h.2]
    · simp [Store.put, hlt, Store.noDefault, h.1, ih h.2]

/-- Every write keeps the canonical form. -/
theorem Store.wf_set (m : List (Nat × α)) (k : Nat) (v : α) (h : Store.wf d m = true) :
    Store.wf d (Store.set d m k v) = true := by
  simp [Store.wf] at h ⊢
  unfold Store.set
  split
  · exact ⟨Store.rising_drop m k none h.1, Store.noDefault_drop d m k h.2⟩
  · next hv =>
    exact ⟨Store.rising_put _ k v (Store.drop_keys m k) none (by simp) (Store.rising_drop m k none h.1),
      Store.noDefault_put d _ k v hv (Store.noDefault_drop d m k h.2)⟩

omit [DecidableEq α] in
theorem Store.mem_drop {m : List (Nat × α)} {k : Nat} {e : Nat × α} (h : e ∈ Store.drop m k) : e ∈ m := by
  induction m with
  | nil => exact h
  | cons p t ih =>
    obtain ⟨j, v⟩ := p
    by_cases hk : k = j
    · simp only [Store.drop, hk, if_true] at h
      exact List.mem_cons_of_mem _ (ih (hk ▸ h))
    · simp only [Store.drop, hk, if_false, List.mem_cons] at h ⊢
      exact h.imp id ih

omit [DecidableEq α] in
theorem Store.mem_put {m : List (Nat × α)} {k : Nat} {v : α} {e : Nat × α} (h : e ∈ Store.put m k v) :
    e = (k, v) ∨ e ∈ m := by
  induction m with
  | nil => simpa [Store.put] using h
  | cons p t ih =>
    obtain ⟨j, w⟩ := p
    by_cases hk : k < j
    · simpa [Store.put, hk] using h
    · simp only [Store.put, hk, if_false, List.mem_cons] at h ⊢
      rcases h with h | h
      · exact .inr (.inl h)
      · exact (ih h).imp id .inr

/-- What a written list holds: the new entry, or an old one. -/
theorem Store.mem_set {m : List (Nat × α)} {k : Nat} {v : α} {e : Nat × α} (h : e ∈ Store.set d m k v) :
    e = (k, v) ∨ e ∈ m := by
  unfold Store.set at h
  split at h
  · exact .inr (Store.mem_drop h)
  · exact (Store.mem_put h).imp id Store.mem_drop

theorem Store.rising_sparse (vs : List α) :
    ∀ k b, (∀ c, b = some c → c < k) → Store.rising b (Store.sparse d k vs) = true := by
  induction vs with
  | nil => intro k b _; cases b <;> rfl
  | cons v vs ih =>
    intro k b hb
    simp only [Store.sparse]
    split
    · exact ih (k + 1) b (fun c e => Nat.lt_succ_of_lt (hb c e))
    · have h1 := ih (k + 1) (some k) (fun c e => by cases e; omega)
      cases b with
      | none => simpa [Store.rising] using h1
      | some c => simp [Store.rising, h1, hb c rfl]

theorem Store.noDefault_sparse (vs : List α) : ∀ k, Store.noDefault d (Store.sparse d k vs) = true := by
  induction vs with
  | nil => intro k; rfl
  | cons v vs ih =>
    intro k
    simp only [Store.sparse]
    split
    · exact ih (k + 1)
    · next h => simp [Store.noDefault, h, ih (k + 1)]

/-- A list made from dense contents has the canonical form. -/
theorem Store.wf_sparse (vs : List α) (k : Nat) : Store.wf d (Store.sparse d k vs) = true := by
  simp [Store.wf, Store.rising_sparse d vs k none (by simp), Store.noDefault_sparse d vs k]

end Sys2Proof
end

