-- ==== Sys2Proof/Laws/KeepsBase.lean ====
section
/-! SUPPORT. One relation that says what an operation can do to the state: `Keeps fs s0 s` says that from `s0` to `s` only the
parts `fs` have changed, the canonical form is kept, the queue is untouched and outputs were only added. Every operation has
one lemma: it continues such a path if it changes only parts of `fs`. -/

namespace Sys2Proof.Machine

/-- Every part of `F` is in `fs`. -/
def subF (F fs : List Zone) : Bool :=
  F.all fun f => match f with
    | .regs => fs.contains .regs
    | f => f.inList fs

theorem inList_of_subF {F fs : List Zone} (h : subF F fs = true) {f : Zone} (hf : f.inList F = true) :
    f.inList fs = true := by
  simp only [subF, List.all_eq_true] at h
  cases f <;> simp only [Zone.inList, Bool.or_eq_true, List.contains_iff_mem] at hf ⊢ <;> try exact absurd rfl (by simp at hf)
  case block b =>
    rcases hf with hf | hf
    · have := h _ hf; simpa [Zone.inList] using this
    · have := h _ hf; right; simpa using this
  all_goals (have := h _ hf; simpa [Zone.inList] using this)

theorem subF_trans {F G H : List Zone} (h : subF F G = true) (h' : subF G H = true) : subF F H = true := by
  simp only [subF, List.all_eq_true]
  intro f hf
  have h1 := List.all_eq_true.mp h f hf
  cases f
  case regs =>
    simp only [List.contains_iff_mem] at h1 ⊢
    have := List.all_eq_true.mp h' _ h1
    simpa using this
  all_goals exact inList_of_subF h' h1

/-- What a path from `s0` to `s` has changed. -/
structure Keeps (fs : List Zone) (s0 s : State) : Prop where
  only : ∀ f : Zone, f.inList fs = false → s0.agree f s
  canon : s0.canonical = true → s.canonical = true
  queue : s.pending = s0.pending
  out : s0.out <+: s.out

theorem Keeps.rfl' (fs : List Zone) (s : State) : Keeps fs s s where
  only := by intro f _; cases f <;> simp [State.agree]
  canon := id
  queue := rfl
  out := List.prefix_rfl

theorem Keeps.toOnly {fs : List Zone} {s t : State} (h : Keeps fs s t) : Only fs s t := ⟨h.only, h.queue⟩

theorem canonical_iff (s : State) : s.canonical = true ↔
    Store.wf bankDefault s.regs = true ∧ s.arr.canonical = true ∧ Store.wf (fun _ => s.mem.spBase) s.mem.sp = true ∧
      Store.wf (fun _ => s.mem.secBase) s.mem.sec = true ∧ Store.wf (fun _ => none) s.mem.ddr = true := by
  simp [State.canonical, and_assoc]

variable {fs : List Zone} {s0 s : State}

/-- A change of fields that are no register: each is in `fs` or as it was. -/
theorem Keeps.upd (h : Keeps fs s0 s) {arr trv disp cs mem jt pcie part log logSeq repair sched kernels running pwr cpl fab sm upd streams pipes il tkt van free out pending}
    (h1 : Zone.inList .arr fs = true ∨ arr = { s.arr with base := arr.base, planes := arr.planes })
    (h2 : (arr.base = s.arr.base ∧ arr.planes = s.arr.planes) ∨
      (Zone.inList .planes fs = true ∧ (s.arr.canonical = true → arr.canonical = true)))
    (h3 : Zone.inList .trv fs = true ∨ trv = s.trv)
    (h4 : Zone.inList .disp fs = true ∨ disp = s.disp)
    (h5 : Zone.inList .cs fs = true ∨ cs = s.cs)
    (h6 : (mem.sp = s.mem.sp ∧ mem.spBase = s.mem.spBase) ∨ (Zone.inList .sp fs = true ∧
      (Store.wf (fun _ => s.mem.spBase) s.mem.sp = true → Store.wf (fun _ => mem.spBase) mem.sp = true)))
    (h7 : (mem.sec = s.mem.sec ∧ mem.secBase = s.mem.secBase) ∨ (Zone.inList .sec fs = true ∧
      (Store.wf (fun _ => s.mem.secBase) s.mem.sec = true → Store.wf (fun _ => mem.secBase) mem.sec = true)))
    (h8 : mem.ddr = s.mem.ddr ∨ (Zone.inList .ddr fs = true ∧
      (Store.wf (fun _ => none) s.mem.ddr = true → Store.wf (fun _ => none) mem.ddr = true)))
    (h9 : Zone.inList .memo fs = true ∨ mem =
      { s.mem with sp := mem.sp, spBase := mem.spBase, sec := mem.sec, secBase := mem.secBase, ddr := mem.ddr })
    (h10 : Zone.inList .jt fs = true ∨ jt = s.jt)
    (h11 : Zone.inList .pcie fs = true ∨ pcie = s.pcie)
    (h12 : Zone.inList .part fs = true ∨ part = s.part)
    (h13 : Zone.inList .log fs = true ∨ (log = s.log ∧ logSeq = s.logSeq))
    (h14 : Zone.inList .repair fs = true ∨ repair = s.repair)
    (h15 : Zone.inList .sched fs = true ∨ sched = s.sched)
    (h16 : Zone.inList .kernels fs = true ∨ kernels = s.kernels)
    (h17 : Zone.inList .running fs = true ∨ running = s.running)
    (h18 : Zone.inList .pwr fs = true ∨ pwr = s.pwr)
    (h19 : Zone.inList .cpl fs = true ∨ cpl = s.cpl)
    (h20 : Zone.inList .fab fs = true ∨ fab = s.fab)
    (h21 : Zone.inList .sm fs = true ∨ sm = s.sm)
    (h22 : Zone.inList .upd fs = true ∨ upd = s.upd)
    (h23 : Zone.inList .streams fs = true ∨ streams = s.streams)
    (h24 : Zone.inList .pipes fs = true ∨ pipes = s.pipes)
    (h25 : Zone.inList .il fs = true ∨ il = s.il)
    (h26 : Zone.inList .tkt fs = true ∨ tkt = s.tkt)
    (h27 : Zone.inList .van fs = true ∨ van = s.van)
    (h28 : Zone.inList .free fs = true ∨ free = s.free)
    (h29 : out = s.out ∨ (Zone.inList .out fs = true ∧ s.out <+: out))
    (h30 : pending = s.pending) :
    Keeps fs s0 ⟨s.regs, arr, trv, disp, cs, mem, jt, pcie, part, log, logSeq, repair, sched, kernels, running, pwr, cpl, fab, sm, upd, streams, pipes, il, tkt, van, free, out, pending⟩ where
  only := by
    intro f hf
    have h0 := h.only f hf
    cases f <;> simp only [State.agree, State.reg] at h0 ⊢
    case arr => rcases h1 with h1 | h1; (exact absurd h1 (by simp [hf])); rw [h1, h0]
    case planes =>
      rcases h2 with h2 | h2
      · exact ⟨h2.1.trans h0.1, h2.2.trans h0.2⟩
      · exact absurd h2.1 (by simp [hf])
    case sp =>
      rcases h6 with h2 | h2
      · exact ⟨h2.1.trans h0.1, h2.2.trans h0.2⟩
      · exact absurd h2.1 (by simp [hf])
    case sec =>
      rcases h7 with h2 | h2
      · exact ⟨h2.1.trans h0.1, h2.2.trans h0.2⟩
      · exact absurd h2.1 (by simp [hf])
    case ddr =>
      rcases h8 with h2 | h2
      · exact h2.trans h0
      · exact absurd h2.1 (by simp [hf])
    case memo => rcases h9 with h1 | h1; (exact absurd h1 (by simp [hf])); rw [h1, h0]
    case log =>
      rcases h13 with h2 | h2
      · exact absurd h2 (by simp [hf])
      · exact ⟨h2.1.trans h0.1, h2.2.trans h0.2⟩
    case out =>
      rcases h29 with h2 | h2
      · exact h2.trans h0
      · exact absurd h2.1 (by simp [hf])
    case block b => exact h0
    case trv => rcases h3 with h1 | h1; (exact absurd h1 (by simp [hf])); exact h1.trans h0
    case disp => rcases h4 with h1 | h1; (exact absurd h1 (by simp [hf])); exact h1.trans h0
    case cs => rcases h5 with h1 | h1; (exact absurd h1 (by simp [hf])); exact h1.trans h0
    case jt => rcases h10 with h1 | h1; (exact absurd h1 (by simp [hf])); exact h1.trans h0
    case pcie => rcases h11 with h1 | h1; (exact absurd h1 (by simp [hf])); exact h1.trans h0
    case part => rcases h12 with h1 | h1; (exact absurd h1 (by simp [hf])); exact h1.trans h0
    case repair => rcases h14 with h1 | h1; (exact absurd h1 (by simp [hf])); exact h1.trans h0
    case sched => rcases h15 with h1 | h1; (exact absurd h1 (by simp [hf])); exact h1.trans h0
    case kernels => rcases h16 with h1 | h1; (exact absurd h1 (by simp [hf])); exact h1.trans h0
    case running => rcases h17 with h1 | h1; (exact absurd h1 (by simp [hf])); exact h1.trans h0
    case pwr => rcases h18 with h1 | h1; (exact absurd h1 (by simp [hf])); exact h1.trans h0
    case cpl => rcases h19 with h1 | h1; (exact absurd h1 (by simp [hf])); exact h1.trans h0
    case fab => rcases h20 with h1 | h1; (exact absurd h1 (by simp [hf])); exact h1.trans h0
    case sm => rcases h21 with h1 | h1; (exact absurd h1 (by simp [hf])); exact h1.trans h0
    case upd => rcases h22 with h1 | h1; (exact absurd h1 (by simp [hf])); exact h1.trans h0
    case streams => rcases h23 with h1 | h1; (exact absurd h1 (by simp [hf])); exact h1.trans h0
    case pipes => rcases h24 with h1 | h1; (exact absurd h1 (by simp [hf])); exact h1.trans h0
    case il => rcases h25 with h1 | h1; (exact absurd h1 (by simp [hf])); exact h1.trans h0
    case tkt => rcases h26 with h1 | h1; (exact absurd h1 (by simp [hf])); exact h1.trans h0
    case van => rcases h27 with h1 | h1; (exact absurd h1 (by simp [hf])); exact h1.trans h0
    case free => rcases h28 with h1 | h1; (exact absurd h1 (by simp [hf])); exact h1.trans h0
  canon := by
    intro hc
    have h0 := (canonical_iff s).mp (h.canon hc)
    refine (canonical_iff _).mpr ⟨h0.1, ?_, ?_, ?_, ?_⟩
    · rcases h2 with h2 | h2
      · have h3 := h0.2.1
        simp only [Arr.canonical] at h3 ⊢
        rw [h2.1, h2.2]; exact h3
      · exact h2.2 h0.2.1
    · rcases h6 with h2 | h2
      · simp only [h2.1, h2.2]; exact h0.2.2.1
      · exact h2.2 h0.2.2.1
    · rcases h7 with h2 | h2
      · simp only [h2.1, h2.2]; exact h0.2.2.2.1
      · exact h2.2 h0.2.2.2.1
    · rcases h8 with h2 | h2
      · simp only [h2]; exact h0.2.2.2.2
      · exact h2.2 h0.2.2.2.2
  queue := h30.trans h.queue
  out := by
    rcases h29 with h2 | h2
    · simp only [h2]; exact h.out
    · exact h.out.trans h2.2

/-- A change of the register bank alone. -/
theorem Keeps.updRegs (h : Keeps fs s0 s) {regs : List (Nat × Word)}
    (hr : ∀ a, Zone.inList (.block (blockOf a)) fs = false → Store.get bankDefault regs a = s.reg a)
    (hc : Store.wf bankDefault s.regs = true → Store.wf bankDefault regs = true) :
    Keeps fs s0 { s with regs := regs } where
  only := by
    intro f hf
    have h0 := h.only f hf
    cases f <;> first | exact h0 | skip
    case block b =>
      intro a ha
      have h1 := h0 a ha
      subst ha
      exact (hr a hf).trans h1
  canon := by
    intro hc0
    have h0 := (canonical_iff s).mp (h.canon hc0)
    exact (canonical_iff _).mpr ⟨hc h0.1, h0.2⟩
  queue := h.queue
  out := h.out

theorem setReg_keeps (a : Nat) (v : Word) (h : Keeps fs s0 s) (ha : Zone.inList (.block (blockOf a)) fs = true) :
    Keeps fs s0 (s.setReg a v) := by
  refine h.updRegs ?_ (Store.wf_set bankDefault _ a v)
  intro b hb
  refine Store.get_set_other bankDefault _ v ?_
  rintro rfl
  simp [ha] at hb

theorem setFld_keeps (a hi lo n : Nat) (h : Keeps fs s0 s) (ha : Zone.inList (.block (blockOf a)) fs = true) :
    Keeps fs s0 (s.setFld a hi lo n) := setReg_keeps a _ h ha

theorem setBit_keeps (a n : Nat) (b : Bool) (h : Keeps fs s0 s) (ha : Zone.inList (.block (blockOf a)) fs = true) :
    Keeps fs s0 (s.setBit a n b) := setReg_keeps a _ h ha

theorem satInc_keeps (a hi lo : Nat) (h : Keeps fs s0 s) (ha : Zone.inList (.block (blockOf a)) fs = true) :
    Keeps fs s0 (s.satInc a hi lo) := by
  unfold State.satInc; split
  · exact setFld_keeps _ _ _ _ h ha
  · exact h

theorem codeWrite_keeps (a : Nat) (v : Word) (h : Keeps fs s0 s) (ha : Zone.inList (.block (blockOf a)) fs = true) :
    Keeps fs s0 (s.codeWrite a v) := by
  unfold State.codeWrite; split
  · exact h
  · exact setReg_keeps _ _ h ha

theorem record_keeps (a : Nat) (fill : State → State) (h : Keeps fs s0 s)
    (hf : ∀ s, Keeps fs s0 s → Keeps fs s0 (fill s)) (ha : Zone.inList (.block (blockOf a)) fs = true) :
    Keeps fs s0 (s.record a fill) := by
  unfold State.record; split
  · exact setBit_keeps _ _ _ h ha
  · exact setBit_keeps _ _ _ (hf _ h) ha

theorem keeps_ite {c : Prop} [Decidable c] {a b : State} (ha : Keeps fs s0 a) (hb : Keeps fs s0 b) :
    Keeps fs s0 (if c then a else b) := by split <;> assumption

theorem keeps_ite_fst {β : Type} {c : Prop} [Decidable c] {a b : State × β} (ha : Keeps fs s0 a.1) (hb : Keeps fs s0 b.1) :
    Keeps fs s0 (if c then a else b).1 := by split <;> assumption

theorem keeps_foldl {α : Type} (l : List α) (f : State → α → State) (h : Keeps fs s0 s)
    (hf : ∀ s x, Keeps fs s0 s → Keeps fs s0 (f s x)) : Keeps fs s0 (l.foldl f s) := by
  induction l generalizing s with
  | nil => exact h
  | cons a t ih => exact ih (hf _ _ h)

theorem keeps_foldl_fst {α β : Type} (l : List α) (f : State × β → α → State × β) {p : State × β} (h : Keeps fs s0 p.1)
    (hf : ∀ (p : State × β) x, Keeps fs s0 p.1 → Keeps fs s0 (f p x).1) : Keeps fs s0 (l.foldl f p).1 := by
  induction l generalizing p with
  | nil => exact h
  | cons a t ih => exact ih (hf _ _ h)

/-- A part is in `fs` if it is in a list that `fs` covers. -/
theorem alw {F : List Zone} {f : Zone} (hF : subF F fs = true) (h : f.inList F = true) : f.inList fs = true :=
  inList_of_subF hF h

/-- A key's block is in `fs` if its block is in a list that `fs` covers. -/
theorem alwB {F : List Zone} {a : Nat} (hF : subF F fs = true) (b : Nat) (hb : blockOf a = b)
    (h : Zone.inList (.block b) F = true) : Zone.inList (.block (blockOf a)) fs = true := by
  rw [hb]; exact inList_of_subF hF h

/-- The block of a key that lies between two bounds, in the registers (`k` = 0) or in the copies in force (`k` = 1). -/
theorem blockOf_eq {a : Nat} (b k : Nat) (hb : b < 0x100 ∧ b ≠ 0x14 ∧ b ≠ 0x15)
    (h : k * 0x100000 + b * 0x1000 ≤ a ∧ a < k * 0x100000 + (b + 1) * 0x1000) : blockOf a = b := by
  have : a % 0x100000 / 0x1000 = b := by
    have h1 : a = 0x100000 * k + (a - 0x100000 * k) := by omega
    have h2 : (a - 0x100000 * k) < 0x100000 := by omega
    rw [h1, Nat.mul_add_mod, Nat.mod_eq_of_lt h2]
    omega
  unfold blockOf; rw [this, if_neg hb.2.2]

theorem blockOf_eq14 {a : Nat} (k : Nat) (h : k * 0x100000 + 0x14000 ≤ a ∧ a < k * 0x100000 + 0x16000) : blockOf a = 0x14 := by
  have : a % 0x100000 / 0x1000 = 0x14 ∨ a % 0x100000 / 0x1000 = 0x15 := by
    have h1 : a = 0x100000 * k + (a - 0x100000 * k) := by omega
    have h2 : (a - 0x100000 * k) < 0x100000 := by omega
    rw [h1, Nat.mul_add_mod, Nat.mod_eq_of_lt h2]
    omega
  unfold blockOf; rcases this with h | h <;> simp [h]

/-- A key between the bounds of a block that a list names. -/
theorem alwL {F : List Zone} {a : Nat} (hF : subF F fs = true) (b k : Nat)
    (h : k * 0x100000 + b * 0x1000 ≤ a ∧ a < k * 0x100000 + (b + 1) * 0x1000)
    (hb : b < 0x100 ∧ b ≠ 0x14 ∧ b ≠ 0x15 := by decide) (hm : Zone.inList (.block b) F = true := by decide) :
    Zone.inList (.block (blockOf a)) fs = true := alwB hF b (blockOf_eq b k hb h) hm

/-- A key of the cameras and display pipes. -/
theorem alwL14 {F : List Zone} {a : Nat} (hF : subF F fs = true) (k : Nat)
    (h : k * 0x100000 + 0x14000 ≤ a ∧ a < k * 0x100000 + 0x16000)
    (hm : Zone.inList (.block 0x14) F = true := by decide) :
    Zone.inList (.block (blockOf a)) fs = true := alwB hF 0x14 (blockOf_eq14 k h) hm

theorem keeps_mk_fst {β : Type} {a : State} {b : β} (h : Keeps fs s0 a) : Keeps fs s0 (a, b).1 := h

/-- Every block is in a list that names all registers. -/
theorem alwR {F : List Zone} {a : Nat} (hF : subF F fs = true) (h : F.contains .regs = true) :
    Zone.inList (.block (blockOf a)) fs = true :=
  inList_of_subF hF (by simp [Zone.inList, List.contains_iff_mem.mp h])

end Sys2Proof.Machine
end

