-- ==== Sys2Proof/Laws/KeepsOps.lean ====
section
/-! SUPPORT. What each operation of Machine/Ops.lean can change, one lemma an operation (Laws/KeepsBase.lean). -/

-- elaborated one declaration at a time, so that the package compiles as one text in bounded memory
set_option Elab.async false

namespace Sys2Proof.Machine

theorem State.useFree_keeps {fs : List Zone} {s0 : State} (s : State) (h1 : Keeps fs s0 s) (hF : subF [.free] fs = true) :
    Keeps fs s0 (State.useFree s) := by
  unfold State.useFree
  refine Keeps.upd ?_ (.inr rfl) (.inl ⟨rfl, rfl⟩) (.inr rfl) (.inr rfl) (.inr rfl) (.inl ⟨rfl, rfl⟩) (.inl ⟨rfl, rfl⟩) (.inl rfl) (.inr rfl) (.inr rfl) (.inr rfl) (.inr rfl) (.inr ⟨rfl, rfl⟩) (.inr rfl) (.inr rfl) (.inr rfl) (.inr rfl) (.inr rfl) (.inr rfl) (.inr rfl) (.inr rfl) (.inr rfl) (.inr rfl) (.inr rfl) (.inr rfl) (.inr rfl) (.inr rfl) (.inl (alw hF (by decide))) (.inl rfl) rfl
  exact h1

theorem State.emit_keeps {fs : List Zone} {s0 : State} (s : State) (o : Out) (h1 : Keeps fs s0 s) (hF : subF [.out] fs = true) :
    Keeps fs s0 (State.emit s o) := by
  unfold State.emit
  refine Keeps.upd ?_ (.inr rfl) (.inl ⟨rfl, rfl⟩) (.inr rfl) (.inr rfl) (.inr rfl) (.inl ⟨rfl, rfl⟩) (.inl ⟨rfl, rfl⟩) (.inl rfl) (.inr rfl) (.inr rfl) (.inr rfl) (.inr rfl) (.inr ⟨rfl, rfl⟩) (.inr rfl) (.inr rfl) (.inr rfl) (.inr rfl) (.inr rfl) (.inr rfl) (.inr rfl) (.inr rfl) (.inr rfl) (.inr rfl) (.inr rfl) (.inr rfl) (.inr rfl) (.inr rfl) (.inr rfl) (.inr ⟨alw hF (by decide), List.prefix_append _ _⟩) rfl
  exact h1

theorem State.vecUpdate_keeps {fs : List Zone} {s0 : State} (s : State) (v : ℕ) (h1 : Keeps fs s0 s) (hF : subF [.block 1, .out] fs = true) :
    Keeps fs s0 (State.vecUpdate s v) := by
  unfold State.vecUpdate
  refine keeps_ite ?_ ?_
  · refine keeps_ite ?_ ?_
    · exact h1
    · refine keeps_ite ?_ ?_
      · refine setBit_keeps _ _ _ ?_ (alwL hF 1 0 (by simp only [vecReg, Reg.MSIX_PBA]; omega))
        exact h1
      · refine State.emit_keeps _ _ ?_ (subF_trans (by decide) hF)
        refine setBit_keeps _ _ _ ?_ (alwL hF 1 0 (by simp only [vecReg, Reg.IC_HINSVC]; omega))
        refine setBit_keeps _ _ _ ?_ (alwL hF 1 0 (by simp only [vecReg, Reg.MSIX_PBA]; omega))
        exact h1
  · refine setBit_keeps _ _ _ ?_ (alwL hF 1 0 (by simp only [vecReg, Reg.MSIX_PBA]; omega))
    exact h1

theorem State.vecUpdateAll_keeps {fs : List Zone} {s0 : State} (s : State) (h1 : Keeps fs s0 s) (hF : subF [.block 1, .out] fs = true) :
    Keeps fs s0 (State.vecUpdateAll s) := by
  unfold State.vecUpdateAll
  refine keeps_foldl _ _ ?_ ?_
  · exact h1
  · intro z0 z2 h1
    refine State.vecUpdate_keeps _ _ ?_ (subF_trans (by decide) hF)
    exact h1

theorem State.fire_keeps {fs : List Zone} {s0 : State} (s : State) (i : ℕ) (h1 : Keeps fs s0 s) (hF : subF [.block 1, .out] fs = true) :
    Keeps fs s0 (State.fire s i) := by
  unfold State.fire
  extract_lets -merge -underBinder y3 y4
  have k5 : Keeps fs s0 y4 := by
    refine keeps_ite ?_ ?_
    · refine setBit_keeps _ _ _ ?_ (alwL hF 1 0 (by simp only [icReg, Reg.IC_LOST]; omega))
      exact h1
    · refine setBit_keeps _ _ _ ?_ (alwL hF 1 0 (by simp only [icReg, Reg.IC_PEND]; omega))
      exact h1
  split
  · exact k5
  · refine State.vecUpdate_keeps _ _ ?_ (subF_trans (by decide) hF)
    refine setBit_keeps _ _ _ ?_ (alwL hF 1 0 (by simp only [icReg, Reg.IC_HPEND]; omega))
    exact k5

theorem State.fireIf_keeps {fs : List Zone} {s0 : State} (s : State) (c : Bool) (i : ℕ) (h1 : Keeps fs s0 s) (hF : subF [.block 1, .out] fs = true) :
    Keeps fs s0 (State.fireIf s c i) := by
  unfold State.fireIf
  refine keeps_ite ?_ ?_
  · refine State.fire_keeps _ _ ?_ (subF_trans (by decide) hF)
    exact h1
  · exact h1

theorem State.logCE_keeps {fs : List Zone} {s0 : State} (s : State) (k : ℕ) (addr : ℕ) (syn : ℕ) (h1 : Keeps fs s0 s) (hF : subF [.block 8] fs = true) :
    Keeps fs s0 (State.logCE s k addr syn) := by
  unfold State.logCE
  extract_lets -merge -underBinder y6 y7 y8 y9
  have k10 : Keeps fs s0 y9 := by
    refine setReg_keeps _ _ ?_ (alwL hF 8 0 (by simp only [y8, y7, y6, kindReg, Reg.LOG_HI]; omega))
    refine setReg_keeps _ _ ?_ (alwL hF 8 0 (by simp only [y8, y7, y6, kindReg, Reg.LOG_LO]; omega))
    exact h1
  refine keeps_ite ?_ ?_
  · refine setBit_keeps _ _ _ ?_ (alwL hF 8 0 (by simp only [kindReg, Reg.LOG_STAT]; omega))
    refine setFld_keeps _ _ _ _ ?_ (alwL hF 8 0 (by simp only [kindReg, Reg.LOG_STAT]; omega))
    exact k10
  · refine setFld_keeps _ _ _ _ ?_ (alwL hF 8 0 (by simp only [kindReg, Reg.LOG_STAT]; omega))
    exact k10

theorem State.bucketUp_keeps {fs : List Zone} {s0 : State} (s : State) (k : ℕ) (h1 : Keeps fs s0 s) (hF : subF [.block 1, .out, .block 8] fs = true) :
    Keeps fs s0 (State.bucketUp s k) := by
  unfold State.bucketUp
  refine keeps_ite ?_ ?_
  · exact h1
  · refine keeps_ite ?_ ?_
    · refine State.fire_keeps _ _ ?_ (subF_trans (by decide) hF)
      refine setBit_keeps _ _ _ ?_ (alwL hF 8 0 (by simp only [kindReg, Reg.BKT_STAT]; omega))
      refine setFld_keeps _ _ _ _ ?_ (alwL hF 8 0 (by simp only [kindReg, Reg.BKT_STAT]; omega))
      exact h1
    · refine setFld_keeps _ _ _ _ ?_ (alwL hF 8 0 (by simp only [kindReg, Reg.BKT_STAT]; omega))
      exact h1

theorem State.countCE_keeps {fs : List Zone} {s0 : State} (s : State) (k : ℕ) (addr : ℕ) (syn : ℕ) (h1 : Keeps fs s0 s) (hF : subF [.block 1, .out, .block 8] fs = true) :
    Keeps fs s0 (State.countCE s k addr syn) := by
  unfold State.countCE
  refine State.bucketUp_keeps _ _ ?_ (subF_trans (by decide) hF)
  refine State.logCE_keeps _ _ _ _ ?_ (subF_trans (by decide) hF)
  refine satInc_keeps _ _ _ ?_ (alwL hF 8 0 (by simp only [kindReg, Reg.CE_COUNT]; omega))
  exact h1

theorem State.countUE_keeps {fs : List Zone} {s0 : State} (s : State) (k : ℕ) (addr : ℕ) (syn : ℕ) (h1 : Keeps fs s0 s) (hF : subF [.block 8] fs = true) :
    Keeps fs s0 (State.countUE s k addr syn) := by
  unfold State.countUE
  refine record_keeps _ _ ?_ ?_ (alwL hF 8 0 (by simp only [kindReg, Reg.UE_HI]; omega))
  · refine satInc_keeps _ _ _ ?_ (alwL hF 8 0 (by simp only [kindReg, Reg.UE_COUNT]; omega))
    exact h1
  · intro z11 h12
    refine setFld_keeps _ _ _ _ ?_ (alwL hF 8 0 (by simp only [kindReg, Reg.UE_HI]; omega))
    refine setFld_keeps _ _ _ _ ?_ (alwL hF 8 0 (by simp only [kindReg, Reg.UE_HI]; omega))
    refine setReg_keeps _ _ ?_ (alwL hF 8 0 (by simp only [kindReg, Reg.UE_LO]; omega))
    exact h12

theorem State.logEvent_keeps {fs : List Zone} {s0 : State} (s : State) (code : ℕ) (detail : ℕ) (detail2 : ℕ) (h1 : Keeps fs s0 s) (hF : subF [.log, .free] fs = true) :
    Keeps fs s0 (State.logEvent s code detail detail2) := by
  unfold State.logEvent
  extract_lets -merge -underBinder y13
  refine Keeps.upd ?_ (.inr rfl) (.inl ⟨rfl, rfl⟩) (.inr rfl) (.inr rfl) (.inr rfl) (.inl ⟨rfl, rfl⟩) (.inl ⟨rfl, rfl⟩) (.inl rfl) (.inr rfl) (.inr rfl) (.inr rfl) (.inr rfl) (.inl (alw hF (by decide))) (.inr rfl) (.inr rfl) (.inr rfl) (.inr rfl) (.inr rfl) (.inr rfl) (.inr rfl) (.inr rfl) (.inr rfl) (.inr rfl) (.inr rfl) (.inr rfl) (.inr rfl) (.inr rfl) (.inl (alw hF (by decide))) (.inl rfl) rfl
  exact h1

theorem State.pwrBegin_keeps {fs : List Zone} {s0 : State} (s : State) (ph : PwrPhase) (target : ℕ) (h1 : Keeps fs s0 s) (hF : subF [.block 2, .pwr] fs = true) :
    Keeps fs s0 (State.pwrBegin s ph target) := by
  unfold State.pwrBegin
  extract_lets -merge -underBinder y14
  refine setFld_keeps _ _ _ _ ?_ (alwB hF 2 rfl (by decide))
  refine setBit_keeps _ _ _ ?_ (alwB hF 2 rfl (by decide))
  refine Keeps.upd ?_ (.inr rfl) (.inl ⟨rfl, rfl⟩) (.inr rfl) (.inr rfl) (.inr rfl) (.inl ⟨rfl, rfl⟩) (.inl ⟨rfl, rfl⟩) (.inl rfl) (.inr rfl) (.inr rfl) (.inr rfl) (.inr rfl) (.inr ⟨rfl, rfl⟩) (.inr rfl) (.inr rfl) (.inr rfl) (.inr rfl) (.inl (alw hF (by decide))) (.inr rfl) (.inr rfl) (.inr rfl) (.inr rfl) (.inr rfl) (.inr rfl) (.inr rfl) (.inr rfl) (.inr rfl) (.inr rfl) (.inl rfl) rfl
  exact h1

theorem State.pwrLatch_keeps {fs : List Zone} {s0 : State} (s : State) (target : ℕ) (h1 : Keeps fs s0 s) (hF : subF [.block 1, .out, .block 2] fs = true) :
    Keeps fs s0 (State.pwrLatch s target) := by
  unfold State.pwrLatch
  refine State.fire_keeps _ _ ?_ (subF_trans (by decide) hF)
  refine setFld_keeps _ _ _ _ ?_ (alwB hF 2 rfl (by decide))
  refine setBit_keeps _ _ _ ?_ (alwB hF 2 rfl (by decide))
  exact h1

theorem State.pwrToRun_keeps {fs : List Zone} {s0 : State} (s : State) (h1 : Keeps fs s0 s) (hF : subF [.block 2, .pwr, .block 1, .out] fs = true) :
    Keeps fs s0 (State.pwrToRun s) := by
  unfold State.pwrToRun
  split
  · refine keeps_ite ?_ ?_
    · refine State.pwrBegin_keeps _ _ _ ?_ (subF_trans (by decide) hF)
      exact h1
    · exact h1
  · refine keeps_ite ?_ ?_
    · refine State.pwrLatch_keeps _ _ ?_ (subF_trans (by decide) hF)
      exact h1
    · exact h1
  · refine keeps_ite ?_ ?_
    · refine State.pwrLatch_keeps _ _ ?_ (subF_trans (by decide) hF)
      exact h1
    · exact h1
  · exact h1

end Sys2Proof.Machine
end

