-- ==== Sys2Proof/Laws/KeepsArray.lean ====
section
/-! SUPPORT. What each operation of Machine/Array.lean can change, one lemma an operation (Laws/KeepsBase.lean). -/

-- elaborated one declaration at a time, so that the package compiles as one text in bounded memory
set_option Elab.async false

namespace Sys2Proof.Machine

theorem State.setPlaneCells_keeps {fs : List Zone} {s0 : State} (s : State) (a : ℕ) (cells : List (Option Word74)) (h1 : Keeps fs s0 s) (hF : subF [.planes] fs = true) :
    Keeps fs s0 (State.setPlaneCells s a cells) := by
  unfold State.setPlaneCells
  extract_lets -merge -underBinder new
  refine Keeps.upd h1 (.inr rfl) (.inr ⟨alw hF (by decide), ?_⟩) (.inr rfl) (.inr rfl) (.inr rfl) (.inl ⟨rfl, rfl⟩) (.inl ⟨rfl, rfl⟩) (.inl rfl) (.inr rfl) (.inr rfl) (.inr rfl) (.inr rfl) (.inr ⟨rfl, rfl⟩) (.inr rfl) (.inr rfl) (.inr rfl) (.inr rfl) (.inr rfl) (.inr rfl) (.inr rfl) (.inr rfl) (.inr rfl) (.inr rfl) (.inr rfl) (.inr rfl) (.inr rfl) (.inr rfl) (.inr rfl) (.inl rfl) rfl
  intro hc
  simp only [Arr.canonical, Bool.and_eq_true, List.all_eq_true] at hc ⊢
  refine ⟨Store.wf_set _ _ _ _ hc.1, ?_⟩
  intro e he
  rcases Store.mem_set _ he with rfl | he
  · exact Store.wf_sparse _ _ _
  · exact hc.2 e he

theorem State.arrEvent_keeps {fs : List Zone} {s0 : State} (s : State) (bitNo : ℕ) (p : ℕ) (row : ℕ) (addr : Option (ℕ × ℕ)) (h1 : Keeps fs s0 s) (hF : subF [.block 16] fs = true) :
    Keeps fs s0 (State.arrEvent s bitNo p row addr) := by
  unfold State.arrEvent
  extract_lets -merge -underBinder y17
  have k18 : Keeps fs s0 y17 := by
    refine setBit_keeps _ _ _ ?_ (alwB hF 16 rfl (by decide))
    refine setFld_keeps _ _ _ _ ?_ (alwB hF 16 rfl (by decide))
    refine setFld_keeps _ _ _ _ ?_ (alwB hF 16 rfl (by decide))
    exact h1
  refine keeps_ite ?_ ?_
  · refine setBit_keeps _ _ _ ?_ (alwB hF 16 rfl (by decide))
    refine setBit_keeps _ _ _ ?_ (alwB hF 16 rfl (by decide))
    exact h1
  · split
    · refine setFld_keeps _ _ _ _ ?_ (alwB hF 16 rfl (by decide))
      refine setFld_keeps _ _ _ _ ?_ (alwB hF 16 rfl (by decide))
      exact k18
    · exact k18

theorem State.ackTimeout_keeps {fs : List Zone} {s0 : State} (s : State) (p : ℕ) (h1 : Keeps fs s0 s) (hF : subF [.block 1, .out, .block 16, .arr] fs = true) :
    Keeps fs s0 (State.ackTimeout s p) := by
  unfold State.ackTimeout
  extract_lets -merge -underBinder y19 y20
  have k21 : Keeps fs s0 y19 := by
    refine State.fire_keeps _ _ ?_ (subF_trans (by decide) hF)
    refine State.arrEvent_keeps _ _ _ _ _ ?_ (subF_trans (by decide) hF)
    exact h1
  refine Keeps.upd ?_ (.inl (alw hF (by decide))) (.inl ⟨rfl, rfl⟩) (.inr rfl) (.inr rfl) (.inr rfl) (.inl ⟨rfl, rfl⟩) (.inl ⟨rfl, rfl⟩) (.inl rfl) (.inr rfl) (.inr rfl) (.inr rfl) (.inr rfl) (.inr ⟨rfl, rfl⟩) (.inr rfl) (.inr rfl) (.inr rfl) (.inr rfl) (.inr rfl) (.inr rfl) (.inr rfl) (.inr rfl) (.inr rfl) (.inr rfl) (.inr rfl) (.inr rfl) (.inr rfl) (.inr rfl) (.inr rfl) (.inl rfl) rfl
  exact k21

theorem State.colMonitor_keeps {fs : List Zone} {s0 : State} (s : State) (p : ℕ) (cols : List ℕ) (h1 : Keeps fs s0 s) (hF : subF [.block 16, .block 1, .out] fs = true) :
    Keeps fs s0 (State.colMonitor s p cols) := by
  unfold State.colMonitor
  extract_lets -merge -underBinder y22 y23 y24 y25 y26
  have k27 : Keeps fs s0 y26 := by
    refine setFld_keeps _ _ _ _ ?_ (alwL hF 16 0 (by simp only [y22, colmonReg, Reg.COLMON]; omega))
    refine setFld_keeps _ _ _ _ ?_ (alwL hF 16 0 (by simp only [y22, colmonReg, Reg.COLMON]; omega))
    exact h1
  refine keeps_ite ?_ ?_
  · exact h1
  · refine State.fireIf_keeps _ _ _ ?_ (subF_trans (by decide) hF)
    exact k27

theorem State.countFixed_keeps {fs : List Zone} {s0 : State} (s : State) (p : ℕ) (ns : List Note) (h1 : Keeps fs s0 s) (hF : subF [.block 16, .block 1, .out, .block 8] fs = true) :
    Keeps fs s0 (State.countFixed s p ns) := by
  unfold State.countFixed
  extract_lets -merge -underBinder y28 y29
  try clear_value y29
  split
  · exact h1
  · extract_lets -merge -underBinder y30
    refine State.colMonitor_keeps _ _ _ ?_ (subF_trans (by decide) hF)
    refine State.countCE_keeps _ _ _ _ ?_ (subF_trans (by decide) hF)
    exact h1

theorem State.handleBad_keeps {fs : List Zone} {s0 : State} (s : State) (n : Note) (h1 : Keeps fs s0 s) (hF : subF [.block 8, .block 16, .block 1, .out, .arr] fs = true) :
    Keeps fs s0 (State.handleBad s n) := by
  unfold State.handleBad
  split
  · refine keeps_ite ?_ ?_
    · refine keeps_ite ?_ ?_
      · refine State.countUE_keeps _ _ _ _ ?_ (subF_trans (by decide) hF)
        refine setBit_keeps _ _ _ ?_ (alwB hF 16 rfl (by decide))
        exact h1
      · refine State.fire_keeps _ _ ?_ (subF_trans (by decide) hF)
        refine State.arrEvent_keeps _ _ _ _ _ ?_ (subF_trans (by decide) hF)
        refine State.countUE_keeps _ _ _ _ ?_ (subF_trans (by decide) hF)
        exact h1
    · refine State.ackTimeout_keeps _ _ ?_ (subF_trans (by decide) hF)
      exact h1
  · exact h1

theorem State.account_keeps {fs : List Zone} {s0 : State} (s : State) (ns : List Note) (h1 : Keeps fs s0 s) (hF : subF [.block 8, .block 16, .block 1, .out, .arr] fs = true) :
    Keeps fs s0 (State.account s ns) := by
  unfold State.account
  refine keeps_ite ?_ ?_
  · exact h1
  · refine keeps_foldl _ _ ?_ ?_
    · refine keeps_foldl _ _ ?_ ?_
      · exact h1
      · intro z34 z36 h35
        refine State.countFixed_keeps _ _ _ ?_ (subF_trans (by decide) hF)
        exact h35
    · intro z31 z33 h32
      refine State.handleBad_keeps _ _ ?_ (subF_trans (by decide) hF)
      exact h32

theorem State.writePlane_keeps {fs : List Zone} {s0 : State} (s : State) (a : ℕ) (ex : ℕ → Bool) (gate : ℕ → Lanes) (val : ℕ → Lanes) (h1 : Keeps fs s0 s) (hF : subF [.planes] fs = true) :
    Keeps fs s0 (State.writePlane s a ex gate val).1 := by
  unfold State.writePlane
  extract_lets -merge -underBinder y37 y38 y39 y40 y41 y42 y43
  refine keeps_mk_fst ?_
  refine State.setPlaneCells_keeps _ _ _ ?_ (subF_trans (by decide) hF)
  exact h1

theorem State.copyStates_keeps {fs : List Zone} {s0 : State} (s : State) (h1 : Keeps fs s0 s) (hF : subF [.planes] fs = true) :
    Keeps fs s0 (State.copyStates s) := by
  unfold State.copyStates
  extract_lets -merge -underBinder y44 y45 y46 y47 y48
  refine keeps_ite ?_ ?_
  · exact h1
  · refine keeps_foldl _ _ ?_ ?_
    · exact h1
    · intro z49 z51 h50
      extract_lets -merge -underBinder y52 y53
      refine State.setPlaneCells_keeps _ _ _ ?_ (subF_trans (by decide) hF)
      exact h50

theorem State.mirrorPlane_keeps {fs : List Zone} {s0 : State} (s : State) (a : ℕ) (h1 : Keeps fs s0 s) (hF : subF [.planes] fs = true) :
    Keeps fs s0 (State.mirrorPlane s a) := by
  unfold State.mirrorPlane
  extract_lets -merge -underBinder y54 y55 y56 y57
  refine keeps_ite ?_ ?_
  · refine State.setPlaneCells_keeps _ _ _ ?_ (subF_trans (by decide) hF)
    exact h1
  · exact h1

theorem State.sweepAt_keeps {fs : List Zone} {s0 : State} (s : State) (a : ℕ) (h1 : Keeps fs s0 s) (hF : subF [.arr, .block 16] fs = true) :
    Keeps fs s0 (State.sweepAt s a) := by
  unfold State.sweepAt
  extract_lets -merge -underBinder y58 y59 y60
  have k61 : Keeps fs s0 y58 := by
    refine keeps_foldl _ _ ?_ ?_
    · exact h1
    · intro z62 z64 h63
      extract_lets -merge -underBinder y65 y66
      have k67 : Keeps fs s0 y66 := by
        refine Keeps.upd ?_ (.inl (alw hF (by decide))) (.inl ⟨rfl, rfl⟩) (.inr rfl) (.inr rfl) (.inr rfl) (.inl ⟨rfl, rfl⟩) (.inl ⟨rfl, rfl⟩) (.inl rfl) (.inr rfl) (.inr rfl) (.inr rfl) (.inr rfl) (.inr ⟨rfl, rfl⟩) (.inr rfl) (.inr rfl) (.inr rfl) (.inr rfl) (.inr rfl) (.inr rfl) (.inr rfl) (.inr rfl) (.inr rfl) (.inr rfl) (.inr rfl) (.inr rfl) (.inr rfl) (.inr rfl) (.inr rfl) (.inl rfl) rfl
        exact h63
      refine keeps_ite ?_ ?_
      · refine keeps_ite ?_ ?_
        · refine setBit_keeps _ _ _ ?_ (alwL hF 16 0 (by simp only [colSubReg, Reg.COL_SUB]; omega))
          exact k67
        · exact k67
      · exact h63
  have k68 : Keeps fs s0 y60 := by
    refine Keeps.upd ?_ (.inl (alw hF (by decide))) (.inl ⟨rfl, rfl⟩) (.inr rfl) (.inr rfl) (.inr rfl) (.inl ⟨rfl, rfl⟩) (.inl ⟨rfl, rfl⟩) (.inl rfl) (.inr rfl) (.inr rfl) (.inr rfl) (.inr rfl) (.inr ⟨rfl, rfl⟩) (.inr rfl) (.inr rfl) (.inr rfl) (.inr rfl) (.inr rfl) (.inr rfl) (.inr rfl) (.inr rfl) (.inr rfl) (.inr rfl) (.inr rfl) (.inr rfl) (.inr rfl) (.inr rfl) (.inr rfl) (.inl rfl) rfl
    exact k61
  refine keeps_ite ?_ ?_
  · refine keeps_ite ?_ ?_
    · refine setBit_keeps _ _ _ ?_ (alwB hF 16 rfl (by decide))
      exact k68
    · exact k68
  · exact k61

theorem State.deliverOr_keeps {fs : List Zone} {s0 : State} (s : State) (h1 : Keeps fs s0 s) (hF : subF [.arr, .block 3, .disp, .block 1, .out] fs = true) :
    Keeps fs s0 (State.deliverOr s) := by
  unfold State.deliverOr
  split
  · exact h1
  · split
    · exact h1
    · extract_lets -merge -underBinder y69 y70 y71 y72 y73
      have k74 : Keeps fs s0 y70 := by
        refine Keeps.upd ?_ (.inl (alw hF (by decide))) (.inl ⟨rfl, rfl⟩) (.inr rfl) (.inr rfl) (.inr rfl) (.inl ⟨rfl, rfl⟩) (.inl ⟨rfl, rfl⟩) (.inl rfl) (.inr rfl) (.inr rfl) (.inr rfl) (.inr rfl) (.inr ⟨rfl, rfl⟩) (.inr rfl) (.inr rfl) (.inr rfl) (.inr rfl) (.inr rfl) (.inr rfl) (.inr rfl) (.inr rfl) (.inr rfl) (.inr rfl) (.inr rfl) (.inr rfl) (.inr rfl) (.inr rfl) (.inr rfl) (.inl rfl) rfl
        exact h1
      have k75 : Keeps fs s0 y71 := by
        refine setBit_keeps _ _ _ ?_ (alwB hF 3 rfl (by decide))
        refine setFld_keeps _ _ _ _ ?_ (alwB hF 3 rfl (by decide))
        exact k74
      have k76 : Keeps fs s0 y73 := by
        refine Keeps.upd ?_ (.inr rfl) (.inl ⟨rfl, rfl⟩) (.inr rfl) (.inl (alw hF (by decide))) (.inr rfl) (.inl ⟨rfl, rfl⟩) (.inl ⟨rfl, rfl⟩) (.inl rfl) (.inr rfl) (.inr rfl) (.inr rfl) (.inr rfl) (.inr ⟨rfl, rfl⟩) (.inr rfl) (.inr rfl) (.inr rfl) (.inr rfl) (.inr rfl) (.inr rfl) (.inr rfl) (.inr rfl) (.inr rfl) (.inr rfl) (.inr rfl) (.inr rfl) (.inr rfl) (.inr rfl) (.inr rfl) (.inl rfl) rfl
        exact k75
      refine State.fireIf_keeps _ _ _ ?_ (subF_trans (by decide) hF)
      exact k76

theorem State.retireSnaps_keeps {fs : List Zone} {s0 : State} (x1 : ℕ) (x2 : State) (h2 : Keeps fs s0 x2) (hF : subF [.block 3, .arr] fs = true) :
    Keeps fs s0 (State.retireSnaps x1 x2) := by
  induction x1 generalizing x2 with
  | zero => exact h2
  | succ i ih =>
    unfold State.retireSnaps
    split
    · split
      · apply ih
        refine setFld_keeps _ _ _ _ ?_ (alwB hF 3 rfl (by decide))
        refine Keeps.upd h2 (.inl (alw hF (by decide))) (.inl ⟨rfl, rfl⟩) (.inr rfl) (.inr rfl) (.inr rfl) (.inl ⟨rfl, rfl⟩) (.inl ⟨rfl, rfl⟩) (.inl rfl) (.inr rfl) (.inr rfl) (.inr rfl) (.inr rfl) (.inr ⟨rfl, rfl⟩) (.inr rfl) (.inr rfl) (.inr rfl) (.inr rfl) (.inr rfl) (.inr rfl) (.inr rfl) (.inr rfl) (.inr rfl) (.inr rfl) (.inr rfl) (.inr rfl) (.inr rfl) (.inr rfl) (.inr rfl) (.inl rfl) rfl
      · exact h2
    · exact h2

theorem State.deliverFirst_keeps {fs : List Zone} {s0 : State} (s : State) (h1 : Keeps fs s0 s) (hF : subF [.arr, .block 3] fs = true) :
    Keeps fs s0 (State.deliverFirst s) := by
  unfold State.deliverFirst
  split
  · exact h1
  · split
    · exact h1
    · extract_lets -merge -underBinder y77 y78
      have k79 : Keeps fs s0 y78 := by
        refine Keeps.upd ?_ (.inl (alw hF (by decide))) (.inl ⟨rfl, rfl⟩) (.inr rfl) (.inr rfl) (.inr rfl) (.inl ⟨rfl, rfl⟩) (.inl ⟨rfl, rfl⟩) (.inl rfl) (.inr rfl) (.inr rfl) (.inr rfl) (.inr rfl) (.inr ⟨rfl, rfl⟩) (.inr rfl) (.inr rfl) (.inr rfl) (.inr rfl) (.inr rfl) (.inr rfl) (.inr rfl) (.inr rfl) (.inr rfl) (.inr rfl) (.inr rfl) (.inr rfl) (.inr rfl) (.inr rfl) (.inr rfl) (.inl rfl) rfl
        exact h1
      refine setFld_keeps _ _ _ _ ?_ (alwB hF 3 rfl (by decide))
      refine setFld_keeps _ _ _ _ ?_ (alwB hF 3 rfl (by decide))
      refine setBit_keeps _ _ _ ?_ (alwB hF 3 rfl (by decide))
      refine setFld_keeps _ _ _ _ ?_ (alwB hF 3 rfl (by decide))
      exact k79

theorem State.deliverCount_keeps {fs : List Zone} {s0 : State} (s : State) (h1 : Keeps fs s0 s) (hF : subF [.arr, .block 3] fs = true) :
    Keeps fs s0 (State.deliverCount s) := by
  unfold State.deliverCount
  split
  · exact h1
  · split
    · exact h1
    · extract_lets -merge -underBinder y80 y81
      have k82 : Keeps fs s0 y81 := by
        refine Keeps.upd ?_ (.inl (alw hF (by decide))) (.inl ⟨rfl, rfl⟩) (.inr rfl) (.inr rfl) (.inr rfl) (.inl ⟨rfl, rfl⟩) (.inl ⟨rfl, rfl⟩) (.inl rfl) (.inr rfl) (.inr rfl) (.inr rfl) (.inr rfl) (.inr ⟨rfl, rfl⟩) (.inr rfl) (.inr rfl) (.inr rfl) (.inr rfl) (.inr rfl) (.inr rfl) (.inr rfl) (.inr rfl) (.inr rfl) (.inr rfl) (.inr rfl) (.inr rfl) (.inr rfl) (.inr rfl) (.inr rfl) (.inl rfl) rfl
        exact h1
      refine setFld_keeps _ _ _ _ ?_ (alwB hF 3 rfl (by decide))
      refine setFld_keeps _ _ _ _ ?_ (alwB hF 3 rfl (by decide))
      exact k82

theorem State.snapshot_keeps {fs : List Zone} {s0 : State} (s : State) (h1 : Keeps fs s0 s) (hF : subF [.block 3, .arr, .disp, .block 1, .out] fs = true) :
    Keeps fs s0 (State.snapshot s) := by
  unfold State.snapshot
  extract_lets -merge -underBinder y83 y84 y85 y86 y87 y88 y89
  have k90 : Keeps fs s0 y83 := by
    refine keeps_ite ?_ ?_
    · refine State.retireSnaps_keeps _ _ ?_ (subF_trans (by decide) hF)
      refine State.deliverCount_keeps _ ?_ (subF_trans (by decide) hF)
      refine State.deliverFirst_keeps _ ?_ (subF_trans (by decide) hF)
      refine State.deliverOr_keeps _ ?_ (subF_trans (by decide) hF)
      exact h1
    · exact h1
  refine setFld_keeps _ _ _ _ ?_ (alwB hF 3 rfl (by decide))
  refine Keeps.upd ?_ (.inl (alw hF (by decide))) (.inl ⟨rfl, rfl⟩) (.inr rfl) (.inr rfl) (.inr rfl) (.inl ⟨rfl, rfl⟩) (.inl ⟨rfl, rfl⟩) (.inl rfl) (.inr rfl) (.inr rfl) (.inr rfl) (.inr rfl) (.inr ⟨rfl, rfl⟩) (.inr rfl) (.inr rfl) (.inr rfl) (.inr rfl) (.inr rfl) (.inr rfl) (.inr rfl) (.inr rfl) (.inr rfl) (.inr rfl) (.inr rfl) (.inr rfl) (.inr rfl) (.inr rfl) (.inr rfl) (.inl rfl) rfl
  exact k90

theorem State.latchEdges_keeps {fs : List Zone} {s0 : State} (s : State) (h1 : Keeps fs s0 s) (hF : subF [.block 16] fs = true) :
    Keeps fs s0 (State.latchEdges s) := by
  unfold State.latchEdges
  refine keeps_ite ?_ ?_
  · exact h1
  · refine setFld_keeps _ _ _ _ ?_ (alwB hF 16 rfl (by decide))
    refine setFld_keeps _ _ _ _ ?_ (alwB hF 16 rfl (by decide))
    exact h1

theorem State.spend_keeps {fs : List Zone} {s0 : State} (s : State) (n : ℕ) (h1 : Keeps fs s0 s) (hF : subF [.block 16, .arr] fs = true) :
    Keeps fs s0 (State.spend s n) := by
  unfold State.spend
  extract_lets -merge -underBinder y91
  refine setBit_keeps _ _ _ ?_ (alwB hF 16 rfl (by decide))
  refine Keeps.upd ?_ (.inl (alw hF (by decide))) (.inl ⟨rfl, rfl⟩) (.inr rfl) (.inr rfl) (.inr rfl) (.inl ⟨rfl, rfl⟩) (.inl ⟨rfl, rfl⟩) (.inl rfl) (.inr rfl) (.inr rfl) (.inr rfl) (.inr rfl) (.inr ⟨rfl, rfl⟩) (.inr rfl) (.inr rfl) (.inr rfl) (.inr rfl) (.inr rfl) (.inr rfl) (.inr rfl) (.inr rfl) (.inr rfl) (.inr rfl) (.inr rfl) (.inr rfl) (.inr rfl) (.inr rfl) (.inr rfl) (.inl rfl) rfl
  exact h1

theorem State.bitStep_keeps {fs : List Zone} {s0 : State} (s : State) (d : Desc) (h1 : Keeps fs s0 s) (hF : subF [.planes, .arr, .block 16, .free, .block 8, .block 1, .out, .block 3, .disp] fs = true) :
    Keeps fs s0 (State.bitStep s d) := by
  unfold State.bitStep
  extract_lets -merge -underBinder y92 y93 y94 y95 y96 y97 y98 y99 y100 y101 y102 y103 y104 y105 y106 y107 y108 y109 y110 y111 y112 y113 y114 y115 y116 y117 y118 y119 y120
  have k121 : Keeps fs s0 y112.1 := by
    refine keeps_ite_fst ?_ ?_
    · refine State.writePlane_keeps _ _ _ _ _ ?_ (subF_trans (by decide) hF)
      exact h1
    · refine keeps_mk_fst ?_
      exact h1
  have k122 : Keeps fs s0 y113.1 := by
    refine keeps_ite_fst ?_ ?_
    · refine State.writePlane_keeps _ _ _ _ _ ?_ (subF_trans (by decide) hF)
      exact k121
    · refine keeps_mk_fst ?_
      exact k121
  have k123 : Keeps fs s0 y114.1 := by
    refine keeps_ite_fst ?_ ?_
    · refine State.writePlane_keeps _ _ _ _ _ ?_ (subF_trans (by decide) hF)
      exact k122
    · refine keeps_mk_fst ?_
      exact k122
  have k124 : Keeps fs s0 y116.1 := by
    refine keeps_ite_fst ?_ ?_
    · refine State.writePlane_keeps _ _ _ _ _ ?_ (subF_trans (by decide) hF)
      exact k123
    · refine keeps_mk_fst ?_
      exact k123
  have k125 : Keeps fs s0 y117.1 := by
    refine keeps_ite_fst ?_ ?_
    · refine State.writePlane_keeps _ _ _ _ _ ?_ (subF_trans (by decide) hF)
      exact k124
    · refine keeps_mk_fst ?_
      exact k124
  have k126 : Keeps fs s0 y119 := by
    refine State.copyStates_keeps _ ?_ (subF_trans (by decide) hF)
    refine keeps_ite ?_ ?_
    · refine State.sweepAt_keeps _ _ ?_ (subF_trans (by decide) hF)
      refine State.mirrorPlane_keeps _ _ ?_ (subF_trans (by decide) hF)
      exact k125
    · exact k125
  have k127 : Keeps fs s0 y120 := by
    refine State.spend_keeps _ _ ?_ (subF_trans (by decide) hF)
    refine State.useFree_keeps _ ?_ (subF_trans (by decide) hF)
    refine State.account_keeps _ _ ?_ (subF_trans (by decide) hF)
    exact k126
  refine keeps_ite ?_ ?_
  · refine State.snapshot_keeps _ ?_ (subF_trans (by decide) hF)
    exact k127
  · exact k127

theorem State.hearGaps_keeps {fs : List Zone} {s0 : State} (s : State) (n : ℕ) (h1 : Keeps fs s0 s) (hF : subF [.arr] fs = true) :
    Keeps fs s0 (State.hearGaps s n) := by
  unfold State.hearGaps
  extract_lets -merge -underBinder y128
  refine Keeps.upd ?_ (.inl (alw hF (by decide))) (.inl ⟨rfl, rfl⟩) (.inr rfl) (.inr rfl) (.inr rfl) (.inl ⟨rfl, rfl⟩) (.inl ⟨rfl, rfl⟩) (.inl rfl) (.inr rfl) (.inr rfl) (.inr rfl) (.inr rfl) (.inr ⟨rfl, rfl⟩) (.inr rfl) (.inr rfl) (.inr rfl) (.inr rfl) (.inr rfl) (.inr rfl) (.inr rfl) (.inr rfl) (.inr rfl) (.inr rfl) (.inr rfl) (.inr rfl) (.inr rfl) (.inr rfl) (.inr rfl) (.inl rfl) rfl
  exact h1

theorem State.markMapChanged_keeps {fs : List Zone} {s0 : State} (s : State) (n : ℕ) (h1 : Keeps fs s0 s) (hF : subF [.trv] fs = true) :
    Keeps fs s0 (State.markMapChanged s n) := by
  unfold State.markMapChanged
  extract_lets -merge -underBinder y129
  refine keeps_ite ?_ ?_
  · refine Keeps.upd ?_ (.inr rfl) (.inl ⟨rfl, rfl⟩) (.inl (alw hF (by decide))) (.inr rfl) (.inr rfl) (.inl ⟨rfl, rfl⟩) (.inl ⟨rfl, rfl⟩) (.inl rfl) (.inr rfl) (.inr rfl) (.inr rfl) (.inr rfl) (.inr ⟨rfl, rfl⟩) (.inr rfl) (.inr rfl) (.inr rfl) (.inr rfl) (.inr rfl) (.inr rfl) (.inr rfl) (.inr rfl) (.inr rfl) (.inr rfl) (.inr rfl) (.inr rfl) (.inr rfl) (.inr rfl) (.inr rfl) (.inl rfl) rfl
    exact h1
  · exact h1

theorem State.applyMap_keeps {fs : List Zone} {s0 : State} (s : State) (n : ℕ) (v : ℕ) (h1 : Keeps fs s0 s) (hF : subF [.block 16, .trv, .arr, .block 1, .out] fs = true) :
    Keeps fs s0 (State.applyMap s n v) := by
  unfold State.applyMap
  extract_lets -merge -underBinder y130 y131 y132
  have k133 : Keeps fs s0 y130 := by
    refine setReg_keeps _ _ ?_ (alwL hF 16 0 (by simp only [rowMap, Reg.PROW_MAP]; omega))
    refine setReg_keeps _ _ ?_ (alwL hF 16 1 (by simp only [Reg.act, rowMap, Reg.PROW_MAP]; omega))
    exact h1
  have k134 : Keeps fs s0 y131 := by
    refine State.markMapChanged_keeps _ _ ?_ (subF_trans (by decide) hF)
    refine State.hearGaps_keeps _ _ ?_ (subF_trans (by decide) hF)
    exact k133
  have k135 : Keeps fs s0 y132 := by
    refine keeps_ite ?_ ?_
    · refine setBit_keeps _ _ _ ?_ (alwB hF 16 rfl (by decide))
      exact k134
    · exact k134
  refine State.fire_keeps _ _ ?_ (subF_trans (by decide) hF)
  exact k135

theorem State.prowMapWrite_keeps {fs : List Zone} {s0 : State} (s : State) (n : ℕ) (v : Word) (executing : Bool) (h1 : Keeps fs s0 s) (hF : subF [.block 16, .trv, .arr, .block 1, .out] fs = true) :
    Keeps fs s0 (State.prowMapWrite s n v executing) := by
  unfold State.prowMapWrite
  extract_lets -merge -underBinder y136 y137
  refine keeps_ite ?_ ?_
  · refine setBit_keeps _ _ _ ?_ (alwB hF 16 rfl (by decide))
    exact h1
  · refine keeps_ite ?_ ?_
    · refine setReg_keeps _ _ ?_ (alwL hF 16 0 (by simp only [rowMap, Reg.PROW_MAP]; omega))
      exact h1
    · refine State.applyMap_keeps _ _ _ ?_ (subF_trans (by decide) hF)
      exact h1

theorem State.arrEdgeWrite_keeps {fs : List Zone} {s0 : State} (s : State) (v : Word) (h1 : Keeps fs s0 s) (hF : subF [.block 16] fs = true) :
    Keeps fs s0 (State.arrEdgeWrite s v) := by
  unfold State.arrEdgeWrite
  extract_lets -merge -underBinder y138
  have k139 : Keeps fs s0 y138 := by
    refine keeps_ite ?_ ?_
    · exact h1
    · refine setFld_keeps _ _ _ _ ?_ (alwB hF 16 rfl (by decide))
      exact h1
  refine keeps_ite ?_ ?_
  · exact k139
  · refine setFld_keeps _ _ _ _ ?_ (alwB hF 16 rfl (by decide))
    exact k139

theorem execSbOrDelivered_keeps (s : State) : ∃ s', execSbOrDelivered s = .next s' ∧
    Keeps [.block 3, .arr, .disp, .block 1, .out] s s' := by
  have hF : subF [.block 3, .arr, .disp, .block 1, .out] [.block 3, .arr, .disp, .block 1, .out] = true := by decide
  unfold execSbOrDelivered
  refine ⟨_, rfl, ?_⟩
  refine State.retireSnaps_keeps _ _ ?_ (subF_trans (by decide) hF)
  refine State.deliverOr_keeps _ ?_ (subF_trans (by decide) hF)
  exact (Keeps.rfl' _ _)

theorem execSbFirstDelivered_keeps (s : State) : ∃ s', execSbFirstDelivered s = .next s' ∧
    Keeps [.block 3, .arr] s s' := by
  have hF : subF [.block 3, .arr] [.block 3, .arr] = true := by decide
  unfold execSbFirstDelivered
  refine ⟨_, rfl, ?_⟩
  refine State.retireSnaps_keeps _ _ ?_ (subF_trans (by decide) hF)
  refine State.deliverFirst_keeps _ ?_ (subF_trans (by decide) hF)
  exact (Keeps.rfl' _ _)

theorem execSbCountDelivered_keeps (s : State) : ∃ s', execSbCountDelivered s = .next s' ∧
    Keeps [.block 3, .arr] s s' := by
  have hF : subF [.block 3, .arr] [.block 3, .arr] = true := by decide
  unfold execSbCountDelivered
  refine ⟨_, rfl, ?_⟩
  refine State.retireSnaps_keeps _ _ ?_ (subF_trans (by decide) hF)
  refine State.deliverCount_keeps _ ?_ (subF_trans (by decide) hF)
  exact (Keeps.rfl' _ _)

theorem execAckTimeout_keeps (p : ℕ) (s : State) : ∃ s', execAckTimeout p s = .next s' ∧
    Keeps [.block 1, .out, .block 16, .arr] s s' := by
  have hF : subF [.block 1, .out, .block 16, .arr] [.block 1, .out, .block 16, .arr] = true := by decide
  unfold execAckTimeout
  refine ⟨_, rfl, ?_⟩
  refine State.ackTimeout_keeps _ _ ?_ (subF_trans (by decide) hF)
  exact (Keeps.rfl' _ _)

theorem execProwMapWrite_keeps (n : ℕ) (v : Word) (executing : Bool) (s : State) : ∃ s', execProwMapWrite n v executing s = .next s' ∧
    Keeps [.block 16, .trv, .arr, .block 1, .out] s s' := by
  have hF : subF [.block 16, .trv, .arr, .block 1, .out] [.block 16, .trv, .arr, .block 1, .out] = true := by decide
  unfold execProwMapWrite
  refine ⟨_, rfl, ?_⟩
  refine State.prowMapWrite_keeps _ _ _ _ ?_ (subF_trans (by decide) hF)
  exact (Keeps.rfl' _ _)

theorem execMapApplied_keeps (n : ℕ) (s : State) : ∃ s', execMapApplied n s = .next s' ∧
    Keeps [.block 16, .trv, .arr, .block 1, .out] s s' := by
  have hF : subF [.block 16, .trv, .arr, .block 1, .out] [.block 16, .trv, .arr, .block 1, .out] = true := by decide
  unfold execMapApplied
  refine ⟨_, rfl, ?_⟩
  refine keeps_ite ?_ ?_
  · refine State.applyMap_keeps _ _ _ ?_ (subF_trans (by decide) hF)
    exact (Keeps.rfl' _ _)
  · exact (Keeps.rfl' _ _)

theorem State.bscntLatch_keeps {fs : List Zone} {s0 : State} (s : State) (h1 : Keeps fs s0 s) (hF : subF [.block 16] fs = true) :
    Keeps fs s0 (State.bscntLatch s) := by
  unfold State.bscntLatch
  refine setReg_keeps _ _ ?_ (alwB hF 16 rfl (by decide))
  refine setReg_keeps _ _ ?_ (alwB hF 16 rfl (by decide))
  exact h1

theorem execArrBscntLoRead_keeps (s : State) : ∃ s', execArrBscntLoRead s = .next s' ∧
    Keeps [.block 16] s s' := by
  have hF : subF [.block 16] [.block 16] = true := by decide
  unfold execArrBscntLoRead
  refine ⟨_, rfl, ?_⟩
  refine State.bscntLatch_keeps _ ?_ (subF_trans (by decide) hF)
  exact (Keeps.rfl' _ _)

end Sys2Proof.Machine
end

