-- ==== Sys2Proof/Laws/KeepsArrayInstr.lean ====
section
/-! SUPPORT. What each operation of Machine/ArrayInstr.lean can change, one lemma an operation (Laws/KeepsBase.lean). -/

-- elaborated one declaration at a time, so that the package compiles as one text in bounded memory
set_option Elab.async false

namespace Sys2Proof.Machine

theorem State.putPlane_keeps {fs : List Zone} {s0 : State} (s : State) (ex : ℕ → Bool) (gate : ℕ → Lanes) (p : Plane) (h1 : Keeps fs s0 s) (hF : subF [.planes, .arr, .block 16] fs = true) :
    Keeps fs s0 (State.putPlane s ex gate p).1 := by
  unfold State.putPlane
  extract_lets -merge -underBinder y140
  have k141 : Keeps fs s0 y140.1 := by
    refine State.writePlane_keeps _ _ _ _ _ ?_ (subF_trans (by decide) hF)
    exact h1
  refine keeps_mk_fst ?_
  refine keeps_ite ?_ ?_
  · refine State.sweepAt_keeps _ _ ?_ (subF_trans (by decide) hF)
    refine State.mirrorPlane_keeps _ _ ?_ (subF_trans (by decide) hF)
    exact k141
  · exact k141

theorem State.putPlanes_keeps {fs : List Zone} {s0 : State} (s : State) (ex : ℕ → Bool) (gate : ℕ → Lanes) (x4 : List Plane) (h1 : Keeps fs s0 s) (hF : subF [.planes, .arr, .block 16] fs = true) :
    Keeps fs s0 (State.putPlanes s ex gate x4).1 := by
  induction x4 generalizing s with
  | nil => exact h1
  | cons p t ih =>
    unfold State.putPlanes
    exact ih _ (State.putPlane_keeps _ _ _ _ h1 (subF_trans (by decide) hF))

theorem State.install_keeps {fs : List Zone} {s0 : State} (s : State) (r : Results) (h1 : Keeps fs s0 s) (hF : subF [.planes, .arr, .block 16, .block 3, .disp, .block 1, .out, .free, .block 8] fs = true) :
    Keeps fs s0 (State.install s r) := by
  unfold State.install
  extract_lets -merge -underBinder y142 y143 y144 y145 y146 y147
  have k148 : Keeps fs s0 y146.1 := by
    refine State.putPlanes_keeps _ _ _ _ ?_ (subF_trans (by decide) hF)
    exact h1
  have k149 : Keeps fs s0 y147.1 := by
    unfold y147
    split
    · refine State.writePlane_keeps _ _ _ _ _ ?_ (subF_trans (by decide) hF)
      exact k148
    · refine keeps_mk_fst ?_
      exact k148
  refine State.snapshot_keeps _ ?_ (subF_trans (by decide) hF)
  refine State.spend_keeps _ _ ?_ (subF_trans (by decide) hF)
  refine State.useFree_keeps _ ?_ (subF_trans (by decide) hF)
  refine State.account_keeps _ _ ?_ (subF_trans (by decide) hF)
  refine State.copyStates_keeps _ ?_ (subF_trans (by decide) hF)
  exact k149

theorem State.fbit_keeps {fs : List Zone} {s0 : State} (s : State) (o : AOp) (acc : Word) (h1 : Keeps fs s0 s) (hF : subF [.planes, .arr, .block 16, .free, .block 8, .block 1, .out, .block 3, .disp] fs = true) :
    Keeps fs s0 (State.fbit s o acc) := by
  unfold State.fbit
  refine keeps_foldl _ _ ?_ ?_
  · exact h1
  · intro z150 z152 h151
    refine State.bitStep_keeps _ _ ?_ (subF_trans (by decide) hF)
    exact h151

theorem State.notSuspended_keeps {fs : List Zone} {s0 : State} (s : State) (h1 : Keeps fs s0 s) (hF : subF [.arr] fs = true) :
    Keeps fs s0 (State.notSuspended s) := by
  unfold State.notSuspended
  extract_lets -merge -underBinder y153
  refine Keeps.upd ?_ (.inl (alw hF (by decide))) (.inl ⟨rfl, rfl⟩) (.inr rfl) (.inr rfl) (.inr rfl) (.inl ⟨rfl, rfl⟩) (.inl ⟨rfl, rfl⟩) (.inl rfl) (.inr rfl) (.inr rfl) (.inr rfl) (.inr rfl) (.inr ⟨rfl, rfl⟩) (.inr rfl) (.inr rfl) (.inr rfl) (.inr rfl) (.inr rfl) (.inr rfl) (.inr rfl) (.inr rfl) (.inr rfl) (.inr rfl) (.inr rfl) (.inr rfl) (.inr rfl) (.inr rfl) (.inr rfl) (.inl rfl) rfl
  exact h1

theorem State.abandon_keeps {fs : List Zone} {s0 : State} (s : State) (h1 : Keeps fs s0 s) (hF : subF [.planes, .arr, .block 16, .block 3, .disp, .block 1, .out, .free, .block 8] fs = true) :
    Keeps fs s0 (State.abandon s) := by
  unfold State.abandon
  extract_lets -merge -underBinder y154 y155 y156 y157 y158 y159
  have k160 : Keeps fs s0 y157.1 := by
    refine State.writePlane_keeps _ _ _ _ _ ?_ (subF_trans (by decide) hF)
    exact h1
  have k161 : Keeps fs s0 y158.1 := by
    refine State.putPlanes_keeps _ _ _ _ ?_ (subF_trans (by decide) hF)
    exact k160
  have k162 : Keeps fs s0 y159.1 := by
    refine State.putPlanes_keeps _ _ _ _ ?_ (subF_trans (by decide) hF)
    exact k161
  refine State.snapshot_keeps _ ?_ (subF_trans (by decide) hF)
  refine State.spend_keeps _ _ ?_ (subF_trans (by decide) hF)
  refine State.useFree_keeps _ ?_ (subF_trans (by decide) hF)
  refine State.account_keeps _ _ ?_ (subF_trans (by decide) hF)
  refine State.copyStates_keeps _ ?_ (subF_trans (by decide) hF)
  refine State.notSuspended_keeps _ ?_ (subF_trans (by decide) hF)
  exact k162

theorem State.suspendArray_keeps {fs : List Zone} {s0 : State} (s : State) (opc : ℕ) (o : AOp) (acc : Word) (k : ℕ) (h1 : Keeps fs s0 s) (hF : subF [.planes, .arr, .block 16, .free, .block 8, .block 1, .out] fs = true) :
    Keeps fs s0 (State.suspendArray s opc o acc k) := by
  unfold State.suspendArray
  extract_lets -merge -underBinder y163 y164 y165 y166 y167 y168 y169 y170 y171 y172 y173 y174 y175 y176 y177 y178 y179
  have k180 : Keeps fs s0 y171.1 := by
    refine State.putPlanes_keeps _ _ _ _ ?_ (subF_trans (by decide) hF)
    exact h1
  have k181 : Keeps fs s0 y172.1 := by
    refine State.putPlanes_keeps _ _ _ _ ?_ (subF_trans (by decide) hF)
    exact k180
  have k182 : Keeps fs s0 y174 := by
    exact k181
  have k183 : Keeps fs s0 y175.1 := by
    refine State.putPlanes_keeps _ _ _ _ ?_ (subF_trans (by decide) hF)
    exact k182
  have k184 : Keeps fs s0 y176.1 := by
    refine State.putPlanes_keeps _ _ _ _ ?_ (subF_trans (by decide) hF)
    exact k183
  have k185 : Keeps fs s0 y177.1 := by
    refine State.writePlane_keeps _ _ _ _ _ ?_ (subF_trans (by decide) hF)
    exact k184
  have k186 : Keeps fs s0 y178 := by
    refine State.spend_keeps _ _ ?_ (subF_trans (by decide) hF)
    refine State.useFree_keeps _ ?_ (subF_trans (by decide) hF)
    refine State.useFree_keeps _ ?_ (subF_trans (by decide) hF)
    refine State.account_keeps _ _ ?_ (subF_trans (by decide) hF)
    refine State.copyStates_keeps _ ?_ (subF_trans (by decide) hF)
    exact k185
  refine Keeps.upd ?_ (.inl (alw hF (by decide))) (.inl ⟨rfl, rfl⟩) (.inr rfl) (.inr rfl) (.inr rfl) (.inl ⟨rfl, rfl⟩) (.inl ⟨rfl, rfl⟩) (.inl rfl) (.inr rfl) (.inr rfl) (.inr rfl) (.inr rfl) (.inr ⟨rfl, rfl⟩) (.inr rfl) (.inr rfl) (.inr rfl) (.inr rfl) (.inr rfl) (.inr rfl) (.inr rfl) (.inr rfl) (.inr rfl) (.inr rfl) (.inr rfl) (.inr rfl) (.inr rfl) (.inr rfl) (.inr rfl) (.inl rfl) rfl
  exact k186

theorem State.suspendSeq_keeps {fs : List Zone} {s0 : State} (s : State) (h1 : Keeps fs s0 s) (hF : subF [.planes, .arr, .block 16, .free, .block 8, .block 1, .out] fs = true) :
    Keeps fs s0 (State.suspendSeq s) := by
  unfold State.suspendSeq
  extract_lets -merge -underBinder y187 y188 y189 y190 y191 y192 y193 y194 y195
  have k196 : Keeps fs s0 y191.1 := by
    refine State.putPlanes_keeps _ _ _ _ ?_ (subF_trans (by decide) hF)
    exact h1
  have k197 : Keeps fs s0 y192.1 := by
    refine State.putPlanes_keeps _ _ _ _ ?_ (subF_trans (by decide) hF)
    exact k196
  have k198 : Keeps fs s0 y193.1 := by
    refine State.writePlane_keeps _ _ _ _ _ ?_ (subF_trans (by decide) hF)
    exact k197
  have k199 : Keeps fs s0 y194 := by
    refine State.spend_keeps _ _ ?_ (subF_trans (by decide) hF)
    refine State.useFree_keeps _ ?_ (subF_trans (by decide) hF)
    refine State.account_keeps _ _ ?_ (subF_trans (by decide) hF)
    refine State.copyStates_keeps _ ?_ (subF_trans (by decide) hF)
    exact k198
  refine Keeps.upd ?_ (.inl (alw hF (by decide))) (.inl ⟨rfl, rfl⟩) (.inr rfl) (.inr rfl) (.inr rfl) (.inl ⟨rfl, rfl⟩) (.inl ⟨rfl, rfl⟩) (.inl rfl) (.inr rfl) (.inr rfl) (.inr rfl) (.inr rfl) (.inr ⟨rfl, rfl⟩) (.inr rfl) (.inr rfl) (.inr rfl) (.inr rfl) (.inr rfl) (.inr rfl) (.inr rfl) (.inr rfl) (.inr rfl) (.inr rfl) (.inr rfl) (.inr rfl) (.inr rfl) (.inr rfl) (.inr rfl) (.inl rfl) rfl
  exact k199

theorem State.suspendFbit_keeps {fs : List Zone} {s0 : State} (s : State) (o : AOp) (acc : Word) (k : ℕ) (h1 : Keeps fs s0 s) (hF : subF [.planes, .arr, .block 16, .free, .block 8, .block 1, .out, .block 3, .disp] fs = true) :
    Keeps fs s0 (State.suspendFbit s o acc k) := by
  unfold State.suspendFbit
  extract_lets -merge -underBinder y200 y201
  have k202 : Keeps fs s0 y200 := by
    refine State.suspendSeq_keeps _ ?_ (subF_trans (by decide) hF)
    refine keeps_foldl _ _ ?_ ?_
    · exact h1
    · intro z203 z205 h204
      refine State.bitStep_keeps _ _ ?_ (subF_trans (by decide) hF)
      exact h204
  clear_value y200
  refine Keeps.upd ?_ (.inl (alw hF (by decide))) (.inl ⟨rfl, rfl⟩) (.inr rfl) (.inr rfl) (.inr rfl) (.inl ⟨rfl, rfl⟩) (.inl ⟨rfl, rfl⟩) (.inl rfl) (.inr rfl) (.inr rfl) (.inr rfl) (.inr rfl) (.inr ⟨rfl, rfl⟩) (.inr rfl) (.inr rfl) (.inr rfl) (.inr rfl) (.inr rfl) (.inr rfl) (.inr rfl) (.inr rfl) (.inr rfl) (.inr rfl) (.inr rfl) (.inr rfl) (.inr rfl) (.inr rfl) (.inr rfl) (.inl rfl) rfl
  exact k202

theorem State.resumeSeq_keeps {fs : List Zone} {s0 : State} (s : State) (h1 : Keeps fs s0 s) (hF : subF [.planes, .arr, .block 16, .free, .block 8, .block 1, .out] fs = true) :
    Keeps fs s0 (State.resumeSeq s) := by
  unfold State.resumeSeq
  extract_lets -merge -underBinder y206 y207 y208 y209 y210 y211 y212 y213 y214
  have k215 : Keeps fs s0 y210.1 := by
    refine State.putPlanes_keeps _ _ _ _ ?_ (subF_trans (by decide) hF)
    exact h1
  have k216 : Keeps fs s0 y211.1 := by
    refine State.putPlanes_keeps _ _ _ _ ?_ (subF_trans (by decide) hF)
    exact k215
  have k217 : Keeps fs s0 y212.1 := by
    refine State.writePlane_keeps _ _ _ _ _ ?_ (subF_trans (by decide) hF)
    exact k216
  have k218 : Keeps fs s0 y213 := by
    refine State.spend_keeps _ _ ?_ (subF_trans (by decide) hF)
    refine State.useFree_keeps _ ?_ (subF_trans (by decide) hF)
    refine State.account_keeps _ _ ?_ (subF_trans (by decide) hF)
    refine State.copyStates_keeps _ ?_ (subF_trans (by decide) hF)
    exact k217
  refine Keeps.upd ?_ (.inl (alw hF (by decide))) (.inl ⟨rfl, rfl⟩) (.inr rfl) (.inr rfl) (.inr rfl) (.inl ⟨rfl, rfl⟩) (.inl ⟨rfl, rfl⟩) (.inl rfl) (.inr rfl) (.inr rfl) (.inr rfl) (.inr rfl) (.inr ⟨rfl, rfl⟩) (.inr rfl) (.inr rfl) (.inr rfl) (.inr rfl) (.inr rfl) (.inr rfl) (.inr rfl) (.inr rfl) (.inr rfl) (.inr rfl) (.inr rfl) (.inr rfl) (.inr rfl) (.inr rfl) (.inr rfl) (.inl rfl) rfl
  exact k218

theorem State.resumeArray_keeps {fs : List Zone} {s0 : State} (s : State) (acc : Word) (h1 : Keeps fs s0 s) (hF : subF [.planes, .arr, .block 16, .free, .block 8, .block 1, .out, .block 3, .disp] fs = true) :
    Keeps fs s0 (State.resumeArray s acc) := by
  unfold State.resumeArray
  extract_lets -merge -underBinder y219
  have k220 : Keeps fs s0 y219 := by
    refine State.resumeSeq_keeps _ ?_ (subF_trans (by decide) hF)
    exact h1
  clear_value y219
  split
  · exact k220
  · extract_lets -merge -underBinder y221 y222 y223 y224 y225 y226
    have k227 : Keeps fs s0 y222 := by
      refine Keeps.upd ?_ (.inl (alw hF (by decide))) (.inl ⟨rfl, rfl⟩) (.inr rfl) (.inr rfl) (.inr rfl) (.inl ⟨rfl, rfl⟩) (.inl ⟨rfl, rfl⟩) (.inl rfl) (.inr rfl) (.inr rfl) (.inr rfl) (.inr rfl) (.inr ⟨rfl, rfl⟩) (.inr rfl) (.inr rfl) (.inr rfl) (.inr rfl) (.inr rfl) (.inr rfl) (.inr rfl) (.inr rfl) (.inr rfl) (.inr rfl) (.inr rfl) (.inr rfl) (.inr rfl) (.inr rfl) (.inr rfl) (.inl rfl) rfl
      exact k220
    clear_value y222
    have k228 : Keeps fs s0 y226.1 := by
      refine State.putPlanes_keeps _ _ _ _ ?_ (subF_trans (by decide) hF)
      exact k227
    clear_value y226
    refine keeps_ite ?_ ?_
    · refine keeps_foldl _ _ ?_ ?_
      · exact k227
      · intro z229 z231 h230
        refine State.bitStep_keeps _ _ ?_ (subF_trans (by decide) hF)
        exact h230
    · refine State.snapshot_keeps _ ?_ (subF_trans (by decide) hF)
      refine State.spend_keeps _ _ ?_ (subF_trans (by decide) hF)
      refine State.useFree_keeps _ ?_ (subF_trans (by decide) hF)
      refine State.account_keeps _ _ ?_ (subF_trans (by decide) hF)
      refine State.copyStates_keeps _ ?_ (subF_trans (by decide) hF)
      exact k228

theorem State.resuspend_keeps {fs : List Zone} {s0 : State} (s : State) (acc : Word) (k : ℕ) (h1 : Keeps fs s0 s) (hF : subF [.planes, .arr, .block 16, .free, .block 8, .block 1, .out, .block 3, .disp] fs = true) :
    Keeps fs s0 (State.resuspend s acc k) := by
  unfold State.resuspend
  split
  · exact h1
  · extract_lets -merge -underBinder y232 y233 y234 y235
    have k236 : Keeps fs s0 y232 := by
      refine State.resumeSeq_keeps _ ?_ (subF_trans (by decide) hF)
      exact h1
    clear_value y232
    have k237 : Keeps fs s0 y233 := by
      refine keeps_ite ?_ ?_
      · refine keeps_foldl _ _ ?_ ?_
        · exact k236
        · intro z238 z240 h239
          refine State.bitStep_keeps _ _ ?_ (subF_trans (by decide) hF)
          exact h239
      · refine State.spend_keeps _ _ ?_ (subF_trans (by decide) hF)
        exact k236
    clear_value y233
    have k241 : Keeps fs s0 y234 := by
      refine State.suspendSeq_keeps _ ?_ (subF_trans (by decide) hF)
      exact k237
    clear_value y234
    refine Keeps.upd ?_ (.inl (alw hF (by decide))) (.inl ⟨rfl, rfl⟩) (.inr rfl) (.inr rfl) (.inr rfl) (.inl ⟨rfl, rfl⟩) (.inl ⟨rfl, rfl⟩) (.inl rfl) (.inr rfl) (.inr rfl) (.inr rfl) (.inr rfl) (.inr ⟨rfl, rfl⟩) (.inr rfl) (.inr rfl) (.inr rfl) (.inr rfl) (.inr rfl) (.inr rfl) (.inr rfl) (.inr rfl) (.inr rfl) (.inr rfl) (.inr rfl) (.inr rfl) (.inr rfl) (.inr rfl) (.inr rfl) (.inl rfl) rfl
    exact k241

end Sys2Proof.Machine
end

