-- ==== Sys2Proof/Laws/KeepsFlags.lean ====
section
/-! SUPPORT. What each operation of Machine/Flags.lean can change, one lemma an operation (Laws/KeepsBase.lean). -/

-- elaborated one declaration at a time, so that the package compiles as one text in bounded memory
set_option Elab.async false

namespace Sys2Proof.Machine

theorem State.setPsw_keeps {fs : List Zone} {s0 : State} (s : State) (i : ℕ) (b : Bool) (h1 : Keeps fs s0 s) (hF : subF [.disp] fs = true) :
    Keeps fs s0 (State.setPsw s i b) := by
  unfold State.setPsw
  extract_lets -merge -underBinder y242
  refine Keeps.upd ?_ (.inr rfl) (.inl ⟨rfl, rfl⟩) (.inr rfl) (.inl (alw hF (by decide))) (.inr rfl) (.inl ⟨rfl, rfl⟩) (.inl ⟨rfl, rfl⟩) (.inl rfl) (.inr rfl) (.inr rfl) (.inr rfl) (.inr rfl) (.inr ⟨rfl, rfl⟩) (.inr rfl) (.inr rfl) (.inr rfl) (.inr rfl) (.inr rfl) (.inr rfl) (.inr rfl) (.inr rfl) (.inr rfl) (.inr rfl) (.inr rfl) (.inr rfl) (.inr rfl) (.inr rfl) (.inr rfl) (.inl rfl) rfl
  exact h1

theorem State.setFlags_keeps {fs : List Zone} {s0 : State} (s : State) (f : Flags) (h1 : Keeps fs s0 s) (hF : subF [.disp] fs = true) :
    Keeps fs s0 (State.setFlags s f) := by
  unfold State.setFlags
  extract_lets -merge -underBinder y243 y244
  refine Keeps.upd ?_ (.inr rfl) (.inl ⟨rfl, rfl⟩) (.inr rfl) (.inl (alw hF (by decide))) (.inr rfl) (.inl ⟨rfl, rfl⟩) (.inl ⟨rfl, rfl⟩) (.inl rfl) (.inr rfl) (.inr rfl) (.inr rfl) (.inr rfl) (.inr ⟨rfl, rfl⟩) (.inr rfl) (.inr rfl) (.inr rfl) (.inr rfl) (.inr rfl) (.inr rfl) (.inr rfl) (.inr rfl) (.inr rfl) (.inr rfl) (.inr rfl) (.inr rfl) (.inr rfl) (.inr rfl) (.inr rfl) (.inl rfl) rfl
  exact h1

end Sys2Proof.Machine
end

