-- ==== Sys2Proof/Laws/KeepsDispCore.lean ====
section
/-! SUPPORT. What each operation of Machine/DispCore.lean can change, one lemma an operation (Laws/KeepsBase.lean). -/

-- elaborated one declaration at a time, so that the package compiles as one text in bounded memory
set_option Elab.async false

namespace Sys2Proof.Machine

theorem State.sendReq_keeps {fs : List Zone} {s0 : State} (s : State) (write : Bool) (cp : Bool) (addr : ℕ) (len : ℕ) (data : List (Word64 × BitVec 8)) (dst : ℕ) (h1 : Keeps fs s0 s) (hF : subF [.jt] fs = true) :
    Keeps fs s0 (State.sendReq s write cp addr len data dst) := by
  unfold State.sendReq
  extract_lets -merge -underBinder y245 y246 y247
  refine Keeps.upd ?_ (.inr rfl) (.inl ⟨rfl, rfl⟩) (.inr rfl) (.inr rfl) (.inr rfl) (.inl ⟨rfl, rfl⟩) (.inl ⟨rfl, rfl⟩) (.inl rfl) (.inr rfl) (.inl (alw hF (by decide))) (.inr rfl) (.inr rfl) (.inr ⟨rfl, rfl⟩) (.inr rfl) (.inr rfl) (.inr rfl) (.inr rfl) (.inr rfl) (.inr rfl) (.inr rfl) (.inr rfl) (.inr rfl) (.inr rfl) (.inr rfl) (.inr rfl) (.inr rfl) (.inr rfl) (.inr rfl) (.inl rfl) rfl
  exact h1

theorem State.postStore_keeps {fs : List Zone} {s0 : State} (s : State) (addr : ℕ) (n : ℕ) (v : Word64) (h1 : Keeps fs s0 s) (hF : subF [.jt] fs = true) :
    Keeps fs s0 (State.postStore s addr n v) := by
  unfold State.postStore
  refine State.sendReq_keeps _ _ _ _ _ _ _ ?_ (subF_trans (by decide) hF)
  exact h1

theorem State.flushLate_keeps {fs : List Zone} {s0 : State} (s : State) (h1 : Keeps fs s0 s) (hF : subF [.disp] fs = true) :
    Keeps fs s0 (State.flushLate s) := by
  unfold State.flushLate
  extract_lets -merge -underBinder y248
  refine Keeps.upd ?_ (.inr rfl) (.inl ⟨rfl, rfl⟩) (.inr rfl) (.inl (alw hF (by decide))) (.inr rfl) (.inl ⟨rfl, rfl⟩) (.inl ⟨rfl, rfl⟩) (.inl rfl) (.inr rfl) (.inr rfl) (.inr rfl) (.inr rfl) (.inr ⟨rfl, rfl⟩) (.inr rfl) (.inr rfl) (.inr rfl) (.inr rfl) (.inr rfl) (.inr rfl) (.inr rfl) (.inr rfl) (.inr rfl) (.inr rfl) (.inr rfl) (.inr rfl) (.inr rfl) (.inr rfl) (.inr rfl) (.inl rfl) rfl
  exact h1

theorem State.mulDone_keeps {fs : List Zone} {s0 : State} (s : State) (h1 : Keeps fs s0 s) (hF : subF [.disp] fs = true) :
    Keeps fs s0 (State.mulDone s) := by
  unfold State.mulDone
  split
  · exact h1
  · extract_lets -merge -underBinder y249
    refine State.setPsw_keeps _ _ _ ?_ (subF_trans (by decide) hF)
    refine Keeps.upd ?_ (.inr rfl) (.inl ⟨rfl, rfl⟩) (.inr rfl) (.inl (alw hF (by decide))) (.inr rfl) (.inl ⟨rfl, rfl⟩) (.inl ⟨rfl, rfl⟩) (.inl rfl) (.inr rfl) (.inr rfl) (.inr rfl) (.inr rfl) (.inr ⟨rfl, rfl⟩) (.inr rfl) (.inr rfl) (.inr rfl) (.inr rfl) (.inr rfl) (.inr rfl) (.inr rfl) (.inr rfl) (.inr rfl) (.inr rfl) (.inr rfl) (.inr rfl) (.inr rfl) (.inr rfl) (.inr rfl) (.inl rfl) rfl
    exact h1

theorem State.divDone_keeps {fs : List Zone} {s0 : State} (s : State) (h1 : Keeps fs s0 s) (hF : subF [.disp] fs = true) :
    Keeps fs s0 (State.divDone s) := by
  unfold State.divDone
  split
  · exact h1
  · extract_lets -merge -underBinder y250
    refine State.setPsw_keeps _ _ _ ?_ (subF_trans (by decide) hF)
    refine Keeps.upd ?_ (.inr rfl) (.inl ⟨rfl, rfl⟩) (.inr rfl) (.inl (alw hF (by decide))) (.inr rfl) (.inl ⟨rfl, rfl⟩) (.inl ⟨rfl, rfl⟩) (.inl rfl) (.inr rfl) (.inr rfl) (.inr rfl) (.inr rfl) (.inr ⟨rfl, rfl⟩) (.inr rfl) (.inr rfl) (.inr rfl) (.inr rfl) (.inr rfl) (.inr rfl) (.inr rfl) (.inr rfl) (.inr rfl) (.inr rfl) (.inr rfl) (.inr rfl) (.inr rfl) (.inr rfl) (.inr rfl) (.inl rfl) rfl
    exact h1

theorem State.unitsByDistance_keeps {fs : List Zone} {s0 : State} (s : State) (h1 : Keeps fs s0 s) (hF : subF [.disp] fs = true) :
    Keeps fs s0 (State.unitsByDistance s) := by
  unfold State.unitsByDistance
  extract_lets -merge -underBinder y251
  have k252 : Keeps fs s0 y251 := by
    refine keeps_ite ?_ ?_
    · refine State.mulDone_keeps _ ?_ (subF_trans (by decide) hF)
      exact h1
    · exact h1
  refine keeps_ite ?_ ?_
  · refine State.divDone_keeps _ ?_ (subF_trans (by decide) hF)
    exact k252
  · exact k252

theorem State.ageUnits_keeps {fs : List Zone} {s0 : State} (s : State) (h1 : Keeps fs s0 s) (hF : subF [.disp] fs = true) :
    Keeps fs s0 (State.ageUnits s) := by
  unfold State.ageUnits
  extract_lets -merge -underBinder y253
  refine Keeps.upd ?_ (.inr rfl) (.inl ⟨rfl, rfl⟩) (.inr rfl) (.inl (alw hF (by decide))) (.inr rfl) (.inl ⟨rfl, rfl⟩) (.inl ⟨rfl, rfl⟩) (.inl rfl) (.inr rfl) (.inr rfl) (.inr rfl) (.inr rfl) (.inr ⟨rfl, rfl⟩) (.inr rfl) (.inr rfl) (.inr rfl) (.inr rfl) (.inr rfl) (.inr rfl) (.inr rfl) (.inr rfl) (.inr rfl) (.inr rfl) (.inr rfl) (.inr rfl) (.inr rfl) (.inr rfl) (.inr rfl) (.inl rfl) rfl
  exact h1

theorem State.deliverOrTo_keeps {fs : List Zone} {s0 : State} (s : State) (num : ℕ) (x3 : ℕ) (h1 : Keeps fs s0 s) (hF : subF [.block 3, .arr, .disp, .block 1, .out] fs = true) :
    Keeps fs s0 (State.deliverOrTo s num x3) := by
  induction x3 generalizing s with
  | zero => exact h1
  | succ i ih =>
    unfold State.deliverOrTo
    split
    · exact ih _ (State.retireSnaps_keeps _ _ (State.deliverOr_keeps _ h1 (subF_trans (by decide) hF)) (subF_trans (by decide) hF))
    · exact h1

theorem State.holdAtBegin_keeps {fs : List Zone} {s0 : State} (s : State) (h1 : Keeps fs s0 s) (hF : subF [.block 3, .arr, .disp, .block 1, .out] fs = true) :
    Keeps fs s0 (State.holdAtBegin s) := by
  unfold State.holdAtBegin
  split
  · extract_lets -merge -underBinder y254 y255
    have k256 : Keeps fs s0 y254 := by
      refine State.deliverOrTo_keeps _ _ _ ?_ (subF_trans (by decide) hF)
      exact h1
    refine Keeps.upd ?_ (.inr rfl) (.inl ⟨rfl, rfl⟩) (.inr rfl) (.inl (alw hF (by decide))) (.inr rfl) (.inl ⟨rfl, rfl⟩) (.inl ⟨rfl, rfl⟩) (.inl rfl) (.inr rfl) (.inr rfl) (.inr rfl) (.inr rfl) (.inr ⟨rfl, rfl⟩) (.inr rfl) (.inr rfl) (.inr rfl) (.inr rfl) (.inr rfl) (.inr rfl) (.inr rfl) (.inr rfl) (.inr rfl) (.inr rfl) (.inr rfl) (.inr rfl) (.inr rfl) (.inr rfl) (.inr rfl) (.inl rfl) rfl
    exact k256
  · exact h1

theorem State.holdAtEnd_keeps {fs : List Zone} {s0 : State} (s : State) (h1 : Keeps fs s0 s) (hF : subF [.disp] fs = true) :
    Keeps fs s0 (State.holdAtEnd s) := by
  unfold State.holdAtEnd
  extract_lets -merge -underBinder y257
  refine Keeps.upd ?_ (.inr rfl) (.inl ⟨rfl, rfl⟩) (.inr rfl) (.inl (alw hF (by decide))) (.inr rfl) (.inl ⟨rfl, rfl⟩) (.inl ⟨rfl, rfl⟩) (.inl rfl) (.inr rfl) (.inr rfl) (.inr rfl) (.inr rfl) (.inr ⟨rfl, rfl⟩) (.inr rfl) (.inr rfl) (.inr rfl) (.inr rfl) (.inr rfl) (.inr rfl) (.inr rfl) (.inr rfl) (.inr rfl) (.inr rfl) (.inr rfl) (.inr rfl) (.inr rfl) (.inr rfl) (.inr rfl) (.inl rfl) rfl
  exact h1

theorem State.noteStoreError_keeps {fs : List Zone} {s0 : State} (s : State) (addr : ℕ) (r : Resp) (h1 : Keeps fs s0 s) (hF : subF [.disp, .block 8] fs = true) :
    Keeps fs s0 (State.noteStoreError s addr r) := by
  unfold State.noteStoreError
  split
  · extract_lets -merge -underBinder y258
    refine Keeps.upd ?_ (.inr rfl) (.inl ⟨rfl, rfl⟩) (.inr rfl) (.inl (alw hF (by decide))) (.inr rfl) (.inl ⟨rfl, rfl⟩) (.inl ⟨rfl, rfl⟩) (.inl rfl) (.inr rfl) (.inr rfl) (.inr rfl) (.inr rfl) (.inr ⟨rfl, rfl⟩) (.inr rfl) (.inr rfl) (.inr rfl) (.inr rfl) (.inr rfl) (.inr rfl) (.inr rfl) (.inr rfl) (.inr rfl) (.inr rfl) (.inr rfl) (.inr rfl) (.inr rfl) (.inr rfl) (.inr rfl) (.inl rfl) rfl
    exact h1
  · refine satInc_keeps _ _ _ ?_ (alwB hF 8 rfl (by decide))
    exact h1

theorem State.discardPair_keeps {fs : List Zone} {s0 : State} (s : State) (h1 : Keeps fs s0 s) (hF : subF [.disp, .block 8] fs = true) :
    Keeps fs s0 (State.discardPair s) := by
  unfold State.discardPair
  split
  · exact h1
  · extract_lets -merge -underBinder y259
    refine State.noteStoreError_keeps _ _ _ ?_ (subF_trans (by decide) hF)
    refine Keeps.upd ?_ (.inr rfl) (.inl ⟨rfl, rfl⟩) (.inr rfl) (.inl (alw hF (by decide))) (.inr rfl) (.inl ⟨rfl, rfl⟩) (.inl ⟨rfl, rfl⟩) (.inl rfl) (.inr rfl) (.inr rfl) (.inr rfl) (.inr rfl) (.inr ⟨rfl, rfl⟩) (.inr rfl) (.inr rfl) (.inr rfl) (.inr rfl) (.inr rfl) (.inr rfl) (.inr rfl) (.inr rfl) (.inr rfl) (.inr rfl) (.inr rfl) (.inr rfl) (.inr rfl) (.inr rfl) (.inr rfl) (.inl rfl) rfl
    exact h1

theorem State.enter_keeps {fs : List Zone} {s0 : State} (s : State) (ret : BitVec 52) (pc : ℕ) (h1 : Keeps fs s0 s) (hF : subF [.block 17, .disp] fs = true) :
    Keeps fs s0 (State.enter s ret pc) := by
  unfold State.enter
  extract_lets -merge -underBinder y260 y261 y262 y263
  have k264 : Keeps fs s0 y260 := by
    refine setFld_keeps _ _ _ _ ?_ (alwB hF 17 rfl (by decide))
    refine State.flushLate_keeps _ ?_ (subF_trans (by decide) hF)
    exact h1
  refine keeps_ite ?_ ?_
  · refine Keeps.upd ?_ (.inr rfl) (.inl ⟨rfl, rfl⟩) (.inr rfl) (.inl (alw hF (by decide))) (.inr rfl) (.inl ⟨rfl, rfl⟩) (.inl ⟨rfl, rfl⟩) (.inl rfl) (.inr rfl) (.inr rfl) (.inr rfl) (.inr rfl) (.inr ⟨rfl, rfl⟩) (.inr rfl) (.inr rfl) (.inr rfl) (.inr rfl) (.inr rfl) (.inr rfl) (.inr rfl) (.inr rfl) (.inr rfl) (.inr rfl) (.inr rfl) (.inr rfl) (.inr rfl) (.inr rfl) (.inr rfl) (.inl rfl) rfl
    exact k264
  · refine Keeps.upd ?_ (.inr rfl) (.inl ⟨rfl, rfl⟩) (.inr rfl) (.inl (alw hF (by decide))) (.inr rfl) (.inl ⟨rfl, rfl⟩) (.inl ⟨rfl, rfl⟩) (.inl rfl) (.inr rfl) (.inr rfl) (.inr rfl) (.inr rfl) (.inr ⟨rfl, rfl⟩) (.inr rfl) (.inr rfl) (.inr rfl) (.inr rfl) (.inr rfl) (.inr rfl) (.inr rfl) (.inr rfl) (.inr rfl) (.inr rfl) (.inr rfl) (.inr rfl) (.inr rfl) (.inr rfl) (.inr rfl) (.inl rfl) rfl
    exact k264

theorem State.kernelFault_keeps {fs : List Zone} {s0 : State} (s : State) (cause : ℕ) (h1 : Keeps fs s0 s) (hF : subF [.sched, .kernels, .running, .log, .free] fs = true) :
    Keeps fs s0 (State.kernelFault s cause) := by
  unfold State.kernelFault
  split
  · exact h1
  · extract_lets -merge -underBinder y265 y266 y267 y268
    have k269 : Keeps fs s0 y268 := by
      refine Keeps.upd ?_ (.inr rfl) (.inl ⟨rfl, rfl⟩) (.inr rfl) (.inr rfl) (.inr rfl) (.inl ⟨rfl, rfl⟩) (.inl ⟨rfl, rfl⟩) (.inl rfl) (.inr rfl) (.inr rfl) (.inr rfl) (.inr rfl) (.inr ⟨rfl, rfl⟩) (.inr rfl) (.inl (alw hF (by decide))) (.inl (alw hF (by decide))) (.inl (alw hF (by decide))) (.inr rfl) (.inr rfl) (.inr rfl) (.inr rfl) (.inr rfl) (.inr rfl) (.inr rfl) (.inr rfl) (.inr rfl) (.inr rfl) (.inr rfl) (.inl rfl) rfl
      exact h1
    refine keeps_ite ?_ ?_
    · exact h1
    · refine State.logEvent_keeps _ _ _ _ ?_ (subF_trans (by decide) hF)
      exact k269

theorem State.trap_keeps {fs : List Zone} {s0 : State} (s : State) (cause : ℕ) (addr : ℕ) (info : ℕ) (r : Resp) (imprecise : Bool) (ret : BitVec 52) (h1 : Keeps fs s0 s) (hF : subF [.disp, .block 17, .sched, .kernels, .running, .log, .free] fs = true) :
    Keeps fs s0 (State.trap s cause addr info r imprecise ret) := by
  unfold State.trap
  extract_lets -merge -underBinder y270 y271 y272
  have k273 : Keeps fs s0 y272 := by
    refine Keeps.upd ?_ (.inr rfl) (.inl ⟨rfl, rfl⟩) (.inr rfl) (.inl (alw hF (by decide))) (.inr rfl) (.inl ⟨rfl, rfl⟩) (.inl ⟨rfl, rfl⟩) (.inl rfl) (.inr rfl) (.inr rfl) (.inr rfl) (.inr rfl) (.inr ⟨rfl, rfl⟩) (.inr rfl) (.inr rfl) (.inr rfl) (.inr rfl) (.inr rfl) (.inr rfl) (.inr rfl) (.inr rfl) (.inr rfl) (.inr rfl) (.inr rfl) (.inr rfl) (.inr rfl) (.inr rfl) (.inr rfl) (.inl rfl) rfl
    exact h1
  refine State.enter_keeps _ _ _ ?_ (subF_trans (by decide) hF)
  refine State.kernelFault_keeps _ _ ?_ (subF_trans (by decide) hF)
  exact k273

theorem State.boundary_keeps {fs : List Zone} {s0 : State} (s : State) (h1 : Keeps fs s0 s) (hF : subF [.disp, .block 17, .sched, .kernels, .running, .log, .free] fs = true) :
    Keeps fs s0 (State.boundary s) := by
  unfold State.boundary
  refine keeps_ite ?_ ?_
  · split
    · exact h1
    · extract_lets -merge -underBinder y274
      refine State.trap_keeps _ _ _ _ _ _ _ ?_ (subF_trans (by decide) hF)
      refine Keeps.upd ?_ (.inr rfl) (.inl ⟨rfl, rfl⟩) (.inr rfl) (.inl (alw hF (by decide))) (.inr rfl) (.inl ⟨rfl, rfl⟩) (.inl ⟨rfl, rfl⟩) (.inl rfl) (.inr rfl) (.inr rfl) (.inr rfl) (.inr rfl) (.inr ⟨rfl, rfl⟩) (.inr rfl) (.inr rfl) (.inr rfl) (.inr rfl) (.inr rfl) (.inr rfl) (.inr rfl) (.inr rfl) (.inr rfl) (.inr rfl) (.inr rfl) (.inr rfl) (.inr rfl) (.inr rfl) (.inr rfl) (.inl rfl) rfl
      exact h1
  · exact h1

theorem State.trapHere_keeps {fs : List Zone} {s0 : State} (s : State) (cause : ℕ) (addr : ℕ) (info : ℕ) (r : Resp) (h1 : Keeps fs s0 s) (hF : subF [.disp, .block 17, .sched, .kernels, .running, .log, .free] fs = true) :
    Keeps fs s0 (State.trapHere s cause addr info r) := by
  unfold State.trapHere
  refine State.boundary_keeps _ ?_ (subF_trans (by decide) hF)
  refine State.trap_keeps _ _ _ _ _ _ _ ?_ (subF_trans (by decide) hF)
  exact h1

theorem State.interrupt_keeps {fs : List Zone} {s0 : State} (s : State) (ret : BitVec 52) (h1 : Keeps fs s0 s) (hF : subF [.block 17, .disp] fs = true) :
    Keeps fs s0 (State.interrupt s ret) := by
  unfold State.interrupt
  refine State.enter_keeps _ _ _ ?_ (subF_trans (by decide) hF)
  exact h1

theorem State.waitFor_keeps {fs : List Zone} {s0 : State} (s : State) (w : Wait) (h1 : Keeps fs s0 s) (hF : subF [.disp] fs = true) :
    Keeps fs s0 (State.waitFor s w) := by
  unfold State.waitFor
  extract_lets -merge -underBinder y275
  refine Keeps.upd ?_ (.inr rfl) (.inl ⟨rfl, rfl⟩) (.inr rfl) (.inl (alw hF (by decide))) (.inr rfl) (.inl ⟨rfl, rfl⟩) (.inl ⟨rfl, rfl⟩) (.inl rfl) (.inr rfl) (.inr rfl) (.inr rfl) (.inr rfl) (.inr ⟨rfl, rfl⟩) (.inr rfl) (.inr rfl) (.inr rfl) (.inr rfl) (.inr rfl) (.inr rfl) (.inr rfl) (.inr rfl) (.inr rfl) (.inr rfl) (.inr rfl) (.inr rfl) (.inr rfl) (.inr rfl) (.inr rfl) (.inl rfl) rfl
  exact h1

theorem State.endInstr_keeps {fs : List Zone} {s0 : State} (s : State) (n : ℕ) (nl : Late) (h1 : Keeps fs s0 s) (hF : subF [.disp, .block 17, .sched, .kernels, .running, .log, .free] fs = true) :
    Keeps fs s0 (State.endInstr s n nl) := by
  unfold State.endInstr
  extract_lets -merge -underBinder y276 y277
  have k278 : Keeps fs s0 y277 := by
    refine Keeps.upd ?_ (.inr rfl) (.inl ⟨rfl, rfl⟩) (.inr rfl) (.inl (alw hF (by decide))) (.inr rfl) (.inl ⟨rfl, rfl⟩) (.inl ⟨rfl, rfl⟩) (.inl rfl) (.inr rfl) (.inr rfl) (.inr rfl) (.inr rfl) (.inr ⟨rfl, rfl⟩) (.inr rfl) (.inr rfl) (.inr rfl) (.inr rfl) (.inr rfl) (.inr rfl) (.inr rfl) (.inr rfl) (.inr rfl) (.inr rfl) (.inr rfl) (.inr rfl) (.inr rfl) (.inr rfl) (.inr rfl) (.inl rfl) rfl
    exact h1
  refine State.boundary_keeps _ ?_ (subF_trans (by decide) hF)
  refine State.holdAtEnd_keeps _ ?_ (subF_trans (by decide) hF)
  refine State.ageUnits_keeps _ ?_ (subF_trans (by decide) hF)
  exact k278

theorem State.endJump_keeps {fs : List Zone} {s0 : State} (s : State) (pbnk : BitVec 36) (pc : BitVec 16) (h1 : Keeps fs s0 s) (hF : subF [.disp, .block 17, .sched, .kernels, .running, .log, .free] fs = true) :
    Keeps fs s0 (State.endJump s pbnk pc) := by
  unfold State.endJump
  extract_lets -merge -underBinder y279 y280
  have k281 : Keeps fs s0 y280 := by
    refine Keeps.upd ?_ (.inr rfl) (.inl ⟨rfl, rfl⟩) (.inr rfl) (.inl (alw hF (by decide))) (.inr rfl) (.inl ⟨rfl, rfl⟩) (.inl ⟨rfl, rfl⟩) (.inl rfl) (.inr rfl) (.inr rfl) (.inr rfl) (.inr rfl) (.inr ⟨rfl, rfl⟩) (.inr rfl) (.inr rfl) (.inr rfl) (.inr rfl) (.inr rfl) (.inr rfl) (.inr rfl) (.inr rfl) (.inr rfl) (.inr rfl) (.inr rfl) (.inr rfl) (.inr rfl) (.inr rfl) (.inr rfl) (.inl rfl) rfl
    exact h1
  refine State.boundary_keeps _ ?_ (subF_trans (by decide) hF)
  refine State.holdAtEnd_keeps _ ?_ (subF_trans (by decide) hF)
  refine State.ageUnits_keeps _ ?_ (subF_trans (by decide) hF)
  exact k281

theorem State.begin_keeps {fs : List Zone} {s0 : State} (s : State) (h1 : Keeps fs s0 s) (hF : subF [.disp, .block 17, .sched, .kernels, .running, .log, .free, .block 3, .arr, .block 1, .out] fs = true) :
    Keeps fs s0 (State.begin s) := by
  unfold State.begin
  extract_lets -merge -underBinder y282 y283
  have k284 : Keeps fs s0 y283 := by
    refine keeps_ite ?_ ?_
    · refine State.boundary_keeps _ ?_ (subF_trans (by decide) hF)
      refine Keeps.upd ?_ (.inr rfl) (.inl ⟨rfl, rfl⟩) (.inr rfl) (.inl (alw hF (by decide))) (.inr rfl) (.inl ⟨rfl, rfl⟩) (.inl ⟨rfl, rfl⟩) (.inl rfl) (.inr rfl) (.inr rfl) (.inr rfl) (.inr rfl) (.inr ⟨rfl, rfl⟩) (.inr rfl) (.inr rfl) (.inr rfl) (.inr rfl) (.inr rfl) (.inr rfl) (.inr rfl) (.inr rfl) (.inr rfl) (.inr rfl) (.inr rfl) (.inr rfl) (.inr rfl) (.inr rfl) (.inr rfl) (.inl rfl) rfl
      exact h1
    · exact h1
  refine State.holdAtBegin_keeps _ ?_ (subF_trans (by decide) hF)
  refine State.unitsByDistance_keeps _ ?_ (subF_trans (by decide) hF)
  exact k284

theorem State.setAcc_keeps {fs : List Zone} {s0 : State} (s : State) (v : Word) (h1 : Keeps fs s0 s) (hF : subF [.disp] fs = true) :
    Keeps fs s0 (State.setAcc s v) := by
  unfold State.setAcc
  extract_lets -merge -underBinder y285 y286
  refine Keeps.upd ?_ (.inr rfl) (.inl ⟨rfl, rfl⟩) (.inr rfl) (.inl (alw hF (by decide))) (.inr rfl) (.inl ⟨rfl, rfl⟩) (.inl ⟨rfl, rfl⟩) (.inl rfl) (.inr rfl) (.inr rfl) (.inr rfl) (.inr rfl) (.inr ⟨rfl, rfl⟩) (.inr rfl) (.inr rfl) (.inr rfl) (.inr rfl) (.inr rfl) (.inr rfl) (.inr rfl) (.inr rfl) (.inr rfl) (.inr rfl) (.inr rfl) (.inr rfl) (.inr rfl) (.inr rfl) (.inr rfl) (.inl rfl) rfl
  exact h1

theorem State.startHold_keeps {fs : List Zone} {s0 : State} (s : State) (h1 : Keeps fs s0 s) (hF : subF [.disp] fs = true) :
    Keeps fs s0 (State.startHold s) := by
  unfold State.startHold
  split
  · extract_lets -merge -underBinder y287
    refine Keeps.upd ?_ (.inr rfl) (.inl ⟨rfl, rfl⟩) (.inr rfl) (.inl (alw hF (by decide))) (.inr rfl) (.inl ⟨rfl, rfl⟩) (.inl ⟨rfl, rfl⟩) (.inl rfl) (.inr rfl) (.inr rfl) (.inr rfl) (.inr rfl) (.inr ⟨rfl, rfl⟩) (.inr rfl) (.inr rfl) (.inr rfl) (.inr rfl) (.inr rfl) (.inr rfl) (.inr rfl) (.inr rfl) (.inr rfl) (.inr rfl) (.inr rfl) (.inr rfl) (.inr rfl) (.inr rfl) (.inr rfl) (.inl rfl) rfl
    exact h1
  · extract_lets -merge -underBinder y288
    refine Keeps.upd ?_ (.inr rfl) (.inl ⟨rfl, rfl⟩) (.inr rfl) (.inl (alw hF (by decide))) (.inr rfl) (.inl ⟨rfl, rfl⟩) (.inl ⟨rfl, rfl⟩) (.inl rfl) (.inr rfl) (.inr rfl) (.inr rfl) (.inr rfl) (.inr ⟨rfl, rfl⟩) (.inr rfl) (.inr rfl) (.inr rfl) (.inr rfl) (.inr rfl) (.inr rfl) (.inr rfl) (.inr rfl) (.inr rfl) (.inr rfl) (.inr rfl) (.inr rfl) (.inr rfl) (.inr rfl) (.inr rfl) (.inl rfl) rfl
    exact h1

end Sys2Proof.Machine
end

