-- ==== Sys2Proof/Laws/KeepsMemory.lean ====
section
/-! SUPPORT. What each operation of Machine/Memory.lean can change, one lemma an operation (Laws/KeepsBase.lean). -/

-- elaborated one declaration at a time, so that the package compiles as one text in bounded memory
set_option Elab.async false

namespace Sys2Proof.Machine

theorem State.setSpCell_keeps {fs : List Zone} {s0 : State} (s : State) (k : ℕ) (w : Word72) (h1 : Keeps fs s0 s) (hF : subF [.sp] fs = true) :
    Keeps fs s0 (State.setSpCell s k w) := by
  unfold State.setSpCell
  extract_lets -merge -underBinder y289
  refine Keeps.upd ?_ (.inr rfl) (.inl ⟨rfl, rfl⟩) (.inr rfl) (.inr rfl) (.inr rfl) (.inr ⟨alw hF (by decide), by first | exact fun _ => rfl | (dsimp only; exact fun h => Store.wf_set _ _ _ _ h)⟩) (.inl ⟨rfl, rfl⟩) (.inl rfl) (.inr rfl) (.inr rfl) (.inr rfl) (.inr rfl) (.inr ⟨rfl, rfl⟩) (.inr rfl) (.inr rfl) (.inr rfl) (.inr rfl) (.inr rfl) (.inr rfl) (.inr rfl) (.inr rfl) (.inr rfl) (.inr rfl) (.inr rfl) (.inr rfl) (.inr rfl) (.inr rfl) (.inr rfl) (.inl rfl) rfl
  exact h1

theorem State.spWrite_keeps {fs : List Zone} {s0 : State} (s : State) (w : ℕ) (d : Word64) (h1 : Keeps fs s0 s) (hF : subF [.sp] fs = true) :
    Keeps fs s0 (State.spWrite s w d) := by
  unfold State.spWrite
  refine State.setSpCell_keeps _ _ _ ?_ (subF_trans (by decide) hF)
  exact h1

theorem State.suspectError_keeps {fs : List Zone} {s0 : State} (s : State) (b : ℕ) (idx : ℕ) (spare : Option ℕ) (d : Word64) (h1 : Keeps fs s0 s) (hF : subF [.memo, .block 1, .out, .sp, .block 8] fs = true) :
    Keeps fs s0 (State.suspectError s b idx spare d) := by
  unfold State.suspectError
  extract_lets -merge -underBinder y290 y291 y292 y293
  refine keeps_ite ?_ ?_
  · refine Keeps.upd ?_ (.inr rfl) (.inl ⟨rfl, rfl⟩) (.inr rfl) (.inr rfl) (.inr rfl) (.inl ⟨rfl, rfl⟩) (.inl ⟨rfl, rfl⟩) (.inl rfl) (.inl (alw hF (by decide))) (.inr rfl) (.inr rfl) (.inr rfl) (.inr ⟨rfl, rfl⟩) (.inr rfl) (.inr rfl) (.inr rfl) (.inr rfl) (.inr rfl) (.inr rfl) (.inr rfl) (.inr rfl) (.inr rfl) (.inr rfl) (.inr rfl) (.inr rfl) (.inr rfl) (.inr rfl) (.inr rfl) (.inl rfl) rfl
    exact h1
  · split
    · extract_lets -merge -underBinder y294
      refine State.fire_keeps _ _ ?_ (subF_trans (by decide) hF)
      refine Keeps.upd ?_ (.inr rfl) (.inl ⟨rfl, rfl⟩) (.inr rfl) (.inr rfl) (.inr rfl) (.inl ⟨rfl, rfl⟩) (.inl ⟨rfl, rfl⟩) (.inl rfl) (.inl (alw hF (by decide))) (.inr rfl) (.inr rfl) (.inr rfl) (.inr ⟨rfl, rfl⟩) (.inr rfl) (.inr rfl) (.inr rfl) (.inr rfl) (.inr rfl) (.inr rfl) (.inr rfl) (.inr rfl) (.inr rfl) (.inr rfl) (.inr rfl) (.inr rfl) (.inr rfl) (.inr rfl) (.inr rfl) (.inl rfl) rfl
      exact h1
    · extract_lets -merge -underBinder y295 y296 y297 y298
      have k299 : Keeps fs s0 y295 := by
        refine State.setSpCell_keeps _ _ _ ?_ (subF_trans (by decide) hF)
        exact h1
      have k300 : Keeps fs s0 y296 := by
        refine setReg_keeps _ _ ?_ (alwL hF 8 0 (by simp only [remapReg, Reg.REMAP]; omega))
        exact k299
      have k301 : Keeps fs s0 y297 := by
        unfold y297
        split
        · extract_lets -merge -underBinder y302 y303
          have k304 : Keeps fs s0 y302 := by
            refine setBit_keeps _ _ _ ?_ (alwL hF 8 0 (by simp only [remapReg, Reg.REMAP]; omega))
            exact k300
          refine Keeps.upd ?_ (.inr rfl) (.inl ⟨rfl, rfl⟩) (.inr rfl) (.inr rfl) (.inr rfl) (.inl ⟨rfl, rfl⟩) (.inl ⟨rfl, rfl⟩) (.inl rfl) (.inl (alw hF (by decide))) (.inr rfl) (.inr rfl) (.inr rfl) (.inr ⟨rfl, rfl⟩) (.inr rfl) (.inr rfl) (.inr rfl) (.inr rfl) (.inr rfl) (.inr rfl) (.inr rfl) (.inr rfl) (.inr rfl) (.inr rfl) (.inr rfl) (.inr rfl) (.inr rfl) (.inr rfl) (.inr rfl) (.inl rfl) rfl
          exact k304
        · exact k300
      refine Keeps.upd ?_ (.inr rfl) (.inl ⟨rfl, rfl⟩) (.inr rfl) (.inr rfl) (.inr rfl) (.inl ⟨rfl, rfl⟩) (.inl ⟨rfl, rfl⟩) (.inl rfl) (.inl (alw hF (by decide))) (.inr rfl) (.inr rfl) (.inr rfl) (.inr ⟨rfl, rfl⟩) (.inr rfl) (.inr rfl) (.inr rfl) (.inr rfl) (.inr rfl) (.inr rfl) (.inr rfl) (.inr rfl) (.inr rfl) (.inr rfl) (.inr rfl) (.inr rfl) (.inr rfl) (.inr rfl) (.inr rfl) (.inl rfl) rfl
      exact k301

theorem State.spReadCell_keeps {fs : List Zone} {s0 : State} (s : State) (b : ℕ) (idx : ℕ) (spare : Option ℕ) (addr : ℕ) (h1 : Keeps fs s0 s) (hF : subF [.memo, .block 1, .out, .sp, .block 8] fs = true) :
    Keeps fs s0 (State.spReadCell s b idx spare addr).1 := by
  unfold State.spReadCell
  extract_lets -merge -underBinder y305 y306
  try clear_value y306
  split
  · refine keeps_mk_fst ?_
    exact h1
  · refine keeps_mk_fst ?_
    refine State.suspectError_keeps _ _ _ _ _ ?_ (subF_trans (by decide) hF)
    refine State.countCE_keeps _ _ _ _ ?_ (subF_trans (by decide) hF)
    exact h1
  · refine keeps_mk_fst ?_
    refine State.fire_keeps _ _ ?_ (subF_trans (by decide) hF)
    refine State.countUE_keeps _ _ _ _ ?_ (subF_trans (by decide) hF)
    exact h1

theorem State.spReadWord_keeps {fs : List Zone} {s0 : State} (s : State) (w : ℕ) (h1 : Keeps fs s0 s) (hF : subF [.memo, .block 1, .out, .sp, .block 8] fs = true) :
    Keeps fs s0 (State.spReadWord s w).1 := by
  unfold State.spReadWord
  refine State.spReadCell_keeps _ _ _ _ _ ?_ (subF_trans (by decide) hF)
  exact h1

theorem State.spReadWords_keeps {fs : List Zone} {s0 : State} (s : State) (w : ℕ) (x3 : ℕ) (h1 : Keeps fs s0 s) (hF : subF [.memo, .block 1, .out, .sp, .block 8] fs = true) :
    Keeps fs s0 (State.spReadWords s w x3).1 := by
  induction x3 generalizing s w with
  | zero => exact h1
  | succ n ih =>
    unfold State.spReadWords
    exact ih _ _ (State.spReadWord_keeps _ _ h1 (subF_trans (by decide) hF))

theorem State.spRead_keeps {fs : List Zone} {s0 : State} (s : State) (off : ℕ) (len : ℕ) (h1 : Keeps fs s0 s) (hF : subF [.free, .memo, .block 1, .out, .sp, .block 8] fs = true) :
    Keeps fs s0 (State.spRead s off len).1 := by
  unfold State.spRead
  extract_lets -merge -underBinder y307
  have k308 : Keeps fs s0 y307.1 := by
    refine State.spReadWords_keeps _ _ _ ?_ (subF_trans (by decide) hF)
    exact h1
  refine keeps_ite_fst ?_ ?_
  · refine keeps_mk_fst ?_
    refine State.useFree_keeps _ ?_ (subF_trans (by decide) hF)
    exact h1
  · refine keeps_ite_fst ?_ ?_
    · refine keeps_mk_fst ?_
      refine State.useFree_keeps _ ?_ (subF_trans (by decide) hF)
      exact h1
    · refine keeps_ite_fst ?_ ?_
      · refine keeps_mk_fst ?_
        refine State.useFree_keeps _ ?_ (subF_trans (by decide) hF)
        exact k308
      · refine keeps_mk_fst ?_
        refine State.useFree_keeps _ ?_ (subF_trans (by decide) hF)
        exact k308

theorem State.collide_keeps {fs : List Zone} {s0 : State} (s : State) (ini : ℕ) (addr : ℕ) (h1 : Keeps fs s0 s) (hF : subF [.block 1, .out, .block 8] fs = true) :
    Keeps fs s0 (State.collide s ini addr) := by
  unfold State.collide
  refine State.fire_keeps _ _ ?_ (subF_trans (by decide) hF)
  refine record_keeps _ _ ?_ ?_ (alwB hF 8 rfl (by decide))
  · refine satInc_keeps _ _ _ ?_ (alwB hF 8 rfl (by decide))
    exact h1
  · intro z309 h310
    refine setFld_keeps _ _ _ _ ?_ (alwB hF 8 rfl (by decide))
    refine setFld_keeps _ _ _ _ ?_ (alwB hF 8 rfl (by decide))
    refine setReg_keeps _ _ ?_ (alwB hF 8 rfl (by decide))
    exact h310

theorem State.spWriteWords_keeps {fs : List Zone} {s0 : State} (s : State) (ini : ℕ) (met : List ℕ) (w : ℕ) (x5 : List (Word64 × BitVec 8)) (h1 : Keeps fs s0 s) (hF : subF [.block 1, .out, .block 8, .sp] fs = true) :
    Keeps fs s0 (State.spWriteWords s ini met w x5).1 := by
  induction x5 generalizing s w with
  | nil => exact h1
  | cons p t ih =>
    obtain ⟨d, be⟩ := p
    unfold State.spWriteWords
    apply ih
    refine keeps_ite_fst h1 (keeps_ite_fst h1 (keeps_ite_fst ?_ ?_))
    · exact State.collide_keeps _ _ _ h1 (subF_trans (by decide) hF)
    · exact State.spWrite_keeps _ _ _ h1 (subF_trans (by decide) hF)

theorem State.spWriteReq_keeps {fs : List Zone} {s0 : State} (s : State) (ini : ℕ) (off : ℕ) (met : List ℕ) (data : List (Word64 × BitVec 8)) (h1 : Keeps fs s0 s) (hF : subF [.block 1, .out, .block 8, .sp] fs = true) :
    Keeps fs s0 (State.spWriteReq s ini off met data).1 := by
  unfold State.spWriteReq
  extract_lets -merge -underBinder y311
  have k312 : Keeps fs s0 y311.1 := by
    refine State.spWriteWords_keeps _ _ _ _ _ ?_ (subF_trans (by decide) hF)
    exact h1
  refine keeps_ite_fst ?_ ?_
  · refine keeps_mk_fst ?_
    exact h1
  · refine keeps_mk_fst ?_
    exact k312

theorem State.memFillStart_keeps {fs : List Zone} {s0 : State} (s : State) (h1 : Keeps fs s0 s) (hF : subF [.block 8] fs = true) :
    Keeps fs s0 (State.memFillStart s) := by
  unfold State.memFillStart
  refine setBit_keeps _ _ _ ?_ (alwB hF 8 rfl (by decide))
  exact h1

theorem execMemFillStart_keeps (s : State) : ∃ s', execMemFillStart s = .next s' ∧
    Keeps [.block 8] s s' := by
  have hF : subF [.block 8] [.block 8] = true := by decide
  unfold execMemFillStart
  refine ⟨_, rfl, ?_⟩
  refine State.memFillStart_keeps _ ?_ (subF_trans (by decide) hF)
  exact (Keeps.rfl' _ _)

theorem State.fillDone_keeps {fs : List Zone} {s0 : State} (s : State) (h1 : Keeps fs s0 s) (hF : subF [.block 1, .out, .block 8, .sp] fs = true) :
    Keeps fs s0 (State.fillDone s) := by
  unfold State.fillDone
  extract_lets -merge -underBinder y313
  refine keeps_ite ?_ ?_
  · refine State.fire_keeps _ _ ?_ (subF_trans (by decide) hF)
    refine setBit_keeps _ _ _ ?_ (alwB hF 8 rfl (by decide))
    refine setBit_keeps _ _ _ ?_ (alwB hF 8 rfl (by decide))
    refine Keeps.upd ?_ (.inr rfl) (.inl ⟨rfl, rfl⟩) (.inr rfl) (.inr rfl) (.inr rfl) (.inr ⟨alw hF (by decide), by first | exact fun _ => rfl | (dsimp only; exact fun h => Store.wf_set _ _ _ _ h)⟩) (.inl ⟨rfl, rfl⟩) (.inl rfl) (.inr rfl) (.inr rfl) (.inr rfl) (.inr rfl) (.inr ⟨rfl, rfl⟩) (.inr rfl) (.inr rfl) (.inr rfl) (.inr rfl) (.inr rfl) (.inr rfl) (.inr rfl) (.inr rfl) (.inr rfl) (.inr rfl) (.inr rfl) (.inr rfl) (.inr rfl) (.inr rfl) (.inr rfl) (.inl rfl) rfl
    exact h1
  · exact h1

theorem execFillDone_keeps (s : State) : ∃ s', execFillDone s = .next s' ∧
    Keeps [.block 1, .out, .block 8, .sp] s s' := by
  have hF : subF [.block 1, .out, .block 8, .sp] [.block 1, .out, .block 8, .sp] = true := by decide
  unfold execFillDone
  refine ⟨_, rfl, ?_⟩
  refine State.fillDone_keeps _ ?_ (subF_trans (by decide) hF)
  exact (Keeps.rfl' _ _)

theorem execBucketLeak_keeps (k : ℕ) (s : State) : ∃ s', execBucketLeak k s = .next s' ∧
    Keeps [.block 8] s s' := by
  have hF : subF [.block 8] [.block 8] = true := by decide
  unfold execBucketLeak
  refine ⟨_, rfl, ?_⟩
  refine setFld_keeps _ _ _ _ ?_ (alwL hF 8 0 (by simp only [kindReg, Reg.BKT_STAT]; omega))
  exact (Keeps.rfl' _ _)

theorem State.cfgRefused_keeps {fs : List Zone} {s0 : State} (s : State) (h1 : Keeps fs s0 s) (hF : subF [.block 8] fs = true) :
    Keeps fs s0 (State.cfgRefused s) := by
  unfold State.cfgRefused
  refine setBit_keeps _ _ _ ?_ (alwB hF 8 rfl (by decide))
  exact h1

theorem State.bktCfgWrite_keeps {fs : List Zone} {s0 : State} (s : State) (k : ℕ) (v : Word) (h1 : Keeps fs s0 s) (hF : subF [.block 8] fs = true) :
    Keeps fs s0 (State.bktCfgWrite s k v) := by
  unfold State.bktCfgWrite
  refine keeps_ite ?_ ?_
  · refine State.cfgRefused_keeps _ ?_ (subF_trans (by decide) hF)
    exact h1
  · refine setFld_keeps _ _ _ _ ?_ (alwL hF 8 0 (by simp only [kindReg, Reg.BKT_STAT]; omega))
    refine setFld_keeps _ _ _ _ ?_ (alwL hF 8 0 (by simp only [kindReg, Reg.BKT_CFG]; omega))
    refine setFld_keeps _ _ _ _ ?_ (alwL hF 8 0 (by simp only [kindReg, Reg.BKT_CFG]; omega))
    exact h1

theorem execBktCfgWrite_keeps (k : ℕ) (v : Word) (s : State) : ∃ s', execBktCfgWrite k v s = .next s' ∧
    Keeps [.block 8] s s' := by
  have hF : subF [.block 8] [.block 8] = true := by decide
  unfold execBktCfgWrite
  refine ⟨_, rfl, ?_⟩
  refine State.bktCfgWrite_keeps _ _ _ ?_ (subF_trans (by decide) hF)
  exact (Keeps.rfl' _ _)

theorem State.logAck_keeps {fs : List Zone} {s0 : State} (s : State) (k : ℕ) (v : Word) (h1 : Keeps fs s0 s) (hF : subF [.block 8] fs = true) :
    Keeps fs s0 (State.logAck s k v) := by
  unfold State.logAck
  extract_lets -merge -underBinder y314 y315 y316
  have k317 : Keeps fs s0 y316 := by
    refine setFld_keeps _ _ _ _ ?_ (alwL hF 8 0 (by simp only [y314, kindReg, Reg.LOG_STAT]; omega))
    refine setFld_keeps _ _ _ _ ?_ (alwL hF 8 0 (by simp only [y314, kindReg, Reg.LOG_STAT]; omega))
    exact h1
  refine keeps_ite ?_ ?_
  · refine setBit_keeps _ _ _ ?_ (alwL hF 8 0 (by simp only [y314, kindReg, Reg.LOG_STAT]; omega))
    exact k317
  · exact k317

theorem execLogStatAck_keeps (k : ℕ) (v : Word) (s : State) : ∃ s', execLogStatAck k v s = .next s' ∧
    Keeps [.block 8] s s' := by
  have hF : subF [.block 8] [.block 8] = true := by decide
  unfold execLogStatAck
  refine ⟨_, rfl, ?_⟩
  refine State.logAck_keeps _ _ _ ?_ (subF_trans (by decide) hF)
  exact (Keeps.rfl' _ _)

theorem State.remapWrite_keeps {fs : List Zone} {s0 : State} (s : State) (b : ℕ) (e : ℕ) (v : Word) (h1 : Keeps fs s0 s) (hF : subF [.block 8] fs = true) :
    Keeps fs s0 (State.remapWrite s b e v) := by
  unfold State.remapWrite
  extract_lets -merge -underBinder y318 y319
  refine keeps_ite ?_ ?_
  · refine State.cfgRefused_keeps _ ?_ (subF_trans (by decide) hF)
    exact h1
  · refine setFld_keeps _ _ _ _ ?_ (alwL hF 8 0 (by simp only [y319, remapReg, Reg.REMAP]; omega))
    refine setBit_keeps _ _ _ ?_ (alwL hF 8 0 (by simp only [y319, remapReg, Reg.REMAP]; omega))
    exact h1

theorem execRemapWrite_keeps (b : ℕ) (e : ℕ) (v : Word) (s : State) : ∃ s', execRemapWrite b e v s = .next s' ∧
    Keeps [.block 8] s s' := by
  have hF : subF [.block 8] [.block 8] = true := by decide
  unfold execRemapWrite
  refine ⟨_, rfl, ?_⟩
  refine State.remapWrite_keeps _ _ _ _ ?_ (subF_trans (by decide) hF)
  exact (Keeps.rfl' _ _)

theorem State.setSecCell_keeps {fs : List Zone} {s0 : State} (s : State) (k : ℕ) (w : Word72) (h1 : Keeps fs s0 s) (hF : subF [.sec] fs = true) :
    Keeps fs s0 (State.setSecCell s k w) := by
  unfold State.setSecCell
  extract_lets -merge -underBinder y320
  refine Keeps.upd ?_ (.inr rfl) (.inl ⟨rfl, rfl⟩) (.inr rfl) (.inr rfl) (.inr rfl) (.inl ⟨rfl, rfl⟩) (.inr ⟨alw hF (by decide), by first | exact fun _ => rfl | (dsimp only; exact fun h => Store.wf_set _ _ _ _ h)⟩) (.inl rfl) (.inr rfl) (.inr rfl) (.inr rfl) (.inr rfl) (.inr ⟨rfl, rfl⟩) (.inr rfl) (.inr rfl) (.inr rfl) (.inr rfl) (.inr rfl) (.inr rfl) (.inr rfl) (.inr rfl) (.inr rfl) (.inr rfl) (.inr rfl) (.inr rfl) (.inr rfl) (.inr rfl) (.inr rfl) (.inl rfl) rfl
  exact h1

theorem State.secReadWord_keeps {fs : List Zone} {s0 : State} (s : State) (k : ℕ) (h1 : Keeps fs s0 s) (hF : subF [.block 1, .out, .block 8] fs = true) :
    Keeps fs s0 (State.secReadWord s k).1 := by
  unfold State.secReadWord
  extract_lets -merge -underBinder y321
  try clear_value y321
  split
  · refine keeps_mk_fst ?_
    exact h1
  · refine keeps_mk_fst ?_
    refine State.countCE_keeps _ _ _ _ ?_ (subF_trans (by decide) hF)
    exact h1
  · refine keeps_mk_fst ?_
    refine State.fire_keeps _ _ ?_ (subF_trans (by decide) hF)
    refine State.countUE_keeps _ _ _ _ ?_ (subF_trans (by decide) hF)
    exact h1

theorem State.secReadWords_keeps {fs : List Zone} {s0 : State} (s : State) (k : ℕ) (x3 : ℕ) (h1 : Keeps fs s0 s) (hF : subF [.block 1, .out, .block 8] fs = true) :
    Keeps fs s0 (State.secReadWords s k x3).1 := by
  induction x3 generalizing s k with
  | zero => exact h1
  | succ n ih =>
    unfold State.secReadWords
    exact ih _ _ (State.secReadWord_keeps _ _ h1 (subF_trans (by decide) hF))

theorem State.secRead_keeps {fs : List Zone} {s0 : State} (s : State) (off : ℕ) (len : ℕ) (h1 : Keeps fs s0 s) (hF : subF [.free, .block 1, .out, .block 8] fs = true) :
    Keeps fs s0 (State.secRead s off len).1 := by
  unfold State.secRead
  extract_lets -merge -underBinder y322
  have k323 : Keeps fs s0 y322.1 := by
    refine State.secReadWords_keeps _ _ _ ?_ (subF_trans (by decide) hF)
    exact h1
  refine keeps_ite_fst ?_ ?_
  · refine keeps_mk_fst ?_
    refine State.useFree_keeps _ ?_ (subF_trans (by decide) hF)
    exact h1
  · refine keeps_ite_fst ?_ ?_
    · refine keeps_mk_fst ?_
      refine State.useFree_keeps _ ?_ (subF_trans (by decide) hF)
      exact h1
    · refine keeps_ite_fst ?_ ?_
      · refine keeps_mk_fst ?_
        refine State.useFree_keeps _ ?_ (subF_trans (by decide) hF)
        exact k323
      · refine keeps_mk_fst ?_
        refine State.useFree_keeps _ ?_ (subF_trans (by decide) hF)
        exact k323

theorem State.secPort_keeps {fs : List Zone} {s0 : State} (s : State) (k : ℕ) (h1 : Keeps fs s0 s) (hF : subF [.block 1, .out, .block 8, .free] fs = true) :
    Keeps fs s0 (State.secPort s k).1 := by
  unfold State.secPort
  extract_lets -merge -underBinder y324
  have k325 : Keeps fs s0 y324.1 := by
    refine State.secReadWord_keeps _ _ ?_ (subF_trans (by decide) hF)
    exact h1
  refine keeps_ite_fst ?_ ?_
  · refine keeps_mk_fst ?_
    exact h1
  · refine keeps_mk_fst ?_
    refine State.useFree_keeps _ ?_ (subF_trans (by decide) hF)
    exact k325

theorem State.secWriteWord_keeps {fs : List Zone} {s0 : State} (s : State) (k : ℕ) (d : Word64) (be : BitVec 8) (h1 : Keeps fs s0 s) (hF : subF [.sec, .block 1, .out, .block 8, .free] fs = true) :
    Keeps fs s0 (State.secWriteWord s k d be).1 := by
  unfold State.secWriteWord
  extract_lets -merge -underBinder y326 y327
  have k328 : Keeps fs s0 y326.1 := by
    refine State.secReadWord_keeps _ _ ?_ (subF_trans (by decide) hF)
    exact h1
  refine keeps_ite_fst ?_ ?_
  · refine keeps_mk_fst ?_
    exact h1
  · refine keeps_ite_fst ?_ ?_
    · refine keeps_mk_fst ?_
      refine State.setSecCell_keeps _ _ _ ?_ (subF_trans (by decide) hF)
      exact h1
    · refine keeps_ite_fst ?_ ?_
      · refine keeps_ite_fst ?_ ?_
        · refine keeps_mk_fst ?_
          refine State.useFree_keeps _ ?_ (subF_trans (by decide) hF)
          refine State.setSecCell_keeps _ _ _ ?_ (subF_trans (by decide) hF)
          exact k328
        · refine keeps_mk_fst ?_
          refine State.useFree_keeps _ ?_ (subF_trans (by decide) hF)
          refine State.setSecCell_keeps _ _ _ ?_ (subF_trans (by decide) hF)
          exact k328
      · refine keeps_mk_fst ?_
        exact h1

theorem State.secWriteWords_keeps {fs : List Zone} {s0 : State} (s : State) (k : ℕ) (x3 : List (Word64 × BitVec 8)) (h1 : Keeps fs s0 s) (hF : subF [.sec, .block 1, .out, .block 8, .free] fs = true) :
    Keeps fs s0 (State.secWriteWords s k x3).1 := by
  induction x3 generalizing s k with
  | nil => exact h1
  | cons p t ih =>
    obtain ⟨d, be⟩ := p
    unfold State.secWriteWords
    exact ih _ _ (State.secWriteWord_keeps _ _ _ _ h1 (subF_trans (by decide) hF))

theorem State.secWriteReq_keeps {fs : List Zone} {s0 : State} (s : State) (off : ℕ) (data : List (Word64 × BitVec 8)) (h1 : Keeps fs s0 s) (hF : subF [.sec, .block 1, .out, .block 8, .free] fs = true) :
    Keeps fs s0 (State.secWriteReq s off data).1 := by
  unfold State.secWriteReq
  extract_lets -merge -underBinder y329
  have k330 : Keeps fs s0 y329.1 := by
    refine State.secWriteWords_keeps _ _ _ ?_ (subF_trans (by decide) hF)
    exact h1
  refine keeps_ite_fst ?_ ?_
  · refine keeps_mk_fst ?_
    exact h1
  · refine keeps_mk_fst ?_
    exact k330

theorem State.secZero_keeps {fs : List Zone} {s0 : State} (s : State) (h1 : Keeps fs s0 s) (hF : subF [.sec] fs = true) :
    Keeps fs s0 (State.secZero s) := by
  unfold State.secZero
  extract_lets -merge -underBinder y331
  refine Keeps.upd ?_ (.inr rfl) (.inl ⟨rfl, rfl⟩) (.inr rfl) (.inr rfl) (.inr rfl) (.inl ⟨rfl, rfl⟩) (.inr ⟨alw hF (by decide), by first | exact fun _ => rfl | (dsimp only; exact fun h => Store.wf_set _ _ _ _ h)⟩) (.inl rfl) (.inr rfl) (.inr rfl) (.inr rfl) (.inr rfl) (.inr ⟨rfl, rfl⟩) (.inr rfl) (.inr rfl) (.inr rfl) (.inr rfl) (.inr rfl) (.inr rfl) (.inr rfl) (.inr rfl) (.inr rfl) (.inr rfl) (.inr rfl) (.inr rfl) (.inr rfl) (.inr rfl) (.inr rfl) (.inl rfl) rfl
  exact h1

theorem State.tamper_keeps {fs : List Zone} {s0 : State} (s : State) (t : ℕ) (h1 : Keeps fs s0 s) (hF : subF [.sec, .memo, .block 8] fs = true) :
    Keeps fs s0 (State.tamper s t) := by
  unfold State.tamper
  extract_lets -merge -underBinder y332 y333 y334
  have k335 : Keeps fs s0 y332 := by
    refine State.secZero_keeps _ ?_ (subF_trans (by decide) hF)
    exact h1
  have k336 : Keeps fs s0 y334 := by
    refine setBit_keeps _ _ _ ?_ (alwB hF 8 rfl (by decide))
    exact h1
  refine keeps_ite ?_ ?_
  · exact h1
  · refine keeps_ite ?_ ?_
    · refine Keeps.upd ?_ (.inr rfl) (.inl ⟨rfl, rfl⟩) (.inr rfl) (.inr rfl) (.inr rfl) (.inl ⟨rfl, rfl⟩) (.inl ⟨rfl, rfl⟩) (.inl rfl) (.inl (alw hF (by decide))) (.inr rfl) (.inr rfl) (.inr rfl) (.inr ⟨rfl, rfl⟩) (.inr rfl) (.inr rfl) (.inr rfl) (.inr rfl) (.inr rfl) (.inr rfl) (.inr rfl) (.inr rfl) (.inr rfl) (.inr rfl) (.inr rfl) (.inr rfl) (.inr rfl) (.inr rfl) (.inr rfl) (.inl rfl) rfl
      exact k335
    · refine keeps_ite ?_ ?_
      · exact k336
      · refine setBit_keeps _ _ _ ?_ (alwB hF 8 rfl (by decide))
        refine setFld_keeps _ _ _ _ ?_ (alwB hF 8 rfl (by decide))
        refine setBit_keeps _ _ _ ?_ (alwB hF 8 rfl (by decide))
        exact k336

theorem execTamperTrigger_keeps (t : ℕ) (s : State) : ∃ s', execTamperTrigger t s = .next s' ∧
    Keeps [.sec, .memo, .block 8] s s' := by
  have hF : subF [.sec, .memo, .block 8] [.sec, .memo, .block 8] = true := by decide
  unfold execTamperTrigger
  refine ⟨_, rfl, ?_⟩
  refine State.tamper_keeps _ _ ?_ (subF_trans (by decide) hF)
  exact (Keeps.rfl' _ _)

theorem State.wipeDone_keeps {fs : List Zone} {s0 : State} (s : State) (h1 : Keeps fs s0 s) (hF : subF [.block 1, .out, .block 8, .sec] fs = true) :
    Keeps fs s0 (State.wipeDone s) := by
  unfold State.wipeDone
  refine keeps_ite ?_ ?_
  · refine State.fireIf_keeps _ _ _ ?_ (subF_trans (by decide) hF)
    refine setBit_keeps _ _ _ ?_ (alwB hF 8 rfl (by decide))
    refine State.secZero_keeps _ ?_ (subF_trans (by decide) hF)
    exact h1
  · exact h1

theorem execSecureWipeDone_keeps (s : State) : ∃ s', execSecureWipeDone s = .next s' ∧
    Keeps [.block 1, .out, .block 8, .sec] s s' := by
  have hF : subF [.block 1, .out, .block 8, .sec] [.block 1, .out, .block 8, .sec] = true := by decide
  unfold execSecureWipeDone
  refine ⟨_, rfl, ?_⟩
  refine State.wipeDone_keeps _ ?_ (subF_trans (by decide) hF)
  exact (Keeps.rfl' _ _)

theorem State.lcReqWrite_keeps {fs : List Zone} {s0 : State} (s : State) (v : Word) (h1 : Keeps fs s0 s) (hF : subF [.block 8, .memo] fs = true) :
    Keeps fs s0 (State.lcReqWrite s v) := by
  unfold State.lcReqWrite
  extract_lets -merge -underBinder y337 y338 y339 y340 y341 y342 y343
  have k344 : Keeps fs s0 y337 := by
    refine keeps_ite ?_ ?_
    · refine setBit_keeps _ _ _ ?_ (alwB hF 8 rfl (by decide))
      exact h1
    · exact h1
  have k345 : Keeps fs s0 y340 := by
    refine setFld_keeps _ _ _ _ ?_ (alwB hF 8 rfl (by decide))
    refine setBit_keeps _ _ _ ?_ (alwB hF 8 rfl (by decide))
    exact k344
  have k346 : Keeps fs s0 y342 := by
    refine setFld_keeps _ _ _ _ ?_ (alwB hF 8 rfl (by decide))
    refine setBit_keeps _ _ _ ?_ (alwB hF 8 rfl (by decide))
    exact k344
  refine keeps_ite ?_ ?_
  · exact k344
  · refine keeps_ite ?_ ?_
    · refine Keeps.upd ?_ (.inr rfl) (.inl ⟨rfl, rfl⟩) (.inr rfl) (.inr rfl) (.inr rfl) (.inl ⟨rfl, rfl⟩) (.inl ⟨rfl, rfl⟩) (.inl rfl) (.inl (alw hF (by decide))) (.inr rfl) (.inr rfl) (.inr rfl) (.inr ⟨rfl, rfl⟩) (.inr rfl) (.inr rfl) (.inr rfl) (.inr rfl) (.inr rfl) (.inr rfl) (.inr rfl) (.inr rfl) (.inr rfl) (.inr rfl) (.inr rfl) (.inr rfl) (.inr rfl) (.inr rfl) (.inr rfl) (.inl rfl) rfl
      exact k345
    · refine keeps_ite ?_ ?_
      · refine Keeps.upd ?_ (.inr rfl) (.inl ⟨rfl, rfl⟩) (.inr rfl) (.inr rfl) (.inr rfl) (.inl ⟨rfl, rfl⟩) (.inl ⟨rfl, rfl⟩) (.inl rfl) (.inl (alw hF (by decide))) (.inr rfl) (.inr rfl) (.inr rfl) (.inr ⟨rfl, rfl⟩) (.inr rfl) (.inr rfl) (.inr rfl) (.inr rfl) (.inr rfl) (.inr rfl) (.inr rfl) (.inr rfl) (.inr rfl) (.inr rfl) (.inr rfl) (.inr rfl) (.inr rfl) (.inr rfl) (.inr rfl) (.inl rfl) rfl
        exact k346
      · refine State.cfgRefused_keeps _ ?_ (subF_trans (by decide) hF)
        exact k344

theorem execLcReqWrite_keeps (v : Word) (s : State) : ∃ s', execLcReqWrite v s = .next s' ∧
    Keeps [.block 8, .memo] s s' := by
  have hF : subF [.block 8, .memo] [.block 8, .memo] = true := by decide
  unfold execLcReqWrite
  refine ⟨_, rfl, ?_⟩
  refine State.lcReqWrite_keeps _ _ ?_ (subF_trans (by decide) hF)
  exact (Keeps.rfl' _ _)

theorem State.ddrCfgWrite_keeps {fs : List Zone} {s0 : State} (s : State) (v : Word) (h1 : Keeps fs s0 s) (hF : subF [.block 8] fs = true) :
    Keeps fs s0 (State.ddrCfgWrite s v) := by
  unfold State.ddrCfgWrite
  refine keeps_ite ?_ ?_
  · refine State.cfgRefused_keeps _ ?_ (subF_trans (by decide) hF)
    exact h1
  · refine codeWrite_keeps _ _ ?_ (alwB hF 8 rfl (by decide))
    exact h1

theorem execDdrCfgWrite_keeps (v : Word) (s : State) : ∃ s', execDdrCfgWrite v s = .next s' ∧
    Keeps [.block 8] s s' := by
  have hF : subF [.block 8] [.block 8] = true := by decide
  unfold execDdrCfgWrite
  refine ⟨_, rfl, ?_⟩
  refine State.ddrCfgWrite_keeps _ _ ?_ (subF_trans (by decide) hF)
  exact (Keeps.rfl' _ _)

theorem State.ddrTrained_keeps {fs : List Zone} {s0 : State} (s : State) (ok : Bool) (match' : Bool) (h1 : Keeps fs s0 s) (hF : subF [.block 8, .memo, .block 1, .out] fs = true) :
    Keeps fs s0 (State.ddrTrained s ok match') := by
  unfold State.ddrTrained
  extract_lets -merge -underBinder y347 y348 y349 y350 y351
  have k352 : Keeps fs s0 y349 := by
    refine setBit_keeps _ _ _ ?_ (alwB hF 8 rfl (by decide))
    refine setBit_keeps _ _ _ ?_ (alwB hF 8 rfl (by decide))
    exact h1
  have k353 : Keeps fs s0 y350 := by
    refine setFld_keeps _ _ _ _ ?_ (alwB hF 8 rfl (by decide))
    exact k352
  refine keeps_ite ?_ ?_
  · exact h1
  · refine keeps_ite ?_ ?_
    · refine Keeps.upd ?_ (.inr rfl) (.inl ⟨rfl, rfl⟩) (.inr rfl) (.inr rfl) (.inr rfl) (.inl ⟨rfl, rfl⟩) (.inl ⟨rfl, rfl⟩) (.inl rfl) (.inl (alw hF (by decide))) (.inr rfl) (.inr rfl) (.inr rfl) (.inr ⟨rfl, rfl⟩) (.inr rfl) (.inr rfl) (.inr rfl) (.inr rfl) (.inr rfl) (.inr rfl) (.inr rfl) (.inr rfl) (.inr rfl) (.inr rfl) (.inr rfl) (.inr rfl) (.inr rfl) (.inr rfl) (.inr rfl) (.inl rfl) rfl
      exact k353
    · refine State.fire_keeps _ _ ?_ (subF_trans (by decide) hF)
      refine setBit_keeps _ _ _ ?_ (alwB hF 8 rfl (by decide))
      exact h1

theorem execDdrTrainingEnd_keeps (ok : Bool) (cached : Bool) (s : State) : ∃ s', execDdrTrainingEnd ok cached s = .next s' ∧
    Keeps [.block 8, .memo, .block 1, .out] s s' := by
  have hF : subF [.block 8, .memo, .block 1, .out] [.block 8, .memo, .block 1, .out] = true := by decide
  unfold execDdrTrainingEnd
  refine ⟨_, rfl, ?_⟩
  refine State.ddrTrained_keeps _ _ _ ?_ (subF_trans (by decide) hF)
  exact (Keeps.rfl' _ _)

theorem execMr4Poll_keeps (overtemp : Bool) (s : State) : ∃ s', execMr4Poll overtemp s = .next s' ∧
    Keeps [.block 1, .out, .block 8] s s' := by
  have hF : subF [.block 1, .out, .block 8] [.block 1, .out, .block 8] = true := by decide
  unfold execMr4Poll
  refine ⟨_, rfl, ?_⟩
  refine keeps_ite ?_ ?_
  · refine State.fire_keeps _ _ ?_ (subF_trans (by decide) hF)
    refine setBit_keeps _ _ _ ?_ (alwB hF 8 rfl (by decide))
    exact (Keeps.rfl' _ _)
  · exact (Keeps.rfl' _ _)

theorem State.setDdrCell_keeps {fs : List Zone} {s0 : State} (s : State) (k : ℕ) (w : Word72) (h1 : Keeps fs s0 s) (hF : subF [.ddr] fs = true) :
    Keeps fs s0 (State.setDdrCell s k w) := by
  unfold State.setDdrCell
  extract_lets -merge -underBinder y354
  refine Keeps.upd ?_ (.inr rfl) (.inl ⟨rfl, rfl⟩) (.inr rfl) (.inr rfl) (.inr rfl) (.inl ⟨rfl, rfl⟩) (.inl ⟨rfl, rfl⟩) (.inr ⟨alw hF (by decide), by first | exact fun _ => rfl | (dsimp only; exact fun h => Store.wf_set _ _ _ _ h)⟩) (.inr rfl) (.inr rfl) (.inr rfl) (.inr rfl) (.inr ⟨rfl, rfl⟩) (.inr rfl) (.inr rfl) (.inr rfl) (.inr rfl) (.inr rfl) (.inr rfl) (.inr rfl) (.inr rfl) (.inr rfl) (.inr rfl) (.inr rfl) (.inr rfl) (.inr rfl) (.inr rfl) (.inr rfl) (.inl rfl) rfl
  exact h1

theorem State.ddrReadWord_keeps {fs : List Zone} {s0 : State} (s : State) (k : ℕ) (h1 : Keeps fs s0 s) (hF : subF [.block 1, .out, .block 8] fs = true) :
    Keeps fs s0 (State.ddrReadWord s k).1 := by
  unfold State.ddrReadWord
  extract_lets -merge -underBinder y355
  refine keeps_ite_fst ?_ ?_
  · try clear_value y355
    split
    · refine keeps_mk_fst ?_
      exact h1
    · refine keeps_mk_fst ?_
      refine State.countCE_keeps _ _ _ _ ?_ (subF_trans (by decide) hF)
      exact h1
    · refine keeps_mk_fst ?_
      refine State.fire_keeps _ _ ?_ (subF_trans (by decide) hF)
      refine State.countUE_keeps _ _ _ _ ?_ (subF_trans (by decide) hF)
      exact h1
  · refine keeps_mk_fst ?_
    exact h1

theorem State.ddrReadWords_keeps {fs : List Zone} {s0 : State} (s : State) (k : ℕ) (x3 : ℕ) (h1 : Keeps fs s0 s) (hF : subF [.block 1, .out, .block 8] fs = true) :
    Keeps fs s0 (State.ddrReadWords s k x3).1 := by
  induction x3 generalizing s k with
  | zero => exact h1
  | succ n ih =>
    unfold State.ddrReadWords
    exact ih _ _ (State.ddrReadWord_keeps _ _ h1 (subF_trans (by decide) hF))

theorem State.ddrRead_keeps {fs : List Zone} {s0 : State} (s : State) (off : ℕ) (len : ℕ) (h1 : Keeps fs s0 s) (hF : subF [.free, .block 1, .out, .block 8] fs = true) :
    Keeps fs s0 (State.ddrRead s off len).1 := by
  unfold State.ddrRead
  extract_lets -merge -underBinder y356
  have k357 : Keeps fs s0 y356.1 := by
    refine State.ddrReadWords_keeps _ _ _ ?_ (subF_trans (by decide) hF)
    exact h1
  refine keeps_ite_fst ?_ ?_
  · refine keeps_mk_fst ?_
    refine State.useFree_keeps _ ?_ (subF_trans (by decide) hF)
    exact h1
  · refine keeps_ite_fst ?_ ?_
    · refine keeps_mk_fst ?_
      refine State.useFree_keeps _ ?_ (subF_trans (by decide) hF)
      exact k357
    · refine keeps_mk_fst ?_
      refine State.useFree_keeps _ ?_ (subF_trans (by decide) hF)
      exact k357

theorem State.ddrWriteWord_keeps {fs : List Zone} {s0 : State} (s : State) (k : ℕ) (d : Word64) (be : BitVec 8) (h1 : Keeps fs s0 s) (hF : subF [.ddr, .block 1, .out, .block 8, .free] fs = true) :
    Keeps fs s0 (State.ddrWriteWord s k d be).1 := by
  unfold State.ddrWriteWord
  extract_lets -merge -underBinder y358 y359
  have k360 : Keeps fs s0 y358.1 := by
    refine State.ddrReadWord_keeps _ _ ?_ (subF_trans (by decide) hF)
    exact h1
  refine keeps_ite_fst ?_ ?_
  · refine keeps_mk_fst ?_
    exact h1
  · refine keeps_ite_fst ?_ ?_
    · refine keeps_mk_fst ?_
      refine State.setDdrCell_keeps _ _ _ ?_ (subF_trans (by decide) hF)
      exact h1
    · refine keeps_ite_fst ?_ ?_
      · refine keeps_mk_fst ?_
        exact h1
      · refine keeps_ite_fst ?_ ?_
        · refine keeps_mk_fst ?_
          refine State.useFree_keeps _ ?_ (subF_trans (by decide) hF)
          refine State.setDdrCell_keeps _ _ _ ?_ (subF_trans (by decide) hF)
          exact k360
        · refine keeps_mk_fst ?_
          refine State.useFree_keeps _ ?_ (subF_trans (by decide) hF)
          refine State.setDdrCell_keeps _ _ _ ?_ (subF_trans (by decide) hF)
          exact k360

theorem State.ddrWriteWords_keeps {fs : List Zone} {s0 : State} (s : State) (k : ℕ) (x3 : List (Word64 × BitVec 8)) (h1 : Keeps fs s0 s) (hF : subF [.ddr, .block 1, .out, .block 8, .free] fs = true) :
    Keeps fs s0 (State.ddrWriteWords s k x3).1 := by
  induction x3 generalizing s k with
  | nil => exact h1
  | cons p t ih =>
    obtain ⟨d, be⟩ := p
    unfold State.ddrWriteWords
    exact ih _ _ (State.ddrWriteWord_keeps _ _ _ _ h1 (subF_trans (by decide) hF))

theorem State.ddrWriteReq_keeps {fs : List Zone} {s0 : State} (s : State) (off : ℕ) (data : List (Word64 × BitVec 8)) (h1 : Keeps fs s0 s) (hF : subF [.ddr, .block 1, .out, .block 8, .free] fs = true) :
    Keeps fs s0 (State.ddrWriteReq s off data).1 := by
  unfold State.ddrWriteReq
  extract_lets -merge -underBinder y361
  have k362 : Keeps fs s0 y361.1 := by
    refine State.ddrWriteWords_keeps _ _ _ ?_ (subF_trans (by decide) hF)
    exact h1
  refine keeps_mk_fst ?_
  exact k362

theorem State.scrubRow_keeps {fs : List Zone} {s0 : State} (s : State) (k : ℕ) (a : ℕ) (dropped : Bool) (h1 : Keeps fs s0 s) (hF : subF [.block 8, .block 16, .block 1, .out, .arr, .free, .planes] fs = true) :
    Keeps fs s0 (State.scrubRow s k a dropped) := by
  unfold State.scrubRow
  extract_lets -merge -underBinder y363 y364 y365 y366
  have k367 : Keeps fs s0 y366 := by
    refine State.account_keeps _ _ ?_ (subF_trans (by decide) hF)
    refine State.useFree_keeps _ ?_ (subF_trans (by decide) hF)
    exact h1
  try clear_value y364
  split
  · refine keeps_ite ?_ ?_
    · exact k367
    · refine State.setPlaneCells_keeps _ _ _ ?_ (subF_trans (by decide) hF)
      exact k367
  · exact k367

theorem State.scrubOne_keeps {fs : List Zone} {s0 : State} (s : State) (k : ℕ) (u : ℕ) (dropped : Bool) (h1 : Keeps fs s0 s) (hF : subF [.memo, .block 1, .out, .sp, .block 8, .free, .sec, .block 16, .arr, .planes, .ddr] fs = true) :
    Keeps fs s0 (State.scrubOne s k u dropped) := by
  unfold State.scrubOne
  split
  · extract_lets -merge -underBinder y368 y369 y370 y371 y372 y373
    have k374 : Keeps fs s0 y373.1 := by
      refine State.spReadCell_keeps _ _ _ _ _ ?_ (subF_trans (by decide) hF)
      exact h1
    refine keeps_ite ?_ ?_
    · exact h1
    · try clear_value y372
      split
      · refine keeps_ite ?_ ?_
        · refine State.useFree_keeps _ ?_ (subF_trans (by decide) hF)
          exact k374
        · refine State.useFree_keeps _ ?_ (subF_trans (by decide) hF)
          refine State.setSpCell_keeps _ _ _ ?_ (subF_trans (by decide) hF)
          exact k374
      · refine State.useFree_keeps _ ?_ (subF_trans (by decide) hF)
        exact k374
  · extract_lets -merge -underBinder y375 y376
    have k377 : Keeps fs s0 y376.1 := by
      refine State.secReadWord_keeps _ _ ?_ (subF_trans (by decide) hF)
      exact h1
    refine keeps_ite ?_ ?_
    · exact h1
    · try clear_value y375
      split
      · refine keeps_ite ?_ ?_
        · refine State.useFree_keeps _ ?_ (subF_trans (by decide) hF)
          exact k377
        · refine State.useFree_keeps _ ?_ (subF_trans (by decide) hF)
          refine State.setSecCell_keeps _ _ _ ?_ (subF_trans (by decide) hF)
          exact k377
      · refine State.useFree_keeps _ ?_ (subF_trans (by decide) hF)
        exact k377
  · refine State.scrubRow_keeps _ _ _ _ ?_ (subF_trans (by decide) hF)
    exact h1
  · refine State.useFree_keeps _ ?_ (subF_trans (by decide) hF)
    refine keeps_foldl _ _ ?_ ?_
    · exact h1
    · intro z378 z380 h379
      extract_lets -merge -underBinder y381 y382
      have k383 : Keeps fs s0 y382.1 := by
        refine State.ddrReadWord_keeps _ _ ?_ (subF_trans (by decide) hF)
        exact h379
      try clear_value y381
      split
      · refine keeps_ite ?_ ?_
        · exact k383
        · refine State.setDdrCell_keeps _ _ _ ?_ (subF_trans (by decide) hF)
          exact k383
      · exact k383

theorem State.scrub_keeps {fs : List Zone} {s0 : State} (s : State) (k : ℕ) (dropped : Bool) (h1 : Keeps fs s0 s) (hF : subF [.memo, .block 1, .out, .sp, .block 8, .free, .sec, .block 16, .arr, .planes, .ddr] fs = true) :
    Keeps fs s0 (State.scrub s k dropped) := by
  unfold State.scrub
  split
  · exact h1
  · extract_lets -merge -underBinder y384 y385 y386 y387
    have k388 : Keeps fs s0 y385 := by
      refine State.scrubOne_keeps _ _ _ _ ?_ (subF_trans (by decide) hF)
      exact h1
    have k389 : Keeps fs s0 y387 := by
      refine Keeps.upd ?_ (.inr rfl) (.inl ⟨rfl, rfl⟩) (.inr rfl) (.inr rfl) (.inr rfl) (.inl ⟨rfl, rfl⟩) (.inl ⟨rfl, rfl⟩) (.inl rfl) (.inl (alw hF (by decide))) (.inr rfl) (.inr rfl) (.inr rfl) (.inr ⟨rfl, rfl⟩) (.inr rfl) (.inr rfl) (.inr rfl) (.inr rfl) (.inr rfl) (.inr rfl) (.inr rfl) (.inr rfl) (.inr rfl) (.inr rfl) (.inr rfl) (.inr rfl) (.inr rfl) (.inr rfl) (.inr rfl) (.inl rfl) rfl
      exact k388
    refine keeps_ite ?_ ?_
    · refine State.fire_keeps _ _ ?_ (subF_trans (by decide) hF)
      refine setFld_keeps _ _ _ _ ?_ (alwL hF 8 0 (by simp only [kindReg, Reg.SCRUB_CFG]; omega))
      exact k389
    · exact k389

theorem execScrubAccess_keeps (k : ℕ) (writtenSince : Bool) (s : State) : ∃ s', execScrubAccess k writtenSince s = .next s' ∧
    Keeps [.memo, .block 1, .out, .sp, .block 8, .free, .sec, .block 16, .arr, .planes, .ddr] s s' := by
  have hF : subF [.memo, .block 1, .out, .sp, .block 8, .free, .sec, .block 16, .arr, .planes, .ddr] [.memo, .block 1, .out, .sp, .block 8, .free, .sec, .block 16, .arr, .planes, .ddr] = true := by decide
  unfold execScrubAccess
  refine ⟨_, rfl, ?_⟩
  refine State.scrub_keeps _ _ _ ?_ (subF_trans (by decide) hF)
  exact (Keeps.rfl' _ _)

end Sys2Proof.Machine
end

