-- ==== Sys2Proof/Laws/KeepsCameras.lean ====
section
/-! SUPPORT. What each operation of Machine/Cameras.lean can change, one lemma an operation (Laws/KeepsBase.lean). -/

-- elaborated one declaration at a time, so that the package compiles as one text in bounded memory
set_option Elab.async false

namespace Sys2Proof.Machine

theorem State.setStream_keeps {fs : List Zone} {s0 : State} (s : State) (n : ℕ) (v : ℕ) (x : Stream) (h1 : Keeps fs s0 s) (hF : subF [.streams] fs = true) :
    Keeps fs s0 (State.setStream s n v x) := by
  unfold State.setStream
  refine Keeps.upd ?_ (.inr rfl) (.inl ⟨rfl, rfl⟩) (.inr rfl) (.inr rfl) (.inr rfl) (.inl ⟨rfl, rfl⟩) (.inl ⟨rfl, rfl⟩) (.inl rfl) (.inr rfl) (.inr rfl) (.inr rfl) (.inr rfl) (.inr ⟨rfl, rfl⟩) (.inr rfl) (.inr rfl) (.inr rfl) (.inr rfl) (.inr rfl) (.inr rfl) (.inr rfl) (.inr rfl) (.inr rfl) (.inl (alw hF (by decide))) (.inr rfl) (.inr rfl) (.inr rfl) (.inr rfl) (.inr rfl) (.inl rfl) rfl
  exact h1

theorem State.camRefused_keeps {fs : List Zone} {s0 : State} (s : State) (n : ℕ) (h1 : Keeps fs s0 s) (hF : subF [.block 20] fs = true) :
    Keeps fs s0 (State.camRefused s n) := by
  unfold State.camRefused
  refine setBit_keeps _ _ _ ?_ (alwL14 hF 0 (by simp only [camReg, Reg.CAM_STAT]; omega))
  exact h1

theorem State.camError_keeps {fs : List Zone} {s0 : State} (s : State) (n : ℕ) (v : ℕ) (h1 : Keeps fs s0 s) (hF : subF [.block 1, .out, .streams] fs = true) :
    Keeps fs s0 (State.camError s n v) := by
  unfold State.camError
  extract_lets -merge -underBinder y390
  refine State.fireIf_keeps _ _ _ ?_ (subF_trans (by decide) hF)
  refine State.setStream_keeps _ _ _ _ ?_ (subF_trans (by decide) hF)
  exact h1

theorem State.camCfgWrite_keeps {fs : List Zone} {s0 : State} (s : State) (n : ℕ) (v : ℕ) (w : Word) (h1 : Keeps fs s0 s) (hF : subF [.block 20, .streams] fs = true) :
    Keeps fs s0 (State.camCfgWrite s n v w) := by
  unfold State.camCfgWrite
  extract_lets -merge -underBinder y391 y392 y393 y394 y395
  have k396 : Keeps fs s0 y394 := by
    refine codeWrite_keeps _ _ ?_ (alwL14 hF 0 (by simp only [y391, strReg, Reg.STR_CFG]; omega))
    exact h1
  refine keeps_ite ?_ ?_
  · refine State.camRefused_keeps _ _ ?_ (subF_trans (by decide) hF)
    exact h1
  · refine keeps_ite ?_ ?_
    · exact k396
    · refine State.setStream_keeps _ _ _ _ ?_ (subF_trans (by decide) hF)
      exact k396

theorem execCamStreamCfgWrite_keeps (n : ℕ) (vc : ℕ) (v : Word) (s : State) : ∃ s', execCamStreamCfgWrite n vc v s = .next s' ∧
    Keeps [.block 20, .streams] s s' := by
  have hF : subF [.block 20, .streams] [.block 20, .streams] = true := by decide
  unfold execCamStreamCfgWrite
  refine ⟨_, rfl, ?_⟩
  refine State.camCfgWrite_keeps _ _ _ _ ?_ (subF_trans (by decide) hF)
  exact (Keeps.rfl' _ _)

theorem State.camGeomWrite_keeps {fs : List Zone} {s0 : State} (s : State) (n : ℕ) (v : ℕ) (a : ℕ) (w : Word) (h1 : Keeps fs s0 s) (ha1 : Zone.inList (.block (blockOf (a))) fs = true) (hF : subF [.block 20] fs = true) :
    Keeps fs s0 (State.camGeomWrite s n v a w) := by
  unfold State.camGeomWrite
  refine keeps_ite ?_ ?_
  · refine State.camRefused_keeps _ _ ?_ (subF_trans (by decide) hF)
    exact h1
  · refine codeWrite_keeps _ _ ?_ ha1
    exact h1

theorem State.camCtlWrite_keeps {fs : List Zone} {s0 : State} (s : State) (n : ℕ) (w : Word) (h1 : Keeps fs s0 s) (hF : subF [.block 20] fs = true) :
    Keeps fs s0 (State.camCtlWrite s n w) := by
  unfold State.camCtlWrite
  refine keeps_ite ?_ ?_
  · refine State.camRefused_keeps _ _ ?_ (subF_trans (by decide) hF)
    exact h1
  · refine codeWrite_keeps _ _ ?_ (alwL14 hF 0 (by simp only [camReg, Reg.CAM_CTL]; omega))
    exact h1

theorem State.camComplete_keeps {fs : List Zone} {s0 : State} (s : State) (n : ℕ) (v : ℕ) (truncated : Bool) (h1 : Keeps fs s0 s) (hF : subF [.block 20, .sm, .block 1, .out, .streams] fs = true) :
    Keeps fs s0 (State.camComplete s n v truncated) := by
  unfold State.camComplete
  extract_lets -merge -underBinder y397 y398 y399 y400 y401 y402
  have k403 : Keeps fs s0 y399 := by
    refine setFld_keeps _ _ _ _ ?_ (alwL14 hF 0 (by simp only [y398, strReg, Reg.STR_SSTAT]; omega))
    refine setBit_keeps _ _ _ ?_ (alwL14 hF 0 (by simp only [y398, strReg, Reg.STR_SSTAT]; omega))
    refine setFld_keeps _ _ _ _ ?_ (alwL14 hF 0 (by simp only [y398, strReg, Reg.STR_SSTAT]; omega))
    exact h1
  have k404 : Keeps fs s0 y402 := by
    refine keeps_ite ?_ ?_
    · refine Keeps.upd ?_ (.inr rfl) (.inl ⟨rfl, rfl⟩) (.inr rfl) (.inr rfl) (.inr rfl) (.inl ⟨rfl, rfl⟩) (.inl ⟨rfl, rfl⟩) (.inl rfl) (.inr rfl) (.inr rfl) (.inr rfl) (.inr rfl) (.inr ⟨rfl, rfl⟩) (.inr rfl) (.inr rfl) (.inr rfl) (.inr rfl) (.inr rfl) (.inr rfl) (.inr rfl) (.inl (alw hF (by decide))) (.inr rfl) (.inr rfl) (.inr rfl) (.inr rfl) (.inr rfl) (.inr rfl) (.inr rfl) (.inl rfl) rfl
      exact k403
    · exact k403
  refine State.fireIf_keeps _ _ _ ?_ (subF_trans (by decide) hF)
  refine State.setStream_keeps _ _ _ _ ?_ (subF_trans (by decide) hF)
  exact k404

theorem State.frameStart_keeps {fs : List Zone} {s0 : State} (s : State) (n : ℕ) (v : ℕ) (time : ℕ) (h1 : Keeps fs s0 s) (hF : subF [.block 20, .sm, .block 1, .out, .streams] fs = true) :
    Keeps fs s0 (State.frameStart s n v time) := by
  unfold State.frameStart
  extract_lets -merge -underBinder y405 y406 y407 y408
  have k409 : Keeps fs s0 y406 := by
    refine keeps_ite ?_ ?_
    · refine keeps_ite ?_ ?_
      · refine State.camComplete_keeps _ _ _ _ ?_ (subF_trans (by decide) hF)
        exact h1
      · refine State.camComplete_keeps _ _ _ _ ?_ (subF_trans (by decide) hF)
        refine State.camError_keeps _ _ _ ?_ (subF_trans (by decide) hF)
        exact h1
    · exact h1
  have k410 : Keeps fs s0 y408 := by
    refine setReg_keeps _ _ ?_ (alwL14 hF 0 (by simp only [strReg, Reg.STR_TS_LO]; omega))
    refine setBit_keeps _ _ _ ?_ (alwL14 hF 0 (by simp only [y407, strReg, Reg.STR_SSTAT]; omega))
    refine setFld_keeps _ _ _ _ ?_ (alwL14 hF 0 (by simp only [y407, strReg, Reg.STR_SSTAT]; omega))
    exact k409
  refine keeps_ite ?_ ?_
  · exact h1
  · split
    · refine State.setStream_keeps _ _ _ _ ?_ (subF_trans (by decide) hF)
      refine setBit_keeps _ _ _ ?_ (alwL14 hF 0 (by simp only [y407, strReg, Reg.STR_SSTAT]; omega))
      refine setFld_keeps _ _ _ _ ?_ (alwL14 hF 0 (by simp only [y407, strReg, Reg.STR_SSTAT]; omega))
      exact k410
    · refine State.setStream_keeps _ _ _ _ ?_ (subF_trans (by decide) hF)
      refine satInc_keeps _ _ _ ?_ (alwL14 hF 0 (by simp only [camReg, Reg.CAM_ERRCNT]; omega))
      refine setBit_keeps _ _ _ ?_ (alwL14 hF 0 (by simp only [y407, strReg, Reg.STR_SSTAT]; omega))
      exact k410

theorem execFrameStart_keeps (n : ℕ) (vc : ℕ) (time : ℕ) (s : State) : ∃ s', execFrameStart n vc time s = .next s' ∧
    Keeps [.block 20, .sm, .block 1, .out, .streams] s s' := by
  have hF : subF [.block 20, .sm, .block 1, .out, .streams] [.block 20, .sm, .block 1, .out, .streams] = true := by decide
  unfold execFrameStart
  refine ⟨_, rfl, ?_⟩
  refine State.frameStart_keeps _ _ _ _ ?_ (subF_trans (by decide) hF)
  exact (Keeps.rfl' _ _)

theorem State.frameEnd_keeps {fs : List Zone} {s0 : State} (s : State) (n : ℕ) (v : ℕ) (ps : ℕ) (h1 : Keeps fs s0 s) (hF : subF [.streams] fs = true) :
    Keeps fs s0 (State.frameEnd s n v ps) := by
  unfold State.frameEnd
  extract_lets -merge -underBinder y411
  refine keeps_ite ?_ ?_
  · exact h1
  · refine State.setStream_keeps _ _ _ _ ?_ (subF_trans (by decide) hF)
    exact h1

theorem execCamFrame_keeps (n : ℕ) (vc : ℕ) (s : State) : ∃ s', execCamFrame n vc s = .next s' ∧
    Keeps [.block 20, .sm, .block 1, .out, .streams] s s' := by
  have hF : subF [.block 20, .sm, .block 1, .out, .streams] [.block 20, .sm, .block 1, .out, .streams] = true := by decide
  unfold execCamFrame
  refine ⟨_, rfl, ?_⟩
  refine keeps_ite ?_ ?_
  · refine State.camComplete_keeps _ _ _ _ ?_ (subF_trans (by decide) hF)
    exact (Keeps.rfl' _ _)
  · exact (Keeps.rfl' _ _)

theorem State.camLost_keeps {fs : List Zone} {s0 : State} (s : State) (n : ℕ) (v : ℕ) (h1 : Keeps fs s0 s) (hF : subF [.block 1, .out, .block 20] fs = true) :
    Keeps fs s0 (State.camLost s n v) := by
  unfold State.camLost
  extract_lets -merge -underBinder y412
  refine keeps_ite ?_ ?_
  · refine State.fire_keeps _ _ ?_ (subF_trans (by decide) hF)
    refine setBit_keeps _ _ _ ?_ (alwL14 hF 0 (by simp only [y412, strReg, Reg.STR_SSTAT]; omega))
    exact h1
  · exact h1

theorem execCamLost_keeps (n : ℕ) (vc : ℕ) (s : State) : ∃ s', execCamLost n vc s = .next s' ∧
    Keeps [.block 1, .out, .block 20] s s' := by
  have hF : subF [.block 1, .out, .block 20] [.block 1, .out, .block 20] = true := by decide
  unfold execCamLost
  refine ⟨_, rfl, ?_⟩
  refine State.camLost_keeps _ _ _ ?_ (subF_trans (by decide) hF)
  exact (Keeps.rfl' _ _)

theorem State.tsLoRead_keeps {fs : List Zone} {s0 : State} (s : State) (n : ℕ) (v : ℕ) (h1 : Keeps fs s0 s) (hF : subF [.block 20] fs = true) :
    Keeps fs s0 (State.tsLoRead s n v) := by
  unfold State.tsLoRead
  refine setReg_keeps _ _ ?_ (alwL14 hF 0 (by simp only [strReg, Reg.STR_TS_HI]; omega))
  exact h1

theorem execTsLoRead_keeps (n : ℕ) (vc : ℕ) (s : State) : ∃ s', execTsLoRead n vc s = .next s' ∧
    Keeps [.block 20] s s' := by
  have hF : subF [.block 20] [.block 20] = true := by decide
  unfold execTsLoRead
  refine ⟨_, rfl, ?_⟩
  refine State.tsLoRead_keeps _ _ _ ?_ (subF_trans (by decide) hF)
  exact (Keeps.rfl' _ _)

theorem State.camSend_keeps {fs : List Zone} {s0 : State} (s : State) (n : ℕ) (v : ℕ) (l : ℕ) (addr : ℕ) (x6 : ℕ) (x7 : List Word64) (h1 : Keeps fs s0 s) (hF : subF [.jt, .streams] fs = true) :
    Keeps fs s0 (State.camSend s n v l addr x6 x7) := by
  induction x6 generalizing s addr x7 with
  | zero => exact h1
  | succ i ih =>
    unfold State.camSend
    split
    · exact h1
    · apply ih
      refine State.setStream_keeps _ _ _ _ ?_ (subF_trans (by decide) hF)
      refine Keeps.upd h1 (.inr rfl) (.inl ⟨rfl, rfl⟩) (.inr rfl) (.inr rfl) (.inr rfl) (.inl ⟨rfl, rfl⟩) (.inl ⟨rfl, rfl⟩) (.inl rfl) (.inr rfl) (.inl (alw hF (by decide))) (.inr rfl) (.inr rfl) (.inr ⟨rfl, rfl⟩) (.inr rfl) (.inr rfl) (.inr rfl) (.inr rfl) (.inr rfl) (.inr rfl) (.inr rfl) (.inr rfl) (.inr rfl) (.inr rfl) (.inr rfl) (.inr rfl) (.inr rfl) (.inr rfl) (.inr rfl) (.inl rfl) rfl

theorem State.camLine_keeps {fs : List Zone} {s0 : State} (s : State) (n : ℕ) (v : ℕ) (h1 : Keeps fs s0 s) (hF : subF [.block 1, .out, .block 20] fs = true) :
    Keeps fs s0 (State.camLine s n v) := by
  unfold State.camLine
  extract_lets -merge -underBinder y413 y414
  refine State.fireIf_keeps _ _ _ ?_ (subF_trans (by decide) hF)
  refine setFld_keeps _ _ _ _ ?_ (alwL14 hF 0 (by simp only [y413, strReg, Reg.STR_SSTAT]; omega))
  exact h1

theorem State.camPacket_keeps {fs : List Zone} {s0 : State} (s : State) (n : ℕ) (v : ℕ) (dt : ℕ) (px : List ℕ) (crcBad : Bool) (h1 : Keeps fs s0 s) (hF : subF [.block 1, .out, .streams, .block 20, .jt] fs = true) :
    Keeps fs s0 (State.camPacket s n v dt px crcBad) := by
  unfold State.camPacket
  extract_lets -merge -underBinder y415 y416 y417 y418 y419 y420 y421 y422 y423
  have k424 : Keeps fs s0 y417 := by
    refine keeps_ite ?_ ?_
    · refine State.camError_keeps _ _ _ ?_ (subF_trans (by decide) hF)
      refine satInc_keeps _ _ _ ?_ (alwL14 hF 0 (by simp only [camReg, Reg.CAM_ERRCNT]; omega))
      refine setBit_keeps _ _ _ ?_ (alwL14 hF 0 (by simp only [camReg, Reg.CAM_STAT]; omega))
      exact h1
    · exact h1
  have k425 : Keeps fs s0 y419 := by
    refine keeps_ite ?_ ?_
    · refine State.camError_keeps _ _ _ ?_ (subF_trans (by decide) hF)
      exact k424
    · refine keeps_ite ?_ ?_
      · refine State.camError_keeps _ _ _ ?_ (subF_trans (by decide) hF)
        refine setBit_keeps _ _ _ ?_ (alwL14 hF 0 (by simp only [camReg, Reg.CAM_STAT]; omega))
        exact k424
      · exact k424
  have k426 : Keeps fs s0 y423 := by
    refine State.setStream_keeps _ _ _ _ ?_ (subF_trans (by decide) hF)
    exact k425
  refine keeps_ite ?_ ?_
  · refine State.camError_keeps _ _ _ ?_ (subF_trans (by decide) hF)
    exact k424
  · refine keeps_ite ?_ ?_
    · refine State.camLine_keeps _ _ _ ?_ (subF_trans (by decide) hF)
      exact k426
    · refine State.camSend_keeps _ _ _ _ _ _ _ ?_ (subF_trans (by decide) hF)
      exact k426

theorem State.longPacket_keeps {fs : List Zone} {s0 : State} (s : State) (n : ℕ) (v : ℕ) (dt : ℕ) (px : List ℕ) (hdrBad : Bool) (crcBad : Bool) (full : Bool) (h1 : Keeps fs s0 s) (hF : subF [.block 20, .block 1, .out, .streams, .jt] fs = true) :
    Keeps fs s0 (State.longPacket s n v dt px hdrBad crcBad full) := by
  unfold State.longPacket
  extract_lets -merge -underBinder y427 y428
  have k429 : Keeps fs s0 y428 := by
    refine setBit_keeps _ _ _ ?_ (alwL14 hF 0 (by simp only [camReg, Reg.CAM_STAT]; omega))
    exact h1
  refine keeps_ite ?_ ?_
  · exact h1
  · refine keeps_ite ?_ ?_
    · refine keeps_ite ?_ ?_
      · refine State.camError_keeps _ _ _ ?_ (subF_trans (by decide) hF)
        exact k429
      · exact k429
    · refine keeps_ite ?_ ?_
      · exact h1
      · refine keeps_ite ?_ ?_
        · refine State.fire_keeps _ _ ?_ (subF_trans (by decide) hF)
          refine setBit_keeps _ _ _ ?_ (alwL14 hF 0 (by simp only [camReg, Reg.CAM_STAT]; omega))
          refine State.setStream_keeps _ _ _ _ ?_ (subF_trans (by decide) hF)
          exact h1
        · refine State.camPacket_keeps _ _ _ _ _ _ ?_ (subF_trans (by decide) hF)
          exact h1

theorem execLongPacket_keeps (n : ℕ) (vc : ℕ) (dt : ℕ) (px : List ℕ) (hdrBad : Bool) (crcBad : Bool) (full : Bool) (s : State) : ∃ s', execLongPacket n vc dt px hdrBad crcBad full s = .next s' ∧
    Keeps [.block 20, .block 1, .out, .streams, .jt] s s' := by
  have hF : subF [.block 20, .block 1, .out, .streams, .jt] [.block 20, .block 1, .out, .streams, .jt] = true := by decide
  unfold execLongPacket
  refine ⟨_, rfl, ?_⟩
  refine State.longPacket_keeps _ _ _ _ _ _ _ _ ?_ (subF_trans (by decide) hF)
  exact (Keeps.rfl' _ _)

theorem State.camResponse_keeps {fs : List Zone} {s0 : State} (s : State) (n : ℕ) (tag : ℕ) (r : Resp) (h1 : Keeps fs s0 s) (hF : subF [.streams, .block 1, .out, .block 20] fs = true) :
    Keeps fs s0 (State.camResponse s n tag r) := by
  unfold State.camResponse
  split
  · exact h1
  · extract_lets -merge -underBinder y430 y431 y432 y433
    have k434 : Keeps fs s0 y433 := by
      refine State.setStream_keeps _ _ _ _ ?_ (subF_trans (by decide) hF)
      exact h1
    refine keeps_ite ?_ ?_
    · exact k434
    · refine State.camLine_keeps _ _ _ ?_ (subF_trans (by decide) hF)
      exact k434

theorem State.passRelease_keeps {fs : List Zone} {s0 : State} (s : State) (n : ℕ) (v : ℕ) (need : ℕ) (strip : ℕ) (h1 : Keeps fs s0 s) (hF : subF [.sched] fs = true) :
    Keeps fs s0 (State.passRelease s n v need strip) := by
  unfold State.passRelease
  extract_lets -merge -underBinder y435 y436 y437 y438 y439
  refine keeps_ite ?_ ?_
  · refine Keeps.upd ?_ (.inr rfl) (.inl ⟨rfl, rfl⟩) (.inr rfl) (.inr rfl) (.inr rfl) (.inl ⟨rfl, rfl⟩) (.inl ⟨rfl, rfl⟩) (.inl rfl) (.inr rfl) (.inr rfl) (.inr rfl) (.inr rfl) (.inr ⟨rfl, rfl⟩) (.inr rfl) (.inl (alw hF (by decide))) (.inr rfl) (.inr rfl) (.inr rfl) (.inr rfl) (.inr rfl) (.inr rfl) (.inr rfl) (.inr rfl) (.inr rfl) (.inr rfl) (.inr rfl) (.inr rfl) (.inr rfl) (.inl rfl) rfl
    exact h1
  · refine keeps_ite ?_ ?_
    · refine Keeps.upd ?_ (.inr rfl) (.inl ⟨rfl, rfl⟩) (.inr rfl) (.inr rfl) (.inr rfl) (.inl ⟨rfl, rfl⟩) (.inl ⟨rfl, rfl⟩) (.inl rfl) (.inr rfl) (.inr rfl) (.inr rfl) (.inr rfl) (.inr ⟨rfl, rfl⟩) (.inr rfl) (.inl (alw hF (by decide))) (.inr rfl) (.inr rfl) (.inr rfl) (.inr rfl) (.inr rfl) (.inr rfl) (.inr rfl) (.inr rfl) (.inr rfl) (.inr rfl) (.inr rfl) (.inr rfl) (.inr rfl) (.inl rfl) rfl
      exact h1
    · exact h1

theorem execPassThroughRelease_keeps (n : ℕ) (vc : ℕ) (need : ℕ) (strip : ℕ) (s : State) : ∃ s', execPassThroughRelease n vc need strip s = .next s' ∧
    Keeps [.sched] s s' := by
  have hF : subF [.sched] [.sched] = true := by decide
  unfold execPassThroughRelease
  refine ⟨_, rfl, ?_⟩
  refine State.passRelease_keeps _ _ _ _ _ ?_ (subF_trans (by decide) hF)
  exact (Keeps.rfl' _ _)

end Sys2Proof.Machine
end

