-- ==== Sys2Proof/Laws/KeepsPipes.lean ====
section
/-! SUPPORT. What each operation of Machine/Pipes.lean can change, one lemma an operation (Laws/KeepsBase.lean). -/

-- elaborated one declaration at a time, so that the package compiles as one text in bounded memory
set_option Elab.async false

namespace Sys2Proof.Machine

theorem State.setPipe_keeps {fs : List Zone} {s0 : State} (s : State) (p : ℕ) (x : Pipe) (h1 : Keeps fs s0 s) (hF : subF [.pipes] fs = true) :
    Keeps fs s0 (State.setPipe s p x) := by
  unfold State.setPipe
  refine Keeps.upd ?_ (.inr rfl) (.inl ⟨rfl, rfl⟩) (.inr rfl) (.inr rfl) (.inr rfl) (.inl ⟨rfl, rfl⟩) (.inl ⟨rfl, rfl⟩) (.inl rfl) (.inr rfl) (.inr rfl) (.inr rfl) (.inr rfl) (.inr ⟨rfl, rfl⟩) (.inr rfl) (.inr rfl) (.inr rfl) (.inr rfl) (.inr rfl) (.inr rfl) (.inr rfl) (.inr rfl) (.inr rfl) (.inr rfl) (.inl (alw hF (by decide))) (.inr rfl) (.inr rfl) (.inr rfl) (.inr rfl) (.inl rfl) rfl
  exact h1

theorem State.pipeRefused_keeps {fs : List Zone} {s0 : State} (s : State) (p : ℕ) (h1 : Keeps fs s0 s) (hF : subF [.block 20] fs = true) :
    Keeps fs s0 (State.pipeRefused s p) := by
  unfold State.pipeRefused
  refine setBit_keeps _ _ _ ?_ (alwL14 hF 0 (by simp only [pipeReg, Reg.PIPE_ERR]; omega))
  exact h1

theorem State.setPipePend_keeps {fs : List Zone} {s0 : State} (s : State) (p : ℕ) (b : Bool) (h1 : Keeps fs s0 s) (hF : subF [.block 20] fs = true) :
    Keeps fs s0 (State.setPipePend s p b) := by
  unfold State.setPipePend
  refine setBit_keeps _ _ _ ?_ (alwL14 hF 0 (by simp only [pipeReg, Reg.PIPE_COMMIT]; omega))
  refine setBit_keeps _ _ _ ?_ (alwL14 hF 0 (by simp only [pipeReg, Reg.PIPE_COMMIT]; omega))
  exact h1

theorem State.pipeCommit_keeps {fs : List Zone} {s0 : State} (s : State) (p : ℕ) (h1 : Keeps fs s0 s) (hF : subF [.block 1, .out, .block 20] fs = true) :
    Keeps fs s0 (State.pipeCommit s p).1 := by
  unfold State.pipeCommit
  refine keeps_ite_fst ?_ ?_
  · refine keeps_mk_fst ?_
    exact h1
  · refine keeps_ite_fst ?_ ?_
    · refine keeps_mk_fst ?_
      refine State.fire_keeps _ _ ?_ (subF_trans (by decide) hF)
      refine State.pipeRefused_keeps _ _ ?_ (subF_trans (by decide) hF)
      exact h1
    · refine keeps_mk_fst ?_
      refine State.setPipePend_keeps _ _ _ ?_ (subF_trans (by decide) hF)
      exact h1

theorem execPipeCommitWrite_keeps (p : ℕ) (s : State) : ∃ s', execPipeCommitWrite p s = .next s' ∧
    Keeps [.block 1, .out, .block 20] s s' := by
  have hF : subF [.block 1, .out, .block 20] [.block 1, .out, .block 20] = true := by decide
  unfold execPipeCommitWrite
  refine ⟨_, rfl, ?_⟩
  refine State.pipeCommit_keeps _ _ ?_ (subF_trans (by decide) hF)
  exact (Keeps.rfl' _ _)

theorem State.pipeCancel_keeps {fs : List Zone} {s0 : State} (s : State) (p : ℕ) (h1 : Keeps fs s0 s) (hF : subF [.block 20] fs = true) :
    Keeps fs s0 (State.pipeCancel s p) := by
  unfold State.pipeCancel
  refine State.setPipePend_keeps _ _ _ ?_ (subF_trans (by decide) hF)
  exact h1

theorem execPipeCancel_keeps (p : ℕ) (s : State) : ∃ s', execPipeCancel p s = .next s' ∧
    Keeps [.block 20] s s' := by
  have hF : subF [.block 20] [.block 20] = true := by decide
  unfold execPipeCancel
  refine ⟨_, rfl, ?_⟩
  refine State.pipeCancel_keeps _ _ ?_ (subF_trans (by decide) hF)
  exact (Keeps.rfl' _ _)

theorem State.pipePendWrite_keeps {fs : List Zone} {s0 : State} (s : State) (p : ℕ) (a : ℕ) (v : Word) (h1 : Keeps fs s0 s) (ha1 : Zone.inList (.block (blockOf (a))) fs = true) (hF : subF [.block 20] fs = true) :
    Keeps fs s0 (State.pipePendWrite s p a v).1 := by
  unfold State.pipePendWrite
  refine keeps_ite_fst ?_ ?_
  · refine keeps_mk_fst ?_
    refine State.pipeRefused_keeps _ _ ?_ (subF_trans (by decide) hF)
    exact h1
  · refine keeps_mk_fst ?_
    refine codeWrite_keeps _ _ ?_ ha1
    exact h1

theorem State.lutIdxWrite_keeps {fs : List Zone} {s0 : State} (s : State) (p : ℕ) (v : Word) (h1 : Keeps fs s0 s) (hF : subF [.block 20] fs = true) :
    Keeps fs s0 (State.lutIdxWrite s p v).1 := by
  unfold State.lutIdxWrite
  refine keeps_ite_fst ?_ ?_
  · refine keeps_mk_fst ?_
    refine State.pipeRefused_keeps _ _ ?_ (subF_trans (by decide) hF)
    exact h1
  · refine keeps_mk_fst ?_
    refine codeWrite_keeps _ _ ?_ (alwL14 hF 0 (by simp only [pipeReg, Reg.LUT_IDX]; omega))
    exact h1

theorem State.lutAccess_keeps {fs : List Zone} {s0 : State} (s : State) (p : ℕ) (write : Bool) (v : Word) (h1 : Keeps fs s0 s) (hF : subF [.block 20, .pipes] fs = true) :
    Keeps fs s0 (State.lutAccess s p write v).1 := by
  unfold State.lutAccess
  extract_lets -merge -underBinder y440 y441 y442
  have k443 : ∀ z444, Keeps fs s0 z444 → Keeps fs s0 (y442 z444) := by
    intro z444 h445
    refine setFld_keeps _ _ _ _ ?_ (alwL14 hF 0 (by simp only [pipeReg, Reg.LUT_IDX]; omega))
    exact h445
  refine keeps_ite_fst ?_ ?_
  · refine keeps_ite_fst ?_ ?_
    · refine keeps_mk_fst ?_
      refine State.pipeRefused_keeps _ _ ?_ (subF_trans (by decide) hF)
      exact h1
    · refine keeps_mk_fst ?_
      refine k443 _ ?_
      refine State.setPipe_keeps _ _ _ ?_ (subF_trans (by decide) hF)
      exact h1
  · refine keeps_mk_fst ?_
    refine k443 _ ?_
    exact h1

theorem execLutDataAccess_keeps (p : ℕ) (write : Bool) (v : Word) (s : State) : ∃ s', execLutDataAccess p write v s = .next s' ∧
    Keeps [.block 20, .pipes] s s' := by
  have hF : subF [.block 20, .pipes] [.block 20, .pipes] = true := by decide
  unfold execLutDataAccess
  refine ⟨_, rfl, ?_⟩
  refine State.lutAccess_keeps _ _ _ _ ?_ (subF_trans (by decide) hF)
  exact (Keeps.rfl' _ _)

theorem State.pipeTake_keeps {fs : List Zone} {s0 : State} (s : State) (p : ℕ) (h1 : Keeps fs s0 s) (hF : subF [.regs, .block 1, .out, .block 20, .pipes] fs = true) :
    Keeps fs s0 (State.pipeTake s p) := by
  unfold State.pipeTake
  extract_lets -merge -underBinder y446 y447
  have k448 : Keeps fs s0 y446 := by
    refine keeps_foldl _ _ ?_ ?_
    · exact h1
    · intro z449 z451 h450
      refine setReg_keeps _ _ ?_ (alwR hF (by decide))
      exact h450
  refine State.fire_keeps _ _ ?_ (subF_trans (by decide) hF)
  refine State.setPipePend_keeps _ _ _ ?_ (subF_trans (by decide) hF)
  refine State.setPipe_keeps _ _ _ ?_ (subF_trans (by decide) hF)
  exact k448

theorem State.layersOff_keeps {fs : List Zone} {s0 : State} (s : State) (p : ℕ) (h1 : Keeps fs s0 s) (hF : subF [.block 20] fs = true) :
    Keeps fs s0 (State.layersOff s p) := by
  unfold State.layersOff
  refine keeps_foldl _ _ ?_ ?_
  · exact h1
  · intro z452 z454 h453
    refine setBit_keeps _ _ _ ?_ (alwL14 hF 1 (by simp only [Reg.act, layReg, Reg.LAY_LFMT]; omega))
    exact h453

theorem State.evtAdd_keeps {fs : List Zone} {s0 : State} (s : State) (code : ℕ) (disp : ℕ) (index : ℕ) (detail : ℕ) (h1 : Keeps fs s0 s) (hF : subF [.block 3] fs = true) :
    Keeps fs s0 (State.evtAdd s code disp index detail) := by
  unfold State.evtAdd
  extract_lets -merge -underBinder y455 y456 y457 y458
  have k459 : Keeps fs s0 y458 := by
    refine setReg_keeps _ _ ?_ (alwL hF 3 0 (by simp only [y457, y456, y455, Reg.EVT_HI]; omega))
    refine setReg_keeps _ _ ?_ (alwL hF 3 0 (by simp only [y457, y456, y455, Reg.EVT_LO]; omega))
    exact h1
  refine keeps_ite ?_ ?_
  · refine setBit_keeps _ _ _ ?_ (alwB hF 3 rfl (by decide))
    refine setFld_keeps _ _ _ _ ?_ (alwB hF 3 rfl (by decide))
    exact k459
  · refine setFld_keeps _ _ _ _ ?_ (alwB hF 3 rfl (by decide))
    exact k459

theorem State.safeSet_keeps {fs : List Zone} {s0 : State} (s : State) (b : ℕ) (h1 : Keeps fs s0 s) (hF : subF [.block 3, .block 1, .out, .free] fs = true) :
    Keeps fs s0 (State.safeSet s b) := by
  unfold State.safeSet
  extract_lets -merge -underBinder y460 y461
  have k462 : Keeps fs s0 y461 := by
    refine setBit_keeps _ _ _ ?_ (alwB hF 3 rfl (by decide))
    refine setBit_keeps _ _ _ ?_ (alwB hF 3 rfl (by decide))
    exact h1
  refine keeps_ite ?_ ?_
  · exact k462
  · refine State.fire_keeps _ _ ?_ (subF_trans (by decide) hF)
    refine State.useFree_keeps _ ?_ (subF_trans (by decide) hF)
    refine State.evtAdd_keeps _ _ _ _ _ ?_ (subF_trans (by decide) hF)
    exact k462

theorem State.safeClear_keeps {fs : List Zone} {s0 : State} (s : State) (bs : List ℕ) (h1 : Keeps fs s0 s) (hF : subF [.block 3, .free] fs = true) :
    Keeps fs s0 (State.safeClear s bs) := by
  unfold State.safeClear
  extract_lets -merge -underBinder y463 y464
  have k465 : Keeps fs s0 y464 := by
    refine keeps_foldl _ _ ?_ ?_
    · exact h1
    · intro z466 z468 h467
      refine setBit_keeps _ _ _ ?_ (alwB hF 3 rfl (by decide))
      exact h467
  refine keeps_ite ?_ ?_
  · refine State.useFree_keeps _ ?_ (subF_trans (by decide) hF)
    refine State.evtAdd_keeps _ _ _ _ _ ?_ (subF_trans (by decide) hF)
    refine setBit_keeps _ _ _ ?_ (alwB hF 3 rfl (by decide))
    exact k465
  · exact k465

theorem State.linkDown_keeps {fs : List Zone} {s0 : State} (s : State) (p : ℕ) (h1 : Keeps fs s0 s) (hF : subF [.block 20, .block 3, .block 1, .out, .free] fs = true) :
    Keeps fs s0 (State.linkDown s p) := by
  unfold State.linkDown
  extract_lets -merge -underBinder y469 y470
  have k471 : Keeps fs s0 y470 := by
    refine setBit_keeps _ _ _ ?_ (alwL14 hF 0 (by simp only [pipeReg, Reg.PIPE_STAT]; omega))
    exact h1
  refine keeps_ite ?_ ?_
  · refine State.safeSet_keeps _ _ ?_ (subF_trans (by decide) hF)
    exact k471
  · exact k471

theorem State.pipeHalt_keeps {fs : List Zone} {s0 : State} (s : State) (p : ℕ) (h1 : Keeps fs s0 s) (hF : subF [.block 20, .block 3, .block 1, .out, .free, .pipes] fs = true) :
    Keeps fs s0 (State.pipeHalt s p) := by
  unfold State.pipeHalt
  extract_lets -merge -underBinder y472 y473
  have k474 : Keeps fs s0 y472 := by
    refine setFld_keeps _ _ _ _ ?_ (alwL14 hF 0 (by simp only [pipeReg, Reg.PIPE_STAT]; omega))
    refine State.layersOff_keeps _ _ ?_ (subF_trans (by decide) hF)
    refine State.setPipePend_keeps _ _ _ ?_ (subF_trans (by decide) hF)
    exact h1
  refine State.linkDown_keeps _ _ ?_ (subF_trans (by decide) hF)
  refine State.setPipe_keeps _ _ _ ?_ (subF_trans (by decide) hF)
  exact k474

theorem State.ilSample_keeps {fs : List Zone} {s0 : State} (s : State) (p : ℕ) (h1 : Keeps fs s0 s) (hF : subF [.block 3] fs = true) :
    Keeps fs s0 (State.ilSample s p) := by
  unfold State.ilSample
  extract_lets -merge -underBinder y475 y476 y477
  have k478 : Keeps fs s0 y476 := by
    refine setReg_keeps _ _ ?_ (alwL hF 3 1 (by simp only [y475, Reg.act, Reg.DISP_CFG]; omega))
    exact h1
  refine keeps_ite ?_ ?_
  · refine setBit_keeps _ _ _ ?_ (alwL hF 3 0 (by simp only [y477, Reg.DISP_STAT]; omega))
    exact k478
  · refine keeps_ite ?_ ?_
    · refine setBit_keeps _ _ _ ?_ (alwL hF 3 0 (by simp only [y477, Reg.DISP_STAT]; omega))
      exact k478
    · exact k478

theorem State.setChan_keeps {fs : List Zone} {s0 : State} (s : State) (p : ℕ) (c : Chan) (h1 : Keeps fs s0 s) (hF : subF [.il] fs = true) :
    Keeps fs s0 (State.setChan s p c) := by
  unfold State.setChan
  extract_lets -merge -underBinder y479
  refine Keeps.upd ?_ (.inr rfl) (.inl ⟨rfl, rfl⟩) (.inr rfl) (.inr rfl) (.inr rfl) (.inl ⟨rfl, rfl⟩) (.inl ⟨rfl, rfl⟩) (.inl rfl) (.inr rfl) (.inr rfl) (.inr rfl) (.inr rfl) (.inr ⟨rfl, rfl⟩) (.inr rfl) (.inr rfl) (.inr rfl) (.inr rfl) (.inr rfl) (.inr rfl) (.inr rfl) (.inr rfl) (.inr rfl) (.inr rfl) (.inr rfl) (.inl (alw hF (by decide))) (.inr rfl) (.inr rfl) (.inr rfl) (.inl rfl) rfl
  exact h1

theorem State.pipeStopNow_keeps {fs : List Zone} {s0 : State} (s : State) (p : ℕ) (h1 : Keeps fs s0 s) (hF : subF [.block 3, .block 20, .block 1, .out, .free, .pipes, .il] fs = true) :
    Keeps fs s0 (State.pipeStopNow s p) := by
  unfold State.pipeStopNow
  extract_lets -merge -underBinder y480 y481
  have k482 : Keeps fs s0 y480 := by
    refine State.ilSample_keeps _ _ ?_ (subF_trans (by decide) hF)
    exact h1
  refine State.pipeHalt_keeps _ _ ?_ (subF_trans (by decide) hF)
  refine State.setChan_keeps _ _ _ ?_ (subF_trans (by decide) hF)
  exact k482

theorem State.pipeStart_keeps {fs : List Zone} {s0 : State} (s : State) (p : ℕ) (h1 : Keeps fs s0 s) (hF : subF [.block 20, .pipes] fs = true) :
    Keeps fs s0 (State.pipeStart s p) := by
  unfold State.pipeStart
  extract_lets -merge -underBinder y483 y484
  have k485 : Keeps fs s0 y483 := by
    refine State.layersOff_keeps _ _ ?_ (subF_trans (by decide) hF)
    refine setFld_keeps _ _ _ _ ?_ (alwL14 hF 0 (by simp only [pipeReg, Reg.PIPE_STAT]; omega))
    exact h1
  refine State.setPipe_keeps _ _ _ ?_ (subF_trans (by decide) hF)
  exact k485

theorem State.pipeDisable_keeps {fs : List Zone} {s0 : State} (s : State) (p : ℕ) (h1 : Keeps fs s0 s) (hF : subF [.block 20, .block 3, .block 1, .out, .free, .pipes, .il] fs = true) :
    Keeps fs s0 (State.pipeDisable s p) := by
  unfold State.pipeDisable
  extract_lets -merge -underBinder y486
  have k487 : Keeps fs s0 y486 := by
    refine setBit_keeps _ _ _ ?_ (alwL14 hF 0 (by simp only [pipeReg, Reg.PIPE_CTL]; omega))
    exact h1
  split
  · exact k487
  · refine State.pipeStopNow_keeps _ _ ?_ (subF_trans (by decide) hF)
    exact k487
  · extract_lets -merge -underBinder y488
    refine State.setPipe_keeps _ _ _ ?_ (subF_trans (by decide) hF)
    exact k487

theorem State.pipeCtlWrite_keeps {fs : List Zone} {s0 : State} (s : State) (p : ℕ) (v : Word) (h1 : Keeps fs s0 s) (hF : subF [.block 20, .pipes, .block 3, .block 1, .out, .free, .il] fs = true) :
    Keeps fs s0 (State.pipeCtlWrite s p v).1 := by
  unfold State.pipeCtlWrite
  extract_lets -merge -underBinder y489 y490 y491 y492 y493 y494 y495 y496
  have k497 : Keeps fs s0 y495 := by
    refine codeWrite_keeps _ _ ?_ (alwL14 hF 0 (by simp only [y489, pipeReg, Reg.PIPE_CTL]; omega))
    exact h1
  refine keeps_ite_fst ?_ ?_
  · refine keeps_mk_fst ?_
    refine State.pipeRefused_keeps _ _ ?_ (subF_trans (by decide) hF)
    exact h1
  · refine keeps_ite_fst ?_ ?_
    · refine keeps_mk_fst ?_
      exact k497
    · refine keeps_ite_fst ?_ ?_
      · refine keeps_mk_fst ?_
        refine keeps_ite ?_ ?_
        · refine State.pipeStart_keeps _ _ ?_ (subF_trans (by decide) hF)
          exact k497
        · refine State.setPipe_keeps _ _ _ ?_ (subF_trans (by decide) hF)
          exact k497
      · refine keeps_mk_fst ?_
        refine State.pipeDisable_keeps _ _ ?_ (subF_trans (by decide) hF)
        exact k497

theorem execPipeCtlWrite_keeps (p : ℕ) (v : Word) (s : State) : ∃ s', execPipeCtlWrite p v s = .next s' ∧
    Keeps [.block 20, .pipes, .block 3, .block 1, .out, .free, .il] s s' := by
  have hF : subF [.block 20, .pipes, .block 3, .block 1, .out, .free, .il] [.block 20, .pipes, .block 3, .block 1, .out, .free, .il] = true := by decide
  unfold execPipeCtlWrite
  refine ⟨_, rfl, ?_⟩
  refine State.pipeCtlWrite_keeps _ _ _ ?_ (subF_trans (by decide) hF)
  exact (Keeps.rfl' _ _)

theorem State.pipeTimingWrite_keeps {fs : List Zone} {s0 : State} (s : State) (p : ℕ) (a : ℕ) (v : Word) (h1 : Keeps fs s0 s) (ha1 : Zone.inList (.block (blockOf (a))) fs = true) (hF : subF [.block 20] fs = true) :
    Keeps fs s0 (State.pipeTimingWrite s p a v).1 := by
  unfold State.pipeTimingWrite
  refine keeps_ite_fst ?_ ?_
  · refine keeps_mk_fst ?_
    refine State.pipeRefused_keeps _ _ ?_ (subF_trans (by decide) hF)
    exact h1
  · refine keeps_mk_fst ?_
    refine codeWrite_keeps _ _ ?_ ha1
    exact h1

theorem State.linkUp_keeps {fs : List Zone} {s0 : State} (s : State) (p : ℕ) (h1 : Keeps fs s0 s) (hF : subF [.block 20] fs = true) :
    Keeps fs s0 (State.linkUp s p) := by
  unfold State.linkUp
  refine keeps_ite ?_ ?_
  · refine setBit_keeps _ _ _ ?_ (alwL14 hF 0 (by simp only [pipeReg, Reg.PIPE_STAT]; omega))
    exact h1
  · exact h1

theorem State.linkFail_keeps {fs : List Zone} {s0 : State} (s : State) (p : ℕ) (h1 : Keeps fs s0 s) (hF : subF [.block 1, .out, .block 20, .block 3, .free, .pipes, .il] fs = true) :
    Keeps fs s0 (State.linkFail s p) := by
  unfold State.linkFail
  extract_lets -merge -underBinder y498 y499
  have k500 : Keeps fs s0 y498 := by
    refine State.fire_keeps _ _ ?_ (subF_trans (by decide) hF)
    refine setBit_keeps _ _ _ ?_ (alwL14 hF 0 (by simp only [pipeReg, Reg.PIPE_ERR]; omega))
    exact h1
  refine keeps_ite ?_ ?_
  · refine keeps_ite ?_ ?_
    · refine State.pipeStopNow_keeps _ _ ?_ (subF_trans (by decide) hF)
      exact k500
    · refine State.setPipe_keeps _ _ _ ?_ (subF_trans (by decide) hF)
      exact k500
  · refine keeps_ite ?_ ?_
    · refine State.fire_keeps _ _ ?_ (subF_trans (by decide) hF)
      refine setBit_keeps _ _ _ ?_ (alwL14 hF 0 (by simp only [pipeReg, Reg.PIPE_ERR]; omega))
      refine keeps_ite ?_ ?_
      · refine State.linkDown_keeps _ _ ?_ (subF_trans (by decide) hF)
        exact h1
      · exact h1
    · exact h1

theorem State.hpdLost_keeps {fs : List Zone} {s0 : State} (s : State) (p : ℕ) (h1 : Keeps fs s0 s) (hF : subF [.block 1, .out, .block 20, .block 3, .free] fs = true) :
    Keeps fs s0 (State.hpdLost s p) := by
  unfold State.hpdLost
  refine keeps_ite ?_ ?_
  · refine State.fire_keeps _ _ ?_ (subF_trans (by decide) hF)
    refine setBit_keeps _ _ _ ?_ (alwL14 hF 0 (by simp only [pipeReg, Reg.PIPE_ERR]; omega))
    refine State.linkDown_keeps _ _ ?_ (subF_trans (by decide) hF)
    exact h1
  · exact h1

theorem execHpdLost_keeps (p : ℕ) (s : State) : ∃ s', execHpdLost p s = .next s' ∧
    Keeps [.block 1, .out, .block 20, .block 3, .free] s s' := by
  have hF : subF [.block 1, .out, .block 20, .block 3, .free] [.block 1, .out, .block 20, .block 3, .free] = true := by decide
  unfold execHpdLost
  refine ⟨_, rfl, ?_⟩
  refine State.hpdLost_keeps _ _ ?_ (subF_trans (by decide) hF)
  exact (Keeps.rfl' _ _)

theorem execIrqHpd_keeps (p : ℕ) (s : State) : ∃ s', execIrqHpd p s = .next s' ∧
    Keeps [.block 1, .out] s s' := by
  have hF : subF [.block 1, .out] [.block 1, .out] = true := by decide
  unfold execIrqHpd
  refine ⟨_, rfl, ?_⟩
  refine State.fireIf_keeps _ _ _ ?_ (subF_trans (by decide) hF)
  exact (Keeps.rfl' _ _)

theorem State.pipeSend_keeps {fs : List Zone} {s0 : State} (s : State) (p : ℕ) (x3 : ℕ) (h1 : Keeps fs s0 s) (hF : subF [.jt, .pipes] fs = true) :
    Keeps fs s0 (State.pipeSend s p x3) := by
  induction x3 generalizing s with
  | zero => exact h1
  | succ i ih =>
    unfold State.pipeSend
    split
    · exact h1
    · refine keeps_ite h1 ?_
      apply ih
      refine State.setPipe_keeps _ _ _ ?_ (subF_trans (by decide) hF)
      refine Keeps.upd h1 (.inr rfl) (.inl ⟨rfl, rfl⟩) (.inr rfl) (.inr rfl) (.inr rfl) (.inl ⟨rfl, rfl⟩) (.inl ⟨rfl, rfl⟩) (.inl rfl) (.inr rfl) (.inl (alw hF (by decide))) (.inr rfl) (.inr rfl) (.inr ⟨rfl, rfl⟩) (.inr rfl) (.inr rfl) (.inr rfl) (.inr rfl) (.inr rfl) (.inr rfl) (.inr rfl) (.inr rfl) (.inr rfl) (.inr rfl) (.inr rfl) (.inr rfl) (.inr rfl) (.inr rfl) (.inr rfl) (.inl rfl) rfl

theorem State.lineFetch_keeps {fs : List Zone} {s0 : State} (s : State) (p : ℕ) (y : ℕ) (h1 : Keeps fs s0 s) (hF : subF [.pipes, .jt] fs = true) :
    Keeps fs s0 (State.lineFetch s p y) := by
  unfold State.lineFetch
  extract_lets -merge -underBinder y501 y502 y503 y504
  have k505 : Keeps fs s0 y504 := by
    refine State.setPipe_keeps _ _ _ ?_ (subF_trans (by decide) hF)
    exact h1
  refine keeps_ite ?_ ?_
  · exact h1
  · refine State.pipeSend_keeps _ _ _ ?_ (subF_trans (by decide) hF)
    exact k505

theorem execLineFetch_keeps (p : ℕ) (y : ℕ) (s : State) : ∃ s', execLineFetch p y s = .next s' ∧
    Keeps [.pipes, .jt] s s' := by
  have hF : subF [.pipes, .jt] [.pipes, .jt] = true := by decide
  unfold execLineFetch
  refine ⟨_, rfl, ?_⟩
  refine State.lineFetch_keeps _ _ _ ?_ (subF_trans (by decide) hF)
  exact (Keeps.rfl' _ _)

theorem State.pipeResponse_keeps {fs : List Zone} {s0 : State} (s : State) (p : ℕ) (tag : ℕ) (r : Resp) (data : List Byte) (h1 : Keeps fs s0 s) (hF : subF [.jt, .pipes] fs = true) :
    Keeps fs s0 (State.pipeResponse s p tag r data) := by
  unfold State.pipeResponse
  extract_lets -merge -underBinder y506
  try clear_value y506
  split
  · exact h1
  · extract_lets -merge -underBinder y507
    refine State.pipeSend_keeps _ _ _ ?_ (subF_trans (by decide) hF)
    refine State.setPipe_keeps _ _ _ ?_ (subF_trans (by decide) hF)
    exact h1

theorem State.pipeUnderrun_keeps {fs : List Zone} {s0 : State} (s : State) (p : ℕ) (y : ℕ) (l : ℕ) (h1 : Keeps fs s0 s) (hF : subF [.block 20, .pipes, .block 1, .out] fs = true) :
    Keeps fs s0 (State.pipeUnderrun s p y l) := by
  unfold State.pipeUnderrun
  extract_lets -merge -underBinder y508
  try clear_value y508
  split
  · exact h1
  · extract_lets -merge -underBinder y509 y510 y511
    have k512 : Keeps fs s0 y510 := by
      refine satInc_keeps _ _ _ ?_ (alwL14 hF 0 (by simp only [pipeReg, Reg.UNDERRUN_CNT]; omega))
      refine State.setPipe_keeps _ _ _ ?_ (subF_trans (by decide) hF)
      exact h1
    have k513 : Keeps fs s0 y511 := by
      refine setBit_keeps _ _ _ ?_ (alwL14 hF 0 (by simp only [pipeReg, Reg.PIPE_ERR]; omega))
      exact k512
    refine keeps_ite ?_ ?_
    · exact h1
    · refine State.fireIf_keeps _ _ _ ?_ (subF_trans (by decide) hF)
      refine keeps_ite ?_ ?_
      · refine setBit_keeps _ _ _ ?_ (alwL14 hF 0 (by simp only [pipeReg, Reg.PIPE_ERR]; omega))
        exact k513
      · exact k513

theorem execPipeUnderrun_keeps (p : ℕ) (y : ℕ) (layer : ℕ) (s : State) : ∃ s', execPipeUnderrun p y layer s = .next s' ∧
    Keeps [.block 20, .pipes, .block 1, .out] s s' := by
  have hF : subF [.block 20, .pipes, .block 1, .out] [.block 20, .pipes, .block 1, .out] = true := by decide
  unfold execPipeUnderrun
  refine ⟨_, rfl, ?_⟩
  refine State.pipeUnderrun_keeps _ _ _ _ ?_ (subF_trans (by decide) hF)
  exact (Keeps.rfl' _ _)

theorem State.setLocked_keeps {fs : List Zone} {s0 : State} (s : State) (p : ℕ) (b : Bool) (h1 : Keeps fs s0 s) (hF : subF [.block 20, .block 1, .out] fs = true) :
    Keeps fs s0 (State.setLocked s p b) := by
  unfold State.setLocked
  extract_lets -merge -underBinder y514 y515
  have k516 : Keeps fs s0 y515 := by
    refine setBit_keeps _ _ _ ?_ (alwL14 hF 0 (by simp only [y514, pipeReg, Reg.LOCK_STAT]; omega))
    exact h1
  refine keeps_ite ?_ ?_
  · exact h1
  · refine State.fire_keeps _ _ ?_ (subF_trans (by decide) hF)
    refine keeps_ite ?_ ?_
    · exact k516
    · refine setBit_keeps _ _ _ ?_ (alwL14 hF 0 (by simp only [pipeReg, Reg.PIPE_ERR]; omega))
      exact k516

theorem State.lockMeasure_keeps {fs : List Zone} {s0 : State} (s : State) (p : ℕ) (ps : ℕ) (h1 : Keeps fs s0 s) (hF : subF [.pipes, .free, .block 20, .block 1, .out] fs = true) :
    Keeps fs s0 (State.lockMeasure s p ps) := by
  unfold State.lockMeasure
  extract_lets -merge -underBinder y517 y518 y519
  have k520 : Keeps fs s0 y519 := by
    refine State.setPipe_keeps _ _ _ ?_ (subF_trans (by decide) hF)
    exact h1
  refine keeps_ite ?_ ?_
  · exact k520
  · split
    · exact k520
    · extract_lets -merge -underBinder y521 y522 y523 y524 y525 y526 y527 y528 y529
      have k530 : Keeps fs s0 y526 := by
        refine State.useFree_keeps _ ?_ (subF_trans (by decide) hF)
        refine setFld_keeps _ _ _ _ ?_ (alwL14 hF 0 (by simp only [pipeReg, Reg.LOCK_STAT]; omega))
        exact h1
      have k531 : Keeps fs s0 y529 := by
        refine State.setPipe_keeps _ _ _ ?_ (subF_trans (by decide) hF)
        exact k530
      refine keeps_ite ?_ ?_
      · refine State.setLocked_keeps _ _ _ ?_ (subF_trans (by decide) hF)
        exact k531
      · refine keeps_ite ?_ ?_
        · refine State.setLocked_keeps _ _ _ ?_ (subF_trans (by decide) hF)
          exact k531
        · exact k531

theorem State.pipeVsync_keeps {fs : List Zone} {s0 : State} (s : State) (p : ℕ) (ps : ℕ) (h1 : Keeps fs s0 s) (hF : subF [.block 20, .pipes, .regs, .block 1, .out, .free] fs = true) :
    Keeps fs s0 (State.pipeVsync s p ps) := by
  unfold State.pipeVsync
  extract_lets -merge -underBinder y532 y533 y534 y535 y536
  have k537 : Keeps fs s0 y533 := by
    refine setBit_keeps _ _ _ ?_ (alwL14 hF 0 (by simp only [y532, pipeReg, Reg.PIPE_STAT]; omega))
    refine setFld_keeps _ _ _ _ ?_ (alwL14 hF 0 (by simp only [y532, pipeReg, Reg.PIPE_STAT]; omega))
    refine setFld_keeps _ _ _ _ ?_ (alwL14 hF 0 (by simp only [y532, pipeReg, Reg.PIPE_STAT]; omega))
    exact h1
  have k538 : Keeps fs s0 y535 := by
    refine State.setPipe_keeps _ _ _ ?_ (subF_trans (by decide) hF)
    exact k537
  have k539 : Keeps fs s0 y536 := by
    refine keeps_ite ?_ ?_
    · refine State.pipeTake_keeps _ _ ?_ (subF_trans (by decide) hF)
      exact k538
    · exact k538
  refine State.lockMeasure_keeps _ _ _ ?_ (subF_trans (by decide) hF)
  refine State.fireIf_keeps _ _ _ ?_ (subF_trans (by decide) hF)
  exact k539

theorem State.pipeLockWrite_keeps {fs : List Zone} {s0 : State} (s : State) (p : ℕ) (v : Word) (h1 : Keeps fs s0 s) (hF : subF [.block 20] fs = true) :
    Keeps fs s0 (State.pipeLockWrite s p v).1 := by
  unfold State.pipeLockWrite
  refine keeps_ite_fst ?_ ?_
  · refine keeps_mk_fst ?_
    refine State.pipeRefused_keeps _ _ ?_ (subF_trans (by decide) hF)
    exact h1
  · refine keeps_mk_fst ?_
    refine codeWrite_keeps _ _ ?_ (alwL14 hF 0 (by simp only [pipeReg, Reg.PIPE_LOCK]; omega))
    exact h1

theorem execPipeLockWrite_keeps (p : ℕ) (v : Word) (s : State) : ∃ s', execPipeLockWrite p v s = .next s' ∧
    Keeps [.block 20] s s' := by
  have hF : subF [.block 20] [.block 20] = true := by decide
  unfold execPipeLockWrite
  refine ⟨_, rfl, ?_⟩
  refine State.pipeLockWrite_keeps _ _ _ ?_ (subF_trans (by decide) hF)
  exact (Keeps.rfl' _ _)

theorem State.lockSrcLost_keeps {fs : List Zone} {s0 : State} (s : State) (p : ℕ) (h1 : Keeps fs s0 s) (hF : subF [.block 20, .block 1, .out, .pipes] fs = true) :
    Keeps fs s0 (State.lockSrcLost s p) := by
  unfold State.lockSrcLost
  extract_lets -merge -underBinder y540 y541
  have k542 : Keeps fs s0 y540 := by
    refine State.setLocked_keeps _ _ _ ?_ (subF_trans (by decide) hF)
    refine State.fire_keeps _ _ ?_ (subF_trans (by decide) hF)
    refine setBit_keeps _ _ _ ?_ (alwL14 hF 0 (by simp only [pipeReg, Reg.LOCK_STAT]; omega))
    exact h1
  refine keeps_ite ?_ ?_
  · refine State.setPipe_keeps _ _ _ ?_ (subF_trans (by decide) hF)
    exact k542
  · exact h1

theorem execLockSrcLost_keeps (p : ℕ) (s : State) : ∃ s', execLockSrcLost p s = .next s' ∧
    Keeps [.block 20, .block 1, .out, .pipes] s s' := by
  have hF : subF [.block 20, .block 1, .out, .pipes] [.block 20, .block 1, .out, .pipes] = true := by decide
  unfold execLockSrcLost
  refine ⟨_, rfl, ?_⟩
  refine State.lockSrcLost_keeps _ _ ?_ (subF_trans (by decide) hF)
  exact (Keeps.rfl' _ _)

theorem State.lockFound_keeps {fs : List Zone} {s0 : State} (s : State) (n : ℕ) (v : ℕ) (h1 : Keeps fs s0 s) (hF : subF [.block 1, .out, .block 20] fs = true) :
    Keeps fs s0 (State.lockFound s n v) := by
  unfold State.lockFound
  refine keeps_foldl _ _ ?_ ?_
  · exact h1
  · intro z543 z545 h544
    refine keeps_ite ?_ ?_
    · refine State.fire_keeps _ _ ?_ (subF_trans (by decide) hF)
      refine setBit_keeps _ _ _ ?_ (alwL14 hF 0 (by simp only [pipeReg, Reg.LOCK_STAT]; omega))
      exact h544
    · exact h544

theorem execFrameEnd_keeps (n : ℕ) (vc : ℕ) (ps : ℕ) (s : State) : ∃ s', execFrameEnd n vc ps s = .next s' ∧
    Keeps [.block 1, .out, .block 20, .streams] s s' := by
  have hF : subF [.block 1, .out, .block 20, .streams] [.block 1, .out, .block 20, .streams] = true := by decide
  unfold execFrameEnd
  refine ⟨_, rfl, ?_⟩
  refine keeps_ite ?_ ?_
  · refine State.lockFound_keeps _ _ _ ?_ (subF_trans (by decide) hF)
    refine State.frameEnd_keeps _ _ _ _ ?_ (subF_trans (by decide) hF)
    exact (Keeps.rfl' _ _)
  · exact (Keeps.rfl' _ _)

end Sys2Proof.Machine
end

