-- ==== Sys2Proof/Laws/KeepsInterlocking.lean ====
section
/-! SUPPORT. What each operation of Machine/Interlocking.lean can change, one lemma an operation (Laws/KeepsBase.lean). -/

-- elaborated one declaration at a time, so that the package compiles as one text in bounded memory
set_option Elab.async false

namespace Sys2Proof.Machine

theorem State.setPair_keeps {fs : List Zone} {s0 : State} (s : State) (i : ℕ) (x : Pair) (h1 : Keeps fs s0 s) (hF : subF [.il] fs = true) :
    Keeps fs s0 (State.setPair s i x) := by
  unfold State.setPair
  extract_lets -merge -underBinder y546
  refine Keeps.upd ?_ (.inr rfl) (.inl ⟨rfl, rfl⟩) (.inr rfl) (.inr rfl) (.inr rfl) (.inl ⟨rfl, rfl⟩) (.inl ⟨rfl, rfl⟩) (.inl rfl) (.inr rfl) (.inr rfl) (.inr rfl) (.inr rfl) (.inr ⟨rfl, rfl⟩) (.inr rfl) (.inr rfl) (.inr rfl) (.inr rfl) (.inr rfl) (.inr rfl) (.inr rfl) (.inr rfl) (.inr rfl) (.inr rfl) (.inr rfl) (.inl (alw hF (by decide))) (.inr rfl) (.inr rfl) (.inr rfl) (.inl rfl) rfl
  exact h1

theorem State.pairTick_keeps {fs : List Zone} {s0 : State} (s : State) (i : ℕ) (a : Bool) (b : Bool) (h1 : Keeps fs s0 s) (hF : subF [.block 3, .il, .block 1, .out] fs = true) :
    Keeps fs s0 (State.pairTick s i a b) := by
  unfold State.pairTick
  extract_lets -merge -underBinder y547 y548 y549 y550
  have k551 : Keeps fs s0 y550 := by
    refine setBit_keeps _ _ _ ?_ (alwB hF 3 rfl (by decide))
    exact h1
  refine keeps_ite ?_ ?_
  · refine keeps_ite ?_ ?_
    · refine State.evtAdd_keeps _ _ _ _ _ ?_ (subF_trans (by decide) hF)
      refine State.setPair_keeps _ _ _ ?_ (subF_trans (by decide) hF)
      refine setBit_keeps _ _ _ ?_ (alwB hF 3 rfl (by decide))
      exact k551
    · refine State.setPair_keeps _ _ _ ?_ (subF_trans (by decide) hF)
      exact k551
  · refine keeps_ite ?_ ?_
    · refine State.setPair_keeps _ _ _ ?_ (subF_trans (by decide) hF)
      exact k551
    · refine keeps_ite ?_ ?_
      · refine State.setPair_keeps _ _ _ ?_ (subF_trans (by decide) hF)
        exact k551
      · refine State.fire_keeps _ _ ?_ (subF_trans (by decide) hF)
        refine State.evtAdd_keeps _ _ _ _ _ ?_ (subF_trans (by decide) hF)
        refine State.setPair_keeps _ _ _ ?_ (subF_trans (by decide) hF)
        refine setBit_keeps _ _ _ ?_ (alwB hF 3 rfl (by decide))
        exact k551

theorem State.sampleTick_keeps {fs : List Zone} {s0 : State} (s : State) (a : ℕ) (b : ℕ) (h1 : Keeps fs s0 s) (hF : subF [.block 3, .il, .block 1, .out] fs = true) :
    Keeps fs s0 (State.sampleTick s a b) := by
  unfold State.sampleTick
  extract_lets -merge -underBinder y552 y553 y554 y555 y556
  have k557 : Keeps fs s0 y552 := by
    refine setReg_keeps _ _ ?_ (alwB hF 3 rfl (by decide))
    exact h1
  have k558 : Keeps fs s0 y553 := by
    refine keeps_foldl _ _ ?_ ?_
    · exact k557
    · intro z559 z561 h560
      extract_lets -merge -underBinder y562
      refine State.pairTick_keeps _ _ _ _ ?_ (subF_trans (by decide) hF)
      exact h560
  have k563 : Keeps fs s0 y554 := by
    refine keeps_ite ?_ ?_
    · refine keeps_foldl _ _ ?_ ?_
      · exact k558
      · intro z564 z566 h565
        refine setReg_keeps _ _ ?_ (alwL hF 3 1 (by simp only [Reg.act, Reg.TT_CMD]; omega))
        exact h565
    · exact k558
  have k567 : Keeps fs s0 y556 := by
    refine Keeps.upd ?_ (.inr rfl) (.inl ⟨rfl, rfl⟩) (.inr rfl) (.inr rfl) (.inr rfl) (.inl ⟨rfl, rfl⟩) (.inl ⟨rfl, rfl⟩) (.inl rfl) (.inr rfl) (.inr rfl) (.inr rfl) (.inr rfl) (.inr ⟨rfl, rfl⟩) (.inr rfl) (.inr rfl) (.inr rfl) (.inr rfl) (.inr rfl) (.inr rfl) (.inr rfl) (.inr rfl) (.inr rfl) (.inr rfl) (.inr rfl) (.inl (alw hF (by decide))) (.inr rfl) (.inr rfl) (.inr rfl) (.inl rfl) rfl
    exact k563
  refine keeps_ite ?_ ?_
  · exact h1
  · refine keeps_foldl _ _ ?_ ?_
    · exact k567
    · intro z568 z570 h569
      extract_lets -merge -underBinder y571
      refine setFld_keeps _ _ _ _ ?_ (alwL hF 3 0 (by simp only [Reg.TT_STATE]; omega))
      exact h569

theorem execSampleTick_keeps (a : ℕ) (b : ℕ) (s : State) : ∃ s', execSampleTick a b s = .next s' ∧
    Keeps [.block 3, .il, .block 1, .out] s s' := by
  have hF : subF [.block 3, .il, .block 1, .out] [.block 3, .il, .block 1, .out] = true := by decide
  unfold execSampleTick
  refine ⟨_, rfl, ?_⟩
  refine State.sampleTick_keeps _ _ _ ?_ (subF_trans (by decide) hF)
  exact (Keeps.rfl' _ _)

theorem State.ttGo_keeps {fs : List Zone} {s0 : State} (s : State) (h1 : Keeps fs s0 s) (hF : subF [.il] fs = true) :
    Keeps fs s0 (State.ttGo s) := by
  unfold State.ttGo
  extract_lets -merge -underBinder y572
  refine Keeps.upd ?_ (.inr rfl) (.inl ⟨rfl, rfl⟩) (.inr rfl) (.inr rfl) (.inr rfl) (.inl ⟨rfl, rfl⟩) (.inl ⟨rfl, rfl⟩) (.inl rfl) (.inr rfl) (.inr rfl) (.inr rfl) (.inr rfl) (.inr ⟨rfl, rfl⟩) (.inr rfl) (.inr rfl) (.inr rfl) (.inr rfl) (.inr rfl) (.inr rfl) (.inr rfl) (.inr rfl) (.inr rfl) (.inr rfl) (.inr rfl) (.inl (alw hF (by decide))) (.inr rfl) (.inr rfl) (.inr rfl) (.inl rfl) rfl
  exact h1

theorem execTtGoWrite_keeps (s : State) : ∃ s', execTtGoWrite s = .next s' ∧
    Keeps [.il] s s' := by
  have hF : subF [.il] [.il] = true := by decide
  unfold execTtGoWrite
  refine ⟨_, rfl, ?_⟩
  refine State.ttGo_keeps _ ?_ (subF_trans (by decide) hF)
  exact (Keeps.rfl' _ _)

theorem State.ttClear_keeps {fs : List Zone} {s0 : State} (s : State) (v : Word) (h1 : Keeps fs s0 s) (hF : subF [.il] fs = true) :
    Keeps fs s0 (State.ttClear s v) := by
  unfold State.ttClear
  extract_lets -merge -underBinder y573
  refine Keeps.upd ?_ (.inr rfl) (.inl ⟨rfl, rfl⟩) (.inr rfl) (.inr rfl) (.inr rfl) (.inl ⟨rfl, rfl⟩) (.inl ⟨rfl, rfl⟩) (.inl rfl) (.inr rfl) (.inr rfl) (.inr rfl) (.inr rfl) (.inr ⟨rfl, rfl⟩) (.inr rfl) (.inr rfl) (.inr rfl) (.inr rfl) (.inr rfl) (.inr rfl) (.inr rfl) (.inr rfl) (.inr rfl) (.inr rfl) (.inr rfl) (.inl (alw hF (by decide))) (.inr rfl) (.inr rfl) (.inr rfl) (.inl rfl) rfl
  exact h1

theorem execTtPstatFaultWrite_keeps (v : Word) (s : State) : ∃ s', execTtPstatFaultWrite v s = .next s' ∧
    Keeps [.il] s s' := by
  have hF : subF [.il] [.il] = true := by decide
  unfold execTtPstatFaultWrite
  refine ⟨_, rfl, ?_⟩
  refine State.ttClear_keeps _ _ ?_ (subF_trans (by decide) hF)
  exact (Keeps.rfl' _ _)

theorem State.ilLatch_keeps {fs : List Zone} {s0 : State} (s : State) (p : ℕ) (h1 : Keeps fs s0 s) (hF : subF [.il] fs = true) :
    Keeps fs s0 (State.ilLatch s p) := by
  unfold State.ilLatch
  extract_lets -merge -underBinder y574 y575
  refine State.setChan_keeps _ _ _ ?_ (subF_trans (by decide) hF)
  exact h1

theorem State.latchSel_keeps {fs : List Zone} {s0 : State} (s : State) (v : Word) (h1 : Keeps fs s0 s) (hF : subF [.block 3] fs = true) :
    Keeps fs s0 (State.latchSel s v) := by
  unfold State.latchSel
  extract_lets -merge -underBinder y576 y577 y578 y579 y580
  have k581 : Keeps fs s0 y576 := by
    refine codeWrite_keeps _ _ ?_ (alwB hF 3 rfl (by decide))
    exact h1
  have k582 : Keeps fs s0 y579 := by
    refine setReg_keeps _ _ ?_ (alwB hF 3 rfl (by decide))
    exact k581
  have k583 : Keeps fs s0 y580 := by
    refine keeps_foldl _ _ ?_ ?_
    · exact k582
    · intro z584 z586 h585
      refine setReg_keeps _ _ ?_ (alwL hF 3 0 (by simp only [Reg.LATCH_TT]; omega))
      exact h585
  refine setReg_keeps _ _ ?_ (alwB hF 3 rfl (by decide))
  refine setReg_keeps _ _ ?_ (alwB hF 3 rfl (by decide))
  refine setReg_keeps _ _ ?_ (alwB hF 3 rfl (by decide))
  refine setReg_keeps _ _ ?_ (alwB hF 3 rfl (by decide))
  exact k583

theorem execLatchSelWrite_keeps (v : Word) (s : State) : ∃ s', execLatchSelWrite v s = .next s' ∧
    Keeps [.block 3] s s' := by
  have hF : subF [.block 3] [.block 3] = true := by decide
  unfold execLatchSelWrite
  refine ⟨_, rfl, ?_⟩
  refine State.latchSel_keeps _ _ ?_ (subF_trans (by decide) hF)
  exact (Keeps.rfl' _ _)

theorem State.refWord_keeps {fs : List Zone} {s0 : State} (s : State) (n : ℕ) (off : ℕ) (h1 : Keeps fs s0 s) (hF : subF [.block 1, .out, .block 8, .free] fs = true) :
    Keeps fs s0 (State.refWord s n off).1 := by
  unfold State.refWord
  extract_lets -merge -underBinder y587
  have k588 : Keeps fs s0 y587.1 := by
    refine State.secPort_keeps _ _ ?_ (subF_trans (by decide) hF)
    exact h1
  refine keeps_mk_fst ?_
  exact k588

theorem State.readRegion_keeps {fs : List Zone} {s0 : State} (s : State) (r : ℕ) (n : ℕ) (tt : ℕ) (h1 : Keeps fs s0 s) (hF : subF [.block 1, .out, .block 8, .free] fs = true) :
    Keeps fs s0 (State.readRegion s r n tt).1 := by
  unfold State.readRegion
  extract_lets -merge -underBinder y589 y590 y591 y592
  have k593 : Keeps fs s0 y589.1 := by
    refine State.refWord_keeps _ _ _ ?_ (subF_trans (by decide) hF)
    exact h1
  have k594 : Keeps fs s0 y590.1 := by
    refine State.refWord_keeps _ _ _ ?_ (subF_trans (by decide) hF)
    exact k593
  have k595 : Keeps fs s0 y591.1 := by
    refine State.refWord_keeps _ _ _ ?_ (subF_trans (by decide) hF)
    exact k594
  have k596 : Keeps fs s0 y592.1 := by
    refine State.refWord_keeps _ _ _ ?_ (subF_trans (by decide) hF)
    exact k595
  refine keeps_mk_fst ?_
  exact k596

theorem State.setSlotBit_keeps {fs : List Zone} {s0 : State} (s : State) (reg : ℕ) (p : ℕ) (r : ℕ) (b : Bool) (h1 : Keeps fs s0 s) (ha1 : Zone.inList (.block (blockOf (dispReg reg p + 4 * (r / 32 % 2)))) fs = true) (hF : subF [] fs = true) :
    Keeps fs s0 (State.setSlotBit s reg p r b) := by
  unfold State.setSlotBit
  refine setBit_keeps _ _ _ ?_ ha1
  exact h1

theorem State.readTable_keeps {fs : List Zone} {s0 : State} (s : State) (p : ℕ) (h1 : Keeps fs s0 s) (hF : subF [.block 1, .out, .block 8, .free] fs = true) :
    Keeps fs s0 (State.readTable s p).1 := by
  unfold State.readTable
  refine keeps_foldl_fst _ _ ?_ ?_
  · refine keeps_mk_fst ?_
    exact h1
  · intro z597 z599 h598
    extract_lets -merge -underBinder y600 y601
    have k602 : Keeps fs s0 y601.1 := by
      refine State.readRegion_keeps _ _ _ _ ?_ (subF_trans (by decide) hF)
      exact h598
    refine keeps_ite_fst ?_ ?_
    · refine keeps_mk_fst ?_
      exact k602
    · exact h598

theorem State.setRegionPend_keeps {fs : List Zone} {s0 : State} (s : State) (p : ℕ) (b : Bool) (h1 : Keeps fs s0 s) (hF : subF [.block 3] fs = true) :
    Keeps fs s0 (State.setRegionPend s p b) := by
  unfold State.setRegionPend
  refine setBit_keeps _ _ _ ?_ (alwL hF 3 0 (by simp only [dispReg, Reg.DISP_RCOMMIT]; omega))
  refine setBit_keeps _ _ _ ?_ (alwL hF 3 0 (by simp only [dispReg, Reg.DISP_RCOMMIT]; omega))
  exact h1

theorem State.regionCommit_keeps {fs : List Zone} {s0 : State} (s : State) (p : ℕ) (h1 : Keeps fs s0 s) (hF : subF [.block 1, .out, .block 8, .free, .block 3] fs = true) :
    Keeps fs s0 (State.regionCommit s p).1 := by
  unfold State.regionCommit
  extract_lets -merge -underBinder y603
  have k604 : Keeps fs s0 y603.1 := by
    refine State.readTable_keeps _ _ ?_ (subF_trans (by decide) hF)
    exact h1
  refine keeps_ite_fst ?_ ?_
  · refine keeps_mk_fst ?_
    exact h1
  · refine keeps_ite_fst ?_ ?_
    · refine keeps_mk_fst ?_
      refine State.fire_keeps _ _ ?_ (subF_trans (by decide) hF)
      refine setBit_keeps _ _ _ ?_ (alwL hF 3 0 (by simp only [dispReg, Reg.DISP_STAT]; omega))
      exact k604
    · refine keeps_mk_fst ?_
      refine State.setRegionPend_keeps _ _ _ ?_ (subF_trans (by decide) hF)
      exact k604

theorem execRcommitWrite_keeps (p : ℕ) (s : State) : ∃ s', execRcommitWrite p s = .next s' ∧
    Keeps [.block 1, .out, .block 8, .free, .block 3] s s' := by
  have hF : subF [.block 1, .out, .block 8, .free, .block 3] [.block 1, .out, .block 8, .free, .block 3] = true := by decide
  unfold execRcommitWrite
  refine ⟨_, rfl, ?_⟩
  refine State.regionCommit_keeps _ _ ?_ (subF_trans (by decide) hF)
  exact (Keeps.rfl' _ _)

theorem State.regionCancel_keeps {fs : List Zone} {s0 : State} (s : State) (p : ℕ) (h1 : Keeps fs s0 s) (hF : subF [.block 3] fs = true) :
    Keeps fs s0 (State.regionCancel s p) := by
  unfold State.regionCancel
  refine State.setRegionPend_keeps _ _ _ ?_ (subF_trans (by decide) hF)
  exact h1

theorem execRcommitCancel_keeps (p : ℕ) (s : State) : ∃ s', execRcommitCancel p s = .next s' ∧
    Keeps [.block 3] s s' := by
  have hF : subF [.block 3] [.block 3] = true := by decide
  unfold execRcommitCancel
  refine ⟨_, rfl, ?_⟩
  refine State.regionCancel_keeps _ _ ?_ (subF_trans (by decide) hF)
  exact (Keeps.rfl' _ _)

theorem State.regionWrite_keeps {fs : List Zone} {s0 : State} (s : State) (p : ℕ) (a : ℕ) (v : Word) (h1 : Keeps fs s0 s) (ha1 : Zone.inList (.block (blockOf (a))) fs = true) (hF : subF [] fs = true) :
    Keeps fs s0 (State.regionWrite s p a v).1 := by
  unfold State.regionWrite
  refine keeps_ite_fst ?_ ?_
  · refine keeps_mk_fst ?_
    exact h1
  · refine keeps_mk_fst ?_
    refine codeWrite_keeps _ _ ?_ ha1
    exact h1

theorem State.regionTake_keeps {fs : List Zone} {s0 : State} (s : State) (p : ℕ) (h1 : Keeps fs s0 s) (hF : subF [.block 1, .out, .block 8, .free, .block 3, .il] fs = true) :
    Keeps fs s0 (State.regionTake s p) := by
  unfold State.regionTake
  extract_lets -merge -underBinder y605 y606
  have k607 : Keeps fs s0 y605.1 := by
    refine State.readTable_keeps _ _ ?_ (subF_trans (by decide) hF)
    exact h1
  refine State.fire_keeps _ _ ?_ (subF_trans (by decide) hF)
  refine State.setRegionPend_keeps _ _ _ ?_ (subF_trans (by decide) hF)
  refine State.setChan_keeps _ _ _ ?_ (subF_trans (by decide) hF)
  exact k607

theorem State.stampFor_keeps {fs : List Zone} {s0 : State} (s : State) (g : Region) (l : Latch) (h1 : Keeps fs s0 s) (hF : subF [.block 1, .out, .block 8, .free] fs = true) :
    Keeps fs s0 (State.stampFor s g l).1 := by
  unfold State.stampFor
  extract_lets -merge -underBinder y608 y609
  have k610 : Keeps fs s0 y608.1 := by
    refine State.refWord_keeps _ _ _ ?_ (subF_trans (by decide) hF)
    exact h1
  refine keeps_ite_fst ?_ ?_
  · refine keeps_mk_fst ?_
    exact h1
  · refine keeps_mk_fst ?_
    exact k610

theorem State.frozen_keeps {fs : List Zone} {s0 : State} (s : State) (p : ℕ) (h1 : Keeps fs s0 s) (hF : subF [.block 1, .out, .free, .block 3] fs = true) :
    Keeps fs s0 (State.frozen s p) := by
  unfold State.frozen
  extract_lets -merge -underBinder y611
  have k612 : Keeps fs s0 y611 := by
    refine State.fire_keeps _ _ ?_ (subF_trans (by decide) hF)
    refine State.useFree_keeps _ ?_ (subF_trans (by decide) hF)
    refine State.evtAdd_keeps _ _ _ _ _ ?_ (subF_trans (by decide) hF)
    refine setBit_keeps _ _ _ ?_ (alwL hF 3 0 (by simp only [dispReg, Reg.DISP_STAT]; omega))
    exact h1
  refine keeps_ite ?_ ?_
  · exact h1
  · refine keeps_ite ?_ ?_
    · refine State.safeSet_keeps _ _ ?_ (subF_trans (by decide) hF)
      exact k612
    · exact k612

theorem State.heartbeatVerdict_keeps {fs : List Zone} {s0 : State} (s : State) (p : ℕ) (h1 : Keeps fs s0 s) (hF : subF [.block 3, .il, .block 1, .out, .free] fs = true) :
    Keeps fs s0 (State.heartbeatVerdict s p) := by
  unfold State.heartbeatVerdict
  extract_lets -merge -underBinder y613
  try clear_value y613
  split
  · exact h1
  · extract_lets -merge -underBinder y614 y615 y616 y617
    have k618 : Keeps fs s0 y617 := by
      refine setBit_keeps _ _ _ ?_ (alwL hF 3 0 (by simp only [dispReg, Reg.DISP_STAT]; omega))
      refine State.setChan_keeps _ _ _ ?_ (subF_trans (by decide) hF)
      exact h1
    refine keeps_ite ?_ ?_
    · exact h1
    · refine keeps_ite ?_ ?_
      · refine State.frozen_keeps _ _ ?_ (subF_trans (by decide) hF)
        exact k618
      · exact k618

theorem execHeartbeatVerdict_keeps (p : ℕ) (s : State) : ∃ s', execHeartbeatVerdict p s = .next s' ∧
    Keeps [.block 3, .il, .block 1, .out, .free] s s' := by
  have hF : subF [.block 3, .il, .block 1, .out, .free] [.block 3, .il, .block 1, .out, .free] = true := by decide
  unfold execHeartbeatVerdict
  refine ⟨_, rfl, ?_⟩
  refine State.heartbeatVerdict_keeps _ _ ?_ (subF_trans (by decide) hF)
  exact (Keeps.rfl' _ _)

theorem State.frozenWrite_keeps {fs : List Zone} {s0 : State} (s : State) (p : ℕ) (h1 : Keeps fs s0 s) (hF : subF [.block 3] fs = true) :
    Keeps fs s0 (State.frozenWrite s p) := by
  unfold State.frozenWrite
  refine keeps_ite ?_ ?_
  · refine setBit_keeps _ _ _ ?_ (alwL hF 3 0 (by simp only [dispReg, Reg.DISP_STAT]; omega))
    exact h1
  · exact h1

theorem execFrozenWrite_keeps (p : ℕ) (s : State) : ∃ s', execFrozenWrite p s = .next s' ∧
    Keeps [.block 3] s s' := by
  have hF : subF [.block 3] [.block 3] = true := by decide
  unfold execFrozenWrite
  refine ⟨_, rfl, ?_⟩
  refine State.frozenWrite_keeps _ _ ?_ (subF_trans (by decide) hF)
  exact (Keeps.rfl' _ _)

theorem State.setSlot_keeps {fs : List Zone} {s0 : State} (s : State) (p : ℕ) (r : ℕ) (x : Slot) (h1 : Keeps fs s0 s) (hF : subF [.il] fs = true) :
    Keeps fs s0 (State.setSlot s p r x) := by
  unfold State.setSlot
  extract_lets -merge -underBinder y619
  refine State.setChan_keeps _ _ _ ?_ (subF_trans (by decide) hF)
  exact h1

theorem State.slotFault_keeps {fs : List Zone} {s0 : State} (s : State) (p : ℕ) (r : ℕ) (detail : ℕ) (h1 : Keeps fs s0 s) (hF : subF [.block 1, .out, .free, .block 3, .il] fs = true) :
    Keeps fs s0 (State.slotFault s p r detail) := by
  unfold State.slotFault
  extract_lets -merge -underBinder y620 y621
  have k622 : Keeps fs s0 y620 := by
    refine State.fire_keeps _ _ ?_ (subF_trans (by decide) hF)
    refine State.useFree_keeps _ ?_ (subF_trans (by decide) hF)
    refine State.evtAdd_keeps _ _ _ _ _ ?_ (subF_trans (by decide) hF)
    refine State.setSlotBit_keeps _ _ _ _ _ ?_ (alwL hF 3 0 (by simp only [dispReg, Reg.FAULT]; omega)) (subF_trans (by decide) hF)
    exact h1
  refine State.setSlot_keeps _ _ _ _ ?_ (subF_trans (by decide) hF)
  exact k622

theorem State.slotFail_keeps {fs : List Zone} {s0 : State} (s : State) (p : ℕ) (r : ℕ) (detail : ℕ) (h1 : Keeps fs s0 s) (hF : subF [.block 3, .block 1, .out, .free, .il] fs = true) :
    Keeps fs s0 (State.slotFail s p r detail) := by
  unfold State.slotFail
  extract_lets -merge -underBinder y623 y624
  have k625 : Keeps fs s0 y623 := by
    refine State.safeSet_keeps _ _ ?_ (subF_trans (by decide) hF)
    refine State.fire_keeps _ _ ?_ (subF_trans (by decide) hF)
    refine State.useFree_keeps _ ?_ (subF_trans (by decide) hF)
    refine State.evtAdd_keeps _ _ _ _ _ ?_ (subF_trans (by decide) hF)
    refine State.setSlotBit_keeps _ _ _ _ _ ?_ (alwL hF 3 0 (by simp only [dispReg, Reg.FAILED]; omega)) (subF_trans (by decide) hF)
    exact h1
  refine State.setSlot_keeps _ _ _ _ ?_ (subF_trans (by decide) hF)
  exact k625

theorem State.slotNormal_keeps {fs : List Zone} {s0 : State} (s : State) (p : ℕ) (r : ℕ) (h1 : Keeps fs s0 s) (hF : subF [.block 3, .il] fs = true) :
    Keeps fs s0 (State.slotNormal s p r) := by
  unfold State.slotNormal
  refine State.evtAdd_keeps _ _ _ _ _ ?_ (subF_trans (by decide) hF)
  refine State.setSlotBit_keeps _ _ _ _ _ ?_ (alwL hF 3 0 (by simp only [dispReg, Reg.SHADOW]; omega)) (subF_trans (by decide) hF)
  refine State.setSlotBit_keeps _ _ _ _ _ ?_ (alwL hF 3 0 (by simp only [dispReg, Reg.FAILED]; omega)) (subF_trans (by decide) hF)
  refine State.setSlotBit_keeps _ _ _ _ _ ?_ (alwL hF 3 0 (by simp only [dispReg, Reg.STAMP]; omega)) (subF_trans (by decide) hF)
  refine State.setSlot_keeps _ _ _ _ ?_ (subF_trans (by decide) hF)
  exact h1

theorem State.slotVsync_keeps {fs : List Zone} {s0 : State} (s : State) (p : ℕ) (l : Latch) (g : Region) (h1 : Keeps fs s0 s) (hF : subF [.block 1, .out, .free, .block 3, .il, .block 8] fs = true) :
    Keeps fs s0 (State.slotVsync s p l g) := by
  unfold State.slotVsync
  extract_lets -merge -underBinder y626 y627 y628 y629
  have k630 : Keeps fs s0 y627 := by
    refine keeps_ite ?_ ?_
    · refine State.slotFault_keeps _ _ _ _ ?_ (subF_trans (by decide) hF)
      exact h1
    · exact h1
  have k631 : Keeps fs s0 y629.1 := by
    refine State.stampFor_keeps _ _ _ ?_ (subF_trans (by decide) hF)
    exact k630
  refine keeps_ite ?_ ?_
  · exact k630
  · split
    · refine keeps_ite ?_ ?_
      · refine State.slotFail_keeps _ _ _ _ ?_ (subF_trans (by decide) hF)
        exact k631
      · exact k631
    · refine keeps_ite ?_ ?_
      · refine State.setSlot_keeps _ _ _ _ ?_ (subF_trans (by decide) hF)
        exact k631
      · exact k631

theorem State.slotsVsync_keeps {fs : List Zone} {s0 : State} (s : State) (p : ℕ) (l : Latch) (h1 : Keeps fs s0 s) (hF : subF [.block 3, .il, .block 1, .out, .free, .block 8] fs = true) :
    Keeps fs s0 (State.slotsVsync s p l) := by
  unfold State.slotsVsync
  extract_lets -merge -underBinder y632 y633
  have k634 : Keeps fs s0 y633 := by
    refine keeps_foldl _ _ ?_ ?_
    · exact h1
    · intro z635 z637 h636
      refine State.slotNormal_keeps _ _ _ ?_ (subF_trans (by decide) hF)
      exact h636
  refine keeps_foldl _ _ ?_ ?_
  · exact k634
  · intro z638 z640 h639
    refine keeps_ite ?_ ?_
    · exact h639
    · refine State.slotVsync_keeps _ _ _ _ ?_ (subF_trans (by decide) hF)
      exact h639

theorem State.frameStamps_keeps {fs : List Zone} {s0 : State} (s : State) (p : ℕ) (l : Latch) (h1 : Keeps fs s0 s) (hF : subF [.block 1, .out, .block 8, .free] fs = true) :
    Keeps fs s0 (State.frameStamps s p l).1 := by
  unfold State.frameStamps
  refine keeps_foldl_fst _ _ ?_ ?_
  · refine keeps_mk_fst ?_
    exact h1
  · intro z641 z643 h642
    extract_lets -merge -underBinder y644
    have k645 : Keeps fs s0 y644.1 := by
      refine State.stampFor_keeps _ _ _ ?_ (subF_trans (by decide) hF)
      exact h642
    refine keeps_ite_fst ?_ ?_
    · exact h642
    · split
      · refine keeps_mk_fst ?_
        exact k645
      · refine keeps_mk_fst ?_
        exact k645

theorem State.judge_keeps {fs : List Zone} {s0 : State} (s : State) (g : Region) (l : Option Latch) (bytes : List Byte) (h1 : Keeps fs s0 s) (hF : subF [.block 1, .out, .block 8, .free] fs = true) :
    Keeps fs s0 (State.judge s g l bytes).1 := by
  unfold State.judge
  split
  · refine keeps_mk_fst ?_
    exact h1
  · extract_lets -merge -underBinder y646 y647 y648 y649
    have k650 : Keeps fs s0 y646.1 := by
      refine State.refWord_keeps _ _ _ ?_ (subF_trans (by decide) hF)
      exact h1
    have k651 : Keeps fs s0 y649.1 := by
      refine State.refWord_keeps _ _ _ ?_ (subF_trans (by decide) hF)
      exact k650
    refine keeps_ite_fst ?_ ?_
    · refine keeps_mk_fst ?_
      exact k650
    · refine keeps_ite_fst ?_ ?_
      · refine keeps_mk_fst ?_
        exact k650
      · refine keeps_ite_fst ?_ ?_
        · refine keeps_mk_fst ?_
          exact k650
        · refine keeps_ite_fst ?_ ?_
          · refine keeps_mk_fst ?_
            exact k651
          · refine keeps_mk_fst ?_
            exact k651

theorem State.regionVerdict_keeps {fs : List Zone} {s0 : State} (s : State) (p : ℕ) (r : ℕ) (h1 : Keeps fs s0 s) (hF : subF [.block 1, .out, .block 8, .free, .il, .block 3] fs = true) :
    Keeps fs s0 (State.regionVerdict s p r) := by
  unfold State.regionVerdict
  extract_lets -merge -underBinder y652
  try clear_value y652
  try clear_value y652
  split
  · extract_lets -merge -underBinder y653 y654 y655 y656 y657 y658 y659 y660 y661 y662
    have k663 : Keeps fs s0 y657.1 := by
      refine State.judge_keeps _ _ _ _ ?_ (subF_trans (by decide) hF)
      exact h1
    have k664 : Keeps fs s0 y658 := by
      refine State.fireIf_keeps _ _ _ ?_ (subF_trans (by decide) hF)
      exact k663
    have k665 : Keeps fs s0 y662 := by
      refine State.setChan_keeps _ _ _ ?_ (subF_trans (by decide) hF)
      exact k664
    refine keeps_ite ?_ ?_
    · exact h1
    · try clear_value y654
      split
      · extract_lets -merge -underBinder y666
        have k667 : Keeps fs s0 y666 := by
          refine State.setSlot_keeps _ _ _ _ ?_ (subF_trans (by decide) hF)
          exact k665
        refine keeps_ite ?_ ?_
        · refine State.setSlot_keeps _ _ _ _ ?_ (subF_trans (by decide) hF)
          exact k665
        · refine keeps_ite ?_ ?_
          · exact k665
          · refine keeps_ite ?_ ?_
            · refine State.slotFault_keeps _ _ _ _ ?_ (subF_trans (by decide) hF)
              exact k667
            · exact k667
      · extract_lets -merge -underBinder y668 y669
        have k670 : Keeps fs s0 y668.1 := by
          refine State.judge_keeps _ _ _ _ ?_ (subF_trans (by decide) hF)
          exact k665
        have k671 : Keeps fs s0 y669 := by
          refine State.setSlotBit_keeps _ _ _ _ _ ?_ (alwL hF 3 0 (by simp only [dispReg, Reg.SHADOW]; omega)) (subF_trans (by decide) hF)
          exact k670
        refine keeps_ite ?_ ?_
        · refine State.slotFail_keeps _ _ _ _ ?_ (subF_trans (by decide) hF)
          exact k671
        · exact k671
  · exact h1

theorem execRegionVerdict_keeps (p : ℕ) (r : ℕ) (s : State) : ∃ s', execRegionVerdict p r s = .next s' ∧
    Keeps [.block 1, .out, .block 8, .free, .il, .block 3] s s' := by
  have hF : subF [.block 1, .out, .block 8, .free, .il, .block 3] [.block 1, .out, .block 8, .free, .il, .block 3] = true := by decide
  unfold execRegionVerdict
  refine ⟨_, rfl, ?_⟩
  refine State.regionVerdict_keeps _ _ _ ?_ (subF_trans (by decide) hF)
  exact (Keeps.rfl' _ _)

theorem State.faultWrite_keeps {fs : List Zone} {s0 : State} (s : State) (p : ℕ) (hi : ℕ) (v : Word) (h1 : Keeps fs s0 s) (hF : subF [.block 3] fs = true) :
    Keeps fs s0 (State.faultWrite s p hi v) := by
  unfold State.faultWrite
  extract_lets -merge -underBinder y672
  refine setReg_keeps _ _ ?_ (alwL hF 3 0 (by simp only [y672, dispReg, Reg.FAULT]; omega))
  exact h1

theorem execFaultWrite_keeps (p : ℕ) (hi : ℕ) (v : Word) (s : State) : ∃ s', execFaultWrite p hi v s = .next s' ∧
    Keeps [.block 3] s s' := by
  have hF : subF [.block 3] [.block 3] = true := by decide
  unfold execFaultWrite
  refine ⟨_, rfl, ?_⟩
  refine State.faultWrite_keeps _ _ _ _ ?_ (subF_trans (by decide) hF)
  exact (Keeps.rfl' _ _)

theorem State.publish_keeps {fs : List Zone} {s0 : State} (s : State) (p : ℕ) (h1 : Keeps fs s0 s) (hF : subF [.block 3, .free, .block 1, .out] fs = true) :
    Keeps fs s0 (State.publish s p) := by
  unfold State.publish
  split
  · exact h1
  · extract_lets -merge -underBinder y673 y674 y675 y676 y677
    have k678 : Keeps fs s0 y677 := by
      refine keeps_foldl _ _ ?_ ?_
      · refine State.useFree_keeps _ ?_ (subF_trans (by decide) hF)
        exact h1
      · intro z679 z681 h680
        refine setReg_keeps _ _ ?_ (alwL hF 3 0 (by simp only [dispReg, Reg.CERT_FRAME]; omega))
        exact h680
    refine State.fireIf_keeps _ _ _ ?_ (subF_trans (by decide) hF)
    refine setReg_keeps _ _ ?_ (alwL hF 3 0 (by simp only [dispReg, Reg.CERT_CRC]; omega))
    exact k678

theorem State.katFailed_keeps {fs : List Zone} {s0 : State} (s : State) (p : ℕ) (h1 : Keeps fs s0 s) (hF : subF [.block 1, .out, .free, .block 3] fs = true) :
    Keeps fs s0 (State.katFailed s p) := by
  unfold State.katFailed
  refine State.fire_keeps _ _ ?_ (subF_trans (by decide) hF)
  refine State.useFree_keeps _ ?_ (subF_trans (by decide) hF)
  refine State.evtAdd_keeps _ _ _ _ _ ?_ (subF_trans (by decide) hF)
  refine State.safeSet_keeps _ _ ?_ (subF_trans (by decide) hF)
  exact h1

theorem State.ilVsync_keeps {fs : List Zone} {s0 : State} (s : State) (p : ℕ) (katFail : Bool) (h1 : Keeps fs s0 s) (hF : subF [.il, .block 3, .free, .block 1, .out, .block 8] fs = true) :
    Keeps fs s0 (State.ilVsync s p katFail) := by
  unfold State.ilVsync
  extract_lets -merge -underBinder y682 y683 y684 y685 y686 y687
  have k688 : Keeps fs s0 y682 := by
    refine State.ilLatch_keeps _ _ ?_ (subF_trans (by decide) hF)
    refine State.publish_keeps _ _ ?_ (subF_trans (by decide) hF)
    exact h1
  have k689 : Keeps fs s0 y683 := by
    refine keeps_ite ?_ ?_
    · refine State.regionTake_keeps _ _ ?_ (subF_trans (by decide) hF)
      exact k688
    · exact k688
  have k690 : Keeps fs s0 y684 := by
    refine setBit_keeps _ _ _ ?_ (alwL hF 3 0 (by simp only [dispReg, Reg.DISP_STAT]; omega))
    refine State.ilSample_keeps _ _ ?_ (subF_trans (by decide) hF)
    exact k689
  have k691 : Keeps fs s0 y685 := by
    refine keeps_ite ?_ ?_
    · refine State.katFailed_keeps _ _ ?_ (subF_trans (by decide) hF)
      exact k690
    · exact k690
  split
  · exact k691
  · extract_lets -merge -underBinder y692 y693 y694 y695 y696 y697
    have k698 : Keeps fs s0 y692 := by
      refine keeps_ite ?_ ?_
      · refine State.slotsVsync_keeps _ _ _ ?_ (subF_trans (by decide) hF)
        exact k691
      · exact k691
    have k699 : Keeps fs s0 y693.1 := by
      refine keeps_ite_fst ?_ ?_
      · refine State.frameStamps_keeps _ _ _ ?_ (subF_trans (by decide) hF)
        exact k698
      · refine keeps_mk_fst ?_
        exact k698
    have k700 : Keeps fs s0 y697 := by
      refine State.setChan_keeps _ _ _ ?_ (subF_trans (by decide) hF)
      exact k699
    refine keeps_foldl _ _ ?_ ?_
    · exact k700
    · intro z701 z703 h702
      refine State.setSlotBit_keeps _ _ _ _ _ ?_ (alwL hF 3 0 (by simp only [dispReg, Reg.STAMP]; omega)) (subF_trans (by decide) hF)
      exact h702

theorem State.pipeStopped_keeps {fs : List Zone} {s0 : State} (s : State) (p : ℕ) (h1 : Keeps fs s0 s) (hF : subF [.block 3, .block 1, .out, .free] fs = true) :
    Keeps fs s0 (State.pipeStopped s p) := by
  unfold State.pipeStopped
  refine keeps_ite ?_ ?_
  · refine State.safeSet_keeps _ _ ?_ (subF_trans (by decide) hF)
    refine setBit_keeps _ _ _ ?_ (alwL hF 3 0 (by simp only [dispReg, Reg.DISP_STAT]; omega))
    exact h1
  · exact h1

theorem execPipeStopped_keeps (p : ℕ) (s : State) : ∃ s', execPipeStopped p s = .next s' ∧
    Keeps [.block 3, .block 1, .out, .free] s s' := by
  have hF : subF [.block 3, .block 1, .out, .free] [.block 3, .block 1, .out, .free] = true := by decide
  unfold execPipeStopped
  refine ⟨_, rfl, ?_⟩
  refine State.pipeStopped_keeps _ _ ?_ (subF_trans (by decide) hF)
  exact (Keeps.rfl' _ _)

theorem execSafeCtlClr_keeps (s : State) : ∃ s', execSafeCtlClr s = .next s' ∧
    Keeps [.block 3, .free] s s' := by
  have hF : subF [.block 3, .free] [.block 3, .free] = true := by decide
  unfold execSafeCtlClr
  refine ⟨_, rfl, ?_⟩
  refine State.safeClear_keeps _ _ ?_ (subF_trans (by decide) hF)
  exact (Keeps.rfl' _ _)

theorem State.safeForce_keeps {fs : List Zone} {s0 : State} (s : State) (on : Bool) (h1 : Keeps fs s0 s) (hF : subF [.block 3, .block 1, .out, .free] fs = true) :
    Keeps fs s0 (State.safeForce s on) := by
  unfold State.safeForce
  extract_lets -merge -underBinder y704
  have k705 : Keeps fs s0 y704 := by
    refine setBit_keeps _ _ _ ?_ (alwB hF 3 rfl (by decide))
    exact h1
  refine keeps_ite ?_ ?_
  · refine State.safeSet_keeps _ _ ?_ (subF_trans (by decide) hF)
    exact k705
  · refine State.safeClear_keeps _ _ ?_ (subF_trans (by decide) hF)
    exact k705

theorem execSafeCtlForce_keeps (on : Bool) (s : State) : ∃ s', execSafeCtlForce on s = .next s' ∧
    Keeps [.block 3, .block 1, .out, .free] s s' := by
  have hF : subF [.block 3, .block 1, .out, .free] [.block 3, .block 1, .out, .free] = true := by decide
  unfold execSafeCtlForce
  refine ⟨_, rfl, ?_⟩
  refine State.safeForce_keeps _ _ ?_ (subF_trans (by decide) hF)
  exact (Keeps.rfl' _ _)

theorem State.evtAck_keeps {fs : List Zone} {s0 : State} (s : State) (v : Word) (h1 : Keeps fs s0 s) (hF : subF [.block 3] fs = true) :
    Keeps fs s0 (State.evtAck s v) := by
  unfold State.evtAck
  extract_lets -merge -underBinder y706 y707
  have k708 : Keeps fs s0 y707 := by
    refine setFld_keeps _ _ _ _ ?_ (alwB hF 3 rfl (by decide))
    refine setFld_keeps _ _ _ _ ?_ (alwB hF 3 rfl (by decide))
    exact h1
  refine keeps_ite ?_ ?_
  · refine setBit_keeps _ _ _ ?_ (alwB hF 3 rfl (by decide))
    exact k708
  · exact k708

theorem execEvtStatAck_keeps (v : Word) (s : State) : ∃ s', execEvtStatAck v s = .next s' ∧
    Keeps [.block 3] s s' := by
  have hF : subF [.block 3] [.block 3] = true := by decide
  unfold execEvtStatAck
  refine ⟨_, rfl, ?_⟩
  refine State.evtAck_keeps _ _ ?_ (subF_trans (by decide) hF)
  exact (Keeps.rfl' _ _)

theorem State.dispCfgWrite_keeps {fs : List Zone} {s0 : State} (s : State) (ini : ℕ) (p : ℕ) (v : Word) (h1 : Keeps fs s0 s) (hF : subF [.block 3] fs = true) :
    Keeps fs s0 (State.dispCfgWrite s ini p v).1 := by
  unfold State.dispCfgWrite
  refine keeps_ite_fst ?_ ?_
  · refine keeps_mk_fst ?_
    exact h1
  · refine keeps_mk_fst ?_
    refine codeWrite_keeps _ _ ?_ (alwL hF 3 0 (by simp only [dispReg, Reg.DISP_CFG]; omega))
    exact h1

theorem execDispCfgWrite_keeps (ini : ℕ) (p : ℕ) (v : Word) (s : State) : ∃ s', execDispCfgWrite ini p v s = .next s' ∧
    Keeps [.block 3] s s' := by
  have hF : subF [.block 3] [.block 3] = true := by decide
  unfold execDispCfgWrite
  refine ⟨_, rfl, ?_⟩
  refine State.dispCfgWrite_keeps _ _ _ _ ?_ (subF_trans (by decide) hF)
  exact (Keeps.rfl' _ _)

theorem State.ilWrite_keeps {fs : List Zone} {s0 : State} (s : State) (ini : ℕ) (a : ℕ) (v : Word) (h1 : Keeps fs s0 s) (hF : subF [.regs, .block 3, .block 1, .out, .block 8, .free, .il] fs = true) :
    Keeps fs s0 (State.ilWrite s ini a v).1 := by
  unfold State.ilWrite
  extract_lets -merge -underBinder y709 y710 y711 y712 y713
  have k714 : Keeps fs s0 y711 := by
    refine keeps_ite ?_ ?_
    · refine setBit_keeps _ _ _ ?_ (alwR hF (by decide))
      exact h1
    · exact h1
  have k715 : Keeps fs s0 y712 := by
    refine keeps_ite ?_ ?_
    · refine State.regionCancel_keeps _ _ ?_ (subF_trans (by decide) hF)
      exact h1
    · exact h1
  have k716 : Keeps fs s0 y713 := by
    refine State.safeForce_keeps _ _ ?_ (subF_trans (by decide) hF)
    exact h1
  refine keeps_ite_fst ?_ ?_
  · refine keeps_ite_fst ?_ ?_
    · refine State.regionWrite_keeps _ _ _ _ ?_ (alwR hF (by decide)) (subF_trans (by decide) hF)
      exact h1
    · refine keeps_mk_fst ?_
      exact h1
  · refine keeps_ite_fst ?_ ?_
    · refine keeps_ite_fst ?_ ?_
      · refine keeps_ite_fst ?_ ?_
        · refine State.dispCfgWrite_keeps _ _ _ _ ?_ (subF_trans (by decide) hF)
          exact h1
        · refine keeps_mk_fst ?_
          exact h1
      · refine keeps_ite_fst ?_ ?_
        · refine keeps_ite_fst ?_ ?_
          · refine keeps_ite_fst ?_ ?_
            · refine keeps_mk_fst ?_
              exact k714
            · refine keeps_ite_fst ?_ ?_
              · refine keeps_mk_fst ?_
                refine State.frozenWrite_keeps _ _ ?_ (subF_trans (by decide) hF)
                exact k714
              · refine keeps_mk_fst ?_
                exact k714
          · refine keeps_mk_fst ?_
            exact h1
        · refine keeps_ite_fst ?_ ?_
          · refine keeps_ite_fst ?_ ?_
            · refine keeps_ite_fst ?_ ?_
              · refine State.regionCommit_keeps _ _ ?_ (subF_trans (by decide) hF)
                exact k715
              · refine keeps_mk_fst ?_
                exact k715
            · refine keeps_mk_fst ?_
              exact h1
          · refine keeps_ite_fst ?_ ?_
            · refine keeps_mk_fst ?_
              refine State.faultWrite_keeps _ _ _ _ ?_ (subF_trans (by decide) hF)
              exact h1
            · refine keeps_mk_fst ?_
              exact h1
    · refine keeps_ite_fst ?_ ?_
      · refine keeps_ite_fst ?_ ?_
        · refine keeps_mk_fst ?_
          refine State.latchSel_keeps _ _ ?_ (subF_trans (by decide) hF)
          exact h1
        · refine keeps_mk_fst ?_
          exact h1
      · refine keeps_ite_fst ?_ ?_
        · refine keeps_mk_fst ?_
          exact h1
        · refine keeps_ite_fst ?_ ?_
          · refine keeps_mk_fst ?_
            refine keeps_ite ?_ ?_
            · refine State.safeClear_keeps _ _ ?_ (subF_trans (by decide) hF)
              exact k716
            · exact k716
          · refine keeps_ite_fst ?_ ?_
            · refine keeps_mk_fst ?_
              refine keeps_ite ?_ ?_
              · refine State.ttGo_keeps _ ?_ (subF_trans (by decide) hF)
                exact h1
              · exact h1
            · refine keeps_ite_fst ?_ ?_
              · refine keeps_mk_fst ?_
                refine State.ttClear_keeps _ _ ?_ (subF_trans (by decide) hF)
                exact h1
              · refine keeps_ite_fst ?_ ?_
                · refine keeps_mk_fst ?_
                  refine State.evtAck_keeps _ _ ?_ (subF_trans (by decide) hF)
                  exact h1
                · refine keeps_ite_fst ?_ ?_
                  · refine keeps_ite_fst ?_ ?_
                    · refine keeps_mk_fst ?_
                      exact h1
                    · refine keeps_mk_fst ?_
                      refine codeWrite_keeps _ _ ?_ (alwR hF (by decide))
                      exact h1
                  · refine keeps_ite_fst ?_ ?_
                    · refine keeps_mk_fst ?_
                      refine codeWrite_keeps _ _ ?_ (alwR hF (by decide))
                      exact h1
                    · refine keeps_mk_fst ?_
                      exact h1

end Sys2Proof.Machine
end

