-- ==== Sys2Proof/Laws/KeepsControlStore.lean ====
section
/-! SUPPORT. What each operation of Machine/ControlStore.lean can change, one lemma an operation (Laws/KeepsBase.lean). -/

-- elaborated one declaration at a time, so that the package compiles as one text in bounded memory
set_option Elab.async false

namespace Sys2Proof.Machine

theorem State.csRead_keeps {fs : List Zone} {s0 : State} (s : State) (h1 : Keeps fs s0 s) (hF : subF [.block 17] fs = true) :
    Keeps fs s0 (State.csRead s).1 := by
  unfold State.csRead
  extract_lets -merge -underBinder y1233
  refine keeps_mk_fst ?_
  refine setFld_keeps _ _ _ _ ?_ (alwB hF 17 rfl (by decide))
  exact h1

theorem State.csWrite_keeps {fs : List Zone} {s0 : State} (s : State) (v : Word) (h1 : Keeps fs s0 s) (hF : subF [.block 17, .cs] fs = true) :
    Keeps fs s0 (State.csWrite s v).1 := by
  unfold State.csWrite
  extract_lets -merge -underBinder y1234 y1235
  refine keeps_ite_fst ?_ ?_
  · refine keeps_mk_fst ?_
    exact h1
  · refine keeps_mk_fst ?_
    refine setFld_keeps _ _ _ _ ?_ (alwB hF 17 rfl (by decide))
    refine Keeps.upd ?_ (.inr rfl) (.inl ⟨rfl, rfl⟩) (.inr rfl) (.inr rfl) (.inl (alw hF (by decide))) (.inl ⟨rfl, rfl⟩) (.inl ⟨rfl, rfl⟩) (.inl rfl) (.inr rfl) (.inr rfl) (.inr rfl) (.inr rfl) (.inr ⟨rfl, rfl⟩) (.inr rfl) (.inr rfl) (.inr rfl) (.inr rfl) (.inr rfl) (.inr rfl) (.inr rfl) (.inr rfl) (.inr rfl) (.inr rfl) (.inr rfl) (.inr rfl) (.inr rfl) (.inr rfl) (.inr rfl) (.inl rfl) rfl
    exact h1

theorem execCsWdataAccess_keeps (write : Bool) (v : Word) (s : State) : ∃ s', execCsWdataAccess write v s = .next s' ∧
    Keeps [.block 17, .cs] s s' := by
  have hF : subF [.block 17, .cs] [.block 17, .cs] = true := by decide
  unfold execCsWdataAccess
  refine ⟨_, rfl, ?_⟩
  refine keeps_ite ?_ ?_
  · refine State.csWrite_keeps _ _ ?_ (subF_trans (by decide) hF)
    exact (Keeps.rfl' _ _)
  · refine State.csRead_keeps _ ?_ (subF_trans (by decide) hF)
    exact (Keeps.rfl' _ _)

theorem State.decWrite_keeps {fs : List Zone} {s0 : State} (s : State) (v : Word) (h1 : Keeps fs s0 s) (hF : subF [.cs] fs = true) :
    Keeps fs s0 (State.decWrite s v).1 := by
  unfold State.decWrite
  extract_lets -merge -underBinder y1236 y1237 y1238
  refine keeps_ite_fst ?_ ?_
  · refine keeps_mk_fst ?_
    exact h1
  · refine keeps_mk_fst ?_
    refine Keeps.upd ?_ (.inr rfl) (.inl ⟨rfl, rfl⟩) (.inr rfl) (.inr rfl) (.inl (alw hF (by decide))) (.inl ⟨rfl, rfl⟩) (.inl ⟨rfl, rfl⟩) (.inl rfl) (.inr rfl) (.inr rfl) (.inr rfl) (.inr rfl) (.inr ⟨rfl, rfl⟩) (.inr rfl) (.inr rfl) (.inr rfl) (.inr rfl) (.inr rfl) (.inr rfl) (.inr rfl) (.inr rfl) (.inr rfl) (.inr rfl) (.inr rfl) (.inr rfl) (.inr rfl) (.inr rfl) (.inr rfl) (.inl rfl) rfl
    exact h1

theorem execDecEntryWrite_keeps (v : Word) (s : State) : ∃ s', execDecEntryWrite v s = .next s' ∧
    Keeps [.cs] s s' := by
  have hF : subF [.cs] [.cs] = true := by decide
  unfold execDecEntryWrite
  refine ⟨_, rfl, ?_⟩
  refine State.decWrite_keeps _ _ ?_ (subF_trans (by decide) hF)
  exact (Keeps.rfl' _ _)

theorem State.csErr_keeps {fs : List Zone} {s0 : State} (s : State) (reason : ℕ) (maddr : ℕ) (h1 : Keeps fs s0 s) (hF : subF [.block 17] fs = true) :
    Keeps fs s0 (State.csErr s reason maddr) := by
  unfold State.csErr
  refine record_keeps _ _ ?_ ?_ (alwB hF 17 rfl (by decide))
  · exact h1
  · intro z1239 h1240
    refine setFld_keeps _ _ _ _ ?_ (alwB hF 17 rfl (by decide))
    refine setFld_keeps _ _ _ _ ?_ (alwB hF 17 rfl (by decide))
    exact h1240

theorem State.microTrap_keeps {fs : List Zone} {s0 : State} (s : State) (cause : ℕ) (addr : ℕ) (r : Resp) (h1 : Keeps fs s0 s) (hF : subF [.disp, .block 17, .sched, .kernels, .running, .log, .free] fs = true) :
    Keeps fs s0 (State.microTrap s cause addr r) := by
  unfold State.microTrap
  extract_lets -merge -underBinder y1241 y1242
  have k1243 : Keeps fs s0 y1241 := by
    refine State.trap_keeps _ _ _ _ _ _ _ ?_ (subF_trans (by decide) hF)
    exact h1
  refine State.boundary_keeps _ ?_ (subF_trans (by decide) hF)
  refine Keeps.upd ?_ (.inr rfl) (.inl ⟨rfl, rfl⟩) (.inr rfl) (.inl (alw hF (by decide))) (.inr rfl) (.inl ⟨rfl, rfl⟩) (.inl ⟨rfl, rfl⟩) (.inl rfl) (.inr rfl) (.inr rfl) (.inr rfl) (.inr rfl) (.inr ⟨rfl, rfl⟩) (.inr rfl) (.inr rfl) (.inr rfl) (.inr rfl) (.inr rfl) (.inr rfl) (.inr rfl) (.inr rfl) (.inr rfl) (.inr rfl) (.inr rfl) (.inr rfl) (.inr rfl) (.inr rfl) (.inr rfl) (.inl rfl) rfl
  exact k1243

theorem State.microUndef_keeps {fs : List Zone} {s0 : State} (s : State) (m : Micro) (reason : ℕ) (h1 : Keeps fs s0 s) (hF : subF [.disp, .block 17, .sched, .kernels, .running, .log, .free] fs = true) :
    Keeps fs s0 (State.microUndef s m reason) := by
  unfold State.microUndef
  refine State.microTrap_keeps _ _ _ _ ?_ (subF_trans (by decide) hF)
  refine State.csErr_keeps _ _ _ ?_ (subF_trans (by decide) hF)
  exact h1

theorem State.watchdog_keeps {fs : List Zone} {s0 : State} (s : State) (m : Micro) (h1 : Keeps fs s0 s) (hF : subF [.block 17, .disp, .sched, .kernels, .running, .log, .free] fs = true) :
    Keeps fs s0 (State.watchdog s m) := by
  unfold State.watchdog
  extract_lets -merge -underBinder y1244 y1245
  have k1246 : Keeps fs s0 y1244 := by
    refine State.csErr_keeps _ _ _ ?_ (subF_trans (by decide) hF)
    exact h1
  refine State.microTrap_keeps _ _ _ _ ?_ (subF_trans (by decide) hF)
  refine Keeps.upd ?_ (.inr rfl) (.inl ⟨rfl, rfl⟩) (.inr rfl) (.inl (alw hF (by decide))) (.inr rfl) (.inl ⟨rfl, rfl⟩) (.inl ⟨rfl, rfl⟩) (.inl rfl) (.inr rfl) (.inr rfl) (.inr rfl) (.inr rfl) (.inr ⟨rfl, rfl⟩) (.inr rfl) (.inr rfl) (.inr rfl) (.inr rfl) (.inr rfl) (.inr rfl) (.inr rfl) (.inr rfl) (.inr rfl) (.inr rfl) (.inr rfl) (.inr rfl) (.inr rfl) (.inr rfl) (.inr rfl) (.inl rfl) rfl
  exact k1246

theorem State.setMicro_keeps {fs : List Zone} {s0 : State} (s : State) (m : Micro) (h1 : Keeps fs s0 s) (hF : subF [.disp] fs = true) :
    Keeps fs s0 (State.setMicro s m) := by
  unfold State.setMicro
  extract_lets -merge -underBinder y1247
  refine Keeps.upd ?_ (.inr rfl) (.inl ⟨rfl, rfl⟩) (.inr rfl) (.inl (alw hF (by decide))) (.inr rfl) (.inl ⟨rfl, rfl⟩) (.inl ⟨rfl, rfl⟩) (.inl rfl) (.inr rfl) (.inr rfl) (.inr rfl) (.inr rfl) (.inr ⟨rfl, rfl⟩) (.inr rfl) (.inr rfl) (.inr rfl) (.inr rfl) (.inr rfl) (.inr rfl) (.inr rfl) (.inr rfl) (.inr rfl) (.inr rfl) (.inr rfl) (.inr rfl) (.inr rfl) (.inr rfl) (.inr rfl) (.inl rfl) rfl
  exact h1

theorem State.microSet_keeps {fs : List Zone} {s0 : State} (s : State) (m : Micro) (c : ℕ) (v : Word) (h1 : Keeps fs s0 s) (hF : subF [.disp] fs = true) :
    Keeps fs s0 (State.microSet s m c v) := by
  unfold State.microSet
  split
  · refine State.setMicro_keeps _ _ ?_ (subF_trans (by decide) hF)
    refine State.setAcc_keeps _ _ ?_ (subF_trans (by decide) hF)
    exact h1
  · extract_lets -merge -underBinder y1248
    refine State.setMicro_keeps _ _ ?_ (subF_trans (by decide) hF)
    refine Keeps.upd ?_ (.inr rfl) (.inl ⟨rfl, rfl⟩) (.inr rfl) (.inl (alw hF (by decide))) (.inr rfl) (.inl ⟨rfl, rfl⟩) (.inl ⟨rfl, rfl⟩) (.inl rfl) (.inr rfl) (.inr rfl) (.inr rfl) (.inr rfl) (.inr ⟨rfl, rfl⟩) (.inr rfl) (.inr rfl) (.inr rfl) (.inr rfl) (.inr rfl) (.inr rfl) (.inr rfl) (.inr rfl) (.inr rfl) (.inr rfl) (.inr rfl) (.inr rfl) (.inr rfl) (.inr rfl) (.inr rfl) (.inl rfl) rfl
    exact h1
  · extract_lets -merge -underBinder y1249
    refine State.setMicro_keeps _ _ ?_ (subF_trans (by decide) hF)
    refine Keeps.upd ?_ (.inr rfl) (.inl ⟨rfl, rfl⟩) (.inr rfl) (.inl (alw hF (by decide))) (.inr rfl) (.inl ⟨rfl, rfl⟩) (.inl ⟨rfl, rfl⟩) (.inl rfl) (.inr rfl) (.inr rfl) (.inr rfl) (.inr rfl) (.inr ⟨rfl, rfl⟩) (.inr rfl) (.inr rfl) (.inr rfl) (.inr rfl) (.inr rfl) (.inr rfl) (.inr rfl) (.inr rfl) (.inr rfl) (.inr rfl) (.inr rfl) (.inr rfl) (.inr rfl) (.inr rfl) (.inr rfl) (.inl rfl) rfl
    exact h1
  · extract_lets -merge -underBinder y1250
    refine State.setMicro_keeps _ _ ?_ (subF_trans (by decide) hF)
    refine Keeps.upd ?_ (.inr rfl) (.inl ⟨rfl, rfl⟩) (.inr rfl) (.inl (alw hF (by decide))) (.inr rfl) (.inl ⟨rfl, rfl⟩) (.inl ⟨rfl, rfl⟩) (.inl rfl) (.inr rfl) (.inr rfl) (.inr rfl) (.inr rfl) (.inr ⟨rfl, rfl⟩) (.inr rfl) (.inr rfl) (.inr rfl) (.inr rfl) (.inr rfl) (.inr rfl) (.inr rfl) (.inr rfl) (.inr rfl) (.inr rfl) (.inr rfl) (.inr rfl) (.inr rfl) (.inr rfl) (.inr rfl) (.inl rfl) rfl
    exact h1
  · refine keeps_ite ?_ ?_
    · refine State.setMicro_keeps _ _ ?_ (subF_trans (by decide) hF)
      exact h1
    · refine State.setMicro_keeps _ _ ?_ (subF_trans (by decide) hF)
      exact h1

theorem State.microGo_keeps {fs : List Zone} {s0 : State} (s : State) (f : State → Micro → State) (h1 : Keeps fs s0 s) (h2 : ∀ u1251 u1252, Keeps fs s0 u1251 → Keeps fs s0 (f u1251 u1252)) (hF : subF [.block 17, .disp, .sched, .kernels, .running, .log, .free] fs = true) :
    Keeps fs s0 (State.microGo s f) := by
  unfold State.microGo
  split
  · exact h1
  · refine keeps_ite ?_ ?_
    · exact h1
    · refine keeps_ite ?_ ?_
      · refine State.watchdog_keeps _ _ ?_ (subF_trans (by decide) hF)
        exact h1
      · refine h2 _ _ ?_
        exact h1

theorem State.microNext_keeps {fs : List Zone} {s0 : State} (s : State) (m : Micro) (next : ℕ) (f : State → Micro → State) (h1 : Keeps fs s0 s) (h4 : ∀ u1253 u1254, Keeps fs s0 u1253 → Keeps fs s0 (f u1253 u1254)) (hF : subF [.disp, .block 17, .sched, .kernels, .running, .log, .free] fs = true) :
    Keeps fs s0 (State.microNext s m next f) := by
  unfold State.microNext
  refine keeps_ite ?_ ?_
  · refine h4 _ _ ?_
    exact h1
  · refine State.microUndef_keeps _ _ _ ?_ (subF_trans (by decide) hF)
    exact h1

theorem State.microAlu_keeps {fs : List Zone} {s0 : State} (s : State) (m : Micro) (d : ℕ) (a : Word) (b : Word) (op : ℕ) (f : Bool) (h1 : Keeps fs s0 s) (hF : subF [.disp, .block 17, .sched, .kernels, .running, .log, .free] fs = true) :
    Keeps fs s0 (State.microAlu s m d a b op f) := by
  unfold State.microAlu
  extract_lets -merge -underBinder y1255 y1256 y1257
  refine keeps_ite ?_ ?_
  · refine State.microUndef_keeps _ _ _ ?_ (subF_trans (by decide) hF)
    exact h1
  · refine State.microNext_keeps _ _ _ _ ?_ ?_ (subF_trans (by decide) hF)
    · exact h1
    · intro z1258 z1260 h1259
      extract_lets -merge -underBinder y1261
      have k1262 : Keeps fs s0 y1261 := by
        refine State.microSet_keeps _ _ _ _ ?_ (subF_trans (by decide) hF)
        exact h1259
      refine keeps_ite ?_ ?_
      · refine State.setFlags_keeps _ _ ?_ (subF_trans (by decide) hF)
        exact k1262
      · exact k1262

theorem State.mrd_keeps {fs : List Zone} {s0 : State} (s : State) (d : ℕ) (a : ℕ) (sz : ℕ) (off : BitVec 16) (h1 : Keeps fs s0 s) (hF : subF [.block 17, .disp, .sched, .kernels, .running, .log, .free, .jt] fs = true) :
    Keeps fs s0 (State.mrd s d a sz off) := by
  unfold State.mrd
  refine State.microGo_keeps _ _ ?_ ?_ (subF_trans (by decide) hF)
  · exact h1
  · intro z1263 z1265 h1264
    extract_lets -merge -underBinder y1266
    refine keeps_ite ?_ ?_
    · refine State.microUndef_keeps _ _ _ ?_ (subF_trans (by decide) hF)
      exact h1264
    · refine keeps_ite ?_ ?_
      · refine State.microTrap_keeps _ _ _ _ ?_ (subF_trans (by decide) hF)
        refine State.setMicro_keeps _ _ ?_ (subF_trans (by decide) hF)
        exact h1264
      · refine State.microNext_keeps _ _ _ _ ?_ ?_ (subF_trans (by decide) hF)
        · exact h1264
        · intro z1267 z1269 h1268
          refine State.waitFor_keeps _ _ ?_ (subF_trans (by decide) hF)
          refine State.sendReq_keeps _ _ _ _ _ _ _ ?_ (subF_trans (by decide) hF)
          refine State.setMicro_keeps _ _ ?_ (subF_trans (by decide) hF)
          exact h1268

theorem State.microLoaded_keeps {fs : List Zone} {s0 : State} (s : State) (d : ℕ) (sz : ℕ) (addr : ℕ) (r : Resp) (bytes : List Byte) (h1 : Keeps fs s0 s) (hF : subF [.disp, .block 17, .sched, .kernels, .running, .log, .free] fs = true) :
    Keeps fs s0 (State.microLoaded s d sz addr r bytes) := by
  unfold State.microLoaded
  split
  · exact h1
  · extract_lets -merge -underBinder y1270 y1271 y1272
    have k1273 : Keeps fs s0 y1270 := by
      refine State.waitFor_keeps _ _ ?_ (subF_trans (by decide) hF)
      exact h1
    have k1274 : Keeps fs s0 y1272 := by
      refine State.microSet_keeps _ _ _ _ ?_ (subF_trans (by decide) hF)
      exact k1273
    refine keeps_ite ?_ ?_
    · refine State.microTrap_keeps _ _ _ _ ?_ (subF_trans (by decide) hF)
      exact k1273
    · refine keeps_ite ?_ ?_
      · split
        · refine State.microSet_keeps _ _ _ _ ?_ (subF_trans (by decide) hF)
          exact k1274
        · exact k1274
      · exact k1274

theorem State.mwr_keeps {fs : List Zone} {s0 : State} (s : State) (g : ℕ) (a : ℕ) (sz : ℕ) (off : BitVec 16) (h1 : Keeps fs s0 s) (hF : subF [.block 17, .disp, .sched, .kernels, .running, .log, .free, .jt] fs = true) :
    Keeps fs s0 (State.mwr s g a sz off) := by
  unfold State.mwr
  refine State.microGo_keeps _ _ ?_ ?_ (subF_trans (by decide) hF)
  · exact h1
  · intro z1275 z1277 h1276
    extract_lets -merge -underBinder y1278 y1279
    refine keeps_ite ?_ ?_
    · refine State.microUndef_keeps _ _ _ ?_ (subF_trans (by decide) hF)
      exact h1276
    · refine keeps_ite ?_ ?_
      · refine State.microTrap_keeps _ _ _ _ ?_ (subF_trans (by decide) hF)
        refine State.setMicro_keeps _ _ ?_ (subF_trans (by decide) hF)
        exact h1276
      · refine keeps_ite ?_ ?_
        · refine State.waitFor_keeps _ _ ?_ (subF_trans (by decide) hF)
          exact h1276
        · refine State.microNext_keeps _ _ _ _ ?_ ?_ (subF_trans (by decide) hF)
          · exact h1276
          · intro z1280 z1282 h1281
            extract_lets -merge -underBinder y1283
            refine State.postStore_keeps _ _ _ _ ?_ (subF_trans (by decide) hF)
            refine State.setMicro_keeps _ _ ?_ (subF_trans (by decide) hF)
            exact h1281

theorem State.mbr_keeps {fs : List Zone} {s0 : State} (s : State) (mc : ℕ) (tgt : ℕ) (h1 : Keeps fs s0 s) (hF : subF [.block 17, .disp, .sched, .kernels, .running, .log, .free] fs = true) :
    Keeps fs s0 (State.mbr s mc tgt) := by
  unfold State.mbr
  refine State.microGo_keeps _ _ ?_ ?_ (subF_trans (by decide) hF)
  · exact h1
  · intro z1284 z1286 h1285
    refine State.microNext_keeps _ _ _ _ ?_ ?_ (subF_trans (by decide) hF)
    · exact h1285
    · intro z1287 z1289 h1288
      refine State.setMicro_keeps _ _ ?_ (subF_trans (by decide) hF)
      exact h1288

theorem State.mcall_keeps {fs : List Zone} {s0 : State} (s : State) (tgt : ℕ) (h1 : Keeps fs s0 s) (hF : subF [.block 17, .disp, .sched, .kernels, .running, .log, .free] fs = true) :
    Keeps fs s0 (State.mcall s tgt) := by
  unfold State.mcall
  refine State.microGo_keeps _ _ ?_ ?_ (subF_trans (by decide) hF)
  · exact h1
  · intro z1290 z1292 h1291
    refine keeps_ite ?_ ?_
    · refine State.microUndef_keeps _ _ _ ?_ (subF_trans (by decide) hF)
      exact h1291
    · refine State.microNext_keeps _ _ _ _ ?_ ?_ (subF_trans (by decide) hF)
      · exact h1291
      · intro z1293 z1295 h1294
        refine State.setMicro_keeps _ _ ?_ (subF_trans (by decide) hF)
        exact h1294

theorem State.mret_keeps {fs : List Zone} {s0 : State} (s : State) (fin : Bool) (h1 : Keeps fs s0 s) (hF : subF [.block 17, .disp, .sched, .kernels, .running, .log, .free] fs = true) :
    Keeps fs s0 (State.mret s fin) := by
  unfold State.mret
  refine State.microGo_keeps _ _ ?_ ?_ (subF_trans (by decide) hF)
  · exact h1
  · intro z1296 z1298 h1297
    extract_lets -merge -underBinder y1299 y1300
    have k1301 : Keeps fs s0 y1300 := by
      refine State.endInstr_keeps _ _ _ ?_ (subF_trans (by decide) hF)
      refine Keeps.upd ?_ (.inr rfl) (.inl ⟨rfl, rfl⟩) (.inr rfl) (.inl (alw hF (by decide))) (.inr rfl) (.inl ⟨rfl, rfl⟩) (.inl ⟨rfl, rfl⟩) (.inl rfl) (.inr rfl) (.inr rfl) (.inr rfl) (.inr rfl) (.inr ⟨rfl, rfl⟩) (.inr rfl) (.inr rfl) (.inr rfl) (.inr rfl) (.inr rfl) (.inr rfl) (.inr rfl) (.inr rfl) (.inr rfl) (.inr rfl) (.inr rfl) (.inr rfl) (.inr rfl) (.inr rfl) (.inr rfl) (.inl rfl) rfl
      exact h1297
    refine keeps_ite ?_ ?_
    · refine keeps_ite ?_ ?_
      · refine State.startHold_keeps _ ?_ (subF_trans (by decide) hF)
        exact k1301
      · exact k1301
    · split
      · refine State.microUndef_keeps _ _ _ ?_ (subF_trans (by decide) hF)
        exact h1297
      · refine State.microNext_keeps _ _ _ _ ?_ ?_ (subF_trans (by decide) hF)
        · exact h1297
        · intro z1302 z1304 h1303
          refine State.setMicro_keeps _ _ ?_ (subF_trans (by decide) hF)
          exact h1303

theorem State.mloop_keeps {fs : List Zone} {s0 : State} (s : State) (d : ℕ) (tgt : ℕ) (h1 : Keeps fs s0 s) (hF : subF [.block 17, .disp, .sched, .kernels, .running, .log, .free] fs = true) :
    Keeps fs s0 (State.mloop s d tgt) := by
  unfold State.mloop
  refine State.microGo_keeps _ _ ?_ ?_ (subF_trans (by decide) hF)
  · exact h1
  · intro z1305 z1307 h1306
    extract_lets -merge -underBinder y1308
    refine keeps_ite ?_ ?_
    · refine State.microUndef_keeps _ _ _ ?_ (subF_trans (by decide) hF)
      exact h1306
    · refine State.microNext_keeps _ _ _ _ ?_ ?_ (subF_trans (by decide) hF)
      · exact h1306
      · intro z1309 z1311 h1310
        refine State.microSet_keeps _ _ _ _ ?_ (subF_trans (by decide) hF)
        exact h1310

theorem State.bsi_keeps {fs : List Zone} {s0 : State} (s : State) (r : ℕ) (inc : ℕ) (h1 : Keeps fs s0 s) (hF : subF [.block 17, .disp, .sched, .kernels, .running, .log, .free, .block 16, .planes, .arr, .block 8, .block 1, .out, .block 3] fs = true) :
    Keeps fs s0 (State.bsi s r inc) := by
  unfold State.bsi
  refine State.microGo_keeps _ _ ?_ ?_ (subF_trans (by decide) hF)
  · exact h1
  · intro z1312 z1314 h1313
    extract_lets -merge -underBinder y1315 y1316 y1317 y1318
    refine keeps_ite ?_ ?_
    · refine State.microUndef_keeps _ _ _ ?_ (subF_trans (by decide) hF)
      exact h1313
    · refine keeps_ite ?_ ?_
      · refine State.microTrap_keeps _ _ _ _ ?_ (subF_trans (by decide) hF)
        refine State.setMicro_keeps _ _ ?_ (subF_trans (by decide) hF)
        exact h1313
      · refine keeps_ite ?_ ?_
        · refine State.microTrap_keeps _ _ _ _ ?_ (subF_trans (by decide) hF)
          refine State.setMicro_keeps _ _ ?_ (subF_trans (by decide) hF)
          exact h1313
        · refine State.microNext_keeps _ _ _ _ ?_ ?_ (subF_trans (by decide) hF)
          · exact h1313
          · intro z1319 z1321 h1320
            extract_lets -merge -underBinder y1322 y1323 y1324
            have k1325 : Keeps fs s0 y1323 := by
              refine keeps_ite ?_ ?_
              · exact h1320
              · refine State.latchEdges_keeps _ ?_ (subF_trans (by decide) hF)
                exact h1320
            have k1326 : Keeps fs s0 y1324 := by
              refine keeps_foldl _ _ ?_ ?_
              · exact k1325
              · intro z1327 z1329 h1328
                refine State.bitStep_keeps _ _ ?_ (subF_trans (by decide) hF)
                exact h1328
            refine State.setMicro_keeps _ _ ?_ (subF_trans (by decide) hF)
            exact k1326

theorem State.poll_keeps {fs : List Zone} {s0 : State} (s : State) (h1 : Keeps fs s0 s) (hF : subF [.block 17, .disp, .sched, .kernels, .running, .log, .free, .planes, .arr, .block 16, .block 8, .block 1, .out] fs = true) :
    Keeps fs s0 (State.poll s) := by
  unfold State.poll
  refine State.microGo_keeps _ _ ?_ ?_ (subF_trans (by decide) hF)
  · exact h1
  · intro z1330 z1332 h1331
    extract_lets -merge -underBinder y1333 y1334 y1335 y1336 y1337
    have k1338 : Keeps fs s0 y1333 := by
      refine State.setMicro_keeps _ _ ?_ (subF_trans (by decide) hF)
      refine State.suspendSeq_keeps _ ?_ (subF_trans (by decide) hF)
      exact h1331
    clear_value y1333
    have k1339 : Keeps fs s0 y1336 := by
      refine State.interrupt_keeps _ _ ?_ (subF_trans (by decide) hF)
      refine Keeps.upd ?_ (.inr rfl) (.inl ⟨rfl, rfl⟩) (.inr rfl) (.inl (alw hF (by decide))) (.inr rfl) (.inl ⟨rfl, rfl⟩) (.inl ⟨rfl, rfl⟩) (.inl rfl) (.inr rfl) (.inr rfl) (.inr rfl) (.inr rfl) (.inr ⟨rfl, rfl⟩) (.inr rfl) (.inr rfl) (.inr rfl) (.inr rfl) (.inr rfl) (.inr rfl) (.inr rfl) (.inr rfl) (.inr rfl) (.inr rfl) (.inr rfl) (.inr rfl) (.inr rfl) (.inr rfl) (.inr rfl) (.inl rfl) rfl
      exact k1338
    clear_value y1336
    refine keeps_ite ?_ ?_
    · refine Keeps.upd ?_ (.inr rfl) (.inl ⟨rfl, rfl⟩) (.inr rfl) (.inl (alw hF (by decide))) (.inr rfl) (.inl ⟨rfl, rfl⟩) (.inl ⟨rfl, rfl⟩) (.inl rfl) (.inr rfl) (.inr rfl) (.inr rfl) (.inr rfl) (.inr ⟨rfl, rfl⟩) (.inr rfl) (.inr rfl) (.inr rfl) (.inr rfl) (.inr rfl) (.inr rfl) (.inr rfl) (.inr rfl) (.inr rfl) (.inr rfl) (.inr rfl) (.inr rfl) (.inr rfl) (.inr rfl) (.inr rfl) (.inl rfl) rfl
      exact k1339
    · refine State.microNext_keeps _ _ _ _ ?_ ?_ (subF_trans (by decide) hF)
      · exact h1331
      · intro z1340 z1342 h1341
        refine State.setMicro_keeps _ _ ?_ (subF_trans (by decide) hF)
        exact h1341

theorem State.customer_keeps {fs : List Zone} {s0 : State} (s : State) (opc : ℕ) (o : SOp) (h1 : Keeps fs s0 s) (hF : subF [.disp, .block 8, .block 17, .sched, .kernels, .running, .log, .free, .block 3, .arr, .block 1, .out] fs = true) :
    Keeps fs s0 (State.customer s opc o) := by
  unfold State.customer
  extract_lets -merge -underBinder y1343 y1344 y1345 y1346 y1347
  have k1348 : Keeps fs s0 y1343 := by
    refine State.discardPair_keeps _ ?_ (subF_trans (by decide) hF)
    refine State.begin_keeps _ ?_ (subF_trans (by decide) hF)
    exact h1
  refine keeps_ite ?_ ?_
  · exact h1
  · refine keeps_ite ?_ ?_
    · refine State.trapHere_keeps _ _ _ _ _ ?_ (subF_trans (by decide) hF)
      exact k1348
    · refine keeps_ite ?_ ?_
      · refine State.endInstr_keeps _ _ _ ?_ (subF_trans (by decide) hF)
        exact k1348
      · refine State.setMicro_keeps _ _ ?_ (subF_trans (by decide) hF)
        refine State.useFree_keeps _ ?_ (subF_trans (by decide) hF)
        exact k1348

theorem execCustomerInstruction_keeps (opc : ℕ) (o : SOp) (s : State) : ∃ s', execCustomerInstruction opc o s = .next s' ∧
    Keeps [.disp, .block 8, .block 17, .sched, .kernels, .running, .log, .free, .block 3, .arr, .block 1, .out] s s' := by
  have hF : subF [.disp, .block 8, .block 17, .sched, .kernels, .running, .log, .free, .block 3, .arr, .block 1, .out] [.disp, .block 8, .block 17, .sched, .kernels, .running, .log, .free, .block 3, .arr, .block 1, .out] = true := by decide
  unfold execCustomerInstruction
  refine ⟨_, rfl, ?_⟩
  refine State.customer_keeps _ _ _ ?_ (subF_trans (by decide) hF)
  exact (Keeps.rfl' _ _)

theorem execMnop_keeps (s : State) : ∃ s', execMnop s = .next s' ∧
    Keeps [.block 17, .disp, .sched, .kernels, .running, .log, .free] s s' := by
  have hF : subF [.block 17, .disp, .sched, .kernels, .running, .log, .free] [.block 17, .disp, .sched, .kernels, .running, .log, .free] = true := by decide
  unfold execMnop
  refine ⟨_, rfl, ?_⟩
  refine State.microGo_keeps _ _ ?_ ?_ (subF_trans (by decide) hF)
  · exact (Keeps.rfl' _ _)
  · intro z1349 z1351 h1350
    refine State.microNext_keeps _ _ _ _ ?_ ?_ (subF_trans (by decide) hF)
    · exact h1350
    · intro z1352 z1354 h1353
      refine State.setMicro_keeps _ _ ?_ (subF_trans (by decide) hF)
      exact h1353

theorem execMalu_keeps (d : ℕ) (a : ℕ) (b : ℕ) (op : ℕ) (f : Bool) (s : State) : ∃ s', execMalu d a b op f s = .next s' ∧
    Keeps [.block 17, .disp, .sched, .kernels, .running, .log, .free] s s' := by
  have hF : subF [.block 17, .disp, .sched, .kernels, .running, .log, .free] [.block 17, .disp, .sched, .kernels, .running, .log, .free] = true := by decide
  unfold execMalu
  refine ⟨_, rfl, ?_⟩
  refine State.microGo_keeps _ _ ?_ ?_ (subF_trans (by decide) hF)
  · exact (Keeps.rfl' _ _)
  · intro z1355 z1357 h1356
    refine State.microAlu_keeps _ _ _ _ _ _ _ ?_ (subF_trans (by decide) hF)
    exact h1356

theorem execMalui_keeps (d : ℕ) (a : ℕ) (op : ℕ) (f : Bool) (imm : BitVec 14) (s : State) : ∃ s', execMalui d a op f imm s = .next s' ∧
    Keeps [.block 17, .disp, .sched, .kernels, .running, .log, .free] s s' := by
  have hF : subF [.block 17, .disp, .sched, .kernels, .running, .log, .free] [.block 17, .disp, .sched, .kernels, .running, .log, .free] = true := by decide
  unfold execMalui
  refine ⟨_, rfl, ?_⟩
  refine State.microGo_keeps _ _ ?_ ?_ (subF_trans (by decide) hF)
  · exact (Keeps.rfl' _ _)
  · intro z1358 z1360 h1359
    refine State.microAlu_keeps _ _ _ _ _ _ _ ?_ (subF_trans (by decide) hF)
    exact h1359

theorem execMlui_keeps (d : ℕ) (imm : BitVec 16) (s : State) : ∃ s', execMlui d imm s = .next s' ∧
    Keeps [.block 17, .disp, .sched, .kernels, .running, .log, .free] s s' := by
  have hF : subF [.block 17, .disp, .sched, .kernels, .running, .log, .free] [.block 17, .disp, .sched, .kernels, .running, .log, .free] = true := by decide
  unfold execMlui
  refine ⟨_, rfl, ?_⟩
  refine State.microGo_keeps _ _ ?_ ?_ (subF_trans (by decide) hF)
  · exact (Keeps.rfl' _ _)
  · intro z1361 z1363 h1362
    refine State.microNext_keeps _ _ _ _ ?_ ?_ (subF_trans (by decide) hF)
    · exact h1362
    · intro z1364 z1366 h1365
      refine State.microSet_keeps _ _ _ _ ?_ (subF_trans (by decide) hF)
      exact h1365

theorem execMrd_keeps (d : ℕ) (a : ℕ) (sz : ℕ) (off : BitVec 16) (s : State) : ∃ s', execMrd d a sz off s = .next s' ∧
    Keeps [.block 17, .disp, .sched, .kernels, .running, .log, .free, .jt] s s' := by
  have hF : subF [.block 17, .disp, .sched, .kernels, .running, .log, .free, .jt] [.block 17, .disp, .sched, .kernels, .running, .log, .free, .jt] = true := by decide
  unfold execMrd
  refine ⟨_, rfl, ?_⟩
  refine State.mrd_keeps _ _ _ _ _ ?_ (subF_trans (by decide) hF)
  exact (Keeps.rfl' _ _)

theorem execMwr_keeps (r : ℕ) (a : ℕ) (sz : ℕ) (off : BitVec 16) (s : State) : ∃ s', execMwr r a sz off s = .next s' ∧
    Keeps [.block 17, .disp, .sched, .kernels, .running, .log, .free, .jt] s s' := by
  have hF : subF [.block 17, .disp, .sched, .kernels, .running, .log, .free, .jt] [.block 17, .disp, .sched, .kernels, .running, .log, .free, .jt] = true := by decide
  unfold execMwr
  refine ⟨_, rfl, ?_⟩
  refine State.mwr_keeps _ _ _ _ _ ?_ (subF_trans (by decide) hF)
  exact (Keeps.rfl' _ _)

theorem execMbr_keeps (mc : ℕ) (tgt : ℕ) (s : State) : ∃ s', execMbr mc tgt s = .next s' ∧
    Keeps [.block 17, .disp, .sched, .kernels, .running, .log, .free] s s' := by
  have hF : subF [.block 17, .disp, .sched, .kernels, .running, .log, .free] [.block 17, .disp, .sched, .kernels, .running, .log, .free] = true := by decide
  unfold execMbr
  refine ⟨_, rfl, ?_⟩
  refine State.mbr_keeps _ _ _ ?_ (subF_trans (by decide) hF)
  exact (Keeps.rfl' _ _)

theorem execMcall_keeps (tgt : ℕ) (s : State) : ∃ s', execMcall tgt s = .next s' ∧
    Keeps [.block 17, .disp, .sched, .kernels, .running, .log, .free] s s' := by
  have hF : subF [.block 17, .disp, .sched, .kernels, .running, .log, .free] [.block 17, .disp, .sched, .kernels, .running, .log, .free] = true := by decide
  unfold execMcall
  refine ⟨_, rfl, ?_⟩
  refine State.mcall_keeps _ _ ?_ (subF_trans (by decide) hF)
  exact (Keeps.rfl' _ _)

theorem execMret_keeps (fin : Bool) (s : State) : ∃ s', execMret fin s = .next s' ∧
    Keeps [.block 17, .disp, .sched, .kernels, .running, .log, .free] s s' := by
  have hF : subF [.block 17, .disp, .sched, .kernels, .running, .log, .free] [.block 17, .disp, .sched, .kernels, .running, .log, .free] = true := by decide
  unfold execMret
  refine ⟨_, rfl, ?_⟩
  refine State.mret_keeps _ _ ?_ (subF_trans (by decide) hF)
  exact (Keeps.rfl' _ _)

theorem execMloop_keeps (d : ℕ) (tgt : ℕ) (s : State) : ∃ s', execMloop d tgt s = .next s' ∧
    Keeps [.block 17, .disp, .sched, .kernels, .running, .log, .free] s s' := by
  have hF : subF [.block 17, .disp, .sched, .kernels, .running, .log, .free] [.block 17, .disp, .sched, .kernels, .running, .log, .free] = true := by decide
  unfold execMloop
  refine ⟨_, rfl, ?_⟩
  refine State.mloop_keeps _ _ _ ?_ (subF_trans (by decide) hF)
  exact (Keeps.rfl' _ _)

theorem execPoll_keeps (s : State) : ∃ s', execPoll s = .next s' ∧
    Keeps [.block 17, .disp, .sched, .kernels, .running, .log, .free, .planes, .arr, .block 16, .block 8, .block 1, .out] s s' := by
  have hF : subF [.block 17, .disp, .sched, .kernels, .running, .log, .free, .planes, .arr, .block 16, .block 8, .block 1, .out] [.block 17, .disp, .sched, .kernels, .running, .log, .free, .planes, .arr, .block 16, .block 8, .block 1, .out] = true := by decide
  unfold execPoll
  refine ⟨_, rfl, ?_⟩
  refine State.poll_keeps _ ?_ (subF_trans (by decide) hF)
  exact (Keeps.rfl' _ _)

theorem execBsd_keeps (r : ℕ) (s : State) : ∃ s', execBsd r s = .next s' ∧
    Keeps [.block 17, .disp, .sched, .kernels, .running, .log, .free] s s' := by
  have hF : subF [.block 17, .disp, .sched, .kernels, .running, .log, .free] [.block 17, .disp, .sched, .kernels, .running, .log, .free] = true := by decide
  unfold execBsd
  refine ⟨_, rfl, ?_⟩
  refine State.microGo_keeps _ _ ?_ ?_ (subF_trans (by decide) hF)
  · exact (Keeps.rfl' _ _)
  · intro z1367 z1369 h1368
    refine State.microNext_keeps _ _ _ _ ?_ ?_ (subF_trans (by decide) hF)
    · exact h1368
    · intro z1370 z1372 h1371
      refine State.setMicro_keeps _ _ ?_ (subF_trans (by decide) hF)
      exact h1371

theorem execBsa_keeps (r : ℕ) (s : State) : ∃ s', execBsa r s = .next s' ∧
    Keeps [.block 17, .disp, .sched, .kernels, .running, .log, .free] s s' := by
  have hF : subF [.block 17, .disp, .sched, .kernels, .running, .log, .free] [.block 17, .disp, .sched, .kernels, .running, .log, .free] = true := by decide
  unfold execBsa
  refine ⟨_, rfl, ?_⟩
  refine State.microGo_keeps _ _ ?_ ?_ (subF_trans (by decide) hF)
  · exact (Keeps.rfl' _ _)
  · intro z1373 z1375 h1374
    refine State.microNext_keeps _ _ _ _ ?_ ?_ (subF_trans (by decide) hF)
    · exact h1374
    · intro z1376 z1378 h1377
      extract_lets -merge -underBinder y1379
      refine State.setMicro_keeps _ _ ?_ (subF_trans (by decide) hF)
      exact h1377

theorem execBsi_keeps (r : ℕ) (inc : ℕ) (s : State) : ∃ s', execBsi r inc s = .next s' ∧
    Keeps [.block 17, .disp, .sched, .kernels, .running, .log, .free, .block 16, .planes, .arr, .block 8, .block 1, .out, .block 3] s s' := by
  have hF : subF [.block 17, .disp, .sched, .kernels, .running, .log, .free, .block 16, .planes, .arr, .block 8, .block 1, .out, .block 3] [.block 17, .disp, .sched, .kernels, .running, .log, .free, .block 16, .planes, .arr, .block 8, .block 1, .out, .block 3] = true := by decide
  unfold execBsi
  refine ⟨_, rfl, ?_⟩
  refine State.bsi_keeps _ _ _ ?_ (subF_trans (by decide) hF)
  exact (Keeps.rfl' _ _)

theorem execBsw_keeps (s : State) : ∃ s', execBsw s = .next s' ∧
    Keeps [.block 17, .disp, .sched, .kernels, .running, .log, .free] s s' := by
  have hF : subF [.block 17, .disp, .sched, .kernels, .running, .log, .free] [.block 17, .disp, .sched, .kernels, .running, .log, .free] = true := by decide
  unfold execBsw
  refine ⟨_, rfl, ?_⟩
  refine State.microGo_keeps _ _ ?_ ?_ (subF_trans (by decide) hF)
  · exact (Keeps.rfl' _ _)
  · intro z1380 z1382 h1381
    refine State.microNext_keeps _ _ _ _ ?_ ?_ (subF_trans (by decide) hF)
    · exact h1381
    · intro z1383 z1385 h1384
      refine State.setMicro_keeps _ _ ?_ (subF_trans (by decide) hF)
      exact h1384

theorem execWatchdog_keeps (s : State) : ∃ s', execWatchdog s = .next s' ∧
    Keeps [.block 17, .disp, .sched, .kernels, .running, .log, .free] s s' := by
  have hF : subF [.block 17, .disp, .sched, .kernels, .running, .log, .free] [.block 17, .disp, .sched, .kernels, .running, .log, .free] = true := by decide
  unfold execWatchdog
  refine ⟨_, rfl, ?_⟩
  split
  · refine keeps_ite ?_ ?_
    · refine State.watchdog_keeps _ _ ?_ (subF_trans (by decide) hF)
      exact (Keeps.rfl' _ _)
    · exact (Keeps.rfl' _ _)
  · exact (Keeps.rfl' _ _)

end Sys2Proof.Machine
end

