-- ==== Sys2Proof/Laws/KeepsTicketOffice.lean ====
section
/-! SUPPORT. What each operation of Machine/TicketOffice.lean can change, one lemma an operation (Laws/KeepsBase.lean). -/

-- elaborated one declaration at a time, so that the package compiles as one text in bounded memory
set_option Elab.async false

namespace Sys2Proof.Machine

theorem State.mbUnqueue_keeps {fs : List Zone} {s0 : State} (s : State) (m : ℕ) (h1 : Keeps fs s0 s) (hF : subF [.tkt] fs = true) :
    Keeps fs s0 (State.mbUnqueue s m) := by
  unfold State.mbUnqueue
  extract_lets -merge -underBinder y717
  refine Keeps.upd ?_ (.inr rfl) (.inl ⟨rfl, rfl⟩) (.inr rfl) (.inr rfl) (.inr rfl) (.inl ⟨rfl, rfl⟩) (.inl ⟨rfl, rfl⟩) (.inl rfl) (.inr rfl) (.inr rfl) (.inr rfl) (.inr rfl) (.inr ⟨rfl, rfl⟩) (.inr rfl) (.inr rfl) (.inr rfl) (.inr rfl) (.inr rfl) (.inr rfl) (.inr rfl) (.inr rfl) (.inr rfl) (.inr rfl) (.inr rfl) (.inr rfl) (.inl (alw hF (by decide))) (.inr rfl) (.inr rfl) (.inl rfl) rfl
  exact h1

theorem State.setRsp_keeps {fs : List Zone} {s0 : State} (s : State) (m : ℕ) (w : ℕ) (v : Word) (h1 : Keeps fs s0 s) (hF : subF [.block 0] fs = true) :
    Keeps fs s0 (State.setRsp s m w v) := by
  unfold State.setRsp
  refine setReg_keeps _ _ ?_ (alwL hF 0 0 (by simp only [mbReg, Reg.RSP0]; omega))
  exact h1

theorem State.mbDone_keeps {fs : List Zone} {s0 : State} (s : State) (m : ℕ) (status : ℕ) (retry : ℕ) (len : ℕ) (h1 : Keeps fs s0 s) (hF : subF [.block 1, .out, .block 0, .tkt] fs = true) :
    Keeps fs s0 (State.mbDone s m status retry len) := by
  unfold State.mbDone
  extract_lets -merge -underBinder y718 y719
  refine State.fire_keeps _ _ ?_ (subF_trans (by decide) hF)
  refine setFld_keeps _ _ _ _ ?_ (alwL hF 0 0 (by simp only [mbReg, Reg.MB_STAT]; omega))
  refine State.setRsp_keeps _ _ _ _ ?_ (subF_trans (by decide) hF)
  refine State.mbUnqueue_keeps _ _ ?_ (subF_trans (by decide) hF)
  exact h1

theorem State.mbReason_keeps {fs : List Zone} {s0 : State} (s : State) (m : ℕ) (status : ℕ) (retry : ℕ) (code : ℕ) (word : ℕ) (h1 : Keeps fs s0 s) (hF : subF [.block 1, .out, .block 0, .tkt] fs = true) :
    Keeps fs s0 (State.mbReason s m status retry code word) := by
  unfold State.mbReason
  refine State.mbDone_keeps _ _ _ _ _ ?_ (subF_trans (by decide) hF)
  refine State.setRsp_keeps _ _ _ _ ?_ (subF_trans (by decide) hF)
  exact h1

theorem State.pwrDoorbell_keeps {fs : List Zone} {s0 : State} (s : State) (m : ℕ) (h1 : Keeps fs s0 s) (hF : subF [.block 2, .pwr, .block 1, .out, .block 0, .tkt] fs = true) :
    Keeps fs s0 (State.pwrDoorbell s m) := by
  unfold State.pwrDoorbell
  refine keeps_ite ?_ ?_
  · exact h1
  · split
    · refine keeps_ite ?_ ?_
      · refine State.pwrToRun_keeps _ ?_ (subF_trans (by decide) hF)
        exact h1
      · exact h1
    · exact h1
    · extract_lets -merge -underBinder y720 y721
      have k722 : Keeps fs s0 y721 := by
        refine keeps_ite ?_ ?_
        · refine State.mbReason_keeps _ _ _ _ _ _ ?_ (subF_trans (by decide) hF)
          exact h1
        · exact h1
      refine State.pwrLatch_keeps _ _ ?_ (subF_trans (by decide) hF)
      exact k722

theorem State.doorbell_keeps {fs : List Zone} {s0 : State} (s : State) (m : ℕ) (rivals : List ℕ) (h1 : Keeps fs s0 s) (hF : subF [.block 0, .block 1, .out, .tkt, .block 2, .pwr] fs = true) :
    Keeps fs s0 (State.doorbell s m rivals) := by
  unfold State.doorbell
  extract_lets -merge -underBinder y723 y724 y725 y726 y727 y728 y729
  have k730 : Keeps fs s0 y726 := by
    refine State.setRsp_keeps _ _ _ _ ?_ (subF_trans (by decide) hF)
    refine setBit_keeps _ _ _ ?_ (alwL hF 0 0 (by simp only [y725, mbReg, Reg.MB_STAT]; omega))
    refine setFld_keeps _ _ _ _ ?_ (alwL hF 0 0 (by simp only [y725, mbReg, Reg.MB_STAT]; omega))
    exact h1
  refine keeps_ite ?_ ?_
  · refine keeps_ite ?_ ?_
    · exact h1
    · refine setBit_keeps _ _ _ ?_ (alwL hF 0 0 (by simp only [y725, mbReg, Reg.MB_STAT]; omega))
      exact h1
  · refine keeps_ite ?_ ?_
    · refine setBit_keeps _ _ _ ?_ (alwL hF 0 0 (by simp only [y725, mbReg, Reg.MB_STAT]; omega))
      exact h1
    · refine keeps_ite ?_ ?_
      · refine State.mbDone_keeps _ _ _ _ _ ?_ (subF_trans (by decide) hF)
        refine State.fire_keeps _ _ ?_ (subF_trans (by decide) hF)
        refine satInc_keeps _ _ _ ?_ (alwB hF 0 rfl (by decide))
        exact k730
      · refine keeps_ite ?_ ?_
        · refine State.mbReason_keeps _ _ _ _ _ _ ?_ (subF_trans (by decide) hF)
          exact k730
        · refine keeps_ite ?_ ?_
          · refine State.mbReason_keeps _ _ _ _ _ _ ?_ (subF_trans (by decide) hF)
            exact k730
          · refine keeps_ite ?_ ?_
            · refine keeps_ite ?_ ?_
              · refine setFld_keeps _ _ _ _ ?_ (alwL hF 0 0 (by simp only [y725, mbReg, Reg.MB_STAT]; omega))
                exact k730
              · refine State.mbReason_keeps _ _ _ _ _ _ ?_ (subF_trans (by decide) hF)
                exact k730
            · refine keeps_ite ?_ ?_
              · refine State.mbReason_keeps _ _ _ _ _ _ ?_ (subF_trans (by decide) hF)
                exact k730
              · refine State.pwrDoorbell_keeps _ _ ?_ (subF_trans (by decide) hF)
                refine State.fire_keeps _ _ ?_ (subF_trans (by decide) hF)
                refine setFld_keeps _ _ _ _ ?_ (alwL hF 0 0 (by simp only [y725, mbReg, Reg.MB_STAT]; omega))
                refine Keeps.upd ?_ (.inr rfl) (.inl ⟨rfl, rfl⟩) (.inr rfl) (.inr rfl) (.inr rfl) (.inl ⟨rfl, rfl⟩) (.inl ⟨rfl, rfl⟩) (.inl rfl) (.inr rfl) (.inr rfl) (.inr rfl) (.inr rfl) (.inr ⟨rfl, rfl⟩) (.inr rfl) (.inr rfl) (.inr rfl) (.inr rfl) (.inr rfl) (.inr rfl) (.inr rfl) (.inr rfl) (.inr rfl) (.inr rfl) (.inr rfl) (.inr rfl) (.inl (alw hF (by decide))) (.inr rfl) (.inr rfl) (.inl rfl) rfl
                exact k730

theorem execMbDoorbell_keeps (m : ℕ) (rivals : List ℕ) (s : State) : ∃ s', execMbDoorbell m rivals s = .next s' ∧
    Keeps [.block 0, .block 1, .out, .tkt, .block 2, .pwr] s s' := by
  have hF : subF [.block 0, .block 1, .out, .tkt, .block 2, .pwr] [.block 0, .block 1, .out, .tkt, .block 2, .pwr] = true := by decide
  unfold execMbDoorbell
  refine ⟨_, rfl, ?_⟩
  refine State.doorbell_keeps _ _ _ ?_ (subF_trans (by decide) hF)
  exact (Keeps.rfl' _ _)

theorem State.mbAbort_keeps {fs : List Zone} {s0 : State} (s : State) (m : ℕ) (h1 : Keeps fs s0 s) (hF : subF [.block 1, .out, .block 0, .tkt] fs = true) :
    Keeps fs s0 (State.mbAbort s m) := by
  unfold State.mbAbort
  extract_lets -merge -underBinder y731
  split
  · exact h1
  · refine State.mbDone_keeps _ _ _ _ _ ?_ (subF_trans (by decide) hF)
    refine setBit_keeps _ _ _ ?_ (alwL hF 0 0 (by simp only [y731, mbReg, Reg.MB_STAT]; omega))
    exact h1
  · refine keeps_ite ?_ ?_
    · exact h1
    · refine State.fireIf_keeps _ _ _ ?_ (subF_trans (by decide) hF)
      refine setBit_keeps _ _ _ ?_ (alwL hF 0 0 (by simp only [y731, mbReg, Reg.MB_STAT]; omega))
      exact h1
  · refine keeps_ite ?_ ?_
    · exact h1
    · refine setBit_keeps _ _ _ ?_ (alwL hF 0 0 (by simp only [mbReg, Reg.RSP0]; omega))
      refine setBit_keeps _ _ _ ?_ (alwL hF 0 0 (by simp only [y731, mbReg, Reg.MB_STAT]; omega))
      exact h1

theorem execMbAbort_keeps (m : ℕ) (s : State) : ∃ s', execMbAbort m s = .next s' ∧
    Keeps [.block 1, .out, .block 0, .tkt] s s' := by
  have hF : subF [.block 1, .out, .block 0, .tkt] [.block 1, .out, .block 0, .tkt] = true := by decide
  unfold execMbAbort
  refine ⟨_, rfl, ?_⟩
  refine State.mbAbort_keeps _ _ ?_ (subF_trans (by decide) hF)
  exact (Keeps.rfl' _ _)

theorem State.post_keeps {fs : List Zone} {s0 : State} (s : State) (m : ℕ) (v : Word) (h1 : Keeps fs s0 s) (hF : subF [.block 0, .tkt, .block 1, .out] fs = true) :
    Keeps fs s0 (State.post s m v).1 := by
  unfold State.post
  extract_lets -merge -underBinder y732
  refine keeps_ite_fst ?_ ?_
  · refine keeps_ite_fst ?_ ?_
    · refine keeps_mk_fst ?_
      refine setFld_keeps _ _ _ _ ?_ (alwL hF 0 0 (by simp only [mbReg, Reg.MB_STAT]; omega))
      refine State.mbUnqueue_keeps _ _ ?_ (subF_trans (by decide) hF)
      refine State.setRsp_keeps _ _ _ _ ?_ (subF_trans (by decide) hF)
      exact h1
    · refine keeps_mk_fst ?_
      refine State.mbDone_keeps _ _ _ _ _ ?_ (subF_trans (by decide) hF)
      exact h1
  · refine keeps_mk_fst ?_
    exact h1

theorem execResponsePost_keeps (m : ℕ) (v : Word) (s : State) : ∃ s', execResponsePost m v s = .next s' ∧
    Keeps [.block 0, .tkt, .block 1, .out] s s' := by
  have hF : subF [.block 0, .tkt, .block 1, .out] [.block 0, .tkt, .block 1, .out] = true := by decide
  unfold execResponsePost
  refine ⟨_, rfl, ?_⟩
  refine State.post_keeps _ _ _ ?_ (subF_trans (by decide) hF)
  exact (Keeps.rfl' _ _)

theorem State.mbTimeout_keeps {fs : List Zone} {s0 : State} (s : State) (m : ℕ) (h1 : Keeps fs s0 s) (hF : subF [.block 1, .out, .block 0, .tkt] fs = true) :
    Keeps fs s0 (State.mbTimeout s m) := by
  unfold State.mbTimeout
  refine keeps_ite ?_ ?_
  · refine State.mbDone_keeps _ _ _ _ _ ?_ (subF_trans (by decide) hF)
    refine State.fire_keeps _ _ ?_ (subF_trans (by decide) hF)
    exact h1
  · exact h1

theorem execMbTimeout_keeps (m : ℕ) (s : State) : ∃ s', execMbTimeout m s = .next s' ∧
    Keeps [.block 1, .out, .block 0, .tkt] s s' := by
  have hF : subF [.block 1, .out, .block 0, .tkt] [.block 1, .out, .block 0, .tkt] = true := by decide
  unfold execMbTimeout
  refine ⟨_, rfl, ?_⟩
  refine State.mbTimeout_keeps _ _ ?_ (subF_trans (by decide) hF)
  exact (Keeps.rfl' _ _)

theorem State.telltaleState_keeps {fs : List Zone} {s0 : State} (s : State) (h1 : Keeps fs s0 s) (hF : subF [.block 3, .block 1, .out, .block 0, .tkt, .il] fs = true) :
    Keeps fs s0 (State.telltaleState s) := by
  unfold State.telltaleState
  extract_lets -merge -underBinder y733
  have k734 : Keeps fs s0 y733 := by
    refine keeps_foldl _ _ ?_ ?_
    · exact h1
    · intro z735 z737 h736
      refine setReg_keeps _ _ ?_ (alwL hF 3 0 (by simp only [Reg.TT_CMD]; omega))
      exact h736
  refine keeps_ite ?_ ?_
  · refine State.mbDone_keeps _ _ _ _ _ ?_ (subF_trans (by decide) hF)
    refine State.ttGo_keeps _ ?_ (subF_trans (by decide) hF)
    exact k734
  · exact h1

theorem execTelltaleState_keeps (s : State) : ∃ s', execTelltaleState s = .next s' ∧
    Keeps [.block 3, .block 1, .out, .block 0, .tkt, .il] s s' := by
  have hF : subF [.block 3, .block 1, .out, .block 0, .tkt, .il] [.block 3, .block 1, .out, .block 0, .tkt, .il] = true := by decide
  unfold execTelltaleState
  refine ⟨_, rfl, ?_⟩
  refine State.telltaleState_keeps _ ?_ (subF_trans (by decide) hF)
  exact (Keeps.rfl' _ _)

theorem State.toError_keeps {fs : List Zone} {s0 : State} (s : State) (kind : ℕ) (r : Resp) (ini : ℕ) (off : ℕ) (h1 : Keeps fs s0 s) (hF : subF [.block 0, .block 1, .out] fs = true) :
    Keeps fs s0 (State.toError s kind r ini off) := by
  unfold State.toError
  extract_lets -merge -underBinder y738
  have k739 : Keeps fs s0 y738 := by
    refine record_keeps _ _ ?_ ?_ (alwB hF 0 rfl (by decide))
    · refine satInc_keeps _ _ _ ?_ (alwB hF 0 rfl (by decide))
      exact h1
    · intro z740 h741
      refine setReg_keeps _ _ ?_ (alwB hF 0 rfl (by decide))
      refine setFld_keeps _ _ _ _ ?_ (alwB hF 0 rfl (by decide))
      refine setFld_keeps _ _ _ _ ?_ (alwB hF 0 rfl (by decide))
      refine setFld_keeps _ _ _ _ ?_ (alwB hF 0 rfl (by decide))
      exact h741
  refine keeps_ite ?_ ?_
  · refine State.fire_keeps _ _ ?_ (subF_trans (by decide) hF)
    refine satInc_keeps _ _ _ ?_ (alwB hF 0 rfl (by decide))
    exact k739
  · refine State.fire_keeps _ _ ?_ (subF_trans (by decide) hF)
    exact k739

theorem State.eachBit_keeps {fs : List Zone} {s0 : State} (s : State) (v : Word) (f : State → ℕ → State) (h1 : Keeps fs s0 s) (h3 : ∀ u742 u743, Keeps fs s0 u742 → Keeps fs s0 (f u742 u743)) (hF : subF [] fs = true) :
    Keeps fs s0 (State.eachBit s v f) := by
  unfold State.eachBit
  refine keeps_foldl _ _ ?_ ?_
  · exact h1
  · intro z744 z746 h745
    refine keeps_ite ?_ ?_
    · refine h3 _ _ ?_
      exact h745
    · exact h745

theorem State.icPend_keeps {fs : List Zone} {s0 : State} (s : State) (k : ℕ) (v : Word) (h1 : Keeps fs s0 s) (hF : subF [.block 1, .out] fs = true) :
    Keeps fs s0 (State.icPend s k v) := by
  unfold State.icPend
  refine State.eachBit_keeps _ _ _ ?_ ?_ (subF_trans (by decide) hF)
  · exact h1
  · intro z747 z749 h748
    refine State.fire_keeps _ _ ?_ (subF_trans (by decide) hF)
    exact h748

theorem execIcPendWrite_keeps (k : ℕ) (v : Word) (s : State) : ∃ s', execIcPendWrite k v s = .next s' ∧
    Keeps [.block 1, .out] s s' := by
  have hF : subF [.block 1, .out] [.block 1, .out] = true := by decide
  unfold execIcPendWrite
  refine ⟨_, rfl, ?_⟩
  refine State.icPend_keeps _ _ _ ?_ (subF_trans (by decide) hF)
  exact (Keeps.rfl' _ _)

theorem State.icUnpend_keeps {fs : List Zone} {s0 : State} (s : State) (k : ℕ) (v : Word) (h1 : Keeps fs s0 s) (hF : subF [.block 1] fs = true) :
    Keeps fs s0 (State.icUnpend s k v) := by
  unfold State.icUnpend
  refine setReg_keeps _ _ ?_ (alwL hF 1 0 (by simp only [icReg, Reg.IC_PEND]; omega))
  exact h1

theorem execIcUnpendWrite_keeps (k : ℕ) (v : Word) (s : State) : ∃ s', execIcUnpendWrite k v s = .next s' ∧
    Keeps [.block 1] s s' := by
  have hF : subF [.block 1] [.block 1] = true := by decide
  unfold execIcUnpendWrite
  refine ⟨_, rfl, ?_⟩
  refine State.icUnpend_keeps _ _ _ ?_ (subF_trans (by decide) hF)
  exact (Keeps.rfl' _ _)

theorem State.icAck_keeps {fs : List Zone} {s0 : State} (s : State) (n : ℕ) (h1 : Keeps fs s0 s) (hF : subF [.block 1] fs = true) :
    Keeps fs s0 (State.icAck s n) := by
  unfold State.icAck
  extract_lets -merge -underBinder y750
  refine keeps_ite ?_ ?_
  · refine setBit_keeps _ _ _ ?_ (alwL hF 1 0 (by simp only [y750, icReg, Reg.IC_ACTIVE]; omega))
    refine setBit_keeps _ _ _ ?_ (alwL hF 1 0 (by simp only [y750, icReg, Reg.IC_PEND]; omega))
    exact h1
  · refine setBit_keeps _ _ _ ?_ (alwB hF 1 rfl (by decide))
    exact h1

theorem execIcAck_keeps (n : ℕ) (s : State) : ∃ s', execIcAck n s = .next s' ∧
    Keeps [.block 1] s s' := by
  have hF : subF [.block 1] [.block 1] = true := by decide
  unfold execIcAck
  refine ⟨_, rfl, ?_⟩
  refine State.icAck_keeps _ _ ?_ (subF_trans (by decide) hF)
  exact (Keeps.rfl' _ _)

theorem State.icEoi_keeps {fs : List Zone} {s0 : State} (s : State) (n : ℕ) (h1 : Keeps fs s0 s) (hF : subF [.block 1] fs = true) :
    Keeps fs s0 (State.icEoi s n) := by
  unfold State.icEoi
  extract_lets -merge -underBinder y751
  refine keeps_ite ?_ ?_
  · refine setBit_keeps _ _ _ ?_ (alwL hF 1 0 (by simp only [y751, icReg, Reg.IC_ACTIVE]; omega))
    exact h1
  · refine setBit_keeps _ _ _ ?_ (alwB hF 1 rfl (by decide))
    exact h1

theorem execIcEoi_keeps (n : ℕ) (s : State) : ∃ s', execIcEoi n s = .next s' ∧
    Keeps [.block 1] s s' := by
  have hF : subF [.block 1] [.block 1] = true := by decide
  unfold execIcEoi
  refine ⟨_, rfl, ?_⟩
  refine State.icEoi_keeps _ _ ?_ (subF_trans (by decide) hF)
  exact (Keeps.rfl' _ _)

theorem State.icHeoi_keeps {fs : List Zone} {s0 : State} (s : State) (v : ℕ) (h1 : Keeps fs s0 s) (hF : subF [.block 1, .out] fs = true) :
    Keeps fs s0 (State.icHeoi s v) := by
  unfold State.icHeoi
  extract_lets -merge -underBinder y752
  refine keeps_ite ?_ ?_
  · refine State.vecUpdate_keeps _ _ ?_ (subF_trans (by decide) hF)
    refine setBit_keeps _ _ _ ?_ (alwL hF 1 0 (by simp only [y752, vecReg, Reg.IC_HINSVC]; omega))
    exact h1
  · refine setBit_keeps _ _ _ ?_ (alwB hF 1 rfl (by decide))
    exact h1

theorem execIcHeoi_keeps (v : ℕ) (s : State) : ∃ s', execIcHeoi v s = .next s' ∧
    Keeps [.block 1, .out] s s' := by
  have hF : subF [.block 1, .out] [.block 1, .out] = true := by decide
  unfold execIcHeoi
  refine ⟨_, rfl, ?_⟩
  refine State.icHeoi_keeps _ _ ?_ (subF_trans (by decide) hF)
  exact (Keeps.rfl' _ _)

theorem State.msixWrite_keeps {fs : List Zone} {s0 : State} (s : State) (dw : ℕ) (v : Word) (h1 : Keeps fs s0 s) (hF : subF [.block 1, .out] fs = true) :
    Keeps fs s0 (State.msixWrite s dw v) := by
  unfold State.msixWrite
  refine keeps_ite ?_ ?_
  · refine State.vecUpdate_keeps _ _ ?_ (subF_trans (by decide) hF)
    refine codeWrite_keeps _ _ ?_ (alwL hF 1 0 (by simp only [Reg.MSIX_TABLE]; omega))
    exact h1
  · exact h1

theorem execMsixTableWrite_keeps (dw : ℕ) (v : Word) (s : State) : ∃ s', execMsixTableWrite dw v s = .next s' ∧
    Keeps [.block 1, .out] s s' := by
  have hF : subF [.block 1, .out] [.block 1, .out] = true := by decide
  unfold execMsixTableWrite
  refine ⟨_, rfl, ?_⟩
  refine State.msixWrite_keeps _ _ _ ?_ (subF_trans (by decide) hF)
  exact (Keeps.rfl' _ _)

theorem State.configRequest_keeps {fs : List Zone} {s0 : State} (s : State) (write : Bool) (memEn : Bool) (busMaster : Bool) (msixEn : Bool) (funcMask : Bool) (h1 : Keeps fs s0 s) (hF : subF [.out, .block 1, .pcie] fs = true) :
    Keeps fs s0 (State.configRequest s write memEn busMaster msixEn funcMask) := by
  unfold State.configRequest
  refine keeps_ite ?_ ?_
  · refine State.emit_keeps _ _ ?_ (subF_trans (by decide) hF)
    exact h1
  · refine keeps_ite ?_ ?_
    · refine State.vecUpdateAll_keeps _ ?_ (subF_trans (by decide) hF)
      refine Keeps.upd ?_ (.inr rfl) (.inl ⟨rfl, rfl⟩) (.inr rfl) (.inr rfl) (.inr rfl) (.inl ⟨rfl, rfl⟩) (.inl ⟨rfl, rfl⟩) (.inl rfl) (.inr rfl) (.inr rfl) (.inl (alw hF (by decide))) (.inr rfl) (.inr ⟨rfl, rfl⟩) (.inr rfl) (.inr rfl) (.inr rfl) (.inr rfl) (.inr rfl) (.inr rfl) (.inr rfl) (.inr rfl) (.inr rfl) (.inr rfl) (.inr rfl) (.inr rfl) (.inr rfl) (.inr rfl) (.inr rfl) (.inl rfl) rfl
      exact h1
    · exact h1

theorem execConfigurationRequest_keeps (write : Bool) (memEn : Bool) (busMaster : Bool) (msixEn : Bool) (funcMask : Bool) (s : State) : ∃ s', execConfigurationRequest write memEn busMaster msixEn funcMask s = .next s' ∧
    Keeps [.out, .block 1, .pcie] s s' := by
  have hF : subF [.out, .block 1, .pcie] [.out, .block 1, .pcie] = true := by decide
  unfold execConfigurationRequest
  refine ⟨_, rfl, ?_⟩
  refine State.configRequest_keeps _ _ _ _ _ _ ?_ (subF_trans (by decide) hF)
  exact (Keeps.rfl' _ _)

theorem State.icWrite_keeps {fs : List Zone} {s0 : State} (s : State) (ini : ℕ) (a : ℕ) (v : Word) (h1 : Keeps fs s0 s) (hF : subF [.block 1, .out, .regs] fs = true) :
    Keeps fs s0 (State.icWrite s ini a v).1 := by
  unfold State.icWrite
  extract_lets -merge -underBinder y753
  refine keeps_ite_fst ?_ ?_
  · refine keeps_mk_fst ?_
    exact h1
  · refine keeps_ite_fst ?_ ?_
    · refine keeps_mk_fst ?_
      refine State.icPend_keeps _ _ _ ?_ (subF_trans (by decide) hF)
      exact h1
    · refine keeps_ite_fst ?_ ?_
      · refine keeps_mk_fst ?_
        refine State.icUnpend_keeps _ _ _ ?_ (subF_trans (by decide) hF)
        exact h1
      · refine keeps_ite_fst ?_ ?_
        · refine keeps_mk_fst ?_
          refine State.icAck_keeps _ _ ?_ (subF_trans (by decide) hF)
          exact h1
        · refine keeps_ite_fst ?_ ?_
          · refine keeps_mk_fst ?_
            refine State.icEoi_keeps _ _ ?_ (subF_trans (by decide) hF)
            exact h1
          · refine keeps_ite_fst ?_ ?_
            · refine keeps_mk_fst ?_
              refine State.icHeoi_keeps _ _ ?_ (subF_trans (by decide) hF)
              exact h1
            · refine keeps_ite_fst ?_ ?_
              · refine keeps_mk_fst ?_
                refine State.msixWrite_keeps _ _ _ ?_ (subF_trans (by decide) hF)
                exact h1
              · refine keeps_mk_fst ?_
                refine State.vecUpdateAll_keeps _ ?_ (subF_trans (by decide) hF)
                refine codeWrite_keeps _ _ ?_ (alwR hF (by decide))
                exact h1

theorem State.toWrite_keeps {fs : List Zone} {s0 : State} (s : State) (ini : ℕ) (a : ℕ) (v : Word) (rings : List ℕ) (h1 : Keeps fs s0 s) (hF : subF [.regs, .block 0, .tkt, .block 1, .out, .block 2, .pwr] fs = true) :
    Keeps fs s0 (State.toWrite s ini a v rings).1 := by
  unfold State.toWrite
  extract_lets -merge -underBinder y754 y755 y756
  refine keeps_ite_fst ?_ ?_
  · refine keeps_ite_fst ?_ ?_
    · refine keeps_ite_fst ?_ ?_
      · refine keeps_mk_fst ?_
        refine codeWrite_keeps _ _ ?_ (alwR hF (by decide))
        exact h1
      · refine keeps_mk_fst ?_
        exact h1
    · refine keeps_ite_fst ?_ ?_
      · refine keeps_ite_fst ?_ ?_
        · refine State.post_keeps _ _ _ ?_ (subF_trans (by decide) hF)
          exact h1
        · refine keeps_mk_fst ?_
          exact h1
      · refine keeps_ite_fst ?_ ?_
        · refine keeps_ite_fst ?_ ?_
          · refine keeps_mk_fst ?_
            refine codeWrite_keeps _ _ ?_ (alwR hF (by decide))
            exact h1
          · refine keeps_mk_fst ?_
            exact h1
        · refine keeps_ite_fst ?_ ?_
          · refine keeps_ite_fst ?_ ?_
            · refine keeps_mk_fst ?_
              refine keeps_ite ?_ ?_
              · refine State.doorbell_keeps _ _ _ ?_ (subF_trans (by decide) hF)
                exact h1
              · exact h1
            · refine keeps_mk_fst ?_
              exact h1
          · refine keeps_ite_fst ?_ ?_
            · refine keeps_ite_fst ?_ ?_
              · refine keeps_mk_fst ?_
                refine keeps_ite ?_ ?_
                · refine State.mbAbort_keeps _ _ ?_ (subF_trans (by decide) hF)
                  exact h1
                · exact h1
              · refine keeps_mk_fst ?_
                exact h1
            · refine keeps_ite_fst ?_ ?_
              · refine keeps_ite_fst ?_ ?_
                · refine keeps_mk_fst ?_
                  refine codeWrite_keeps _ _ ?_ (alwR hF (by decide))
                  exact h1
                · refine keeps_mk_fst ?_
                  exact h1
              · refine keeps_mk_fst ?_
                refine codeWrite_keeps _ _ ?_ (alwR hF (by decide))
                exact h1
  · refine keeps_ite_fst ?_ ?_
    · refine keeps_ite_fst ?_ ?_
      · refine keeps_mk_fst ?_
        refine codeWrite_keeps _ _ ?_ (alwR hF (by decide))
        exact h1
      · refine keeps_mk_fst ?_
        exact h1
    · refine keeps_mk_fst ?_
      refine codeWrite_keeps _ _ ?_ (alwR hF (by decide))
      exact h1

end Sys2Proof.Machine
end

