-- ==== Sys2Proof/Laws/KeepsGuardsVan.lean ====
section
/-! SUPPORT. What each operation of Machine/GuardsVan.lean can change, one lemma an operation (Laws/KeepsBase.lean). -/

-- elaborated one declaration at a time, so that the package compiles as one text in bounded memory
set_option Elab.async false

namespace Sys2Proof.Machine

theorem State.vanLog_keeps {fs : List Zone} {s0 : State} (s : State) (code : ℕ) (perm : Bool) (detail : ℕ) (value : ℕ) (h1 : Keeps fs s0 s) (hF : subF [.van, .free] fs = true) :
    Keeps fs s0 (State.vanLog s code perm detail value) := by
  unfold State.vanLog
  extract_lets -merge -underBinder y1386 y1387 y1388 y1389
  refine Keeps.upd ?_ (.inr rfl) (.inl ⟨rfl, rfl⟩) (.inr rfl) (.inr rfl) (.inr rfl) (.inl ⟨rfl, rfl⟩) (.inl ⟨rfl, rfl⟩) (.inl rfl) (.inr rfl) (.inr rfl) (.inr rfl) (.inr rfl) (.inr ⟨rfl, rfl⟩) (.inr rfl) (.inr rfl) (.inr rfl) (.inr rfl) (.inr rfl) (.inr rfl) (.inr rfl) (.inr rfl) (.inr rfl) (.inr rfl) (.inr rfl) (.inr rfl) (.inr rfl) (.inl (alw hF (by decide))) (.inl (alw hF (by decide))) (.inl rfl) rfl
  exact h1

theorem State.vanSaveCfg_keeps {fs : List Zone} {s0 : State} (s : State) (h1 : Keeps fs s0 s) (hF : subF [.van] fs = true) :
    Keeps fs s0 (State.vanSaveCfg s) := by
  unfold State.vanSaveCfg
  extract_lets -merge -underBinder y1390
  refine Keeps.upd ?_ (.inr rfl) (.inl ⟨rfl, rfl⟩) (.inr rfl) (.inr rfl) (.inr rfl) (.inl ⟨rfl, rfl⟩) (.inl ⟨rfl, rfl⟩) (.inl rfl) (.inr rfl) (.inr rfl) (.inr rfl) (.inr rfl) (.inr ⟨rfl, rfl⟩) (.inr rfl) (.inr rfl) (.inr rfl) (.inr rfl) (.inr rfl) (.inr rfl) (.inr rfl) (.inr rfl) (.inr rfl) (.inr rfl) (.inr rfl) (.inr rfl) (.inr rfl) (.inl (alw hF (by decide))) (.inr rfl) (.inl rfl) rfl
  exact h1

theorem State.sealClose_keeps {fs : List Zone} {s0 : State} (s : State) (cause : ℕ) (h1 : Keeps fs s0 s) (hF : subF [.van, .free] fs = true) :
    Keeps fs s0 (State.sealClose s cause) := by
  unfold State.sealClose
  extract_lets -merge -underBinder y1391 y1392 y1393 y1394 y1395
  have k1396 : Keeps fs s0 y1394 := by
    refine Keeps.upd ?_ (.inr rfl) (.inl ⟨rfl, rfl⟩) (.inr rfl) (.inr rfl) (.inr rfl) (.inl ⟨rfl, rfl⟩) (.inl ⟨rfl, rfl⟩) (.inl rfl) (.inr rfl) (.inr rfl) (.inr rfl) (.inr rfl) (.inr ⟨rfl, rfl⟩) (.inr rfl) (.inr rfl) (.inr rfl) (.inr rfl) (.inr rfl) (.inr rfl) (.inr rfl) (.inr rfl) (.inr rfl) (.inr rfl) (.inr rfl) (.inr rfl) (.inr rfl) (.inl (alw hF (by decide))) (.inr rfl) (.inl rfl) rfl
    exact h1
  have k1397 : Keeps fs s0 y1395 := by
    refine keeps_ite ?_ ?_
    · refine State.vanSaveCfg_keeps _ ?_ (subF_trans (by decide) hF)
      exact k1396
    · exact k1396
  refine keeps_ite ?_ ?_
  · refine State.vanLog_keeps _ _ _ _ _ ?_ (subF_trans (by decide) hF)
    exact k1397
  · exact h1

theorem State.jumperAccepted_keeps {fs : List Zone} {s0 : State} (s : State) (fitted : Bool) (h1 : Keeps fs s0 s) (hF : subF [.van, .free] fs = true) :
    Keeps fs s0 (State.jumperAccepted s fitted) := by
  unfold State.jumperAccepted
  extract_lets -merge -underBinder y1398 y1399
  have k1400 : Keeps fs s0 y1399 := by
    refine Keeps.upd ?_ (.inr rfl) (.inl ⟨rfl, rfl⟩) (.inr rfl) (.inr rfl) (.inr rfl) (.inl ⟨rfl, rfl⟩) (.inl ⟨rfl, rfl⟩) (.inl rfl) (.inr rfl) (.inr rfl) (.inr rfl) (.inr rfl) (.inr ⟨rfl, rfl⟩) (.inr rfl) (.inr rfl) (.inr rfl) (.inr rfl) (.inr rfl) (.inr rfl) (.inr rfl) (.inr rfl) (.inr rfl) (.inr rfl) (.inr rfl) (.inr rfl) (.inr rfl) (.inl (alw hF (by decide))) (.inr rfl) (.inl rfl) rfl
    exact h1
  refine keeps_ite ?_ ?_
  · exact h1
  · refine keeps_ite ?_ ?_
    · exact k1400
    · refine State.sealClose_keeps _ _ ?_ (subF_trans (by decide) hF)
      exact k1400

theorem execSealJumperAccepted_keeps (fitted : Bool) (s : State) : ∃ s', execSealJumperAccepted fitted s = .next s' ∧
    Keeps [.van, .free] s s' := by
  have hF : subF [.van, .free] [.van, .free] = true := by decide
  unfold execSealJumperAccepted
  refine ⟨_, rfl, ?_⟩
  refine State.jumperAccepted_keeps _ _ ?_ (subF_trans (by decide) hF)
  exact (Keeps.rfl' _ _)

theorem execSealTimeout_keeps (s : State) : ∃ s', execSealTimeout s = .next s' ∧
    Keeps [.van, .free] s s' := by
  have hF : subF [.van, .free] [.van, .free] = true := by decide
  unfold execSealTimeout
  refine ⟨_, rfl, ?_⟩
  refine keeps_ite ?_ ?_
  · refine State.sealClose_keeps _ _ ?_ (subF_trans (by decide) hF)
    exact (Keeps.rfl' _ _)
  · exact (Keeps.rfl' _ _)

theorem State.sealOpening_keeps {fs : List Zone} {s0 : State} (s : State) (h1 : Keeps fs s0 s) (hF : subF [.van, .free] fs = true) :
    Keeps fs s0 (State.sealOpening s) := by
  unfold State.sealOpening
  extract_lets -merge -underBinder y1401 y1402
  have k1403 : Keeps fs s0 y1402 := by
    refine Keeps.upd ?_ (.inr rfl) (.inl ⟨rfl, rfl⟩) (.inr rfl) (.inr rfl) (.inr rfl) (.inl ⟨rfl, rfl⟩) (.inl ⟨rfl, rfl⟩) (.inl rfl) (.inr rfl) (.inr rfl) (.inr rfl) (.inr rfl) (.inr ⟨rfl, rfl⟩) (.inr rfl) (.inr rfl) (.inr rfl) (.inr rfl) (.inr rfl) (.inr rfl) (.inr rfl) (.inr rfl) (.inr rfl) (.inr rfl) (.inr rfl) (.inr rfl) (.inr rfl) (.inl (alw hF (by decide))) (.inr rfl) (.inl rfl) rfl
    exact h1
  refine State.vanLog_keeps _ _ _ _ _ ?_ (subF_trans (by decide) hF)
  exact k1403

theorem State.gvPulse_keeps {fs : List Zone} {s0 : State} (s : State) (b : Bool) (h1 : Keeps fs s0 s) (hF : subF [.van] fs = true) :
    Keeps fs s0 (State.gvPulse s b) := by
  unfold State.gvPulse
  extract_lets -merge -underBinder y1404 y1405
  refine keeps_ite ?_ ?_
  · exact h1
  · refine Keeps.upd ?_ (.inr rfl) (.inl ⟨rfl, rfl⟩) (.inr rfl) (.inr rfl) (.inr rfl) (.inl ⟨rfl, rfl⟩) (.inl ⟨rfl, rfl⟩) (.inl rfl) (.inr rfl) (.inr rfl) (.inr rfl) (.inr rfl) (.inr ⟨rfl, rfl⟩) (.inr rfl) (.inr rfl) (.inr rfl) (.inr rfl) (.inr rfl) (.inr rfl) (.inr rfl) (.inr rfl) (.inr rfl) (.inr rfl) (.inr rfl) (.inr rfl) (.inr rfl) (.inl (alw hF (by decide))) (.inr rfl) (.inl rfl) rfl
    exact h1

theorem execGvPulse_keeps (b : Bool) (s : State) : ∃ s', execGvPulse b s = .next s' ∧
    Keeps [.van] s s' := by
  have hF : subF [.van] [.van] = true := by decide
  unfold execGvPulse
  refine ⟨_, rfl, ?_⟩
  refine State.gvPulse_keeps _ _ ?_ (subF_trans (by decide) hF)
  exact (Keeps.rfl' _ _)

theorem State.vanApply_keeps {fs : List Zone} {s0 : State} (s : State) (c : VanCmd) (h1 : Keeps fs s0 s) (hF : subF [.van, .free] fs = true) :
    Keeps fs s0 (State.vanApply s c) := by
  unfold State.vanApply
  extract_lets -merge -underBinder y1406
  split
  · extract_lets -merge -underBinder y1407 y1408
    refine Keeps.upd ?_ (.inr rfl) (.inl ⟨rfl, rfl⟩) (.inr rfl) (.inr rfl) (.inr rfl) (.inl ⟨rfl, rfl⟩) (.inl ⟨rfl, rfl⟩) (.inl rfl) (.inr rfl) (.inr rfl) (.inr rfl) (.inr rfl) (.inr ⟨rfl, rfl⟩) (.inr rfl) (.inr rfl) (.inr rfl) (.inr rfl) (.inr rfl) (.inr rfl) (.inr rfl) (.inr rfl) (.inr rfl) (.inr rfl) (.inr rfl) (.inr rfl) (.inr rfl) (.inl (alw hF (by decide))) (.inr rfl) (.inl rfl) rfl
    exact h1
  · refine Keeps.upd ?_ (.inr rfl) (.inl ⟨rfl, rfl⟩) (.inr rfl) (.inr rfl) (.inr rfl) (.inl ⟨rfl, rfl⟩) (.inl ⟨rfl, rfl⟩) (.inl rfl) (.inr rfl) (.inr rfl) (.inr rfl) (.inr rfl) (.inr ⟨rfl, rfl⟩) (.inr rfl) (.inr rfl) (.inr rfl) (.inr rfl) (.inr rfl) (.inr rfl) (.inr rfl) (.inr rfl) (.inr rfl) (.inr rfl) (.inr rfl) (.inr rfl) (.inr rfl) (.inl (alw hF (by decide))) (.inr rfl) (.inl rfl) rfl
    exact h1
  · extract_lets -merge -underBinder y1409 y1410 y1411 y1412
    have k1413 : Keeps fs s0 y1412 := by
      refine Keeps.upd ?_ (.inr rfl) (.inl ⟨rfl, rfl⟩) (.inr rfl) (.inr rfl) (.inr rfl) (.inl ⟨rfl, rfl⟩) (.inl ⟨rfl, rfl⟩) (.inl rfl) (.inr rfl) (.inr rfl) (.inr rfl) (.inr rfl) (.inr ⟨rfl, rfl⟩) (.inr rfl) (.inr rfl) (.inr rfl) (.inr rfl) (.inr rfl) (.inr rfl) (.inr rfl) (.inr rfl) (.inr rfl) (.inr rfl) (.inr rfl) (.inr rfl) (.inr rfl) (.inl (alw hF (by decide))) (.inr rfl) (.inl rfl) rfl
      exact h1
    refine State.vanLog_keeps _ _ _ _ _ ?_ (subF_trans (by decide) hF)
    refine State.vanSaveCfg_keeps _ ?_ (subF_trans (by decide) hF)
    exact k1413
  · extract_lets -merge -underBinder y1414 y1415
    have k1416 : Keeps fs s0 y1415 := by
      refine Keeps.upd ?_ (.inr rfl) (.inl ⟨rfl, rfl⟩) (.inr rfl) (.inr rfl) (.inr rfl) (.inl ⟨rfl, rfl⟩) (.inl ⟨rfl, rfl⟩) (.inl rfl) (.inr rfl) (.inr rfl) (.inr rfl) (.inr rfl) (.inr ⟨rfl, rfl⟩) (.inr rfl) (.inr rfl) (.inr rfl) (.inr rfl) (.inr rfl) (.inr rfl) (.inr rfl) (.inr rfl) (.inr rfl) (.inr rfl) (.inr rfl) (.inr rfl) (.inr rfl) (.inl (alw hF (by decide))) (.inr rfl) (.inl rfl) rfl
      exact h1
    refine State.vanLog_keeps _ _ _ _ _ ?_ (subF_trans (by decide) hF)
    refine State.vanSaveCfg_keeps _ ?_ (subF_trans (by decide) hF)
    exact k1416
  · extract_lets -merge -underBinder y1417
    refine State.vanLog_keeps _ _ _ _ _ ?_ (subF_trans (by decide) hF)
    refine Keeps.upd ?_ (.inr rfl) (.inl ⟨rfl, rfl⟩) (.inr rfl) (.inr rfl) (.inr rfl) (.inl ⟨rfl, rfl⟩) (.inl ⟨rfl, rfl⟩) (.inl rfl) (.inr rfl) (.inr rfl) (.inr rfl) (.inr rfl) (.inr ⟨rfl, rfl⟩) (.inr rfl) (.inr rfl) (.inr rfl) (.inr rfl) (.inr rfl) (.inr rfl) (.inr rfl) (.inr rfl) (.inr rfl) (.inr rfl) (.inr rfl) (.inr rfl) (.inr rfl) (.inl (alw hF (by decide))) (.inr rfl) (.inl rfl) rfl
    exact h1
  · extract_lets -merge -underBinder y1418
    refine State.vanLog_keeps _ _ _ _ _ ?_ (subF_trans (by decide) hF)
    refine Keeps.upd ?_ (.inr rfl) (.inl ⟨rfl, rfl⟩) (.inr rfl) (.inr rfl) (.inr rfl) (.inl ⟨rfl, rfl⟩) (.inl ⟨rfl, rfl⟩) (.inl rfl) (.inr rfl) (.inr rfl) (.inr rfl) (.inr rfl) (.inr ⟨rfl, rfl⟩) (.inr rfl) (.inr rfl) (.inr rfl) (.inr rfl) (.inr rfl) (.inr rfl) (.inr rfl) (.inr rfl) (.inr rfl) (.inr rfl) (.inr rfl) (.inr rfl) (.inr rfl) (.inl (alw hF (by decide))) (.inr rfl) (.inl rfl) rfl
    exact h1
  · refine State.vanLog_keeps _ _ _ _ _ ?_ (subF_trans (by decide) hF)
    refine Keeps.upd ?_ (.inr rfl) (.inl ⟨rfl, rfl⟩) (.inr rfl) (.inr rfl) (.inr rfl) (.inl ⟨rfl, rfl⟩) (.inl ⟨rfl, rfl⟩) (.inl rfl) (.inr rfl) (.inr rfl) (.inr rfl) (.inr rfl) (.inr ⟨rfl, rfl⟩) (.inr rfl) (.inr rfl) (.inr rfl) (.inr rfl) (.inr rfl) (.inr rfl) (.inr rfl) (.inr rfl) (.inr rfl) (.inr rfl) (.inr rfl) (.inr rfl) (.inr rfl) (.inl (alw hF (by decide))) (.inr rfl) (.inl rfl) rfl
    exact h1
  · extract_lets -merge -underBinder y1419 y1420
    have k1421 : Keeps fs s0 y1420 := by
      refine Keeps.upd ?_ (.inr rfl) (.inl ⟨rfl, rfl⟩) (.inr rfl) (.inr rfl) (.inr rfl) (.inl ⟨rfl, rfl⟩) (.inl ⟨rfl, rfl⟩) (.inl rfl) (.inr rfl) (.inr rfl) (.inr rfl) (.inr rfl) (.inr ⟨rfl, rfl⟩) (.inr rfl) (.inr rfl) (.inr rfl) (.inr rfl) (.inr rfl) (.inr rfl) (.inr rfl) (.inr rfl) (.inr rfl) (.inr rfl) (.inr rfl) (.inr rfl) (.inr rfl) (.inl (alw hF (by decide))) (.inr rfl) (.inl rfl) rfl
      exact h1
    refine State.vanLog_keeps _ _ _ _ _ ?_ (subF_trans (by decide) hF)
    refine State.vanSaveCfg_keeps _ ?_ (subF_trans (by decide) hF)
    exact k1421
  · refine State.sealClose_keeps _ _ ?_ (subF_trans (by decide) hF)
    exact h1

theorem State.vanDispute_keeps {fs : List Zone} {s0 : State} (s : State) (nA : ℕ) (nB : ℕ) (h1 : Keeps fs s0 s) (hF : subF [.van, .free] fs = true) :
    Keeps fs s0 (State.vanDispute s nA nB) := by
  have kv : ∀ v, Keeps fs s0 { s with van := v } := fun v =>
    Keeps.upd h1 (.inr rfl) (.inl ⟨rfl, rfl⟩) (.inr rfl) (.inr rfl) (.inr rfl) (.inl ⟨rfl, rfl⟩) (.inl ⟨rfl, rfl⟩) (.inl rfl) (.inr rfl) (.inr rfl) (.inr rfl) (.inr rfl) (.inr ⟨rfl, rfl⟩) (.inr rfl) (.inr rfl) (.inr rfl) (.inr rfl) (.inr rfl) (.inr rfl) (.inr rfl) (.inr rfl) (.inr rfl) (.inr rfl) (.inr rfl) (.inr rfl) (.inr rfl) (.inl (alw hF (by decide))) (.inr rfl) (.inl rfl) rfl
  unfold State.vanDispute
  extract_lets -merge -underBinder v d bad st put
  have kp : ∀ x, Keeps fs s0 (put x) := fun x => kv _
  clear_value put
  refine keeps_ite (keeps_ite (kp _) (keeps_ite (kp _) ?_)) (keeps_ite (kp _) (keeps_ite (kp _) ?_))
  · exact State.vanLog_keeps _ _ _ _ _ (kp _) (subF_trans (by decide) hF)
  · exact State.vanLog_keeps _ _ _ _ _ (kp _) (subF_trans (by decide) hF)

theorem State.vanSend_keeps {fs : List Zone} {s0 : State} (s : State) (h1 : Keeps fs s0 s) (hF : subF [.van] fs = true) :
    Keeps fs s0 (State.vanSend s) := by
  unfold State.vanSend
  extract_lets -merge -underBinder y1429 y1430 y1431 y1432
  refine Keeps.upd ?_ (.inr rfl) (.inl ⟨rfl, rfl⟩) (.inr rfl) (.inr rfl) (.inr rfl) (.inl ⟨rfl, rfl⟩) (.inl ⟨rfl, rfl⟩) (.inl rfl) (.inr rfl) (.inr rfl) (.inr rfl) (.inr rfl) (.inr ⟨rfl, rfl⟩) (.inr rfl) (.inr rfl) (.inr rfl) (.inr rfl) (.inr rfl) (.inr rfl) (.inr rfl) (.inr rfl) (.inr rfl) (.inr rfl) (.inr rfl) (.inr rfl) (.inr rfl) (.inl (alw hF (by decide))) (.inr rfl) (.inl rfl) rfl
  exact h1

theorem State.gvTick_keeps {fs : List Zone} {s0 : State} (s : State) (h1 : Keeps fs s0 s) (hF : subF [.van, .free] fs = true) :
    Keeps fs s0 (State.gvTick s) := by
  unfold State.gvTick
  extract_lets -merge -underBinder y1433 y1434 y1435 y1436 y1437 y1438 y1439 y1440 y1441
  have k1442 : Keeps fs s0 y1438 := by
    refine keeps_foldl _ _ ?_ ?_
    · refine Keeps.upd ?_ (.inr rfl) (.inl ⟨rfl, rfl⟩) (.inr rfl) (.inr rfl) (.inr rfl) (.inl ⟨rfl, rfl⟩) (.inl ⟨rfl, rfl⟩) (.inl rfl) (.inr rfl) (.inr rfl) (.inr rfl) (.inr rfl) (.inr ⟨rfl, rfl⟩) (.inr rfl) (.inr rfl) (.inr rfl) (.inr rfl) (.inr rfl) (.inr rfl) (.inr rfl) (.inr rfl) (.inr rfl) (.inr rfl) (.inr rfl) (.inr rfl) (.inr rfl) (.inl (alw hF (by decide))) (.inr rfl) (.inl rfl) rfl
      exact h1
    · intro z1443 z1445 h1444
      refine State.vanApply_keeps _ _ ?_ (subF_trans (by decide) hF)
      exact h1444
  have k1446 : Keeps fs s0 y1439 := by
    refine State.vanDispute_keeps _ _ _ ?_ (subF_trans (by decide) hF)
    exact k1442
  have k1447 : Keeps fs s0 y1441 := by
    refine Keeps.upd ?_ (.inr rfl) (.inl ⟨rfl, rfl⟩) (.inr rfl) (.inr rfl) (.inr rfl) (.inl ⟨rfl, rfl⟩) (.inl ⟨rfl, rfl⟩) (.inl rfl) (.inr rfl) (.inr rfl) (.inr rfl) (.inr rfl) (.inr ⟨rfl, rfl⟩) (.inr rfl) (.inr rfl) (.inr rfl) (.inr rfl) (.inr rfl) (.inr rfl) (.inr rfl) (.inr rfl) (.inr rfl) (.inr rfl) (.inr rfl) (.inr rfl) (.inr rfl) (.inl (alw hF (by decide))) (.inr rfl) (.inl rfl) rfl
    exact k1446
  refine keeps_ite ?_ ?_
  · exact h1
  · refine State.vanSend_keeps _ ?_ (subF_trans (by decide) hF)
    exact k1447

theorem execGvTick_keeps (s : State) : ∃ s', execGvTick s = .next s' ∧
    Keeps [.van, .free] s s' := by
  have hF : subF [.van, .free] [.van, .free] = true := by decide
  unfold execGvTick
  refine ⟨_, rfl, ?_⟩
  refine State.gvTick_keeps _ ?_ (subF_trans (by decide) hF)
  exact (Keeps.rfl' _ _)

theorem State.vanLost_keeps {fs : List Zone} {s0 : State} (s : State) (which : ℕ) (h1 : Keeps fs s0 s) (hF : subF [.van, .free] fs = true) :
    Keeps fs s0 (State.vanLost s which) := by
  unfold State.vanLost
  extract_lets -merge -underBinder y1448
  refine keeps_ite ?_ ?_
  · refine State.vanLog_keeps _ _ _ _ _ ?_ (subF_trans (by decide) hF)
    exact h1
  · refine State.vanLog_keeps _ _ _ _ _ ?_ (subF_trans (by decide) hF)
    refine Keeps.upd ?_ (.inr rfl) (.inl ⟨rfl, rfl⟩) (.inr rfl) (.inr rfl) (.inr rfl) (.inl ⟨rfl, rfl⟩) (.inl ⟨rfl, rfl⟩) (.inl rfl) (.inr rfl) (.inr rfl) (.inr rfl) (.inr rfl) (.inr ⟨rfl, rfl⟩) (.inr rfl) (.inr rfl) (.inr rfl) (.inr rfl) (.inr rfl) (.inr rfl) (.inr rfl) (.inr rfl) (.inr rfl) (.inr rfl) (.inr rfl) (.inr rfl) (.inr rfl) (.inl (alw hF (by decide))) (.inr rfl) (.inl rfl) rfl
    exact h1

theorem State.gvPowerOn_keeps {fs : List Zone} {s0 : State} (s : State) (st : ℕ) (cf : ℕ) (h1 : Keeps fs s0 s) (hF : subF [.van, .free] fs = true) :
    Keeps fs s0 (State.gvPowerOn s st cf) := by
  unfold State.gvPowerOn
  extract_lets -merge -underBinder y1449 y1450 y1451 y1452 y1453 y1454 y1455 y1456 y1457
  have k1458 : Keeps fs s0 y1454 := by
    refine Keeps.upd ?_ (.inr rfl) (.inl ⟨rfl, rfl⟩) (.inr rfl) (.inr rfl) (.inr rfl) (.inl ⟨rfl, rfl⟩) (.inl ⟨rfl, rfl⟩) (.inl rfl) (.inr rfl) (.inr rfl) (.inr rfl) (.inr rfl) (.inr ⟨rfl, rfl⟩) (.inr rfl) (.inr rfl) (.inr rfl) (.inr rfl) (.inr rfl) (.inr rfl) (.inr rfl) (.inr rfl) (.inr rfl) (.inr rfl) (.inr rfl) (.inr rfl) (.inr rfl) (.inl (alw hF (by decide))) (.inr rfl) (.inl rfl) rfl
    exact h1
  have k1459 : Keeps fs s0 y1455 := by
    refine State.vanLog_keeps _ _ _ _ _ ?_ (subF_trans (by decide) hF)
    exact k1458
  have k1460 : Keeps fs s0 y1456 := by
    refine keeps_ite ?_ ?_
    · refine State.vanLost_keeps _ _ ?_ (subF_trans (by decide) hF)
      exact k1459
    · exact k1459
  have k1461 : Keeps fs s0 y1457 := by
    refine keeps_ite ?_ ?_
    · refine State.vanLost_keeps _ _ ?_ (subF_trans (by decide) hF)
      exact k1460
    · exact k1460
  refine State.sealClose_keeps _ _ ?_ (subF_trans (by decide) hF)
  exact k1461

theorem execGvPowerOn_keeps (st : ℕ) (cf : ℕ) (s : State) : ∃ s', execGvPowerOn st cf s = .next s' ∧
    Keeps [.van, .free] s s' := by
  have hF : subF [.van, .free] [.van, .free] = true := by decide
  unfold execGvPowerOn
  refine ⟨_, rfl, ?_⟩
  refine State.gvPowerOn_keeps _ _ _ ?_ (subF_trans (by decide) hF)
  exact (Keeps.rfl' _ _)

theorem State.vanWake_keeps {fs : List Zone} {s0 : State} (s : State) (src : VanSrc) (h1 : Keeps fs s0 s) (hF : subF [.van] fs = true) :
    Keeps fs s0 (State.vanWake s src) := by
  unfold State.vanWake
  split
  · extract_lets -merge -underBinder y1462
    refine Keeps.upd ?_ (.inr rfl) (.inl ⟨rfl, rfl⟩) (.inr rfl) (.inr rfl) (.inr rfl) (.inl ⟨rfl, rfl⟩) (.inl ⟨rfl, rfl⟩) (.inl rfl) (.inr rfl) (.inr rfl) (.inr rfl) (.inr rfl) (.inr ⟨rfl, rfl⟩) (.inr rfl) (.inr rfl) (.inr rfl) (.inr rfl) (.inr rfl) (.inr rfl) (.inr rfl) (.inr rfl) (.inr rfl) (.inr rfl) (.inr rfl) (.inr rfl) (.inr rfl) (.inl (alw hF (by decide))) (.inr rfl) (.inl rfl) rfl
    exact h1
  · exact h1

theorem State.smcClear_keeps {fs : List Zone} {s0 : State} (s : State) (h1 : Keeps fs s0 s) (hF : subF [.van] fs = true) :
    Keeps fs s0 (State.smcClear s) := by
  unfold State.smcClear
  extract_lets -merge -underBinder y1463
  refine Keeps.upd ?_ (.inr rfl) (.inl ⟨rfl, rfl⟩) (.inr rfl) (.inr rfl) (.inr rfl) (.inl ⟨rfl, rfl⟩) (.inl ⟨rfl, rfl⟩) (.inl rfl) (.inr rfl) (.inr rfl) (.inr rfl) (.inr rfl) (.inr ⟨rfl, rfl⟩) (.inr rfl) (.inr rfl) (.inr rfl) (.inr rfl) (.inr rfl) (.inr rfl) (.inr rfl) (.inr rfl) (.inr rfl) (.inr rfl) (.inr rfl) (.inr rfl) (.inr rfl) (.inl (alw hF (by decide))) (.inr rfl) (.inl rfl) rfl
  exact h1

theorem State.vanReply_keeps {fs : List Zone} {s0 : State} (s : State) (src : VanSrc) (op : ℕ) (result : ℕ) (data : List Byte) (h1 : Keeps fs s0 s) (hF : subF [.out, .block 5, .van, .block 1] fs = true) :
    Keeps fs s0 (State.vanReply s src op result data) := by
  unfold State.vanReply
  extract_lets -merge -underBinder y1464
  split
  · refine State.emit_keeps _ _ ?_ (subF_trans (by decide) hF)
    exact h1
  · extract_lets -merge -underBinder y1465
    have k1466 : Keeps fs s0 y1465 := by
      refine keeps_foldl _ _ ?_ ?_
      · exact h1
      · intro z1467 z1469 h1468
        refine setReg_keeps _ _ ?_ (alwL hF 5 0 (by simp only [Reg.GV_SMR_DATA]; omega))
        exact h1468
    refine State.smcClear_keeps _ ?_ (subF_trans (by decide) hF)
    refine State.fire_keeps _ _ ?_ (subF_trans (by decide) hF)
    refine setBit_keeps _ _ _ ?_ (alwB hF 5 rfl (by decide))
    refine setBit_keeps _ _ _ ?_ (alwB hF 5 rfl (by decide))
    refine setFld_keeps _ _ _ _ ?_ (alwB hF 5 rfl (by decide))
    exact k1466

theorem State.vanFormatError_keeps {fs : List Zone} {s0 : State} (s : State) (src : VanSrc) (h1 : Keeps fs s0 s) (hF : subF [.out, .block 5, .van, .block 1] fs = true) :
    Keeps fs s0 (State.vanFormatError s src) := by
  unfold State.vanFormatError
  split
  · exact h1
  · refine keeps_ite ?_ ?_
    · exact h1
    · refine State.vanReply_keeps _ _ _ _ _ ?_ (subF_trans (by decide) hF)
      refine State.vanWake_keeps _ _ ?_ (subF_trans (by decide) hF)
      exact h1

theorem execVanFormatError_keeps (src : VanSrc) (s : State) : ∃ s', execVanFormatError src s = .next s' ∧
    Keeps [.out, .block 5, .van, .block 1] s s' := by
  have hF : subF [.out, .block 5, .van, .block 1] [.out, .block 5, .van, .block 1] = true := by decide
  unfold execVanFormatError
  refine ⟨_, rfl, ?_⟩
  refine State.vanFormatError_keeps _ _ ?_ (subF_trans (by decide) hF)
  exact (Keeps.rfl' _ _)

theorem State.vanDo_keeps {fs : List Zone} {s0 : State} (s : State) (src : VanSrc) (kind : ℕ) (op : ℕ) (f : State → List Byte → State) (h1 : Keeps fs s0 s) (h5 : ∀ u1470 u1471, Keeps fs s0 u1470 → Keeps fs s0 (f u1470 u1471)) (hF : subF [.van] fs = true) :
    Keeps fs s0 (State.vanDo s src kind op f) := by
  unfold State.vanDo
  split
  · exact h1
  · refine h5 _ _ ?_
    refine State.vanWake_keeps _ _ ?_ (subF_trans (by decide) hF)
    exact h1

theorem State.gvIdent_keeps {fs : List Zone} {s0 : State} (s : State) (src : VanSrc) (h1 : Keeps fs s0 s) (hF : subF [.van, .out, .block 5, .block 1] fs = true) :
    Keeps fs s0 (State.gvIdent s src) := by
  unfold State.gvIdent
  refine State.vanDo_keeps _ _ _ _ _ ?_ ?_ (subF_trans (by decide) hF)
  · exact h1
  · intro z1472 z1474 h1473
    extract_lets -merge -underBinder y1475
    refine State.vanReply_keeps _ _ _ _ _ ?_ (subF_trans (by decide) hF)
    exact h1473

theorem execGvIdent_keeps (src : VanSrc) (s : State) : ∃ s', execGvIdent src s = .next s' ∧
    Keeps [.van, .out, .block 5, .block 1] s s' := by
  have hF : subF [.van, .out, .block 5, .block 1] [.van, .out, .block 5, .block 1] = true := by decide
  unfold execGvIdent
  refine ⟨_, rfl, ?_⟩
  refine State.gvIdent_keeps _ _ ?_ (subF_trans (by decide) hF)
  exact (Keeps.rfl' _ _)

theorem State.gvLogRead_keeps {fs : List Zone} {s0 : State} (s : State) (src : VanSrc) (h1 : Keeps fs s0 s) (hF : subF [.van, .out, .block 5, .block 1] fs = true) :
    Keeps fs s0 (State.gvLogRead s src) := by
  unfold State.gvLogRead
  refine State.vanDo_keeps _ _ _ _ _ ?_ ?_ (subF_trans (by decide) hF)
  · exact h1
  · intro z1476 z1478 h1477
    refine State.vanReply_keeps _ _ _ _ _ ?_ (subF_trans (by decide) hF)
    exact h1477

theorem execLog_keeps (src : VanSrc) (s : State) : ∃ s', execLog src s = .next s' ∧
    Keeps [.van, .out, .block 5, .block 1] s s' := by
  have hF : subF [.van, .out, .block 5, .block 1] [.van, .out, .block 5, .block 1] = true := by decide
  unfold execLog
  refine ⟨_, rfl, ?_⟩
  refine State.gvLogRead_keeps _ _ ?_ (subF_trans (by decide) hF)
  exact (Keeps.rfl' _ _)

theorem State.vanAccept_keeps {fs : List Zone} {s0 : State} (s : State) (src : VanSrc) (op : ℕ) (c : VanCmd) (h1 : Keeps fs s0 s) (hF : subF [.out, .block 5, .van, .block 1] fs = true) :
    Keeps fs s0 (State.vanAccept s src op c) := by
  unfold State.vanAccept
  extract_lets -merge -underBinder y1479
  refine State.vanReply_keeps _ _ _ _ _ ?_ (subF_trans (by decide) hF)
  refine Keeps.upd ?_ (.inr rfl) (.inl ⟨rfl, rfl⟩) (.inr rfl) (.inr rfl) (.inr rfl) (.inl ⟨rfl, rfl⟩) (.inl ⟨rfl, rfl⟩) (.inl rfl) (.inr rfl) (.inr rfl) (.inr rfl) (.inr rfl) (.inr ⟨rfl, rfl⟩) (.inr rfl) (.inr rfl) (.inr rfl) (.inr rfl) (.inr rfl) (.inr rfl) (.inr rfl) (.inr rfl) (.inr rfl) (.inr rfl) (.inr rfl) (.inr rfl) (.inr rfl) (.inl (alw hF (by decide))) (.inr rfl) (.inl rfl) rfl
  exact h1

theorem State.tripReset_keeps {fs : List Zone} {s0 : State} (s : State) (src : VanSrc) (h1 : Keeps fs s0 s) (hF : subF [.van, .out, .block 5, .block 1] fs = true) :
    Keeps fs s0 (State.tripReset s src) := by
  unfold State.tripReset
  refine State.vanDo_keeps _ _ _ _ _ ?_ ?_ (subF_trans (by decide) hF)
  · exact h1
  · intro z1480 z1482 h1481
    extract_lets -merge -underBinder y1483
    refine State.vanAccept_keeps _ _ _ _ ?_ (subF_trans (by decide) hF)
    exact h1481

theorem execTripReset_keeps (src : VanSrc) (s : State) : ∃ s', execTripReset src s = .next s' ∧
    Keeps [.van, .out, .block 5, .block 1] s s' := by
  have hF : subF [.van, .out, .block 5, .block 1] [.van, .out, .block 5, .block 1] = true := by decide
  unfold execTripReset
  refine ⟨_, rfl, ?_⟩
  refine State.tripReset_keeps _ _ ?_ (subF_trans (by decide) hF)
  exact (Keeps.rfl' _ _)

theorem State.gvChallenge_keeps {fs : List Zone} {s0 : State} (s : State) (src : VanSrc) (h1 : Keeps fs s0 s) (hF : subF [.van, .out, .block 5, .block 1, .free] fs = true) :
    Keeps fs s0 (State.gvChallenge s src) := by
  unfold State.gvChallenge
  refine State.vanDo_keeps _ _ _ _ _ ?_ ?_ (subF_trans (by decide) hF)
  · exact h1
  · intro z1484 z1486 h1485
    extract_lets -merge -underBinder y1487 y1488 y1489
    have k1490 : Keeps fs s0 y1489 := by
      refine Keeps.upd ?_ (.inr rfl) (.inl ⟨rfl, rfl⟩) (.inr rfl) (.inr rfl) (.inr rfl) (.inl ⟨rfl, rfl⟩) (.inl ⟨rfl, rfl⟩) (.inl rfl) (.inr rfl) (.inr rfl) (.inr rfl) (.inr rfl) (.inr ⟨rfl, rfl⟩) (.inr rfl) (.inr rfl) (.inr rfl) (.inr rfl) (.inr rfl) (.inr rfl) (.inr rfl) (.inr rfl) (.inr rfl) (.inr rfl) (.inr rfl) (.inr rfl) (.inr rfl) (.inl (alw hF (by decide))) (.inr rfl) (.inl rfl) rfl
      exact h1485
    refine keeps_ite ?_ ?_
    · refine State.vanReply_keeps _ _ _ _ _ ?_ (subF_trans (by decide) hF)
      exact h1485
    · refine keeps_ite ?_ ?_
      · refine State.vanReply_keeps _ _ _ _ _ ?_ (subF_trans (by decide) hF)
        exact h1485
      · refine State.vanReply_keeps _ _ _ _ _ ?_ (subF_trans (by decide) hF)
        refine keeps_ite ?_ ?_
        · refine State.sealOpening_keeps _ ?_ (subF_trans (by decide) hF)
          exact k1490
        · exact k1490

theorem execChallenge_keeps (src : VanSrc) (s : State) : ∃ s', execChallenge src s = .next s' ∧
    Keeps [.van, .out, .block 5, .block 1, .free] s s' := by
  have hF : subF [.van, .out, .block 5, .block 1, .free] [.van, .out, .block 5, .block 1, .free] = true := by decide
  unfold execChallenge
  refine ⟨_, rfl, ?_⟩
  refine State.gvChallenge_keeps _ _ ?_ (subF_trans (by decide) hF)
  exact (Keeps.rfl' _ _)

theorem State.sealAuth_keeps {fs : List Zone} {s0 : State} (s : State) (src : VanSrc) (h1 : Keeps fs s0 s) (hF : subF [.van, .out, .block 5, .block 1] fs = true) :
    Keeps fs s0 (State.sealAuth s src) := by
  unfold State.sealAuth
  refine State.vanDo_keeps _ _ _ _ _ ?_ ?_ (subF_trans (by decide) hF)
  · exact h1
  · intro z1491 z1493 h1492
    refine keeps_ite ?_ ?_
    · refine State.vanReply_keeps _ _ _ _ _ ?_ (subF_trans (by decide) hF)
      exact h1492
    · split
      · refine State.vanReply_keeps _ _ _ _ _ ?_ (subF_trans (by decide) hF)
        exact h1492
      · extract_lets -merge -underBinder y1494
        refine keeps_ite ?_ ?_
        · refine State.vanReply_keeps _ _ _ _ _ ?_ (subF_trans (by decide) hF)
          exact h1492
        · refine keeps_ite ?_ ?_
          · refine State.vanReply_keeps _ _ _ _ _ ?_ (subF_trans (by decide) hF)
            exact h1492
          · refine keeps_ite ?_ ?_
            · refine State.vanReply_keeps _ _ _ _ _ ?_ (subF_trans (by decide) hF)
              exact h1492
            · refine Keeps.upd ?_ (.inr rfl) (.inl ⟨rfl, rfl⟩) (.inr rfl) (.inr rfl) (.inr rfl) (.inl ⟨rfl, rfl⟩) (.inl ⟨rfl, rfl⟩) (.inl rfl) (.inr rfl) (.inr rfl) (.inr rfl) (.inr rfl) (.inr ⟨rfl, rfl⟩) (.inr rfl) (.inr rfl) (.inr rfl) (.inr rfl) (.inr rfl) (.inr rfl) (.inr rfl) (.inr rfl) (.inr rfl) (.inr rfl) (.inr rfl) (.inr rfl) (.inr rfl) (.inl (alw hF (by decide))) (.inr rfl) (.inl rfl) rfl
              exact h1492

theorem execSealAuth_keeps (src : VanSrc) (s : State) : ∃ s', execSealAuth src s = .next s' ∧
    Keeps [.van, .out, .block 5, .block 1] s s' := by
  have hF : subF [.van, .out, .block 5, .block 1] [.van, .out, .block 5, .block 1] = true := by decide
  unfold execSealAuth
  refine ⟨_, rfl, ?_⟩
  refine State.sealAuth_keeps _ _ ?_ (subF_trans (by decide) hF)
  exact (Keeps.rfl' _ _)

theorem State.sealAuthDone_keeps {fs : List Zone} {s0 : State} (s : State) (h1 : Keeps fs s0 s) (hF : subF [.van, .out, .block 5, .block 1, .free] fs = true) :
    Keeps fs s0 (State.sealAuthDone s) := by
  unfold State.sealAuthDone
  split
  · exact h1
  · extract_lets -merge -underBinder y1495 y1496 y1497
    have k1498 : Keeps fs s0 y1496 := by
      refine Keeps.upd ?_ (.inr rfl) (.inl ⟨rfl, rfl⟩) (.inr rfl) (.inr rfl) (.inr rfl) (.inl ⟨rfl, rfl⟩) (.inl ⟨rfl, rfl⟩) (.inl rfl) (.inr rfl) (.inr rfl) (.inr rfl) (.inr rfl) (.inr ⟨rfl, rfl⟩) (.inr rfl) (.inr rfl) (.inr rfl) (.inr rfl) (.inr rfl) (.inr rfl) (.inr rfl) (.inr rfl) (.inr rfl) (.inr rfl) (.inr rfl) (.inr rfl) (.inr rfl) (.inl (alw hF (by decide))) (.inr rfl) (.inl rfl) rfl
      exact h1
    refine keeps_ite ?_ ?_
    · refine State.vanReply_keeps _ _ _ _ _ ?_ (subF_trans (by decide) hF)
      refine State.sealOpening_keeps _ ?_ (subF_trans (by decide) hF)
      exact k1498
    · refine State.vanReply_keeps _ _ _ _ _ ?_ (subF_trans (by decide) hF)
      refine State.vanLog_keeps _ _ _ _ _ ?_ (subF_trans (by decide) hF)
      exact k1498

theorem execSealAuthDone_keeps (s : State) : ∃ s', execSealAuthDone s = .next s' ∧
    Keeps [.van, .out, .block 5, .block 1, .free] s s' := by
  have hF : subF [.van, .out, .block 5, .block 1, .free] [.van, .out, .block 5, .block 1, .free] = true := by decide
  unfold execSealAuthDone
  refine ⟨_, rfl, ?_⟩
  refine State.sealAuthDone_keeps _ ?_ (subF_trans (by decide) hF)
  exact (Keeps.rfl' _ _)

theorem State.sealed_keeps {fs : List Zone} {s0 : State} (s : State) (src : VanSrc) (op : ℕ) (perm : Bool) (f : List Byte → Option VanCmd) (h1 : Keeps fs s0 s) (hF : subF [.van, .out, .block 5, .block 1] fs = true) :
    Keeps fs s0 (State.sealed s src op perm f) := by
  unfold State.sealed
  refine State.vanDo_keeps _ _ _ _ _ ?_ ?_ (subF_trans (by decide) hF)
  · exact h1
  · intro z1499 z1501 h1500
    refine keeps_ite ?_ ?_
    · refine State.vanReply_keeps _ _ _ _ _ ?_ (subF_trans (by decide) hF)
      exact h1500
    · split
      · refine State.vanReply_keeps _ _ _ _ _ ?_ (subF_trans (by decide) hF)
        exact h1500
      · refine keeps_ite ?_ ?_
        · refine State.vanReply_keeps _ _ _ _ _ ?_ (subF_trans (by decide) hF)
          exact h1500
        · refine State.vanAccept_keeps _ _ _ _ ?_ (subF_trans (by decide) hF)
          exact h1500

theorem execSetK_keeps (src : VanSrc) (s : State) : ∃ s', execSetK src s = .next s' ∧
    Keeps [.van, .out, .block 5, .block 1] s s' := by
  have hF : subF [.van, .out, .block 5, .block 1] [.van, .out, .block 5, .block 1] = true := by decide
  unfold execSetK
  refine ⟨_, rfl, ?_⟩
  refine State.sealed_keeps _ _ _ _ _ ?_ (subF_trans (by decide) hF)
  exact (Keeps.rfl' _ _)

theorem execSetDisc_keeps (src : VanSrc) (s : State) : ∃ s', execSetDisc src s = .next s' ∧
    Keeps [.van, .out, .block 5, .block 1] s s' := by
  have hF : subF [.van, .out, .block 5, .block 1] [.van, .out, .block 5, .block 1] = true := by decide
  unfold execSetDisc
  refine ⟨_, rfl, ?_⟩
  refine State.sealed_keeps _ _ _ _ _ ?_ (subF_trans (by decide) hF)
  exact (Keeps.rfl' _ _)

theorem execSetTotal_keeps (src : VanSrc) (s : State) : ∃ s', execSetTotal src s = .next s' ∧
    Keeps [.van, .out, .block 5, .block 1] s s' := by
  have hF : subF [.van, .out, .block 5, .block 1] [.van, .out, .block 5, .block 1] = true := by decide
  unfold execSetTotal
  refine ⟨_, rfl, ?_⟩
  refine State.sealed_keeps _ _ _ _ _ ?_ (subF_trans (by decide) hF)
  exact (Keeps.rfl' _ _)

theorem execSetTime_keeps (src : VanSrc) (s : State) : ∃ s', execSetTime src s = .next s' ∧
    Keeps [.van, .out, .block 5, .block 1] s s' := by
  have hF : subF [.van, .out, .block 5, .block 1] [.van, .out, .block 5, .block 1] = true := by decide
  unfold execSetTime
  refine ⟨_, rfl, ?_⟩
  refine State.sealed_keeps _ _ _ _ _ ?_ (subF_trans (by decide) hF)
  exact (Keeps.rfl' _ _)

theorem execSetCan_keeps (src : VanSrc) (s : State) : ∃ s', execSetCan src s = .next s' ∧
    Keeps [.van, .out, .block 5, .block 1] s s' := by
  have hF : subF [.van, .out, .block 5, .block 1] [.van, .out, .block 5, .block 1] = true := by decide
  unfold execSetCan
  refine ⟨_, rfl, ?_⟩
  refine State.sealed_keeps _ _ _ _ _ ?_ (subF_trans (by decide) hF)
  exact (Keeps.rfl' _ _)

theorem State.keyPart_keeps {fs : List Zone} {s0 : State} (s : State) (src : VanSrc) (h1 : Keeps fs s0 s) (hF : subF [.van, .out, .block 5, .block 1] fs = true) :
    Keeps fs s0 (State.keyPart s src) := by
  unfold State.keyPart
  refine State.vanDo_keeps _ _ _ _ _ ?_ ?_ (subF_trans (by decide) hF)
  · exact h1
  · intro z1502 z1504 h1503
    extract_lets -merge -underBinder y1505 y1506 y1507 y1508 y1509
    refine keeps_ite ?_ ?_
    · refine State.vanReply_keeps _ _ _ _ _ ?_ (subF_trans (by decide) hF)
      exact h1503
    · refine keeps_ite ?_ ?_
      · refine State.vanReply_keeps _ _ _ _ _ ?_ (subF_trans (by decide) hF)
        exact h1503
      · refine State.vanReply_keeps _ _ _ _ _ ?_ (subF_trans (by decide) hF)
        refine Keeps.upd ?_ (.inr rfl) (.inl ⟨rfl, rfl⟩) (.inr rfl) (.inr rfl) (.inr rfl) (.inl ⟨rfl, rfl⟩) (.inl ⟨rfl, rfl⟩) (.inl rfl) (.inr rfl) (.inr rfl) (.inr rfl) (.inr rfl) (.inr ⟨rfl, rfl⟩) (.inr rfl) (.inr rfl) (.inr rfl) (.inr rfl) (.inr rfl) (.inr rfl) (.inr rfl) (.inr rfl) (.inr rfl) (.inr rfl) (.inr rfl) (.inr rfl) (.inr rfl) (.inl (alw hF (by decide))) (.inr rfl) (.inl rfl) rfl
        exact h1503

theorem execKeyPart_keeps (src : VanSrc) (s : State) : ∃ s', execKeyPart src s = .next s' ∧
    Keeps [.van, .out, .block 5, .block 1] s s' := by
  have hF : subF [.van, .out, .block 5, .block 1] [.van, .out, .block 5, .block 1] = true := by decide
  unfold execKeyPart
  refine ⟨_, rfl, ?_⟩
  refine State.keyPart_keeps _ _ ?_ (subF_trans (by decide) hF)
  exact (Keeps.rfl' _ _)

theorem State.keyCommit_keeps {fs : List Zone} {s0 : State} (s : State) (src : VanSrc) (h1 : Keeps fs s0 s) (hF : subF [.van, .out, .block 5, .block 1] fs = true) :
    Keeps fs s0 (State.keyCommit s src) := by
  unfold State.keyCommit
  refine State.vanDo_keeps _ _ _ _ _ ?_ ?_ (subF_trans (by decide) hF)
  · exact h1
  · intro z1510 z1512 h1511
    refine keeps_ite ?_ ?_
    · refine State.vanReply_keeps _ _ _ _ _ ?_ (subF_trans (by decide) hF)
      exact h1511
    · split
      · refine keeps_ite ?_ ?_
        · refine State.vanReply_keeps _ _ _ _ _ ?_ (subF_trans (by decide) hF)
          exact h1511
        · refine keeps_ite ?_ ?_
          · refine State.vanReply_keeps _ _ _ _ _ ?_ (subF_trans (by decide) hF)
            exact h1511
          · refine State.vanAccept_keeps _ _ _ _ ?_ (subF_trans (by decide) hF)
            exact h1511
      · refine State.vanReply_keeps _ _ _ _ _ ?_ (subF_trans (by decide) hF)
        exact h1511

theorem execKeyCommit_keeps (src : VanSrc) (s : State) : ∃ s', execKeyCommit src s = .next s' ∧
    Keeps [.van, .out, .block 5, .block 1] s s' := by
  have hF : subF [.van, .out, .block 5, .block 1] [.van, .out, .block 5, .block 1] = true := by decide
  unfold execKeyCommit
  refine ⟨_, rfl, ?_⟩
  refine State.keyCommit_keeps _ _ ?_ (subF_trans (by decide) hF)
  exact (Keeps.rfl' _ _)

theorem execClose_keeps (src : VanSrc) (s : State) : ∃ s', execClose src s = .next s' ∧
    Keeps [.van, .out, .block 5, .block 1] s s' := by
  have hF : subF [.van, .out, .block 5, .block 1] [.van, .out, .block 5, .block 1] = true := by decide
  unfold execClose
  refine ⟨_, rfl, ?_⟩
  refine State.sealed_keeps _ _ _ _ _ ?_ (subF_trans (by decide) hF)
  exact (Keeps.rfl' _ _)

theorem State.vanStatus_keeps {fs : List Zone} {s0 : State} (s : State) (h1 : Keeps fs s0 s) (hF : subF [.out] fs = true) :
    Keeps fs s0 (State.vanStatus s) := by
  unfold State.vanStatus
  extract_lets -merge -underBinder y1513 y1514 y1515
  refine keeps_ite ?_ ?_
  · exact h1
  · refine State.emit_keeps _ _ ?_ (subF_trans (by decide) hF)
    exact h1

theorem execStatus_keeps (s : State) : ∃ s', execStatus s = .next s' ∧
    Keeps [.out] s s' := by
  have hF : subF [.out] [.out] = true := by decide
  unfold execStatus
  refine ⟨_, rfl, ?_⟩
  refine State.vanStatus_keeps _ ?_ (subF_trans (by decide) hF)
  exact (Keeps.rfl' _ _)

theorem State.vanQuiet_keeps {fs : List Zone} {s0 : State} (s : State) (h1 : Keeps fs s0 s) (hF : subF [.van] fs = true) :
    Keeps fs s0 (State.vanQuiet s) := by
  unfold State.vanQuiet
  extract_lets -merge -underBinder y1516
  refine keeps_ite ?_ ?_
  · refine Keeps.upd ?_ (.inr rfl) (.inl ⟨rfl, rfl⟩) (.inr rfl) (.inr rfl) (.inr rfl) (.inl ⟨rfl, rfl⟩) (.inl ⟨rfl, rfl⟩) (.inl rfl) (.inr rfl) (.inr rfl) (.inr rfl) (.inr rfl) (.inr ⟨rfl, rfl⟩) (.inr rfl) (.inr rfl) (.inr rfl) (.inr rfl) (.inr rfl) (.inr rfl) (.inr rfl) (.inr rfl) (.inr rfl) (.inr rfl) (.inr rfl) (.inr rfl) (.inr rfl) (.inl (alw hF (by decide))) (.inr rfl) (.inl rfl) rfl
    exact h1
  · exact h1

theorem execQuiet_keeps (s : State) : ∃ s', execQuiet s = .next s' ∧
    Keeps [.van] s s' := by
  have hF : subF [.van] [.van] = true := by decide
  unfold execQuiet
  refine ⟨_, rfl, ?_⟩
  refine State.vanQuiet_keeps _ ?_ (subF_trans (by decide) hF)
  exact (Keeps.rfl' _ _)

theorem State.vanChanges_keeps {fs : List Zone} {s0 : State} (s : State) (t : State) (h1 : Keeps fs s0 s) (h2 : Keeps fs s0 t) (hF : subF [.block 1, .out] fs = true) :
    Keeps fs s0 (State.vanChanges s t) := by
  unfold State.vanChanges
  extract_lets -merge -underBinder y1517
  refine State.fireIf_keeps _ _ _ ?_ (subF_trans (by decide) hF)
  refine State.fireIf_keeps _ _ _ ?_ (subF_trans (by decide) hF)
  exact h2

theorem State.bridgeFrame_keeps {fs : List Zone} {s0 : State} (s : State) (h1 : Keeps fs s0 s) (hF : subF [.regs, .block 5, .van, .block 1, .out] fs = true) :
    Keeps fs s0 (State.bridgeFrame s) := by
  unfold State.bridgeFrame
  split
  · exact h1
  · extract_lets -merge -underBinder y1518 y1519 y1520 y1521 y1522 y1523 y1524 y1525 y1526 y1527 y1528
    have k1529 : Keeps fs s0 y1521 := by
      refine keeps_foldl _ _ ?_ ?_
      · exact h1
      · intro z1530 z1532 h1531
        refine setReg_keeps _ _ ?_ (alwR hF (by decide))
        exact h1531
    have k1533 : Keeps fs s0 y1522 := by
      refine setBit_keeps _ _ _ ?_ (alwB hF 5 rfl (by decide))
      refine setReg_keeps _ _ ?_ (alwB hF 5 rfl (by decide))
      refine setFld_keeps _ _ _ _ ?_ (alwB hF 5 rfl (by decide))
      refine setBit_keeps _ _ _ ?_ (alwB hF 5 rfl (by decide))
      exact k1529
    have k1534 : Keeps fs s0 y1523 := by
      refine keeps_foldl _ _ ?_ ?_
      · exact k1533
      · intro z1535 z1537 h1536
        refine setReg_keeps _ _ ?_ (alwR hF (by decide))
        exact h1536
    have k1538 : Keeps fs s0 y1525 := by
      refine Keeps.upd ?_ (.inr rfl) (.inl ⟨rfl, rfl⟩) (.inr rfl) (.inr rfl) (.inr rfl) (.inl ⟨rfl, rfl⟩) (.inl ⟨rfl, rfl⟩) (.inl rfl) (.inr rfl) (.inr rfl) (.inr rfl) (.inr rfl) (.inr ⟨rfl, rfl⟩) (.inr rfl) (.inr rfl) (.inr rfl) (.inr rfl) (.inr rfl) (.inr rfl) (.inr rfl) (.inr rfl) (.inr rfl) (.inr rfl) (.inr rfl) (.inr rfl) (.inr rfl) (.inl (alw hF (by decide))) (.inr rfl) (.inl rfl) rfl
      exact k1534
    have k1539 : Keeps fs s0 y1526 := by
      refine State.fireIf_keeps _ _ _ ?_ (subF_trans (by decide) hF)
      refine State.vanChanges_keeps _ _ ?_ ?_ (subF_trans (by decide) hF)
      · exact h1
      · exact k1538
    refine State.fireIf_keeps _ _ _ ?_ (subF_trans (by decide) hF)
    refine State.fireIf_keeps _ _ _ ?_ (subF_trans (by decide) hF)
    refine State.fireIf_keeps _ _ _ ?_ (subF_trans (by decide) hF)
    exact k1539

theorem execBridgeFrame_keeps (s : State) : ∃ s', execBridgeFrame s = .next s' ∧
    Keeps [.regs, .block 5, .van, .block 1, .out] s s' := by
  have hF : subF [.regs, .block 5, .van, .block 1, .out] [.regs, .block 5, .van, .block 1, .out] = true := by decide
  unfold execBridgeFrame
  refine ⟨_, rfl, ?_⟩
  refine State.bridgeFrame_keeps _ ?_ (subF_trans (by decide) hF)
  exact (Keeps.rfl' _ _)

theorem State.bridgeLost_keeps {fs : List Zone} {s0 : State} (s : State) (h1 : Keeps fs s0 s) (hF : subF [.regs, .block 1, .out, .van] fs = true) :
    Keeps fs s0 (State.bridgeLost s) := by
  unfold State.bridgeLost
  extract_lets -merge -underBinder y1540 y1541
  have k1542 : Keeps fs s0 y1540 := by
    refine keeps_foldl _ _ ?_ ?_
    · exact h1
    · intro z1543 z1545 h1544
      refine setReg_keeps _ _ ?_ (alwR hF (by decide))
      exact h1544
  refine keeps_ite ?_ ?_
  · refine State.fire_keeps _ _ ?_ (subF_trans (by decide) hF)
    refine State.vanChanges_keeps _ _ ?_ ?_ (subF_trans (by decide) hF)
    · exact h1
    · refine Keeps.upd ?_ (.inr rfl) (.inl ⟨rfl, rfl⟩) (.inr rfl) (.inr rfl) (.inr rfl) (.inl ⟨rfl, rfl⟩) (.inl ⟨rfl, rfl⟩) (.inl rfl) (.inr rfl) (.inr rfl) (.inr rfl) (.inr rfl) (.inr ⟨rfl, rfl⟩) (.inr rfl) (.inr rfl) (.inr rfl) (.inr rfl) (.inr rfl) (.inr rfl) (.inr rfl) (.inr rfl) (.inr rfl) (.inr rfl) (.inr rfl) (.inr rfl) (.inr rfl) (.inl (alw hF (by decide))) (.inr rfl) (.inl rfl) rfl
      exact k1542
  · exact h1

theorem execBridgeLinkLost_keeps (s : State) : ∃ s', execBridgeLinkLost s = .next s' ∧
    Keeps [.regs, .block 1, .out, .van] s s' := by
  have hF : subF [.regs, .block 1, .out, .van] [.regs, .block 1, .out, .van] = true := by decide
  unfold execBridgeLinkLost
  refine ⟨_, rfl, ?_⟩
  refine State.bridgeLost_keeps _ ?_ (subF_trans (by decide) hF)
  exact (Keeps.rfl' _ _)

theorem State.smcCtl_keeps {fs : List Zone} {s0 : State} (s : State) (v : Word) (h1 : Keeps fs s0 s) (hF : subF [.block 5, .van] fs = true) :
    Keeps fs s0 (State.smcCtl s v).1 := by
  unfold State.smcCtl
  extract_lets -merge -underBinder y1546 y1547 y1548 y1549 y1550
  have k1551 : Keeps fs s0 y1548 := by
    refine codeWrite_keeps _ _ ?_ (alwB hF 5 rfl (by decide))
    exact h1
  refine keeps_ite_fst ?_ ?_
  · refine keeps_mk_fst ?_
    exact h1
  · refine keeps_ite_fst ?_ ?_
    · refine keeps_mk_fst ?_
      refine setBit_keeps _ _ _ ?_ (alwB hF 5 rfl (by decide))
      refine Keeps.upd ?_ (.inr rfl) (.inl ⟨rfl, rfl⟩) (.inr rfl) (.inr rfl) (.inr rfl) (.inl ⟨rfl, rfl⟩) (.inl ⟨rfl, rfl⟩) (.inl rfl) (.inr rfl) (.inr rfl) (.inr rfl) (.inr rfl) (.inr ⟨rfl, rfl⟩) (.inr rfl) (.inr rfl) (.inr rfl) (.inr rfl) (.inr rfl) (.inr rfl) (.inr rfl) (.inr rfl) (.inr rfl) (.inr rfl) (.inr rfl) (.inr rfl) (.inr rfl) (.inl (alw hF (by decide))) (.inr rfl) (.inl rfl) rfl
      exact k1551
    · refine keeps_mk_fst ?_
      exact k1551

theorem execSmcSend_keeps (v : Word) (s : State) : ∃ s', execSmcSend v s = .next s' ∧
    Keeps [.block 5, .van] s s' := by
  have hF : subF [.block 5, .van] [.block 5, .van] = true := by decide
  unfold execSmcSend
  refine ⟨_, rfl, ?_⟩
  refine State.smcCtl_keeps _ _ ?_ (subF_trans (by decide) hF)
  exact (Keeps.rfl' _ _)

theorem State.gvWrite_keeps {fs : List Zone} {s0 : State} (s : State) (a : ℕ) (v : Word) (h1 : Keeps fs s0 s) (hF : subF [.block 5, .van, .regs] fs = true) :
    Keeps fs s0 (State.gvWrite s a v).1 := by
  unfold State.gvWrite
  refine keeps_ite_fst ?_ ?_
  · refine State.smcCtl_keeps _ _ ?_ (subF_trans (by decide) hF)
    exact h1
  · refine keeps_ite_fst ?_ ?_
    · refine keeps_mk_fst ?_
      refine codeWrite_keeps _ _ ?_ (alwR hF (by decide))
      exact h1
    · refine keeps_mk_fst ?_
      exact h1

end Sys2Proof.Machine
end

