-- ==== Sys2Proof/Laws/KeepsCoupler.lean ====
section
/-! SUPPORT. What each operation of Machine/Coupler.lean can change, one lemma an operation (Laws/KeepsBase.lean). -/

-- elaborated one declaration at a time, so that the package compiles as one text in bounded memory
set_option Elab.async false

namespace Sys2Proof.Machine

theorem State.setCplPort_keeps {fs : List Zone} {s0 : State} (s : State) (p : ℕ) (x : CplPort) (h1 : Keeps fs s0 s) (hF : subF [.cpl] fs = true) :
    Keeps fs s0 (State.setCplPort s p x) := by
  unfold State.setCplPort
  extract_lets -merge -underBinder y757
  refine Keeps.upd ?_ (.inr rfl) (.inl ⟨rfl, rfl⟩) (.inr rfl) (.inr rfl) (.inr rfl) (.inl ⟨rfl, rfl⟩) (.inl ⟨rfl, rfl⟩) (.inl rfl) (.inr rfl) (.inr rfl) (.inr rfl) (.inr rfl) (.inr ⟨rfl, rfl⟩) (.inr rfl) (.inr rfl) (.inr rfl) (.inr rfl) (.inr rfl) (.inl (alw hF (by decide))) (.inr rfl) (.inr rfl) (.inr rfl) (.inr rfl) (.inr rfl) (.inr rfl) (.inr rfl) (.inr rfl) (.inr rfl) (.inl rfl) rfl
  exact h1

theorem State.cplStatus_keeps {fs : List Zone} {s0 : State} (s : State) (h1 : Keeps fs s0 s) (hF : subF [.block 6] fs = true) :
    Keeps fs s0 (State.cplStatus s) := by
  unfold State.cplStatus
  extract_lets -merge -underBinder y758 y759
  refine setBit_keeps _ _ _ ?_ (alwB hF 6 rfl (by decide))
  refine setBit_keeps _ _ _ ?_ (alwB hF 6 rfl (by decide))
  exact h1

theorem State.rxDiscard_keeps {fs : List Zone} {s0 : State} (s : State) (h1 : Keeps fs s0 s) (hF : subF [.block 1, .out, .block 6, .cpl] fs = true) :
    Keeps fs s0 (State.rxDiscard s) := by
  unfold State.rxDiscard
  extract_lets -merge -underBinder y760
  refine State.fire_keeps _ _ ?_ (subF_trans (by decide) hF)
  refine satInc_keeps _ _ _ ?_ (alwB hF 6 rfl (by decide))
  refine Keeps.upd ?_ (.inr rfl) (.inl ⟨rfl, rfl⟩) (.inr rfl) (.inr rfl) (.inr rfl) (.inl ⟨rfl, rfl⟩) (.inl ⟨rfl, rfl⟩) (.inl rfl) (.inr rfl) (.inr rfl) (.inr rfl) (.inr rfl) (.inr ⟨rfl, rfl⟩) (.inr rfl) (.inr rfl) (.inr rfl) (.inr rfl) (.inr rfl) (.inl (alw hF (by decide))) (.inr rfl) (.inr rfl) (.inr rfl) (.inr rfl) (.inr rfl) (.inr rfl) (.inr rfl) (.inr rfl) (.inr rfl) (.inl rfl) rfl
  exact h1

theorem State.sweepBreak_keeps {fs : List Zone} {s0 : State} (s : State) (h1 : Keeps fs s0 s) (hF : subF [.block 1, .out, .block 0, .tkt, .cpl] fs = true) :
    Keeps fs s0 (State.sweepBreak s) := by
  unfold State.sweepBreak
  split
  · exact h1
  · extract_lets -merge -underBinder y761
    refine State.mbReason_keeps _ _ _ _ _ _ ?_ (subF_trans (by decide) hF)
    refine State.setRsp_keeps _ _ _ _ ?_ (subF_trans (by decide) hF)
    refine Keeps.upd ?_ (.inr rfl) (.inl ⟨rfl, rfl⟩) (.inr rfl) (.inr rfl) (.inr rfl) (.inl ⟨rfl, rfl⟩) (.inl ⟨rfl, rfl⟩) (.inl rfl) (.inr rfl) (.inr rfl) (.inr rfl) (.inr rfl) (.inr ⟨rfl, rfl⟩) (.inr rfl) (.inr rfl) (.inr rfl) (.inr rfl) (.inr rfl) (.inl (alw hF (by decide))) (.inr rfl) (.inr rfl) (.inr rfl) (.inr rfl) (.inr rfl) (.inr rfl) (.inr rfl) (.inr rfl) (.inr rfl) (.inl rfl) rfl
    exact h1

theorem State.setCplState_keeps {fs : List Zone} {s0 : State} (s : State) (p : ℕ) (n : ℕ) (h1 : Keeps fs s0 s) (hF : subF [.block 6, .cpl, .block 1, .out, .block 0, .tkt] fs = true) :
    Keeps fs s0 (State.setCplState s p n) := by
  unfold State.setCplState
  extract_lets -merge -underBinder y762 y763 y764 y765 y766 y767 y768 y769 y770 y771
  have k772 : Keeps fs s0 y763 := by
    refine setFld_keeps _ _ _ _ ?_ (alwL hF 6 0 (by simp only [cplReg, Reg.CPL_PSTAT]; omega))
    exact h1
  have k773 : Keeps fs s0 y765 := by
    refine keeps_ite ?_ ?_
    · refine State.setCplPort_keeps _ _ _ ?_ (subF_trans (by decide) hF)
      exact k772
    · exact k772
  have k774 : Keeps fs s0 y767 := by
    refine keeps_ite ?_ ?_
    · refine keeps_ite ?_ ?_
      · refine State.rxDiscard_keeps _ ?_ (subF_trans (by decide) hF)
        exact k773
      · exact k773
    · refine State.sweepBreak_keeps _ ?_ (subF_trans (by decide) hF)
      refine setBit_keeps _ _ _ ?_ (alwB hF 6 rfl (by decide))
      refine Keeps.upd ?_ (.inr rfl) (.inl ⟨rfl, rfl⟩) (.inr rfl) (.inr rfl) (.inr rfl) (.inl ⟨rfl, rfl⟩) (.inl ⟨rfl, rfl⟩) (.inl rfl) (.inr rfl) (.inr rfl) (.inr rfl) (.inr rfl) (.inr ⟨rfl, rfl⟩) (.inr rfl) (.inr rfl) (.inr rfl) (.inr rfl) (.inr rfl) (.inl (alw hF (by decide))) (.inr rfl) (.inr rfl) (.inr rfl) (.inr rfl) (.inr rfl) (.inr rfl) (.inr rfl) (.inr rfl) (.inr rfl) (.inl rfl) rfl
      exact k773
  have k775 : Keeps fs s0 y770 := by
    refine keeps_ite ?_ ?_
    · refine Keeps.upd ?_ (.inr rfl) (.inl ⟨rfl, rfl⟩) (.inr rfl) (.inr rfl) (.inr rfl) (.inl ⟨rfl, rfl⟩) (.inl ⟨rfl, rfl⟩) (.inl rfl) (.inr rfl) (.inr rfl) (.inr rfl) (.inr rfl) (.inr ⟨rfl, rfl⟩) (.inr rfl) (.inr rfl) (.inr rfl) (.inr rfl) (.inr rfl) (.inl (alw hF (by decide))) (.inr rfl) (.inr rfl) (.inr rfl) (.inr rfl) (.inr rfl) (.inr rfl) (.inr rfl) (.inr rfl) (.inr rfl) (.inl rfl) rfl
      exact k773
    · refine Keeps.upd ?_ (.inr rfl) (.inl ⟨rfl, rfl⟩) (.inr rfl) (.inr rfl) (.inr rfl) (.inl ⟨rfl, rfl⟩) (.inl ⟨rfl, rfl⟩) (.inl rfl) (.inr rfl) (.inr rfl) (.inr rfl) (.inr rfl) (.inr ⟨rfl, rfl⟩) (.inr rfl) (.inr rfl) (.inr rfl) (.inr rfl) (.inr rfl) (.inl (alw hF (by decide))) (.inr rfl) (.inr rfl) (.inr rfl) (.inr rfl) (.inr rfl) (.inr rfl) (.inr rfl) (.inr rfl) (.inr rfl) (.inl rfl) rfl
      exact k773
  have k776 : Keeps fs s0 y771 := by
    refine keeps_ite ?_ ?_
    · refine State.fire_keeps _ _ ?_ (subF_trans (by decide) hF)
      exact k774
    · refine keeps_ite ?_ ?_
      · refine State.fire_keeps _ _ ?_ (subF_trans (by decide) hF)
        exact k775
      · exact k773
  refine State.cplStatus_keeps _ ?_ (subF_trans (by decide) hF)
  exact k776

theorem State.cplSend_keeps {fs : List Zone} {s0 : State} (s : State) (p : ℕ) (ty : ℕ) (arg : Word) (ws : List Word64) (h1 : Keeps fs s0 s) (hF : subF [.cpl, .out] fs = true) :
    Keeps fs s0 (State.cplSend s p ty arg ws) := by
  unfold State.cplSend
  extract_lets -merge -underBinder y777
  refine State.setCplPort_keeps _ _ _ ?_ (subF_trans (by decide) hF)
  refine State.emit_keeps _ _ ?_ (subF_trans (by decide) hF)
  exact h1

theorem State.cplForward_keeps {fs : List Zone} {s0 : State} (s : State) (p : ℕ) (ty : ℕ) (f : CplFrame) (h1 : Keeps fs s0 s) (hF : subF [.out] fs = true) :
    Keeps fs s0 (State.cplForward s p ty f) := by
  unfold State.cplForward
  refine keeps_ite ?_ ?_
  · refine State.emit_keeps _ _ ?_ (subF_trans (by decide) hF)
    exact h1
  · exact h1

theorem State.frameError_keeps {fs : List Zone} {s0 : State} (s : State) (p : ℕ) (ofGen : Bool) (h1 : Keeps fs s0 s) (hF : subF [.block 1, .out, .block 6, .cpl] fs = true) :
    Keeps fs s0 (State.frameError s p ofGen) := by
  unfold State.frameError
  extract_lets -merge -underBinder y778
  have k779 : Keeps fs s0 y778 := by
    refine State.fire_keeps _ _ ?_ (subF_trans (by decide) hF)
    refine satInc_keeps _ _ _ ?_ (alwL hF 6 0 (by simp only [cplReg, Reg.CPL_PERR]; omega))
    exact h1
  refine keeps_ite ?_ ?_
  · refine keeps_ite ?_ ?_
    · refine State.rxDiscard_keeps _ ?_ (subF_trans (by decide) hF)
      exact k779
    · exact k779
  · exact h1

theorem execCplFrameError_keeps (p : ℕ) (ofGen : Bool) (s : State) : ∃ s', execCplFrameError p ofGen s = .next s' ∧
    Keeps [.block 1, .out, .block 6, .cpl] s s' := by
  have hF : subF [.block 1, .out, .block 6, .cpl] [.block 1, .out, .block 6, .cpl] = true := by decide
  unfold execCplFrameError
  refine ⟨_, rfl, ?_⟩
  refine State.frameError_keeps _ _ _ ?_ (subF_trans (by decide) hF)
  exact (Keeps.rfl' _ _)

theorem State.frameIn_keeps {fs : List Zone} {s0 : State} (s : State) (p : ℕ) (ty : ℕ) (f : CplFrame) (k : State → State) (h1 : Keeps fs s0 s) (h5 : ∀ u780, Keeps fs s0 u780 → Keeps fs s0 (k u780)) (hF : subF [.block 1, .out, .block 6, .cpl] fs = true) :
    Keeps fs s0 (State.frameIn s p ty f k) := by
  unfold State.frameIn
  refine keeps_ite ?_ ?_
  · refine keeps_ite ?_ ?_
    · refine h5 _ ?_
      exact h1
    · refine State.frameError_keeps _ _ _ ?_ (subF_trans (by decide) hF)
      exact h1
  · refine keeps_ite ?_ ?_
    · refine State.cplSend_keeps _ _ _ _ _ ?_ (subF_trans (by decide) hF)
      exact h1
    · exact h1

theorem State.pairIf_keeps {fs : List Zone} {s0 : State} (s : State) (p : ℕ) (h1 : Keeps fs s0 s) (hF : subF [.block 6, .cpl, .block 1, .out, .block 0, .tkt] fs = true) :
    Keeps fs s0 (State.pairIf s p) := by
  unfold State.pairIf
  refine keeps_ite ?_ ?_
  · refine State.setCplState_keeps _ _ _ ?_ (subF_trans (by decide) hF)
    exact h1
  · exact h1

theorem State.hello_keeps {fs : List Zone} {s0 : State} (s : State) (p : ℕ) (f : CplFrame) (h1 : Keeps fs s0 s) (hF : subF [.block 1, .out, .block 6, .cpl, .block 0, .tkt] fs = true) :
    Keeps fs s0 (State.hello s p f) := by
  unfold State.hello
  refine State.frameIn_keeps _ _ _ _ _ ?_ ?_ (subF_trans (by decide) hF)
  · exact h1
  · intro z781 h782
    extract_lets -merge -underBinder y783 y784 y785 y786 y787 y788
    have k789 : Keeps fs s0 y784 := by
      refine keeps_ite ?_ ?_
      · refine Keeps.upd ?_ (.inr rfl) (.inl ⟨rfl, rfl⟩) (.inr rfl) (.inr rfl) (.inr rfl) (.inl ⟨rfl, rfl⟩) (.inl ⟨rfl, rfl⟩) (.inl rfl) (.inr rfl) (.inr rfl) (.inr rfl) (.inr rfl) (.inr ⟨rfl, rfl⟩) (.inr rfl) (.inr rfl) (.inr rfl) (.inr rfl) (.inr rfl) (.inl (alw hF (by decide))) (.inr rfl) (.inr rfl) (.inr rfl) (.inr rfl) (.inr rfl) (.inr rfl) (.inr rfl) (.inr rfl) (.inr rfl) (.inl rfl) rfl
        exact h782
      · exact h782
    have k790 : Keeps fs s0 y786 := by
      refine setFld_keeps _ _ _ _ ?_ (alwL hF 6 0 (by simp only [cplReg, Reg.CPL_PSTAT]; omega))
      exact k789
    have k791 : Keeps fs s0 y787 := by
      refine keeps_ite ?_ ?_
      · refine setFld_keeps _ _ _ _ ?_ (alwB hF 6 rfl (by decide))
        exact k790
      · exact k790
    refine keeps_ite ?_ ?_
    · refine keeps_ite ?_ ?_
      · refine State.pairIf_keeps _ _ ?_ (subF_trans (by decide) hF)
        refine State.setCplPort_keeps _ _ _ ?_ (subF_trans (by decide) hF)
        exact k791
      · exact k790
    · exact k789

theorem State.helloSend_keeps {fs : List Zone} {s0 : State} (s : State) (p : ℕ) (h1 : Keeps fs s0 s) (hF : subF [.cpl, .out, .block 6, .block 1, .block 0, .tkt] fs = true) :
    Keeps fs s0 (State.helloSend s p) := by
  unfold State.helloSend
  extract_lets -merge -underBinder y792 y793 y794
  have k795 : Keeps fs s0 y793 := by
    refine State.cplSend_keeps _ _ _ _ _ ?_ (subF_trans (by decide) hF)
    exact h1
  refine keeps_ite ?_ ?_
  · refine State.pairIf_keeps _ _ ?_ (subF_trans (by decide) hF)
    refine State.setCplPort_keeps _ _ _ ?_ (subF_trans (by decide) hF)
    exact k795
  · exact h1

theorem State.laneLock_keeps {fs : List Zone} {s0 : State} (s : State) (p : ℕ) (h1 : Keeps fs s0 s) (hF : subF [.block 6, .cpl, .block 1, .out, .block 0, .tkt] fs = true) :
    Keeps fs s0 (State.laneLock s p) := by
  unfold State.laneLock
  refine keeps_ite ?_ ?_
  · refine State.setCplState_keeps _ _ _ ?_ (subF_trans (by decide) hF)
    exact h1
  · exact h1

theorem execLaneLock_keeps (p : ℕ) (s : State) : ∃ s', execLaneLock p s = .next s' ∧
    Keeps [.block 6, .cpl, .block 1, .out, .block 0, .tkt] s s' := by
  have hF : subF [.block 6, .cpl, .block 1, .out, .block 0, .tkt] [.block 6, .cpl, .block 1, .out, .block 0, .tkt] = true := by decide
  unfold execLaneLock
  refine ⟨_, rfl, ?_⟩
  refine State.laneLock_keeps _ _ ?_ (subF_trans (by decide) hF)
  exact (Keeps.rfl' _ _)

theorem State.laneLost_keeps {fs : List Zone} {s0 : State} (s : State) (p : ℕ) (h1 : Keeps fs s0 s) (hF : subF [.block 6, .cpl, .block 1, .out, .block 0, .tkt] fs = true) :
    Keeps fs s0 (State.laneLost s p) := by
  unfold State.laneLost
  refine keeps_ite ?_ ?_
  · refine State.setCplState_keeps _ _ _ ?_ (subF_trans (by decide) hF)
    exact h1
  · exact h1

theorem execLaneLockLost_keeps (p : ℕ) (s : State) : ∃ s', execLaneLockLost p s = .next s' ∧
    Keeps [.block 6, .cpl, .block 1, .out, .block 0, .tkt] s s' := by
  have hF : subF [.block 6, .cpl, .block 1, .out, .block 0, .tkt] [.block 6, .cpl, .block 1, .out, .block 0, .tkt] = true := by decide
  unfold execLaneLockLost
  refine ⟨_, rfl, ?_⟩
  refine State.laneLost_keeps _ _ ?_ (subF_trans (by decide) hF)
  exact (Keeps.rfl' _ _)

theorem State.retrain_keeps {fs : List Zone} {s0 : State} (s : State) (p : ℕ) (h1 : Keeps fs s0 s) (hF : subF [.block 6, .cpl, .block 1, .out, .block 0, .tkt] fs = true) :
    Keeps fs s0 (State.retrain s p) := by
  unfold State.retrain
  refine keeps_ite ?_ ?_
  · refine State.setCplState_keeps _ _ _ ?_ (subF_trans (by decide) hF)
    exact h1
  · exact h1

theorem execLostRetrain_keeps (p : ℕ) (s : State) : ∃ s', execLostRetrain p s = .next s' ∧
    Keeps [.block 6, .cpl, .block 1, .out, .block 0, .tkt] s s' := by
  have hF : subF [.block 6, .cpl, .block 1, .out, .block 0, .tkt] [.block 6, .cpl, .block 1, .out, .block 0, .tkt] = true := by decide
  unfold execLostRetrain
  refine ⟨_, rfl, ?_⟩
  refine State.retrain_keeps _ _ ?_ (subF_trans (by decide) hF)
  exact (Keeps.rfl' _ _)

theorem State.cplEnable_keeps {fs : List Zone} {s0 : State} (s : State) (v : Word) (h1 : Keeps fs s0 s) (hF : subF [.block 6, .cpl, .block 1, .out, .block 0, .tkt] fs = true) :
    Keeps fs s0 (State.cplEnable s v) := by
  unfold State.cplEnable
  extract_lets -merge -underBinder y796
  have k797 : Keeps fs s0 y796 := by
    refine codeWrite_keeps _ _ ?_ (alwB hF 6 rfl (by decide))
    exact h1
  refine State.cplStatus_keeps _ ?_ (subF_trans (by decide) hF)
  refine keeps_foldl _ _ ?_ ?_
  · exact k797
  · intro z798 z800 h799
    refine keeps_ite ?_ ?_
    · refine keeps_ite ?_ ?_
      · exact h799
      · refine State.setCplState_keeps _ _ _ ?_ (subF_trans (by decide) hF)
        exact h799
    · refine keeps_ite ?_ ?_
      · exact h799
      · refine State.setCplState_keeps _ _ _ ?_ (subF_trans (by decide) hF)
        exact h799

theorem State.cplCtl_keeps {fs : List Zone} {s0 : State} (s : State) (v : Word) (h1 : Keeps fs s0 s) (hF : subF [.block 6, .cpl, .block 1, .out, .block 0, .tkt] fs = true) :
    Keeps fs s0 (State.cplCtl s v).1 := by
  unfold State.cplCtl
  refine keeps_ite_fst ?_ ?_
  · exact keeps_mk_fst h1
  · exact keeps_mk_fst (State.cplEnable_keeps _ _ h1 (subF_trans (by decide) hF))

theorem execCplCtlWrite_keeps (v : Word) (s : State) : ∃ s', execCplCtlWrite v s = .next s' ∧
    Keeps [.block 6, .cpl, .block 1, .out, .block 0, .tkt] s s' := by
  have hF : subF [.block 6, .cpl, .block 1, .out, .block 0, .tkt] [.block 6, .cpl, .block 1, .out, .block 0, .tkt] = true := by decide
  unfold execCplCtlWrite
  refine ⟨_, rfl, ?_⟩
  refine State.cplCtl_keeps _ _ ?_ (subF_trans (by decide) hF)
  exact (Keeps.rfl' _ _)

theorem State.heartbeatSend_keeps {fs : List Zone} {s0 : State} (s : State) (p : ℕ) (h1 : Keeps fs s0 s) (hF : subF [.cpl, .out] fs = true) :
    Keeps fs s0 (State.heartbeatSend s p) := by
  unfold State.heartbeatSend
  extract_lets -merge -underBinder y801
  refine keeps_ite ?_ ?_
  · refine State.cplSend_keeps _ _ _ _ _ ?_ (subF_trans (by decide) hF)
    exact h1
  · exact h1

theorem execHeartbeatSend_keeps (p : ℕ) (s : State) : ∃ s', execHeartbeatSend p s = .next s' ∧
    Keeps [.cpl, .out] s s' := by
  have hF : subF [.cpl, .out] [.cpl, .out] = true := by decide
  unfold execHeartbeatSend
  refine ⟨_, rfl, ?_⟩
  refine State.heartbeatSend_keeps _ _ ?_ (subF_trans (by decide) hF)
  exact (Keeps.rfl' _ _)

theorem State.heartbeat_keeps {fs : List Zone} {s0 : State} (s : State) (p : ℕ) (f : CplFrame) (h1 : Keeps fs s0 s) (hF : subF [.block 1, .out, .block 6, .cpl] fs = true) :
    Keeps fs s0 (State.heartbeat s p f) := by
  unfold State.heartbeat
  refine State.frameIn_keeps _ _ _ _ _ ?_ ?_ (subF_trans (by decide) hF)
  · exact h1
  · intro z802 h803
    extract_lets -merge -underBinder y804 y805 y806 y807
    have k808 : Keeps fs s0 y807 := by
      refine State.setCplPort_keeps _ _ _ ?_ (subF_trans (by decide) hF)
      refine setBit_keeps _ _ _ ?_ (alwL hF 6 0 (by simp only [y804, cplReg, Reg.CPL_PSTAT]; omega))
      refine setFld_keeps _ _ _ _ ?_ (alwL hF 6 0 (by simp only [y804, cplReg, Reg.CPL_PSTAT]; omega))
      exact h803
    refine keeps_ite ?_ ?_
    · refine keeps_ite ?_ ?_
      · exact k808
      · refine State.fire_keeps _ _ ?_ (subF_trans (by decide) hF)
        refine setBit_keeps _ _ _ ?_ (alwL hF 6 0 (by simp only [y804, cplReg, Reg.CPL_PSTAT]; omega))
        exact k808
    · refine keeps_ite ?_ ?_
      · refine setBit_keeps _ _ _ ?_ (alwL hF 6 0 (by simp only [y804, cplReg, Reg.CPL_PSTAT]; omega))
        exact k808
      · exact k808

theorem execHeartbeat_keeps (p : ℕ) (f : CplFrame) (s : State) : ∃ s', execHeartbeat p f s = .next s' ∧
    Keeps [.block 1, .out, .block 6, .cpl] s s' := by
  have hF : subF [.block 1, .out, .block 6, .cpl] [.block 1, .out, .block 6, .cpl] = true := by decide
  unfold execHeartbeat
  refine ⟨_, rfl, ?_⟩
  refine State.heartbeat_keeps _ _ _ ?_ (subF_trans (by decide) hF)
  exact (Keeps.rfl' _ _)

theorem State.heartbeatLimit_keeps {fs : List Zone} {s0 : State} (s : State) (p : ℕ) (h1 : Keeps fs s0 s) (hF : subF [.block 1, .out, .block 6, .cpl, .block 0, .tkt] fs = true) :
    Keeps fs s0 (State.heartbeatLimit s p) := by
  unfold State.heartbeatLimit
  extract_lets -merge -underBinder y809
  refine keeps_ite ?_ ?_
  · refine State.fire_keeps _ _ ?_ (subF_trans (by decide) hF)
    refine satInc_keeps _ _ _ ?_ (alwL hF 6 0 (by simp only [cplReg, Reg.CPL_PERR]; omega))
    refine State.setCplState_keeps _ _ _ ?_ (subF_trans (by decide) hF)
    refine Keeps.upd ?_ (.inr rfl) (.inl ⟨rfl, rfl⟩) (.inr rfl) (.inr rfl) (.inr rfl) (.inl ⟨rfl, rfl⟩) (.inl ⟨rfl, rfl⟩) (.inl rfl) (.inr rfl) (.inr rfl) (.inr rfl) (.inr rfl) (.inr ⟨rfl, rfl⟩) (.inr rfl) (.inr rfl) (.inr rfl) (.inr rfl) (.inr rfl) (.inl (alw hF (by decide))) (.inr rfl) (.inr rfl) (.inr rfl) (.inr rfl) (.inr rfl) (.inr rfl) (.inr rfl) (.inr rfl) (.inr rfl) (.inl rfl) rfl
    exact h1
  · exact h1

theorem execHeartbeatLimit_keeps (p : ℕ) (s : State) : ∃ s', execHeartbeatLimit p s = .next s' ∧
    Keeps [.block 1, .out, .block 6, .cpl, .block 0, .tkt] s s' := by
  have hF : subF [.block 1, .out, .block 6, .cpl, .block 0, .tkt] [.block 1, .out, .block 6, .cpl, .block 0, .tkt] = true := by decide
  unfold execHeartbeatLimit
  refine ⟨_, rfl, ?_⟩
  refine State.heartbeatLimit_keeps _ _ ?_ (subF_trans (by decide) hF)
  exact (Keeps.rfl' _ _)

theorem State.setHalfWord_keeps {fs : List Zone} {s0 : State} (s : State) (i : ℕ) (w : ℕ) (v : Word64) (h1 : Keeps fs s0 s) (hF : subF [.cpl] fs = true) :
    Keeps fs s0 (State.setHalfWord s i w v) := by
  unfold State.setHalfWord
  extract_lets -merge -underBinder y810
  refine Keeps.upd ?_ (.inr rfl) (.inl ⟨rfl, rfl⟩) (.inr rfl) (.inr rfl) (.inr rfl) (.inl ⟨rfl, rfl⟩) (.inl ⟨rfl, rfl⟩) (.inl rfl) (.inr rfl) (.inr rfl) (.inr rfl) (.inr rfl) (.inr ⟨rfl, rfl⟩) (.inr rfl) (.inr rfl) (.inr rfl) (.inr rfl) (.inr rfl) (.inl (alw hF (by decide))) (.inr rfl) (.inr rfl) (.inr rfl) (.inr rfl) (.inr rfl) (.inr rfl) (.inr rfl) (.inr rfl) (.inr rfl) (.inl rfl) rfl
  exact h1

theorem State.halfWrite_keeps {fs : List Zone} {s0 : State} (s : State) (i : ℕ) (w : ℕ) (v : Word64) (be : BitVec 8) (h1 : Keeps fs s0 s) (hF : subF [.cpl] fs = true) :
    Keeps fs s0 (State.halfWrite s i w v be).1 := by
  unfold State.halfWrite
  refine keeps_ite_fst ?_ ?_
  · refine keeps_mk_fst ?_
    exact h1
  · refine keeps_ite_fst ?_ ?_
    · refine keeps_mk_fst ?_
      exact h1
    · refine keeps_mk_fst ?_
      refine State.setHalfWord_keeps _ _ _ _ ?_ (subF_trans (by decide) hF)
      exact h1

theorem State.txSend_keeps {fs : List Zone} {s0 : State} (s : State) (v : Word) (h1 : Keeps fs s0 s) (hF : subF [.block 6, .cpl, .free, .out] fs = true) :
    Keeps fs s0 (State.txSend s v) := by
  unfold State.txSend
  extract_lets -merge -underBinder y811 y812 y813 y814 y815 y816 y817 y818
  have k819 : Keeps fs s0 y811 := by
    refine codeWrite_keeps _ _ ?_ (alwB hF 6 rfl (by decide))
    exact h1
  have k820 : Keeps fs s0 y816 := by
    refine setBit_keeps _ _ _ ?_ (alwB hF 6 rfl (by decide))
    refine setFld_keeps _ _ _ _ ?_ (alwB hF 6 rfl (by decide))
    exact k819
  have k821 : Keeps fs s0 y818 := by
    refine Keeps.upd ?_ (.inr rfl) (.inl ⟨rfl, rfl⟩) (.inr rfl) (.inr rfl) (.inr rfl) (.inl ⟨rfl, rfl⟩) (.inl ⟨rfl, rfl⟩) (.inl rfl) (.inr rfl) (.inr rfl) (.inr rfl) (.inr rfl) (.inr ⟨rfl, rfl⟩) (.inr rfl) (.inr rfl) (.inr rfl) (.inr rfl) (.inr rfl) (.inl (alw hF (by decide))) (.inr rfl) (.inr rfl) (.inr rfl) (.inr rfl) (.inr rfl) (.inr rfl) (.inr rfl) (.inr rfl) (.inr rfl) (.inl rfl) rfl
    exact k820
  refine keeps_ite ?_ ?_
  · exact k819
  · refine keeps_ite ?_ ?_
    · refine setBit_keeps _ _ _ ?_ (alwB hF 6 rfl (by decide))
      exact k819
    · refine State.useFree_keeps _ ?_ (subF_trans (by decide) hF)
      refine keeps_foldl _ _ ?_ ?_
      · exact k821
      · intro z822 z824 h823
        refine State.cplSend_keeps _ _ _ _ _ ?_ (subF_trans (by decide) hF)
        exact h823

theorem execCplTxSend_keeps (v : Word) (s : State) : ∃ s', execCplTxSend v s = .next s' ∧
    Keeps [.block 6, .cpl, .free, .out] s s' := by
  have hF : subF [.block 6, .cpl, .free, .out] [.block 6, .cpl, .free, .out] = true := by decide
  unfold execCplTxSend
  refine ⟨_, rfl, ?_⟩
  refine State.txSend_keeps _ _ ?_ (subF_trans (by decide) hF)
  exact (Keeps.rfl' _ _)

theorem State.genSent_keeps {fs : List Zone} {s0 : State} (s : State) (h1 : Keeps fs s0 s) (hF : subF [.free, .cpl, .out, .block 1, .block 6] fs = true) :
    Keeps fs s0 (State.genSent s) := by
  unfold State.genSent
  split
  · exact h1
  · extract_lets -merge -underBinder y825 y826
    have k827 : Keeps fs s0 y825 := by
      refine State.useFree_keeps _ ?_ (subF_trans (by decide) hF)
      refine State.cplSend_keeps _ _ _ _ _ ?_ (subF_trans (by decide) hF)
      exact h1
    refine State.fire_keeps _ _ ?_ (subF_trans (by decide) hF)
    refine setBit_keeps _ _ _ ?_ (alwB hF 6 rfl (by decide))
    refine Keeps.upd ?_ (.inr rfl) (.inl ⟨rfl, rfl⟩) (.inr rfl) (.inr rfl) (.inr rfl) (.inl ⟨rfl, rfl⟩) (.inl ⟨rfl, rfl⟩) (.inl rfl) (.inr rfl) (.inr rfl) (.inr rfl) (.inr rfl) (.inr ⟨rfl, rfl⟩) (.inr rfl) (.inr rfl) (.inr rfl) (.inr rfl) (.inr rfl) (.inl (alw hF (by decide))) (.inr rfl) (.inr rfl) (.inr rfl) (.inr rfl) (.inr rfl) (.inr rfl) (.inr rfl) (.inr rfl) (.inr rfl) (.inl rfl) rfl
    exact k827

theorem execCplGenSent_keeps (s : State) : ∃ s', execCplGenSent s = .next s' ∧
    Keeps [.free, .cpl, .out, .block 1, .block 6] s s' := by
  have hF : subF [.free, .cpl, .out, .block 1, .block 6] [.free, .cpl, .out, .block 1, .block 6] = true := by decide
  unfold execCplGenSent
  refine ⟨_, rfl, ?_⟩
  refine State.genSent_keeps _ ?_ (subF_trans (by decide) hF)
  exact (Keeps.rfl' _ _)

theorem State.mirrorIn_keeps {fs : List Zone} {s0 : State} (s : State) (p : ℕ) (f : CplFrame) (h1 : Keeps fs s0 s) (hF : subF [.block 1, .out, .block 6, .cpl] fs = true) :
    Keeps fs s0 (State.mirrorIn s p f) := by
  unfold State.mirrorIn
  refine State.frameIn_keeps _ _ _ _ _ ?_ ?_ (subF_trans (by decide) hF)
  · exact h1
  · intro z828 h829
    extract_lets -merge -underBinder y830 y831 y832 y833 y834 y835
    have k836 : Keeps fs s0 y832 := by
      unfold y832
      split
      · refine keeps_ite ?_ ?_
        · exact h829
        · refine State.rxDiscard_keeps _ ?_ (subF_trans (by decide) hF)
          exact h829
      · exact h829
    have k837 : Keeps fs s0 y834 := by
      refine keeps_foldl _ _ ?_ ?_
      · exact k836
      · intro z838 z840 h839
        refine State.setHalfWord_keeps _ _ _ _ ?_ (subF_trans (by decide) hF)
        exact h839
    refine keeps_ite ?_ ?_
    · exact h829
    · refine State.cplForward_keeps _ _ _ _ ?_ (subF_trans (by decide) hF)
      refine Keeps.upd ?_ (.inr rfl) (.inl ⟨rfl, rfl⟩) (.inr rfl) (.inr rfl) (.inr rfl) (.inl ⟨rfl, rfl⟩) (.inl ⟨rfl, rfl⟩) (.inl rfl) (.inr rfl) (.inr rfl) (.inr rfl) (.inr rfl) (.inr ⟨rfl, rfl⟩) (.inr rfl) (.inr rfl) (.inr rfl) (.inr rfl) (.inr rfl) (.inl (alw hF (by decide))) (.inr rfl) (.inr rfl) (.inr rfl) (.inr rfl) (.inr rfl) (.inr rfl) (.inr rfl) (.inr rfl) (.inr rfl) (.inl rfl) rfl
      exact k837

theorem execMirror_keeps (p : ℕ) (f : CplFrame) (s : State) : ∃ s', execMirror p f s = .next s' ∧
    Keeps [.block 1, .out, .block 6, .cpl] s s' := by
  have hF : subF [.block 1, .out, .block 6, .cpl] [.block 1, .out, .block 6, .cpl] = true := by decide
  unfold execMirror
  refine ⟨_, rfl, ?_⟩
  refine State.mirrorIn_keeps _ _ _ ?_ (subF_trans (by decide) hF)
  exact (Keeps.rfl' _ _)

theorem State.commitIn_keeps {fs : List Zone} {s0 : State} (s : State) (p : ℕ) (f : CplFrame) (h1 : Keeps fs s0 s) (hF : subF [.block 1, .out, .block 6, .cpl, .free] fs = true) :
    Keeps fs s0 (State.commitIn s p f) := by
  unfold State.commitIn
  refine State.frameIn_keeps _ _ _ _ _ ?_ ?_ (subF_trans (by decide) hF)
  · exact h1
  · intro z841 h842
    extract_lets -merge -underBinder y843 y844 y845 y846 y847 y848 y849 y850 y851 y852 y853 y854 y855 y856
    have k857 : Keeps fs s0 y847 := by
      refine State.useFree_keeps _ ?_ (subF_trans (by decide) hF)
      exact h842
    have k858 : Keeps fs s0 y848 := by
      refine setBit_keeps _ _ _ ?_ (alwB hF 6 rfl (by decide))
      refine setReg_keeps _ _ ?_ (alwB hF 6 rfl (by decide))
      refine setFld_keeps _ _ _ _ ?_ (alwB hF 6 rfl (by decide))
      refine setFld_keeps _ _ _ _ ?_ (alwB hF 6 rfl (by decide))
      exact k857
    have k859 : Keeps fs s0 y850 := by
      refine State.fire_keeps _ _ ?_ (subF_trans (by decide) hF)
      refine Keeps.upd ?_ (.inr rfl) (.inl ⟨rfl, rfl⟩) (.inr rfl) (.inr rfl) (.inr rfl) (.inl ⟨rfl, rfl⟩) (.inl ⟨rfl, rfl⟩) (.inl rfl) (.inr rfl) (.inr rfl) (.inr rfl) (.inr rfl) (.inr ⟨rfl, rfl⟩) (.inr rfl) (.inr rfl) (.inr rfl) (.inr rfl) (.inr rfl) (.inl (alw hF (by decide))) (.inr rfl) (.inr rfl) (.inr rfl) (.inr rfl) (.inr rfl) (.inr rfl) (.inr rfl) (.inr rfl) (.inr rfl) (.inl rfl) rfl
      exact k858
    have k860 : Keeps fs s0 y855 := by
      refine Keeps.upd ?_ (.inr rfl) (.inl ⟨rfl, rfl⟩) (.inr rfl) (.inr rfl) (.inr rfl) (.inl ⟨rfl, rfl⟩) (.inl ⟨rfl, rfl⟩) (.inl rfl) (.inr rfl) (.inr rfl) (.inr rfl) (.inr rfl) (.inr ⟨rfl, rfl⟩) (.inr rfl) (.inr rfl) (.inr rfl) (.inr rfl) (.inr rfl) (.inl (alw hF (by decide))) (.inr rfl) (.inr rfl) (.inr rfl) (.inr rfl) (.inr rfl) (.inr rfl) (.inr rfl) (.inr rfl) (.inr rfl) (.inl rfl) rfl
      exact k859
    have k861 : Keeps fs s0 y856 := by
      refine keeps_ite ?_ ?_
      · refine keeps_ite ?_ ?_
        · refine State.fire_keeps _ _ ?_ (subF_trans (by decide) hF)
          refine setBit_keeps _ _ _ ?_ (alwB hF 6 rfl (by decide))
          exact k860
        · exact k860
      · refine State.rxDiscard_keeps _ ?_ (subF_trans (by decide) hF)
        exact k857
    refine keeps_ite ?_ ?_
    · exact h842
    · refine State.cplForward_keeps _ _ _ _ ?_ (subF_trans (by decide) hF)
      exact k861

theorem execCommit_keeps (p : ℕ) (f : CplFrame) (s : State) : ∃ s', execCommit p f s = .next s' ∧
    Keeps [.block 1, .out, .block 6, .cpl, .free] s s' := by
  have hF : subF [.block 1, .out, .block 6, .cpl, .free] [.block 1, .out, .block 6, .cpl, .free] = true := by decide
  unfold execCommit
  refine ⟨_, rfl, ?_⟩
  refine State.commitIn_keeps _ _ _ ?_ (subF_trans (by decide) hF)
  exact (Keeps.rfl' _ _)

theorem State.markIn_keeps {fs : List Zone} {s0 : State} (s : State) (p : ℕ) (f : CplFrame) (ps : ℕ) (h1 : Keeps fs s0 s) (hF : subF [.block 1, .out, .block 6, .cpl, .block 20] fs = true) :
    Keeps fs s0 (State.markIn s p f ps) := by
  unfold State.markIn
  refine State.frameIn_keeps _ _ _ _ _ ?_ ?_ (subF_trans (by decide) hF)
  · exact h1
  · intro z862 h863
    extract_lets -merge -underBinder y864 y865
    have k866 : Keeps fs s0 y865 := by
      refine Keeps.upd ?_ (.inr rfl) (.inl ⟨rfl, rfl⟩) (.inr rfl) (.inr rfl) (.inr rfl) (.inl ⟨rfl, rfl⟩) (.inl ⟨rfl, rfl⟩) (.inl rfl) (.inr rfl) (.inr rfl) (.inr rfl) (.inr rfl) (.inr ⟨rfl, rfl⟩) (.inr rfl) (.inr rfl) (.inr rfl) (.inr rfl) (.inr rfl) (.inl (alw hF (by decide))) (.inr rfl) (.inr rfl) (.inr rfl) (.inr rfl) (.inr rfl) (.inr rfl) (.inr rfl) (.inr rfl) (.inr rfl) (.inl rfl) rfl
      exact h863
    refine keeps_ite ?_ ?_
    · exact h863
    · refine State.cplForward_keeps _ _ _ _ ?_ (subF_trans (by decide) hF)
      refine keeps_foldl _ _ ?_ ?_
      · exact k866
      · intro z867 z869 h868
        refine keeps_ite ?_ ?_
        · refine State.fire_keeps _ _ ?_ (subF_trans (by decide) hF)
          refine setBit_keeps _ _ _ ?_ (alwL14 hF 0 (by simp only [pipeReg, Reg.LOCK_STAT]; omega))
          exact h868
        · exact h868

theorem execMark_keeps (p : ℕ) (f : CplFrame) (ps : ℕ) (s : State) : ∃ s', execMark p f ps s = .next s' ∧
    Keeps [.block 1, .out, .block 6, .cpl, .block 20] s s' := by
  have hF : subF [.block 1, .out, .block 6, .cpl, .block 20] [.block 1, .out, .block 6, .cpl, .block 20] = true := by decide
  unfold execMark
  refine ⟨_, rfl, ?_⟩
  refine State.markIn_keeps _ _ _ _ ?_ (subF_trans (by decide) hF)
  exact (Keeps.rfl' _ _)

theorem State.cplSync_keeps {fs : List Zone} {s0 : State} (s : State) (v : Word) (h1 : Keeps fs s0 s) (hF : subF [.block 6] fs = true) :
    Keeps fs s0 (State.cplSync s v).1 := by
  unfold State.cplSync
  refine keeps_ite_fst ?_ ?_
  · refine keeps_mk_fst ?_
    refine setBit_keeps _ _ _ ?_ (alwB hF 6 rfl (by decide))
    exact h1
  · refine keeps_mk_fst ?_
    refine codeWrite_keeps _ _ ?_ (alwB hF 6 rfl (by decide))
    exact h1

theorem execCplSyncWrite_keeps (v : Word) (s : State) : ∃ s', execCplSyncWrite v s = .next s' ∧
    Keeps [.block 6] s s' := by
  have hF : subF [.block 6] [.block 6] = true := by decide
  unfold execCplSyncWrite
  refine ⟨_, rfl, ?_⟩
  refine State.cplSync_keeps _ _ ?_ (subF_trans (by decide) hF)
  exact (Keeps.rfl' _ _)

theorem State.probeIn_keeps {fs : List Zone} {s0 : State} (s : State) (p : ℕ) (f : CplFrame) (ta : ℕ) (h1 : Keeps fs s0 s) (hF : subF [.block 1, .out, .block 6, .cpl] fs = true) :
    Keeps fs s0 (State.probeIn s p f ta) := by
  unfold State.probeIn
  refine State.frameIn_keeps _ _ _ _ _ ?_ ?_ (subF_trans (by decide) hF)
  · exact h1
  · intro z870 h871
    refine keeps_ite ?_ ?_
    · exact h871
    · refine keeps_ite ?_ ?_
      · refine State.cplSend_keeps _ _ _ _ _ ?_ (subF_trans (by decide) hF)
        exact h871
      · refine keeps_ite ?_ ?_
        · refine State.cplForward_keeps _ _ _ _ ?_ (subF_trans (by decide) hF)
          exact h871
        · exact h871

theorem execProbe_keeps (p : ℕ) (f : CplFrame) (ta : ℕ) (s : State) : ∃ s', execProbe p f ta s = .next s' ∧
    Keeps [.block 1, .out, .block 6, .cpl] s s' := by
  have hF : subF [.block 1, .out, .block 6, .cpl] [.block 1, .out, .block 6, .cpl] = true := by decide
  unfold execProbe
  refine ⟨_, rfl, ?_⟩
  refine State.probeIn_keeps _ _ _ _ ?_ (subF_trans (by decide) hF)
  exact (Keeps.rfl' _ _)

theorem State.sweepDone_keeps {fs : List Zone} {s0 : State} (s : State) (w : Sweep) (h1 : Keeps fs s0 s) (hF : subF [.cpl, .out, .block 0, .block 6, .block 1, .tkt] fs = true) :
    Keeps fs s0 (State.sweepDone s w) := by
  unfold State.sweepDone
  extract_lets -merge -underBinder y872 y873 y874 y875
  have k876 : Keeps fs s0 y874 := by
    refine keeps_foldl _ _ ?_ ?_
    · refine Keeps.upd ?_ (.inr rfl) (.inl ⟨rfl, rfl⟩) (.inr rfl) (.inr rfl) (.inr rfl) (.inl ⟨rfl, rfl⟩) (.inl ⟨rfl, rfl⟩) (.inl rfl) (.inr rfl) (.inr rfl) (.inr rfl) (.inr rfl) (.inr ⟨rfl, rfl⟩) (.inr rfl) (.inr rfl) (.inr rfl) (.inr rfl) (.inr rfl) (.inl (alw hF (by decide))) (.inr rfl) (.inr rfl) (.inr rfl) (.inr rfl) (.inr rfl) (.inr rfl) (.inr rfl) (.inr rfl) (.inr rfl) (.inl rfl) rfl
      exact h1
    · intro z877 z879 h878
      refine State.cplSend_keeps _ _ _ _ _ ?_ (subF_trans (by decide) hF)
      refine State.setRsp_keeps _ _ _ _ ?_ (subF_trans (by decide) hF)
      refine setFld_keeps _ _ _ _ ?_ (alwL hF 6 0 (by simp only [Reg.CPL_HOPDLY]; omega))
      exact h878
  have k880 : Keeps fs s0 y875 := by
    refine setFld_keeps _ _ _ _ ?_ (alwB hF 6 rfl (by decide))
    refine setFld_keeps _ _ _ _ ?_ (alwB hF 6 rfl (by decide))
    refine setBit_keeps _ _ _ ?_ (alwB hF 6 rfl (by decide))
    exact k876
  refine State.mbDone_keeps _ _ _ _ _ ?_ (subF_trans (by decide) hF)
  refine State.setRsp_keeps _ _ _ _ ?_ (subF_trans (by decide) hF)
  exact k880

theorem State.echoIn_keeps {fs : List Zone} {s0 : State} (s : State) (p : ℕ) (f : CplFrame) (rtt : ℕ) (h1 : Keeps fs s0 s) (hF : subF [.block 1, .out, .block 6, .cpl, .block 0, .tkt] fs = true) :
    Keeps fs s0 (State.echoIn s p f rtt) := by
  unfold State.echoIn
  refine State.frameIn_keeps _ _ _ _ _ ?_ ?_ (subF_trans (by decide) hF)
  · exact h1
  · intro z881 h882
    refine keeps_ite ?_ ?_
    · exact h882
    · refine keeps_ite ?_ ?_
      · refine State.cplForward_keeps _ _ _ _ ?_ (subF_trans (by decide) hF)
        exact h882
      · split
        · exact h882
        · extract_lets -merge -underBinder y883 y884
          refine keeps_ite ?_ ?_
          · exact h882
          · refine keeps_ite ?_ ?_
            · refine State.cplSend_keeps _ _ _ _ _ ?_ (subF_trans (by decide) hF)
              refine Keeps.upd ?_ (.inr rfl) (.inl ⟨rfl, rfl⟩) (.inr rfl) (.inr rfl) (.inr rfl) (.inl ⟨rfl, rfl⟩) (.inl ⟨rfl, rfl⟩) (.inl rfl) (.inr rfl) (.inr rfl) (.inr rfl) (.inr rfl) (.inr ⟨rfl, rfl⟩) (.inr rfl) (.inr rfl) (.inr rfl) (.inr rfl) (.inr rfl) (.inl (alw hF (by decide))) (.inr rfl) (.inr rfl) (.inr rfl) (.inr rfl) (.inr rfl) (.inr rfl) (.inr rfl) (.inr rfl) (.inr rfl) (.inl rfl) rfl
              exact h882
            · refine State.sweepDone_keeps _ _ ?_ (subF_trans (by decide) hF)
              exact h882

theorem execEcho_keeps (p : ℕ) (f : CplFrame) (rtt : ℕ) (s : State) : ∃ s', execEcho p f rtt s = .next s' ∧
    Keeps [.block 1, .out, .block 6, .cpl, .block 0, .tkt] s s' := by
  have hF : subF [.block 1, .out, .block 6, .cpl, .block 0, .tkt] [.block 1, .out, .block 6, .cpl, .block 0, .tkt] = true := by decide
  unfold execEcho
  refine ⟨_, rfl, ?_⟩
  refine State.echoIn_keeps _ _ _ _ ?_ (subF_trans (by decide) hF)
  exact (Keeps.rfl' _ _)

theorem execProbeTimeout_keeps (s : State) : ∃ s', execProbeTimeout s = .next s' ∧
    Keeps [.block 1, .out, .block 0, .tkt, .cpl] s s' := by
  have hF : subF [.block 1, .out, .block 0, .tkt, .cpl] [.block 1, .out, .block 0, .tkt, .cpl] = true := by decide
  unfold execProbeTimeout
  refine ⟨_, rfl, ?_⟩
  refine State.sweepBreak_keeps _ ?_ (subF_trans (by decide) hF)
  exact (Keeps.rfl' _ _)

theorem State.alignIn_keeps {fs : List Zone} {s0 : State} (s : State) (p : ℕ) (f : CplFrame) (h1 : Keeps fs s0 s) (hF : subF [.block 1, .out, .block 6, .cpl] fs = true) :
    Keeps fs s0 (State.alignIn s p f) := by
  unfold State.alignIn
  refine State.frameIn_keeps _ _ _ _ _ ?_ ?_ (subF_trans (by decide) hF)
  · exact h1
  · intro z885 h886
    refine keeps_ite ?_ ?_
    · exact h886
    · refine keeps_ite ?_ ?_
      · refine setFld_keeps _ _ _ _ ?_ (alwB hF 6 rfl (by decide))
        exact h886
      · refine keeps_ite ?_ ?_
        · refine State.cplForward_keeps _ _ _ _ ?_ (subF_trans (by decide) hF)
          exact h886
        · exact h886

theorem execAlign_keeps (p : ℕ) (f : CplFrame) (s : State) : ∃ s', execAlign p f s = .next s' ∧
    Keeps [.block 1, .out, .block 6, .cpl] s s' := by
  have hF : subF [.block 1, .out, .block 6, .cpl] [.block 1, .out, .block 6, .cpl] = true := by decide
  unfold execAlign
  refine ⟨_, rfl, ?_⟩
  refine State.alignIn_keeps _ _ _ ?_ (subF_trans (by decide) hF)
  exact (Keeps.rfl' _ _)

theorem State.paccGo_keeps {fs : List Zone} {s0 : State} (s : State) (v : Word) (h1 : Keeps fs s0 s) (hF : subF [.block 6, .cpl, .out] fs = true) :
    Keeps fs s0 (State.paccGo s v) := by
  unfold State.paccGo
  extract_lets -merge -underBinder y887 y888 y889 y890 y891 y892
  have k893 : Keeps fs s0 y888 := by
    refine codeWrite_keeps _ _ ?_ (alwB hF 6 rfl (by decide))
    exact h1
  have k894 : Keeps fs s0 y892 := by
    refine setBit_keeps _ _ _ ?_ (alwB hF 6 rfl (by decide))
    refine Keeps.upd ?_ (.inr rfl) (.inl ⟨rfl, rfl⟩) (.inr rfl) (.inr rfl) (.inr rfl) (.inl ⟨rfl, rfl⟩) (.inl ⟨rfl, rfl⟩) (.inl rfl) (.inr rfl) (.inr rfl) (.inr rfl) (.inr rfl) (.inr ⟨rfl, rfl⟩) (.inr rfl) (.inr rfl) (.inr rfl) (.inr rfl) (.inr rfl) (.inl (alw hF (by decide))) (.inr rfl) (.inr rfl) (.inr rfl) (.inr rfl) (.inr rfl) (.inr rfl) (.inr rfl) (.inr rfl) (.inr rfl) (.inl rfl) rfl
    exact k893
  refine keeps_ite ?_ ?_
  · exact k893
  · refine keeps_ite ?_ ?_
    · refine State.cplSend_keeps _ _ _ _ _ ?_ (subF_trans (by decide) hF)
      exact k894
    · exact k894

theorem execPaccGo_keeps (v : Word) (s : State) : ∃ s', execPaccGo v s = .next s' ∧
    Keeps [.block 6, .cpl, .out] s s' := by
  have hF : subF [.block 6, .cpl, .out] [.block 6, .cpl, .out] = true := by decide
  unfold execPaccGo
  refine ⟨_, rfl, ?_⟩
  refine State.paccGo_keeps _ _ ?_ (subF_trans (by decide) hF)
  exact (Keeps.rfl' _ _)

theorem State.paccDone_keeps {fs : List Zone} {s0 : State} (s : State) (r : ℕ) (h1 : Keeps fs s0 s) (hF : subF [.block 1, .out, .block 6, .cpl] fs = true) :
    Keeps fs s0 (State.paccDone s r) := by
  unfold State.paccDone
  extract_lets -merge -underBinder y895
  refine State.fire_keeps _ _ ?_ (subF_trans (by decide) hF)
  refine setFld_keeps _ _ _ _ ?_ (alwB hF 6 rfl (by decide))
  refine setFld_keeps _ _ _ _ ?_ (alwB hF 6 rfl (by decide))
  refine Keeps.upd ?_ (.inr rfl) (.inl ⟨rfl, rfl⟩) (.inr rfl) (.inr rfl) (.inr rfl) (.inl ⟨rfl, rfl⟩) (.inl ⟨rfl, rfl⟩) (.inl rfl) (.inr rfl) (.inr rfl) (.inr rfl) (.inr rfl) (.inr ⟨rfl, rfl⟩) (.inr rfl) (.inr rfl) (.inr rfl) (.inr rfl) (.inr rfl) (.inl (alw hF (by decide))) (.inr rfl) (.inr rfl) (.inr rfl) (.inr rfl) (.inr rfl) (.inr rfl) (.inr rfl) (.inr rfl) (.inr rfl) (.inl rfl) rfl
  exact h1

theorem State.rspIn_keeps {fs : List Zone} {s0 : State} (s : State) (p : ℕ) (f : CplFrame) (h1 : Keeps fs s0 s) (hF : subF [.block 1, .out, .block 6, .cpl] fs = true) :
    Keeps fs s0 (State.rspIn s p f) := by
  unfold State.rspIn
  refine State.frameIn_keeps _ _ _ _ _ ?_ ?_ (subF_trans (by decide) hF)
  · exact h1
  · intro z896 h897
    split
    · exact h897
    · refine keeps_ite ?_ ?_
      · exact h897
      · refine State.paccDone_keeps _ _ ?_ (subF_trans (by decide) hF)
        refine keeps_ite ?_ ?_
        · exact h897
        · refine setReg_keeps _ _ ?_ (alwB hF 6 rfl (by decide))
          exact h897

theorem execRsp_keeps (p : ℕ) (f : CplFrame) (s : State) : ∃ s', execRsp p f s = .next s' ∧
    Keeps [.block 1, .out, .block 6, .cpl] s s' := by
  have hF : subF [.block 1, .out, .block 6, .cpl] [.block 1, .out, .block 6, .cpl] = true := by decide
  unfold execRsp
  refine ⟨_, rfl, ?_⟩
  refine State.rspIn_keeps _ _ _ ?_ (subF_trans (by decide) hF)
  exact (Keeps.rfl' _ _)

theorem State.paccTimeout_keeps {fs : List Zone} {s0 : State} (s : State) (h1 : Keeps fs s0 s) (hF : subF [.block 1, .out, .block 6, .cpl] fs = true) :
    Keeps fs s0 (State.paccTimeout s) := by
  unfold State.paccTimeout
  refine keeps_ite ?_ ?_
  · refine State.paccDone_keeps _ _ ?_ (subF_trans (by decide) hF)
    exact h1
  · exact h1

theorem execPeerAccessTimeout_keeps (s : State) : ∃ s', execPeerAccessTimeout s = .next s' ∧
    Keeps [.block 1, .out, .block 6, .cpl] s s' := by
  have hF : subF [.block 1, .out, .block 6, .cpl] [.block 1, .out, .block 6, .cpl] = true := by decide
  unfold execPeerAccessTimeout
  refine ⟨_, rfl, ?_⟩
  refine State.paccTimeout_keeps _ ?_ (subF_trans (by decide) hF)
  exact (Keeps.rfl' _ _)

theorem State.cplWrite_keeps {fs : List Zone} {s0 : State} (s : State) (ini : ℕ) (a : ℕ) (v : Word) (h1 : Keeps fs s0 s) (hF : subF [.block 6, .cpl, .block 1, .out, .block 0, .tkt, .free, .regs] fs = true) :
    Keeps fs s0 (State.cplWrite s ini a v).1 := by
  unfold State.cplWrite
  refine keeps_ite_fst ?_ ?_
  · refine keeps_mk_fst ?_
    exact h1
  · refine keeps_ite_fst ?_ ?_
    · refine State.cplCtl_keeps _ _ ?_ (subF_trans (by decide) hF)
      exact h1
    · refine keeps_ite_fst ?_ ?_
      · refine State.cplSync_keeps _ _ ?_ (subF_trans (by decide) hF)
        exact h1
      · refine keeps_ite_fst ?_ ?_
        · refine keeps_mk_fst ?_
          refine State.txSend_keeps _ _ ?_ (subF_trans (by decide) hF)
          exact h1
        · refine keeps_ite_fst ?_ ?_
          · refine keeps_mk_fst ?_
            refine State.paccGo_keeps _ _ ?_ (subF_trans (by decide) hF)
            exact h1
          · refine keeps_mk_fst ?_
            refine codeWrite_keeps _ _ ?_ (alwR hF (by decide))
            exact h1

end Sys2Proof.Machine
end

