-- ==== Sys2Proof/Laws/KeepsTree.lean ====
section
/-! SUPPORT. What each operation of Machine/Tree.lean can change, one lemma an operation (Laws/KeepsBase.lean). -/

-- elaborated one declaration at a time, so that the package compiles as one text in bounded memory
set_option Elab.async false

namespace Sys2Proof.Machine

theorem State.setFence_keeps {fs : List Zone} {s0 : State} (s : State) (p : ℕ) (n : ℕ) (h1 : Keeps fs s0 s) (hF : subF [.jt] fs = true) :
    Keeps fs s0 (State.setFence s p n) := by
  unfold State.setFence
  extract_lets -merge -underBinder y898
  refine Keeps.upd ?_ (.inr rfl) (.inl ⟨rfl, rfl⟩) (.inr rfl) (.inr rfl) (.inr rfl) (.inl ⟨rfl, rfl⟩) (.inl ⟨rfl, rfl⟩) (.inl rfl) (.inr rfl) (.inl (alw hF (by decide))) (.inr rfl) (.inr rfl) (.inr ⟨rfl, rfl⟩) (.inr rfl) (.inr rfl) (.inr rfl) (.inr rfl) (.inr rfl) (.inr rfl) (.inr rfl) (.inr rfl) (.inr rfl) (.inr rfl) (.inr rfl) (.inr rfl) (.inr rfl) (.inr rfl) (.inr rfl) (.inl rfl) rfl
  exact h1

theorem State.fwDenied_keeps {fs : List Zone} {s0 : State} (s : State) (ini : ℕ) (addr : ℕ) (write : Bool) (h1 : Keeps fs s0 s) (hF : subF [.block 1, .out, .block 9] fs = true) :
    Keeps fs s0 (State.fwDenied s ini addr write) := by
  unfold State.fwDenied
  refine State.fire_keeps _ _ ?_ (subF_trans (by decide) hF)
  refine record_keeps _ _ ?_ ?_ (alwB hF 9 rfl (by decide))
  · refine satInc_keeps _ _ _ ?_ (alwB hF 9 rfl (by decide))
    exact h1
  · intro z899 h900
    refine setFld_keeps _ _ _ _ ?_ (alwB hF 9 rfl (by decide))
    refine setFld_keeps _ _ _ _ ?_ (alwB hF 9 rfl (by decide))
    refine setBit_keeps _ _ _ ?_ (alwB hF 9 rfl (by decide))
    refine setReg_keeps _ _ ?_ (alwB hF 9 rfl (by decide))
    exact h900

theorem State.jtError_keeps {fs : List Zone} {s0 : State} (s : State) (kind : ℕ) (port : ℕ) (ini : ℕ) (tag : ℕ) (addr : ℕ) (h1 : Keeps fs s0 s) (hF : subF [.block 18] fs = true) :
    Keeps fs s0 (State.jtError s kind port ini tag addr) := by
  unfold State.jtError
  refine record_keeps _ _ ?_ ?_ (alwB hF 18 rfl (by decide))
  · exact h1
  · intro z901 h902
    refine setReg_keeps _ _ ?_ (alwB hF 18 rfl (by decide))
    refine setReg_keeps _ _ ?_ (alwB hF 18 rfl (by decide))
    refine setFld_keeps _ _ _ _ ?_ (alwB hF 18 rfl (by decide))
    refine setFld_keeps _ _ _ _ ?_ (alwB hF 18 rfl (by decide))
    refine setFld_keeps _ _ _ _ ?_ (alwB hF 18 rfl (by decide))
    refine setFld_keeps _ _ _ _ ?_ (alwB hF 18 rfl (by decide))
    exact h902

theorem State.route_keeps {fs : List Zone} {s0 : State} (s : State) (usable : ℕ) (src : ℕ) (ini : ℕ) (tag : ℕ) (addr : ℕ) (len : ℕ) (write : Bool) (h1 : Keeps fs s0 s) (hF : subF [.block 1, .out, .block 9, .block 18] fs = true) :
    Keeps fs s0 (State.route s usable src ini tag addr len write).1 := by
  unfold State.route
  split
  · refine keeps_ite_fst ?_ ?_
    · refine keeps_mk_fst ?_
      exact h1
    · refine keeps_ite_fst ?_ ?_
      · refine keeps_mk_fst ?_
        refine State.fwDenied_keeps _ _ _ _ ?_ (subF_trans (by decide) hF)
        exact h1
      · refine keeps_ite_fst ?_ ?_
        · refine keeps_mk_fst ?_
          exact h1
        · refine keeps_mk_fst ?_
          exact h1
  · refine keeps_mk_fst ?_
    refine State.jtError_keeps _ _ _ _ _ _ ?_ (subF_trans (by decide) hF)
    exact h1

theorem State.updTxn_keeps {fs : List Zone} {s0 : State} (s : State) (src : ℕ) (tag : ℕ) (f : Txn → Option Txn) (h1 : Keeps fs s0 s) (hF : subF [.jt] fs = true) :
    Keeps fs s0 (State.updTxn s src tag f) := by
  unfold State.updTxn
  extract_lets -merge -underBinder y903
  refine Keeps.upd ?_ (.inr rfl) (.inl ⟨rfl, rfl⟩) (.inr rfl) (.inr rfl) (.inr rfl) (.inl ⟨rfl, rfl⟩) (.inl ⟨rfl, rfl⟩) (.inl rfl) (.inr rfl) (.inl (alw hF (by decide))) (.inr rfl) (.inr rfl) (.inr ⟨rfl, rfl⟩) (.inr rfl) (.inr rfl) (.inr rfl) (.inr rfl) (.inr rfl) (.inr rfl) (.inr rfl) (.inr rfl) (.inr rfl) (.inr rfl) (.inr rfl) (.inr rfl) (.inr rfl) (.inr rfl) (.inr rfl) (.inl rfl) rfl
  exact h1

theorem State.txnStage_keeps {fs : List Zone} {s0 : State} (s : State) (src : ℕ) (tag : ℕ) (g : Stage) (h1 : Keeps fs s0 s) (hF : subF [.jt] fs = true) :
    Keeps fs s0 (State.txnStage s src tag g) := by
  unfold State.txnStage
  refine State.updTxn_keeps _ _ _ _ ?_ (subF_trans (by decide) hF)
  exact h1

theorem State.fencePort_keeps {fs : List Zone} {s0 : State} (s : State) (p : ℕ) (req : Bool) (h1 : Keeps fs s0 s) (hF : subF [.block 18, .jt] fs = true) :
    Keeps fs s0 (State.fencePort s p req) := by
  unfold State.fencePort
  extract_lets -merge -underBinder y904
  have k905 : Keeps fs s0 y904 := by
    refine setBit_keeps _ _ _ ?_ (alwL hF 18 0 (by simp only [fenceReg, Reg.JT_FENCE]; omega))
    exact h1
  refine keeps_ite ?_ ?_
  · exact h1
  · refine keeps_ite ?_ ?_
    · refine keeps_ite ?_ ?_
      · refine State.setFence_keeps _ _ _ ?_ (subF_trans (by decide) hF)
        exact k905
      · exact k905
    · refine setBit_keeps _ _ _ ?_ (alwL hF 18 0 (by simp only [fenceReg, Reg.JT_FENCED]; omega))
      refine State.setFence_keeps _ _ _ ?_ (subF_trans (by decide) hF)
      exact k905

theorem State.fenceWrite_keeps {fs : List Zone} {s0 : State} (s : State) (hi : Bool) (v : Word) (h1 : Keeps fs s0 s) (hF : subF [.block 18, .jt] fs = true) :
    Keeps fs s0 (State.fenceWrite s hi v) := by
  unfold State.fenceWrite
  refine keeps_foldl _ _ ?_ ?_
  · exact h1
  · intro z906 z908 h907
    refine State.fencePort_keeps _ _ _ ?_ (subF_trans (by decide) hF)
    exact h907

theorem execJtFenceWrite_keeps (hi : Bool) (v : Word) (s : State) : ∃ s', execJtFenceWrite hi v s = .next s' ∧
    Keeps [.block 18, .jt] s s' := by
  have hF : subF [.block 18, .jt] [.block 18, .jt] = true := by decide
  unfold execJtFenceWrite
  refine ⟨_, rfl, ?_⟩
  refine State.fenceWrite_keeps _ _ _ ?_ (subF_trans (by decide) hF)
  exact (Keeps.rfl' _ _)

theorem State.fenceDone_keeps {fs : List Zone} {s0 : State} (s : State) (p : ℕ) (h1 : Keeps fs s0 s) (hF : subF [.jt, .block 1, .out, .block 18] fs = true) :
    Keeps fs s0 (State.fenceDone s p) := by
  unfold State.fenceDone
  extract_lets -merge -underBinder y909 y910
  have k911 : Keeps fs s0 y910 := by
    refine Keeps.upd ?_ (.inr rfl) (.inl ⟨rfl, rfl⟩) (.inr rfl) (.inr rfl) (.inr rfl) (.inl ⟨rfl, rfl⟩) (.inl ⟨rfl, rfl⟩) (.inl rfl) (.inr rfl) (.inl (alw hF (by decide))) (.inr rfl) (.inr rfl) (.inr ⟨rfl, rfl⟩) (.inr rfl) (.inr rfl) (.inr rfl) (.inr rfl) (.inr rfl) (.inr rfl) (.inr rfl) (.inr rfl) (.inr rfl) (.inr rfl) (.inr rfl) (.inr rfl) (.inr rfl) (.inr rfl) (.inr rfl) (.inl rfl) rfl
    exact h1
  refine keeps_ite ?_ ?_
  · refine State.fire_keeps _ _ ?_ (subF_trans (by decide) hF)
    refine setBit_keeps _ _ _ ?_ (alwL hF 18 0 (by simp only [fenceReg, Reg.JT_FENCED]; omega))
    refine State.setFence_keeps _ _ _ ?_ (subF_trans (by decide) hF)
    exact k911
  · exact h1

theorem State.jtRefused_keeps {fs : List Zone} {s0 : State} (s : State) (h1 : Keeps fs s0 s) (hF : subF [.block 18] fs = true) :
    Keeps fs s0 (State.jtRefused s).1 := by
  unfold State.jtRefused
  refine keeps_mk_fst ?_
  refine setBit_keeps _ _ _ ?_ (alwB hF 18 rfl (by decide))
  exact h1

theorem State.ttWrite_keeps {fs : List Zone} {s0 : State} (s : State) (t : ℕ) (i : ℕ) (v : Word) (h1 : Keeps fs s0 s) (hF : subF [.block 18, .regs] fs = true) :
    Keeps fs s0 (State.ttWrite s t i v).1 := by
  unfold State.ttWrite
  refine keeps_ite_fst ?_ ?_
  · refine keeps_mk_fst ?_
    exact h1
  · refine keeps_ite_fst ?_ ?_
    · refine State.jtRefused_keeps _ ?_ (subF_trans (by decide) hF)
      exact h1
    · refine keeps_mk_fst ?_
      refine codeWrite_keeps _ _ ?_ (alwR hF (by decide))
      exact h1

theorem execTtEntryWrite_keeps (table : ℕ) (slot : ℕ) (v : Word) (s : State) : ∃ s', execTtEntryWrite table slot v s = .next s' ∧
    Keeps [.block 18, .regs] s s' := by
  have hF : subF [.block 18, .regs] [.block 18, .regs] = true := by decide
  unfold execTtEntryWrite
  refine ⟨_, rfl, ?_⟩
  refine State.ttWrite_keeps _ _ _ _ ?_ (subF_trans (by decide) hF)
  exact (Keeps.rfl' _ _)

theorem State.ttSwitch_keeps {fs : List Zone} {s0 : State} (s : State) (h1 : Keeps fs s0 s) (hF : subF [.block 18] fs = true) :
    Keeps fs s0 (State.ttSwitch s) := by
  unfold State.ttSwitch
  refine setBit_keeps _ _ _ ?_ (alwB hF 18 rfl (by decide))
  exact h1

theorem execTtCtlSwitch_keeps (s : State) : ∃ s', execTtCtlSwitch s = .next s' ∧
    Keeps [.block 18] s s' := by
  have hF : subF [.block 18] [.block 18] = true := by decide
  unfold execTtCtlSwitch
  refine ⟨_, rfl, ?_⟩
  refine State.ttSwitch_keeps _ ?_ (subF_trans (by decide) hF)
  exact (Keeps.rfl' _ _)

theorem State.ttSlot_keeps {fs : List Zone} {s0 : State} (s : State) (i : ℕ) (h1 : Keeps fs s0 s) (hF : subF [.block 1, .out, .block 18, .jt] fs = true) :
    Keeps fs s0 (State.ttSlot s i) := by
  unfold State.ttSlot
  extract_lets -merge -underBinder y912 y913 y914
  have k915 : Keeps fs s0 y913 := by
    refine keeps_ite ?_ ?_
    · refine State.fire_keeps _ _ ?_ (subF_trans (by decide) hF)
      refine setBit_keeps _ _ _ ?_ (alwB hF 18 rfl (by decide))
      refine setFld_keeps _ _ _ _ ?_ (alwB hF 18 rfl (by decide))
      exact h1
    · exact h1
  refine Keeps.upd ?_ (.inr rfl) (.inl ⟨rfl, rfl⟩) (.inr rfl) (.inr rfl) (.inr rfl) (.inl ⟨rfl, rfl⟩) (.inl ⟨rfl, rfl⟩) (.inl rfl) (.inr rfl) (.inl (alw hF (by decide))) (.inr rfl) (.inr rfl) (.inr ⟨rfl, rfl⟩) (.inr rfl) (.inr rfl) (.inr rfl) (.inr rfl) (.inr rfl) (.inr rfl) (.inr rfl) (.inr rfl) (.inr rfl) (.inr rfl) (.inr rfl) (.inr rfl) (.inr rfl) (.inr rfl) (.inr rfl) (.inl rfl) rfl
  exact k915

theorem execTimetableSlot_keeps (slot : ℕ) (s : State) : ∃ s', execTimetableSlot slot s = .next s' ∧
    Keeps [.block 1, .out, .block 18, .jt] s s' := by
  have hF : subF [.block 1, .out, .block 18, .jt] [.block 1, .out, .block 18, .jt] = true := by decide
  unfold execTimetableSlot
  refine ⟨_, rfl, ?_⟩
  refine State.ttSlot_keeps _ _ ?_ (subF_trans (by decide) hF)
  exact (Keeps.rfl' _ _)

theorem State.ttSpend_keeps {fs : List Zone} {s0 : State} (s : State) (ini : ℕ) (h1 : Keeps fs s0 s) (hF : subF [.jt] fs = true) :
    Keeps fs s0 (State.ttSpend s ini) := by
  unfold State.ttSpend
  extract_lets -merge -underBinder y916
  refine keeps_ite ?_ ?_
  · refine Keeps.upd ?_ (.inr rfl) (.inl ⟨rfl, rfl⟩) (.inr rfl) (.inr rfl) (.inr rfl) (.inl ⟨rfl, rfl⟩) (.inl ⟨rfl, rfl⟩) (.inl rfl) (.inr rfl) (.inl (alw hF (by decide))) (.inr rfl) (.inr rfl) (.inr ⟨rfl, rfl⟩) (.inr rfl) (.inr rfl) (.inr rfl) (.inr rfl) (.inr rfl) (.inr rfl) (.inr rfl) (.inr rfl) (.inr rfl) (.inr rfl) (.inr rfl) (.inr rfl) (.inr rfl) (.inr rfl) (.inr rfl) (.inl rfl) rfl
    exact h1
  · exact h1

theorem State.guarStarved_keeps {fs : List Zone} {s0 : State} (s : State) (ini : ℕ) (h1 : Keeps fs s0 s) (hF : subF [.block 1, .out, .block 18] fs = true) :
    Keeps fs s0 (State.guarStarved s ini) := by
  unfold State.guarStarved
  refine keeps_ite ?_ ?_
  · refine State.fire_keeps _ _ ?_ (subF_trans (by decide) hF)
    refine setBit_keeps _ _ _ ?_ (alwB hF 18 rfl (by decide))
    exact h1
  · exact h1

theorem execGuarStarved_keeps (ini : ℕ) (s : State) : ∃ s', execGuarStarved ini s = .next s' ∧
    Keeps [.block 1, .out, .block 18] s s' := by
  have hF : subF [.block 1, .out, .block 18] [.block 1, .out, .block 18] = true := by decide
  unfold execGuarStarved
  refine ⟨_, rfl, ?_⟩
  refine State.guarStarved_keeps _ _ ?_ (subF_trans (by decide) hF)
  exact (Keeps.rfl' _ _)

theorem State.fwCommit_keeps {fs : List Zone} {s0 : State} (s : State) (h1 : Keeps fs s0 s) (hF : subF [.block 9] fs = true) :
    Keeps fs s0 (State.fwCommit s) := by
  unfold State.fwCommit
  refine setBit_keeps _ _ _ ?_ (alwB hF 9 rfl (by decide))
  exact h1

theorem execFwCommit_keeps (s : State) : ∃ s', execFwCommit s = .next s' ∧
    Keeps [.block 9] s s' := by
  have hF : subF [.block 9] [.block 9] = true := by decide
  unfold execFwCommit
  refine ⟨_, rfl, ?_⟩
  refine State.fwCommit_keeps _ ?_ (subF_trans (by decide) hF)
  exact (Keeps.rfl' _ _)

theorem State.fwTake_keeps {fs : List Zone} {s0 : State} (s : State) (h1 : Keeps fs s0 s) (hF : subF [.block 9] fs = true) :
    Keeps fs s0 (State.fwTake s) := by
  unfold State.fwTake
  refine keeps_ite ?_ ?_
  · refine setBit_keeps _ _ _ ?_ (alwB hF 9 rfl (by decide))
    refine keeps_foldl _ _ ?_ ?_
    · exact h1
    · intro z917 z919 h918
      refine keeps_foldl _ _ ?_ ?_
      · exact h918
      · intro z920 z922 h921
        refine setReg_keeps _ _ ?_ (alwL hF 9 1 (by simp only [Reg.act, winReg, Reg.WIN_BASE_LO]; omega))
        exact h921
  · exact h1

theorem execFwCommitApplied_keeps (s : State) : ∃ s', execFwCommitApplied s = .next s' ∧
    Keeps [.block 9] s s' := by
  have hF : subF [.block 9] [.block 9] = true := by decide
  unfold execFwCommitApplied
  refine ⟨_, rfl, ?_⟩
  refine State.fwTake_keeps _ ?_ (subF_trans (by decide) hF)
  exact (Keeps.rfl' _ _)

theorem State.tmoWrite_keeps {fs : List Zone} {s0 : State} (s : State) (p : ℕ) (v : Word) (h1 : Keeps fs s0 s) (hF : subF [.block 18] fs = true) :
    Keeps fs s0 (State.tmoWrite s p v).1 := by
  unfold State.tmoWrite
  refine keeps_ite_fst ?_ ?_
  · refine keeps_mk_fst ?_
    exact h1
  · refine keeps_ite_fst ?_ ?_
    · refine State.jtRefused_keeps _ ?_ (subF_trans (by decide) hF)
      exact h1
    · refine keeps_mk_fst ?_
      refine codeWrite_keeps _ _ ?_ (alwL hF 18 0 (by simp only [Reg.JT_TMO]; omega))
      exact h1

theorem execJtTmoWrite_keeps (p : ℕ) (v : Word) (s : State) : ∃ s', execJtTmoWrite p v s = .next s' ∧
    Keeps [.block 18] s s' := by
  have hF : subF [.block 18] [.block 18] = true := by decide
  unfold execJtTmoWrite
  refine ⟨_, rfl, ?_⟩
  refine State.tmoWrite_keeps _ _ _ ?_ (subF_trans (by decide) hF)
  exact (Keeps.rfl' _ _)

theorem State.jtWrite_keeps {fs : List Zone} {s0 : State} (s : State) (a : ℕ) (v : Word) (h1 : Keeps fs s0 s) (hF : subF [.regs, .block 18, .jt] fs = true) :
    Keeps fs s0 (State.jtWrite s a v).1 := by
  unfold State.jtWrite
  extract_lets -merge -underBinder y923
  have k924 : Keeps fs s0 y923 := by
    refine codeWrite_keeps _ _ ?_ (alwR hF (by decide))
    exact h1
  refine keeps_ite_fst ?_ ?_
  · refine keeps_mk_fst ?_
    refine keeps_ite ?_ ?_
    · refine State.ttSwitch_keeps _ ?_ (subF_trans (by decide) hF)
      exact k924
    · exact k924
  · refine keeps_ite_fst ?_ ?_
    · refine keeps_mk_fst ?_
      refine State.fenceWrite_keeps _ _ _ ?_ (subF_trans (by decide) hF)
      exact h1
    · refine keeps_ite_fst ?_ ?_
      · refine keeps_mk_fst ?_
        refine State.fenceWrite_keeps _ _ _ ?_ (subF_trans (by decide) hF)
        exact h1
      · refine keeps_ite_fst ?_ ?_
        · refine State.tmoWrite_keeps _ _ _ ?_ (subF_trans (by decide) hF)
          exact h1
        · refine keeps_ite_fst ?_ ?_
          · refine State.ttWrite_keeps _ _ _ _ ?_ (subF_trans (by decide) hF)
            exact h1
          · refine keeps_mk_fst ?_
            refine codeWrite_keeps _ _ ?_ (alwR hF (by decide))
            exact h1

theorem State.fwWrite_keeps {fs : List Zone} {s0 : State} (s : State) (ini : ℕ) (a : ℕ) (v : Word) (h1 : Keeps fs s0 s) (hF : subF [.block 9, .regs] fs = true) :
    Keeps fs s0 (State.fwWrite s ini a v).1 := by
  unfold State.fwWrite
  refine keeps_ite_fst ?_ ?_
  · refine keeps_mk_fst ?_
    exact h1
  · refine keeps_ite_fst ?_ ?_
    · refine keeps_mk_fst ?_
      refine keeps_ite ?_ ?_
      · refine State.fwCommit_keeps _ ?_ (subF_trans (by decide) hF)
        exact h1
      · exact h1
    · refine keeps_mk_fst ?_
      refine codeWrite_keeps _ _ ?_ (alwR hF (by decide))
      exact h1

theorem State.corruptHeader_keeps {fs : List Zone} {s0 : State} (s : State) (port : ℕ) (src : ℕ) (tag : ℕ) (response : Bool) (h1 : Keeps fs s0 s) (hF : subF [.jt, .block 1, .out, .block 18] fs = true) :
    Keeps fs s0 (State.corruptHeader s port src tag response) := by
  unfold State.corruptHeader
  extract_lets -merge -underBinder y925
  have k926 : Keeps fs s0 y925 := by
    refine State.updTxn_keeps _ _ _ _ ?_ (subF_trans (by decide) hF)
    exact h1
  refine State.fire_keeps _ _ ?_ (subF_trans (by decide) hF)
  refine State.jtError_keeps _ _ _ _ _ _ ?_ (subF_trans (by decide) hF)
  exact k926

theorem execCorruptHeader_keeps (port : ℕ) (src : ℕ) (tag : ℕ) (response : Bool) (s : State) : ∃ s', execCorruptHeader port src tag response s = .next s' ∧
    Keeps [.jt, .block 1, .out, .block 18] s s' := by
  have hF : subF [.jt, .block 1, .out, .block 18] [.jt, .block 1, .out, .block 18] = true := by decide
  unfold execCorruptHeader
  refine ⟨_, rfl, ?_⟩
  refine State.corruptHeader_keeps _ _ _ _ _ ?_ (subF_trans (by decide) hF)
  exact (Keeps.rfl' _ _)

end Sys2Proof.Machine
end

