-- ==== Sys2Proof/Laws/KeepsFabric.lean ====
section
/-! SUPPORT. What each operation of Machine/Fabric.lean can change, one lemma an operation (Laws/KeepsBase.lean). -/

-- elaborated one declaration at a time, so that the package compiles as one text in bounded memory
set_option Elab.async false

namespace Sys2Proof.Machine

theorem State.setFabState_keeps {fs : List Zone} {s0 : State} (s : State) (n : ℕ) (h1 : Keeps fs s0 s) (hF : subF [.block 7] fs = true) :
    Keeps fs s0 (State.setFabState s n) := by
  unfold State.setFabState
  refine setFld_keeps _ _ _ _ ?_ (alwB hF 7 rfl (by decide))
  exact h1

theorem State.fabRefused_keeps {fs : List Zone} {s0 : State} (s : State) (h1 : Keeps fs s0 s) (hF : subF [.block 7] fs = true) :
    Keeps fs s0 (State.fabRefused s) := by
  unfold State.fabRefused
  refine setBit_keeps _ _ _ ?_ (alwB hF 7 rfl (by decide))
  exact h1

theorem State.fabFlashShow_keeps {fs : List Zone} {s0 : State} (s : State) (h1 : Keeps fs s0 s) (hF : subF [.block 7] fs = true) :
    Keeps fs s0 (State.fabFlashShow s) := by
  unfold State.fabFlashShow
  extract_lets -merge -underBinder y927 y928
  refine setReg_keeps _ _ ?_ (alwB hF 7 rfl (by decide))
  refine setReg_keeps _ _ ?_ (alwB hF 7 rfl (by decide))
  refine setReg_keeps _ _ ?_ (alwB hF 7 rfl (by decide))
  exact h1

theorem State.fabLoadFlash_keeps {fs : List Zone} {s0 : State} (s : State) (auto : Bool) (h1 : Keeps fs s0 s) (hF : subF [.block 7, .fab] fs = true) :
    Keeps fs s0 (State.fabLoadFlash s auto) := by
  unfold State.fabLoadFlash
  extract_lets -merge -underBinder y929
  refine State.setFabState_keeps _ _ ?_ (subF_trans (by decide) hF)
  refine Keeps.upd ?_ (.inr rfl) (.inl ⟨rfl, rfl⟩) (.inr rfl) (.inr rfl) (.inr rfl) (.inl ⟨rfl, rfl⟩) (.inl ⟨rfl, rfl⟩) (.inl rfl) (.inr rfl) (.inr rfl) (.inr rfl) (.inr rfl) (.inr ⟨rfl, rfl⟩) (.inr rfl) (.inr rfl) (.inr rfl) (.inr rfl) (.inr rfl) (.inr rfl) (.inl (alw hF (by decide))) (.inr rfl) (.inr rfl) (.inr rfl) (.inr rfl) (.inr rfl) (.inr rfl) (.inr rfl) (.inr rfl) (.inl rfl) rfl
  exact h1

theorem State.fabPowerOn_keeps {fs : List Zone} {s0 : State} (s : State) (h1 : Keeps fs s0 s) (hF : subF [.block 7, .fab] fs = true) :
    Keeps fs s0 (State.fabPowerOn s) := by
  unfold State.fabPowerOn
  extract_lets -merge -underBinder y930 y931
  have k932 : Keeps fs s0 y931 := by
    refine State.fabFlashShow_keeps _ ?_ (subF_trans (by decide) hF)
    refine Keeps.upd ?_ (.inr rfl) (.inl ⟨rfl, rfl⟩) (.inr rfl) (.inr rfl) (.inr rfl) (.inl ⟨rfl, rfl⟩) (.inl ⟨rfl, rfl⟩) (.inl rfl) (.inr rfl) (.inr rfl) (.inr rfl) (.inr rfl) (.inr ⟨rfl, rfl⟩) (.inr rfl) (.inr rfl) (.inr rfl) (.inr rfl) (.inr rfl) (.inr rfl) (.inl (alw hF (by decide))) (.inr rfl) (.inr rfl) (.inr rfl) (.inr rfl) (.inr rfl) (.inr rfl) (.inr rfl) (.inr rfl) (.inl rfl) rfl
    exact h1
  refine keeps_ite ?_ ?_
  · refine State.fabLoadFlash_keeps _ _ ?_ (subF_trans (by decide) hF)
    exact k932
  · refine State.setFabState_keeps _ _ ?_ (subF_trans (by decide) hF)
    exact k932

theorem State.fabStartFlash_keeps {fs : List Zone} {s0 : State} (s : State) (h1 : Keeps fs s0 s) (hF : subF [.block 7, .fab] fs = true) :
    Keeps fs s0 (State.fabStartFlash s) := by
  unfold State.fabStartFlash
  refine keeps_ite ?_ ?_
  · refine State.fabLoadFlash_keeps _ _ ?_ (subF_trans (by decide) hF)
    exact h1
  · refine State.fabRefused_keeps _ ?_ (subF_trans (by decide) hF)
    exact h1

theorem execFabStartFlash_keeps (s : State) : ∃ s', execFabStartFlash s = .next s' ∧
    Keeps [.block 7, .fab] s s' := by
  have hF : subF [.block 7, .fab] [.block 7, .fab] = true := by decide
  unfold execFabStartFlash
  refine ⟨_, rfl, ?_⟩
  refine State.fabStartFlash_keeps _ ?_ (subF_trans (by decide) hF)
  exact (Keeps.rfl' _ _)

theorem State.fabStartStream_keeps {fs : List Zone} {s0 : State} (s : State) (h1 : Keeps fs s0 s) (hF : subF [.block 7, .fab] fs = true) :
    Keeps fs s0 (State.fabStartStream s) := by
  unfold State.fabStartStream
  extract_lets -merge -underBinder y933
  refine keeps_ite ?_ ?_
  · refine State.setFabState_keeps _ _ ?_ (subF_trans (by decide) hF)
    refine Keeps.upd ?_ (.inr rfl) (.inl ⟨rfl, rfl⟩) (.inr rfl) (.inr rfl) (.inr rfl) (.inl ⟨rfl, rfl⟩) (.inl ⟨rfl, rfl⟩) (.inl rfl) (.inr rfl) (.inr rfl) (.inr rfl) (.inr rfl) (.inr ⟨rfl, rfl⟩) (.inr rfl) (.inr rfl) (.inr rfl) (.inr rfl) (.inr rfl) (.inr rfl) (.inl (alw hF (by decide))) (.inr rfl) (.inr rfl) (.inr rfl) (.inr rfl) (.inr rfl) (.inr rfl) (.inr rfl) (.inr rfl) (.inl rfl) rfl
    exact h1
  · refine State.fabRefused_keeps _ ?_ (subF_trans (by decide) hF)
    exact h1

theorem execFabStartStream_keeps (s : State) : ∃ s', execFabStartStream s = .next s' ∧
    Keeps [.block 7, .fab] s s' := by
  have hF : subF [.block 7, .fab] [.block 7, .fab] = true := by decide
  unfold execFabStartStream
  refine ⟨_, rfl, ?_⟩
  refine State.fabStartStream_keeps _ ?_ (subF_trans (by decide) hF)
  exact (Keeps.rfl' _ _)

theorem State.fabData_keeps {fs : List Zone} {s0 : State} (s : State) (v : Word) (h1 : Keeps fs s0 s) (hF : subF [.fab] fs = true) :
    Keeps fs s0 (State.fabData s v).1 := by
  unfold State.fabData
  extract_lets -merge -underBinder y934
  refine keeps_ite_fst ?_ ?_
  · refine keeps_mk_fst ?_
    refine Keeps.upd ?_ (.inr rfl) (.inl ⟨rfl, rfl⟩) (.inr rfl) (.inr rfl) (.inr rfl) (.inl ⟨rfl, rfl⟩) (.inl ⟨rfl, rfl⟩) (.inl rfl) (.inr rfl) (.inr rfl) (.inr rfl) (.inr rfl) (.inr ⟨rfl, rfl⟩) (.inr rfl) (.inr rfl) (.inr rfl) (.inr rfl) (.inr rfl) (.inr rfl) (.inl (alw hF (by decide))) (.inr rfl) (.inr rfl) (.inr rfl) (.inr rfl) (.inr rfl) (.inr rfl) (.inr rfl) (.inr rfl) (.inl rfl) rfl
    exact h1
  · refine keeps_mk_fst ?_
    exact h1

theorem execFabCfgDataWrite_keeps (v : Word) (s : State) : ∃ s', execFabCfgDataWrite v s = .next s' ∧
    Keeps [.fab] s s' := by
  have hF : subF [.fab] [.fab] = true := by decide
  unfold execFabCfgDataWrite
  refine ⟨_, rfl, ?_⟩
  refine State.fabData_keeps _ _ ?_ (subF_trans (by decide) hF)
  exact (Keeps.rfl' _ _)

theorem State.fabFail_keeps {fs : List Zone} {s0 : State} (s : State) (bit : ℕ) (h1 : Keeps fs s0 s) (hF : subF [.block 1, .out, .block 7, .fab] fs = true) :
    Keeps fs s0 (State.fabFail s bit) := by
  unfold State.fabFail
  extract_lets -merge -underBinder y935
  refine State.fire_keeps _ _ ?_ (subF_trans (by decide) hF)
  refine setReg_keeps _ _ ?_ (alwB hF 7 rfl (by decide))
  refine setReg_keeps _ _ ?_ (alwB hF 7 rfl (by decide))
  refine setFld_keeps _ _ _ _ ?_ (alwB hF 7 rfl (by decide))
  refine setBit_keeps _ _ _ ?_ (alwB hF 7 rfl (by decide))
  refine State.setFabState_keeps _ _ ?_ (subF_trans (by decide) hF)
  refine Keeps.upd ?_ (.inr rfl) (.inl ⟨rfl, rfl⟩) (.inr rfl) (.inr rfl) (.inr rfl) (.inl ⟨rfl, rfl⟩) (.inl ⟨rfl, rfl⟩) (.inl rfl) (.inr rfl) (.inr rfl) (.inr rfl) (.inr rfl) (.inr ⟨rfl, rfl⟩) (.inr rfl) (.inr rfl) (.inr rfl) (.inr rfl) (.inr rfl) (.inr rfl) (.inl (alw hF (by decide))) (.inr rfl) (.inr rfl) (.inr rfl) (.inr rfl) (.inr rfl) (.inr rfl) (.inr rfl) (.inr rfl) (.inl rfl) rfl
  exact h1

theorem State.fabLoaded_keeps {fs : List Zone} {s0 : State} (s : State) (bad : Bool) (h1 : Keeps fs s0 s) (hF : subF [.block 1, .out, .block 7, .fab] fs = true) :
    Keeps fs s0 (State.fabLoaded s bad) := by
  unfold State.fabLoaded
  extract_lets -merge -underBinder y936 y937 y938 y939 y940
  have k941 : Keeps fs s0 y938 := by
    refine Keeps.upd ?_ (.inr rfl) (.inl ⟨rfl, rfl⟩) (.inr rfl) (.inr rfl) (.inr rfl) (.inl ⟨rfl, rfl⟩) (.inl ⟨rfl, rfl⟩) (.inl rfl) (.inr rfl) (.inr rfl) (.inr rfl) (.inr rfl) (.inr ⟨rfl, rfl⟩) (.inr rfl) (.inr rfl) (.inr rfl) (.inr rfl) (.inr rfl) (.inr rfl) (.inl (alw hF (by decide))) (.inr rfl) (.inr rfl) (.inr rfl) (.inr rfl) (.inr rfl) (.inr rfl) (.inr rfl) (.inr rfl) (.inl rfl) rfl
    exact h1
  have k942 : Keeps fs s0 y939 := by
    refine setReg_keeps _ _ ?_ (alwB hF 7 rfl (by decide))
    refine setReg_keeps _ _ ?_ (alwB hF 7 rfl (by decide))
    refine setFld_keeps _ _ _ _ ?_ (alwB hF 7 rfl (by decide))
    exact k941
  refine keeps_ite ?_ ?_
  · exact h1
  · refine keeps_ite ?_ ?_
    · refine State.fabFail_keeps _ _ ?_ (subF_trans (by decide) hF)
      exact h1
    · refine keeps_ite ?_ ?_
      · refine State.fabFail_keeps _ _ ?_ (subF_trans (by decide) hF)
        exact h1
      · refine keeps_ite ?_ ?_
        · refine State.fire_keeps _ _ ?_ (subF_trans (by decide) hF)
          refine State.setFabState_keeps _ _ ?_ (subF_trans (by decide) hF)
          refine Keeps.upd ?_ (.inr rfl) (.inl ⟨rfl, rfl⟩) (.inr rfl) (.inr rfl) (.inr rfl) (.inl ⟨rfl, rfl⟩) (.inl ⟨rfl, rfl⟩) (.inl rfl) (.inr rfl) (.inr rfl) (.inr rfl) (.inr rfl) (.inr ⟨rfl, rfl⟩) (.inr rfl) (.inr rfl) (.inr rfl) (.inr rfl) (.inr rfl) (.inr rfl) (.inl (alw hF (by decide))) (.inr rfl) (.inr rfl) (.inr rfl) (.inr rfl) (.inr rfl) (.inr rfl) (.inr rfl) (.inr rfl) (.inl rfl) rfl
          exact k942
        · refine State.fire_keeps _ _ ?_ (subF_trans (by decide) hF)
          refine State.setFabState_keeps _ _ ?_ (subF_trans (by decide) hF)
          exact k942

theorem State.fabRelease_keeps {fs : List Zone} {s0 : State} (s : State) (h1 : Keeps fs s0 s) (hF : subF [.block 7, .fab] fs = true) :
    Keeps fs s0 (State.fabRelease s) := by
  unfold State.fabRelease
  extract_lets -merge -underBinder y943
  refine keeps_ite ?_ ?_
  · refine State.setFabState_keeps _ _ ?_ (subF_trans (by decide) hF)
    refine Keeps.upd ?_ (.inr rfl) (.inl ⟨rfl, rfl⟩) (.inr rfl) (.inr rfl) (.inr rfl) (.inl ⟨rfl, rfl⟩) (.inl ⟨rfl, rfl⟩) (.inl rfl) (.inr rfl) (.inr rfl) (.inr rfl) (.inr rfl) (.inr ⟨rfl, rfl⟩) (.inr rfl) (.inr rfl) (.inr rfl) (.inr rfl) (.inr rfl) (.inr rfl) (.inl (alw hF (by decide))) (.inr rfl) (.inr rfl) (.inr rfl) (.inr rfl) (.inr rfl) (.inr rfl) (.inr rfl) (.inr rfl) (.inl rfl) rfl
    exact h1
  · refine State.fabRefused_keeps _ ?_ (subF_trans (by decide) hF)
    exact h1

theorem execFabRelease_keeps (s : State) : ∃ s', execFabRelease s = .next s' ∧
    Keeps [.block 7, .fab] s s' := by
  have hF : subF [.block 7, .fab] [.block 7, .fab] = true := by decide
  unfold execFabRelease
  refine ⟨_, rfl, ?_⟩
  refine State.fabRelease_keeps _ ?_ (subF_trans (by decide) hF)
  exact (Keeps.rfl' _ _)

theorem State.releaseStage_keeps {fs : List Zone} {s0 : State} (s : State) (h1 : Keeps fs s0 s) (hF : subF [.fab, .block 1, .out, .block 7] fs = true) :
    Keeps fs s0 (State.releaseStage s) := by
  unfold State.releaseStage
  extract_lets -merge -underBinder y944 y945
  have k946 : Keeps fs s0 y945 := by
    refine Keeps.upd ?_ (.inr rfl) (.inl ⟨rfl, rfl⟩) (.inr rfl) (.inr rfl) (.inr rfl) (.inl ⟨rfl, rfl⟩) (.inl ⟨rfl, rfl⟩) (.inl rfl) (.inr rfl) (.inr rfl) (.inr rfl) (.inr rfl) (.inr ⟨rfl, rfl⟩) (.inr rfl) (.inr rfl) (.inr rfl) (.inr rfl) (.inr rfl) (.inr rfl) (.inl (alw hF (by decide))) (.inr rfl) (.inr rfl) (.inr rfl) (.inr rfl) (.inr rfl) (.inr rfl) (.inr rfl) (.inr rfl) (.inl rfl) rfl
    exact h1
  refine keeps_ite ?_ ?_
  · refine keeps_ite ?_ ?_
    · refine State.fire_keeps _ _ ?_ (subF_trans (by decide) hF)
      refine State.setFabState_keeps _ _ ?_ (subF_trans (by decide) hF)
      exact k946
    · exact k946
  · exact h1

theorem State.fabHold_keeps {fs : List Zone} {s0 : State} (s : State) (h1 : Keeps fs s0 s) (hF : subF [.block 7, .jt, .fab, .block 1, .out] fs = true) :
    Keeps fs s0 (State.fabHold s) := by
  unfold State.fabHold
  extract_lets -merge -underBinder y947 y948 y949
  refine keeps_ite ?_ ?_
  · refine State.setFabState_keeps _ _ ?_ (subF_trans (by decide) hF)
    refine Keeps.upd ?_ (.inr rfl) (.inl ⟨rfl, rfl⟩) (.inr rfl) (.inr rfl) (.inr rfl) (.inl ⟨rfl, rfl⟩) (.inl ⟨rfl, rfl⟩) (.inl rfl) (.inr rfl) (.inl (alw hF (by decide))) (.inr rfl) (.inr rfl) (.inr ⟨rfl, rfl⟩) (.inr rfl) (.inr rfl) (.inr rfl) (.inr rfl) (.inr rfl) (.inr rfl) (.inl (alw hF (by decide))) (.inr rfl) (.inr rfl) (.inr rfl) (.inr rfl) (.inr rfl) (.inr rfl) (.inr rfl) (.inr rfl) (.inl rfl) rfl
    exact h1
  · refine keeps_ite ?_ ?_
    · refine State.fabFail_keeps _ _ ?_ (subF_trans (by decide) hF)
      exact h1
    · refine State.fabRefused_keeps _ ?_ (subF_trans (by decide) hF)
      exact h1

theorem execFabHold_keeps (s : State) : ∃ s', execFabHold s = .next s' ∧
    Keeps [.block 7, .jt, .fab, .block 1, .out] s s' := by
  have hF : subF [.block 7, .jt, .fab, .block 1, .out] [.block 7, .jt, .fab, .block 1, .out] = true := by decide
  unfold execFabHold
  refine ⟨_, rfl, ?_⟩
  refine State.fabHold_keeps _ ?_ (subF_trans (by decide) hF)
  exact (Keeps.rfl' _ _)

theorem State.fabCtl_keeps {fs : List Zone} {s0 : State} (s : State) (v : Word) (h1 : Keeps fs s0 s) (hF : subF [.block 7, .jt, .fab, .block 1, .out] fs = true) :
    Keeps fs s0 (State.fabCtl s v) := by
  unfold State.fabCtl
  extract_lets -merge -underBinder y950 y951 y952 y953
  have k954 : Keeps fs s0 y950 := by
    refine codeWrite_keeps _ _ ?_ (alwB hF 7 rfl (by decide))
    exact h1
  have k955 : Keeps fs s0 y951 := by
    refine keeps_ite ?_ ?_
    · refine State.fabHold_keeps _ ?_ (subF_trans (by decide) hF)
      exact k954
    · exact k954
  have k956 : Keeps fs s0 y952 := by
    refine keeps_ite ?_ ?_
    · refine keeps_ite ?_ ?_
      · refine State.fabRefused_keeps _ ?_ (subF_trans (by decide) hF)
        exact k955
      · refine State.fabRelease_keeps _ ?_ (subF_trans (by decide) hF)
        exact k955
    · exact k955
  have k957 : Keeps fs s0 y953 := by
    refine keeps_ite ?_ ?_
    · refine State.fabStartFlash_keeps _ ?_ (subF_trans (by decide) hF)
      exact k956
    · exact k956
  refine keeps_ite ?_ ?_
  · refine State.fabStartStream_keeps _ ?_ (subF_trans (by decide) hF)
    exact k957
  · exact k957

theorem State.fabProgram_keeps {fs : List Zone} {s0 : State} (s : State) (h1 : Keeps fs s0 s) (hF : subF [.block 7, .fab] fs = true) :
    Keeps fs s0 (State.fabProgram s) := by
  unfold State.fabProgram
  extract_lets -merge -underBinder y958
  refine keeps_ite ?_ ?_
  · refine State.fabFlashShow_keeps _ ?_ (subF_trans (by decide) hF)
    refine setBit_keeps _ _ _ ?_ (alwB hF 7 rfl (by decide))
    refine Keeps.upd ?_ (.inr rfl) (.inl ⟨rfl, rfl⟩) (.inr rfl) (.inr rfl) (.inr rfl) (.inl ⟨rfl, rfl⟩) (.inl ⟨rfl, rfl⟩) (.inl rfl) (.inr rfl) (.inr rfl) (.inr rfl) (.inr rfl) (.inr ⟨rfl, rfl⟩) (.inr rfl) (.inr rfl) (.inr rfl) (.inr rfl) (.inr rfl) (.inr rfl) (.inl (alw hF (by decide))) (.inr rfl) (.inr rfl) (.inr rfl) (.inr rfl) (.inr rfl) (.inr rfl) (.inr rfl) (.inr rfl) (.inl rfl) rfl
    exact h1
  · refine State.fabRefused_keeps _ ?_ (subF_trans (by decide) hF)
    exact h1

theorem execFabProgram_keeps (s : State) : ∃ s', execFabProgram s = .next s' ∧
    Keeps [.block 7, .fab] s s' := by
  have hF : subF [.block 7, .fab] [.block 7, .fab] = true := by decide
  unfold execFabProgram
  refine ⟨_, rfl, ?_⟩
  refine State.fabProgram_keeps _ ?_ (subF_trans (by decide) hF)
  exact (Keeps.rfl' _ _)

theorem State.fabFlashDone_keeps {fs : List Zone} {s0 : State} (s : State) (fail : Bool) (h1 : Keeps fs s0 s) (hF : subF [.block 7, .fab, .block 1, .out] fs = true) :
    Keeps fs s0 (State.fabFlashDone s fail) := by
  unfold State.fabFlashDone
  split
  · exact h1
  · extract_lets -merge -underBinder y959 y960
    have k961 : Keeps fs s0 y960 := by
      refine satInc_keeps _ _ _ ?_ (alwB hF 7 rfl (by decide))
      refine setBit_keeps _ _ _ ?_ (alwB hF 7 rfl (by decide))
      refine Keeps.upd ?_ (.inr rfl) (.inl ⟨rfl, rfl⟩) (.inr rfl) (.inr rfl) (.inr rfl) (.inl ⟨rfl, rfl⟩) (.inl ⟨rfl, rfl⟩) (.inl rfl) (.inr rfl) (.inr rfl) (.inr rfl) (.inr rfl) (.inr ⟨rfl, rfl⟩) (.inr rfl) (.inr rfl) (.inr rfl) (.inr rfl) (.inr rfl) (.inr rfl) (.inl (alw hF (by decide))) (.inr rfl) (.inr rfl) (.inr rfl) (.inr rfl) (.inr rfl) (.inr rfl) (.inr rfl) (.inr rfl) (.inl rfl) rfl
      exact h1
    refine State.fire_keeps _ _ ?_ (subF_trans (by decide) hF)
    refine State.fabFlashShow_keeps _ ?_ (subF_trans (by decide) hF)
    refine keeps_ite ?_ ?_
    · refine setBit_keeps _ _ _ ?_ (alwB hF 7 rfl (by decide))
      exact k961
    · exact k961

theorem State.fabSnap_keeps {fs : List Zone} {s0 : State} (s : State) (w : List Word) (h1 : Keeps fs s0 s) (hF : subF [.block 7, .fab] fs = true) :
    Keeps fs s0 (State.fabSnap s w) := by
  unfold State.fabSnap
  extract_lets -merge -underBinder y962 y963
  refine setBit_keeps _ _ _ ?_ (alwB hF 7 rfl (by decide))
  refine Keeps.upd ?_ (.inr rfl) (.inl ⟨rfl, rfl⟩) (.inr rfl) (.inr rfl) (.inr rfl) (.inl ⟨rfl, rfl⟩) (.inl ⟨rfl, rfl⟩) (.inl rfl) (.inr rfl) (.inr rfl) (.inr rfl) (.inr rfl) (.inr ⟨rfl, rfl⟩) (.inr rfl) (.inr rfl) (.inr rfl) (.inr rfl) (.inr rfl) (.inr rfl) (.inl (alw hF (by decide))) (.inr rfl) (.inr rfl) (.inr rfl) (.inr rfl) (.inr rfl) (.inr rfl) (.inr rfl) (.inr rfl) (.inl rfl) rfl
  exact h1

theorem execFabSnap_keeps (w : List Word) (s : State) : ∃ s', execFabSnap w s = .next s' ∧
    Keeps [.block 7, .fab] s s' := by
  have hF : subF [.block 7, .fab] [.block 7, .fab] = true := by decide
  unfold execFabSnap
  refine ⟨_, rfl, ?_⟩
  refine State.fabSnap_keeps _ _ ?_ (subF_trans (by decide) hF)
  exact (Keeps.rfl' _ _)

theorem State.fabRbRead_keeps {fs : List Zone} {s0 : State} (s : State) (h1 : Keeps fs s0 s) (hF : subF [.free, .block 7] fs = true) :
    Keeps fs s0 (State.fabRbRead s).1 := by
  unfold State.fabRbRead
  extract_lets -merge -underBinder y964 y965
  refine keeps_mk_fst ?_
  refine State.useFree_keeps _ ?_ (subF_trans (by decide) hF)
  refine setFld_keeps _ _ _ _ ?_ (alwB hF 7 rfl (by decide))
  exact h1

theorem execFabRbDataRead_keeps (s : State) : ∃ s', execFabRbDataRead s = .next s' ∧
    Keeps [.free, .block 7] s s' := by
  have hF : subF [.free, .block 7] [.free, .block 7] = true := by decide
  unfold execFabRbDataRead
  refine ⟨_, rfl, ?_⟩
  refine State.fabRbRead_keeps _ ?_ (subF_trans (by decide) hF)
  exact (Keeps.rfl' _ _)

theorem State.fabUsr_keeps {fs : List Zone} {s0 : State} (s : State) (ini : ℕ) (n : ℕ) (v : Word) (h1 : Keeps fs s0 s) (hF : subF [.block 7] fs = true) :
    Keeps fs s0 (State.fabUsr s ini n v).1 := by
  unfold State.fabUsr
  refine keeps_ite_fst ?_ ?_
  · refine keeps_mk_fst ?_
    refine setReg_keeps _ _ ?_ (alwL hF 7 0 (by simp only [Reg.FAB_USR]; omega))
    exact h1
  · refine keeps_mk_fst ?_
    exact h1

theorem execFabUsrWrite_keeps (ini : ℕ) (n : ℕ) (v : Word) (s : State) : ∃ s', execFabUsrWrite ini n v s = .next s' ∧
    Keeps [.block 7] s s' := by
  have hF : subF [.block 7] [.block 7] = true := by decide
  unfold execFabUsrWrite
  refine ⟨_, rfl, ?_⟩
  refine State.fabUsr_keeps _ _ _ _ ?_ (subF_trans (by decide) hF)
  exact (Keeps.rfl' _ _)

theorem State.fabUser_keeps {fs : List Zone} {s0 : State} (s : State) (i : ℕ) (h1 : Keeps fs s0 s) (hF : subF [.block 1, .out] fs = true) :
    Keeps fs s0 (State.fabUser s i) := by
  unfold State.fabUser
  refine State.fireIf_keeps _ _ _ ?_ (subF_trans (by decide) hF)
  exact h1

theorem execFabUser_keeps (i : ℕ) (s : State) : ∃ s', execFabUser i s = .next s' ∧
    Keeps [.block 1, .out] s s' := by
  have hF : subF [.block 1, .out] [.block 1, .out] = true := by decide
  unfold execFabUser
  refine ⟨_, rfl, ?_⟩
  refine State.fabUser_keeps _ _ ?_ (subF_trans (by decide) hF)
  exact (Keeps.rfl' _ _)

theorem State.fabWrite_keeps {fs : List Zone} {s0 : State} (s : State) (ini : ℕ) (a : ℕ) (v : Word) (h1 : Keeps fs s0 s) (hF : subF [.block 7, .jt, .fab, .block 1, .out, .regs, .free] fs = true) :
    Keeps fs s0 (State.fabWrite s ini a v).1 := by
  unfold State.fabWrite
  extract_lets -merge -underBinder y966
  have k967 : Keeps fs s0 y966 := by
    refine codeWrite_keeps _ _ ?_ (alwR hF (by decide))
    exact h1
  refine keeps_ite_fst ?_ ?_
  · refine State.fabUsr_keeps _ _ _ _ ?_ (subF_trans (by decide) hF)
    exact h1
  · refine keeps_ite_fst ?_ ?_
    · refine keeps_mk_fst ?_
      exact h1
    · refine keeps_ite_fst ?_ ?_
      · refine keeps_mk_fst ?_
        refine State.fabCtl_keeps _ _ ?_ (subF_trans (by decide) hF)
        exact h1
      · refine keeps_ite_fst ?_ ?_
        · refine State.fabData_keeps _ _ ?_ (subF_trans (by decide) hF)
          exact h1
        · refine keeps_ite_fst ?_ ?_
          · refine keeps_mk_fst ?_
            refine keeps_ite ?_ ?_
            · refine State.fabProgram_keeps _ ?_ (subF_trans (by decide) hF)
              exact k967
            · exact k967
          · refine keeps_ite_fst ?_ ?_
            · refine keeps_ite_fst ?_ ?_
              · refine keeps_mk_fst ?_
                refine State.useFree_keeps _ ?_ (subF_trans (by decide) hF)
                refine State.fabSnap_keeps _ _ ?_ (subF_trans (by decide) hF)
                exact h1
              · refine keeps_mk_fst ?_
                exact h1
            · refine keeps_ite_fst ?_ ?_
              · refine keeps_ite_fst ?_ ?_
                · refine keeps_mk_fst ?_
                  exact h1
                · refine keeps_mk_fst ?_
                  refine codeWrite_keeps _ _ ?_ (alwR hF (by decide))
                  exact h1
              · refine keeps_mk_fst ?_
                refine codeWrite_keeps _ _ ?_ (alwR hF (by decide))
                exact h1

end Sys2Proof.Machine
end

