-- ==== Sys2Proof/Laws/KeepsPower.lean ====
section
/-! SUPPORT. What each operation of Machine/Power.lean can change, one lemma an operation (Laws/KeepsBase.lean). -/

-- elaborated one declaration at a time, so that the package compiles as one text in bounded memory
set_option Elab.async false

namespace Sys2Proof.Machine

theorem State.showPersistent_keeps {fs : List Zone} {s0 : State} (s : State) (h1 : Keeps fs s0 s) (hF : subF [.block 8, .block 6, .block 7] fs = true) :
    Keeps fs s0 (State.showPersistent s) := by
  unfold State.showPersistent
  extract_lets -merge -underBinder y968 y969
  have k970 : Keeps fs s0 y968 := by
    refine setFld_keeps _ _ _ _ ?_ (alwB hF 8 rfl (by decide))
    exact h1
  have k971 : Keeps fs s0 y969 := by
    refine setFld_keeps _ _ _ _ ?_ (alwB hF 8 rfl (by decide))
    refine setBit_keeps _ _ _ ?_ (alwB hF 8 rfl (by decide))
    exact k970
  refine setBit_keeps _ _ _ ?_ (alwB hF 6 rfl (by decide))
  refine State.fabFlashShow_keeps _ ?_ (subF_trans (by decide) hF)
  exact k971

/-- A reset of the register bank keeps its canonical form. -/
theorem resetRegs_wf (f : Nat → Nat) (regs : List (Nat × Word)) (h : Store.wf bankDefault regs = true) :
    Store.wf bankDefault (resetRegs f regs) = true := by
  simp only [Store.wf, Bool.and_eq_true] at h ⊢
  have key : ∀ b, Store.rising b regs = true → Store.rising b (resetRegs f regs) = true ∧ Store.noDefault bankDefault (resetRegs f regs) = true := by
    clear h
    induction regs with
    | nil => intro b _; cases b <;> exact ⟨rfl, rfl⟩
    | cons e t ih =>
      obtain ⟨j, w⟩ := e
      intro b hb
      have ht : Store.rising (some j) t = true := by cases b <;> simp [Store.rising] at hb; exacts [hb, hb.2]
      have it := ih _ ht
      have hdef : ∀ x, resetRegs f ((j, w) :: t) = x → (x = resetRegs f t ∨ ∃ v, v ≠ bankDefault j ∧ x = (j, v) :: resetRegs f t) := by
        intro x hx
        subst hx
        simp only [resetRegs, List.filterMap_cons]
        split
        · rename_i heq; left; rfl
        · rename_i v heq
          right
          split at heq
          · cases heq
          · rename_i hne
            cases heq
            exact ⟨_, hne, rfl⟩
      rcases hdef _ rfl with hx | ⟨v, hv, hx⟩ <;> rw [hx]
      · refine ⟨?_, it.2⟩
        cases b with
        | none =>
          have := it.1
          cases hr : resetRegs f t with
          | nil => rfl
          | cons q r => obtain ⟨i, u⟩ := q; rw [hr] at this; simp [Store.rising] at this ⊢; exact this.2
        | some c =>
          simp [Store.rising] at hb
          exact Store.rising_weaken _ (by omega) it.1
      · refine ⟨?_, ?_⟩
        · cases b with
          | none => simpa [Store.rising] using it.1
          | some c => simp [Store.rising] at hb ⊢; exact ⟨hb.1, it.1⟩
        · simp [Store.noDefault, hv, it.2]
  exact key none h.1

theorem State.lose_keeps {fs : List Zone} {s0 : State} (s : State) (f : ℕ → ℕ) (sec : Bool) (h1 : Keeps fs s0 s) (hF : subF [.regs, .arr, .planes, .trv, .disp, .cs, .sp, .sec, .ddr, .memo, .jt, .pcie, .sched, .kernels, .running, .pwr, .cpl, .fab, .sm, .streams, .pipes, .il, .tkt] fs = true) :
    Keeps fs s0 (State.lose s f sec) := by
  unfold State.lose
  refine State.showPersistent_keeps _ ?_ (subF_trans (by decide) hF)
  constructor
  · intro f' hf'
    have h0 := h1.only f' hf'
    cases f'
    case block b => exact absurd (inList_of_subF hF (f := .block b) (by simp [Zone.inList])) (by simp [hf'])
    case arr => first | exact h0 | exact absurd (alw (f := .arr) hF (by decide)) (by simp [hf'])
    case planes => first | exact h0 | exact absurd (alw (f := .planes) hF (by decide)) (by simp [hf'])
    case trv => first | exact h0 | exact absurd (alw (f := .trv) hF (by decide)) (by simp [hf'])
    case disp => first | exact h0 | exact absurd (alw (f := .disp) hF (by decide)) (by simp [hf'])
    case cs => first | exact h0 | exact absurd (alw (f := .cs) hF (by decide)) (by simp [hf'])
    case sp => first | exact h0 | exact absurd (alw (f := .sp) hF (by decide)) (by simp [hf'])
    case sec => first | exact h0 | exact absurd (alw (f := .sec) hF (by decide)) (by simp [hf'])
    case ddr => first | exact h0 | exact absurd (alw (f := .ddr) hF (by decide)) (by simp [hf'])
    case memo => first | exact h0 | exact absurd (alw (f := .memo) hF (by decide)) (by simp [hf'])
    case jt => first | exact h0 | exact absurd (alw (f := .jt) hF (by decide)) (by simp [hf'])
    case pcie => first | exact h0 | exact absurd (alw (f := .pcie) hF (by decide)) (by simp [hf'])
    case sched => first | exact h0 | exact absurd (alw (f := .sched) hF (by decide)) (by simp [hf'])
    case kernels => first | exact h0 | exact absurd (alw (f := .kernels) hF (by decide)) (by simp [hf'])
    case running => first | exact h0 | exact absurd (alw (f := .running) hF (by decide)) (by simp [hf'])
    case pwr => first | exact h0 | exact absurd (alw (f := .pwr) hF (by decide)) (by simp [hf'])
    case cpl => first | exact h0 | exact absurd (alw (f := .cpl) hF (by decide)) (by simp [hf'])
    case fab => first | exact h0 | exact absurd (alw (f := .fab) hF (by decide)) (by simp [hf'])
    case sm => first | exact h0 | exact absurd (alw (f := .sm) hF (by decide)) (by simp [hf'])
    case streams => first | exact h0 | exact absurd (alw (f := .streams) hF (by decide)) (by simp [hf'])
    case pipes => first | exact h0 | exact absurd (alw (f := .pipes) hF (by decide)) (by simp [hf'])
    case il => first | exact h0 | exact absurd (alw (f := .il) hF (by decide)) (by simp [hf'])
    case tkt => first | exact h0 | exact absurd (alw (f := .tkt) hF (by decide)) (by simp [hf'])
    all_goals exact h0
  · intro hc
    have h0 := (canonical_iff s).mp (h1.canon hc)
    refine (canonical_iff _).mpr ⟨resetRegs_wf f _ h0.1, rfl, rfl, ?_, rfl⟩
    dsimp only
    cases sec
    · rfl
    · exact h0.2.2.2.1
  · exact h1.queue
  · exact h1.out

theorem State.startRelease_keeps {fs : List Zone} {s0 : State} (s : State) (h1 : Keeps fs s0 s) (hF : subF [.pwr, .block 7, .fab, .block 2] fs = true) :
    Keeps fs s0 (State.startRelease s) := by
  unfold State.startRelease
  extract_lets -merge -underBinder y978 y979 y980
  have k981 : Keeps fs s0 y980 := by
    refine Keeps.upd ?_ (.inr rfl) (.inl ⟨rfl, rfl⟩) (.inr rfl) (.inr rfl) (.inr rfl) (.inl ⟨rfl, rfl⟩) (.inl ⟨rfl, rfl⟩) (.inl rfl) (.inr rfl) (.inr rfl) (.inr rfl) (.inr rfl) (.inr ⟨rfl, rfl⟩) (.inr rfl) (.inr rfl) (.inr rfl) (.inr rfl) (.inl (alw hF (by decide))) (.inr rfl) (.inr rfl) (.inr rfl) (.inr rfl) (.inr rfl) (.inr rfl) (.inr rfl) (.inr rfl) (.inr rfl) (.inr rfl) (.inl rfl) rfl
    exact h1
  refine State.fabPowerOn_keeps _ ?_ (subF_trans (by decide) hF)
  refine setFld_keeps _ _ _ _ ?_ (alwB hF 2 rfl (by decide))
  refine setFld_keeps _ _ _ _ ?_ (alwB hF 2 rfl (by decide))
  refine setBit_keeps _ _ _ ?_ (alwB hF 2 rfl (by decide))
  refine setFld_keeps _ _ _ _ ?_ (alwB hF 2 rfl (by decide))
  refine setFld_keeps _ _ _ _ ?_ (alwB hF 2 rfl (by decide))
  exact k981

theorem State.powerUp_keeps {fs : List Zone} {s0 : State} (s : State) (h1 : Keeps fs s0 s) (hF : subF [.pwr] fs = true) :
    Keeps fs s0 (State.powerUp s) := by
  unfold State.powerUp
  extract_lets -merge -underBinder y982 y983
  refine keeps_ite ?_ ?_
  · refine Keeps.upd ?_ (.inr rfl) (.inl ⟨rfl, rfl⟩) (.inr rfl) (.inr rfl) (.inr rfl) (.inl ⟨rfl, rfl⟩) (.inl ⟨rfl, rfl⟩) (.inl rfl) (.inr rfl) (.inr rfl) (.inr rfl) (.inr rfl) (.inr ⟨rfl, rfl⟩) (.inr rfl) (.inr rfl) (.inr rfl) (.inr rfl) (.inl (alw hF (by decide))) (.inr rfl) (.inr rfl) (.inr rfl) (.inr rfl) (.inr rfl) (.inr rfl) (.inr rfl) (.inr rfl) (.inr rfl) (.inr rfl) (.inl rfl) rfl
    exact h1
  · refine Keeps.upd ?_ (.inr rfl) (.inl ⟨rfl, rfl⟩) (.inr rfl) (.inr rfl) (.inr rfl) (.inl ⟨rfl, rfl⟩) (.inl ⟨rfl, rfl⟩) (.inl rfl) (.inr rfl) (.inr rfl) (.inr rfl) (.inr rfl) (.inr ⟨rfl, rfl⟩) (.inr rfl) (.inr rfl) (.inr rfl) (.inr rfl) (.inl (alw hF (by decide))) (.inr rfl) (.inr rfl) (.inr rfl) (.inr rfl) (.inr rfl) (.inr rfl) (.inr rfl) (.inr rfl) (.inr rfl) (.inr rfl) (.inl rfl) rfl
    exact h1

theorem State.railInRange_keeps {fs : List Zone} {s0 : State} (s : State) (h1 : Keeps fs s0 s) (hF : subF [.pwr, .block 7, .fab, .block 2] fs = true) :
    Keeps fs s0 (State.railInRange s) := by
  unfold State.railInRange
  split
  · extract_lets -merge -underBinder y984
    refine Keeps.upd ?_ (.inr rfl) (.inl ⟨rfl, rfl⟩) (.inr rfl) (.inr rfl) (.inr rfl) (.inl ⟨rfl, rfl⟩) (.inl ⟨rfl, rfl⟩) (.inl rfl) (.inr rfl) (.inr rfl) (.inr rfl) (.inr rfl) (.inr ⟨rfl, rfl⟩) (.inr rfl) (.inr rfl) (.inr rfl) (.inr rfl) (.inl (alw hF (by decide))) (.inr rfl) (.inr rfl) (.inr rfl) (.inr rfl) (.inr rfl) (.inr rfl) (.inr rfl) (.inr rfl) (.inr rfl) (.inr rfl) (.inl rfl) rfl
    exact h1
  · extract_lets -merge -underBinder y985
    refine Keeps.upd ?_ (.inr rfl) (.inl ⟨rfl, rfl⟩) (.inr rfl) (.inr rfl) (.inr rfl) (.inl ⟨rfl, rfl⟩) (.inl ⟨rfl, rfl⟩) (.inl rfl) (.inr rfl) (.inr rfl) (.inr rfl) (.inr rfl) (.inr ⟨rfl, rfl⟩) (.inr rfl) (.inr rfl) (.inr rfl) (.inr rfl) (.inl (alw hF (by decide))) (.inr rfl) (.inr rfl) (.inr rfl) (.inr rfl) (.inr rfl) (.inr rfl) (.inr rfl) (.inr rfl) (.inr rfl) (.inr rfl) (.inl rfl) rfl
    exact h1
  · refine State.startRelease_keeps _ ?_ (subF_trans (by decide) hF)
    exact h1
  · exact h1

theorem execRailInRange_keeps (s : State) : ∃ s', execRailInRange s = .next s' ∧
    Keeps [.pwr, .block 7, .fab, .block 2] s s' := by
  have hF : subF [.pwr, .block 7, .fab, .block 2] [.pwr, .block 7, .fab, .block 2] = true := by decide
  unfold execRailInRange
  refine ⟨_, rfl, ?_⟩
  refine State.railInRange_keeps _ ?_ (subF_trans (by decide) hF)
  exact (Keeps.rfl' _ _)

theorem State.dropRail_keeps {fs : List Zone} {s0 : State} (s : State) (target : ℕ) (h1 : Keeps fs s0 s) (hF : subF [.pwr] fs = true) :
    Keeps fs s0 (State.dropRail s target) := by
  unfold State.dropRail
  extract_lets -merge -underBinder y986 y987 y988
  refine Keeps.upd ?_ (.inr rfl) (.inl ⟨rfl, rfl⟩) (.inr rfl) (.inr rfl) (.inr rfl) (.inl ⟨rfl, rfl⟩) (.inl ⟨rfl, rfl⟩) (.inl rfl) (.inr rfl) (.inr rfl) (.inr rfl) (.inr rfl) (.inr ⟨rfl, rfl⟩) (.inr rfl) (.inr rfl) (.inr rfl) (.inr rfl) (.inl (alw hF (by decide))) (.inr rfl) (.inr rfl) (.inr rfl) (.inr rfl) (.inr rfl) (.inr rfl) (.inr rfl) (.inr rfl) (.inr rfl) (.inr rfl) (.inl rfl) rfl
  exact h1

theorem State.railsLost_keeps {fs : List Zone} {s0 : State} (s : State) (target : ℕ) (h1 : Keeps fs s0 s) (hF : subF [.regs, .arr, .planes, .trv, .disp, .cs, .sp, .sec, .ddr, .memo, .jt, .pcie, .sched, .kernels, .running, .pwr, .cpl, .fab, .sm, .streams, .pipes, .il, .tkt] fs = true) :
    Keeps fs s0 (State.railsLost s target) := by
  unfold State.railsLost
  extract_lets -merge -underBinder y989 y990
  have k991 : Keeps fs s0 y989 := by
    refine keeps_ite ?_ ?_
    · refine State.lose_keeps _ _ _ ?_ (subF_trans (by decide) hF)
      exact h1
    · refine State.lose_keeps _ _ _ ?_ (subF_trans (by decide) hF)
      exact h1
  refine Keeps.upd ?_ (.inr rfl) (.inl ⟨rfl, rfl⟩) (.inr rfl) (.inr rfl) (.inr rfl) (.inl ⟨rfl, rfl⟩) (.inl ⟨rfl, rfl⟩) (.inl rfl) (.inr rfl) (.inr rfl) (.inr rfl) (.inr rfl) (.inr ⟨rfl, rfl⟩) (.inr rfl) (.inr rfl) (.inr rfl) (.inr rfl) (.inl (alw hF (by decide))) (.inr rfl) (.inr rfl) (.inr rfl) (.inr rfl) (.inr rfl) (.inr rfl) (.inr rfl) (.inr rfl) (.inr rfl) (.inr rfl) (.inl rfl) rfl
  exact k991

theorem State.railTimeout_keeps {fs : List Zone} {s0 : State} (s : State) (h1 : Keeps fs s0 s) (hF : subF [.block 2, .regs, .arr, .planes, .trv, .disp, .cs, .sp, .sec, .ddr, .memo, .jt, .pcie, .sched, .kernels, .running, .pwr, .cpl, .fab, .sm, .streams, .pipes, .il, .tkt] fs = true) :
    Keeps fs s0 (State.railTimeout s) := by
  unfold State.railTimeout
  split
  · extract_lets -merge -underBinder y992 y993 y994
    have k995 : Keeps fs s0 y993 := by
      refine setBit_keeps _ _ _ ?_ (alwB hF 2 rfl (by decide))
      refine State.lose_keeps _ _ _ ?_ (subF_trans (by decide) hF)
      exact h1
    refine State.dropRail_keeps _ _ ?_ (subF_trans (by decide) hF)
    refine Keeps.upd ?_ (.inr rfl) (.inl ⟨rfl, rfl⟩) (.inr rfl) (.inr rfl) (.inr rfl) (.inl ⟨rfl, rfl⟩) (.inl ⟨rfl, rfl⟩) (.inl rfl) (.inr rfl) (.inr rfl) (.inr rfl) (.inr rfl) (.inr ⟨rfl, rfl⟩) (.inr rfl) (.inr rfl) (.inr rfl) (.inr rfl) (.inl (alw hF (by decide))) (.inr rfl) (.inr rfl) (.inr rfl) (.inr rfl) (.inr rfl) (.inr rfl) (.inr rfl) (.inr rfl) (.inr rfl) (.inr rfl) (.inl rfl) rfl
    exact k995
  · exact h1

theorem execRailTimeout_keeps (s : State) : ∃ s', execRailTimeout s = .next s' ∧
    Keeps [.block 2, .regs, .arr, .planes, .trv, .disp, .cs, .sp, .sec, .ddr, .memo, .jt, .pcie, .sched, .kernels, .running, .pwr, .cpl, .fab, .sm, .streams, .pipes, .il, .tkt] s s' := by
  have hF : subF [.block 2, .regs, .arr, .planes, .trv, .disp, .cs, .sp, .sec, .ddr, .memo, .jt, .pcie, .sched, .kernels, .running, .pwr, .cpl, .fab, .sm, .streams, .pipes, .il, .tkt] [.block 2, .regs, .arr, .planes, .trv, .disp, .cs, .sp, .sec, .ddr, .memo, .jt, .pcie, .sched, .kernels, .running, .pwr, .cpl, .fab, .sm, .streams, .pipes, .il, .tkt] = true := by decide
  unfold execRailTimeout
  refine ⟨_, rfl, ?_⟩
  refine State.railTimeout_keeps _ ?_ (subF_trans (by decide) hF)
  exact (Keeps.rfl' _ _)

theorem State.railDown_keeps {fs : List Zone} {s0 : State} (s : State) (h1 : Keeps fs s0 s) (hF : subF [.pwr, .regs, .arr, .planes, .trv, .disp, .cs, .sp, .sec, .ddr, .memo, .jt, .pcie, .sched, .kernels, .running, .cpl, .fab, .sm, .streams, .pipes, .il, .tkt] fs = true) :
    Keeps fs s0 (State.railDown s) := by
  unfold State.railDown
  split
  · refine keeps_ite ?_ ?_
    · refine State.dropRail_keeps _ _ ?_ (subF_trans (by decide) hF)
      refine State.railsLost_keeps _ _ ?_ (subF_trans (by decide) hF)
      exact h1
    · exact h1
  · refine State.dropRail_keeps _ _ ?_ (subF_trans (by decide) hF)
    exact h1
  · exact h1

theorem execRailDownStep_keeps (s : State) : ∃ s', execRailDownStep s = .next s' ∧
    Keeps [.pwr, .regs, .arr, .planes, .trv, .disp, .cs, .sp, .sec, .ddr, .memo, .jt, .pcie, .sched, .kernels, .running, .cpl, .fab, .sm, .streams, .pipes, .il, .tkt] s s' := by
  have hF : subF [.pwr, .regs, .arr, .planes, .trv, .disp, .cs, .sp, .sec, .ddr, .memo, .jt, .pcie, .sched, .kernels, .running, .cpl, .fab, .sm, .streams, .pipes, .il, .tkt] [.pwr, .regs, .arr, .planes, .trv, .disp, .cs, .sp, .sec, .ddr, .memo, .jt, .pcie, .sched, .kernels, .running, .cpl, .fab, .sm, .streams, .pipes, .il, .tkt] = true := by decide
  unfold execRailDownStep
  refine ⟨_, rfl, ?_⟩
  refine State.railDown_keeps _ ?_ (subF_trans (by decide) hF)
  exact (Keeps.rfl' _ _)

theorem State.discharged_keeps {fs : List Zone} {s0 : State} (s : State) (h1 : Keeps fs s0 s) (hF : subF [.pwr] fs = true) :
    Keeps fs s0 (State.discharged s) := by
  unfold State.discharged
  split
  · extract_lets -merge -underBinder y996 y997
    have k998 : Keeps fs s0 y997 := by
      refine Keeps.upd ?_ (.inr rfl) (.inl ⟨rfl, rfl⟩) (.inr rfl) (.inr rfl) (.inr rfl) (.inl ⟨rfl, rfl⟩) (.inl ⟨rfl, rfl⟩) (.inl rfl) (.inr rfl) (.inr rfl) (.inr rfl) (.inr rfl) (.inr ⟨rfl, rfl⟩) (.inr rfl) (.inr rfl) (.inr rfl) (.inr rfl) (.inl (alw hF (by decide))) (.inr rfl) (.inr rfl) (.inr rfl) (.inr rfl) (.inr rfl) (.inr rfl) (.inr rfl) (.inr rfl) (.inr rfl) (.inr rfl) (.inl rfl) rfl
      exact h1
    refine keeps_ite ?_ ?_
    · refine State.powerUp_keeps _ ?_ (subF_trans (by decide) hF)
      exact k998
    · exact k998
  · exact h1

theorem execRailsDischarged_keeps (s : State) : ∃ s', execRailsDischarged s = .next s' ∧
    Keeps [.pwr] s s' := by
  have hF : subF [.pwr] [.pwr] = true := by decide
  unfold execRailsDischarged
  refine ⟨_, rfl, ?_⟩
  refine State.discharged_keeps _ ?_ (subF_trans (by decide) hF)
  exact (Keeps.rfl' _ _)

theorem State.dischargeLate_keeps {fs : List Zone} {s0 : State} (s : State) (h1 : Keeps fs s0 s) (hF : subF [.pwr, .block 2] fs = true) :
    Keeps fs s0 (State.dischargeLate s) := by
  unfold State.dischargeLate
  split
  · refine State.discharged_keeps _ ?_ (subF_trans (by decide) hF)
    refine setBit_keeps _ _ _ ?_ (alwB hF 2 rfl (by decide))
    exact h1
  · exact h1

theorem execDischargeLate_keeps (s : State) : ∃ s', execDischargeLate s = .next s' ∧
    Keeps [.pwr, .block 2] s s' := by
  have hF : subF [.pwr, .block 2] [.pwr, .block 2] = true := by decide
  unfold execDischargeLate
  refine ⟨_, rfl, ?_⟩
  refine State.dischargeLate_keeps _ ?_ (subF_trans (by decide) hF)
  exact (Keeps.rfl' _ _)

theorem State.pwrReverse_keeps {fs : List Zone} {s0 : State} (s : State) (h1 : Keeps fs s0 s) (hF : subF [.block 18, .jt, .pwr, .block 1, .out, .block 2] fs = true) :
    Keeps fs s0 (State.pwrReverse s) := by
  unfold State.pwrReverse
  extract_lets -merge -underBinder y999 y1000 y1001
  have k1002 : Keeps fs s0 y999 := by
    refine keeps_foldl _ _ ?_ ?_
    · exact h1
    · intro z1003 z1005 h1004
      refine State.fencePort_keeps _ _ _ ?_ (subF_trans (by decide) hF)
      exact h1004
  have k1006 : Keeps fs s0 y1001 := by
    refine Keeps.upd ?_ (.inr rfl) (.inl ⟨rfl, rfl⟩) (.inr rfl) (.inr rfl) (.inr rfl) (.inl ⟨rfl, rfl⟩) (.inl ⟨rfl, rfl⟩) (.inl rfl) (.inr rfl) (.inr rfl) (.inr rfl) (.inr rfl) (.inr ⟨rfl, rfl⟩) (.inr rfl) (.inr rfl) (.inr rfl) (.inr rfl) (.inl (alw hF (by decide))) (.inr rfl) (.inr rfl) (.inr rfl) (.inr rfl) (.inr rfl) (.inr rfl) (.inr rfl) (.inr rfl) (.inr rfl) (.inr rfl) (.inl rfl) rfl
    exact k1002
  refine State.fire_keeps _ _ ?_ (subF_trans (by decide) hF)
  refine setBit_keeps _ _ _ ?_ (alwB hF 2 rfl (by decide))
  refine setFld_keeps _ _ _ _ ?_ (alwB hF 2 rfl (by decide))
  refine setFld_keeps _ _ _ _ ?_ (alwB hF 2 rfl (by decide))
  refine setBit_keeps _ _ _ ?_ (alwB hF 2 rfl (by decide))
  exact k1006

theorem State.pwrGo_keeps {fs : List Zone} {s0 : State} (s : State) (h1 : Keeps fs s0 s) (hF : subF [.block 2, .pwr, .block 18, .jt, .block 1, .out] fs = true) :
    Keeps fs s0 (State.pwrGo s) := by
  unfold State.pwrGo
  extract_lets -merge -underBinder y1007
  refine keeps_ite ?_ ?_
  · refine State.pwrBegin_keeps _ _ _ ?_ (subF_trans (by decide) hF)
    exact h1
  · refine keeps_ite ?_ ?_
    · refine keeps_ite ?_ ?_
      · refine State.pwrReverse_keeps _ ?_ (subF_trans (by decide) hF)
        exact h1
      · refine keeps_foldl _ _ ?_ ?_
        · refine State.pwrBegin_keeps _ _ _ ?_ (subF_trans (by decide) hF)
          exact h1
        · intro z1008 z1010 h1009
          refine State.fencePort_keeps _ _ _ ?_ (subF_trans (by decide) hF)
          exact h1009
    · exact h1

theorem State.pwrWrite_keeps {fs : List Zone} {s0 : State} (s : State) (ini : ℕ) (a : ℕ) (v : Word) (h1 : Keeps fs s0 s) (hF : subF [.regs, .block 2, .pwr, .block 18, .jt, .block 1, .out] fs = true) :
    Keeps fs s0 (State.pwrWrite s ini a v).1 := by
  unfold State.pwrWrite
  extract_lets -merge -underBinder y1011 y1012 y1013
  have k1014 : Keeps fs s0 y1012 := by
    refine setFld_keeps _ _ _ _ ?_ (alwR hF (by decide))
    refine codeWrite_keeps _ _ ?_ (alwR hF (by decide))
    exact h1
  have k1015 : Keeps fs s0 y1013 := by
    refine keeps_ite ?_ ?_
    · refine State.pwrBegin_keeps _ _ _ ?_ (subF_trans (by decide) hF)
      exact k1014
    · split
      · extract_lets -merge -underBinder y1016
        refine keeps_ite ?_ ?_
        · refine setFld_keeps _ _ _ _ ?_ (alwB hF 2 rfl (by decide))
          refine setBit_keeps _ _ _ ?_ (alwB hF 2 rfl (by decide))
          refine Keeps.upd ?_ (.inr rfl) (.inl ⟨rfl, rfl⟩) (.inr rfl) (.inr rfl) (.inr rfl) (.inl ⟨rfl, rfl⟩) (.inl ⟨rfl, rfl⟩) (.inl rfl) (.inr rfl) (.inr rfl) (.inr rfl) (.inr rfl) (.inr ⟨rfl, rfl⟩) (.inr rfl) (.inr rfl) (.inr rfl) (.inr rfl) (.inl (alw hF (by decide))) (.inr rfl) (.inr rfl) (.inr rfl) (.inr rfl) (.inr rfl) (.inr rfl) (.inr rfl) (.inr rfl) (.inr rfl) (.inr rfl) (.inl rfl) rfl
          exact k1014
        · refine State.pwrBegin_keeps _ _ _ ?_ (subF_trans (by decide) hF)
          exact k1014
      · exact k1014
  refine keeps_ite_fst ?_ ?_
  · refine keeps_mk_fst ?_
    exact h1
  · refine keeps_ite_fst ?_ ?_
    · refine keeps_ite_fst ?_ ?_
      · refine keeps_mk_fst ?_
        exact h1
      · refine keeps_mk_fst ?_
        refine keeps_ite ?_ ?_
        · refine State.pwrGo_keeps _ ?_ (subF_trans (by decide) hF)
          exact k1015
        · exact k1015
    · refine keeps_mk_fst ?_
      refine codeWrite_keeps _ _ ?_ (alwR hF (by decide))
      exact h1

theorem State.wakeEvent_keeps {fs : List Zone} {s0 : State} (s : State) (k : ℕ) (h1 : Keeps fs s0 s) (hF : subF [.pwr, .block 2, .block 1, .out, .block 18, .jt] fs = true) :
    Keeps fs s0 (State.wakeEvent s k) := by
  unfold State.wakeEvent
  extract_lets -merge -underBinder y1017 y1018
  have k1019 : Keeps fs s0 y1018 := by
    refine Keeps.upd ?_ (.inr rfl) (.inl ⟨rfl, rfl⟩) (.inr rfl) (.inr rfl) (.inr rfl) (.inl ⟨rfl, rfl⟩) (.inl ⟨rfl, rfl⟩) (.inl rfl) (.inr rfl) (.inr rfl) (.inr rfl) (.inr rfl) (.inr ⟨rfl, rfl⟩) (.inr rfl) (.inr rfl) (.inr rfl) (.inr rfl) (.inl (alw hF (by decide))) (.inr rfl) (.inr rfl) (.inr rfl) (.inr rfl) (.inr rfl) (.inr rfl) (.inr rfl) (.inr rfl) (.inr rfl) (.inr rfl) (.inl rfl) rfl
    exact h1
  refine keeps_ite ?_ ?_
  · exact h1
  · split
    · refine keeps_ite ?_ ?_
      · refine keeps_ite ?_ ?_
        · refine State.powerUp_keeps _ ?_ (subF_trans (by decide) hF)
          exact k1019
        · exact h1
      · refine keeps_ite ?_ ?_
        · refine keeps_ite ?_ ?_
          · refine State.powerUp_keeps _ ?_ (subF_trans (by decide) hF)
            exact k1019
          · exact h1
        · refine keeps_ite ?_ ?_
          · refine State.pwrToRun_keeps _ ?_ (subF_trans (by decide) hF)
            exact h1
          · exact h1
    · refine keeps_ite ?_ ?_
      · refine keeps_ite ?_ ?_
        · refine State.pwrToRun_keeps _ ?_ (subF_trans (by decide) hF)
          exact h1
        · exact h1
      · refine keeps_ite ?_ ?_
        · refine State.fire_keeps _ _ ?_ (subF_trans (by decide) hF)
          exact k1019
        · exact h1
    · refine keeps_ite ?_ ?_
      · refine State.pwrToRun_keeps _ ?_ (subF_trans (by decide) hF)
        exact h1
      · exact h1
    · refine keeps_ite ?_ ?_
      · refine State.pwrReverse_keeps _ ?_ (subF_trans (by decide) hF)
        exact h1
      · exact h1
    · refine keeps_ite ?_ ?_
      · exact k1019
      · exact h1
    · refine keeps_ite ?_ ?_
      · exact k1019
      · exact h1
    · exact h1

theorem State.coreFell_keeps {fs : List Zone} {s0 : State} (s : State) (h1 : Keeps fs s0 s) (hF : subF [.pwr] fs = true) :
    Keeps fs s0 (State.coreFell s) := by
  unfold State.coreFell
  extract_lets -merge -underBinder y1020
  refine Keeps.upd ?_ (.inr rfl) (.inl ⟨rfl, rfl⟩) (.inr rfl) (.inr rfl) (.inr rfl) (.inl ⟨rfl, rfl⟩) (.inl ⟨rfl, rfl⟩) (.inl rfl) (.inr rfl) (.inr rfl) (.inr rfl) (.inr rfl) (.inr ⟨rfl, rfl⟩) (.inr rfl) (.inr rfl) (.inr rfl) (.inr rfl) (.inl (alw hF (by decide))) (.inr rfl) (.inr rfl) (.inr rfl) (.inr rfl) (.inr rfl) (.inr rfl) (.inr rfl) (.inr rfl) (.inr rfl) (.inr rfl) (.inl rfl) rfl
  exact h1

theorem execVddCoreFall_keeps (s : State) : ∃ s', execVddCoreFall s = .next s' ∧
    Keeps [.pwr] s s' := by
  have hF : subF [.pwr] [.pwr] = true := by decide
  unfold execVddCoreFall
  refine ⟨_, rfl, ?_⟩
  refine State.coreFell_keeps _ ?_ (subF_trans (by decide) hF)
  exact (Keeps.rfl' _ _)

theorem State.aonRise_keeps {fs : List Zone} {s0 : State} (s : State) (h1 : Keeps fs s0 s) (hF : subF [.regs, .arr, .planes, .trv, .disp, .cs, .sp, .sec, .ddr, .memo, .jt, .pcie, .sched, .kernels, .running, .pwr, .cpl, .fab, .sm, .streams, .pipes, .il, .tkt] fs = true) :
    Keeps fs s0 (State.aonRise s) := by
  unfold State.aonRise
  extract_lets -merge -underBinder y1021 y1022 y1023
  have k1024 : Keeps fs s0 y1021 := by
    refine State.lose_keeps _ _ _ ?_ (subF_trans (by decide) hF)
    exact h1
  refine Keeps.upd ?_ (.inr rfl) (.inl ⟨rfl, rfl⟩) (.inr rfl) (.inr rfl) (.inr rfl) (.inl ⟨rfl, rfl⟩) (.inl ⟨rfl, rfl⟩) (.inl rfl) (.inl (alw hF (by decide))) (.inr rfl) (.inr rfl) (.inr rfl) (.inr ⟨rfl, rfl⟩) (.inr rfl) (.inr rfl) (.inr rfl) (.inr rfl) (.inl (alw hF (by decide))) (.inr rfl) (.inr rfl) (.inr rfl) (.inr rfl) (.inr rfl) (.inr rfl) (.inr rfl) (.inr rfl) (.inr rfl) (.inr rfl) (.inl rfl) rfl
  exact k1024

theorem execVddAonRise_keeps (s : State) : ∃ s', execVddAonRise s = .next s' ∧
    Keeps [.regs, .arr, .planes, .trv, .disp, .cs, .sp, .sec, .ddr, .memo, .jt, .pcie, .sched, .kernels, .running, .pwr, .cpl, .fab, .sm, .streams, .pipes, .il, .tkt] s s' := by
  have hF : subF [.regs, .arr, .planes, .trv, .disp, .cs, .sp, .sec, .ddr, .memo, .jt, .pcie, .sched, .kernels, .running, .pwr, .cpl, .fab, .sm, .streams, .pipes, .il, .tkt] [.regs, .arr, .planes, .trv, .disp, .cs, .sp, .sec, .ddr, .memo, .jt, .pcie, .sched, .kernels, .running, .pwr, .cpl, .fab, .sm, .streams, .pipes, .il, .tkt] = true := by decide
  unfold execVddAonRise
  refine ⟨_, rfl, ?_⟩
  refine State.aonRise_keeps _ ?_ (subF_trans (by decide) hF)
  exact (Keeps.rfl' _ _)

theorem State.resetAssert_keeps {fs : List Zone} {s0 : State} (s : State) (h1 : Keeps fs s0 s) (hF : subF [.regs, .arr, .planes, .trv, .disp, .cs, .sp, .sec, .ddr, .memo, .jt, .pcie, .sched, .kernels, .running, .pwr, .cpl, .fab, .sm, .streams, .pipes, .il, .tkt] fs = true) :
    Keeps fs s0 (State.resetAssert s) := by
  unfold State.resetAssert
  extract_lets -merge -underBinder y1025 y1026 y1027 y1028
  have k1029 : Keeps fs s0 y1025 := by
    refine State.lose_keeps _ _ _ ?_ (subF_trans (by decide) hF)
    exact h1
  refine Keeps.upd ?_ (.inr rfl) (.inl ⟨rfl, rfl⟩) (.inr rfl) (.inr rfl) (.inr rfl) (.inl ⟨rfl, rfl⟩) (.inl ⟨rfl, rfl⟩) (.inl rfl) (.inr rfl) (.inr rfl) (.inr rfl) (.inr rfl) (.inr ⟨rfl, rfl⟩) (.inr rfl) (.inr rfl) (.inr rfl) (.inr rfl) (.inl (alw hF (by decide))) (.inr rfl) (.inr rfl) (.inr rfl) (.inr rfl) (.inr rfl) (.inr rfl) (.inr rfl) (.inr rfl) (.inr rfl) (.inr rfl) (.inl rfl) rfl
  exact k1029

theorem execResetNAssert_keeps (s : State) : ∃ s', execResetNAssert s = .next s' ∧
    Keeps [.regs, .arr, .planes, .trv, .disp, .cs, .sp, .sec, .ddr, .memo, .jt, .pcie, .sched, .kernels, .running, .pwr, .cpl, .fab, .sm, .streams, .pipes, .il, .tkt] s s' := by
  have hF : subF [.regs, .arr, .planes, .trv, .disp, .cs, .sp, .sec, .ddr, .memo, .jt, .pcie, .sched, .kernels, .running, .pwr, .cpl, .fab, .sm, .streams, .pipes, .il, .tkt] [.regs, .arr, .planes, .trv, .disp, .cs, .sp, .sec, .ddr, .memo, .jt, .pcie, .sched, .kernels, .running, .pwr, .cpl, .fab, .sm, .streams, .pipes, .il, .tkt] = true := by decide
  unfold execResetNAssert
  refine ⟨_, rfl, ?_⟩
  refine State.resetAssert_keeps _ ?_ (subF_trans (by decide) hF)
  exact (Keeps.rfl' _ _)

theorem State.resetRelease_keeps {fs : List Zone} {s0 : State} (s : State) (h1 : Keeps fs s0 s) (hF : subF [.pwr, .block 7, .fab, .block 2] fs = true) :
    Keeps fs s0 (State.resetRelease s) := by
  unfold State.resetRelease
  extract_lets -merge -underBinder y1030 y1031 y1032
  have k1033 : Keeps fs s0 y1032 := by
    refine Keeps.upd ?_ (.inr rfl) (.inl ⟨rfl, rfl⟩) (.inr rfl) (.inr rfl) (.inr rfl) (.inl ⟨rfl, rfl⟩) (.inl ⟨rfl, rfl⟩) (.inl rfl) (.inr rfl) (.inr rfl) (.inr rfl) (.inr rfl) (.inr ⟨rfl, rfl⟩) (.inr rfl) (.inr rfl) (.inr rfl) (.inr rfl) (.inl (alw hF (by decide))) (.inr rfl) (.inr rfl) (.inr rfl) (.inr rfl) (.inr rfl) (.inr rfl) (.inr rfl) (.inr rfl) (.inr rfl) (.inr rfl) (.inl rfl) rfl
    exact h1
  refine keeps_ite ?_ ?_
  · refine keeps_ite ?_ ?_
    · refine State.startRelease_keeps _ ?_ (subF_trans (by decide) hF)
      exact k1033
    · refine State.powerUp_keeps _ ?_ (subF_trans (by decide) hF)
      exact k1033
  · exact h1

theorem execResetNRelease_keeps (s : State) : ∃ s', execResetNRelease s = .next s' ∧
    Keeps [.pwr, .block 7, .fab, .block 2] s s' := by
  have hF : subF [.pwr, .block 7, .fab, .block 2] [.pwr, .block 7, .fab, .block 2] = true := by decide
  unfold execResetNRelease
  refine ⟨_, rfl, ?_⟩
  refine State.resetRelease_keeps _ ?_ (subF_trans (by decide) hF)
  exact (Keeps.rfl' _ _)

theorem State.sensors_keeps {fs : List Zone} {s0 : State} (s : State) (t : List (BitVec 16)) (h1 : Keeps fs s0 s) (hF : subF [.block 1, .out, .block 2, .pwr] fs = true) :
    Keeps fs s0 (State.sensors s t) := by
  unfold State.sensors
  extract_lets -merge -underBinder y1034 y1035 y1036 y1037 y1038
  have k1039 : Keeps fs s0 y1037 := by
    refine State.fireIf_keeps _ _ _ ?_ (subF_trans (by decide) hF)
    refine setFld_keeps _ _ _ _ ?_ (alwB hF 2 rfl (by decide))
    exact h1
  refine keeps_ite ?_ ?_
  · exact h1
  · refine Keeps.upd ?_ (.inr rfl) (.inl ⟨rfl, rfl⟩) (.inr rfl) (.inr rfl) (.inr rfl) (.inl ⟨rfl, rfl⟩) (.inl ⟨rfl, rfl⟩) (.inl rfl) (.inr rfl) (.inr rfl) (.inr rfl) (.inr rfl) (.inr ⟨rfl, rfl⟩) (.inr rfl) (.inr rfl) (.inr rfl) (.inr rfl) (.inl (alw hF (by decide))) (.inr rfl) (.inr rfl) (.inr rfl) (.inr rfl) (.inr rfl) (.inr rfl) (.inr rfl) (.inr rfl) (.inr rfl) (.inr rfl) (.inl rfl) rfl
    exact k1039

theorem execTempSensorUpdate_keeps (t : List (BitVec 16)) (s : State) : ∃ s', execTempSensorUpdate t s = .next s' ∧
    Keeps [.block 1, .out, .block 2, .pwr] s s' := by
  have hF : subF [.block 1, .out, .block 2, .pwr] [.block 1, .out, .block 2, .pwr] = true := by decide
  unfold execTempSensorUpdate
  refine ⟨_, rfl, ?_⟩
  refine State.sensors_keeps _ _ ?_ (subF_trans (by decide) hF)
  exact (Keeps.rfl' _ _)

theorem State.thermTrip_keeps {fs : List Zone} {s0 : State} (s : State) (h1 : Keeps fs s0 s) (hF : subF [.block 1, .out, .block 2, .pwr] fs = true) :
    Keeps fs s0 (State.thermTrip s) := by
  unfold State.thermTrip
  extract_lets -merge -underBinder y1040
  refine keeps_ite ?_ ?_
  · exact h1
  · refine State.fire_keeps _ _ ?_ (subF_trans (by decide) hF)
    refine setBit_keeps _ _ _ ?_ (alwB hF 2 rfl (by decide))
    refine Keeps.upd ?_ (.inr rfl) (.inl ⟨rfl, rfl⟩) (.inr rfl) (.inr rfl) (.inr rfl) (.inl ⟨rfl, rfl⟩) (.inl ⟨rfl, rfl⟩) (.inl rfl) (.inr rfl) (.inr rfl) (.inr rfl) (.inr rfl) (.inr ⟨rfl, rfl⟩) (.inr rfl) (.inr rfl) (.inr rfl) (.inr rfl) (.inl (alw hF (by decide))) (.inr rfl) (.inr rfl) (.inr rfl) (.inr rfl) (.inr rfl) (.inr rfl) (.inr rfl) (.inr rfl) (.inr rfl) (.inr rfl) (.inl rfl) rfl
    exact h1

theorem execThermtrip_keeps (s : State) : ∃ s', execThermtrip s = .next s' ∧
    Keeps [.block 1, .out, .block 2, .pwr] s s' := by
  have hF : subF [.block 1, .out, .block 2, .pwr] [.block 1, .out, .block 2, .pwr] = true := by decide
  unfold execThermtrip
  refine ⟨_, rfl, ?_⟩
  refine State.thermTrip_keeps _ ?_ (subF_trans (by decide) hF)
  exact (Keeps.rfl' _ _)

theorem State.vmon_keeps {fs : List Zone} {s0 : State} (s : State) (h1 : Keeps fs s0 s) (hF : subF [.block 1, .out, .block 2] fs = true) :
    Keeps fs s0 (State.vmon s) := by
  unfold State.vmon
  refine keeps_ite ?_ ?_
  · refine State.fire_keeps _ _ ?_ (subF_trans (by decide) hF)
    refine setBit_keeps _ _ _ ?_ (alwB hF 2 rfl (by decide))
    exact h1
  · exact h1

theorem execVmon_keeps (s : State) : ∃ s', execVmon s = .next s' ∧
    Keeps [.block 1, .out, .block 2] s s' := by
  have hF : subF [.block 1, .out, .block 2] [.block 1, .out, .block 2] = true := by decide
  unfold execVmon
  refine ⟨_, rfl, ?_⟩
  refine State.vmon_keeps _ ?_ (subF_trans (by decide) hF)
  exact (Keeps.rfl' _ _)

end Sys2Proof.Machine
end

