-- ==== Sys2Proof/Laws/KeepsTraverser.lean ====
section
/-! SUPPORT. What each operation of Machine/Traverser.lean can change, one lemma an operation (Laws/KeepsBase.lean). -/

-- elaborated one declaration at a time, so that the package compiles as one text in bounded memory
set_option Elab.async false

namespace Sys2Proof.Machine

theorem State.trvCopy_keeps {fs : List Zone} {s0 : State} (s : State) (off : ℕ) (h1 : Keeps fs s0 s) (hF : subF [.memo, .block 1, .out, .sp, .block 8, .free] fs = true) :
    Keeps fs s0 (State.trvCopy s off).1 := by
  unfold State.trvCopy
  extract_lets -merge -underBinder y1041
  have k1042 : Keeps fs s0 y1041.1 := by
    refine State.spReadWords_keeps _ _ _ ?_ (subF_trans (by decide) hF)
    exact h1
  refine keeps_ite_fst ?_ ?_
  · refine keeps_mk_fst ?_
    exact h1
  · refine keeps_mk_fst ?_
    refine State.useFree_keeps _ ?_ (subF_trans (by decide) hF)
    exact k1042

theorem State.trvHold_keeps {fs : List Zone} {s0 : State} (s : State) (h1 : Keeps fs s0 s) (hF : subF [.memo, .block 1, .out, .sp, .block 8, .free, .trv] fs = true) :
    Keeps fs s0 (State.trvHold s) := by
  unfold State.trvHold
  extract_lets -merge -underBinder y1043 y1044 y1045
  have k1046 : Keeps fs s0 y1043.1 := by
    refine State.trvCopy_keeps _ _ ?_ (subF_trans (by decide) hF)
    exact h1
  have k1047 : Keeps fs s0 y1044 := by
    exact k1046
  refine Keeps.upd ?_ (.inr rfl) (.inl ⟨rfl, rfl⟩) (.inl (alw hF (by decide))) (.inr rfl) (.inr rfl) (.inl ⟨rfl, rfl⟩) (.inl ⟨rfl, rfl⟩) (.inl rfl) (.inr rfl) (.inr rfl) (.inr rfl) (.inr rfl) (.inr ⟨rfl, rfl⟩) (.inr rfl) (.inr rfl) (.inr rfl) (.inr rfl) (.inr rfl) (.inr rfl) (.inr rfl) (.inr rfl) (.inr rfl) (.inr rfl) (.inr rfl) (.inr rfl) (.inr rfl) (.inr rfl) (.inr rfl) (.inl rfl) rfl
  exact k1047

theorem State.trvWake_keeps {fs : List Zone} {s0 : State} (s : State) (h1 : Keeps fs s0 s) (hF : subF [.disp, .block 17, .sched, .kernels, .running, .log, .free, .memo, .block 1, .out, .sp, .block 8, .trv] fs = true) :
    Keeps fs s0 (State.trvWake s) := by
  unfold State.trvWake
  split
  · extract_lets -merge -underBinder y1048 y1049
    have k1050 : Keeps fs s0 y1048 := by
      refine State.trvHold_keeps _ ?_ (subF_trans (by decide) hF)
      exact h1
    refine keeps_ite ?_ ?_
    · refine State.endInstr_keeps _ _ _ ?_ (subF_trans (by decide) hF)
      refine Keeps.upd ?_ (.inr rfl) (.inl ⟨rfl, rfl⟩) (.inr rfl) (.inl (alw hF (by decide))) (.inr rfl) (.inl ⟨rfl, rfl⟩) (.inl ⟨rfl, rfl⟩) (.inl rfl) (.inr rfl) (.inr rfl) (.inr rfl) (.inr rfl) (.inr ⟨rfl, rfl⟩) (.inr rfl) (.inr rfl) (.inr rfl) (.inr rfl) (.inr rfl) (.inr rfl) (.inr rfl) (.inr rfl) (.inr rfl) (.inr rfl) (.inr rfl) (.inr rfl) (.inr rfl) (.inr rfl) (.inr rfl) (.inl rfl) rfl
      exact k1050
    · exact h1
  · extract_lets -merge -underBinder y1051
    refine keeps_ite ?_ ?_
    · exact h1
    · refine State.endInstr_keeps _ _ _ ?_ (subF_trans (by decide) hF)
      refine Keeps.upd ?_ (.inr rfl) (.inl ⟨rfl, rfl⟩) (.inr rfl) (.inl (alw hF (by decide))) (.inr rfl) (.inl ⟨rfl, rfl⟩) (.inl ⟨rfl, rfl⟩) (.inl rfl) (.inr rfl) (.inr rfl) (.inr rfl) (.inr rfl) (.inr ⟨rfl, rfl⟩) (.inr rfl) (.inr rfl) (.inr rfl) (.inr rfl) (.inr rfl) (.inr rfl) (.inr rfl) (.inr rfl) (.inr rfl) (.inr rfl) (.inr rfl) (.inr rfl) (.inr rfl) (.inr rfl) (.inr rfl) (.inl rfl) rfl
      exact h1
  · exact h1

theorem State.trvComplete_keeps {fs : List Zone} {s0 : State} (s : State) (x : Xfer) (c : Cause) (r : Resp) (off : ℕ) (h1 : Keeps fs s0 s) (hF : subF [.block 1, .out, .block 16] fs = true) :
    Keeps fs s0 (State.trvComplete s x c r off) := by
  unfold State.trvComplete
  extract_lets -merge -underBinder y1052 y1053 y1054
  have k1055 : Keeps fs s0 y1052 := by
    refine State.fireIf_keeps _ _ _ ?_ (subF_trans (by decide) hF)
    refine setBit_keeps _ _ _ ?_ (alwB hF 16 rfl (by decide))
    exact h1
  have k1056 : Keeps fs s0 y1054 := by
    refine keeps_ite ?_ ?_
    · refine setBit_keeps _ _ _ ?_ (alwB hF 16 rfl (by decide))
      exact k1055
    · refine setReg_keeps _ _ ?_ (alwB hF 16 rfl (by decide))
      refine setReg_keeps _ _ ?_ (alwB hF 16 rfl (by decide))
      exact k1055
  refine keeps_ite ?_ ?_
  · exact k1055
  · refine State.fire_keeps _ _ ?_ (subF_trans (by decide) hF)
    exact k1056

theorem State.trvStart_keeps {fs : List Zone} {s0 : State} (s : State) (h1 : Keeps fs s0 s) (hF : subF [.trv, .disp, .block 17, .sched, .kernels, .running, .log, .free, .memo, .block 1, .out, .sp, .block 8, .block 16] fs = true) :
    Keeps fs s0 (State.trvStart s) := by
  unfold State.trvStart
  refine keeps_ite ?_ ?_
  · exact h1
  · split
    · exact h1
    · extract_lets -merge -underBinder y1057 y1058
      refine keeps_ite ?_ ?_
      · refine Keeps.upd ?_ (.inr rfl) (.inl ⟨rfl, rfl⟩) (.inl (alw hF (by decide))) (.inr rfl) (.inr rfl) (.inl ⟨rfl, rfl⟩) (.inl ⟨rfl, rfl⟩) (.inl rfl) (.inr rfl) (.inr rfl) (.inr rfl) (.inr rfl) (.inr ⟨rfl, rfl⟩) (.inr rfl) (.inr rfl) (.inr rfl) (.inr rfl) (.inr rfl) (.inr rfl) (.inr rfl) (.inr rfl) (.inr rfl) (.inr rfl) (.inr rfl) (.inr rfl) (.inr rfl) (.inr rfl) (.inr rfl) (.inl rfl) rfl
        exact h1
      · refine State.trvWake_keeps _ ?_ (subF_trans (by decide) hF)
        refine State.trvComplete_keeps _ _ _ _ _ ?_ (subF_trans (by decide) hF)
        refine Keeps.upd ?_ (.inr rfl) (.inl ⟨rfl, rfl⟩) (.inl (alw hF (by decide))) (.inr rfl) (.inr rfl) (.inl ⟨rfl, rfl⟩) (.inl ⟨rfl, rfl⟩) (.inl rfl) (.inr rfl) (.inr rfl) (.inr rfl) (.inr rfl) (.inr ⟨rfl, rfl⟩) (.inr rfl) (.inr rfl) (.inr rfl) (.inr rfl) (.inr rfl) (.inr rfl) (.inr rfl) (.inr rfl) (.inr rfl) (.inr rfl) (.inr rfl) (.inr rfl) (.inr rfl) (.inr rfl) (.inr rfl) (.inl rfl) rfl
        exact h1

theorem execTransferStart_keeps (s : State) : ∃ s', execTransferStart s = .next s' ∧
    Keeps [.trv, .disp, .block 17, .sched, .kernels, .running, .log, .free, .memo, .block 1, .out, .sp, .block 8, .block 16] s s' := by
  have hF : subF [.trv, .disp, .block 17, .sched, .kernels, .running, .log, .free, .memo, .block 1, .out, .sp, .block 8, .block 16] [.trv, .disp, .block 17, .sched, .kernels, .running, .log, .free, .memo, .block 1, .out, .sp, .block 8, .block 16] = true := by decide
  unfold execTransferStart
  refine ⟨_, rfl, ?_⟩
  refine State.trvStart_keeps _ ?_ (subF_trans (by decide) hF)
  exact (Keeps.rfl' _ _)

theorem State.trvAbort_keeps {fs : List Zone} {s0 : State} (s : State) (h1 : Keeps fs s0 s) (hF : subF [.free, .planes, .trv, .disp, .block 17, .sched, .kernels, .running, .log, .memo, .block 1, .out, .sp, .block 8, .block 16] fs = true) :
    Keeps fs s0 (State.trvAbort s) := by
  unfold State.trvAbort
  extract_lets -merge -underBinder y1059 y1060 y1061 y1062
  have k1063 : Keeps fs s0 y1061 := by
    refine keeps_foldl _ _ ?_ ?_
    · exact h1
    · intro z1064 z1066 h1065
      refine keeps_foldl _ _ ?_ ?_
      · exact h1065
      · intro z1067 z1069 h1068
        extract_lets -merge -underBinder y1070 y1071 y1072
        refine State.useFree_keeps _ ?_ (subF_trans (by decide) hF)
        refine State.writePlane_keeps _ _ _ _ _ ?_ (subF_trans (by decide) hF)
        exact h1068
  have k1073 : Keeps fs s0 y1062 := by
    refine Keeps.upd ?_ (.inr rfl) (.inl ⟨rfl, rfl⟩) (.inl (alw hF (by decide))) (.inr rfl) (.inr rfl) (.inl ⟨rfl, rfl⟩) (.inl ⟨rfl, rfl⟩) (.inl rfl) (.inr rfl) (.inr rfl) (.inr rfl) (.inr rfl) (.inr ⟨rfl, rfl⟩) (.inr rfl) (.inr rfl) (.inr rfl) (.inr rfl) (.inr rfl) (.inr rfl) (.inr rfl) (.inr rfl) (.inr rfl) (.inr rfl) (.inr rfl) (.inr rfl) (.inr rfl) (.inr rfl) (.inr rfl) (.inl rfl) rfl
    exact k1063
  refine State.trvWake_keeps _ ?_ (subF_trans (by decide) hF)
  refine keeps_foldl _ _ ?_ ?_
  · exact k1073
  · intro z1074 z1076 h1075
    refine State.trvComplete_keeps _ _ _ _ _ ?_ (subF_trans (by decide) hF)
    exact h1075

theorem execTrvAbort_keeps (s : State) : ∃ s', execTrvAbort s = .next s' ∧
    Keeps [.free, .planes, .trv, .disp, .block 17, .sched, .kernels, .running, .log, .memo, .block 1, .out, .sp, .block 8, .block 16] s s' := by
  have hF : subF [.free, .planes, .trv, .disp, .block 17, .sched, .kernels, .running, .log, .memo, .block 1, .out, .sp, .block 8, .block 16] [.free, .planes, .trv, .disp, .block 17, .sched, .kernels, .running, .log, .memo, .block 1, .out, .sp, .block 8, .block 16] = true := by decide
  unfold execTrvAbort
  refine ⟨_, rfl, ?_⟩
  refine State.trvAbort_keeps _ ?_ (subF_trans (by decide) hF)
  exact (Keeps.rfl' _ _)

end Sys2Proof.Machine
end

