-- ==== Sys2Proof/Laws/KeepsSidings.lean ====
section
/-! SUPPORT. What each operation of Machine/Sidings.lean can change, one lemma an operation (Laws/KeepsBase.lean). -/

-- elaborated one declaration at a time, so that the package compiles as one text in bounded memory
set_option Elab.async false

namespace Sys2Proof.Machine

theorem State.applySub_keeps {fs : List Zone} {s0 : State} (s : State) (p : ℕ) (j : ℕ) (st : ℕ) (tgt : ℕ) (h1 : Keeps fs s0 s) (hF : subF [.block 16, .arr] fs = true) :
    Keeps fs s0 (State.applySub s p j st tgt) := by
  unfold State.applySub
  extract_lets -merge -underBinder y1077 y1078 y1079 y1080 y1081 y1082
  have k1083 : Keeps fs s0 y1079 := by
    refine setFld_keeps _ _ _ _ ?_ (alwL hF 16 1 (by simp only [y1077, Reg.act, colSubReg, Reg.COL_SUB]; omega))
    refine setFld_keeps _ _ _ _ ?_ (alwL hF 16 1 (by simp only [y1077, Reg.act, colSubReg, Reg.COL_SUB]; omega))
    exact h1
  have k1084 : Keeps fs s0 y1080 := by
    refine setBit_keeps _ _ _ ?_ (alwL hF 16 0 (by simp only [y1077, colSubReg, Reg.COL_SUB]; omega))
    refine setFld_keeps _ _ _ _ ?_ (alwL hF 16 0 (by simp only [y1077, colSubReg, Reg.COL_SUB]; omega))
    refine setFld_keeps _ _ _ _ ?_ (alwL hF 16 0 (by simp only [y1077, colSubReg, Reg.COL_SUB]; omega))
    exact k1083
  have k1085 : Keeps fs s0 y1082 := by
    refine keeps_ite ?_ ?_
    · refine setBit_keeps _ _ _ ?_ (alwL hF 16 0 (by simp only [y1077, colSubReg, Reg.COL_SUB]; omega))
      refine Keeps.upd ?_ (.inl (alw hF (by decide))) (.inl ⟨rfl, rfl⟩) (.inr rfl) (.inr rfl) (.inr rfl) (.inl ⟨rfl, rfl⟩) (.inl ⟨rfl, rfl⟩) (.inl rfl) (.inr rfl) (.inr rfl) (.inr rfl) (.inr rfl) (.inr ⟨rfl, rfl⟩) (.inr rfl) (.inr rfl) (.inr rfl) (.inr rfl) (.inr rfl) (.inr rfl) (.inr rfl) (.inr rfl) (.inr rfl) (.inr rfl) (.inr rfl) (.inr rfl) (.inr rfl) (.inr rfl) (.inr rfl) (.inl rfl) rfl
      exact k1084
    · exact k1084
  refine setFld_keeps _ _ _ _ ?_ (alwB hF 16 rfl (by decide))
  exact k1085

theorem State.judgeSub_keeps {fs : List Zone} {s0 : State} (s : State) (p : ℕ) (j : ℕ) (other : ℕ × ℕ) (v : Word) (executing : Bool) (h1 : Keeps fs s0 s) (hF : subF [.block 16, .block 1, .out, .arr] fs = true) :
    Keeps fs s0 (State.judgeSub s p j other v executing) := by
  unfold State.judgeSub
  extract_lets -merge -underBinder y1086 y1087 y1088 y1089 y1090
  refine keeps_ite ?_ ?_
  · refine setBit_keeps _ _ _ ?_ (alwB hF 16 rfl (by decide))
    exact h1
  · refine keeps_ite ?_ ?_
    · refine keeps_ite ?_ ?_
      · refine setBit_keeps _ _ _ ?_ (alwL hF 16 0 (by simp only [y1086, colSubReg, Reg.COL_SUB]; omega))
        refine setFld_keeps _ _ _ _ ?_ (alwL hF 16 0 (by simp only [y1086, colSubReg, Reg.COL_SUB]; omega))
        refine setFld_keeps _ _ _ _ ?_ (alwL hF 16 0 (by simp only [y1086, colSubReg, Reg.COL_SUB]; omega))
        exact h1
      · refine State.fire_keeps _ _ ?_ (subF_trans (by decide) hF)
        refine State.applySub_keeps _ _ _ _ _ ?_ (subF_trans (by decide) hF)
        exact h1
    · refine State.applySub_keeps _ _ _ _ _ ?_ (subF_trans (by decide) hF)
      exact h1

theorem State.colSubWrite_keeps {fs : List Zone} {s0 : State} (s : State) (p : ℕ) (v : Word) (executing : Bool) (h1 : Keeps fs s0 s) (hF : subF [.block 16, .block 1, .out, .arr] fs = true) :
    Keeps fs s0 (State.colSubWrite s p v executing) := by
  unfold State.colSubWrite
  extract_lets -merge -underBinder y1091
  have k1092 : Keeps fs s0 y1091 := by
    refine State.judgeSub_keeps _ _ _ _ _ _ ?_ (subF_trans (by decide) hF)
    exact h1
  refine State.judgeSub_keeps _ _ _ _ _ _ ?_ (subF_trans (by decide) hF)
  exact k1092

theorem execColSubWrite_keeps (p : ℕ) (v : Word) (executing : Bool) (s : State) : ∃ s', execColSubWrite p v executing s = .next s' ∧
    Keeps [.block 16, .block 1, .out, .arr] s s' := by
  have hF : subF [.block 16, .block 1, .out, .arr] [.block 16, .block 1, .out, .arr] = true := by decide
  unfold execColSubWrite
  refine ⟨_, rfl, ?_⟩
  refine State.colSubWrite_keeps _ _ _ _ ?_ (subF_trans (by decide) hF)
  exact (Keeps.rfl' _ _)

theorem State.subApplied_keeps {fs : List Zone} {s0 : State} (s : State) (p : ℕ) (j : ℕ) (h1 : Keeps fs s0 s) (hF : subF [.block 1, .out, .block 16, .arr] fs = true) :
    Keeps fs s0 (State.subApplied s p j) := by
  unfold State.subApplied
  extract_lets -merge -underBinder y1093
  refine keeps_ite ?_ ?_
  · refine State.fire_keeps _ _ ?_ (subF_trans (by decide) hF)
    refine State.applySub_keeps _ _ _ _ _ ?_ (subF_trans (by decide) hF)
    exact h1
  · exact h1

theorem execSubstitutionApplied_keeps (p : ℕ) (slot : ℕ) (s : State) : ∃ s', execSubstitutionApplied p slot s = .next s' ∧
    Keeps [.block 1, .out, .block 16, .arr] s s' := by
  have hF : subF [.block 1, .out, .block 16, .arr] [.block 1, .out, .block 16, .arr] = true := by decide
  unfold execSubstitutionApplied
  refine ⟨_, rfl, ?_⟩
  refine State.subApplied_keeps _ _ _ ?_ (subF_trans (by decide) hF)
  exact (Keeps.rfl' _ _)

theorem State.colmonClr_keeps {fs : List Zone} {s0 : State} (s : State) (p : ℕ) (h1 : Keeps fs s0 s) (hF : subF [.block 16] fs = true) :
    Keeps fs s0 (State.colmonClr s p) := by
  unfold State.colmonClr
  refine setFld_keeps _ _ _ _ ?_ (alwL hF 16 0 (by simp only [colmonReg, Reg.COLMON]; omega))
  refine setFld_keeps _ _ _ _ ?_ (alwL hF 16 0 (by simp only [colmonReg, Reg.COLMON]; omega))
  exact h1

theorem execColmonClr_keeps (p : ℕ) (s : State) : ∃ s', execColmonClr p s = .next s' ∧
    Keeps [.block 16] s s' := by
  have hF : subF [.block 16] [.block 16] = true := by decide
  unfold execColmonClr
  refine ⟨_, rfl, ?_⟩
  refine State.colmonClr_keeps _ _ ?_ (subF_trans (by decide) hF)
  exact (Keeps.rfl' _ _)

theorem State.mirrorWrite_keeps {fs : List Zone} {s0 : State} (s : State) (v : Word) (h1 : Keeps fs s0 s) (hF : subF [.block 16, .arr] fs = true) :
    Keeps fs s0 (State.mirrorWrite s v) := by
  unfold State.mirrorWrite
  extract_lets -merge -underBinder y1094 y1095 y1096 y1097 y1098 y1099
  have k1100 : Keeps fs s0 y1098 := by
    refine setReg_keeps _ _ ?_ (alwB hF 16 rfl (by decide))
    exact h1
  refine keeps_ite ?_ ?_
  · refine keeps_ite ?_ ?_
    · refine setBit_keeps _ _ _ ?_ (alwB hF 16 rfl (by decide))
      exact h1
    · refine Keeps.upd ?_ (.inl (alw hF (by decide))) (.inl ⟨rfl, rfl⟩) (.inr rfl) (.inr rfl) (.inr rfl) (.inl ⟨rfl, rfl⟩) (.inl ⟨rfl, rfl⟩) (.inl rfl) (.inr rfl) (.inr rfl) (.inr rfl) (.inr rfl) (.inr ⟨rfl, rfl⟩) (.inr rfl) (.inr rfl) (.inr rfl) (.inr rfl) (.inr rfl) (.inr rfl) (.inr rfl) (.inr rfl) (.inr rfl) (.inr rfl) (.inr rfl) (.inr rfl) (.inr rfl) (.inr rfl) (.inr rfl) (.inl rfl) rfl
      exact k1100
  · refine keeps_ite ?_ ?_
    · refine setBit_keeps _ _ _ ?_ (alwB hF 16 rfl (by decide))
      exact h1
    · refine setFld_keeps _ _ _ _ ?_ (alwB hF 16 rfl (by decide))
      exact h1

theorem execMirrorCtlWrite_keeps (v : Word) (s : State) : ∃ s', execMirrorCtlWrite v s = .next s' ∧
    Keeps [.block 16, .arr] s s' := by
  have hF : subF [.block 16, .arr] [.block 16, .arr] = true := by decide
  unfold execMirrorCtlWrite
  refine ⟨_, rfl, ?_⟩
  refine State.mirrorWrite_keeps _ _ ?_ (subF_trans (by decide) hF)
  exact (Keeps.rfl' _ _)

theorem State.fillPlatform_keeps {fs : List Zone} {s0 : State} (s : State) (p : ℕ) (v : Option Word74) (m : Option Word74) (h1 : Keeps fs s0 s) (hF : subF [.planes] fs = true) :
    Keeps fs s0 (State.fillPlatform s p v m) := by
  unfold State.fillPlatform
  refine keeps_foldl _ _ ?_ ?_
  · exact h1
  · intro z1101 z1103 h1102
    refine State.setPlaneCells_keeps _ _ _ ?_ (subF_trans (by decide) hF)
    exact h1102

theorem State.bistStart_keeps {fs : List Zone} {s0 : State} (s : State) (v : Word) (h1 : Keeps fs s0 s) (hF : subF [.block 16, .planes] fs = true) :
    Keeps fs s0 (State.bistStart s v) := by
  unfold State.bistStart
  extract_lets -merge -underBinder y1104 y1105 y1106
  have k1107 : Keeps fs s0 y1105 := by
    refine setFld_keeps _ _ _ _ ?_ (alwB hF 16 rfl (by decide))
    exact h1
  refine keeps_ite ?_ ?_
  · refine setFld_keeps _ _ _ _ ?_ (alwB hF 16 rfl (by decide))
    exact k1107
  · refine State.fillPlatform_keeps _ _ _ _ ?_ (subF_trans (by decide) hF)
    refine setReg_keeps _ _ ?_ (alwB hF 16 rfl (by decide))
    exact k1107

theorem execBistStart_keeps (v : Word) (s : State) : ∃ s', execBistStart v s = .next s' ∧
    Keeps [.block 16, .planes] s s' := by
  have hF : subF [.block 16, .planes] [.block 16, .planes] = true := by decide
  unfold execBistStart
  refine ⟨_, rfl, ?_⟩
  refine State.bistStart_keeps _ _ ?_ (subF_trans (by decide) hF)
  exact (Keeps.rfl' _ _)

theorem State.bistAbort_keeps {fs : List Zone} {s0 : State} (s : State) (h1 : Keeps fs s0 s) (hF : subF [.block 1, .out, .block 16] fs = true) :
    Keeps fs s0 (State.bistAbort s) := by
  unfold State.bistAbort
  refine keeps_ite ?_ ?_
  · refine State.fire_keeps _ _ ?_ (subF_trans (by decide) hF)
    refine setFld_keeps _ _ _ _ ?_ (alwB hF 16 rfl (by decide))
    refine setBit_keeps _ _ _ ?_ (alwB hF 16 rfl (by decide))
    exact h1
  · exact h1

theorem execBistAbort_keeps (s : State) : ∃ s', execBistAbort s = .next s' ∧
    Keeps [.block 1, .out, .block 16] s s' := by
  have hF : subF [.block 1, .out, .block 16] [.block 1, .out, .block 16] = true := by decide
  unfold execBistAbort
  refine ⟨_, rfl, ?_⟩
  refine State.bistAbort_keeps _ ?_ (subF_trans (by decide) hF)
  exact (Keeps.rfl' _ _)

theorem State.showFailed_keeps {fs : List Zone} {s0 : State} (s : State) (h1 : Keeps fs s0 s) (hF : subF [.block 4] fs = true) :
    Keeps fs s0 (State.showFailed s) := by
  unfold State.showFailed
  refine setFld_keeps _ _ _ _ ?_ (alwB hF 4 rfl (by decide))
  exact h1

theorem State.recordFailed_keeps {fs : List Zone} {s0 : State} (s : State) (p : ℕ) (reason : ℕ) (h1 : Keeps fs s0 s) (hF : subF [.repair, .sched, .log, .free, .block 4] fs = true) :
    Keeps fs s0 (State.recordFailed s p reason) := by
  unfold State.recordFailed
  extract_lets -merge -underBinder y1108 y1109 y1110
  have k1111 : Keeps fs s0 y1110 := by
    refine Keeps.upd ?_ (.inr rfl) (.inl ⟨rfl, rfl⟩) (.inr rfl) (.inr rfl) (.inr rfl) (.inl ⟨rfl, rfl⟩) (.inl ⟨rfl, rfl⟩) (.inl rfl) (.inr rfl) (.inr rfl) (.inr rfl) (.inr rfl) (.inr ⟨rfl, rfl⟩) (.inl (alw hF (by decide))) (.inl (alw hF (by decide))) (.inr rfl) (.inr rfl) (.inr rfl) (.inr rfl) (.inr rfl) (.inr rfl) (.inr rfl) (.inr rfl) (.inr rfl) (.inr rfl) (.inr rfl) (.inr rfl) (.inr rfl) (.inl rfl) rfl
    exact h1
  refine keeps_ite ?_ ?_
  · exact h1
  · refine State.logEvent_keeps _ _ _ _ ?_ (subF_trans (by decide) hF)
    refine State.showFailed_keeps _ ?_ (subF_trans (by decide) hF)
    exact k1111

theorem State.sweepJudge_keeps {fs : List Zone} {s0 : State} (s : State) (h1 : Keeps fs s0 s) (hF : subF [.block 4, .sched, .free] fs = true) :
    Keeps fs s0 (State.sweepJudge s) := by
  unfold State.sweepJudge
  extract_lets -merge -underBinder y1112 y1113 y1114
  have k1115 : Keeps fs s0 y1114 := by
    refine setFld_keeps _ _ _ _ ?_ (alwB hF 4 rfl (by decide))
    refine Keeps.upd ?_ (.inr rfl) (.inl ⟨rfl, rfl⟩) (.inr rfl) (.inr rfl) (.inr rfl) (.inl ⟨rfl, rfl⟩) (.inl ⟨rfl, rfl⟩) (.inl rfl) (.inr rfl) (.inr rfl) (.inr rfl) (.inr rfl) (.inr ⟨rfl, rfl⟩) (.inr rfl) (.inl (alw hF (by decide))) (.inr rfl) (.inr rfl) (.inr rfl) (.inr rfl) (.inr rfl) (.inr rfl) (.inr rfl) (.inr rfl) (.inr rfl) (.inr rfl) (.inr rfl) (.inr rfl) (.inr rfl) (.inl rfl) rfl
    exact h1
  refine keeps_ite ?_ ?_
  · refine State.useFree_keeps _ ?_ (subF_trans (by decide) hF)
    refine setFld_keeps _ _ _ _ ?_ (alwB hF 4 rfl (by decide))
    exact k1115
  · exact h1

theorem State.bistDone_keeps {fs : List Zone} {s0 : State} (s : State) (bad : List ℕ) (other : Bool) (h1 : Keeps fs s0 s) (hF : subF [.planes, .block 1, .out, .block 16, .block 4, .sched, .free, .repair, .log] fs = true) :
    Keeps fs s0 (State.bistDone s bad other) := by
  unfold State.bistDone
  extract_lets -merge -underBinder y1116 y1117 y1118 y1119 y1120 y1121 y1122 y1123 y1124 y1125 y1126
  have k1127 : Keeps fs s0 y1123 := by
    refine State.fillPlatform_keeps _ _ _ _ ?_ (subF_trans (by decide) hF)
    exact h1
  have k1128 : Keeps fs s0 y1124 := by
    refine State.fire_keeps _ _ ?_ (subF_trans (by decide) hF)
    refine setReg_keeps _ _ ?_ (alwB hF 16 rfl (by decide))
    exact k1127
  refine keeps_ite ?_ ?_
  · exact h1
  · refine keeps_ite ?_ ?_
    · refine State.sweepJudge_keeps _ ?_ (subF_trans (by decide) hF)
      refine Keeps.upd ?_ (.inr rfl) (.inl ⟨rfl, rfl⟩) (.inr rfl) (.inr rfl) (.inr rfl) (.inl ⟨rfl, rfl⟩) (.inl ⟨rfl, rfl⟩) (.inl rfl) (.inr rfl) (.inr rfl) (.inr rfl) (.inr rfl) (.inr ⟨rfl, rfl⟩) (.inr rfl) (.inl (alw hF (by decide))) (.inr rfl) (.inr rfl) (.inr rfl) (.inr rfl) (.inr rfl) (.inr rfl) (.inr rfl) (.inr rfl) (.inr rfl) (.inr rfl) (.inr rfl) (.inr rfl) (.inr rfl) (.inl rfl) rfl
      exact k1128
    · refine State.recordFailed_keeps _ _ _ ?_ (subF_trans (by decide) hF)
      exact k1128

theorem execBistDone_keeps (bad : List ℕ) (other : Bool) (s : State) : ∃ s', execBistDone bad other s = .next s' ∧
    Keeps [.planes, .block 1, .out, .block 16, .block 4, .sched, .free, .repair, .log] s s' := by
  have hF : subF [.planes, .block 1, .out, .block 16, .block 4, .sched, .free, .repair, .log] [.planes, .block 1, .out, .block 16, .block 4, .sched, .free, .repair, .log] = true := by decide
  unfold execBistDone
  refine ⟨_, rfl, ?_⟩
  refine State.bistDone_keeps _ _ _ ?_ (subF_trans (by decide) hF)
  exact (Keeps.rfl' _ _)

theorem State.showRate_keeps {fs : List Zone} {s0 : State} (s : State) (h1 : Keeps fs s0 s) (hF : subF [.block 16] fs = true) :
    Keeps fs s0 (State.showRate s) := by
  unfold State.showRate
  refine setFld_keeps _ _ _ _ ?_ (alwB hF 16 rfl (by decide))
  exact h1

theorem State.cleanWindow_keeps {fs : List Zone} {s0 : State} (s : State) (m : ℕ) (slow : ℕ) (h1 : Keeps fs s0 s) (hF : subF [.block 16, .block 1, .out, .sched] fs = true) :
    Keeps fs s0 (State.cleanWindow s m slow) := by
  unfold State.cleanWindow
  extract_lets -merge -underBinder y1129 y1130 y1131 y1132 y1133 y1134 y1135
  have k1136 : Keeps fs s0 y1132 := by
    refine setReg_keeps _ _ ?_ (alwB hF 16 rfl (by decide))
    refine setFld_keeps _ _ _ _ ?_ (alwB hF 16 rfl (by decide))
    exact h1
  have k1137 : Keeps fs s0 y1133 := by
    refine setReg_keeps _ _ ?_ (alwB hF 16 rfl (by decide))
    exact k1136
  have k1138 : Keeps fs s0 y1134 := by
    refine State.fireIf_keeps _ _ _ ?_ (subF_trans (by decide) hF)
    refine State.fireIf_keeps _ _ _ ?_ (subF_trans (by decide) hF)
    refine State.showRate_keeps _ ?_ (subF_trans (by decide) hF)
    exact k1137
  refine keeps_ite ?_ ?_
  · exact h1
  · refine Keeps.upd ?_ (.inr rfl) (.inl ⟨rfl, rfl⟩) (.inr rfl) (.inr rfl) (.inr rfl) (.inl ⟨rfl, rfl⟩) (.inl ⟨rfl, rfl⟩) (.inl rfl) (.inr rfl) (.inr rfl) (.inr rfl) (.inr rfl) (.inr ⟨rfl, rfl⟩) (.inr rfl) (.inl (alw hF (by decide))) (.inr rfl) (.inr rfl) (.inr rfl) (.inr rfl) (.inr rfl) (.inr rfl) (.inr rfl) (.inr rfl) (.inr rfl) (.inr rfl) (.inr rfl) (.inr rfl) (.inr rfl) (.inl rfl) rfl
    exact k1138

theorem execCleanWindowEnd_keeps (m : ℕ) (slow : ℕ) (s : State) : ∃ s', execCleanWindowEnd m slow s = .next s' ∧
    Keeps [.block 16, .block 1, .out, .sched] s s' := by
  have hF : subF [.block 16, .block 1, .out, .sched] [.block 16, .block 1, .out, .sched] = true := by decide
  unfold execCleanWindowEnd
  refine ⟨_, rfl, ?_⟩
  refine State.cleanWindow_keeps _ _ _ ?_ (subF_trans (by decide) hF)
  exact (Keeps.rfl' _ _)

theorem execEstStale_keeps (s : State) : ∃ s', execEstStale s = .next s' ∧
    Keeps [.block 1, .out, .block 16] s s' := by
  have hF : subF [.block 1, .out, .block 16] [.block 1, .out, .block 16] = true := by decide
  unfold execEstStale
  refine ⟨_, rfl, ?_⟩
  refine State.fire_keeps _ _ ?_ (subF_trans (by decide) hF)
  refine setBit_keeps _ _ _ ?_ (alwB hF 16 rfl (by decide))
  refine setReg_keeps _ _ ?_ (alwB hF 16 rfl (by decide))
  exact (Keeps.rfl' _ _)

theorem execEstFallback_keeps (s : State) : ∃ s', execEstFallback s = .next s' ∧
    Keeps [.block 1, .out, .block 16] s s' := by
  have hF : subF [.block 1, .out, .block 16] [.block 1, .out, .block 16] = true := by decide
  unfold execEstFallback
  refine ⟨_, rfl, ?_⟩
  refine State.fire_keeps _ _ ?_ (subF_trans (by decide) hF)
  refine State.showRate_keeps _ ?_ (subF_trans (by decide) hF)
  refine setBit_keeps _ _ _ ?_ (alwB hF 16 rfl (by decide))
  refine setReg_keeps _ _ ?_ (alwB hF 16 rfl (by decide))
  exact (Keeps.rfl' _ _)

theorem State.spendReserve_keeps {fs : List Zone} {s0 : State} (s : State) (h1 : Keeps fs s0 s) (hF : subF [.sched] fs = true) :
    Keeps fs s0 (State.spendReserve s) := by
  unfold State.spendReserve
  extract_lets -merge -underBinder y1139 y1140
  refine keeps_ite ?_ ?_
  · refine Keeps.upd ?_ (.inr rfl) (.inl ⟨rfl, rfl⟩) (.inr rfl) (.inr rfl) (.inr rfl) (.inl ⟨rfl, rfl⟩) (.inl ⟨rfl, rfl⟩) (.inl rfl) (.inr rfl) (.inr rfl) (.inr rfl) (.inr rfl) (.inr ⟨rfl, rfl⟩) (.inr rfl) (.inl (alw hF (by decide))) (.inr rfl) (.inr rfl) (.inr rfl) (.inr rfl) (.inr rfl) (.inr rfl) (.inr rfl) (.inr rfl) (.inr rfl) (.inr rfl) (.inr rfl) (.inr rfl) (.inr rfl) (.inl rfl) rfl
    exact h1
  · refine Keeps.upd ?_ (.inr rfl) (.inl ⟨rfl, rfl⟩) (.inr rfl) (.inr rfl) (.inr rfl) (.inl ⟨rfl, rfl⟩) (.inl ⟨rfl, rfl⟩) (.inl rfl) (.inr rfl) (.inr rfl) (.inr rfl) (.inr rfl) (.inr ⟨rfl, rfl⟩) (.inr rfl) (.inl (alw hF (by decide))) (.inr rfl) (.inr rfl) (.inr rfl) (.inr rfl) (.inr rfl) (.inr rfl) (.inr rfl) (.inr rfl) (.inr rfl) (.inr rfl) (.inr rfl) (.inr rfl) (.inr rfl) (.inl rfl) rfl
    exact h1

theorem State.stripRetry_keeps {fs : List Zone} {s0 : State} (s : State) (display : ℕ) (strip : ℕ) (frame : ℕ) (h1 : Keeps fs s0 s) (hF : subF [.log, .free, .sched] fs = true) :
    Keeps fs s0 (State.stripRetry s display strip frame) := by
  unfold State.stripRetry
  extract_lets -merge -underBinder y1141 y1142 y1143
  have k1144 : Keeps fs s0 y1142 := by
    refine State.spendReserve_keeps _ ?_ (subF_trans (by decide) hF)
    exact h1
  refine keeps_ite ?_ ?_
  · refine State.logEvent_keeps _ _ _ _ ?_ (subF_trans (by decide) hF)
    refine Keeps.upd ?_ (.inr rfl) (.inl ⟨rfl, rfl⟩) (.inr rfl) (.inr rfl) (.inr rfl) (.inl ⟨rfl, rfl⟩) (.inl ⟨rfl, rfl⟩) (.inl rfl) (.inr rfl) (.inr rfl) (.inr rfl) (.inr rfl) (.inr ⟨rfl, rfl⟩) (.inr rfl) (.inl (alw hF (by decide))) (.inr rfl) (.inr rfl) (.inr rfl) (.inr rfl) (.inr rfl) (.inr rfl) (.inr rfl) (.inr rfl) (.inr rfl) (.inr rfl) (.inr rfl) (.inr rfl) (.inr rfl) (.inl rfl) rfl
    exact h1
  · refine State.logEvent_keeps _ _ _ _ ?_ (subF_trans (by decide) hF)
    refine Keeps.upd ?_ (.inr rfl) (.inl ⟨rfl, rfl⟩) (.inr rfl) (.inr rfl) (.inr rfl) (.inl ⟨rfl, rfl⟩) (.inl ⟨rfl, rfl⟩) (.inl rfl) (.inr rfl) (.inr rfl) (.inr rfl) (.inr rfl) (.inr ⟨rfl, rfl⟩) (.inr rfl) (.inl (alw hF (by decide))) (.inr rfl) (.inr rfl) (.inr rfl) (.inr rfl) (.inr rfl) (.inr rfl) (.inr rfl) (.inr rfl) (.inr rfl) (.inr rfl) (.inr rfl) (.inr rfl) (.inr rfl) (.inl rfl) rfl
    exact k1144

theorem execStripRetry_keeps (display : ℕ) (strip : ℕ) (frame : ℕ) (s : State) : ∃ s', execStripRetry display strip frame s = .next s' ∧
    Keeps [.log, .free, .sched] s s' := by
  have hF : subF [.log, .free, .sched] [.log, .free, .sched] = true := by decide
  unfold execStripRetry
  refine ⟨_, rfl, ?_⟩
  refine State.stripRetry_keeps _ _ _ _ ?_ (subF_trans (by decide) hF)
  exact (Keeps.rfl' _ _)

theorem State.forcedWindow_keeps {fs : List Zone} {s0 : State} (s : State) (h1 : Keeps fs s0 s) (hF : subF [.log, .free, .sched] fs = true) :
    Keeps fs s0 (State.forcedWindow s) := by
  unfold State.forcedWindow
  extract_lets -merge -underBinder y1145 y1146 y1147 y1148
  have k1149 : Keeps fs s0 y1145 := by
    refine State.logEvent_keeps _ _ _ _ ?_ (subF_trans (by decide) hF)
    exact h1
  have k1150 : Keeps fs s0 y1147 := by
    refine State.spendReserve_keeps _ ?_ (subF_trans (by decide) hF)
    exact k1149
  refine keeps_ite ?_ ?_
  · refine Keeps.upd ?_ (.inr rfl) (.inl ⟨rfl, rfl⟩) (.inr rfl) (.inr rfl) (.inr rfl) (.inl ⟨rfl, rfl⟩) (.inl ⟨rfl, rfl⟩) (.inl rfl) (.inr rfl) (.inr rfl) (.inr rfl) (.inr rfl) (.inr ⟨rfl, rfl⟩) (.inr rfl) (.inl (alw hF (by decide))) (.inr rfl) (.inr rfl) (.inr rfl) (.inr rfl) (.inr rfl) (.inr rfl) (.inr rfl) (.inr rfl) (.inr rfl) (.inr rfl) (.inr rfl) (.inr rfl) (.inr rfl) (.inl rfl) rfl
    exact k1149
  · refine Keeps.upd ?_ (.inr rfl) (.inl ⟨rfl, rfl⟩) (.inr rfl) (.inr rfl) (.inr rfl) (.inl ⟨rfl, rfl⟩) (.inl ⟨rfl, rfl⟩) (.inl rfl) (.inr rfl) (.inr rfl) (.inr rfl) (.inr rfl) (.inr ⟨rfl, rfl⟩) (.inr rfl) (.inl (alw hF (by decide))) (.inr rfl) (.inr rfl) (.inr rfl) (.inr rfl) (.inr rfl) (.inr rfl) (.inr rfl) (.inr rfl) (.inr rfl) (.inr rfl) (.inr rfl) (.inr rfl) (.inr rfl) (.inl rfl) rfl
    exact k1150

theorem execForcedWindow_keeps (s : State) : ∃ s', execForcedWindow s = .next s' ∧
    Keeps [.log, .free, .sched] s s' := by
  have hF : subF [.log, .free, .sched] [.log, .free, .sched] = true := by decide
  unfold execForcedWindow
  refine ⟨_, rfl, ?_⟩
  refine State.forcedWindow_keeps _ ?_ (subF_trans (by decide) hF)
  exact (Keeps.rfl' _ _)

theorem State.rewriteAll_keeps {fs : List Zone} {s0 : State} (s : State) (h1 : Keeps fs s0 s) (hF : subF [.planes, .arr, .block 16, .free, .block 8, .block 1, .out, .block 3, .disp] fs = true) :
    Keeps fs s0 (State.rewriteAll s) := by
  unfold State.rewriteAll
  refine keeps_foldl _ _ ?_ ?_
  · exact h1
  · intro z1151 z1153 h1152
    refine State.fbit_keeps _ _ _ ?_ (subF_trans (by decide) hF)
    refine State.latchEdges_keeps _ ?_ (subF_trans (by decide) hF)
    exact h1152

theorem State.substituteColumn_keeps {fs : List Zone} {s0 : State} (s : State) (p : ℕ) (h1 : Keeps fs s0 s) (hF : subF [.sched, .planes, .arr, .block 16, .free, .block 8, .block 1, .out, .block 3, .disp, .log, .repair] fs = true) :
    Keeps fs s0 (State.substituteColumn s p) := by
  unfold State.substituteColumn
  extract_lets -merge -underBinder y1154 y1155 y1156
  refine keeps_ite ?_ ?_
  · refine Keeps.upd ?_ (.inr rfl) (.inl ⟨rfl, rfl⟩) (.inr rfl) (.inr rfl) (.inr rfl) (.inl ⟨rfl, rfl⟩) (.inl ⟨rfl, rfl⟩) (.inl rfl) (.inr rfl) (.inr rfl) (.inr rfl) (.inr rfl) (.inr ⟨rfl, rfl⟩) (.inr rfl) (.inl (alw hF (by decide))) (.inr rfl) (.inr rfl) (.inr rfl) (.inr rfl) (.inr rfl) (.inr rfl) (.inr rfl) (.inr rfl) (.inr rfl) (.inr rfl) (.inr rfl) (.inr rfl) (.inr rfl) (.inl rfl) rfl
    exact h1
  · try clear_value y1156
    split
    · exact h1
    · extract_lets -merge -underBinder y1157 y1158 y1159 y1160
      have k1161 : Keeps fs s0 y1157 := by
        refine State.rewriteAll_keeps _ ?_ (subF_trans (by decide) hF)
        refine State.colSubWrite_keeps _ _ _ _ ?_ (subF_trans (by decide) hF)
        exact h1
      have k1162 : Keeps fs s0 y1158 := by
        refine State.colSubWrite_keeps _ _ _ _ ?_ (subF_trans (by decide) hF)
        exact k1161
      have k1163 : Keeps fs s0 y1159 := by
        refine State.colmonClr_keeps _ _ ?_ (subF_trans (by decide) hF)
        exact k1162
      refine keeps_ite ?_ ?_
      · refine State.logEvent_keeps _ _ _ _ ?_ (subF_trans (by decide) hF)
        refine Keeps.upd ?_ (.inr rfl) (.inl ⟨rfl, rfl⟩) (.inr rfl) (.inr rfl) (.inr rfl) (.inl ⟨rfl, rfl⟩) (.inl ⟨rfl, rfl⟩) (.inl rfl) (.inr rfl) (.inr rfl) (.inr rfl) (.inr rfl) (.inr ⟨rfl, rfl⟩) (.inl (alw hF (by decide))) (.inr rfl) (.inr rfl) (.inr rfl) (.inr rfl) (.inr rfl) (.inr rfl) (.inr rfl) (.inr rfl) (.inr rfl) (.inr rfl) (.inr rfl) (.inr rfl) (.inr rfl) (.inr rfl) (.inl rfl) rfl
        exact k1163
      · exact k1162

theorem execSubstituteColumn_keeps (p : ℕ) (s : State) : ∃ s', execSubstituteColumn p s = .next s' ∧
    Keeps [.sched, .planes, .arr, .block 16, .free, .block 8, .block 1, .out, .block 3, .disp, .log, .repair] s s' := by
  have hF : subF [.sched, .planes, .arr, .block 16, .free, .block 8, .block 1, .out, .block 3, .disp, .log, .repair] [.sched, .planes, .arr, .block 16, .free, .block 8, .block 1, .out, .block 3, .disp, .log, .repair] = true := by decide
  unfold execSubstituteColumn
  refine ⟨_, rfl, ?_⟩
  refine State.substituteColumn_keeps _ _ ?_ (subF_trans (by decide) hF)
  exact (Keeps.rfl' _ _)

theorem State.clearArray_keeps {fs : List Zone} {s0 : State} (s : State) (h1 : Keeps fs s0 s) (hF : subF [.block 16, .planes, .arr] fs = true) :
    Keeps fs s0 (State.clearArray s) := by
  unfold State.clearArray
  extract_lets -merge -underBinder y1164 y1165 y1166 y1167 y1168 y1169
  have k1170 : Keeps fs s0 y1164 := by
    refine setBit_keeps _ _ _ ?_ (alwB hF 16 rfl (by decide))
    exact h1
  have k1171 : Keeps fs s0 y1168 := by
    refine keeps_ite ?_ ?_
    · refine Keeps.upd ?_ (.inr rfl) (.inr ⟨alw hF (by decide), ?_⟩) (.inr rfl) (.inr rfl) (.inr rfl) (.inl ⟨rfl, rfl⟩) (.inl ⟨rfl, rfl⟩) (.inl rfl) (.inr rfl) (.inr rfl) (.inr rfl) (.inr rfl) (.inr ⟨rfl, rfl⟩) (.inr rfl) (.inr rfl) (.inr rfl) (.inr rfl) (.inr rfl) (.inr rfl) (.inr rfl) (.inr rfl) (.inr rfl) (.inr rfl) (.inr rfl) (.inr rfl) (.inr rfl) (.inr rfl) (.inr rfl) (.inl rfl) rfl
      · exact k1170
      · exact fun _ => rfl
    · refine keeps_foldl _ _ ?_ ?_
      · refine State.writePlane_keeps _ _ _ _ _ ?_ (subF_trans (by decide) hF)
        exact k1170
      · intro z1172 z1174 h1173
        refine State.writePlane_keeps _ _ _ _ _ ?_ (subF_trans (by decide) hF)
        exact h1173
  have k1175 : Keeps fs s0 y1169 := by
    refine keeps_foldl _ _ ?_ ?_
    · exact k1171
    · intro z1176 z1178 h1177
      refine State.sweepAt_keeps _ _ ?_ (subF_trans (by decide) hF)
      exact h1177
  refine setBit_keeps _ _ _ ?_ (alwB hF 16 rfl (by decide))
  refine State.spend_keeps _ _ ?_ (subF_trans (by decide) hF)
  exact k1175

theorem State.repeatStrip_keeps {fs : List Zone} {s0 : State} (s : State) (h1 : Keeps fs s0 s) (hF : subF [.sched] fs = true) :
    Keeps fs s0 (State.repeatStrip s) := by
  unfold State.repeatStrip
  extract_lets -merge -underBinder y1179 y1180
  have k1181 : Keeps fs s0 y1179 := by
    refine State.spendReserve_keeps _ ?_ (subF_trans (by decide) hF)
    exact h1
  refine Keeps.upd ?_ (.inr rfl) (.inl ⟨rfl, rfl⟩) (.inr rfl) (.inr rfl) (.inr rfl) (.inl ⟨rfl, rfl⟩) (.inl ⟨rfl, rfl⟩) (.inl rfl) (.inr rfl) (.inr rfl) (.inr rfl) (.inr rfl) (.inr ⟨rfl, rfl⟩) (.inr rfl) (.inl (alw hF (by decide))) (.inr rfl) (.inr rfl) (.inr rfl) (.inr rfl) (.inr rfl) (.inr rfl) (.inr rfl) (.inr rfl) (.inr rfl) (.inr rfl) (.inr rfl) (.inr rfl) (.inr rfl) (.inl rfl) rfl
  exact k1181

theorem State.failSteps_keeps {fs : List Zone} {s0 : State} (s : State) (row : Option ℕ) (h1 : Keeps fs s0 s) (hF : subF [.planes, .arr, .block 16, .block 3, .disp, .block 1, .out, .free, .block 8, .trv, .block 17, .sched, .kernels, .running, .log, .memo, .sp] fs = true) :
    Keeps fs s0 (State.failSteps s row) := by
  unfold State.failSteps
  extract_lets -merge -underBinder y1182 y1183 y1184 y1185
  have k1186 : Keeps fs s0 y1182 := by
    refine keeps_ite ?_ ?_
    · refine State.abandon_keeps _ ?_ (subF_trans (by decide) hF)
      exact h1
    · exact h1
  have k1187 : Keeps fs s0 y1184 := by
    refine keeps_ite ?_ ?_
    · refine Keeps.upd ?_ (.inr rfl) (.inl ⟨rfl, rfl⟩) (.inr rfl) (.inl (alw hF (by decide))) (.inr rfl) (.inl ⟨rfl, rfl⟩) (.inl ⟨rfl, rfl⟩) (.inl rfl) (.inr rfl) (.inr rfl) (.inr rfl) (.inr rfl) (.inr ⟨rfl, rfl⟩) (.inr rfl) (.inr rfl) (.inr rfl) (.inr rfl) (.inr rfl) (.inr rfl) (.inr rfl) (.inr rfl) (.inr rfl) (.inr rfl) (.inr rfl) (.inr rfl) (.inr rfl) (.inr rfl) (.inr rfl) (.inl rfl) rfl
      exact k1186
    · exact h1
  have k1188 : Keeps fs s0 y1185 := by
    refine keeps_ite ?_ ?_
    · refine State.bistAbort_keeps _ ?_ (subF_trans (by decide) hF)
      exact k1187
    · exact k1187
  refine keeps_ite ?_ ?_
  · exact k1188
  · refine State.trvAbort_keeps _ ?_ (subF_trans (by decide) hF)
    exact k1188

theorem State.stopPipes_keeps {fs : List Zone} {s0 : State} (s : State) (n : ℕ) (h1 : Keeps fs s0 s) (hF : subF [.log, .free, .block 4, .block 20, .block 3, .block 1, .out, .pipes, .il] fs = true) :
    Keeps fs s0 (State.stopPipes s n) := by
  unfold State.stopPipes
  extract_lets -merge -underBinder y1189
  refine keeps_foldl _ _ ?_ ?_
  · exact h1
  · intro z1190 z1192 h1191
    refine State.logEvent_keeps _ _ _ _ ?_ (subF_trans (by decide) hF)
    refine setBit_keeps _ _ _ ?_ (alwB hF 4 rfl (by decide))
    refine State.pipeDisable_keeps _ _ ?_ (subF_trans (by decide) hF)
    exact h1191

theorem State.platformFailure_keeps {fs : List Zone} {s0 : State} (s : State) (p : ℕ) (reason : ℕ) (stops : ℕ) (h1 : Keeps fs s0 s) (hF : subF [.log, .free, .block 4, .planes, .arr, .block 16, .block 3, .disp, .block 1, .out, .block 8, .trv, .block 17, .sched, .kernels, .running, .memo, .sp, .repair, .block 20, .pipes, .il] fs = true) :
    Keeps fs s0 (State.platformFailure s p reason stops) := by
  unfold State.platformFailure
  extract_lets -merge -underBinder y1193 y1194 y1195 y1196 y1197 y1198 y1199 y1200 y1201
  have k1202 : Keeps fs s0 y1198 := by
    refine State.failSteps_keeps _ _ ?_ (subF_trans (by decide) hF)
    exact h1
  have k1203 : Keeps fs s0 y1200 := by
    refine State.repeatStrip_keeps _ ?_ (subF_trans (by decide) hF)
    refine State.clearArray_keeps _ ?_ (subF_trans (by decide) hF)
    refine State.prowMapWrite_keeps _ _ _ _ ?_ (subF_trans (by decide) hF)
    exact k1202
  have k1204 : Keeps fs s0 y1201 := by
    refine State.recordFailed_keeps _ _ _ ?_ (subF_trans (by decide) hF)
    exact k1203
  refine keeps_ite ?_ ?_
  · refine State.logEvent_keeps _ _ _ _ ?_ (subF_trans (by decide) hF)
    refine setBit_keeps _ _ _ ?_ (alwB hF 4 rfl (by decide))
    exact h1
  · refine keeps_ite ?_ ?_
    · refine State.stopPipes_keeps _ _ ?_ (subF_trans (by decide) hF)
      exact k1204
    · exact k1204

theorem execPlatformFailure_keeps (p : ℕ) (reason : ℕ) (stops : ℕ) (s : State) : ∃ s', execPlatformFailure p reason stops s = .next s' ∧
    Keeps [.log, .free, .block 4, .planes, .arr, .block 16, .block 3, .disp, .block 1, .out, .block 8, .trv, .block 17, .sched, .kernels, .running, .memo, .sp, .repair, .block 20, .pipes, .il] s s' := by
  have hF : subF [.log, .free, .block 4, .planes, .arr, .block 16, .block 3, .disp, .block 1, .out, .block 8, .trv, .block 17, .sched, .kernels, .running, .memo, .sp, .repair, .block 20, .pipes, .il] [.log, .free, .block 4, .planes, .arr, .block 16, .block 3, .disp, .block 1, .out, .block 8, .trv, .block 17, .sched, .kernels, .running, .memo, .sp, .repair, .block 20, .pipes, .il] = true := by decide
  unfold execPlatformFailure
  refine ⟨_, rfl, ?_⟩
  refine State.platformFailure_keeps _ _ _ _ ?_ (subF_trans (by decide) hF)
  exact (Keeps.rfl' _ _)

theorem State.setRepeatOf_keeps {fs : List Zone} {s0 : State} (s : State) (p : Option ℕ) (h1 : Keeps fs s0 s) (hF : subF [.sched] fs = true) :
    Keeps fs s0 (State.setRepeatOf s p) := by
  unfold State.setRepeatOf
  extract_lets -merge -underBinder y1205
  refine Keeps.upd ?_ (.inr rfl) (.inl ⟨rfl, rfl⟩) (.inr rfl) (.inr rfl) (.inr rfl) (.inl ⟨rfl, rfl⟩) (.inl ⟨rfl, rfl⟩) (.inl rfl) (.inr rfl) (.inr rfl) (.inr rfl) (.inr rfl) (.inr ⟨rfl, rfl⟩) (.inr rfl) (.inl (alw hF (by decide))) (.inr rfl) (.inr rfl) (.inr rfl) (.inr rfl) (.inr rfl) (.inr rfl) (.inr rfl) (.inr rfl) (.inr rfl) (.inr rfl) (.inr rfl) (.inr rfl) (.inr rfl) (.inl rfl) rfl
  exact h1

theorem State.stripRepeat_keeps {fs : List Zone} {s0 : State} (s : State) (p : ℕ) (h1 : Keeps fs s0 s) (hF : subF [.log, .free, .block 4, .planes, .arr, .block 16, .block 3, .disp, .block 1, .out, .block 8, .trv, .block 17, .sched, .kernels, .running, .memo, .sp, .repair, .block 20, .pipes, .il] fs = true) :
    Keeps fs s0 (State.stripRepeat s p) := by
  unfold State.stripRepeat
  refine keeps_ite ?_ ?_
  · refine State.platformFailure_keeps _ _ _ _ ?_ (subF_trans (by decide) hF)
    refine State.setRepeatOf_keeps _ _ ?_ (subF_trans (by decide) hF)
    exact h1
  · refine State.setRepeatOf_keeps _ _ ?_ (subF_trans (by decide) hF)
    refine State.repeatStrip_keeps _ ?_ (subF_trans (by decide) hF)
    refine State.clearArray_keeps _ ?_ (subF_trans (by decide) hF)
    refine State.failSteps_keeps _ _ ?_ (subF_trans (by decide) hF)
    exact h1

theorem execStripRepeat_keeps (p : ℕ) (s : State) : ∃ s', execStripRepeat p s = .next s' ∧
    Keeps [.log, .free, .block 4, .planes, .arr, .block 16, .block 3, .disp, .block 1, .out, .block 8, .trv, .block 17, .sched, .kernels, .running, .memo, .sp, .repair, .block 20, .pipes, .il] s s' := by
  have hF : subF [.log, .free, .block 4, .planes, .arr, .block 16, .block 3, .disp, .block 1, .out, .block 8, .trv, .block 17, .sched, .kernels, .running, .memo, .sp, .repair, .block 20, .pipes, .il] [.log, .free, .block 4, .planes, .arr, .block 16, .block 3, .disp, .block 1, .out, .block 8, .trv, .block 17, .sched, .kernels, .running, .memo, .sp, .repair, .block 20, .pipes, .il] = true := by decide
  unfold execStripRepeat
  refine ⟨_, rfl, ?_⟩
  refine State.stripRepeat_keeps _ _ ?_ (subF_trans (by decide) hF)
  exact (Keeps.rfl' _ _)

theorem State.shadowFound_keeps {fs : List Zone} {s0 : State} (s : State) (p : ℕ) (h1 : Keeps fs s0 s) (hF : subF [.block 16, .block 1, .out, .arr] fs = true) :
    Keeps fs s0 (State.shadowFound s p) := by
  unfold State.shadowFound
  refine keeps_foldl _ _ ?_ ?_
  · exact h1
  · intro z1206 z1208 h1207
    extract_lets -merge -underBinder y1209
    try clear_value y1209
    split
    · refine State.colSubWrite_keeps _ _ _ _ ?_ (subF_trans (by decide) hF)
      exact h1207
    · exact h1207

theorem State.activateFound_keeps {fs : List Zone} {s0 : State} (s : State) (p : ℕ) (h1 : Keeps fs s0 s) (hF : subF [.block 16, .block 1, .out, .arr, .log, .free, .repair, .sched] fs = true) :
    Keeps fs s0 (State.activateFound s p) := by
  unfold State.activateFound
  extract_lets -merge -underBinder y1210 y1211
  have k1212 : Keeps fs s0 y1210 := by
    refine keeps_foldl _ _ ?_ ?_
    · exact h1
    · intro z1213 z1215 h1214
      extract_lets -merge -underBinder y1216
      try clear_value y1216
      split
      · extract_lets -merge -underBinder y1217 y1218
        have k1219 : Keeps fs s0 y1217 := by
          refine State.colSubWrite_keeps _ _ _ _ ?_ (subF_trans (by decide) hF)
          exact h1214
        refine State.logEvent_keeps _ _ _ _ ?_ (subF_trans (by decide) hF)
        refine Keeps.upd ?_ (.inr rfl) (.inl ⟨rfl, rfl⟩) (.inr rfl) (.inr rfl) (.inr rfl) (.inl ⟨rfl, rfl⟩) (.inl ⟨rfl, rfl⟩) (.inl rfl) (.inr rfl) (.inr rfl) (.inr rfl) (.inr rfl) (.inr ⟨rfl, rfl⟩) (.inl (alw hF (by decide))) (.inr rfl) (.inr rfl) (.inr rfl) (.inr rfl) (.inr rfl) (.inr rfl) (.inr rfl) (.inr rfl) (.inr rfl) (.inr rfl) (.inr rfl) (.inr rfl) (.inr rfl) (.inr rfl) (.inl rfl) rfl
        exact k1219
      · exact h1214
  refine Keeps.upd ?_ (.inr rfl) (.inl ⟨rfl, rfl⟩) (.inr rfl) (.inr rfl) (.inr rfl) (.inl ⟨rfl, rfl⟩) (.inl ⟨rfl, rfl⟩) (.inl rfl) (.inr rfl) (.inr rfl) (.inr rfl) (.inr rfl) (.inr ⟨rfl, rfl⟩) (.inr rfl) (.inl (alw hF (by decide))) (.inr rfl) (.inr rfl) (.inr rfl) (.inr rfl) (.inr rfl) (.inr rfl) (.inr rfl) (.inr rfl) (.inr rfl) (.inr rfl) (.inr rfl) (.inr rfl) (.inr rfl) (.inl rfl) rfl
  exact k1212

theorem State.rotationStep_keeps {fs : List Zone} {s0 : State} (s : State) (r : ℕ) (h1 : Keeps fs s0 s) (hF : subF [.sched, .block 16, .arr, .block 1, .out, .log, .free, .repair, .planes, .block 8, .block 3, .disp, .trv, .block 4] fs = true) :
    Keeps fs s0 (State.rotationStep s r) := by
  unfold State.rotationStep
  extract_lets -merge -underBinder y1220 y1221 y1222 y1223 y1224 y1225 y1226 y1227 y1228
  have k1229 : Keeps fs s0 y1225 := by
    refine Keeps.upd ?_ (.inr rfl) (.inl ⟨rfl, rfl⟩) (.inr rfl) (.inr rfl) (.inr rfl) (.inl ⟨rfl, rfl⟩) (.inl ⟨rfl, rfl⟩) (.inl rfl) (.inr rfl) (.inr rfl) (.inr rfl) (.inr rfl) (.inr ⟨rfl, rfl⟩) (.inr rfl) (.inl (alw hF (by decide))) (.inr rfl) (.inr rfl) (.inr rfl) (.inr rfl) (.inr rfl) (.inr rfl) (.inr rfl) (.inr rfl) (.inr rfl) (.inr rfl) (.inr rfl) (.inr rfl) (.inr rfl) (.inl rfl) rfl
    exact h1
  have k1230 : Keeps fs s0 y1226 := by
    refine State.mirrorWrite_keeps _ _ ?_ (subF_trans (by decide) hF)
    refine State.shadowFound_keeps _ _ ?_ (subF_trans (by decide) hF)
    exact k1229
  have k1231 : Keeps fs s0 y1227 := by
    refine State.activateFound_keeps _ _ ?_ (subF_trans (by decide) hF)
    refine State.rewriteAll_keeps _ ?_ (subF_trans (by decide) hF)
    exact k1230
  have k1232 : Keeps fs s0 y1228 := by
    refine State.prowMapWrite_keeps _ _ _ _ ?_ (subF_trans (by decide) hF)
    exact k1231
  refine keeps_ite ?_ ?_
  · exact h1
  · try clear_value y1221
    split
    · refine keeps_ite ?_ ?_
      · refine State.recordFailed_keeps _ _ _ ?_ (subF_trans (by decide) hF)
        exact k1232
      · exact k1232
    · refine State.bistStart_keeps _ _ ?_ (subF_trans (by decide) hF)
      exact k1232

theorem execRotationStep_keeps (row : ℕ) (s : State) : ∃ s', execRotationStep row s = .next s' ∧
    Keeps [.sched, .block 16, .arr, .block 1, .out, .log, .free, .repair, .planes, .block 8, .block 3, .disp, .trv, .block 4] s s' := by
  have hF : subF [.sched, .block 16, .arr, .block 1, .out, .log, .free, .repair, .planes, .block 8, .block 3, .disp, .trv, .block 4] [.sched, .block 16, .arr, .block 1, .out, .log, .free, .repair, .planes, .block 8, .block 3, .disp, .trv, .block 4] = true := by decide
  unfold execRotationStep
  refine ⟨_, rfl, ?_⟩
  refine State.rotationStep_keeps _ _ ?_ (subF_trans (by decide) hF)
  exact (Keeps.rfl' _ _)

end Sys2Proof.Machine
end

