-- ==== Sys2Proof/Laws/KeepsStation.lean ====
section
/-! SUPPORT. What each operation of Machine/Station.lean can change, one lemma an operation (Laws/KeepsBase.lean). -/

-- elaborated one declaration at a time, so that the package compiles as one text in bounded memory
set_option Elab.async false

namespace Sys2Proof.Machine

theorem State.smEnd_keeps {fs : List Zone} {s0 : State} (s : State) (m : ℕ) (status : ℕ) (retry : ℕ) (a : List Word) (h1 : Keeps fs s0 s) (hF : subF [.sm, .block 1, .out, .block 0, .tkt] fs = true) :
    Keeps fs s0 (State.smEnd s m status retry a) := by
  unfold State.smEnd
  extract_lets -merge -underBinder y1552 y1553 y1554
  have k1555 : Keeps fs s0 y1553 := by
    refine Keeps.upd ?_ (.inr rfl) (.inl ⟨rfl, rfl⟩) (.inr rfl) (.inr rfl) (.inr rfl) (.inl ⟨rfl, rfl⟩) (.inl ⟨rfl, rfl⟩) (.inl rfl) (.inr rfl) (.inr rfl) (.inr rfl) (.inr rfl) (.inr ⟨rfl, rfl⟩) (.inr rfl) (.inr rfl) (.inr rfl) (.inr rfl) (.inr rfl) (.inr rfl) (.inr rfl) (.inl (alw hF (by decide))) (.inr rfl) (.inr rfl) (.inr rfl) (.inr rfl) (.inr rfl) (.inr rfl) (.inr rfl) (.inl rfl) rfl
    exact h1
  refine keeps_ite ?_ ?_
  · refine Keeps.upd ?_ (.inr rfl) (.inl ⟨rfl, rfl⟩) (.inr rfl) (.inr rfl) (.inr rfl) (.inl ⟨rfl, rfl⟩) (.inl ⟨rfl, rfl⟩) (.inl rfl) (.inr rfl) (.inr rfl) (.inr rfl) (.inr rfl) (.inr ⟨rfl, rfl⟩) (.inr rfl) (.inr rfl) (.inr rfl) (.inr rfl) (.inr rfl) (.inr rfl) (.inr rfl) (.inl (alw hF (by decide))) (.inr rfl) (.inr rfl) (.inr rfl) (.inr rfl) (.inr rfl) (.inr rfl) (.inr rfl) (.inl rfl) rfl
    exact k1555
  · refine State.mbDone_keeps _ _ _ _ _ ?_ (subF_trans (by decide) hF)
    refine keeps_foldl _ _ ?_ ?_
    · exact k1555
    · intro z1556 z1558 h1557
      refine State.setRsp_keeps _ _ _ _ ?_ (subF_trans (by decide) hF)
      exact h1557

theorem State.smFailWith_keeps {fs : List Zone} {s0 : State} (s : State) (m : ℕ) (retry : ℕ) (code : ℕ) (word : ℕ) (more : List Word) (h1 : Keeps fs s0 s) (hF : subF [.block 0, .sm, .block 1, .out, .tkt] fs = true) :
    Keeps fs s0 (State.smFailWith s m retry code word more) := by
  unfold State.smFailWith
  extract_lets -merge -underBinder y1559
  have k1560 : Keeps fs s0 y1559 := by
    refine keeps_ite ?_ ?_
    · exact h1
    · refine keeps_foldl _ _ ?_ ?_
      · exact h1
      · intro z1561 z1563 h1562
        refine State.setRsp_keeps _ _ _ _ ?_ (subF_trans (by decide) hF)
        exact h1562
  refine State.smEnd_keeps _ _ _ _ _ ?_ (subF_trans (by decide) hF)
  exact k1560

theorem State.smFail_keeps {fs : List Zone} {s0 : State} (s : State) (m : ℕ) (code : ℕ) (word : ℕ) (h1 : Keeps fs s0 s) (hF : subF [.block 0, .sm, .block 1, .out, .tkt] fs = true) :
    Keeps fs s0 (State.smFail s m code word) := by
  unfold State.smFail
  refine State.smFailWith_keeps _ _ _ _ _ _ ?_ (subF_trans (by decide) hF)
  exact h1

theorem State.smDone_keeps {fs : List Zone} {s0 : State} (s : State) (m : ℕ) (a : List Word) (h1 : Keeps fs s0 s) (hF : subF [.sm, .block 1, .out, .block 0, .tkt] fs = true) :
    Keeps fs s0 (State.smDone s m a) := by
  unfold State.smDone
  refine State.smEnd_keeps _ _ _ _ _ ?_ (subF_trans (by decide) hF)
  exact h1

theorem State.smWait_keeps {fs : List Zone} {s0 : State} (s : State) (m : ℕ) (w : SmWait) (h1 : Keeps fs s0 s) (hF : subF [.sm] fs = true) :
    Keeps fs s0 (State.smWait s m w) := by
  unfold State.smWait
  extract_lets -merge -underBinder y1564
  refine Keeps.upd ?_ (.inr rfl) (.inl ⟨rfl, rfl⟩) (.inr rfl) (.inr rfl) (.inr rfl) (.inl ⟨rfl, rfl⟩) (.inl ⟨rfl, rfl⟩) (.inl rfl) (.inr rfl) (.inr rfl) (.inr rfl) (.inr rfl) (.inr ⟨rfl, rfl⟩) (.inr rfl) (.inr rfl) (.inr rfl) (.inr rfl) (.inr rfl) (.inr rfl) (.inr rfl) (.inl (alw hF (by decide))) (.inr rfl) (.inr rfl) (.inr rfl) (.inr rfl) (.inr rfl) (.inr rfl) (.inr rfl) (.inl rfl) rfl
  exact h1

theorem State.smJudge_keeps {fs : List Zone} {s0 : State} (s : State) (q : Req) (len : ℕ) (masks : List ℕ) (k : State → State) (h1 : Keeps fs s0 s) (h5 : ∀ u1565, Keeps fs s0 u1565 → Keeps fs s0 (k u1565)) (hF : subF [.block 0, .sm, .block 1, .out, .tkt] fs = true) :
    Keeps fs s0 (State.smJudge s q len masks k) := by
  unfold State.smJudge
  refine keeps_ite ?_ ?_
  · refine State.smFail_keeps _ _ _ _ ?_ (subF_trans (by decide) hF)
    exact h1
  · split
    · refine State.smFail_keeps _ _ _ _ ?_ (subF_trans (by decide) hF)
      exact h1
    · refine h5 _ ?_
      exact h1

/-- The state in which Stationmaster has taken up a command. -/
theorem smTake_some {fs : List Zone} {s0 s t : State} {m op : Nat} {q : Req} (h : s.smTake m op = some (t, q))
    (h1 : Keeps fs s0 s) (hF : subF [.block 0, .block 1, .out, .tkt] fs = true) : Keeps fs s0 t := by
  unfold State.smTake at h
  split at h
  · simp only [Option.some.injEq, Prod.mk.injEq] at h
    rw [← h.1]
    exact State.post_keeps _ _ _ h1 (subF_trans (by decide) hF)
  · cases h

theorem State.smRun_keeps {fs : List Zone} {s0 : State} (s : State) (m : ℕ) (op : ℕ) (boxes : List ℕ) (f : State → Req → State) (h1 : Keeps fs s0 s) (h5 : ∀ u1566 u1567, Keeps fs s0 u1566 → Keeps fs s0 (f u1566 u1567)) (hF : subF [.block 0, .sm, .block 1, .out, .tkt] fs = true) :
    Keeps fs s0 (State.smRun s m op boxes f) := by
  unfold State.smRun
  split
  · exact h1
  · rename_i s1 q hq
    have k := smTake_some hq h1 (subF_trans (by decide) hF)
    exact keeps_ite (h5 _ _ k) (State.smFail_keeps _ _ _ _ k (subF_trans (by decide) hF))

theorem State.bufRead_keeps {fs : List Zone} {s0 : State} (s : State) (addr : ℕ) (len : ℕ) (host : Option (List Byte)) (h1 : Keeps fs s0 s) (hF : subF [.free, .memo, .block 1, .out, .sp, .block 8] fs = true) :
    Keeps fs s0 (State.bufRead s addr len host).1 := by
  unfold State.bufRead
  extract_lets -merge -underBinder y1568 y1569
  have k1570 : Keeps fs s0 y1568.1 := by
    refine State.spRead_keeps _ _ _ ?_ (subF_trans (by decide) hF)
    exact h1
  clear_value y1568
  have k1571 : Keeps fs s0 y1569.1 := by
    refine State.ddrRead_keeps _ _ _ ?_ (subF_trans (by decide) hF)
    exact h1
  clear_value y1569
  refine keeps_ite_fst ?_ ?_
  · refine keeps_mk_fst ?_
    exact h1
  · refine keeps_ite_fst ?_ ?_
    · refine keeps_mk_fst ?_
      exact k1570
    · refine keeps_ite_fst ?_ ?_
      · refine keeps_mk_fst ?_
        exact k1571
      · refine keeps_mk_fst ?_
        exact h1

theorem State.smBuf_keeps {fs : List Zone} {s0 : State} (s : State) (q : Req) (k : ℕ) (len : ℕ) (unit : ℕ) (host : Option (List Byte)) (f : State → List Byte → State) (h1 : Keeps fs s0 s) (h7 : ∀ u1572 u1573, Keeps fs s0 u1572 → Keeps fs s0 (f u1572 u1573)) (hF : subF [.block 0, .sm, .block 1, .out, .tkt, .free, .memo, .sp, .block 8] fs = true) :
    Keeps fs s0 (State.smBuf s q k len unit host f) := by
  unfold State.smBuf
  refine keeps_ite (State.smFail_keeps _ _ _ _ h1 (subF_trans (by decide) hF)) (keeps_ite (State.smFail_keeps _ _ _ _ h1 (subF_trans (by decide) hF)) ?_)
  have k := State.bufRead_keeps s (q.addr k) len host h1 (subF_trans (by decide) hF)
  split
  · rename_i s1 b hb; rw [hb] at k; exact h7 _ _ k
  · rename_i s1 hb; rw [hb] at k; exact State.smFail_keeps _ _ _ _ k (subF_trans (by decide) hF)

theorem State.setSmDisp_keeps {fs : List Zone} {s0 : State} (s : State) (d : ℕ) (x : SmDisp) (h1 : Keeps fs s0 s) (hF : subF [.sm] fs = true) :
    Keeps fs s0 (State.setSmDisp s d x) := by
  unfold State.setSmDisp
  extract_lets -merge -underBinder y1574
  refine Keeps.upd ?_ (.inr rfl) (.inl ⟨rfl, rfl⟩) (.inr rfl) (.inr rfl) (.inr rfl) (.inl ⟨rfl, rfl⟩) (.inl ⟨rfl, rfl⟩) (.inl rfl) (.inr rfl) (.inr rfl) (.inr rfl) (.inr rfl) (.inr ⟨rfl, rfl⟩) (.inr rfl) (.inr rfl) (.inr rfl) (.inr rfl) (.inr rfl) (.inr rfl) (.inr rfl) (.inl (alw hF (by decide))) (.inr rfl) (.inr rfl) (.inr rfl) (.inr rfl) (.inr rfl) (.inr rfl) (.inr rfl) (.inl rfl) rfl
  exact h1

theorem State.ident_keeps {fs : List Zone} {s0 : State} (s : State) (q : Req) (h1 : Keeps fs s0 s) (hF : subF [.block 0, .sm, .block 1, .out, .tkt] fs = true) :
    Keeps fs s0 (State.ident s q) := by
  unfold State.ident
  refine State.smJudge_keeps _ _ _ _ _ ?_ ?_ (subF_trans (by decide) hF)
  · exact h1
  · intro z1575 h1576
    refine State.smDone_keeps _ _ _ ?_ (subF_trans (by decide) hF)
    exact h1576

theorem execIdent_keeps (m : ℕ) (s : State) : ∃ s', execIdent m s = .next s' ∧
    Keeps [.block 0, .sm, .block 1, .out, .tkt] s s' := by
  have hF : subF [.block 0, .sm, .block 1, .out, .tkt] [.block 0, .sm, .block 1, .out, .tkt] = true := by decide
  unfold execIdent
  refine ⟨_, rfl, ?_⟩
  refine State.smRun_keeps _ _ _ _ _ ?_ ?_ (subF_trans (by decide) hF)
  · exact (Keeps.rfl' _ _)
  · intro z1577 z1579 h1578
    refine State.ident_keeps _ _ ?_ (subF_trans (by decide) hF)
    exact h1578

theorem execUndefinedCommand_keeps (m : ℕ) (s : State) : ∃ s', execUndefinedCommand m s = .next s' ∧
    Keeps [.block 0, .sm, .block 1, .out, .tkt] s s' := by
  have hF : subF [.block 0, .sm, .block 1, .out, .tkt] [.block 0, .sm, .block 1, .out, .tkt] = true := by decide
  unfold execUndefinedCommand
  refine ⟨_, rfl, ?_⟩
  refine keeps_ite ?_ ?_
  · exact (Keeps.rfl' _ _)
  · refine State.smRun_keeps _ _ _ _ _ ?_ ?_ (subF_trans (by decide) hF)
    · exact (Keeps.rfl' _ _)
    · intro z1580 z1582 h1581
      refine State.smFail_keeps _ _ _ _ ?_ (subF_trans (by decide) hF)
      exact h1581

theorem State.takeTotals_keeps {fs : List Zone} {s0 : State} (s : State) (h1 : Keeps fs s0 s) (hF : subF [.regs, .sm] fs = true) :
    Keeps fs s0 (State.takeTotals s) := by
  unfold State.takeTotals
  extract_lets -merge -underBinder y1583 y1584 y1585 y1586 y1587 y1588 y1589
  refine keeps_foldl _ _ ?_ ?_
  · refine Keeps.upd ?_ (.inr rfl) (.inl ⟨rfl, rfl⟩) (.inr rfl) (.inr rfl) (.inr rfl) (.inl ⟨rfl, rfl⟩) (.inl ⟨rfl, rfl⟩) (.inl rfl) (.inr rfl) (.inr rfl) (.inr rfl) (.inr rfl) (.inr ⟨rfl, rfl⟩) (.inr rfl) (.inr rfl) (.inr rfl) (.inr rfl) (.inr rfl) (.inr rfl) (.inr rfl) (.inl (alw hF (by decide))) (.inr rfl) (.inr rfl) (.inr rfl) (.inr rfl) (.inr rfl) (.inr rfl) (.inr rfl) (.inl rfl) rfl
    exact h1
  · intro z1590 z1592 h1591
    refine setReg_keeps _ _ ?_ (alwR hF (by decide))
    exact h1591

theorem State.telemetryRead_keeps {fs : List Zone} {s0 : State} (mv : List ℕ) (s : State) (q : Req) (h2 : Keeps fs s0 s) (hF : subF [.block 0, .sm, .block 1, .out, .tkt, .regs] fs = true) :
    Keeps fs s0 (State.telemetryRead mv s q) := by
  unfold State.telemetryRead
  refine State.smJudge_keeps _ _ _ _ _ ?_ ?_ (subF_trans (by decide) hF)
  · exact h2
  · intro z1593 h1594
    extract_lets -merge -underBinder y1595
    have k1596 : Keeps fs s0 y1595 := by
      refine State.takeTotals_keeps _ ?_ (subF_trans (by decide) hF)
      exact h1594
    split
    · refine State.smDone_keeps _ _ _ ?_ (subF_trans (by decide) hF)
      exact k1596
    · refine State.smFail_keeps _ _ _ _ ?_ (subF_trans (by decide) hF)
      exact h1594

theorem execTelemetryRead_keeps (m : ℕ) (mv : List ℕ) (s : State) : ∃ s', execTelemetryRead m mv s = .next s' ∧
    Keeps [.block 0, .sm, .block 1, .out, .tkt, .regs] s s' := by
  have hF : subF [.block 0, .sm, .block 1, .out, .tkt, .regs] [.block 0, .sm, .block 1, .out, .tkt, .regs] = true := by decide
  unfold execTelemetryRead
  refine ⟨_, rfl, ?_⟩
  refine State.smRun_keeps _ _ _ _ _ ?_ ?_ (subF_trans (by decide) hF)
  · exact (Keeps.rfl' _ _)
  · intro z1597 z1599 h1598
    refine State.telemetryRead_keeps _ _ _ ?_ (subF_trans (by decide) hF)
    exact h1598

theorem State.logRead_keeps {fs : List Zone} {s0 : State} (s : State) (q : Req) (h1 : Keeps fs s0 s) (hF : subF [.block 0, .sm, .block 1, .out, .tkt] fs = true) :
    Keeps fs s0 (State.logRead s q) := by
  unfold State.logRead
  refine State.smJudge_keeps _ _ _ _ _ ?_ ?_ (subF_trans (by decide) hF)
  · exact h1
  · intro z1600 h1601
    extract_lets -merge -underBinder y1602 y1603
    refine State.smDone_keeps _ _ _ ?_ (subF_trans (by decide) hF)
    exact h1601

theorem execLogRead_keeps (m : ℕ) (s : State) : ∃ s', execLogRead m s = .next s' ∧
    Keeps [.block 0, .sm, .block 1, .out, .tkt] s s' := by
  have hF : subF [.block 0, .sm, .block 1, .out, .tkt] [.block 0, .sm, .block 1, .out, .tkt] = true := by decide
  unfold execLogRead
  refine ⟨_, rfl, ?_⟩
  refine State.smRun_keeps _ _ _ _ _ ?_ ?_ (subF_trans (by decide) hF)
  · exact (Keeps.rfl' _ _)
  · intro z1604 z1606 h1605
    refine State.logRead_keeps _ _ ?_ (subF_trans (by decide) hF)
    exact h1605

theorem State.metroRead_keeps {fs : List Zone} {s0 : State} (s : State) (q : Req) (h1 : Keeps fs s0 s) (hF : subF [.block 0, .sm, .block 1, .out, .tkt] fs = true) :
    Keeps fs s0 (State.metroRead s q) := by
  unfold State.metroRead
  extract_lets -merge -underBinder y1607
  refine State.smJudge_keeps _ _ _ _ _ ?_ ?_ (subF_trans (by decide) hF)
  · exact h1
  · intro z1608 h1609
    try clear_value y1607
    split
    · refine State.smDone_keeps _ _ _ ?_ (subF_trans (by decide) hF)
      exact h1609
    · refine State.smDone_keeps _ _ _ ?_ (subF_trans (by decide) hF)
      exact h1609
    · refine State.smDone_keeps _ _ _ ?_ (subF_trans (by decide) hF)
      exact h1609
    · refine State.smFail_keeps _ _ _ _ ?_ (subF_trans (by decide) hF)
      exact h1609

theorem execMetroRead_keeps (m : ℕ) (s : State) : ∃ s', execMetroRead m s = .next s' ∧
    Keeps [.block 0, .sm, .block 1, .out, .tkt] s s' := by
  have hF : subF [.block 0, .sm, .block 1, .out, .tkt] [.block 0, .sm, .block 1, .out, .tkt] = true := by decide
  unfold execMetroRead
  refine ⟨_, rfl, ?_⟩
  refine State.smRun_keeps _ _ _ _ _ ?_ ?_ (subF_trans (by decide) hF)
  · exact (Keeps.rfl' _ _)
  · intro z1610 z1612 h1611
    refine State.metroRead_keeps _ _ ?_ (subF_trans (by decide) hF)
    exact h1611

end Sys2Proof.Machine
end

