-- ==== Sys2Proof/Laws/KeepsScenes.lean ====
section
/-! SUPPORT. What each operation of Machine/Scenes.lean can change, one lemma an operation (Laws/KeepsBase.lean). -/

-- elaborated one declaration at a time, so that the package compiles as one text in bounded memory
set_option Elab.async false

namespace Sys2Proof.Machine

theorem State.sceneLoad_keeps {fs : List Zone} {s0 : State} (host : Option (List Byte)) (lut : Option (List Byte)) (s : State) (q : Req) (h3 : Keeps fs s0 s) (hF : subF [.block 0, .sm, .block 1, .out, .tkt, .free, .memo, .sp, .block 8] fs = true) :
    Keeps fs s0 (State.sceneLoad host lut s q) := by
  unfold State.sceneLoad
  refine State.smJudge_keeps _ _ _ _ _ h3 ?_ (subF_trans (by decide) hF)
  intro s h
  refine State.smBuf_keeps _ _ _ _ _ _ _ h ?_ (subF_trans (by decide) hF)
  intro s b h
  extract_lets -merge -underBinder ws
  clear_value ws
  have kf : ∀ (s : State) r, Keeps fs s0 s → Keeps fs s0 (s.smFail q.m r 0) := fun s r h =>
    State.smFail_keeps _ _ _ _ h (subF_trans (by decide) hF)
  split
  · exact kf _ _ h
  · rename_i c hc
    extract_lets -merge -underBinder la put
    have kp : ∀ s c, Keeps fs s0 s → Keeps fs s0 (put s c) := by
      intro s c h
      unfold put
      refine keeps_ite (kf _ _ h) ?_
      split
      · exact kf _ _ h
      · exact State.smDone_keeps _ _ _ (State.setSmDisp_keeps _ _ _ h (subF_trans (by decide) hF)) (subF_trans (by decide) hF)
    clear_value put la
    refine keeps_ite (kp _ _ h) (keeps_ite (kf _ _ h) ?_)
    have k := State.bufRead_keeps s la 1536 lut h (subF_trans (by decide) hF)
    split
    · rename_i s1 hb; rw [hb] at k; exact kf _ _ k
    · rename_i s1 t hb; rw [hb] at k; exact kp _ _ k

theorem execSceneLoad_keeps (m : ℕ) (host : Option (List Byte)) (lut : Option (List Byte)) (s : State) : ∃ s', execSceneLoad m host lut s = .next s' ∧
    Keeps [.block 0, .sm, .block 1, .out, .tkt, .free, .memo, .sp, .block 8] s s' := by
  have hF : subF [.block 0, .sm, .block 1, .out, .tkt, .free, .memo, .sp, .block 8] [.block 0, .sm, .block 1, .out, .tkt, .free, .memo, .sp, .block 8] = true := by decide
  unfold execSceneLoad
  refine ⟨_, rfl, ?_⟩
  refine State.smRun_keeps _ _ _ _ _ ?_ ?_ (subF_trans (by decide) hF)
  · exact (Keeps.rfl' _ _)
  · intro z1627 z1629 h1628
    refine State.sceneLoad_keeps _ _ _ _ ?_ (subF_trans (by decide) hF)
    exact h1628

theorem State.layerSet_keeps {fs : List Zone} {s0 : State} (s : State) (q : Req) (h1 : Keeps fs s0 s) (hF : subF [.block 0, .sm, .block 1, .out, .tkt] fs = true) :
    Keeps fs s0 (State.layerSet s q) := by
  unfold State.layerSet
  extract_lets -merge -underBinder y1630
  refine State.smJudge_keeps _ _ _ _ _ ?_ ?_ (subF_trans (by decide) hF)
  · exact h1
  · intro z1631 h1632
    extract_lets -merge -underBinder y1633 y1634 y1635
    split
    · refine State.smFail_keeps _ _ _ _ ?_ (subF_trans (by decide) hF)
      exact h1632
    · refine keeps_ite ?_ ?_
      · refine State.smFail_keeps _ _ _ _ ?_ (subF_trans (by decide) hF)
        exact h1632
      · refine keeps_ite ?_ ?_
        · refine State.smFail_keeps _ _ _ _ ?_ (subF_trans (by decide) hF)
          exact h1632
        · refine keeps_ite ?_ ?_
          · refine State.smFail_keeps _ _ _ _ ?_ (subF_trans (by decide) hF)
            exact h1632
          · try clear_value y1633
            split
            · refine State.smFail_keeps _ _ _ _ ?_ (subF_trans (by decide) hF)
              exact h1632
            · try clear_value y1634
              split
              · refine State.smFail_keeps _ _ _ _ ?_ (subF_trans (by decide) hF)
                exact h1632
              · extract_lets -merge -underBinder y1636 y1637
                refine keeps_ite ?_ ?_
                · refine State.smFail_keeps _ _ _ _ ?_ (subF_trans (by decide) hF)
                  exact h1632
                · try clear_value y1637
                  try clear_value y1633
                  try clear_value y1636
                  split
                  · refine State.smFail_keeps _ _ _ _ ?_ (subF_trans (by decide) hF)
                    exact h1632
                  · extract_lets -merge -underBinder y1638
                    refine State.smDone_keeps _ _ _ ?_ (subF_trans (by decide) hF)
                    refine State.setSmDisp_keeps _ _ _ ?_ (subF_trans (by decide) hF)
                    exact h1632

theorem execLayerSet_keeps (m : ℕ) (s : State) : ∃ s', execLayerSet m s = .next s' ∧
    Keeps [.block 0, .sm, .block 1, .out, .tkt] s s' := by
  have hF : subF [.block 0, .sm, .block 1, .out, .tkt] [.block 0, .sm, .block 1, .out, .tkt] = true := by decide
  unfold execLayerSet
  refine ⟨_, rfl, ?_⟩
  refine State.smRun_keeps _ _ _ _ _ ?_ ?_ (subF_trans (by decide) hF)
  · exact (Keeps.rfl' _ _)
  · intro z1639 z1641 h1640
    refine State.layerSet_keeps _ _ ?_ (subF_trans (by decide) hF)
    exact h1640

theorem State.bindScene_keeps {fs : List Zone} {s0 : State} (s : State) (d : ℕ) (h1 : Keeps fs s0 s) (hF : subF [.sm] fs = true) :
    Keeps fs s0 (State.bindScene s d) := by
  unfold State.bindScene
  split
  · exact h1
  · extract_lets -merge -underBinder y1642
    refine State.setSmDisp_keeps _ _ _ ?_ (subF_trans (by decide) hF)
    exact h1

theorem State.layerCommit_keeps {fs : List Zone} {s0 : State} (s : State) (q : Req) (h1 : Keeps fs s0 s) (hF : subF [.block 0, .sm, .block 1, .out, .tkt] fs = true) :
    Keeps fs s0 (State.layerCommit s q) := by
  unfold State.layerCommit
  refine State.smJudge_keeps _ _ _ _ _ ?_ ?_ (subF_trans (by decide) hF)
  · exact h1
  · intro z1643 h1644
    extract_lets -merge -underBinder y1645 y1646
    refine keeps_ite ?_ ?_
    · refine State.smFail_keeps _ _ _ _ ?_ (subF_trans (by decide) hF)
      exact h1644
    · refine keeps_ite ?_ ?_
      · refine State.smDone_keeps _ _ _ ?_ (subF_trans (by decide) hF)
        exact h1644
      · refine State.smWait_keeps _ _ _ ?_ (subF_trans (by decide) hF)
        refine keeps_foldl _ _ ?_ ?_
        · exact h1644
        · intro z1647 z1649 h1648
          refine State.bindScene_keeps _ _ ?_ (subF_trans (by decide) hF)
          exact h1648

theorem execLayerCommit_keeps (m : ℕ) (s : State) : ∃ s', execLayerCommit m s = .next s' ∧
    Keeps [.block 0, .sm, .block 1, .out, .tkt] s s' := by
  have hF : subF [.block 0, .sm, .block 1, .out, .tkt] [.block 0, .sm, .block 1, .out, .tkt] = true := by decide
  unfold execLayerCommit
  refine ⟨_, rfl, ?_⟩
  refine State.smRun_keeps _ _ _ _ _ ?_ ?_ (subF_trans (by decide) hF)
  · exact (Keeps.rfl' _ _)
  · intro z1650 z1652 h1651
    refine State.layerCommit_keeps _ _ ?_ (subF_trans (by decide) hF)
    exact h1651

theorem State.mapRun_keeps {fs : List Zone} {s0 : State} (s : State) (m : ℕ) (sub : ℕ) (f : State → Req → State) (h1 : Keeps fs s0 s) (h4 : ∀ u1653 u1654, Keeps fs s0 u1653 → Keeps fs s0 (f u1653 u1654)) (hF : subF [.block 0, .sm, .block 1, .out, .tkt] fs = true) :
    Keeps fs s0 (State.mapRun s m sub f) := by
  unfold State.mapRun
  refine keeps_ite ?_ ?_
  · refine State.smRun_keeps _ _ _ _ _ ?_ ?_ (subF_trans (by decide) hF)
    · exact h1
    · exact h4
  · exact h1

theorem State.mapSlot_keeps {fs : List Zone} {s0 : State} (s : State) (q : Req) (h1 : Keeps fs s0 s) (hF : subF [.block 0, .sm, .block 1, .out, .tkt, .block 3] fs = true) :
    Keeps fs s0 (State.mapSlot s q) := by
  unfold State.mapSlot
  extract_lets -merge -underBinder y1655 y1656 y1657
  refine State.smJudge_keeps _ _ _ _ _ ?_ ?_ (subF_trans (by decide) hF)
  · exact h1
  · intro z1658 h1659
    extract_lets -merge -underBinder y1660 y1661 y1662 y1663
    have k1664 : Keeps fs s0 y1661.1 := by
      refine State.regionWrite_keeps _ _ _ _ ?_ (alwL hF 3 0 (by simp only [y1655, y1656, regSlot, Reg.REG]; omega)) (subF_trans (by decide) hF)
      exact h1659
    refine keeps_ite ?_ ?_
    · refine State.smFail_keeps _ _ _ _ ?_ (subF_trans (by decide) hF)
      exact h1659
    · refine keeps_ite ?_ ?_
      · refine State.smFail_keeps _ _ _ _ ?_ (subF_trans (by decide) hF)
        exact h1659
      · refine keeps_ite ?_ ?_
        · refine State.smFail_keeps _ _ _ _ ?_ (subF_trans (by decide) hF)
          exact h1659
        · refine keeps_ite ?_ ?_
          · refine State.smFail_keeps _ _ _ _ ?_ (subF_trans (by decide) hF)
            exact k1664
          · refine State.smDone_keeps _ _ _ ?_ (subF_trans (by decide) hF)
            refine State.setSmDisp_keeps _ _ _ ?_ (subF_trans (by decide) hF)
            exact k1664

theorem execTelltaleMapSlot_keeps (m : ℕ) (s : State) : ∃ s', execTelltaleMapSlot m s = .next s' ∧
    Keeps [.block 0, .sm, .block 1, .out, .tkt, .block 3] s s' := by
  have hF : subF [.block 0, .sm, .block 1, .out, .tkt, .block 3] [.block 0, .sm, .block 1, .out, .tkt, .block 3] = true := by decide
  unfold execTelltaleMapSlot
  refine ⟨_, rfl, ?_⟩
  refine State.mapRun_keeps _ _ _ _ ?_ ?_ (subF_trans (by decide) hF)
  · exact (Keeps.rfl' _ _)
  · intro z1665 z1667 h1666
    refine State.mapSlot_keeps _ _ ?_ (subF_trans (by decide) hF)
    exact h1666

theorem State.mapCommit_keeps {fs : List Zone} {s0 : State} (s : State) (q : Req) (h1 : Keeps fs s0 s) (hF : subF [.block 0, .sm, .block 1, .out, .tkt, .block 8, .free, .block 3] fs = true) :
    Keeps fs s0 (State.mapCommit s q) := by
  unfold State.mapCommit
  extract_lets -merge -underBinder y1668
  refine State.smJudge_keeps _ _ _ _ _ ?_ ?_ (subF_trans (by decide) hF)
  · exact h1
  · intro z1669 h1670
    extract_lets -merge -underBinder y1671
    have k1672 : Keeps fs s0 y1671.1 := by
      refine State.regionCommit_keeps _ _ ?_ (subF_trans (by decide) hF)
      exact h1670
    refine keeps_ite ?_ ?_
    · refine State.smFail_keeps _ _ _ _ ?_ (subF_trans (by decide) hF)
      exact k1672
    · refine State.smWait_keeps _ _ _ ?_ (subF_trans (by decide) hF)
      exact k1672

theorem execTelltaleMapCommit_keeps (m : ℕ) (s : State) : ∃ s', execTelltaleMapCommit m s = .next s' ∧
    Keeps [.block 0, .sm, .block 1, .out, .tkt, .block 8, .free, .block 3] s s' := by
  have hF : subF [.block 0, .sm, .block 1, .out, .tkt, .block 8, .free, .block 3] [.block 0, .sm, .block 1, .out, .tkt, .block 8, .free, .block 3] = true := by decide
  unfold execTelltaleMapCommit
  refine ⟨_, rfl, ?_⟩
  refine State.mapRun_keeps _ _ _ _ ?_ ?_ (subF_trans (by decide) hF)
  · exact (Keeps.rfl' _ _)
  · intro z1673 z1675 h1674
    refine State.mapCommit_keeps _ _ ?_ (subF_trans (by decide) hF)
    exact h1674

theorem State.mapArm_keeps {fs : List Zone} {s0 : State} (s : State) (q : Req) (h1 : Keeps fs s0 s) (hF : subF [.block 0, .sm, .block 1, .out, .tkt, .block 3] fs = true) :
    Keeps fs s0 (State.mapArm s q) := by
  unfold State.mapArm
  extract_lets -merge -underBinder y1676
  refine State.smJudge_keeps _ _ _ _ _ ?_ ?_ (subF_trans (by decide) hF)
  · exact h1
  · intro z1677 h1678
    extract_lets -merge -underBinder y1679
    have k1680 : Keeps fs s0 y1679.1 := by
      refine State.dispCfgWrite_keeps _ _ _ _ ?_ (subF_trans (by decide) hF)
      exact h1678
    refine keeps_ite ?_ ?_
    · refine State.smFail_keeps _ _ _ _ ?_ (subF_trans (by decide) hF)
      exact k1680
    · refine State.smDone_keeps _ _ _ ?_ (subF_trans (by decide) hF)
      exact k1680

theorem execTelltaleMapArm_keeps (m : ℕ) (s : State) : ∃ s', execTelltaleMapArm m s = .next s' ∧
    Keeps [.block 0, .sm, .block 1, .out, .tkt, .block 3] s s' := by
  have hF : subF [.block 0, .sm, .block 1, .out, .tkt, .block 3] [.block 0, .sm, .block 1, .out, .tkt, .block 3] = true := by decide
  unfold execTelltaleMapArm
  refine ⟨_, rfl, ?_⟩
  refine State.mapRun_keeps _ _ _ _ ?_ ?_ (subF_trans (by decide) hF)
  · exact (Keeps.rfl' _ _)
  · intro z1681 z1683 h1682
    refine State.mapArm_keeps _ _ ?_ (subF_trans (by decide) hF)
    exact h1682

theorem State.mapReserved_keeps {fs : List Zone} {s0 : State} (s : State) (q : Req) (h1 : Keeps fs s0 s) (hF : subF [.block 0, .sm, .block 1, .out, .tkt] fs = true) :
    Keeps fs s0 (State.mapReserved s q) := by
  unfold State.mapReserved
  refine keeps_ite ?_ ?_
  · refine State.smFail_keeps _ _ _ _ ?_ (subF_trans (by decide) hF)
    exact h1
  · refine State.smFail_keeps _ _ _ _ ?_ (subF_trans (by decide) hF)
    exact h1

theorem execTelltaleMapReservedSub_keeps (m : ℕ) (s : State) : ∃ s', execTelltaleMapReservedSub m s = .next s' ∧
    Keeps [.block 0, .sm, .block 1, .out, .tkt] s s' := by
  have hF : subF [.block 0, .sm, .block 1, .out, .tkt] [.block 0, .sm, .block 1, .out, .tkt] = true := by decide
  unfold execTelltaleMapReservedSub
  refine ⟨_, rfl, ?_⟩
  refine keeps_ite ?_ ?_
  · exact (Keeps.rfl' _ _)
  · refine State.smRun_keeps _ _ _ _ _ ?_ ?_ (subF_trans (by decide) hF)
    · exact (Keeps.rfl' _ _)
    · intro z1684 z1686 h1685
      refine State.mapReserved_keeps _ _ ?_ (subF_trans (by decide) hF)
      exact h1685

theorem State.writeRecords_keeps {fs : List Zone} {s0 : State} (s : State) (b : List Byte) (h1 : Keeps fs s0 s) (hF : subF [.sec, .block 1, .out, .block 8, .free] fs = true) :
    Keeps fs s0 (State.writeRecords s b) := by
  unfold State.writeRecords
  refine keeps_foldl _ _ ?_ ?_
  · exact h1
  · intro z1687 z1689 h1688
    refine State.secWriteReq_keeps _ _ _ ?_ (subF_trans (by decide) hF)
    exact h1688

theorem State.regionRefLoad_keeps {fs : List Zone} {s0 : State} (host : Option (List Byte)) (s : State) (q : Req) (h2 : Keeps fs s0 s) (hF : subF [.block 0, .sm, .block 1, .out, .tkt, .free, .memo, .sp, .block 8, .sec] fs = true) :
    Keeps fs s0 (State.regionRefLoad host s q) := by
  unfold State.regionRefLoad
  refine State.smJudge_keeps _ _ _ _ _ ?_ ?_ (subF_trans (by decide) hF)
  · exact h2
  · intro z1690 h1691
    refine keeps_ite ?_ ?_
    · refine State.smFail_keeps _ _ _ _ ?_ (subF_trans (by decide) hF)
      exact h1691
    · refine State.smBuf_keeps _ _ _ _ _ _ _ ?_ ?_ (subF_trans (by decide) hF)
      · exact h1691
      · intro z1692 z1694 h1693
        split
        · refine State.smFail_keeps _ _ _ _ ?_ (subF_trans (by decide) hF)
          exact h1693
        · refine State.smDone_keeps _ _ _ ?_ (subF_trans (by decide) hF)
          refine State.writeRecords_keeps _ _ ?_ (subF_trans (by decide) hF)
          exact h1693

theorem execRegionRefLoad_keeps (m : ℕ) (host : Option (List Byte)) (s : State) : ∃ s', execRegionRefLoad m host s = .next s' ∧
    Keeps [.block 0, .sm, .block 1, .out, .tkt, .free, .memo, .sp, .block 8, .sec] s s' := by
  have hF : subF [.block 0, .sm, .block 1, .out, .tkt, .free, .memo, .sp, .block 8, .sec] [.block 0, .sm, .block 1, .out, .tkt, .free, .memo, .sp, .block 8, .sec] = true := by decide
  unfold execRegionRefLoad
  refine ⟨_, rfl, ?_⟩
  refine State.smRun_keeps _ _ _ _ _ ?_ ?_ (subF_trans (by decide) hF)
  · exact (Keeps.rfl' _ _)
  · intro z1695 z1697 h1696
    refine State.regionRefLoad_keeps _ _ _ ?_ (subF_trans (by decide) hF)
    exact h1696

theorem State.kernelLoad_keeps {fs : List Zone} {s0 : State} (host : Option (List Byte)) (s : State) (q : Req) (h2 : Keeps fs s0 s) (hF : subF [.block 0, .sm, .block 1, .out, .tkt, .free, .memo, .sp, .block 8, .kernels] fs = true) :
    Keeps fs s0 (State.kernelLoad host s q) := by
  unfold State.kernelLoad
  extract_lets -merge -underBinder y1698
  refine State.smJudge_keeps _ _ _ _ _ ?_ ?_ (subF_trans (by decide) hF)
  · exact h2
  · intro z1699 h1700
    refine keeps_ite ?_ ?_
    · refine State.smFail_keeps _ _ _ _ ?_ (subF_trans (by decide) hF)
      exact h1700
    · refine State.smBuf_keeps _ _ _ _ _ _ _ ?_ ?_ (subF_trans (by decide) hF)
      · exact h1700
      · intro z1701 z1703 h1702
        try clear_value y1698
        split
        · refine State.smFail_keeps _ _ _ _ ?_ (subF_trans (by decide) hF)
          exact h1702
        · extract_lets -merge -underBinder y1704
          have k1705 : Keeps fs s0 y1704 := by
            refine Keeps.upd ?_ (.inr rfl) (.inl ⟨rfl, rfl⟩) (.inr rfl) (.inr rfl) (.inr rfl) (.inl ⟨rfl, rfl⟩) (.inl ⟨rfl, rfl⟩) (.inl rfl) (.inr rfl) (.inr rfl) (.inr rfl) (.inr rfl) (.inr ⟨rfl, rfl⟩) (.inr rfl) (.inr rfl) (.inl (alw hF (by decide))) (.inr rfl) (.inr rfl) (.inr rfl) (.inr rfl) (.inr rfl) (.inr rfl) (.inr rfl) (.inr rfl) (.inr rfl) (.inr rfl) (.inr rfl) (.inr rfl) (.inl rfl) rfl
            exact h1702
          refine keeps_ite ?_ ?_
          · refine State.smFail_keeps _ _ _ _ ?_ (subF_trans (by decide) hF)
            exact h1702
          · refine State.smDone_keeps _ _ _ ?_ (subF_trans (by decide) hF)
            exact k1705

theorem execKernelLoad_keeps (m : ℕ) (host : Option (List Byte)) (s : State) : ∃ s', execKernelLoad m host s = .next s' ∧
    Keeps [.block 0, .sm, .block 1, .out, .tkt, .free, .memo, .sp, .block 8, .kernels] s s' := by
  have hF : subF [.block 0, .sm, .block 1, .out, .tkt, .free, .memo, .sp, .block 8, .kernels] [.block 0, .sm, .block 1, .out, .tkt, .free, .memo, .sp, .block 8, .kernels] = true := by decide
  unfold execKernelLoad
  refine ⟨_, rfl, ?_⟩
  refine keeps_ite ?_ ?_
  · exact (Keeps.rfl' _ _)
  · refine State.smRun_keeps _ _ _ _ _ ?_ ?_ (subF_trans (by decide) hF)
    · exact (Keeps.rfl' _ _)
    · intro z1706 z1708 h1707
      refine State.kernelLoad_keeps _ _ _ ?_ (subF_trans (by decide) hF)
      exact h1707

theorem State.kernelUnload_keeps {fs : List Zone} {s0 : State} (s : State) (q : Req) (h1 : Keeps fs s0 s) (hF : subF [.block 0, .sm, .block 1, .out, .tkt, .kernels] fs = true) :
    Keeps fs s0 (State.kernelUnload s q) := by
  unfold State.kernelUnload
  extract_lets -merge -underBinder y1709
  refine State.smJudge_keeps _ _ _ _ _ ?_ ?_ (subF_trans (by decide) hF)
  · exact h1
  · intro z1710 h1711
    refine keeps_ite ?_ ?_
    · refine State.smFail_keeps _ _ _ _ ?_ (subF_trans (by decide) hF)
      exact h1711
    · refine keeps_ite ?_ ?_
      · refine State.smFail_keeps _ _ _ _ ?_ (subF_trans (by decide) hF)
        exact h1711
      · refine State.smDone_keeps _ _ _ ?_ (subF_trans (by decide) hF)
        refine Keeps.upd ?_ (.inr rfl) (.inl ⟨rfl, rfl⟩) (.inr rfl) (.inr rfl) (.inr rfl) (.inl ⟨rfl, rfl⟩) (.inl ⟨rfl, rfl⟩) (.inl rfl) (.inr rfl) (.inr rfl) (.inr rfl) (.inr rfl) (.inr ⟨rfl, rfl⟩) (.inr rfl) (.inr rfl) (.inl (alw hF (by decide))) (.inr rfl) (.inr rfl) (.inr rfl) (.inr rfl) (.inr rfl) (.inr rfl) (.inr rfl) (.inr rfl) (.inr rfl) (.inr rfl) (.inr rfl) (.inr rfl) (.inl rfl) rfl
        exact h1711

theorem execKernelUnload_keeps (m : ℕ) (s : State) : ∃ s', execKernelUnload m s = .next s' ∧
    Keeps [.block 0, .sm, .block 1, .out, .tkt, .kernels] s s' := by
  have hF : subF [.block 0, .sm, .block 1, .out, .tkt, .kernels] [.block 0, .sm, .block 1, .out, .tkt, .kernels] = true := by decide
  unfold execKernelUnload
  refine ⟨_, rfl, ?_⟩
  refine keeps_ite ?_ ?_
  · refine State.smRun_keeps _ _ _ _ _ ?_ ?_ (subF_trans (by decide) hF)
    · exact (Keeps.rfl' _ _)
    · intro z1712 z1714 h1713
      refine State.kernelUnload_keeps _ _ ?_ (subF_trans (by decide) hF)
      exact h1713
  · exact (Keeps.rfl' _ _)

theorem State.kernelRun_keeps {fs : List Zone} {s0 : State} (host : Option (List Byte)) (s : State) (q : Req) (h2 : Keeps fs s0 s) (hF : subF [.block 0, .sm, .block 1, .out, .tkt, .free, .memo, .sp, .block 8] fs = true) :
    Keeps fs s0 (State.kernelRun host s q) := by
  unfold State.kernelRun
  extract_lets -merge -underBinder y1715 y1716 y1717 y1718
  refine State.smJudge_keeps _ _ _ _ _ ?_ ?_ (subF_trans (by decide) hF)
  · exact h2
  · intro z1719 h1720
    refine keeps_ite ?_ ?_
    · refine State.smFail_keeps _ _ _ _ ?_ (subF_trans (by decide) hF)
      exact h1720
    · refine keeps_ite ?_ ?_
      · refine State.smFail_keeps _ _ _ _ ?_ (subF_trans (by decide) hF)
        exact h1720
      · refine keeps_ite ?_ ?_
        · refine State.smFail_keeps _ _ _ _ ?_ (subF_trans (by decide) hF)
          exact h1720
        · refine keeps_ite ?_ ?_
          · refine State.smFail_keeps _ _ _ _ ?_ (subF_trans (by decide) hF)
            exact h1720
          · refine keeps_ite ?_ ?_
            · refine State.smFail_keeps _ _ _ _ ?_ (subF_trans (by decide) hF)
              exact h1720
            · try clear_value y1716
              split
              · refine State.smFail_keeps _ _ _ _ ?_ (subF_trans (by decide) hF)
                exact h1720
              · refine keeps_ite ?_ ?_
                · refine State.smFail_keeps _ _ _ _ ?_ (subF_trans (by decide) hF)
                  exact h1720
                · refine State.smBuf_keeps _ _ _ _ _ _ _ ?_ ?_ (subF_trans (by decide) hF)
                  · exact h1720
                  · intro z1721 z1723 h1722
                    refine keeps_ite ?_ ?_
                    · refine State.smWait_keeps _ _ _ ?_ (subF_trans (by decide) hF)
                      exact h1722
                    · refine State.smFail_keeps _ _ _ _ ?_ (subF_trans (by decide) hF)
                      exact h1722

theorem State.kernelStrip_keeps {fs : List Zone} {s0 : State} (s : State) (m : ℕ) (stored : Bool) (h1 : Keeps fs s0 s) (hF : subF [.block 0, .sm, .block 1, .out, .tkt, .free] fs = true) :
    Keeps fs s0 (State.kernelStrip s m stored) := by
  unfold State.kernelStrip
  split
  · refine keeps_ite ?_ ?_
    · exact h1
    · refine keeps_ite ?_ ?_
      · refine State.smFailWith_keeps _ _ _ _ _ _ ?_ (subF_trans (by decide) hF)
        exact h1
      · refine keeps_ite ?_ ?_
        · refine State.smEnd_keeps _ _ _ _ _ ?_ (subF_trans (by decide) hF)
          refine State.setRsp_keeps _ _ _ _ ?_ (subF_trans (by decide) hF)
          exact h1
        · refine keeps_ite ?_ ?_
          · refine State.useFree_keeps _ ?_ (subF_trans (by decide) hF)
            refine State.smDone_keeps _ _ _ ?_ (subF_trans (by decide) hF)
            exact h1
          · refine State.smWait_keeps _ _ _ ?_ (subF_trans (by decide) hF)
            exact h1
  · exact h1

theorem execKernelRun_keeps (m : ℕ) (host : Option (List Byte)) (stored : Bool) (s : State) : ∃ s', execKernelRun m host stored s = .next s' ∧
    Keeps [.block 0, .sm, .block 1, .out, .tkt, .free, .memo, .sp, .block 8] s s' := by
  have hF : subF [.block 0, .sm, .block 1, .out, .tkt, .free, .memo, .sp, .block 8] [.block 0, .sm, .block 1, .out, .tkt, .free, .memo, .sp, .block 8] = true := by decide
  unfold execKernelRun
  refine ⟨_, rfl, ?_⟩
  split
  · refine State.kernelStrip_keeps _ _ _ ?_ (subF_trans (by decide) hF)
    exact (Keeps.rfl' _ _)
  · refine State.smRun_keeps _ _ _ _ _ ?_ ?_ (subF_trans (by decide) hF)
    · exact (Keeps.rfl' _ _)
    · intro z1724 z1726 h1725
      refine State.kernelRun_keeps _ _ _ ?_ (subF_trans (by decide) hF)
      exact h1725

end Sys2Proof.Machine
end

