-- ==== Sys2Proof/Laws/KeepsConfigs.lean ====
section
/-! SUPPORT. What each operation of Machine/Configs.lean can change, one lemma an operation (Laws/KeepsBase.lean). -/

-- elaborated one declaration at a time, so that the package compiles as one text in bounded memory
set_option Elab.async false

namespace Sys2Proof.Machine

theorem State.streamStop_keeps {fs : List Zone} {s0 : State} (s : State) (n : ℕ) (v : ℕ) (h1 : Keeps fs s0 s) (hF : subF [.block 20, .streams] fs = true) :
    Keeps fs s0 (State.streamStop s n v) := by
  unfold State.streamStop
  extract_lets -merge -underBinder y1700
  have k1701 : Keeps fs s0 y1700 := by
    refine setBit_keeps _ _ _ ?_ (alwL14 hF 0 (by simp only [strReg, Reg.STR_CFG]; omega))
    exact h1
  refine keeps_ite ?_ ?_
  · refine State.setStream_keeps _ _ _ _ ?_ (subF_trans (by decide) hF)
    exact k1701
  · exact k1701

theorem State.streamRegs_keeps {fs : List Zone} {s0 : State} (s : State) (q : Req) (n : ℕ) (v : ℕ) (h1 : Keeps fs s0 s) (hF : subF [.block 20, .streams] fs = true) :
    Keeps fs s0 (State.streamRegs s q n v) := by
  unfold State.streamRegs
  extract_lets -merge -underBinder y1727 y1728 y1729 y1730
  have k1731 : Keeps fs s0 y1728 := by
    refine State.streamStop_keeps _ _ _ ?_ (subF_trans (by decide) hF)
    exact h1
  have k1732 : Keeps fs s0 y1729 := by
    refine setReg_keeps _ _ ?_ (alwL14 hF 0 (by simp only [strReg, Reg.STR_GEOM]; omega))
    refine setFld_keeps _ _ _ _ ?_ (alwL14 hF 0 (by simp only [y1727, strReg, Reg.STR_CFG]; omega))
    refine setFld_keeps _ _ _ _ ?_ (alwL14 hF 0 (by simp only [y1727, strReg, Reg.STR_CFG]; omega))
    exact k1731
  have k1733 : Keeps fs s0 y1730 := by
    refine setReg_keeps _ _ ?_ (alwL14 hF 0 (by simp only [strReg, Reg.STR_TMO]; omega))
    refine setReg_keeps _ _ ?_ (alwL14 hF 0 (by simp only [strReg, Reg.STR_STRIDE]; omega))
    exact k1732
  refine keeps_foldl _ _ ?_ ?_
  · exact k1733
  · intro z1734 z1736 h1735
    refine setReg_keeps _ _ ?_ (alwL14 hF 0 (by simp only [strReg, Reg.STR_BUF]; omega))
    exact h1735

theorem State.streamEnable_keeps {fs : List Zone} {s0 : State} (s : State) (q : Req) (n : ℕ) (v : ℕ) (h1 : Keeps fs s0 s) (hF : subF [.block 20, .streams] fs = true) :
    Keeps fs s0 (State.streamEnable s q n v) := by
  unfold State.streamEnable
  extract_lets -merge -underBinder y1737 y1738 y1739
  have k1740 : Keeps fs s0 y1738 := by
    refine keeps_ite ?_ ?_
    · refine State.camCfgWrite_keeps _ _ _ _ ?_ (subF_trans (by decide) hF)
      exact h1
    · exact h1
  refine setBit_keeps _ _ _ ?_ (alwL14 hF 0 (by simp only [camReg, Reg.CAM_CTL]; omega))
  refine setFld_keeps _ _ _ _ ?_ (alwL14 hF 0 (by simp only [camReg, Reg.CAM_CTL]; omega))
  exact k1740

theorem State.cameraConfig_keeps {fs : List Zone} {s0 : State} (s : State) (q : Req) (h1 : Keeps fs s0 s) (hF : subF [.block 0, .sm, .block 1, .out, .tkt, .block 20, .streams] fs = true) :
    Keeps fs s0 (State.cameraConfig s q) := by
  unfold State.cameraConfig
  extract_lets -merge -underBinder y1741 y1742 y1743 y1744 y1745 y1746 y1747
  refine State.smJudge_keeps _ _ _ _ _ ?_ ?_ (subF_trans (by decide) hF)
  · exact h1
  · intro z1748 h1749
    extract_lets -merge -underBinder y1750
    have k1751 : Keeps fs s0 y1750 := by
      refine State.streamRegs_keeps _ _ _ _ ?_ (subF_trans (by decide) hF)
      exact h1749
    refine keeps_ite ?_ ?_
    · refine State.smFail_keeps _ _ _ _ ?_ (subF_trans (by decide) hF)
      exact h1749
    · refine keeps_ite ?_ ?_
      · refine State.smFail_keeps _ _ _ _ ?_ (subF_trans (by decide) hF)
        exact h1749
      · refine keeps_ite ?_ ?_
        · refine State.smFail_keeps _ _ _ _ ?_ (subF_trans (by decide) hF)
          exact h1749
        · refine keeps_ite ?_ ?_
          · refine State.smFail_keeps _ _ _ _ ?_ (subF_trans (by decide) hF)
            exact h1749
          · refine keeps_ite ?_ ?_
            · refine State.smFail_keeps _ _ _ _ ?_ (subF_trans (by decide) hF)
              exact h1749
            · refine keeps_ite ?_ ?_
              · refine State.smFail_keeps _ _ _ _ ?_ (subF_trans (by decide) hF)
                exact h1749
              · refine keeps_ite ?_ ?_
                · refine State.smFail_keeps _ _ _ _ ?_ (subF_trans (by decide) hF)
                  exact h1749
                · refine State.smDone_keeps _ _ _ ?_ (subF_trans (by decide) hF)
                  refine State.streamEnable_keeps _ _ _ _ ?_ (subF_trans (by decide) hF)
                  exact k1751

theorem execCameraConfig_keeps (m : ℕ) (s : State) : ∃ s', execCameraConfig m s = .next s' ∧
    Keeps [.block 0, .sm, .block 1, .out, .tkt, .block 20, .streams] s s' := by
  have hF : subF [.block 0, .sm, .block 1, .out, .tkt, .block 20, .streams] [.block 0, .sm, .block 1, .out, .tkt, .block 20, .streams] = true := by decide
  unfold execCameraConfig
  refine ⟨_, rfl, ?_⟩
  refine State.smRun_keeps _ _ _ _ _ ?_ ?_ (subF_trans (by decide) hF)
  · exact (Keeps.rfl' _ _)
  · intro z1752 z1754 h1753
    refine State.cameraConfig_keeps _ _ ?_ (subF_trans (by decide) hF)
    exact h1753

theorem State.areaDiscard_keeps {fs : List Zone} {s0 : State} (s : State) (q : Req) (p : ℕ) (h1 : Keeps fs s0 s) (hF : subF [.sm] fs = true) :
    Keeps fs s0 (State.areaDiscard s q p) := by
  unfold State.areaDiscard
  extract_lets -merge -underBinder y1755
  refine keeps_ite ?_ ?_
  · exact h1
  · refine State.setSmDisp_keeps _ _ _ ?_ (subF_trans (by decide) hF)
    exact h1

theorem State.displayRegs_keeps {fs : List Zone} {s0 : State} (s : State) (q : Req) (p : ℕ) (h1 : Keeps fs s0 s) (hF : subF [.block 20, .sm] fs = true) :
    Keeps fs s0 (State.displayRegs s q p) := by
  unfold State.displayRegs
  extract_lets -merge -underBinder y1756 y1757 y1758
  have k1759 : Keeps fs s0 y1756 := by
    refine setReg_keeps _ _ ?_ (alwL14 hF 0 (by simp only [pipeReg, Reg.PCLK]; omega))
    refine setReg_keeps _ _ ?_ (alwL14 hF 0 (by simp only [pipeReg, Reg.VTIM1]; omega))
    refine setReg_keeps _ _ ?_ (alwL14 hF 0 (by simp only [pipeReg, Reg.VTIM0]; omega))
    refine setReg_keeps _ _ ?_ (alwL14 hF 0 (by simp only [pipeReg, Reg.HTIM1]; omega))
    refine setReg_keeps _ _ ?_ (alwL14 hF 0 (by simp only [pipeReg, Reg.HTIM0]; omega))
    refine State.areaDiscard_keeps _ _ _ ?_ (subF_trans (by decide) hF)
    exact h1
  have k1760 : Keeps fs s0 y1758 := by
    refine setBit_keeps _ _ _ ?_ (alwL14 hF 0 (by simp only [y1757, pipeReg, Reg.PIPE_CTL]; omega))
    refine setBit_keeps _ _ _ ?_ (alwL14 hF 0 (by simp only [y1757, pipeReg, Reg.PIPE_CTL]; omega))
    refine setFld_keeps _ _ _ _ ?_ (alwL14 hF 0 (by simp only [y1757, pipeReg, Reg.PIPE_CTL]; omega))
    exact k1759
  refine setReg_keeps _ _ ?_ (alwL14 hF 0 (by simp only [pipeReg, Reg.PIPE_LOCK]; omega))
  exact k1760

theorem State.displayApply_keeps {fs : List Zone} {s0 : State} (s : State) (q : Req) (stop : ℕ) (h1 : Keeps fs s0 s) (hF : subF [.block 20, .sm, .block 0, .block 1, .out, .tkt, .pipes, .block 3, .free, .il] fs = true) :
    Keeps fs s0 (State.displayApply s q stop) := by
  unfold State.displayApply
  extract_lets -merge -underBinder y1761 y1762 y1763 y1764 y1765 y1766 y1767
  have k1768 : Keeps fs s0 y1763 := by
    refine State.displayRegs_keeps _ _ _ ?_ (subF_trans (by decide) hF)
    exact h1
  have k1769 : Keeps fs s0 y1766 := by
    refine State.setSmDisp_keeps _ _ _ ?_ (subF_trans (by decide) hF)
    exact k1768
  have k1770 : Keeps fs s0 y1767.1 := by
    refine State.pipeCtlWrite_keeps _ _ _ ?_ (subF_trans (by decide) hF)
    exact k1769
  refine keeps_ite ?_ ?_
  · refine State.smFail_keeps _ _ _ _ ?_ (subF_trans (by decide) hF)
    exact k1769
  · refine keeps_ite ?_ ?_
    · refine keeps_ite ?_ ?_
      · refine State.smFail_keeps _ _ _ _ ?_ (subF_trans (by decide) hF)
        exact k1770
      · refine State.smWait_keeps _ _ _ ?_ (subF_trans (by decide) hF)
        exact k1770
    · refine State.smDone_keeps _ _ _ ?_ (subF_trans (by decide) hF)
      exact k1769

theorem State.displayConfig_keeps {fs : List Zone} {s0 : State} (host : Option (List Byte)) (bad : Option ℕ) (s : State) (q : Req) (h3 : Keeps fs s0 s) (hF : subF [.block 0, .sm, .block 1, .out, .tkt, .free, .memo, .sp, .block 8, .block 20, .pipes, .block 3, .il] fs = true) :
    Keeps fs s0 (State.displayConfig host bad s q) := by
  unfold State.displayConfig
  extract_lets -merge -underBinder y1771 y1772 y1773 y1774
  refine State.smJudge_keeps _ _ _ _ _ ?_ ?_ (subF_trans (by decide) hF)
  · exact h3
  · intro z1775 h1776
    refine keeps_ite ?_ ?_
    · refine State.smFail_keeps _ _ _ _ ?_ (subF_trans (by decide) hF)
      exact h1776
    · refine keeps_ite ?_ ?_
      · refine State.smFail_keeps _ _ _ _ ?_ (subF_trans (by decide) hF)
        exact h1776
      · refine State.smBuf_keeps _ _ _ _ _ _ _ ?_ ?_ (subF_trans (by decide) hF)
        · exact h1776
        · intro z1777 z1779 h1778
          try clear_value y1773
          split
          · refine State.smFail_keeps _ _ _ _ ?_ (subF_trans (by decide) hF)
            exact h1778
          · refine keeps_ite ?_ ?_
            · refine State.smFail_keeps _ _ _ _ ?_ (subF_trans (by decide) hF)
              exact h1778
            · try clear_value y1772
              split
              · refine State.smFail_keeps _ _ _ _ ?_ (subF_trans (by decide) hF)
                exact h1778
              · extract_lets -merge -underBinder y1780
                try clear_value y1772
                split
                · refine State.displayApply_keeps _ _ _ ?_ (subF_trans (by decide) hF)
                  exact h1778
                · refine State.displayApply_keeps _ _ _ ?_ (subF_trans (by decide) hF)
                  refine State.pipeDisable_keeps _ _ ?_ (subF_trans (by decide) hF)
                  exact h1778
                · refine State.smWait_keeps _ _ _ ?_ (subF_trans (by decide) hF)
                  refine State.pipeDisable_keeps _ _ ?_ (subF_trans (by decide) hF)
                  exact h1778

theorem execDisplayConfig_keeps (m : ℕ) (host : Option (List Byte)) (bad : Option ℕ) (s : State) : ∃ s', execDisplayConfig m host bad s = .next s' ∧
    Keeps [.block 0, .sm, .block 1, .out, .tkt, .free, .memo, .sp, .block 8, .block 20, .pipes, .block 3, .il] s s' := by
  have hF : subF [.block 0, .sm, .block 1, .out, .tkt, .free, .memo, .sp, .block 8, .block 20, .pipes, .block 3, .il] [.block 0, .sm, .block 1, .out, .tkt, .free, .memo, .sp, .block 8, .block 20, .pipes, .block 3, .il] = true := by decide
  unfold execDisplayConfig
  refine ⟨_, rfl, ?_⟩
  refine keeps_ite ?_ ?_
  · exact (Keeps.rfl' _ _)
  · refine State.smRun_keeps _ _ _ _ _ ?_ ?_ (subF_trans (by decide) hF)
    · exact (Keeps.rfl' _ _)
    · intro z1781 z1783 h1782
      refine State.displayConfig_keeps _ _ _ _ ?_ (subF_trans (by decide) hF)
      exact h1782

theorem State.displayRetrain_keeps {fs : List Zone} {s0 : State} (s : State) (q : Req) (h1 : Keeps fs s0 s) (hF : subF [.block 0, .sm, .block 1, .out, .tkt, .block 20, .pipes, .block 3, .free, .il] fs = true) :
    Keeps fs s0 (State.displayRetrain s q) := by
  unfold State.displayRetrain
  extract_lets -merge -underBinder y1784
  refine State.smJudge_keeps _ _ _ _ _ ?_ ?_ (subF_trans (by decide) hF)
  · exact h1
  · intro z1785 h1786
    extract_lets -merge -underBinder y1787
    try clear_value y1784
    split
    · refine State.smFail_keeps _ _ _ _ ?_ (subF_trans (by decide) hF)
      exact h1786
    · refine State.smWait_keeps _ _ _ ?_ (subF_trans (by decide) hF)
      refine State.pipeCtlWrite_keeps _ _ _ ?_ (subF_trans (by decide) hF)
      refine State.pipeCtlWrite_keeps _ _ _ ?_ (subF_trans (by decide) hF)
      exact h1786
    · refine State.smWait_keeps _ _ _ ?_ (subF_trans (by decide) hF)
      exact h1786

theorem execDisplayConfigRetrain_keeps (m : ℕ) (s : State) : ∃ s', execDisplayConfigRetrain m s = .next s' ∧
    Keeps [.block 0, .sm, .block 1, .out, .tkt, .block 20, .pipes, .block 3, .free, .il] s s' := by
  have hF : subF [.block 0, .sm, .block 1, .out, .tkt, .block 20, .pipes, .block 3, .free, .il] [.block 0, .sm, .block 1, .out, .tkt, .block 20, .pipes, .block 3, .free, .il] = true := by decide
  unfold execDisplayConfigRetrain
  refine ⟨_, rfl, ?_⟩
  refine keeps_ite ?_ ?_
  · refine State.smRun_keeps _ _ _ _ _ ?_ ?_ (subF_trans (by decide) hF)
    · exact (Keeps.rfl' _ _)
    · intro z1788 z1790 h1789
      refine State.displayRetrain_keeps _ _ ?_ (subF_trans (by decide) hF)
      exact h1789
  · exact (Keeps.rfl' _ _)

theorem State.displayNext_keeps {fs : List Zone} {s0 : State} (s : State) (h1 : Keeps fs s0 s) (hF : subF [.block 20, .sm, .block 0, .block 1, .out, .tkt, .pipes, .block 3, .free, .il] fs = true) :
    Keeps fs s0 (State.displayNext s) := by
  unfold State.displayNext
  refine keeps_foldl _ _ ?_ ?_
  · exact h1
  · intro z1791 z1793 h1792
    split
    · refine keeps_ite ?_ ?_
      · refine State.displayApply_keeps _ _ _ ?_ (subF_trans (by decide) hF)
        exact h1792
      · exact h1792
    · exact h1792

theorem State.displayLinked_keeps {fs : List Zone} {s0 : State} (s : State) (p : ℕ) (up : Bool) (h1 : Keeps fs s0 s) (hF : subF [.sm, .block 1, .out, .block 0, .tkt, .block 20, .block 3, .free, .pipes, .il] fs = true) :
    Keeps fs s0 (State.displayLinked s p up) := by
  unfold State.displayLinked
  refine keeps_foldl _ _ ?_ ?_
  · exact h1
  · intro z1794 z1796 h1795
    split
    · refine keeps_ite ?_ ?_
      · exact h1795
      · refine keeps_ite ?_ ?_
        · refine State.smDone_keeps _ _ _ ?_ (subF_trans (by decide) hF)
          exact h1795
        · refine State.smFail_keeps _ _ _ _ ?_ (subF_trans (by decide) hF)
          refine keeps_ite ?_ ?_
          · exact h1795
          · refine State.pipeDisable_keeps _ _ ?_ (subF_trans (by decide) hF)
            exact h1795
    · exact h1795

end Sys2Proof.Machine
end

