-- ==== Sys2Proof/Laws/KeepsUpdates.lean ====
section
/-! SUPPORT. What each operation of Machine/Updates.lean can change, one lemma an operation (Laws/KeepsBase.lean). -/

-- elaborated one declaration at a time, so that the package compiles as one text in bounded memory
set_option Elab.async false

namespace Sys2Proof.Machine

theorem State.extWrite_keeps {fs : List Zone} {s0 : State} (s : State) (o : ℕ) (b : List Byte) (h1 : Keeps fs s0 s) (hF : subF [.upd] fs = true) :
    Keeps fs s0 (State.extWrite s o b) := by
  unfold State.extWrite
  extract_lets -merge -underBinder y1797
  refine Keeps.upd ?_ (.inr rfl) (.inl ⟨rfl, rfl⟩) (.inr rfl) (.inr rfl) (.inr rfl) (.inl ⟨rfl, rfl⟩) (.inl ⟨rfl, rfl⟩) (.inl rfl) (.inr rfl) (.inr rfl) (.inr rfl) (.inr rfl) (.inr ⟨rfl, rfl⟩) (.inr rfl) (.inr rfl) (.inr rfl) (.inr rfl) (.inr rfl) (.inr rfl) (.inr rfl) (.inr rfl) (.inl (alw hF (by decide))) (.inr rfl) (.inr rfl) (.inr rfl) (.inr rfl) (.inr rfl) (.inr rfl) (.inl rfl) rfl
  exact h1

theorem State.setKind_keeps {fs : List Zone} {s0 : State} (s : State) (k : ℕ) (x : ImgKind) (h1 : Keeps fs s0 s) (hF : subF [.upd] fs = true) :
    Keeps fs s0 (State.setKind s k x) := by
  unfold State.setKind
  extract_lets -merge -underBinder y1798
  refine Keeps.upd ?_ (.inr rfl) (.inl ⟨rfl, rfl⟩) (.inr rfl) (.inr rfl) (.inr rfl) (.inl ⟨rfl, rfl⟩) (.inl ⟨rfl, rfl⟩) (.inl rfl) (.inr rfl) (.inr rfl) (.inr rfl) (.inr rfl) (.inr ⟨rfl, rfl⟩) (.inr rfl) (.inr rfl) (.inr rfl) (.inr rfl) (.inr rfl) (.inr rfl) (.inr rfl) (.inr rfl) (.inl (alw hF (by decide))) (.inr rfl) (.inr rfl) (.inr rfl) (.inr rfl) (.inr rfl) (.inr rfl) (.inl rfl) rfl
  exact h1

theorem State.updEnd_keeps {fs : List Zone} {s0 : State} (s : State) (image : ℕ) (op : ℕ) (status : ℕ) (h1 : Keeps fs s0 s) (hF : subF [.log, .free] fs = true) :
    Keeps fs s0 (State.updEnd s image op status) := by
  unfold State.updEnd
  refine State.logEvent_keeps _ _ _ _ ?_ (subF_trans (by decide) hF)
  exact h1

theorem State.updFail_keeps {fs : List Zone} {s0 : State} (s : State) (q : Req) (image : ℕ) (op : ℕ) (code : ℕ) (w : ℕ) (more : List Word) (h1 : Keeps fs s0 s) (hF : subF [.log, .free, .block 0, .sm, .block 1, .out, .tkt] fs = true) :
    Keeps fs s0 (State.updFail s q image op code w more) := by
  unfold State.updFail
  refine State.updEnd_keeps _ _ _ _ ?_ (subF_trans (by decide) hF)
  refine State.smFailWith_keeps _ _ _ _ _ _ ?_ (subF_trans (by decide) hF)
  exact h1

theorem State.updDone_keeps {fs : List Zone} {s0 : State} (s : State) (q : Req) (image : ℕ) (op : ℕ) (a : List Word) (h1 : Keeps fs s0 s) (hF : subF [.log, .free, .sm, .block 1, .out, .block 0, .tkt] fs = true) :
    Keeps fs s0 (State.updDone s q image op a) := by
  unfold State.updDone
  refine State.updEnd_keeps _ _ _ _ ?_ (subF_trans (by decide) hF)
  refine State.smDone_keeps _ _ _ ?_ (subF_trans (by decide) hF)
  exact h1

theorem State.updateBegin_keeps {fs : List Zone} {s0 : State} (s : State) (q : Req) (h1 : Keeps fs s0 s) (hF : subF [.block 0, .sm, .block 1, .out, .tkt, .log, .free, .upd] fs = true) :
    Keeps fs s0 (State.updateBegin s q) := by
  unfold State.updateBegin
  extract_lets -merge -underBinder y1799
  refine State.smJudge_keeps _ _ _ _ _ ?_ ?_ (subF_trans (by decide) hF)
  · exact h1
  · intro z1800 h1801
    extract_lets -merge -underBinder y1802 y1803 y1804 y1805 y1806 y1807
    have k1808 : Keeps fs s0 y1802 := by
      refine keeps_ite ?_ ?_
      · exact h1801
      · refine State.updEnd_keeps _ _ _ _ ?_ (subF_trans (by decide) hF)
        exact h1801
    have k1809 : Keeps fs s0 y1805 := by
      refine State.setKind_keeps _ _ _ ?_ (subF_trans (by decide) hF)
      exact k1808
    refine keeps_ite ?_ ?_
    · refine State.updFail_keeps _ _ _ _ _ _ _ ?_ (subF_trans (by decide) hF)
      exact h1801
    · refine keeps_ite ?_ ?_
      · refine State.updFail_keeps _ _ _ _ _ _ _ ?_ (subF_trans (by decide) hF)
        exact h1801
      · refine State.updDone_keeps _ _ _ _ _ ?_ (subF_trans (by decide) hF)
        refine Keeps.upd ?_ (.inr rfl) (.inl ⟨rfl, rfl⟩) (.inr rfl) (.inr rfl) (.inr rfl) (.inl ⟨rfl, rfl⟩) (.inl ⟨rfl, rfl⟩) (.inl rfl) (.inr rfl) (.inr rfl) (.inr rfl) (.inr rfl) (.inr ⟨rfl, rfl⟩) (.inr rfl) (.inr rfl) (.inr rfl) (.inr rfl) (.inr rfl) (.inr rfl) (.inr rfl) (.inr rfl) (.inl (alw hF (by decide))) (.inr rfl) (.inr rfl) (.inr rfl) (.inr rfl) (.inr rfl) (.inr rfl) (.inl rfl) rfl
        exact k1809

theorem execUpdateBegin_keeps (m : ℕ) (s : State) : ∃ s', execUpdateBegin m s = .next s' ∧
    Keeps [.block 0, .sm, .block 1, .out, .tkt, .log, .free, .upd] s s' := by
  have hF : subF [.block 0, .sm, .block 1, .out, .tkt, .log, .free, .upd] [.block 0, .sm, .block 1, .out, .tkt, .log, .free, .upd] = true := by decide
  unfold execUpdateBegin
  refine ⟨_, rfl, ?_⟩
  refine State.smRun_keeps _ _ _ _ _ ?_ ?_ (subF_trans (by decide) hF)
  · exact (Keeps.rfl' _ _)
  · intro z1810 z1812 h1811
    refine State.updateBegin_keeps _ _ ?_ (subF_trans (by decide) hF)
    exact h1811

theorem State.setSession_keeps {fs : List Zone} {s0 : State} (s : State) (slot : ℕ) (sess : ℕ) (h1 : Keeps fs s0 s) (hF : subF [.upd] fs = true) :
    Keeps fs s0 (State.setSession s slot sess) := by
  unfold State.setSession
  extract_lets -merge -underBinder y1813 y1814 y1815 y1816
  have k1817 : Keeps fs s0 y1815 := by
    refine State.setKind_keeps _ _ _ ?_ (subF_trans (by decide) hF)
    exact h1
  refine Keeps.upd ?_ (.inr rfl) (.inl ⟨rfl, rfl⟩) (.inr rfl) (.inr rfl) (.inr rfl) (.inl ⟨rfl, rfl⟩) (.inl ⟨rfl, rfl⟩) (.inl rfl) (.inr rfl) (.inr rfl) (.inr rfl) (.inr rfl) (.inr ⟨rfl, rfl⟩) (.inr rfl) (.inr rfl) (.inr rfl) (.inr rfl) (.inr rfl) (.inr rfl) (.inr rfl) (.inr rfl) (.inl (alw hF (by decide))) (.inr rfl) (.inr rfl) (.inr rfl) (.inr rfl) (.inr rfl) (.inr rfl) (.inl rfl) rfl
  exact k1817

theorem State.updateChunk_keeps {fs : List Zone} {s0 : State} (host : Option (List Byte)) (s : State) (q : Req) (h2 : Keeps fs s0 s) (hF : subF [.block 0, .sm, .block 1, .out, .tkt, .log, .free, .memo, .sp, .block 8, .upd] fs = true) :
    Keeps fs s0 (State.updateChunk host s q) := by
  unfold State.updateChunk
  extract_lets -merge -underBinder y1818 y1819
  refine State.smJudge_keeps _ _ _ _ _ ?_ ?_ (subF_trans (by decide) hF)
  · exact h2
  · intro z1820 h1821
    extract_lets -merge -underBinder y1822
    refine keeps_ite ?_ ?_
    · refine State.updFail_keeps _ _ _ _ _ _ _ ?_ (subF_trans (by decide) hF)
      exact h1821
    · refine keeps_ite ?_ ?_
      · refine State.updFail_keeps _ _ _ _ _ _ _ ?_ (subF_trans (by decide) hF)
        exact h1821
      · refine keeps_ite ?_ ?_
        · refine State.updFail_keeps _ _ _ _ _ _ _ ?_ (subF_trans (by decide) hF)
          exact h1821
        · refine keeps_ite ?_ ?_
          · refine State.updFail_keeps _ _ _ _ _ _ _ ?_ (subF_trans (by decide) hF)
            exact h1821
          · refine State.smBuf_keeps _ _ _ _ _ _ _ ?_ ?_ (subF_trans (by decide) hF)
            · exact h1821
            · intro z1823 z1825 h1824
              extract_lets -merge -underBinder y1826 y1827 y1828
              have k1829 : Keeps fs s0 y1826 := by
                refine State.extWrite_keeps _ _ _ ?_ (subF_trans (by decide) hF)
                exact h1824
              have k1830 : Keeps fs s0 y1828 := by
                refine Keeps.upd ?_ (.inr rfl) (.inl ⟨rfl, rfl⟩) (.inr rfl) (.inr rfl) (.inr rfl) (.inl ⟨rfl, rfl⟩) (.inl ⟨rfl, rfl⟩) (.inl rfl) (.inr rfl) (.inr rfl) (.inr rfl) (.inr rfl) (.inr ⟨rfl, rfl⟩) (.inr rfl) (.inr rfl) (.inr rfl) (.inr rfl) (.inr rfl) (.inr rfl) (.inr rfl) (.inr rfl) (.inl (alw hF (by decide))) (.inr rfl) (.inr rfl) (.inr rfl) (.inr rfl) (.inr rfl) (.inr rfl) (.inl rfl) rfl
                exact k1829
              refine State.updDone_keeps _ _ _ _ _ ?_ (subF_trans (by decide) hF)
              refine keeps_ite ?_ ?_
              · refine State.setSession_keeps _ _ _ ?_ (subF_trans (by decide) hF)
                exact k1830
              · exact k1830

theorem execUpdateChunk_keeps (m : ℕ) (host : Option (List Byte)) (s : State) : ∃ s', execUpdateChunk m host s = .next s' ∧
    Keeps [.block 0, .sm, .block 1, .out, .tkt, .log, .free, .memo, .sp, .block 8, .upd] s s' := by
  have hF : subF [.block 0, .sm, .block 1, .out, .tkt, .log, .free, .memo, .sp, .block 8, .upd] [.block 0, .sm, .block 1, .out, .tkt, .log, .free, .memo, .sp, .block 8, .upd] = true := by decide
  unfold execUpdateChunk
  refine ⟨_, rfl, ?_⟩
  refine State.smRun_keeps _ _ _ _ _ ?_ ?_ (subF_trans (by decide) hF)
  · exact (Keeps.rfl' _ _)
  · intro z1831 z1833 h1832
    refine State.updateChunk_keeps _ _ _ ?_ (subF_trans (by decide) hF)
    exact h1832

theorem State.updateVerify_keeps {fs : List Zone} {s0 : State} (s : State) (q : Req) (h1 : Keeps fs s0 s) (hF : subF [.block 0, .sm, .block 1, .out, .tkt, .log, .free, .upd] fs = true) :
    Keeps fs s0 (State.updateVerify s q) := by
  unfold State.updateVerify
  refine State.smJudge_keeps _ _ _ _ _ ?_ ?_ (subF_trans (by decide) hF)
  · exact h1
  · intro z1834 h1835
    extract_lets -merge -underBinder y1836 y1837
    refine keeps_ite ?_ ?_
    · refine State.updFail_keeps _ _ _ _ _ _ _ ?_ (subF_trans (by decide) hF)
      exact h1835
    · refine keeps_ite ?_ ?_
      · refine State.updFail_keeps _ _ _ _ _ _ _ ?_ (subF_trans (by decide) hF)
        exact h1835
      · refine keeps_ite ?_ ?_
        · refine State.updFail_keeps _ _ _ _ _ _ _ ?_ (subF_trans (by decide) hF)
          exact h1835
        · try clear_value y1836
          try clear_value y1837
          split
          · refine State.updFail_keeps _ _ _ _ _ _ _ ?_ (subF_trans (by decide) hF)
            exact h1835
          · refine State.updDone_keeps _ _ _ _ _ ?_ (subF_trans (by decide) hF)
            refine State.setSession_keeps _ _ _ ?_ (subF_trans (by decide) hF)
            exact h1835

theorem execUpdateVerify_keeps (m : ℕ) (s : State) : ∃ s', execUpdateVerify m s = .next s' ∧
    Keeps [.block 0, .sm, .block 1, .out, .tkt, .log, .free, .upd] s s' := by
  have hF : subF [.block 0, .sm, .block 1, .out, .tkt, .log, .free, .upd] [.block 0, .sm, .block 1, .out, .tkt, .log, .free, .upd] = true := by decide
  unfold execUpdateVerify
  refine ⟨_, rfl, ?_⟩
  refine State.smRun_keeps _ _ _ _ _ ?_ ?_ (subF_trans (by decide) hF)
  · exact (Keeps.rfl' _ _)
  · intro z1838 z1840 h1839
    refine State.updateVerify_keeps _ _ ?_ (subF_trans (by decide) hF)
    exact h1839

theorem State.updateActivate_keeps {fs : List Zone} {s0 : State} (s : State) (q : Req) (h1 : Keeps fs s0 s) (hF : subF [.block 0, .sm, .block 1, .out, .tkt, .log, .free, .upd] fs = true) :
    Keeps fs s0 (State.updateActivate s q) := by
  unfold State.updateActivate
  refine State.smJudge_keeps _ _ _ _ _ ?_ ?_ (subF_trans (by decide) hF)
  · exact h1
  · intro z1841 h1842
    extract_lets -merge -underBinder y1843 y1844 y1845 y1846
    have k1847 : Keeps fs s0 y1845 := by
      refine State.setKind_keeps _ _ _ ?_ (subF_trans (by decide) hF)
      exact h1842
    refine keeps_ite ?_ ?_
    · refine State.updFail_keeps _ _ _ _ _ _ _ ?_ (subF_trans (by decide) hF)
      exact h1842
    · refine keeps_ite ?_ ?_
      · refine State.updFail_keeps _ _ _ _ _ _ _ ?_ (subF_trans (by decide) hF)
        exact h1842
      · refine State.useFree_keeps _ ?_ (subF_trans (by decide) hF)
        refine State.updDone_keeps _ _ _ _ _ ?_ (subF_trans (by decide) hF)
        refine Keeps.upd ?_ (.inr rfl) (.inl ⟨rfl, rfl⟩) (.inr rfl) (.inr rfl) (.inr rfl) (.inl ⟨rfl, rfl⟩) (.inl ⟨rfl, rfl⟩) (.inl rfl) (.inr rfl) (.inr rfl) (.inr rfl) (.inr rfl) (.inr ⟨rfl, rfl⟩) (.inr rfl) (.inr rfl) (.inr rfl) (.inr rfl) (.inr rfl) (.inr rfl) (.inr rfl) (.inr rfl) (.inl (alw hF (by decide))) (.inr rfl) (.inr rfl) (.inr rfl) (.inr rfl) (.inr rfl) (.inr rfl) (.inl rfl) rfl
        exact k1847

theorem execUpdateActivate_keeps (m : ℕ) (s : State) : ∃ s', execUpdateActivate m s = .next s' ∧
    Keeps [.block 0, .sm, .block 1, .out, .tkt, .log, .free, .upd] s s' := by
  have hF : subF [.block 0, .sm, .block 1, .out, .tkt, .log, .free, .upd] [.block 0, .sm, .block 1, .out, .tkt, .log, .free, .upd] = true := by decide
  unfold execUpdateActivate
  refine ⟨_, rfl, ?_⟩
  refine State.smRun_keeps _ _ _ _ _ ?_ ?_ (subF_trans (by decide) hF)
  · exact (Keeps.rfl' _ _)
  · intro z1848 z1850 h1849
    refine State.updateActivate_keeps _ _ ?_ (subF_trans (by decide) hF)
    exact h1849

theorem State.updateConfirm_keeps {fs : List Zone} {s0 : State} (s : State) (q : Req) (h1 : Keeps fs s0 s) (hF : subF [.block 0, .sm, .block 1, .out, .tkt, .log, .free, .upd] fs = true) :
    Keeps fs s0 (State.updateConfirm s q) := by
  unfold State.updateConfirm
  extract_lets -merge -underBinder y1851
  refine State.smJudge_keeps _ _ _ _ _ ?_ ?_ (subF_trans (by decide) hF)
  · exact h1
  · intro z1852 h1853
    extract_lets -merge -underBinder y1854 y1855 y1856 y1857 y1858 y1859
    have k1860 : Keeps fs s0 y1856 := by
      refine State.setKind_keeps _ _ _ ?_ (subF_trans (by decide) hF)
      exact h1853
    have k1861 : Keeps fs s0 y1859 := by
      refine keeps_ite ?_ ?_
      · refine Keeps.upd ?_ (.inr rfl) (.inl ⟨rfl, rfl⟩) (.inr rfl) (.inr rfl) (.inr rfl) (.inl ⟨rfl, rfl⟩) (.inl ⟨rfl, rfl⟩) (.inl rfl) (.inr rfl) (.inr rfl) (.inr rfl) (.inr rfl) (.inr ⟨rfl, rfl⟩) (.inr rfl) (.inr rfl) (.inr rfl) (.inr rfl) (.inr rfl) (.inr rfl) (.inr rfl) (.inr rfl) (.inl (alw hF (by decide))) (.inr rfl) (.inr rfl) (.inr rfl) (.inr rfl) (.inr rfl) (.inr rfl) (.inl rfl) rfl
        exact k1860
      · exact k1860
    refine keeps_ite ?_ ?_
    · refine State.updFail_keeps _ _ _ _ _ _ _ ?_ (subF_trans (by decide) hF)
      exact h1853
    · refine State.useFree_keeps _ ?_ (subF_trans (by decide) hF)
      refine State.updDone_keeps _ _ _ _ _ ?_ (subF_trans (by decide) hF)
      exact k1861

theorem execUpdateConfirm_keeps (m : ℕ) (s : State) : ∃ s', execUpdateConfirm m s = .next s' ∧
    Keeps [.block 0, .sm, .block 1, .out, .tkt, .log, .free, .upd] s s' := by
  have hF : subF [.block 0, .sm, .block 1, .out, .tkt, .log, .free, .upd] [.block 0, .sm, .block 1, .out, .tkt, .log, .free, .upd] = true := by decide
  unfold execUpdateConfirm
  refine ⟨_, rfl, ?_⟩
  refine State.smRun_keeps _ _ _ _ _ ?_ ?_ (subF_trans (by decide) hF)
  · exact (Keeps.rfl' _ _)
  · intro z1862 z1864 h1863
    refine State.updateConfirm_keeps _ _ ?_ (subF_trans (by decide) hF)
    exact h1863

end Sys2Proof.Machine
end

