-- ==== Sys2Proof/Laws/KeepsOrders.lean ====
section
/-! SUPPORT. What each operation of Machine/Orders.lean can change, one lemma an operation (Laws/KeepsBase.lean). -/

-- elaborated one declaration at a time, so that the package compiles as one text in bounded memory
set_option Elab.async false

namespace Sys2Proof.Machine

theorem State.pairNext_keeps {fs : List Zone} {s0 : State} (s : State) (h1 : Keeps fs s0 s) (hF : subF [.sm, .block 1, .out, .block 0, .tkt] fs = true) :
    Keeps fs s0 (State.pairNext s) := by
  unfold State.pairNext
  refine keeps_foldl _ _ ?_ ?_
  · exact h1
  · intro z1865 z1867 h1866
    split
    · extract_lets -merge -underBinder y1868
      refine keeps_ite ?_ ?_
      · refine State.smDone_keeps _ _ _ ?_ (subF_trans (by decide) hF)
        exact h1866
      · exact h1866
    · exact h1866

theorem State.couplerPair_keeps {fs : List Zone} {s0 : State} (s : State) (q : Req) (h1 : Keeps fs s0 s) (hF : subF [.block 0, .sm, .block 1, .out, .tkt, .block 6, .cpl] fs = true) :
    Keeps fs s0 (State.couplerPair s q) := by
  unfold State.couplerPair
  refine State.smJudge_keeps _ _ _ _ _ ?_ ?_ (subF_trans (by decide) hF)
  · exact h1
  · intro z1869 h1870
    extract_lets -merge -underBinder y1871 y1872 y1873 y1874 y1875 y1876 y1877
    have k1878 : Keeps fs s0 y1877 := by
      refine State.cplEnable_keeps _ _ ?_ (subF_trans (by decide) hF)
      exact h1870
    refine keeps_ite ?_ ?_
    · refine State.smFail_keeps _ _ _ _ ?_ (subF_trans (by decide) hF)
      exact h1870
    · refine keeps_ite ?_ ?_
      · refine State.smDone_keeps _ _ _ ?_ (subF_trans (by decide) hF)
        exact k1878
      · refine State.pairNext_keeps _ ?_ (subF_trans (by decide) hF)
        refine State.smWait_keeps _ _ _ ?_ (subF_trans (by decide) hF)
        exact k1878

theorem State.pairLate_keeps {fs : List Zone} {s0 : State} (s : State) (m : ℕ) (h1 : Keeps fs s0 s) (hF : subF [.block 0, .sm, .block 1, .out, .tkt] fs = true) :
    Keeps fs s0 (State.pairLate s m) := by
  unfold State.pairLate
  split
  · split
    · refine State.smFailWith_keeps _ _ _ _ _ _ ?_ (subF_trans (by decide) hF)
      exact h1
    · exact h1
  · exact h1

theorem execCouplerPair_keeps (m : ℕ) (s : State) : ∃ s', execCouplerPair m s = .next s' ∧
    Keeps [.block 0, .sm, .block 1, .out, .tkt, .block 6, .cpl] s s' := by
  have hF : subF [.block 0, .sm, .block 1, .out, .tkt, .block 6, .cpl] [.block 0, .sm, .block 1, .out, .tkt, .block 6, .cpl] = true := by decide
  unfold execCouplerPair
  refine ⟨_, rfl, ?_⟩
  split
  · refine State.pairLate_keeps _ _ ?_ (subF_trans (by decide) hF)
    exact (Keeps.rfl' _ _)
  · refine keeps_ite ?_ ?_
    · exact (Keeps.rfl' _ _)
    · refine State.smRun_keeps _ _ _ _ _ ?_ ?_ (subF_trans (by decide) hF)
      · exact (Keeps.rfl' _ _)
      · intro z1879 z1881 h1880
        refine State.couplerPair_keeps _ _ ?_ (subF_trans (by decide) hF)
        exact h1880

theorem execCouplerUnpair_keeps (m : ℕ) (s : State) : ∃ s', execCouplerUnpair m s = .next s' ∧
    Keeps [.block 0, .sm, .block 1, .out, .tkt, .block 6, .cpl] s s' := by
  have hF : subF [.block 0, .sm, .block 1, .out, .tkt, .block 6, .cpl] [.block 0, .sm, .block 1, .out, .tkt, .block 6, .cpl] = true := by decide
  unfold execCouplerUnpair
  refine ⟨_, rfl, ?_⟩
  refine keeps_ite ?_ ?_
  · refine State.smRun_keeps _ _ _ _ _ ?_ ?_ (subF_trans (by decide) hF)
    · exact (Keeps.rfl' _ _)
    · intro z1882 z1884 h1883
      refine State.couplerPair_keeps _ _ ?_ (subF_trans (by decide) hF)
      exact h1883
  · exact (Keeps.rfl' _ _)

theorem State.couplerSweep_keeps {fs : List Zone} {s0 : State} (s : State) (q : Req) (h1 : Keeps fs s0 s) (hF : subF [.block 0, .sm, .block 1, .out, .tkt, .cpl, .block 6] fs = true) :
    Keeps fs s0 (State.couplerSweep s q) := by
  unfold State.couplerSweep
  refine State.smJudge_keeps _ _ _ _ _ ?_ ?_ (subF_trans (by decide) hF)
  · exact h1
  · intro z1885 h1886
    extract_lets -merge -underBinder y1887
    refine keeps_ite ?_ ?_
    · refine State.smFail_keeps _ _ _ _ ?_ (subF_trans (by decide) hF)
      exact h1886
    · refine keeps_ite ?_ ?_
      · refine State.sweepDone_keeps _ _ ?_ (subF_trans (by decide) hF)
        exact h1886
      · refine State.cplSend_keeps _ _ _ _ _ ?_ (subF_trans (by decide) hF)
        refine Keeps.upd ?_ (.inr rfl) (.inl ⟨rfl, rfl⟩) (.inr rfl) (.inr rfl) (.inr rfl) (.inl ⟨rfl, rfl⟩) (.inl ⟨rfl, rfl⟩) (.inl rfl) (.inr rfl) (.inr rfl) (.inr rfl) (.inr rfl) (.inr ⟨rfl, rfl⟩) (.inr rfl) (.inr rfl) (.inr rfl) (.inr rfl) (.inr rfl) (.inl (alw hF (by decide))) (.inr rfl) (.inr rfl) (.inr rfl) (.inr rfl) (.inr rfl) (.inr rfl) (.inr rfl) (.inr rfl) (.inr rfl) (.inl rfl) rfl
        exact h1886

theorem execCouplerSweep_keeps (m : ℕ) (s : State) : ∃ s', execCouplerSweep m s = .next s' ∧
    Keeps [.block 0, .sm, .block 1, .out, .tkt, .cpl, .block 6] s s' := by
  have hF : subF [.block 0, .sm, .block 1, .out, .tkt, .cpl, .block 6] [.block 0, .sm, .block 1, .out, .tkt, .cpl, .block 6] = true := by decide
  unfold execCouplerSweep
  refine ⟨_, rfl, ?_⟩
  refine State.smRun_keeps _ _ _ _ _ ?_ ?_ (subF_trans (by decide) hF)
  · exact (Keeps.rfl' _ _)
  · intro z1888 z1890 h1889
    refine State.couplerSweep_keeps _ _ ?_ (subF_trans (by decide) hF)
    exact h1889

theorem State.showDuty_keeps {fs : List Zone} {s0 : State} (s : State) (h1 : Keeps fs s0 s) (hF : subF [.block 6] fs = true) :
    Keeps fs s0 (State.showDuty s) := by
  unfold State.showDuty
  refine setFld_keeps _ _ _ _ ?_ (alwB hF 6 rfl (by decide))
  exact h1

theorem State.dutyTake_keeps {fs : List Zone} {s0 : State} (s : State) (d : ℕ) (h1 : Keeps fs s0 s) (hF : subF [.sm, .block 20, .pipes, .block 3, .block 1, .out, .free, .il] fs = true) :
    Keeps fs s0 (State.dutyTake s d) := by
  unfold State.dutyTake
  extract_lets -merge -underBinder y1891 y1892
  have k1893 : Keeps fs s0 y1892 := by
    refine State.setSmDisp_keeps _ _ _ ?_ (subF_trans (by decide) hF)
    exact h1
  refine keeps_ite ?_ ?_
  · exact k1893
  · refine State.pipeCtlWrite_keeps _ _ _ ?_ (subF_trans (by decide) hF)
    exact k1893

theorem State.takeover_keeps {fs : List Zone} {s0 : State} (f : State → Req → List ℕ → State) (s : State) (q : Req) (h1 : ∀ u1894 u1895 u1896, Keeps fs s0 u1894 → Keeps fs s0 (f u1894 u1895 u1896)) (h2 : Keeps fs s0 s) (hF : subF [.block 0, .sm, .block 1, .out, .tkt] fs = true) :
    Keeps fs s0 (State.takeover f s q) := by
  unfold State.takeover
  refine State.smJudge_keeps _ _ _ _ _ ?_ ?_ (subF_trans (by decide) hF)
  · exact h2
  · intro z1897 h1898
    extract_lets -merge -underBinder y1899
    refine keeps_ite ?_ ?_
    · refine State.smFail_keeps _ _ _ _ ?_ (subF_trans (by decide) hF)
      exact h1898
    · refine keeps_ite ?_ ?_
      · refine h1 _ _ _ ?_
        exact h1898
      · refine State.smFail_keeps _ _ _ _ ?_ (subF_trans (by decide) hF)
        exact h1898

theorem State.takeoverGrant_keeps {fs : List Zone} {s0 : State} (s : State) (q : Req) (ds : List ℕ) (h1 : Keeps fs s0 s) (hF : subF [.sm, .block 1, .out, .block 0, .tkt, .block 20, .pipes, .block 3, .free, .il] fs = true) :
    Keeps fs s0 (State.takeoverGrant s q ds) := by
  unfold State.takeoverGrant
  extract_lets -merge -underBinder y1900 y1901
  refine keeps_ite ?_ ?_
  · refine State.smDone_keeps _ _ _ ?_ (subF_trans (by decide) hF)
    exact h1
  · refine State.smWait_keeps _ _ _ ?_ (subF_trans (by decide) hF)
    refine keeps_foldl _ _ ?_ ?_
    · exact h1
    · intro z1902 z1904 h1903
      refine State.dutyTake_keeps _ _ ?_ (subF_trans (by decide) hF)
      exact h1903

theorem execTakeoverGrant_keeps (m : ℕ) (s : State) : ∃ s', execTakeoverGrant m s = .next s' ∧
    Keeps [.block 0, .sm, .block 1, .out, .tkt, .block 20, .pipes, .block 3, .free, .il] s s' := by
  have hF : subF [.block 0, .sm, .block 1, .out, .tkt, .block 20, .pipes, .block 3, .free, .il] [.block 0, .sm, .block 1, .out, .tkt, .block 20, .pipes, .block 3, .free, .il] = true := by decide
  unfold execTakeoverGrant
  refine ⟨_, rfl, ?_⟩
  refine keeps_ite ?_ ?_
  · exact (Keeps.rfl' _ _)
  · refine State.smRun_keeps _ _ _ _ _ ?_ ?_ (subF_trans (by decide) hF)
    · exact (Keeps.rfl' _ _)
    · intro z1905 z1907 h1906
      refine State.takeover_keeps _ _ _ ?_ ?_ (subF_trans (by decide) hF)
      · intro z1908 z1910 z1911 h1909
        refine State.takeoverGrant_keeps _ _ _ ?_ (subF_trans (by decide) hF)
        exact h1909
      · exact h1906

theorem State.writeArm_keeps {fs : List Zone} {s0 : State} (s : State) (d : ℕ) (on : Bool) (h1 : Keeps fs s0 s) (hF : subF [.block 3] fs = true) :
    Keeps fs s0 (State.writeArm s d on).1 := by
  unfold State.writeArm
  refine State.dispCfgWrite_keeps _ _ _ _ ?_ (subF_trans (by decide) hF)
  exact h1

theorem State.takeoverRevoke_keeps {fs : List Zone} {s0 : State} (s : State) (q : Req) (ds : List ℕ) (h1 : Keeps fs s0 s) (hF : subF [.block 3, .block 0, .sm, .block 1, .out, .tkt, .block 20, .free, .pipes, .il] fs = true) :
    Keeps fs s0 (State.takeoverRevoke s q ds) := by
  unfold State.takeoverRevoke
  extract_lets -merge -underBinder y1912
  refine keeps_ite ?_ ?_
  · refine State.smFail_keeps _ _ _ _ ?_ (subF_trans (by decide) hF)
    exact h1
  · refine keeps_ite ?_ ?_
    · refine State.smDone_keeps _ _ _ ?_ (subF_trans (by decide) hF)
      exact h1
    · refine State.smWait_keeps _ _ _ ?_ (subF_trans (by decide) hF)
      refine keeps_foldl _ _ ?_ ?_
      · exact h1
      · intro z1913 z1915 h1914
        refine State.pipeDisable_keeps _ _ ?_ (subF_trans (by decide) hF)
        refine State.writeArm_keeps _ _ _ ?_ (subF_trans (by decide) hF)
        exact h1914

theorem execTakeoverRevoke_keeps (m : ℕ) (s : State) : ∃ s', execTakeoverRevoke m s = .next s' ∧
    Keeps [.block 0, .sm, .block 1, .out, .tkt, .block 3, .block 20, .free, .pipes, .il] s s' := by
  have hF : subF [.block 0, .sm, .block 1, .out, .tkt, .block 3, .block 20, .free, .pipes, .il] [.block 0, .sm, .block 1, .out, .tkt, .block 3, .block 20, .free, .pipes, .il] = true := by decide
  unfold execTakeoverRevoke
  refine ⟨_, rfl, ?_⟩
  refine keeps_ite ?_ ?_
  · refine State.smRun_keeps _ _ _ _ _ ?_ ?_ (subF_trans (by decide) hF)
    · exact (Keeps.rfl' _ _)
    · intro z1916 z1918 h1917
      refine State.takeover_keeps _ _ _ ?_ ?_ (subF_trans (by decide) hF)
      · intro z1919 z1921 z1922 h1920
        refine State.takeoverRevoke_keeps _ _ _ ?_ (subF_trans (by decide) hF)
        exact h1920
      · exact h1917
  · exact (Keeps.rfl' _ _)

theorem State.fabricStart_keeps {fs : List Zone} {s0 : State} (s : State) (q : Req) (image : Option (List Byte)) (h1 : Keeps fs s0 s) (hF : subF [.block 7, .jt, .fab, .block 1, .out, .sm] fs = true) :
    Keeps fs s0 (State.fabricStart s q image) := by
  unfold State.fabricStart
  extract_lets -merge -underBinder y1923
  have k1924 : Keeps fs s0 y1923 := by
    refine keeps_ite ?_ ?_
    · refine State.fabHold_keeps _ ?_ (subF_trans (by decide) hF)
      exact h1
    · exact h1
  split
  · refine State.smWait_keeps _ _ _ ?_ (subF_trans (by decide) hF)
    refine State.fabStartFlash_keeps _ ?_ (subF_trans (by decide) hF)
    exact k1924
  · extract_lets -merge -underBinder y1925
    have k1926 : Keeps fs s0 y1925 := by
      refine setFld_keeps _ _ _ _ ?_ (alwB hF 7 rfl (by decide))
      refine State.fabStartStream_keeps _ ?_ (subF_trans (by decide) hF)
      exact k1924
    refine State.smWait_keeps _ _ _ ?_ (subF_trans (by decide) hF)
    refine keeps_foldl _ _ ?_ ?_
    · exact k1926
    · intro z1927 z1929 h1928
      refine State.fabData_keeps _ _ ?_ (subF_trans (by decide) hF)
      exact h1928

theorem State.fabricLoad_keeps {fs : List Zone} {s0 : State} (host : Option (List Byte)) (bad : Bool) (s : State) (q : Req) (h3 : Keeps fs s0 s) (hF : subF [.block 0, .sm, .block 1, .out, .tkt, .block 7, .jt, .fab, .free, .memo, .sp, .block 8] fs = true) :
    Keeps fs s0 (State.fabricLoad host bad s q) := by
  unfold State.fabricLoad
  extract_lets -merge -underBinder y1930 y1931 y1932 y1933
  refine State.smJudge_keeps _ _ _ _ _ ?_ ?_ (subF_trans (by decide) hF)
  · exact h3
  · intro z1934 h1935
    refine keeps_ite ?_ ?_
    · refine State.smFail_keeps _ _ _ _ ?_ (subF_trans (by decide) hF)
      exact h1935
    · refine keeps_ite ?_ ?_
      · refine keeps_ite ?_ ?_
        · refine State.smFail_keeps _ _ _ _ ?_ (subF_trans (by decide) hF)
          exact h1935
        · refine State.fabricStart_keeps _ _ _ ?_ (subF_trans (by decide) hF)
          exact h1935
      · refine State.smBuf_keeps _ _ _ _ _ _ _ ?_ ?_ (subF_trans (by decide) hF)
        · exact h1935
        · intro z1936 z1938 h1937
          split
          · refine State.smFail_keeps _ _ _ _ ?_ (subF_trans (by decide) hF)
            exact h1937
          · refine keeps_ite ?_ ?_
            · refine State.smFail_keeps _ _ _ _ ?_ (subF_trans (by decide) hF)
              exact h1937
            · refine State.fabricStart_keeps _ _ _ ?_ (subF_trans (by decide) hF)
              exact h1937

theorem execFabricLoad_keeps (m : ℕ) (host : Option (List Byte)) (bad : Bool) (s : State) : ∃ s', execFabricLoad m host bad s = .next s' ∧
    Keeps [.block 0, .sm, .block 1, .out, .tkt, .block 7, .jt, .fab, .free, .memo, .sp, .block 8] s s' := by
  have hF : subF [.block 0, .sm, .block 1, .out, .tkt, .block 7, .jt, .fab, .free, .memo, .sp, .block 8] [.block 0, .sm, .block 1, .out, .tkt, .block 7, .jt, .fab, .free, .memo, .sp, .block 8] = true := by decide
  unfold execFabricLoad
  refine ⟨_, rfl, ?_⟩
  refine State.smRun_keeps _ _ _ _ _ ?_ ?_ (subF_trans (by decide) hF)
  · exact (Keeps.rfl' _ _)
  · intro z1939 z1941 h1940
    refine State.fabricLoad_keeps _ _ _ _ ?_ (subF_trans (by decide) hF)
    exact h1940

theorem State.fabricNext_keeps {fs : List Zone} {s0 : State} (s : State) (flashBad : Bool) (h1 : Keeps fs s0 s) (hF : subF [.block 0, .sm, .block 1, .out, .tkt, .block 7, .fab] fs = true) :
    Keeps fs s0 (State.fabricNext s flashBad) := by
  unfold State.fabricNext
  refine keeps_foldl _ _ ?_ ?_
  · exact h1
  · intro z1942 z1944 h1943
    split
    · refine keeps_ite ?_ ?_
      · refine State.smFail_keeps _ _ _ _ ?_ (subF_trans (by decide) hF)
        exact h1943
      · refine keeps_ite ?_ ?_
        · refine keeps_ite ?_ ?_
          · refine State.smWait_keeps _ _ _ ?_ (subF_trans (by decide) hF)
            refine State.fabProgram_keeps _ ?_ (subF_trans (by decide) hF)
            exact h1943
          · refine State.smDone_keeps _ _ _ ?_ (subF_trans (by decide) hF)
            exact h1943
        · exact h1943
    · refine keeps_ite ?_ ?_
      · exact h1943
      · refine keeps_ite ?_ ?_
        · refine State.smFail_keeps _ _ _ _ ?_ (subF_trans (by decide) hF)
          exact h1943
        · refine State.smDone_keeps _ _ _ ?_ (subF_trans (by decide) hF)
          exact h1943
    · refine keeps_ite ?_ ?_
      · refine State.smDone_keeps _ _ _ ?_ (subF_trans (by decide) hF)
        exact h1943
      · refine keeps_ite ?_ ?_
        · exact h1943
        · refine State.smFail_keeps _ _ _ _ ?_ (subF_trans (by decide) hF)
          exact h1943
    · exact h1943

theorem State.fabricRelease_keeps {fs : List Zone} {s0 : State} (s : State) (q : Req) (h1 : Keeps fs s0 s) (hF : subF [.block 0, .sm, .block 1, .out, .tkt, .block 7, .fab] fs = true) :
    Keeps fs s0 (State.fabricRelease s q) := by
  unfold State.fabricRelease
  refine State.smJudge_keeps _ _ _ _ _ ?_ ?_ (subF_trans (by decide) hF)
  · exact h1
  · intro z1945 h1946
    refine keeps_ite ?_ ?_
    · refine State.smWait_keeps _ _ _ ?_ (subF_trans (by decide) hF)
      refine State.fabRelease_keeps _ ?_ (subF_trans (by decide) hF)
      exact h1946
    · refine keeps_ite ?_ ?_
      · refine State.fabricNext_keeps _ _ ?_ (subF_trans (by decide) hF)
        refine State.smWait_keeps _ _ _ ?_ (subF_trans (by decide) hF)
        exact h1946
      · refine State.smFail_keeps _ _ _ _ ?_ (subF_trans (by decide) hF)
        exact h1946

theorem execFabricRelease_keeps (m : ℕ) (s : State) : ∃ s', execFabricRelease m s = .next s' ∧
    Keeps [.block 0, .sm, .block 1, .out, .tkt, .block 7, .fab] s s' := by
  have hF : subF [.block 0, .sm, .block 1, .out, .tkt, .block 7, .fab] [.block 0, .sm, .block 1, .out, .tkt, .block 7, .fab] = true := by decide
  unfold execFabricRelease
  refine ⟨_, rfl, ?_⟩
  refine State.smRun_keeps _ _ _ _ _ ?_ ?_ (subF_trans (by decide) hF)
  · exact (Keeps.rfl' _ _)
  · intro z1947 z1949 h1948
    refine State.fabricRelease_keeps _ _ ?_ (subF_trans (by decide) hF)
    exact h1948

theorem State.fabricReadback_keeps {fs : List Zone} {s0 : State} (w : List Word) (s : State) (q : Req) (h2 : Keeps fs s0 s) (hF : subF [.block 0, .sm, .block 1, .out, .tkt, .block 7, .fab, .free] fs = true) :
    Keeps fs s0 (State.fabricReadback w s q) := by
  unfold State.fabricReadback
  extract_lets -merge -underBinder y1950 y1951
  refine State.smJudge_keeps _ _ _ _ _ ?_ ?_ (subF_trans (by decide) hF)
  · exact h2
  · intro z1952 h1953
    extract_lets -merge -underBinder y1954 y1955
    have k1956 : Keeps fs s0 y1954 := by
      refine setFld_keeps _ _ _ _ ?_ (alwB hF 7 rfl (by decide))
      refine State.fabSnap_keeps _ _ ?_ (subF_trans (by decide) hF)
      exact h1953
    have k1957 : Keeps fs s0 y1955.1 := by
      refine keeps_foldl_fst _ _ ?_ ?_
      · refine keeps_mk_fst ?_
        exact k1956
      · intro z1958 z1960 h1959
        extract_lets -merge -underBinder y1961
        have k1962 : Keeps fs s0 y1961.1 := by
          refine State.fabRbRead_keeps _ ?_ (subF_trans (by decide) hF)
          exact h1959
        refine keeps_mk_fst ?_
        exact k1962
    refine keeps_ite ?_ ?_
    · refine State.smFail_keeps _ _ _ _ ?_ (subF_trans (by decide) hF)
      exact h1953
    · refine keeps_ite ?_ ?_
      · refine State.smFail_keeps _ _ _ _ ?_ (subF_trans (by decide) hF)
        exact h1953
      · refine keeps_ite ?_ ?_
        · refine State.smFailWith_keeps _ _ _ _ _ _ ?_ (subF_trans (by decide) hF)
          exact h1953
        · refine State.smDone_keeps _ _ _ ?_ (subF_trans (by decide) hF)
          exact k1957

theorem execFabricReadback_keeps (m : ℕ) (w : List Word) (s : State) : ∃ s', execFabricReadback m w s = .next s' ∧
    Keeps [.block 0, .sm, .block 1, .out, .tkt, .block 7, .fab, .free] s s' := by
  have hF : subF [.block 0, .sm, .block 1, .out, .tkt, .block 7, .fab, .free] [.block 0, .sm, .block 1, .out, .tkt, .block 7, .fab, .free] = true := by decide
  unfold execFabricReadback
  refine ⟨_, rfl, ?_⟩
  refine State.smRun_keeps _ _ _ _ _ ?_ ?_ (subF_trans (by decide) hF)
  · exact (Keeps.rfl' _ _)
  · intro z1963 z1965 h1964
    refine State.fabricReadback_keeps _ _ _ ?_ (subF_trans (by decide) hF)
    exact h1964

theorem State.decodeSet_keeps {fs : List Zone} {s0 : State} (s : State) (q : Req) (h1 : Keeps fs s0 s) (hF : subF [.block 0, .sm, .block 1, .out, .tkt, .cs, .block 17] fs = true) :
    Keeps fs s0 (State.decodeSet s q) := by
  unfold State.decodeSet
  refine keeps_ite ?_ ?_
  · refine State.smFail_keeps _ _ _ _ ?_ (subF_trans (by decide) hF)
    exact h1
  · split
    · refine State.smFail_keeps _ _ _ _ ?_ (subF_trans (by decide) hF)
      exact h1
    · refine keeps_ite ?_ ?_
      · refine State.smFail_keeps _ _ _ _ ?_ (subF_trans (by decide) hF)
        exact h1
      · refine State.smDone_keeps _ _ _ ?_ (subF_trans (by decide) hF)
        refine keeps_foldl _ _ ?_ ?_
        · exact h1
        · intro z1966 z1968 h1967
          refine State.decWrite_keeps _ _ ?_ (subF_trans (by decide) hF)
          refine setFld_keeps _ _ _ _ ?_ (alwB hF 17 rfl (by decide))
          exact h1967

theorem execDecodeSet_keeps (m : ℕ) (s : State) : ∃ s', execDecodeSet m s = .next s' ∧
    Keeps [.block 0, .sm, .block 1, .out, .tkt, .cs, .block 17] s s' := by
  have hF : subF [.block 0, .sm, .block 1, .out, .tkt, .cs, .block 17] [.block 0, .sm, .block 1, .out, .tkt, .cs, .block 17] = true := by decide
  unfold execDecodeSet
  refine ⟨_, rfl, ?_⟩
  refine State.smRun_keeps _ _ _ _ _ ?_ ?_ (subF_trans (by decide) hF)
  · exact (Keeps.rfl' _ _)
  · intro z1969 z1971 h1970
    refine State.decodeSet_keeps _ _ ?_ (subF_trans (by decide) hF)
    exact h1970

theorem State.microcodeWrite_keeps {fs : List Zone} {s0 : State} (host : Option (List Byte)) (s : State) (q : Req) (h2 : Keeps fs s0 s) (hF : subF [.block 0, .sm, .block 1, .out, .tkt, .free, .memo, .sp, .block 8, .block 17, .cs] fs = true) :
    Keeps fs s0 (State.microcodeWrite host s q) := by
  unfold State.microcodeWrite
  extract_lets -merge -underBinder y1972 y1973 y1974
  refine State.smJudge_keeps _ _ _ _ _ ?_ ?_ (subF_trans (by decide) hF)
  · exact h2
  · intro z1975 h1976
    refine keeps_ite ?_ ?_
    · refine State.smFail_keeps _ _ _ _ ?_ (subF_trans (by decide) hF)
      exact h1976
    · refine keeps_ite ?_ ?_
      · refine State.smFail_keeps _ _ _ _ ?_ (subF_trans (by decide) hF)
        exact h1976
      · refine keeps_ite ?_ ?_
        · refine State.smFail_keeps _ _ _ _ ?_ (subF_trans (by decide) hF)
          exact h1976
        · refine State.smBuf_keeps _ _ _ _ _ _ _ ?_ ?_ (subF_trans (by decide) hF)
          · exact h1976
          · intro z1977 z1979 h1978
            refine State.smDone_keeps _ _ _ ?_ (subF_trans (by decide) hF)
            refine keeps_foldl _ _ ?_ ?_
            · refine setFld_keeps _ _ _ _ ?_ (alwB hF 17 rfl (by decide))
              exact h1978
            · intro z1980 z1982 h1981
              refine State.csWrite_keeps _ _ ?_ (subF_trans (by decide) hF)
              exact h1981

theorem execMicrocodeWrite_keeps (m : ℕ) (host : Option (List Byte)) (s : State) : ∃ s', execMicrocodeWrite m host s = .next s' ∧
    Keeps [.block 0, .sm, .block 1, .out, .tkt, .free, .memo, .sp, .block 8, .block 17, .cs] s s' := by
  have hF : subF [.block 0, .sm, .block 1, .out, .tkt, .free, .memo, .sp, .block 8, .block 17, .cs] [.block 0, .sm, .block 1, .out, .tkt, .free, .memo, .sp, .block 8, .block 17, .cs] = true := by decide
  unfold execMicrocodeWrite
  refine ⟨_, rfl, ?_⟩
  refine State.smRun_keeps _ _ _ _ _ ?_ ?_ (subF_trans (by decide) hF)
  · exact (Keeps.rfl' _ _)
  · intro z1983 z1985 h1984
    refine State.microcodeWrite_keeps _ _ _ ?_ (subF_trans (by decide) hF)
    exact h1984

theorem State.power_keeps {fs : List Zone} {s0 : State} (s : State) (q : Req) (h1 : Keeps fs s0 s) (hF : subF [.block 0, .sm, .block 1, .out, .tkt, .block 2, .regs, .pwr, .block 18, .jt] fs = true) :
    Keeps fs s0 (State.power s q) := by
  unfold State.power
  extract_lets -merge -underBinder y1986
  refine State.smJudge_keeps _ _ _ _ _ ?_ ?_ (subF_trans (by decide) hF)
  · exact h1
  · intro z1987 h1988
    extract_lets -merge -underBinder y1989
    have k1990 : Keeps fs s0 y1989 := by
      refine setBit_keeps _ _ _ ?_ (alwB hF 2 rfl (by decide))
      exact h1988
    refine keeps_ite ?_ ?_
    · refine State.smFail_keeps _ _ _ _ ?_ (subF_trans (by decide) hF)
      exact h1988
    · refine keeps_ite ?_ ?_
      · refine State.smFail_keeps _ _ _ _ ?_ (subF_trans (by decide) hF)
        exact h1988
      · refine keeps_ite ?_ ?_
        · refine State.smDone_keeps _ _ _ ?_ (subF_trans (by decide) hF)
          exact k1990
        · refine keeps_ite ?_ ?_
          · refine keeps_ite ?_ ?_
            · refine State.smFail_keeps _ _ _ _ ?_ (subF_trans (by decide) hF)
              exact k1990
            · refine State.pwrWrite_keeps _ _ _ _ ?_ (subF_trans (by decide) hF)
              refine State.smDone_keeps _ _ _ ?_ (subF_trans (by decide) hF)
              exact k1990
          · refine keeps_ite ?_ ?_
            · refine State.smFail_keeps _ _ _ _ ?_ (subF_trans (by decide) hF)
              exact k1990
            · refine State.smWait_keeps _ _ _ ?_ (subF_trans (by decide) hF)
              refine State.pwrWrite_keeps _ _ _ _ ?_ (subF_trans (by decide) hF)
              exact k1990

theorem State.powerStop_keeps {fs : List Zone} {s0 : State} (s : State) (m : ℕ) (t : ℕ) (h1 : Keeps fs s0 s) (hF : subF [.block 3, .block 0, .sm, .block 1, .out, .tkt, .regs, .block 2, .pwr, .block 18, .jt, .block 20, .free, .pipes, .il, .streams] fs = true) :
    Keeps fs s0 (State.powerStop s m t) := by
  unfold State.powerStop
  extract_lets -merge -underBinder y1991 y1992 y1993 y1994 y1995 y1996 y1997
  have k1998 : Keeps fs s0 y1994 := by
    refine keeps_foldl _ _ ?_ ?_
    · exact h1
    · intro z1999 z2001 h2000
      refine State.writeArm_keeps _ _ _ ?_ (subF_trans (by decide) hF)
      exact h2000
  have k2002 : Keeps fs s0 y1995 := by
    refine keeps_foldl _ _ ?_ ?_
    · exact k1998
    · intro z2003 z2005 h2004
      refine State.pipeDisable_keeps _ _ ?_ (subF_trans (by decide) hF)
      exact h2004
  have k2006 : Keeps fs s0 y1996 := by
    refine keeps_foldl _ _ ?_ ?_
    · exact k2002
    · intro z2007 z2009 h2008
      refine State.streamStop_keeps _ _ _ ?_ (subF_trans (by decide) hF)
      exact h2008
  refine keeps_ite ?_ ?_
  · refine State.smFail_keeps _ _ _ _ ?_ (subF_trans (by decide) hF)
    refine State.pwrWrite_keeps _ _ _ _ ?_ (subF_trans (by decide) hF)
    exact h1
  · refine State.smWait_keeps _ _ _ ?_ (subF_trans (by decide) hF)
    exact k2006

theorem State.powerNext_keeps {fs : List Zone} {s0 : State} (s : State) (h1 : Keeps fs s0 s) (hF : subF [.sm, .block 18, .jt] fs = true) :
    Keeps fs s0 (State.powerNext s) := by
  unfold State.powerNext
  refine keeps_foldl _ _ ?_ ?_
  · exact h1
  · intro z2010 z2012 h2011
    split
    · refine keeps_ite ?_ ?_
      · refine State.smWait_keeps _ _ _ ?_ (subF_trans (by decide) hF)
        refine keeps_foldl _ _ ?_ ?_
        · exact h2011
        · intro z2013 z2015 h2014
          refine State.fencePort_keeps _ _ _ ?_ (subF_trans (by decide) hF)
          exact h2014
      · exact h2011
    · exact h2011

theorem execPower_keeps (m : ℕ) (s : State) : ∃ s', execPower m s = .next s' ∧
    Keeps [.sm, .block 18, .jt, .block 3, .block 0, .block 1, .out, .tkt, .regs, .block 2, .pwr, .block 20, .free, .pipes, .il, .streams] s s' := by
  have hF : subF [.sm, .block 18, .jt, .block 3, .block 0, .block 1, .out, .tkt, .regs, .block 2, .pwr, .block 20, .free, .pipes, .il, .streams] [.sm, .block 18, .jt, .block 3, .block 0, .block 1, .out, .tkt, .regs, .block 2, .pwr, .block 20, .free, .pipes, .il, .streams] = true := by decide
  unfold execPower
  refine ⟨_, rfl, ?_⟩
  split
  · refine State.powerNext_keeps _ ?_ (subF_trans (by decide) hF)
    refine State.powerStop_keeps _ _ _ ?_ (subF_trans (by decide) hF)
    exact (Keeps.rfl' _ _)
  · refine State.smRun_keeps _ _ _ _ _ ?_ ?_ (subF_trans (by decide) hF)
    · exact (Keeps.rfl' _ _)
    · intro z2016 z2018 h2017
      refine State.power_keeps _ _ ?_ (subF_trans (by decide) hF)
      exact h2017

end Sys2Proof.Machine
end

