-- ==== Sys2Proof/Laws/KeepsVsync.lean ====
section
/-! SUPPORT. What each operation of Machine/Vsync.lean can change, one lemma an operation (Laws/KeepsBase.lean). -/

-- elaborated one declaration at a time, so that the package compiles as one text in bounded memory
set_option Elab.async false

namespace Sys2Proof.Machine

theorem State.putLayer_keeps {fs : List Zone} {s0 : State} (s : State) (p : ℕ) (c : Scene) (l : ℕ) (h1 : Keeps fs s0 s) (hF : subF [.block 20, .regs] fs = true) :
    Keeps fs s0 (State.putLayer s p c l) := by
  unfold State.putLayer
  split
  · refine setBit_keeps _ _ _ ?_ (alwL14 hF 0 (by simp only [layReg, Reg.LAY_LFMT]; omega))
    exact h1
  · extract_lets -merge -underBinder y2019 y2020
    have k2021 : ∀ z2022 z2024 z2025, Keeps fs s0 z2022 → Keeps fs s0 (y2020 z2022 z2024 z2025) := by
      intro z2022 z2024 z2025 h2023
      refine setReg_keeps _ _ ?_ (alwR hF (by decide))
      exact h2023
    refine k2021 _ _ _ ?_
    refine k2021 _ _ _ ?_
    refine k2021 _ _ _ ?_
    refine k2021 _ _ _ ?_
    refine k2021 _ _ _ ?_
    refine k2021 _ _ _ ?_
    exact h1

theorem State.putScene_keeps {fs : List Zone} {s0 : State} (s : State) (p : ℕ) (c : Scene) (h1 : Keeps fs s0 s) (hF : subF [.block 20, .regs, .pipes] fs = true) :
    Keeps fs s0 (State.putScene s p c) := by
  unfold State.putScene
  extract_lets -merge -underBinder y2026
  have k2027 : Keeps fs s0 y2026 := by
    refine keeps_foldl _ _ ?_ ?_
    · refine setReg_keeps _ _ ?_ (alwL14 hF 0 (by simp only [pipeReg, Reg.FMT_CTL]; omega))
      refine setReg_keeps _ _ ?_ (alwL14 hF 0 (by simp only [pipeReg, Reg.PIPE_BG]; omega))
      exact h1
    · intro z2028 z2030 h2029
      refine State.putLayer_keeps _ _ _ _ ?_ (subF_trans (by decide) hF)
      exact h2029
  split
  · exact k2027
  · extract_lets -merge -underBinder y2031
    refine State.setPipe_keeps _ _ _ ?_ (subF_trans (by decide) hF)
    exact k2027

theorem State.holdBuffers_keeps {fs : List Zone} {s0 : State} (s : State) (c : Scene) (h1 : Keeps fs s0 s) (hF : subF [.block 20] fs = true) :
    Keeps fs s0 (State.holdBuffers s c) := by
  unfold State.holdBuffers
  extract_lets -merge -underBinder y2032 y2033 y2034
  refine keeps_foldl _ _ ?_ ?_
  · exact h1
  · intro z2035 z2037 h2036
    extract_lets -merge -underBinder y2038 y2039 y2040 y2041 y2042 y2043
    refine keeps_ite ?_ ?_
    · exact h2036
    · refine setFld_keeps _ _ _ _ ?_ (alwL14 hF 0 (by simp only [y2038, y2039, strReg, Reg.STR_CFG]; omega))
      exact h2036

theorem State.issueCommit_keeps {fs : List Zone} {s0 : State} (s : State) (p : ℕ) (b : Bind) (h1 : Keeps fs s0 s) (hF : subF [.block 1, .out, .block 20, .regs, .pipes, .sm, .block 8, .free, .block 3] fs = true) :
    Keeps fs s0 (State.issueCommit s p b).1 := by
  unfold State.issueCommit
  extract_lets -merge -underBinder y2044 y2045 y2046 y2047 y2048
  have k2049 : Keeps fs s0 y2045.1 := by
    refine State.pipeCommit_keeps _ _ ?_ (subF_trans (by decide) hF)
    refine State.putScene_keeps _ _ _ ?_ (subF_trans (by decide) hF)
    exact h1
  have k2050 : ∀ z2051, Keeps fs s0 z2051 → Keeps fs s0 (y2047 z2051) := by
    intro z2051 h2052
    unfold y2047
    extract_lets -merge -underBinder y2053
    refine State.holdBuffers_keeps _ _ ?_ (subF_trans (by decide) hF)
    refine State.holdBuffers_keeps _ _ ?_ (subF_trans (by decide) hF)
    refine State.setSmDisp_keeps _ _ _ ?_ (subF_trans (by decide) hF)
    exact h2052
  have k2054 : Keeps fs s0 y2048.1 := by
    unfold y2048
    split
    · refine keeps_mk_fst ?_
      exact k2049
    · refine State.regionCommit_keeps _ _ ?_ (subF_trans (by decide) hF)
      refine keeps_foldl _ _ ?_ ?_
      · exact k2049
      · intro z2055 z2057 h2056
        refine State.regionWrite_keeps _ _ _ _ ?_ (alwL hF 3 0 (by simp only [regSlot, Reg.REG]; omega)) (subF_trans (by decide) hF)
        exact h2056
  refine keeps_ite_fst ?_ ?_
  · refine keeps_mk_fst ?_
    exact h1
  · refine keeps_ite_fst ?_ ?_
    · refine keeps_mk_fst ?_
      exact k2049
    · refine keeps_ite_fst ?_ ?_
      · refine keeps_mk_fst ?_
        refine State.pipeCancel_keeps _ _ ?_ (subF_trans (by decide) hF)
        exact k2054
      · split
        · refine keeps_mk_fst ?_
          refine k2050 _ ?_
          exact k2054
        · refine keeps_mk_fst ?_
          refine k2050 _ ?_
          refine State.dispCfgWrite_keeps _ _ _ _ ?_ (subF_trans (by decide) hF)
          exact k2054

theorem State.refuseTake_keeps {fs : List Zone} {s0 : State} (s : State) (p : ℕ) (h1 : Keeps fs s0 s) (hF : subF [.block 0, .sm, .block 1, .out, .tkt] fs = true) :
    Keeps fs s0 (State.refuseTake s p) := by
  unfold State.refuseTake
  extract_lets -merge -underBinder y2058 y2059
  refine keeps_foldl _ _ ?_ ?_
  · refine State.setSmDisp_keeps _ _ _ ?_ (subF_trans (by decide) hF)
    exact h1
  · intro z2060 z2062 h2061
    split
    · refine keeps_ite ?_ ?_
      · refine State.smFail_keeps _ _ _ _ ?_ (subF_trans (by decide) hF)
        exact h2061
      · exact h2061
    · refine keeps_ite ?_ ?_
      · refine State.smFail_keeps _ _ _ _ ?_ (subF_trans (by decide) hF)
        exact h2061
      · exact h2061
    · exact h2061

theorem State.commitFrame_keeps {fs : List Zone} {s0 : State} (s : State) (p : ℕ) (h1 : Keeps fs s0 s) (hF : subF [.sched, .block 1, .out, .block 20, .regs, .pipes, .sm, .block 8, .free, .block 3, .block 0, .tkt] fs = true) :
    Keeps fs s0 (State.commitFrame s p).1 := by
  unfold State.commitFrame
  extract_lets -merge -underBinder y2063
  have k2064 : ∀ z2065, Keeps fs s0 z2065 → Keeps fs s0 (y2063 z2065) := by
    intro z2065 h2066
    unfold y2063
    extract_lets -merge -underBinder y2067 y2068
    refine Keeps.upd ?_ (.inr rfl) (.inl ⟨rfl, rfl⟩) (.inr rfl) (.inr rfl) (.inr rfl) (.inl ⟨rfl, rfl⟩) (.inl ⟨rfl, rfl⟩) (.inl rfl) (.inr rfl) (.inr rfl) (.inr rfl) (.inr rfl) (.inr ⟨rfl, rfl⟩) (.inr rfl) (.inl (alw hF (by decide))) (.inr rfl) (.inr rfl) (.inr rfl) (.inr rfl) (.inr rfl) (.inr rfl) (.inr rfl) (.inr rfl) (.inr rfl) (.inr rfl) (.inr rfl) (.inr rfl) (.inr rfl) (.inl rfl) rfl
    exact h2066
  split
  · refine keeps_mk_fst ?_
    refine k2064 _ ?_
    exact h1
  · extract_lets -merge -underBinder y2069 y2070
    have k2071 : Keeps fs s0 y2070.1 := by
      refine State.issueCommit_keeps _ _ _ ?_ (subF_trans (by decide) hF)
      exact h1
    refine keeps_ite_fst ?_ ?_
    · refine keeps_mk_fst ?_
      refine k2064 _ ?_
      exact h1
    · refine keeps_ite_fst ?_ ?_
      · refine keeps_mk_fst ?_
        refine k2064 _ ?_
        exact k2071
      · refine keeps_mk_fst ?_
        refine k2064 _ ?_
        refine keeps_ite ?_ ?_
        · refine State.refuseTake_keeps _ _ ?_ (subF_trans (by decide) hF)
          exact k2071
        · exact k2071

theorem State.vsyncWaits_keeps {fs : List Zone} {s0 : State} (s : State) (p : ℕ) (bound : Bool) (map : Bool) (h1 : Keeps fs s0 s) (hF : subF [.sm, .block 1, .out, .block 0, .tkt, .block 6] fs = true) :
    Keeps fs s0 (State.vsyncWaits s p bound map) := by
  unfold State.vsyncWaits
  refine keeps_foldl _ _ ?_ ?_
  · exact h1
  · intro z2072 z2074 h2073
    split
    · extract_lets -merge -underBinder y2075 y2076
      refine keeps_ite ?_ ?_
      · exact h2073
      · refine keeps_ite ?_ ?_
        · refine State.smDone_keeps _ _ _ ?_ (subF_trans (by decide) hF)
          exact h2073
        · refine State.smWait_keeps _ _ _ ?_ (subF_trans (by decide) hF)
          exact h2073
    · refine keeps_ite ?_ ?_
      · refine State.smDone_keeps _ _ _ ?_ (subF_trans (by decide) hF)
        exact h2073
      · exact h2073
    · extract_lets -merge -underBinder y2077
      refine keeps_ite ?_ ?_
      · refine State.smWait_keeps _ _ _ ?_ (subF_trans (by decide) hF)
        exact h2073
      · refine keeps_ite ?_ ?_
        · refine State.smDone_keeps _ _ _ ?_ (subF_trans (by decide) hF)
          refine State.showDuty_keeps _ ?_ (subF_trans (by decide) hF)
          exact h2073
        · refine State.smWait_keeps _ _ _ ?_ (subF_trans (by decide) hF)
          exact h2073
    · exact h2073

theorem State.stopWaits_keeps {fs : List Zone} {s0 : State} (s : State) (p : ℕ) (h1 : Keeps fs s0 s) (hF : subF [.block 6, .sm, .block 18, .jt, .block 20, .block 0, .block 1, .out, .tkt, .pipes, .block 3, .free, .il] fs = true) :
    Keeps fs s0 (State.stopWaits s p) := by
  unfold State.stopWaits
  extract_lets -merge -underBinder y2078
  have k2079 : Keeps fs s0 y2078 := by
    refine State.showDuty_keeps _ ?_ (subF_trans (by decide) hF)
    exact h1
  refine State.powerNext_keeps _ ?_ (subF_trans (by decide) hF)
  refine State.displayNext_keeps _ ?_ (subF_trans (by decide) hF)
  refine keeps_foldl _ _ ?_ ?_
  · exact k2079
  · intro z2080 z2082 h2081
    split
    · refine keeps_ite ?_ ?_
      · exact h2081
      · refine keeps_ite ?_ ?_
        · refine State.smDone_keeps _ _ _ ?_ (subF_trans (by decide) hF)
          exact h2081
        · refine State.smWait_keeps _ _ _ ?_ (subF_trans (by decide) hF)
          exact h2081
    · exact h2081

theorem State.copyParams_keeps {fs : List Zone} {s0 : State} (s : State) (c : Scene) (h1 : Keeps fs s0 s) (hF : subF [.free, .memo, .block 1, .out, .sp, .block 8] fs = true) :
    Keeps fs s0 (State.copyParams s c).1 := by
  unfold State.copyParams
  refine keeps_foldl_fst _ _ ?_ ?_
  · refine keeps_mk_fst ?_
    exact h1
  · intro z2083 z2085 h2084
    split
    · extract_lets -merge -underBinder y2086
      refine keeps_mk_fst ?_
      exact h2084
    · extract_lets -merge -underBinder y2087 y2088 y2089
      have k2090 : Keeps fs s0 y2087.1 := by
        refine State.bufRead_keeps _ _ _ _ ?_ (subF_trans (by decide) hF)
        exact h2084
      refine keeps_mk_fst ?_
      refine State.useFree_keeps _ ?_ (subF_trans (by decide) hF)
      exact k2090

theorem State.abortCommit_keeps {fs : List Zone} {s0 : State} (s : State) (p : ℕ) (h1 : Keeps fs s0 s) (hF : subF [.sm, .block 1, .out, .block 0, .tkt] fs = true) :
    Keeps fs s0 (State.abortCommit s p) := by
  unfold State.abortCommit
  refine keeps_foldl _ _ ?_ ?_
  · exact h1
  · intro z2091 z2093 h2092
    split
    · extract_lets -merge -underBinder y2094 y2095
      refine keeps_ite ?_ ?_
      · refine State.smEnd_keeps _ _ _ _ _ ?_ (subF_trans (by decide) hF)
        refine keeps_foldl _ _ ?_ ?_
        · exact h2092
        · intro z2096 z2098 h2097
          extract_lets -merge -underBinder y2099
          refine State.setSmDisp_keeps _ _ _ ?_ (subF_trans (by decide) hF)
          exact h2097
      · exact h2092
    · exact h2092

theorem State.startFrame_keeps {fs : List Zone} {s0 : State} (s : State) (p : ℕ) (h1 : Keeps fs s0 s) (hF : subF [.sm, .block 1, .out, .block 0, .tkt, .running, .free, .memo, .sp, .block 8] fs = true) :
    Keeps fs s0 (State.startFrame s p) := by
  unfold State.startFrame
  extract_lets -merge -underBinder y2100
  have k2101 : Keeps fs s0 y2100 := by
    refine State.abortCommit_keeps _ _ ?_ (subF_trans (by decide) hF)
    exact h1
  split
  · split
    · refine Keeps.upd ?_ (.inr rfl) (.inl ⟨rfl, rfl⟩) (.inr rfl) (.inr rfl) (.inr rfl) (.inl ⟨rfl, rfl⟩) (.inl ⟨rfl, rfl⟩) (.inl rfl) (.inr rfl) (.inr rfl) (.inr rfl) (.inr rfl) (.inr ⟨rfl, rfl⟩) (.inr rfl) (.inr rfl) (.inr rfl) (.inl (alw hF (by decide))) (.inr rfl) (.inr rfl) (.inr rfl) (.inr rfl) (.inr rfl) (.inr rfl) (.inr rfl) (.inr rfl) (.inr rfl) (.inr rfl) (.inr rfl) (.inl rfl) rfl
      exact k2101
    · exact k2101
  · extract_lets -merge -underBinder y2102 y2103 y2104 y2105
    have k2106 : Keeps fs s0 y2102.1 := by
      refine State.copyParams_keeps _ _ ?_ (subF_trans (by decide) hF)
      exact k2101
    have k2107 : Keeps fs s0 y2105 := by
      refine State.setSmDisp_keeps _ _ _ ?_ (subF_trans (by decide) hF)
      exact k2106
    split
    · refine Keeps.upd ?_ (.inr rfl) (.inl ⟨rfl, rfl⟩) (.inr rfl) (.inr rfl) (.inr rfl) (.inl ⟨rfl, rfl⟩) (.inl ⟨rfl, rfl⟩) (.inl rfl) (.inr rfl) (.inr rfl) (.inr rfl) (.inr rfl) (.inr ⟨rfl, rfl⟩) (.inr rfl) (.inr rfl) (.inr rfl) (.inl (alw hF (by decide))) (.inr rfl) (.inr rfl) (.inr rfl) (.inr rfl) (.inr rfl) (.inr rfl) (.inr rfl) (.inr rfl) (.inr rfl) (.inr rfl) (.inr rfl) (.inl rfl) rfl
      exact k2107
    · exact k2107

theorem State.schedFrame_keeps {fs : List Zone} {s0 : State} (s : State) (p : ℕ) (h1 : Keeps fs s0 s) (hF : subF [.sched, .sm] fs = true) :
    Keeps fs s0 (State.schedFrame s p) := by
  unfold State.schedFrame
  extract_lets -merge -underBinder y2108 y2109 y2110 y2111 y2112
  have k2113 : Keeps fs s0 y2110 := by
    refine Keeps.upd ?_ (.inr rfl) (.inl ⟨rfl, rfl⟩) (.inr rfl) (.inr rfl) (.inr rfl) (.inl ⟨rfl, rfl⟩) (.inl ⟨rfl, rfl⟩) (.inl rfl) (.inr rfl) (.inr rfl) (.inr rfl) (.inr rfl) (.inr ⟨rfl, rfl⟩) (.inr rfl) (.inl (alw hF (by decide))) (.inr rfl) (.inr rfl) (.inr rfl) (.inr rfl) (.inr rfl) (.inl (alw hF (by decide))) (.inr rfl) (.inr rfl) (.inr rfl) (.inr rfl) (.inr rfl) (.inr rfl) (.inr rfl) (.inl rfl) rfl
    exact h1
  have k2114 : Keeps fs s0 y2111 := by
    refine State.spendReserve_keeps _ ?_ (subF_trans (by decide) hF)
    exact k2113
  refine keeps_ite ?_ ?_
  · exact h1
  · refine keeps_ite ?_ ?_
    · refine Keeps.upd ?_ (.inr rfl) (.inl ⟨rfl, rfl⟩) (.inr rfl) (.inr rfl) (.inr rfl) (.inl ⟨rfl, rfl⟩) (.inl ⟨rfl, rfl⟩) (.inl rfl) (.inr rfl) (.inr rfl) (.inr rfl) (.inr rfl) (.inr ⟨rfl, rfl⟩) (.inr rfl) (.inl (alw hF (by decide))) (.inr rfl) (.inr rfl) (.inr rfl) (.inr rfl) (.inr rfl) (.inr rfl) (.inr rfl) (.inr rfl) (.inr rfl) (.inr rfl) (.inr rfl) (.inr rfl) (.inr rfl) (.inl rfl) rfl
      exact k2114
    · exact k2113

theorem State.sendMark_keeps {fs : List Zone} {s0 : State} (s : State) (p : ℕ) (h1 : Keeps fs s0 s) (hF : subF [.cpl, .out] fs = true) :
    Keeps fs s0 (State.sendMark s p) := by
  unfold State.sendMark
  refine keeps_ite ?_ ?_
  · refine State.cplSend_keeps _ _ _ _ _ ?_ (subF_trans (by decide) hF)
    exact h1
  · exact h1

theorem State.sendGeneration_keeps {fs : List Zone} {s0 : State} (s : State) (p : ℕ) (h1 : Keeps fs s0 s) (hF : subF [.cpl, .block 6, .free, .out] fs = true) :
    Keeps fs s0 (State.sendGeneration s p) := by
  unfold State.sendGeneration
  extract_lets -merge -underBinder y2115
  split
  · exact h1
  · extract_lets -merge -underBinder y2116 y2117 y2118 y2119 y2120 y2121
    have k2122 : Keeps fs s0 y2119 := by
      refine keeps_foldl _ _ ?_ ?_
      · exact h1
      · intro z2123 z2125 h2124
        refine State.halfWrite_keeps _ _ _ _ _ ?_ (subF_trans (by decide) hF)
        exact h2124
    have k2126 : Keeps fs s0 y2121 := by
      refine Keeps.upd ?_ (.inr rfl) (.inl ⟨rfl, rfl⟩) (.inr rfl) (.inr rfl) (.inr rfl) (.inl ⟨rfl, rfl⟩) (.inl ⟨rfl, rfl⟩) (.inl rfl) (.inr rfl) (.inr rfl) (.inr rfl) (.inr rfl) (.inr ⟨rfl, rfl⟩) (.inr rfl) (.inr rfl) (.inr rfl) (.inr rfl) (.inr rfl) (.inl (alw hF (by decide))) (.inr rfl) (.inr rfl) (.inr rfl) (.inr rfl) (.inr rfl) (.inr rfl) (.inr rfl) (.inr rfl) (.inr rfl) (.inl rfl) rfl
      exact k2122
    refine keeps_ite ?_ ?_
    · exact h1
    · refine State.txSend_keeps _ _ ?_ (subF_trans (by decide) hF)
      refine setReg_keeps _ _ ?_ (alwB hF 6 rfl (by decide))
      exact k2126

theorem State.vsyncFirmware_keeps {fs : List Zone} {s0 : State} (s : State) (p : ℕ) (bound : Bool) (map : Bool) (took : Bool) (h1 : Keeps fs s0 s) (hF : subF [.sm, .cpl, .block 6, .free, .out, .sched, .block 1, .block 0, .tkt, .running, .memo, .sp, .block 8] fs = true) :
    Keeps fs s0 (State.vsyncFirmware s p bound map took) := by
  unfold State.vsyncFirmware
  extract_lets -merge -underBinder y2127 y2128 y2129
  have k2130 : Keeps fs s0 y2129 := by
    refine keeps_ite ?_ ?_
    · exact h1
    · refine Keeps.upd ?_ (.inr rfl) (.inl ⟨rfl, rfl⟩) (.inr rfl) (.inr rfl) (.inr rfl) (.inl ⟨rfl, rfl⟩) (.inl ⟨rfl, rfl⟩) (.inl rfl) (.inr rfl) (.inr rfl) (.inr rfl) (.inr rfl) (.inr ⟨rfl, rfl⟩) (.inr rfl) (.inr rfl) (.inr rfl) (.inr rfl) (.inr rfl) (.inr rfl) (.inr rfl) (.inl (alw hF (by decide))) (.inr rfl) (.inr rfl) (.inr rfl) (.inr rfl) (.inr rfl) (.inr rfl) (.inr rfl) (.inl rfl) rfl
      exact h1
  refine State.sendGeneration_keeps _ _ ?_ (subF_trans (by decide) hF)
  refine State.schedFrame_keeps _ _ ?_ (subF_trans (by decide) hF)
  refine State.startFrame_keeps _ _ ?_ (subF_trans (by decide) hF)
  refine State.vsyncWaits_keeps _ _ _ _ ?_ (subF_trans (by decide) hF)
  refine State.showDuty_keeps _ ?_ (subF_trans (by decide) hF)
  exact k2130

theorem State.vsyncStart_keeps {fs : List Zone} {s0 : State} (s : State) (p : ℕ) (ps : ℕ) (katFail : Bool) (h1 : Keeps fs s0 s) (hF : subF [.block 3, .block 20, .block 1, .out, .free, .pipes, .il, .block 6, .sm, .block 18, .jt, .block 0, .tkt, .sched, .regs, .block 8, .cpl, .running, .memo, .sp] fs = true) :
    Keeps fs s0 (State.vsyncStart s p ps katFail) := by
  unfold State.vsyncStart
  extract_lets -merge -underBinder y2131 y2132 y2133 y2134 y2135
  have k2136 : Keeps fs s0 y2131 := by
    refine State.pipeStopNow_keeps _ _ ?_ (subF_trans (by decide) hF)
    exact h1
  have k2137 : Keeps fs s0 y2132.1 := by
    refine keeps_ite_fst ?_ ?_
    · refine State.commitFrame_keeps _ _ ?_ (subF_trans (by decide) hF)
      exact h1
    · refine keeps_mk_fst ?_
      exact h1
  have k2138 : Keeps fs s0 y2135 := by
    refine State.sendMark_keeps _ _ ?_ (subF_trans (by decide) hF)
    refine State.ilVsync_keeps _ _ _ ?_ (subF_trans (by decide) hF)
    refine State.pipeVsync_keeps _ _ _ ?_ (subF_trans (by decide) hF)
    exact k2137
  refine keeps_ite ?_ ?_
  · exact h1
  · refine keeps_ite ?_ ?_
    · refine keeps_ite ?_ ?_
      · refine State.stopWaits_keeps _ _ ?_ (subF_trans (by decide) hF)
        exact k2136
      · exact k2136
    · refine keeps_ite ?_ ?_
      · refine State.vsyncFirmware_keeps _ _ _ _ _ ?_ (subF_trans (by decide) hF)
        exact k2138
      · exact k2138

theorem execVsyncStart_keeps (p : ℕ) (ps : ℕ) (katFail : Bool) (s : State) : ∃ s', execVsyncStart p ps katFail s = .next s' ∧
    Keeps [.block 3, .block 20, .block 1, .out, .free, .pipes, .il, .block 6, .sm, .block 18, .jt, .block 0, .tkt, .sched, .regs, .block 8, .cpl, .running, .memo, .sp] s s' := by
  have hF : subF [.block 3, .block 20, .block 1, .out, .free, .pipes, .il, .block 6, .sm, .block 18, .jt, .block 0, .tkt, .sched, .regs, .block 8, .cpl, .running, .memo, .sp] [.block 3, .block 20, .block 1, .out, .free, .pipes, .il, .block 6, .sm, .block 18, .jt, .block 0, .tkt, .sched, .regs, .block 8, .cpl, .running, .memo, .sp] = true := by decide
  unfold execVsyncStart
  refine ⟨_, rfl, ?_⟩
  refine State.vsyncStart_keeps _ _ _ _ ?_ (subF_trans (by decide) hF)
  exact (Keeps.rfl' _ _)

theorem State.takeFailed_keeps {fs : List Zone} {s0 : State} (s : State) (p : ℕ) (h1 : Keeps fs s0 s) (hF : subF [.block 0, .sm, .block 1, .out, .tkt, .block 20, .block 3, .free, .pipes, .il] fs = true) :
    Keeps fs s0 (State.takeFailed s p) := by
  unfold State.takeFailed
  refine keeps_foldl _ _ ?_ ?_
  · exact h1
  · intro z2139 z2141 h2140
    split
    · refine keeps_ite ?_ ?_
      · refine State.smFail_keeps _ _ _ _ ?_ (subF_trans (by decide) hF)
        refine keeps_foldl _ _ ?_ ?_
        · refine State.pipeDisable_keeps _ _ ?_ (subF_trans (by decide) hF)
          exact h2140
        · intro z2142 z2144 h2143
          extract_lets -merge -underBinder y2145
          refine State.setSmDisp_keeps _ _ _ ?_ (subF_trans (by decide) hF)
          exact h2143
      · exact h2140
    · exact h2140

theorem State.linkUpNext_keeps {fs : List Zone} {s0 : State} (s : State) (p : ℕ) (h1 : Keeps fs s0 s) (hF : subF [.block 20, .sm, .block 1, .out, .block 0, .tkt, .block 3, .free, .pipes, .il] fs = true) :
    Keeps fs s0 (State.linkUpNext s p) := by
  unfold State.linkUpNext
  extract_lets -merge -underBinder y2146
  have k2147 : Keeps fs s0 y2146 := by
    refine State.linkUp_keeps _ _ ?_ (subF_trans (by decide) hF)
    exact h1
  refine keeps_ite ?_ ?_
  · refine State.displayLinked_keeps _ _ _ ?_ (subF_trans (by decide) hF)
    exact k2147
  · exact k2147

theorem execLinkUp_keeps (p : ℕ) (s : State) : ∃ s', execLinkUp p s = .next s' ∧
    Keeps [.block 20, .sm, .block 1, .out, .block 0, .tkt, .block 3, .free, .pipes, .il] s s' := by
  have hF : subF [.block 20, .sm, .block 1, .out, .block 0, .tkt, .block 3, .free, .pipes, .il] [.block 20, .sm, .block 1, .out, .block 0, .tkt, .block 3, .free, .pipes, .il] = true := by decide
  unfold execLinkUp
  refine ⟨_, rfl, ?_⟩
  refine State.linkUpNext_keeps _ _ ?_ (subF_trans (by decide) hF)
  exact (Keeps.rfl' _ _)

theorem State.linkFailNext_keeps {fs : List Zone} {s0 : State} (s : State) (p : ℕ) (h1 : Keeps fs s0 s) (hF : subF [.block 1, .out, .block 20, .block 3, .free, .pipes, .il, .block 6, .sm, .block 18, .jt, .block 0, .tkt] fs = true) :
    Keeps fs s0 (State.linkFailNext s p) := by
  unfold State.linkFailNext
  extract_lets -merge -underBinder y2148
  have k2149 : Keeps fs s0 y2148 := by
    refine State.linkFail_keeps _ _ ?_ (subF_trans (by decide) hF)
    exact h1
  refine keeps_ite ?_ ?_
  · refine State.stopWaits_keeps _ _ ?_ (subF_trans (by decide) hF)
    refine State.takeFailed_keeps _ _ ?_ (subF_trans (by decide) hF)
    refine State.displayLinked_keeps _ _ _ ?_ (subF_trans (by decide) hF)
    exact k2149
  · exact k2149

theorem execLinkFail_keeps (p : ℕ) (s : State) : ∃ s', execLinkFail p s = .next s' ∧
    Keeps [.block 1, .out, .block 20, .block 3, .free, .pipes, .il, .block 6, .sm, .block 18, .jt, .block 0, .tkt] s s' := by
  have hF : subF [.block 1, .out, .block 20, .block 3, .free, .pipes, .il, .block 6, .sm, .block 18, .jt, .block 0, .tkt] [.block 1, .out, .block 20, .block 3, .free, .pipes, .il, .block 6, .sm, .block 18, .jt, .block 0, .tkt] = true := by decide
  unfold execLinkFail
  refine ⟨_, rfl, ?_⟩
  refine State.linkFailNext_keeps _ _ ?_ (subF_trans (by decide) hF)
  exact (Keeps.rfl' _ _)

theorem State.pairOn_keeps {fs : List Zone} {s0 : State} (s : State) (h1 : Keeps fs s0 s) (hF : subF [.sm, .block 1, .out, .block 0, .tkt] fs = true) :
    Keeps fs s0 (State.pairOn s) := by
  unfold State.pairOn
  refine keeps_ite ?_ ?_
  · refine State.pairNext_keeps _ ?_ (subF_trans (by decide) hF)
    exact h1
  · exact h1

theorem State.fabOn_keeps {fs : List Zone} {s0 : State} (s : State) (fail : Bool) (h1 : Keeps fs s0 s) (hF : subF [.block 0, .sm, .block 1, .out, .tkt, .block 7, .fab] fs = true) :
    Keeps fs s0 (State.fabOn s fail) := by
  unfold State.fabOn
  refine keeps_ite ?_ ?_
  · refine State.fabricNext_keeps _ _ ?_ (subF_trans (by decide) hF)
    exact h1
  · exact h1

theorem execHello_keeps (p : ℕ) (f : CplFrame) (s : State) : ∃ s', execHello p f s = .next s' ∧
    Keeps [.sm, .block 1, .out, .block 0, .tkt, .block 6, .cpl] s s' := by
  have hF : subF [.sm, .block 1, .out, .block 0, .tkt, .block 6, .cpl] [.sm, .block 1, .out, .block 0, .tkt, .block 6, .cpl] = true := by decide
  unfold execHello
  refine ⟨_, rfl, ?_⟩
  refine State.pairOn_keeps _ ?_ (subF_trans (by decide) hF)
  refine State.hello_keeps _ _ _ ?_ (subF_trans (by decide) hF)
  exact (Keeps.rfl' _ _)

theorem execHelloSend_keeps (p : ℕ) (s : State) : ∃ s', execHelloSend p s = .next s' ∧
    Keeps [.sm, .block 1, .out, .block 0, .tkt, .cpl, .block 6] s s' := by
  have hF : subF [.sm, .block 1, .out, .block 0, .tkt, .cpl, .block 6] [.sm, .block 1, .out, .block 0, .tkt, .cpl, .block 6] = true := by decide
  unfold execHelloSend
  refine ⟨_, rfl, ?_⟩
  refine State.pairOn_keeps _ ?_ (subF_trans (by decide) hF)
  refine State.helloSend_keeps _ _ ?_ (subF_trans (by decide) hF)
  exact (Keeps.rfl' _ _)

theorem execFabLoaded_keeps (bad : Bool) (s : State) : ∃ s', execFabLoaded bad s = .next s' ∧
    Keeps [.block 0, .sm, .block 1, .out, .tkt, .block 7, .fab] s s' := by
  have hF : subF [.block 0, .sm, .block 1, .out, .tkt, .block 7, .fab] [.block 0, .sm, .block 1, .out, .tkt, .block 7, .fab] = true := by decide
  unfold execFabLoaded
  refine ⟨_, rfl, ?_⟩
  refine State.fabOn_keeps _ _ ?_ (subF_trans (by decide) hF)
  refine State.fabLoaded_keeps _ _ ?_ (subF_trans (by decide) hF)
  exact (Keeps.rfl' _ _)

theorem execReleaseStage_keeps (s : State) : ∃ s', execReleaseStage s = .next s' ∧
    Keeps [.block 0, .sm, .block 1, .out, .tkt, .block 7, .fab] s s' := by
  have hF : subF [.block 0, .sm, .block 1, .out, .tkt, .block 7, .fab] [.block 0, .sm, .block 1, .out, .tkt, .block 7, .fab] = true := by decide
  unfold execReleaseStage
  refine ⟨_, rfl, ?_⟩
  refine State.fabOn_keeps _ _ ?_ (subF_trans (by decide) hF)
  refine State.releaseStage_keeps _ ?_ (subF_trans (by decide) hF)
  exact (Keeps.rfl' _ _)

theorem execFabFlashDone_keeps (fail : Bool) (s : State) : ∃ s', execFabFlashDone fail s = .next s' ∧
    Keeps [.block 0, .sm, .block 1, .out, .tkt, .block 7, .fab] s s' := by
  have hF : subF [.block 0, .sm, .block 1, .out, .tkt, .block 7, .fab] [.block 0, .sm, .block 1, .out, .tkt, .block 7, .fab] = true := by decide
  unfold execFabFlashDone
  refine ⟨_, rfl, ?_⟩
  refine State.fabOn_keeps _ _ ?_ (subF_trans (by decide) hF)
  refine State.fabFlashDone_keeps _ _ ?_ (subF_trans (by decide) hF)
  exact (Keeps.rfl' _ _)

theorem execFenceDone_keeps (port : ℕ) (s : State) : ∃ s', execFenceDone port s = .next s' ∧
    Keeps [.jt, .block 1, .out, .block 18] s s' := by
  have hF : subF [.jt, .block 1, .out, .block 18] [.jt, .block 1, .out, .block 18] = true := by decide
  unfold execFenceDone
  refine ⟨_, rfl, ?_⟩
  refine State.fenceDone_keeps _ _ ?_ (subF_trans (by decide) hF)
  exact (Keeps.rfl' _ _)

end Sys2Proof.Machine
end

