-- ==== Sys2Proof/Laws/KeepsStart.lean ====
section
/-! SUPPORT. What each operation of Machine/Start.lean can change, one lemma an operation (Laws/KeepsBase.lean). -/

-- elaborated one declaration at a time, so that the package compiles as one text in bounded memory
set_option Elab.async false

namespace Sys2Proof.Machine

theorem State.smResume_keeps {fs : List Zone} {s0 : State} (s : State) (h1 : Keeps fs s0 s) (hF : subF [.sm, .block 18, .jt, .block 20, .streams, .pipes, .block 3, .block 1, .out, .free, .il, .block 0] fs = true) :
    Keeps fs s0 (State.smResume s) := by
  unfold State.smResume
  split
  · exact h1
  · extract_lets -merge -underBinder y2150 y2151 y2152 y2153 y2154 y2155
    have k2156 : Keeps fs s0 y2151 := by
      refine Keeps.upd ?_ (.inr rfl) (.inl ⟨rfl, rfl⟩) (.inr rfl) (.inr rfl) (.inr rfl) (.inl ⟨rfl, rfl⟩) (.inl ⟨rfl, rfl⟩) (.inl rfl) (.inr rfl) (.inr rfl) (.inr rfl) (.inr rfl) (.inr ⟨rfl, rfl⟩) (.inr rfl) (.inr rfl) (.inr rfl) (.inr rfl) (.inr rfl) (.inr rfl) (.inr rfl) (.inl (alw hF (by decide))) (.inr rfl) (.inr rfl) (.inr rfl) (.inr rfl) (.inr rfl) (.inr rfl) (.inr rfl) (.inl rfl) rfl
      exact h1
    have k2157 : Keeps fs s0 y2152 := by
      refine keeps_foldl _ _ ?_ ?_
      · exact k2156
      · intro z2158 z2160 h2159
        refine State.fencePort_keeps _ _ _ ?_ (subF_trans (by decide) hF)
        exact h2159
    have k2161 : Keeps fs s0 y2153 := by
      refine keeps_foldl _ _ ?_ ?_
      · exact k2157
      · intro z2162 z2164 h2163
        refine State.camCfgWrite_keeps _ _ _ _ ?_ (subF_trans (by decide) hF)
        exact h2163
    have k2165 : Keeps fs s0 y2154 := by
      refine keeps_foldl _ _ ?_ ?_
      · exact k2161
      · intro z2166 z2168 h2167
        refine State.pipeCtlWrite_keeps _ _ _ ?_ (subF_trans (by decide) hF)
        exact h2167
    have k2169 : Keeps fs s0 y2155 := by
      refine keeps_foldl _ _ ?_ ?_
      · exact k2165
      · intro z2170 z2172 h2171
        refine State.writeArm_keeps _ _ _ ?_ (subF_trans (by decide) hF)
        exact h2171
    refine setBit_keeps _ _ _ ?_ (alwB hF 0 rfl (by decide))
    exact k2169

theorem State.resumeIf_keeps {fs : List Zone} {s0 : State} (s : State) (h1 : Keeps fs s0 s) (hF : subF [.sm, .block 18, .jt, .block 20, .streams, .pipes, .block 3, .block 1, .out, .free, .il, .block 0] fs = true) :
    Keeps fs s0 (State.resumeIf s) := by
  unfold State.resumeIf
  refine keeps_ite ?_ ?_
  · refine State.smResume_keeps _ ?_ (subF_trans (by decide) hF)
    exact h1
  · exact h1

theorem State.endQueued_keeps {fs : List Zone} {s0 : State} (s : State) (m : ℕ) (h1 : Keeps fs s0 s) (hF : subF [.block 1, .out, .block 0, .tkt] fs = true) :
    Keeps fs s0 (State.endQueued s m) := by
  unfold State.endQueued
  refine keeps_foldl _ _ ?_ ?_
  · exact h1
  · intro z2173 z2175 h2174
    refine keeps_ite ?_ ?_
    · refine State.mbReason_keeps _ _ _ _ _ _ ?_ (subF_trans (by decide) hF)
      refine State.mbUnqueue_keeps _ _ ?_ (subF_trans (by decide) hF)
      exact h2174
    · exact h2174

theorem State.powerGo_keeps {fs : List Zone} {s0 : State} (s : State) (m : ℕ) (t : ℕ) (parked : ℕ × ℕ × ℕ) (h1 : Keeps fs s0 s) (hF : subF [.sm, .block 1, .out, .block 0, .tkt, .block 2, .pwr, .block 18, .jt] fs = true) :
    Keeps fs s0 (State.powerGo s m t parked) := by
  unfold State.powerGo
  extract_lets -merge -underBinder y2176 y2177 y2178
  have k2179 : Keeps fs s0 y2177 := by
    refine Keeps.upd ?_ (.inr rfl) (.inl ⟨rfl, rfl⟩) (.inr rfl) (.inr rfl) (.inr rfl) (.inl ⟨rfl, rfl⟩) (.inl ⟨rfl, rfl⟩) (.inl rfl) (.inr rfl) (.inr rfl) (.inr rfl) (.inr rfl) (.inr ⟨rfl, rfl⟩) (.inr rfl) (.inr rfl) (.inr rfl) (.inr rfl) (.inr rfl) (.inr rfl) (.inr rfl) (.inl (alw hF (by decide))) (.inr rfl) (.inr rfl) (.inr rfl) (.inr rfl) (.inr rfl) (.inr rfl) (.inr rfl) (.inl rfl) rfl
    exact h1
  have k2180 : Keeps fs s0 y2178 := by
    refine keeps_ite ?_ ?_
    · refine State.smDone_keeps _ _ _ ?_ (subF_trans (by decide) hF)
      exact k2179
    · refine setBit_keeps _ _ _ ?_ (alwB hF 0 rfl (by decide))
      refine State.smDone_keeps _ _ _ ?_ (subF_trans (by decide) hF)
      refine State.endQueued_keeps _ _ ?_ (subF_trans (by decide) hF)
      exact k2179
  refine State.pwrGo_keeps _ ?_ (subF_trans (by decide) hF)
  exact k2180

theorem State.goEvent_keeps {fs : List Zone} {s0 : State} (s : State) (h1 : Keeps fs s0 s) (hF : subF [.sm, .block 18, .jt, .block 20, .streams, .pipes, .block 3, .block 1, .out, .free, .il, .block 0, .tkt, .block 2, .pwr] fs = true) :
    Keeps fs s0 (State.goEvent s) := by
  unfold State.goEvent
  refine keeps_ite ?_ ?_
  · exact h1
  · split
    · refine keeps_ite ?_ ?_
      · refine State.resumeIf_keeps _ ?_ (subF_trans (by decide) hF)
        refine State.powerGo_keeps _ _ _ _ ?_ (subF_trans (by decide) hF)
        exact h1
      · exact h1
    · exact h1
    · refine State.resumeIf_keeps _ ?_ (subF_trans (by decide) hF)
      refine State.pwrGo_keeps _ ?_ (subF_trans (by decide) hF)
      exact h1

theorem execPwrGo_keeps (s : State) : ∃ s', execPwrGo s = .next s' ∧
    Keeps [.sm, .block 18, .jt, .block 20, .streams, .pipes, .block 3, .block 1, .out, .free, .il, .block 0, .tkt, .block 2, .pwr] s s' := by
  have hF : subF [.sm, .block 18, .jt, .block 20, .streams, .pipes, .block 3, .block 1, .out, .free, .il, .block 0, .tkt, .block 2, .pwr] [.sm, .block 18, .jt, .block 20, .streams, .pipes, .block 3, .block 1, .out, .free, .il, .block 0, .tkt, .block 2, .pwr] = true := by decide
  unfold execPwrGo
  refine ⟨_, rfl, ?_⟩
  refine State.goEvent_keeps _ ?_ (subF_trans (by decide) hF)
  exact (Keeps.rfl' _ _)

theorem execWakeN_keeps (s : State) : ∃ s', execWakeN s = .next s' ∧
    Keeps [.sm, .block 18, .jt, .block 20, .streams, .pipes, .block 3, .block 1, .out, .free, .il, .block 0, .pwr, .block 2] s s' := by
  have hF : subF [.sm, .block 18, .jt, .block 20, .streams, .pipes, .block 3, .block 1, .out, .free, .il, .block 0, .pwr, .block 2] [.sm, .block 18, .jt, .block 20, .streams, .pipes, .block 3, .block 1, .out, .free, .il, .block 0, .pwr, .block 2] = true := by decide
  unfold execWakeN
  refine ⟨_, rfl, ?_⟩
  refine State.resumeIf_keeps _ ?_ (subF_trans (by decide) hF)
  refine State.wakeEvent_keeps _ _ ?_ (subF_trans (by decide) hF)
  exact (Keeps.rfl' _ _)

theorem execCouplerWake_keeps (p : ℕ) (s : State) : ∃ s', execCouplerWake p s = .next s' ∧
    Keeps [.sm, .block 18, .jt, .block 20, .streams, .pipes, .block 3, .block 1, .out, .free, .il, .block 0, .pwr, .block 2] s s' := by
  have hF : subF [.sm, .block 18, .jt, .block 20, .streams, .pipes, .block 3, .block 1, .out, .free, .il, .block 0, .pwr, .block 2] [.sm, .block 18, .jt, .block 20, .streams, .pipes, .block 3, .block 1, .out, .free, .il, .block 0, .pwr, .block 2] = true := by decide
  unfold execCouplerWake
  refine ⟨_, rfl, ?_⟩
  refine keeps_ite ?_ ?_
  · refine State.resumeIf_keeps _ ?_ (subF_trans (by decide) hF)
    refine State.wakeEvent_keeps _ _ ?_ (subF_trans (by decide) hF)
    exact (Keeps.rfl' _ _)
  · exact (Keeps.rfl' _ _)

theorem execPcieWake_keeps (s : State) : ∃ s', execPcieWake s = .next s' ∧
    Keeps [.sm, .block 18, .jt, .block 20, .streams, .pipes, .block 3, .block 1, .out, .free, .il, .block 0, .pwr, .block 2] s s' := by
  have hF : subF [.sm, .block 18, .jt, .block 20, .streams, .pipes, .block 3, .block 1, .out, .free, .il, .block 0, .pwr, .block 2] [.sm, .block 18, .jt, .block 20, .streams, .pipes, .block 3, .block 1, .out, .free, .il, .block 0, .pwr, .block 2] = true := by decide
  unfold execPcieWake
  refine ⟨_, rfl, ?_⟩
  refine State.resumeIf_keeps _ ?_ (subF_trans (by decide) hF)
  refine State.wakeEvent_keeps _ _ ?_ (subF_trans (by decide) hF)
  exact (Keeps.rfl' _ _)

theorem execWakePattern_keeps (s : State) : ∃ s', execWakePattern s = .next s' ∧
    Keeps [.sm, .block 18, .jt, .block 20, .streams, .pipes, .block 3, .block 1, .out, .free, .il, .block 0, .pwr, .block 2] s s' := by
  have hF : subF [.sm, .block 18, .jt, .block 20, .streams, .pipes, .block 3, .block 1, .out, .free, .il, .block 0, .pwr, .block 2] [.sm, .block 18, .jt, .block 20, .streams, .pipes, .block 3, .block 1, .out, .free, .il, .block 0, .pwr, .block 2] = true := by decide
  unfold execWakePattern
  refine ⟨_, rfl, ?_⟩
  refine State.resumeIf_keeps _ ?_ (subF_trans (by decide) hF)
  refine State.wakeEvent_keeps _ _ ?_ (subF_trans (by decide) hF)
  exact (Keeps.rfl' _ _)

theorem State.sleepLoses_keeps {fs : List Zone} {s0 : State} (s : State) (h1 : Keeps fs s0 s) (hF : subF [.planes, .block 6, .cpl, .block 1, .out, .block 0, .tkt, .block 7, .fab] fs = true) :
    Keeps fs s0 (State.sleepLoses s) := by
  unfold State.sleepLoses
  extract_lets -merge -underBinder y2181 y2182 y2183 y2184
  have k2185 : Keeps fs s0 y2182 := by
    refine Keeps.upd ?_ (.inr rfl) (.inr ⟨alw hF (by decide), ?_⟩) (.inr rfl) (.inr rfl) (.inr rfl) (.inl ⟨rfl, rfl⟩) (.inl ⟨rfl, rfl⟩) (.inl rfl) (.inr rfl) (.inr rfl) (.inr rfl) (.inr rfl) (.inr ⟨rfl, rfl⟩) (.inr rfl) (.inr rfl) (.inr rfl) (.inr rfl) (.inr rfl) (.inr rfl) (.inr rfl) (.inr rfl) (.inr rfl) (.inr rfl) (.inr rfl) (.inr rfl) (.inr rfl) (.inr rfl) (.inr rfl) (.inl rfl) rfl
    · exact h1
    · exact fun _ => rfl
  have k2186 : Keeps fs s0 y2183 := by
    refine keeps_foldl _ _ ?_ ?_
    · exact k2185
    · intro z2187 z2189 h2188
      refine keeps_ite ?_ ?_
      · refine State.setCplState_keeps _ _ _ ?_ (subF_trans (by decide) hF)
        exact h2188
      · exact h2188
  refine keeps_ite ?_ ?_
  · exact k2186
  · refine State.setFabState_keeps _ _ ?_ (subF_trans (by decide) hF)
    refine Keeps.upd ?_ (.inr rfl) (.inl ⟨rfl, rfl⟩) (.inr rfl) (.inr rfl) (.inr rfl) (.inl ⟨rfl, rfl⟩) (.inl ⟨rfl, rfl⟩) (.inl rfl) (.inr rfl) (.inr rfl) (.inr rfl) (.inr rfl) (.inr ⟨rfl, rfl⟩) (.inr rfl) (.inr rfl) (.inr rfl) (.inr rfl) (.inr rfl) (.inr rfl) (.inl (alw hF (by decide))) (.inr rfl) (.inr rfl) (.inr rfl) (.inr rfl) (.inr rfl) (.inr rfl) (.inr rfl) (.inr rfl) (.inl rfl) rfl
    exact k2186

theorem State.latchedRun_keeps {fs : List Zone} {s0 : State} (s : State) (h1 : Keeps fs s0 s) (hF : subF [.block 2, .pwr, .block 1, .out] fs = true) :
    Keeps fs s0 (State.latchedRun s) := by
  unfold State.latchedRun
  refine keeps_ite ?_ ?_
  · refine State.pwrToRun_keeps _ ?_ (subF_trans (by decide) hF)
    refine setBit_keeps _ _ _ ?_ (alwB hF 2 rfl (by decide))
    exact h1
  · exact h1

theorem State.pwrStable_keeps {fs : List Zone} {s0 : State} (s : State) (h1 : Keeps fs s0 s) (hF : subF [.block 2, .pwr, .block 1, .out, .planes, .block 6, .cpl, .block 0, .tkt, .block 7, .fab, .sm, .block 18, .jt, .block 20, .streams, .pipes, .block 3, .free, .il, .block 16, .arr] fs = true) :
    Keeps fs s0 (State.pwrStable s) := by
  unfold State.pwrStable
  extract_lets -merge -underBinder y2190
  have k2191 : ∀ z2192 z2194 z2195, Keeps fs s0 z2192 → Keeps fs s0 (y2190 z2192 z2194 z2195) := by
    intro z2192 z2194 z2195 h2193
    unfold y2190
    extract_lets -merge -underBinder y2196
    refine setFld_keeps _ _ _ _ ?_ (alwB hF 2 rfl (by decide))
    refine setBit_keeps _ _ _ ?_ (alwB hF 2 rfl (by decide))
    refine Keeps.upd ?_ (.inr rfl) (.inl ⟨rfl, rfl⟩) (.inr rfl) (.inr rfl) (.inr rfl) (.inl ⟨rfl, rfl⟩) (.inl ⟨rfl, rfl⟩) (.inl rfl) (.inr rfl) (.inr rfl) (.inr rfl) (.inr rfl) (.inr ⟨rfl, rfl⟩) (.inr rfl) (.inr rfl) (.inr rfl) (.inr rfl) (.inl (alw hF (by decide))) (.inr rfl) (.inr rfl) (.inr rfl) (.inr rfl) (.inr rfl) (.inr rfl) (.inr rfl) (.inr rfl) (.inr rfl) (.inr rfl) (.inl rfl) rfl
    exact h2193
  split
  · refine State.latchedRun_keeps _ ?_ (subF_trans (by decide) hF)
    refine k2191 _ _ _ ?_
    exact h1
  · refine State.latchedRun_keeps _ ?_ (subF_trans (by decide) hF)
    refine k2191 _ _ _ ?_
    refine State.sleepLoses_keeps _ ?_ (subF_trans (by decide) hF)
    exact h1
  · extract_lets -merge -underBinder y2197 y2198 y2199
    have k2200 : Keeps fs s0 y2198 := by
      refine State.fire_keeps _ _ ?_ (subF_trans (by decide) hF)
      refine k2191 _ _ _ ?_
      exact h1
    have k2201 : Keeps fs s0 y2199 := by
      refine keeps_ite ?_ ?_
      · exact k2200
      · refine State.fabPowerOn_keeps _ ?_ (subF_trans (by decide) hF)
        exact k2200
    refine keeps_ite ?_ ?_
    · refine State.smResume_keeps _ ?_ (subF_trans (by decide) hF)
      refine State.clearArray_keeps _ ?_ (subF_trans (by decide) hF)
      exact k2201
    · exact k2200
  · exact h1

theorem execPwrStable_keeps (s : State) : ∃ s', execPwrStable s = .next s' ∧
    Keeps [.block 2, .pwr, .block 1, .out, .planes, .block 6, .cpl, .block 0, .tkt, .block 7, .fab, .sm, .block 18, .jt, .block 20, .streams, .pipes, .block 3, .free, .il, .block 16, .arr] s s' := by
  have hF : subF [.block 2, .pwr, .block 1, .out, .planes, .block 6, .cpl, .block 0, .tkt, .block 7, .fab, .sm, .block 18, .jt, .block 20, .streams, .pipes, .block 3, .free, .il, .block 16, .arr] [.block 2, .pwr, .block 1, .out, .planes, .block 6, .cpl, .block 0, .tkt, .block 7, .fab, .sm, .block 18, .jt, .block 20, .streams, .pipes, .block 3, .free, .il, .block 16, .arr] = true := by decide
  unfold execPwrStable
  refine ⟨_, rfl, ?_⟩
  refine State.pwrStable_keeps _ ?_ (subF_trans (by decide) hF)
  exact (Keeps.rfl' _ _)

theorem State.lcPerform_keeps {fs : List Zone} {s0 : State} (s : State) (h1 : Keeps fs s0 s) (hF : subF [.block 8, .sec, .memo, .block 6, .block 7, .block 1, .out] fs = true) :
    Keeps fs s0 (State.lcPerform s) := by
  unfold State.lcPerform
  split
  · exact h1
  · extract_lets -merge -underBinder y2202 y2203 y2204 y2205
    have k2206 : Keeps fs s0 y2202 := by
      refine setFld_keeps _ _ _ _ ?_ (alwB hF 8 rfl (by decide))
      refine setBit_keeps _ _ _ ?_ (alwB hF 8 rfl (by decide))
      refine State.secZero_keeps _ ?_ (subF_trans (by decide) hF)
      exact h1
    have k2207 : Keeps fs s0 y2204 := by
      refine Keeps.upd ?_ (.inr rfl) (.inl ⟨rfl, rfl⟩) (.inr rfl) (.inr rfl) (.inr rfl) (.inl ⟨rfl, rfl⟩) (.inl ⟨rfl, rfl⟩) (.inl rfl) (.inl (alw hF (by decide))) (.inr rfl) (.inr rfl) (.inr rfl) (.inr ⟨rfl, rfl⟩) (.inr rfl) (.inr rfl) (.inr rfl) (.inr rfl) (.inr rfl) (.inr rfl) (.inr rfl) (.inr rfl) (.inr rfl) (.inr rfl) (.inr rfl) (.inr rfl) (.inr rfl) (.inr rfl) (.inr rfl) (.inl rfl) rfl
      exact k2206
    refine keeps_ite ?_ ?_
    · refine State.showPersistent_keeps _ ?_ (subF_trans (by decide) hF)
      refine State.fire_keeps _ _ ?_ (subF_trans (by decide) hF)
      refine setBit_keeps _ _ _ ?_ (alwB hF 8 rfl (by decide))
      exact k2207
    · refine State.showPersistent_keeps _ ?_ (subF_trans (by decide) hF)
      refine Keeps.upd ?_ (.inr rfl) (.inl ⟨rfl, rfl⟩) (.inr rfl) (.inr rfl) (.inr rfl) (.inl ⟨rfl, rfl⟩) (.inl ⟨rfl, rfl⟩) (.inl rfl) (.inl (alw hF (by decide))) (.inr rfl) (.inr rfl) (.inr rfl) (.inr ⟨rfl, rfl⟩) (.inr rfl) (.inr rfl) (.inr rfl) (.inr rfl) (.inr rfl) (.inr rfl) (.inr rfl) (.inr rfl) (.inr rfl) (.inr rfl) (.inr rfl) (.inr rfl) (.inr rfl) (.inr rfl) (.inr rfl) (.inl rfl) rfl
      exact k2207

theorem State.wipeRecord_keeps {fs : List Zone} {s0 : State} (s : State) (h1 : Keeps fs s0 s) (hF : subF [.block 8, .block 1, .out, .memo] fs = true) :
    Keeps fs s0 (State.wipeRecord s) := by
  unfold State.wipeRecord
  extract_lets -merge -underBinder y2208 y2209 y2210
  have k2211 : Keeps fs s0 y2209 := by
    refine keeps_foldl _ _ ?_ ?_
    · exact h1
    · intro z2212 z2214 h2213
      refine setBit_keeps _ _ _ ?_ (alwB hF 8 rfl (by decide))
      exact h2213
  refine keeps_ite ?_ ?_
  · exact h1
  · refine State.fire_keeps _ _ ?_ (subF_trans (by decide) hF)
    refine setFld_keeps _ _ _ _ ?_ (alwB hF 8 rfl (by decide))
    refine Keeps.upd ?_ (.inr rfl) (.inl ⟨rfl, rfl⟩) (.inr rfl) (.inr rfl) (.inr rfl) (.inl ⟨rfl, rfl⟩) (.inl ⟨rfl, rfl⟩) (.inl rfl) (.inl (alw hF (by decide))) (.inr rfl) (.inr rfl) (.inr rfl) (.inr ⟨rfl, rfl⟩) (.inr rfl) (.inr rfl) (.inr rfl) (.inr rfl) (.inr rfl) (.inr rfl) (.inr rfl) (.inr rfl) (.inr rfl) (.inr rfl) (.inr rfl) (.inr rfl) (.inr rfl) (.inr rfl) (.inr rfl) (.inl rfl) rfl
    exact k2211

theorem State.bootRom_keeps {fs : List Zone} {s0 : State} (s : State) (cold : Bool) (h1 : Keeps fs s0 s) (hF : subF [.block 8, .block 1, .out, .memo, .sec, .block 6, .block 7, .sp, .disp, .block 2, .block 0] fs = true) :
    Keeps fs s0 (State.bootRom s cold) := by
  unfold State.bootRom
  extract_lets -merge -underBinder y2215 y2216 y2217 y2218 y2219 y2220
  have k2221 : Keeps fs s0 y2216 := by
    refine State.wipeRecord_keeps _ ?_ (subF_trans (by decide) hF)
    refine State.lcPerform_keeps _ ?_ (subF_trans (by decide) hF)
    refine keeps_ite ?_ ?_
    · refine State.secZero_keeps _ ?_ (subF_trans (by decide) hF)
      exact h1
    · exact h1
  have k2222 : Keeps fs s0 y2217 := by
    refine keeps_foldl _ _ ?_ ?_
    · exact k2221
    · intro z2223 z2225 h2224
      refine State.remapWrite_keeps _ _ _ _ ?_ (subF_trans (by decide) hF)
      exact h2224
  have k2226 : Keeps fs s0 y2218 := by
    refine State.fillDone_keeps _ ?_ (subF_trans (by decide) hF)
    refine State.memFillStart_keeps _ ?_ (subF_trans (by decide) hF)
    exact k2222
  have k2227 : Keeps fs s0 y2219 := by
    refine State.secZero_keeps _ ?_ (subF_trans (by decide) hF)
    exact k2226
  refine keeps_ite ?_ ?_
  · refine Keeps.upd ?_ (.inr rfl) (.inl ⟨rfl, rfl⟩) (.inr rfl) (.inl (alw hF (by decide))) (.inr rfl) (.inl ⟨rfl, rfl⟩) (.inl ⟨rfl, rfl⟩) (.inl rfl) (.inr rfl) (.inr rfl) (.inr rfl) (.inr rfl) (.inr ⟨rfl, rfl⟩) (.inr rfl) (.inr rfl) (.inr rfl) (.inr rfl) (.inr rfl) (.inr rfl) (.inr rfl) (.inr rfl) (.inr rfl) (.inr rfl) (.inr rfl) (.inr rfl) (.inr rfl) (.inr rfl) (.inr rfl) (.inl rfl) rfl
    exact k2227
  · refine setFld_keeps _ _ _ _ ?_ (alwB hF 2 rfl (by decide))
    refine setBit_keeps _ _ _ ?_ (alwB hF 0 rfl (by decide))
    refine setBit_keeps _ _ _ ?_ (alwB hF 0 rfl (by decide))
    exact k2226

theorem State.trialRevert_keeps {fs : List Zone} {s0 : State} (s : State) (k : ℕ) (h1 : Keeps fs s0 s) (hF : subF [.block 2, .upd] fs = true) :
    Keeps fs s0 (State.trialRevert s k) := by
  unfold State.trialRevert
  extract_lets -merge -underBinder y2228
  refine setBit_keeps _ _ _ ?_ (alwB hF 2 rfl (by decide))
  refine State.setKind_keeps _ _ _ ?_ (subF_trans (by decide) hF)
  exact h1

theorem State.trialRule_keeps {fs : List Zone} {s0 : State} (s : State) (k : ℕ) (h1 : Keeps fs s0 s) (hF : subF [.block 2, .upd] fs = true) :
    Keeps fs s0 (State.trialRule s k) := by
  unfold State.trialRule
  extract_lets -merge -underBinder y2229
  refine keeps_ite ?_ ?_
  · exact h1
  · refine keeps_ite ?_ ?_
    · refine State.trialRevert_keeps _ _ ?_ (subF_trans (by decide) hF)
      exact h1
    · refine State.setKind_keeps _ _ _ ?_ (subF_trans (by decide) hF)
      exact h1

theorem State.sessionStart_keeps {fs : List Zone} {s0 : State} (s : State) (h1 : Keeps fs s0 s) (hF : subF [.upd] fs = true) :
    Keeps fs s0 (State.sessionStart s) := by
  unfold State.sessionStart
  extract_lets -merge -underBinder y2230
  refine keeps_ite ?_ ?_
  · refine State.setSession_keeps _ _ _ ?_ (subF_trans (by decide) hF)
    exact h1
  · refine Keeps.upd ?_ (.inr rfl) (.inl ⟨rfl, rfl⟩) (.inr rfl) (.inr rfl) (.inr rfl) (.inl ⟨rfl, rfl⟩) (.inl ⟨rfl, rfl⟩) (.inl rfl) (.inr rfl) (.inr rfl) (.inr rfl) (.inr rfl) (.inr ⟨rfl, rfl⟩) (.inr rfl) (.inr rfl) (.inr rfl) (.inr rfl) (.inr rfl) (.inr rfl) (.inr rfl) (.inr rfl) (.inl (alw hF (by decide))) (.inr rfl) (.inr rfl) (.inr rfl) (.inr rfl) (.inr rfl) (.inr rfl) (.inl rfl) rfl
    exact h1

theorem State.trialVerify_keeps {fs : List Zone} {s0 : State} (s : State) (k : ℕ) (h1 : Keeps fs s0 s) (hF : subF [.block 2, .upd] fs = true) :
    Keeps fs s0 (State.trialVerify s k) := by
  unfold State.trialVerify
  extract_lets -merge -underBinder y2231
  refine keeps_ite ?_ ?_
  · refine State.trialRevert_keeps _ _ ?_ (subF_trans (by decide) hF)
    exact h1
  · exact h1

theorem State.slotShow_keeps {fs : List Zone} {s0 : State} (s : State) (k : ℕ) (h1 : Keeps fs s0 s) (hF : subF [.block 2] fs = true) :
    Keeps fs s0 (State.slotShow s k) := by
  unfold State.slotShow
  split
  · refine setBit_keeps _ _ _ ?_ (alwB hF 2 rfl (by decide))
    exact h1
  · refine keeps_ite ?_ ?_
    · refine setBit_keeps _ _ _ ?_ (alwB hF 2 rfl (by decide))
      exact h1
    · exact h1

theorem State.loadStationmaster_keeps {fs : List Zone} {s0 : State} (s : State) (b : List Byte) (h1 : Keeps fs s0 s) (hF : subF [.sp, .block 2, .sm] fs = true) :
    Keeps fs s0 (State.loadStationmaster s b) := by
  unfold State.loadStationmaster
  extract_lets -merge -underBinder y2232 y2233 y2234
  have k2235 : Keeps fs s0 y2233 := by
    refine keeps_foldl _ _ ?_ ?_
    · exact h1
    · intro z2236 z2238 h2237
      refine State.spWrite_keeps _ _ _ ?_ (subF_trans (by decide) hF)
      exact h2237
  refine setFld_keeps _ _ _ _ ?_ (alwB hF 2 rfl (by decide))
  refine Keeps.upd ?_ (.inr rfl) (.inl ⟨rfl, rfl⟩) (.inr rfl) (.inr rfl) (.inr rfl) (.inl ⟨rfl, rfl⟩) (.inl ⟨rfl, rfl⟩) (.inl rfl) (.inr rfl) (.inr rfl) (.inr rfl) (.inr rfl) (.inr ⟨rfl, rfl⟩) (.inr rfl) (.inr rfl) (.inr rfl) (.inr rfl) (.inr rfl) (.inr rfl) (.inr rfl) (.inl (alw hF (by decide))) (.inr rfl) (.inr rfl) (.inr rfl) (.inr rfl) (.inr rfl) (.inr rfl) (.inr rfl) (.inl rfl) rfl
  exact k2235

theorem State.openWindow_keeps {fs : List Zone} {s0 : State} (s : State) (w : ℕ) (base : ℕ) (limit : ℕ) (mask : ℕ) (h1 : Keeps fs s0 s) (hF : subF [.block 9] fs = true) :
    Keeps fs s0 (State.openWindow s w base limit mask) := by
  unfold State.openWindow
  extract_lets -merge -underBinder y2239
  have k2240 : ∀ z2241 z2243 z2244, Keeps fs s0 z2241 → Keeps fs s0 (y2239 z2241 z2243 z2244) := by
    intro z2241 z2243 z2244 h2242
    refine setReg_keeps _ _ ?_ (alwL hF 9 1 (by simp only [Reg.act, winReg, Reg.WIN_BASE_LO]; omega))
    refine setReg_keeps _ _ ?_ (alwL hF 9 0 (by simp only [winReg, Reg.WIN_BASE_LO]; omega))
    exact h2242
  refine k2240 _ _ _ ?_
  refine k2240 _ _ _ ?_
  refine k2240 _ _ _ ?_
  refine k2240 _ _ _ ?_
  refine k2240 _ _ _ ?_
  refine k2240 _ _ _ ?_
  exact h1

theorem State.smSetUp_keeps {fs : List Zone} {s0 : State} (s : State) (h1 : Keeps fs s0 s) (hF : subF [.block 18, .block 9] fs = true) :
    Keeps fs s0 (State.smSetUp s) := by
  unfold State.smSetUp
  extract_lets -merge -underBinder y2245 y2246
  have k2247 : Keeps fs s0 y2246 := by
    refine keeps_foldl _ _ ?_ ?_
    · exact h1
    · intro z2248 z2250 h2249
      refine State.tmoWrite_keeps _ _ _ ?_ (subF_trans (by decide) hF)
      exact h2249
  refine State.openWindow_keeps _ _ _ _ _ ?_ (subF_trans (by decide) hF)
  refine State.openWindow_keeps _ _ _ _ _ ?_ (subF_trans (by decide) hF)
  refine State.openWindow_keeps _ _ _ _ _ ?_ (subF_trans (by decide) hF)
  refine State.openWindow_keeps _ _ _ _ _ ?_ (subF_trans (by decide) hF)
  exact k2247

theorem State.patchWrite_keeps {fs : List Zone} {s0 : State} (s : State) (b : List Byte) (h1 : Keeps fs s0 s) (hF : subF [.cs] fs = true) :
    Keeps fs s0 (State.patchWrite s b) := by
  unfold State.patchWrite
  extract_lets -merge -underBinder y2251 y2252 y2253
  have k2254 : ∀ z2255 z2257, Keeps fs s0 z2255 → Keeps fs s0 (y2252 z2255 z2257) := by
    intro z2255 z2257 h2256
    unfold y2252
    split
    · refine keeps_foldl _ _ ?_ ?_
      · exact h2256
      · intro z2258 z2260 h2259
        extract_lets -merge -underBinder y2261
        refine Keeps.upd ?_ (.inr rfl) (.inl ⟨rfl, rfl⟩) (.inr rfl) (.inr rfl) (.inl (alw hF (by decide))) (.inl ⟨rfl, rfl⟩) (.inl ⟨rfl, rfl⟩) (.inl rfl) (.inr rfl) (.inr rfl) (.inr rfl) (.inr rfl) (.inr ⟨rfl, rfl⟩) (.inr rfl) (.inr rfl) (.inr rfl) (.inr rfl) (.inr rfl) (.inr rfl) (.inr rfl) (.inr rfl) (.inr rfl) (.inr rfl) (.inr rfl) (.inr rfl) (.inr rfl) (.inr rfl) (.inr rfl) (.inl rfl) rfl
        exact h2259
    · exact h2256
  have k2262 : ∀ z2263 z2265, Keeps fs s0 z2263 → Keeps fs s0 (y2253 z2263 z2265) := by
    intro z2263 z2265 h2264
    unfold y2253
    split
    · extract_lets -merge -underBinder y2266
      refine Keeps.upd ?_ (.inr rfl) (.inl ⟨rfl, rfl⟩) (.inr rfl) (.inr rfl) (.inl (alw hF (by decide))) (.inl ⟨rfl, rfl⟩) (.inl ⟨rfl, rfl⟩) (.inl rfl) (.inr rfl) (.inr rfl) (.inr rfl) (.inr rfl) (.inr ⟨rfl, rfl⟩) (.inr rfl) (.inr rfl) (.inr rfl) (.inr rfl) (.inr rfl) (.inr rfl) (.inr rfl) (.inr rfl) (.inr rfl) (.inr rfl) (.inr rfl) (.inr rfl) (.inr rfl) (.inr rfl) (.inr rfl) (.inl rfl) rfl
      exact h2264
    · exact h2264
  refine keeps_foldl _ _ ?_ ?_
  · refine keeps_foldl _ _ ?_ ?_
    · exact h1
    · exact k2254
  · exact k2262

theorem State.loadPatch_keeps {fs : List Zone} {s0 : State} (s : State) (h1 : Keeps fs s0 s) (hF : subF [.block 2, .upd, .cs, .block 17, .block 15] fs = true) :
    Keeps fs s0 (State.loadPatch s) := by
  unfold State.loadPatch
  extract_lets -merge -underBinder y2267 y2268 y2269 y2270 y2271 y2272 y2273 y2274
  have k2275 : Keeps fs s0 y2267 := by
    refine State.slotShow_keeps _ _ ?_ (subF_trans (by decide) hF)
    refine State.trialVerify_keeps _ _ ?_ (subF_trans (by decide) hF)
    exact h1
  have k2276 : Keeps fs s0 y2273 := by
    refine keeps_ite ?_ ?_
    · refine State.patchWrite_keeps _ _ ?_ (subF_trans (by decide) hF)
      exact k2275
    · exact k2275
  refine setFld_keeps _ _ _ _ ?_ (alwB hF 2 rfl (by decide))
  refine setBit_keeps _ _ _ ?_ (alwB hF 17 rfl (by decide))
  refine setReg_keeps _ _ ?_ (alwB hF 15 rfl (by decide))
  exact k2276

theorem State.loadBootScene_keeps {fs : List Zone} {s0 : State} (s : State) (h1 : Keeps fs s0 s) (hF : subF [.block 2, .upd, .il, .sec, .block 1, .out, .block 8, .free] fs = true) :
    Keeps fs s0 (State.loadBootScene s) := by
  unfold State.loadBootScene
  extract_lets -merge -underBinder y2277
  have k2278 : Keeps fs s0 y2277 := by
    refine State.slotShow_keeps _ _ ?_ (subF_trans (by decide) hF)
    refine State.trialVerify_keeps _ _ ?_ (subF_trans (by decide) hF)
    exact h1
  clear_value y2277
  split
  · exact k2278
  · extract_lets -merge -underBinder y2279 y2280 y2281 y2282 y2283 y2284 y2285
    have k2286 : Keeps fs s0 y2283 := by
      refine keeps_ite ?_ ?_
      · exact k2278
      · refine Keeps.upd ?_ (.inr rfl) (.inl ⟨rfl, rfl⟩) (.inr rfl) (.inr rfl) (.inr rfl) (.inl ⟨rfl, rfl⟩) (.inl ⟨rfl, rfl⟩) (.inl rfl) (.inr rfl) (.inr rfl) (.inr rfl) (.inr rfl) (.inr ⟨rfl, rfl⟩) (.inr rfl) (.inr rfl) (.inr rfl) (.inr rfl) (.inr rfl) (.inr rfl) (.inr rfl) (.inr rfl) (.inr rfl) (.inr rfl) (.inr rfl) (.inl (alw hF (by decide))) (.inr rfl) (.inr rfl) (.inr rfl) (.inl rfl) rfl
        exact k2278
    clear_value y2283
    have k2287 : Keeps fs s0 y2284 := by
      refine keeps_ite ?_ ?_
      · refine State.writeRecords_keeps _ _ ?_ (subF_trans (by decide) hF)
        exact k2286
      · exact k2286
    clear_value y2284
    have k2288 : Keeps fs s0 y2285 := by
      refine State.ddrCfgWrite_keeps _ _ ?_ (subF_trans (by decide) hF)
      exact k2287
    clear_value y2285
    refine setFld_keeps _ _ _ _ ?_ (alwB hF 2 rfl (by decide))
    refine State.ddrCfgWrite_keeps _ _ ?_ (subF_trans (by decide) hF)
    exact k2288

theorem State.fabSettled_keeps {fs : List Zone} {s0 : State} (s : State) (h1 : Keeps fs s0 s) (hF : subF [.block 1, .out, .block 7, .fab] fs = true) :
    Keeps fs s0 (State.fabSettled s) := by
  unfold State.fabSettled
  extract_lets -merge -underBinder y2289
  have k2290 : Keeps fs s0 y2289 := by
    refine keeps_ite ?_ ?_
    · refine State.fabLoaded_keeps _ _ ?_ (subF_trans (by decide) hF)
      exact h1
    · exact h1
  refine State.releaseStage_keeps _ ?_ (subF_trans (by decide) hF)
  refine State.releaseStage_keeps _ ?_ (subF_trans (by decide) hF)
  refine State.releaseStage_keeps _ ?_ (subF_trans (by decide) hF)
  exact k2290

theorem State.fabHeld_keeps {fs : List Zone} {s0 : State} (s : State) (h1 : Keeps fs s0 s) (hF : subF [.block 7, .jt, .fab, .block 1, .out] fs = true) :
    Keeps fs s0 (State.fabHeld s) := by
  unfold State.fabHeld
  refine keeps_ite ?_ ?_
  · refine State.fabHold_keeps _ ?_ (subF_trans (by decide) hF)
    exact h1
  · exact h1

theorem State.startFabric_keeps {fs : List Zone} {s0 : State} (s : State) (h1 : Keeps fs s0 s) (hF : subF [.block 1, .out, .block 7, .fab, .block 2, .upd, .jt] fs = true) :
    Keeps fs s0 (State.startFabric s) := by
  unfold State.startFabric
  extract_lets -merge -underBinder y2291 y2292
  have k2293 : Keeps fs s0 y2291 := by
    refine State.fabSettled_keeps _ ?_ (subF_trans (by decide) hF)
    refine State.slotShow_keeps _ _ ?_ (subF_trans (by decide) hF)
    refine State.trialVerify_keeps _ _ ?_ (subF_trans (by decide) hF)
    exact h1
  have k2294 : Keeps fs s0 y2292 := by
    refine keeps_ite ?_ ?_
    · exact k2293
    · refine State.fabHeld_keeps _ ?_ (subF_trans (by decide) hF)
      exact k2293
  split
  · refine State.fabHeld_keeps _ ?_ (subF_trans (by decide) hF)
    exact k2294
  · extract_lets -merge -underBinder y2295 y2296 y2297
    have k2298 : Keeps fs s0 y2296 := by
      refine State.fabStartStream_keeps _ ?_ (subF_trans (by decide) hF)
      refine setFld_keeps _ _ _ _ ?_ (alwB hF 7 rfl (by decide))
      refine State.fabHeld_keeps _ ?_ (subF_trans (by decide) hF)
      exact k2294
    have k2299 : Keeps fs s0 y2297 := by
      refine State.fabLoaded_keeps _ _ ?_ (subF_trans (by decide) hF)
      refine keeps_foldl _ _ ?_ ?_
      · exact k2298
      · intro z2300 z2302 h2301
        refine State.fabData_keeps _ _ ?_ (subF_trans (by decide) hF)
        exact h2301
    refine keeps_ite ?_ ?_
    · exact k2294
    · refine keeps_ite ?_ ?_
      · refine State.releaseStage_keeps _ ?_ (subF_trans (by decide) hF)
        refine State.releaseStage_keeps _ ?_ (subF_trans (by decide) hF)
        refine State.releaseStage_keeps _ ?_ (subF_trans (by decide) hF)
        refine State.fabRelease_keeps _ ?_ (subF_trans (by decide) hF)
        exact k2299
      · exact k2299

theorem State.startArray_keeps {fs : List Zone} {s0 : State} (s : State) (h1 : Keeps fs s0 s) (hF : subF [.block 16, .trv, .arr, .block 1, .out, .block 4, .planes] fs = true) :
    Keeps fs s0 (State.startArray s) := by
  unfold State.startArray
  extract_lets -merge -underBinder y2303 y2304 y2305
  have k2306 : ∀ z2307 z2309, Keeps fs s0 z2307 → Keeps fs s0 (y2303 z2307 z2309) := by
    intro z2307 z2309 h2308
    unfold y2303
    split
    · exact h2308
    · refine State.prowMapWrite_keeps _ _ _ _ ?_ (subF_trans (by decide) hF)
      exact h2308
    · refine State.prowMapWrite_keeps _ _ _ _ ?_ (subF_trans (by decide) hF)
      exact h2308
  have k2310 : ∀ z2311 z2312 z2314, Keeps fs s0 z2312 → Keeps fs s0 (y2304 z2311 z2312 z2314) := by
    intro z2311 z2312 z2314 h2313
    refine State.colSubWrite_keeps _ _ _ _ ?_ (subF_trans (by decide) hF)
    exact h2313
  have k2315 : Keeps fs s0 y2305 := by
    refine keeps_foldl _ _ ?_ ?_
    · refine keeps_foldl _ _ ?_ ?_
      · exact h1
      · exact k2306
    · intro z2316 z2318 h2317
      refine k2310 _ _ _ ?_
      exact h2317
  refine State.showFailed_keeps _ ?_ (subF_trans (by decide) hF)
  refine keeps_foldl _ _ ?_ ?_
  · refine State.clearArray_keeps _ ?_ (subF_trans (by decide) hF)
    exact k2315
  · intro z2319 z2321 h2320
    refine k2310 _ _ _ ?_
    exact h2320

theorem State.programStaged_keeps {fs : List Zone} {s0 : State} (s : State) (h1 : Keeps fs s0 s) (hF : subF [.block 7, .fab] fs = true) :
    Keeps fs s0 (State.programStaged s) := by
  unfold State.programStaged
  refine keeps_ite ?_ ?_
  · refine State.fabProgram_keeps _ ?_ (subF_trans (by decide) hF)
    exact h1
  · exact h1

theorem State.phaseStable_keeps {fs : List Zone} {s0 : State} (s : State) (h1 : Keeps fs s0 s) (hF : subF [.pwr] fs = true) :
    Keeps fs s0 (State.phaseStable s) := by
  unfold State.phaseStable
  extract_lets -merge -underBinder y2322
  refine Keeps.upd ?_ (.inr rfl) (.inl ⟨rfl, rfl⟩) (.inr rfl) (.inr rfl) (.inr rfl) (.inl ⟨rfl, rfl⟩) (.inl ⟨rfl, rfl⟩) (.inl rfl) (.inr rfl) (.inr rfl) (.inr rfl) (.inr rfl) (.inr ⟨rfl, rfl⟩) (.inr rfl) (.inr rfl) (.inr rfl) (.inr rfl) (.inl (alw hF (by decide))) (.inr rfl) (.inr rfl) (.inr rfl) (.inr rfl) (.inr rfl) (.inr rfl) (.inr rfl) (.inr rfl) (.inr rfl) (.inr rfl) (.inl rfl) rfl
  exact h1

theorem State.readyBits_keeps {fs : List Zone} {s0 : State} (s : State) (h1 : Keeps fs s0 s) (hF : subF [.block 0, .free, .block 2] fs = true) :
    Keeps fs s0 (State.readyBits s) := by
  unfold State.readyBits
  extract_lets -merge -underBinder y2323 y2324 y2325 y2326
  have k2327 : Keeps fs s0 y2324 := by
    refine setBit_keeps _ _ _ ?_ (alwB hF 0 rfl (by decide))
    refine State.useFree_keeps _ ?_ (subF_trans (by decide) hF)
    exact h1
  have k2328 : Keeps fs s0 y2325 := by
    refine setFld_keeps _ _ _ _ ?_ (alwB hF 2 rfl (by decide))
    exact k2327
  have k2329 : Keeps fs s0 y2326 := by
    refine setFld_keeps _ _ _ _ ?_ (alwB hF 2 rfl (by decide))
    exact k2328
  refine setBit_keeps _ _ _ ?_ (alwB hF 2 rfl (by decide))
  exact k2329

theorem State.startReady_keeps {fs : List Zone} {s0 : State} (s : State) (h1 : Keeps fs s0 s) (hF : subF [.pwr, .block 0, .free, .block 2, .log, .block 1, .out, .block 7, .fab] fs = true) :
    Keeps fs s0 (State.startReady s) := by
  unfold State.startReady
  extract_lets -merge -underBinder y2330 y2331 y2332
  have k2333 : Keeps fs s0 y2330 := by
    refine State.phaseStable_keeps _ ?_ (subF_trans (by decide) hF)
    refine State.readyBits_keeps _ ?_ (subF_trans (by decide) hF)
    exact h1
  have k2334 : Keeps fs s0 y2331 := by
    refine State.logEvent_keeps _ _ _ _ ?_ (subF_trans (by decide) hF)
    exact k2333
  have k2335 : Keeps fs s0 y2332 := by
    refine State.fire_keeps _ _ ?_ (subF_trans (by decide) hF)
    exact k2334
  refine State.programStaged_keeps _ ?_ (subF_trans (by decide) hF)
  exact k2335

theorem State.listDo_keeps {fs : List Zone} {s0 : State} (s : State) (op : ℕ) (q : Req) (h1 : Keeps fs s0 s) (hF : subF [.block 0, .sm, .block 1, .out, .tkt, .free, .memo, .sp, .block 8, .block 3, .kernels, .block 20, .streams, .pipes, .il, .block 6, .cpl] fs = true) :
    Keeps fs s0 (State.listDo s op q) := by
  unfold State.listDo
  split
  · refine State.sceneLoad_keeps _ _ _ _ ?_ (subF_trans (by decide) hF)
    exact h1
  · refine State.layerSet_keeps _ _ ?_ (subF_trans (by decide) hF)
    exact h1
  · refine State.layerCommit_keeps _ _ ?_ (subF_trans (by decide) hF)
    exact h1
  · split
    · refine State.mapSlot_keeps _ _ ?_ (subF_trans (by decide) hF)
      exact h1
    · refine State.mapCommit_keeps _ _ ?_ (subF_trans (by decide) hF)
      exact h1
    · refine State.mapArm_keeps _ _ ?_ (subF_trans (by decide) hF)
      exact h1
    · refine State.mapReserved_keeps _ _ ?_ (subF_trans (by decide) hF)
      exact h1
  · refine keeps_ite ?_ ?_
    · refine State.kernelUnload_keeps _ _ ?_ (subF_trans (by decide) hF)
      exact h1
    · refine State.kernelLoad_keeps _ _ _ ?_ (subF_trans (by decide) hF)
      exact h1
  · refine State.cameraConfig_keeps _ _ ?_ (subF_trans (by decide) hF)
    exact h1
  · refine keeps_ite ?_ ?_
    · refine State.displayRetrain_keeps _ _ ?_ (subF_trans (by decide) hF)
      exact h1
    · refine State.displayConfig_keeps _ _ _ _ ?_ (subF_trans (by decide) hF)
      exact h1
  · refine State.couplerPair_keeps _ _ ?_ (subF_trans (by decide) hF)
    exact h1
  · refine State.smFail_keeps _ _ _ _ ?_ (subF_trans (by decide) hF)
    exact h1

theorem State.listStop_keeps {fs : List Zone} {s0 : State} (s : State) (idx : ℕ) (status : ℕ) (h1 : Keeps fs s0 s) (hF : subF [.block 1, .out, .block 2] fs = true) :
    Keeps fs s0 (State.listStop s idx status) := by
  unfold State.listStop
  refine State.fire_keeps _ _ ?_ (subF_trans (by decide) hF)
  refine setFld_keeps _ _ _ _ ?_ (alwB hF 2 rfl (by decide))
  refine setFld_keeps _ _ _ _ ?_ (alwB hF 2 rfl (by decide))
  exact h1

theorem State.listRun_keeps {fs : List Zone} {s0 : State} (x1 : ℕ) (x2 : State) (h2 : Keeps fs s0 x2) (hF : subF [.pwr, .block 0, .free, .block 2, .log, .block 1, .out, .block 7, .fab, .sm, .tkt, .memo, .sp, .block 8, .block 3, .kernels, .block 20, .streams, .pipes, .il, .block 6, .cpl] fs = true) :
    Keeps fs s0 (State.listRun x1 x2) := by
  induction x1 generalizing x2 with
  | zero => exact h2
  | succ n ih =>
    have kb : ∀ (s : State) b st, Keeps fs s0 s → Keeps fs s0 { s with sm := { s.sm with boot := b, status := st } } := fun s b st h =>
      Keeps.upd h (.inr rfl) (.inl ⟨rfl, rfl⟩) (.inr rfl) (.inr rfl) (.inr rfl) (.inl ⟨rfl, rfl⟩) (.inl ⟨rfl, rfl⟩) (.inl rfl) (.inr rfl) (.inr rfl) (.inr rfl) (.inr rfl) (.inr ⟨rfl, rfl⟩) (.inr rfl) (.inr rfl) (.inr rfl) (.inr rfl) (.inr rfl) (.inr rfl) (.inr rfl) (.inl (alw hF (by decide))) (.inr rfl) (.inr rfl) (.inr rfl) (.inr rfl) (.inr rfl) (.inr rfl) (.inr rfl) (.inl rfl) rfl
    have kf : ∀ (s : State), Keeps fs s0 s → Keeps fs s0 ({ s with sm := { s.sm with boot := none, status := none } } : State).startReady := fun s h =>
      State.startReady_keeps _ (kb _ _ _ h) (subF_trans (by decide) hF)
    unfold State.listRun
    split
    · exact h2
    · refine keeps_ite h2 ?_
      dsimp only
      split
      · exact kf _ (State.listStop_keeps _ _ _ h2 (subF_trans (by decide) hF))
      · refine keeps_ite (kf _ h2) ?_
        apply ih
        have k := State.listDo_keeps (fs := fs) (s0 := s0)
        refine keeps_ite (setFld_keeps _ _ _ _ ?_ (alwB hF 2 rfl (by decide))) ?_ <;>
          exact k _ _ _ (kb _ _ _ h2) (subF_trans (by decide) hF)

theorem State.startBegin_keeps {fs : List Zone} {s0 : State} (s : State) (cold : Bool) (h1 : Keeps fs s0 s) (hF : subF [.block 8, .block 1, .out, .memo, .sec, .block 6, .block 7, .sp, .disp, .block 2, .block 0, .upd, .block 16, .trv, .arr, .block 4, .planes, .fab, .jt, .il, .free, .cs, .block 17, .block 15, .block 18, .block 9, .sm, .pwr, .log] fs = true) :
    Keeps fs s0 (State.startBegin s cold) := by
  unfold State.startBegin
  extract_lets -merge -underBinder y2336 y2337
  have k2338 : Keeps fs s0 y2336 := by
    refine State.bootRom_keeps _ _ ?_ (subF_trans (by decide) hF)
    exact h1
  clear_value y2336
  have k2339 : Keeps fs s0 y2337 := by
    refine State.slotShow_keeps _ _ ?_ (subF_trans (by decide) hF)
    refine State.trialVerify_keeps _ _ ?_ (subF_trans (by decide) hF)
    refine State.sessionStart_keeps _ ?_ (subF_trans (by decide) hF)
    refine keeps_foldl _ _ ?_ ?_
    · exact k2338
    · intro z2340 z2342 h2341
      refine State.trialRule_keeps _ _ ?_ (subF_trans (by decide) hF)
      exact h2341
  clear_value y2337
  refine keeps_ite ?_ ?_
  · exact k2338
  · split
    · extract_lets -merge -underBinder y2343
      refine Keeps.upd ?_ (.inr rfl) (.inl ⟨rfl, rfl⟩) (.inr rfl) (.inl (alw hF (by decide))) (.inr rfl) (.inl ⟨rfl, rfl⟩) (.inl ⟨rfl, rfl⟩) (.inl rfl) (.inr rfl) (.inr rfl) (.inr rfl) (.inr rfl) (.inr ⟨rfl, rfl⟩) (.inr rfl) (.inr rfl) (.inr rfl) (.inr rfl) (.inr rfl) (.inr rfl) (.inr rfl) (.inr rfl) (.inr rfl) (.inr rfl) (.inr rfl) (.inr rfl) (.inr rfl) (.inr rfl) (.inr rfl) (.inl rfl) rfl
      exact k2339
    · extract_lets -merge -underBinder y2344
      have k2345 : Keeps fs s0 y2344 := by
        refine State.startArray_keeps _ ?_ (subF_trans (by decide) hF)
        refine State.startFabric_keeps _ ?_ (subF_trans (by decide) hF)
        refine State.loadBootScene_keeps _ ?_ (subF_trans (by decide) hF)
        refine State.loadPatch_keeps _ ?_ (subF_trans (by decide) hF)
        refine State.smSetUp_keeps _ ?_ (subF_trans (by decide) hF)
        refine State.loadStationmaster_keeps _ _ ?_ (subF_trans (by decide) hF)
        exact k2339
      clear_value y2344
      split
      · refine State.startReady_keeps _ ?_ (subF_trans (by decide) hF)
        exact k2345
      · extract_lets -merge -underBinder y2346
        refine setFld_keeps _ _ _ _ ?_ (alwB hF 2 rfl (by decide))
        refine Keeps.upd ?_ (.inr rfl) (.inl ⟨rfl, rfl⟩) (.inr rfl) (.inr rfl) (.inr rfl) (.inl ⟨rfl, rfl⟩) (.inl ⟨rfl, rfl⟩) (.inl rfl) (.inr rfl) (.inr rfl) (.inr rfl) (.inr rfl) (.inr ⟨rfl, rfl⟩) (.inr rfl) (.inr rfl) (.inr rfl) (.inr rfl) (.inr rfl) (.inr rfl) (.inr rfl) (.inl (alw hF (by decide))) (.inr rfl) (.inr rfl) (.inr rfl) (.inr rfl) (.inr rfl) (.inr rfl) (.inr rfl) (.inl rfl) rfl
        exact k2345

theorem State.startData_keeps {fs : List Zone} {s0 : State} (s : State) (h1 : Keeps fs s0 s) (hF : subF [.pwr, .block 0, .free, .block 2, .log, .block 1, .out, .block 7, .fab, .sm, .tkt, .memo, .sp, .block 8, .block 3, .kernels, .block 20, .streams, .pipes, .il, .block 6, .cpl, .ddr] fs = true) :
    Keeps fs s0 (State.startData s) := by
  unfold State.startData
  split
  · exact h1
  · extract_lets -merge -underBinder y2347 y2348 y2349
    refine State.listRun_keeps _ _ ?_ (subF_trans (by decide) hF)
    refine setFld_keeps _ _ _ _ ?_ (alwB hF 2 rfl (by decide))
    refine State.ddrWriteReq_keeps _ _ _ ?_ (subF_trans (by decide) hF)
    exact h1

theorem State.startGo_keeps {fs : List Zone} {s0 : State} (s : State) (cold : Bool) (h1 : Keeps fs s0 s) (hF : subF [.block 8, .block 1, .out, .memo, .sec, .block 6, .block 7, .sp, .disp, .block 2, .block 0, .upd, .block 16, .trv, .arr, .block 4, .planes, .fab, .jt, .il, .free, .cs, .block 17, .block 15, .block 18, .block 9, .sm, .pwr, .log, .tkt, .block 3, .kernels, .block 20, .streams, .pipes, .cpl, .ddr] fs = true) :
    Keeps fs s0 (State.startGo s cold) := by
  unfold State.startGo
  refine keeps_ite ?_ ?_
  · exact h1
  · refine keeps_ite ?_ ?_
    · exact h1
    · split
      · refine State.startBegin_keeps _ _ ?_ (subF_trans (by decide) hF)
        exact h1
      · refine keeps_ite ?_ ?_
        · refine State.startData_keeps _ ?_ (subF_trans (by decide) hF)
          exact h1
        · exact h1
      · refine State.listRun_keeps _ _ ?_ (subF_trans (by decide) hF)
        exact h1

theorem execColdStart_keeps (s : State) : ∃ s', execColdStart s = .next s' ∧
    Keeps [.block 8, .block 1, .out, .memo, .sec, .block 6, .block 7, .sp, .disp, .block 2, .block 0, .upd, .block 16, .trv, .arr, .block 4, .planes, .fab, .jt, .il, .free, .cs, .block 17, .block 15, .block 18, .block 9, .sm, .pwr, .log, .tkt, .block 3, .kernels, .block 20, .streams, .pipes, .cpl, .ddr] s s' := by
  have hF : subF [.block 8, .block 1, .out, .memo, .sec, .block 6, .block 7, .sp, .disp, .block 2, .block 0, .upd, .block 16, .trv, .arr, .block 4, .planes, .fab, .jt, .il, .free, .cs, .block 17, .block 15, .block 18, .block 9, .sm, .pwr, .log, .tkt, .block 3, .kernels, .block 20, .streams, .pipes, .cpl, .ddr] [.block 8, .block 1, .out, .memo, .sec, .block 6, .block 7, .sp, .disp, .block 2, .block 0, .upd, .block 16, .trv, .arr, .block 4, .planes, .fab, .jt, .il, .free, .cs, .block 17, .block 15, .block 18, .block 9, .sm, .pwr, .log, .tkt, .block 3, .kernels, .block 20, .streams, .pipes, .cpl, .ddr] = true := by decide
  unfold execColdStart
  refine ⟨_, rfl, ?_⟩
  refine State.startGo_keeps _ _ ?_ (subF_trans (by decide) hF)
  exact (Keeps.rfl' _ _)

theorem execWarmStart_keeps (s : State) : ∃ s', execWarmStart s = .next s' ∧
    Keeps [.block 8, .block 1, .out, .memo, .sec, .block 6, .block 7, .sp, .disp, .block 2, .block 0, .upd, .block 16, .trv, .arr, .block 4, .planes, .fab, .jt, .il, .free, .cs, .block 17, .block 15, .block 18, .block 9, .sm, .pwr, .log, .tkt, .block 3, .kernels, .block 20, .streams, .pipes, .cpl, .ddr] s s' := by
  have hF : subF [.block 8, .block 1, .out, .memo, .sec, .block 6, .block 7, .sp, .disp, .block 2, .block 0, .upd, .block 16, .trv, .arr, .block 4, .planes, .fab, .jt, .il, .free, .cs, .block 17, .block 15, .block 18, .block 9, .sm, .pwr, .log, .tkt, .block 3, .kernels, .block 20, .streams, .pipes, .cpl, .ddr] [.block 8, .block 1, .out, .memo, .sec, .block 6, .block 7, .sp, .disp, .block 2, .block 0, .upd, .block 16, .trv, .arr, .block 4, .planes, .fab, .jt, .il, .free, .cs, .block 17, .block 15, .block 18, .block 9, .sm, .pwr, .log, .tkt, .block 3, .kernels, .block 20, .streams, .pipes, .cpl, .ddr] = true := by decide
  unfold execWarmStart
  refine ⟨_, rfl, ?_⟩
  refine State.startGo_keeps _ _ ?_ (subF_trans (by decide) hF)
  exact (Keeps.rfl' _ _)

end Sys2Proof.Machine
end

