-- ==== Sys2Proof/Laws/KeepsRegAccess.lean ====
section
/-! SUPPORT. What each operation of Machine/RegAccess.lean can change, one lemma an operation (Laws/KeepsBase.lean). -/

-- elaborated one declaration at a time, so that the package compiles as one text in bounded memory
set_option Elab.async false

namespace Sys2Proof.Machine

theorem State.judged_keeps {fs : List Zone} {s0 : State} (s : State) (r : ℕ) (b : ℕ) (f : State → State) (h1 : Keeps fs s0 s) (h4 : ∀ u2350, Keeps fs s0 u2350 → Keeps fs s0 (f u2350)) (hF : subF [.regs] fs = true) :
    Keeps fs s0 (State.judged s r b f).1 := by
  unfold State.judged
  extract_lets -merge -underBinder y2351
  have k2352 : Keeps fs s0 y2351 := by
    refine h4 _ ?_
    refine setBit_keeps _ _ _ ?_ (alwR hF (by decide))
    exact h1
  refine keeps_mk_fst ?_
  refine setBit_keeps _ _ _ ?_ (alwR hF (by decide))
  exact k2352

theorem State.memFirmware_keeps {fs : List Zone} {s0 : State} (s : State) (a : ℕ) (v : Word) (h1 : Keeps fs s0 s) (hF : subF [.block 8, .regs, .memo] fs = true) :
    Keeps fs s0 (State.memFirmware s a v).1 := by
  unfold State.memFirmware
  extract_lets -merge -underBinder y2353
  refine keeps_ite_fst ?_ ?_
  · refine keeps_mk_fst ?_
    refine keeps_ite ?_ ?_
    · refine State.memFillStart_keeps _ ?_ (subF_trans (by decide) hF)
      exact h1
    · exact h1
  · refine keeps_ite_fst ?_ ?_
    · refine State.judged_keeps _ _ _ _ ?_ ?_ (subF_trans (by decide) hF)
      · exact h1
      · intro z2354 h2355
        refine State.lcReqWrite_keeps _ _ ?_ (subF_trans (by decide) hF)
        exact h2355
    · refine keeps_ite_fst ?_ ?_
      · refine State.judged_keeps _ _ _ _ ?_ ?_ (subF_trans (by decide) hF)
        · exact h1
        · intro z2356 h2357
          refine State.ddrCfgWrite_keeps _ _ ?_ (subF_trans (by decide) hF)
          exact h2357
      · refine keeps_ite_fst ?_ ?_
        · refine State.judged_keeps _ _ _ _ ?_ ?_ (subF_trans (by decide) hF)
          · exact h1
          · intro z2358 h2359
            refine State.remapWrite_keeps _ _ _ _ ?_ (subF_trans (by decide) hF)
            exact h2359
        · refine keeps_ite_fst ?_ ?_
          · refine State.judged_keeps _ _ _ _ ?_ ?_ (subF_trans (by decide) hF)
            · exact h1
            · intro z2360 h2361
              refine State.bktCfgWrite_keeps _ _ _ ?_ (subF_trans (by decide) hF)
              exact h2361
          · refine keeps_ite_fst ?_ ?_
            · refine keeps_mk_fst ?_
              refine State.logAck_keeps _ _ _ ?_ (subF_trans (by decide) hF)
              exact h1
            · refine keeps_mk_fst ?_
              refine codeWrite_keeps _ _ ?_ (alwR hF (by decide))
              exact h1

theorem State.memOther_keeps {fs : List Zone} {s0 : State} (s : State) (a : ℕ) (v : Word) (h1 : Keeps fs s0 s) (hF : subF [.block 8, .regs] fs = true) :
    Keeps fs s0 (State.memOther s a v).1 := by
  unfold State.memOther
  split
  · refine keeps_mk_fst ?_
    exact h1
  · extract_lets -merge -underBinder y2362 y2363 y2364 y2365
    have k2366 : Keeps fs s0 y2364 := by
      refine keeps_ite ?_ ?_
      · refine State.logAck_keeps _ _ _ ?_ (subF_trans (by decide) hF)
        exact h1
      · refine setReg_keeps _ _ ?_ (alwR hF (by decide))
        exact h1
    refine keeps_mk_fst ?_
    exact k2366

theorem State.arrWrite_keeps {fs : List Zone} {s0 : State} (s : State) (a : ℕ) (v : Word) (h1 : Keeps fs s0 s) (hF : subF [.block 16, .trv, .arr, .block 1, .out, .regs, .free, .planes, .disp, .block 17, .sched, .kernels, .running, .log, .memo, .sp, .block 8] fs = true) :
    Keeps fs s0 (State.arrWrite s a v).1 := by
  unfold State.arrWrite
  extract_lets -merge -underBinder y2367 y2368
  have k2369 : Keeps fs s0 y2367 := by
    refine keeps_ite ?_ ?_
    · refine State.bistAbort_keeps _ ?_ (subF_trans (by decide) hF)
      exact h1
    · exact h1
  have k2370 : Keeps fs s0 y2368 := by
    refine State.bistStart_keeps _ _ ?_ (subF_trans (by decide) hF)
    exact k2369
  refine keeps_ite_fst ?_ ?_
  · refine keeps_mk_fst ?_
    refine State.arrEdgeWrite_keeps _ _ ?_ (subF_trans (by decide) hF)
    exact h1
  · refine keeps_ite_fst ?_ ?_
    · refine keeps_mk_fst ?_
      refine State.prowMapWrite_keeps _ _ _ _ ?_ (subF_trans (by decide) hF)
      exact h1
    · refine keeps_ite_fst ?_ ?_
      · refine keeps_mk_fst ?_
        refine codeWrite_keeps _ _ ?_ (alwR hF (by decide))
        refine setReg_keeps _ _ ?_ (alwB hF 16 rfl (by decide))
        refine setFld_keeps _ _ _ _ ?_ (alwR hF (by decide))
        exact h1
      · refine keeps_ite_fst ?_ ?_
        · refine keeps_mk_fst ?_
          refine keeps_ite ?_ ?_
          · refine State.trvAbort_keeps _ ?_ (subF_trans (by decide) hF)
            exact h1
          · exact h1
        · refine keeps_ite_fst ?_ ?_
          · refine keeps_mk_fst ?_
            refine keeps_ite ?_ ?_
            · refine State.colmonClr_keeps _ _ ?_ (subF_trans (by decide) hF)
              exact h1
            · exact h1
          · refine keeps_ite_fst ?_ ?_
            · refine State.judged_keeps _ _ _ _ ?_ ?_ (subF_trans (by decide) hF)
              · exact h1
              · intro z2371 h2372
                refine State.colSubWrite_keeps _ _ _ _ ?_ (subF_trans (by decide) hF)
                exact h2372
            · refine keeps_ite_fst ?_ ?_
              · refine State.judged_keeps _ _ _ _ ?_ ?_ (subF_trans (by decide) hF)
                · exact h1
                · intro z2373 h2374
                  refine State.mirrorWrite_keeps _ _ ?_ (subF_trans (by decide) hF)
                  exact h2374
              · refine keeps_ite_fst ?_ ?_
                · refine keeps_ite_fst ?_ ?_
                  · refine keeps_mk_fst ?_
                    exact k2370
                  · refine keeps_mk_fst ?_
                    refine codeWrite_keeps _ _ ?_ (alwR hF (by decide))
                    exact k2369
                · refine keeps_mk_fst ?_
                  refine codeWrite_keeps _ _ ?_ (alwR hF (by decide))
                  exact h1

theorem State.csBlockWrite_keeps {fs : List Zone} {s0 : State} (s : State) (a : ℕ) (v : Word) (h1 : Keeps fs s0 s) (hF : subF [.block 17, .cs, .regs] fs = true) :
    Keeps fs s0 (State.csBlockWrite s a v).1 := by
  unfold State.csBlockWrite
  refine keeps_ite_fst ?_ ?_
  · refine State.csWrite_keeps _ _ ?_ (subF_trans (by decide) hF)
    exact h1
  · refine keeps_ite_fst ?_ ?_
    · refine State.decWrite_keeps _ _ ?_ (subF_trans (by decide) hF)
      exact h1
    · refine keeps_mk_fst ?_
      refine codeWrite_keeps _ _ ?_ (alwR hF (by decide))
      exact h1

theorem State.camWrite_keeps {fs : List Zone} {s0 : State} (s : State) (a : ℕ) (v : Word) (h1 : Keeps fs s0 s) (hF : subF [.block 20, .regs, .streams] fs = true) :
    Keeps fs s0 (State.camWrite s a v) := by
  unfold State.camWrite
  extract_lets -merge -underBinder y2375 y2376 y2377 y2378
  refine keeps_ite ?_ ?_
  · refine State.camCtlWrite_keeps _ _ _ ?_ (subF_trans (by decide) hF)
    exact h1
  · refine keeps_ite ?_ ?_
    · refine codeWrite_keeps _ _ ?_ (alwR hF (by decide))
      exact h1
    · refine keeps_ite ?_ ?_
      · refine State.camCfgWrite_keeps _ _ _ _ ?_ (subF_trans (by decide) hF)
        exact h1
      · refine keeps_ite ?_ ?_
        · refine State.camGeomWrite_keeps _ _ _ _ _ ?_ (alwR hF (by decide)) (subF_trans (by decide) hF)
          exact h1
        · refine codeWrite_keeps _ _ ?_ (alwR hF (by decide))
          exact h1

theorem State.pipeWrite_keeps {fs : List Zone} {s0 : State} (s : State) (a : ℕ) (v : Word) (h1 : Keeps fs s0 s) (hF : subF [.block 20, .pipes, .block 3, .block 1, .out, .free, .il, .regs] fs = true) :
    Keeps fs s0 (State.pipeWrite s a v).1 := by
  unfold State.pipeWrite
  extract_lets -merge -underBinder y2379 y2380 y2381 y2382
  have k2383 : Keeps fs s0 y2381 := by
    refine keeps_ite ?_ ?_
    · refine State.pipeCancel_keeps _ _ ?_ (subF_trans (by decide) hF)
      exact h1
    · exact h1
  have k2384 : Keeps fs s0 y2382.1 := by
    refine State.lutAccess_keeps _ _ _ _ ?_ (subF_trans (by decide) hF)
    exact h1
  refine keeps_ite_fst ?_ ?_
  · refine State.pipeCtlWrite_keeps _ _ _ ?_ (subF_trans (by decide) hF)
    exact h1
  · refine keeps_ite_fst ?_ ?_
    · refine State.pipeTimingWrite_keeps _ _ _ _ ?_ (alwR hF (by decide)) (subF_trans (by decide) hF)
      exact h1
    · refine keeps_ite_fst ?_ ?_
      · refine keeps_ite_fst ?_ ?_
        · refine State.pipeCommit_keeps _ _ ?_ (subF_trans (by decide) hF)
          exact k2383
        · refine keeps_mk_fst ?_
          exact k2383
      · refine keeps_ite_fst ?_ ?_
        · refine State.pipeLockWrite_keeps _ _ _ ?_ (subF_trans (by decide) hF)
          exact h1
        · refine keeps_ite_fst ?_ ?_
          · refine State.lutIdxWrite_keeps _ _ _ ?_ (subF_trans (by decide) hF)
            exact h1
          · refine keeps_ite_fst ?_ ?_
            · refine keeps_mk_fst ?_
              exact k2384
            · refine keeps_ite_fst ?_ ?_
              · refine State.pipePendWrite_keeps _ _ _ _ ?_ (alwR hF (by decide)) (subF_trans (by decide) hF)
                exact h1
              · refine keeps_mk_fst ?_
                refine codeWrite_keeps _ _ ?_ (alwR hF (by decide))
                exact h1

theorem State.blockWrite_keeps {fs : List Zone} {s0 : State} (s : State) (ini : ℕ) (a : ℕ) (v : Word) (rings : List ℕ) (h1 : Keeps fs s0 s) (hF : subF [.regs, .block 0, .tkt, .block 1, .out, .block 2, .pwr, .block 18, .jt, .sm, .block 20, .streams, .pipes, .block 3, .free, .il, .block 8, .block 5, .van, .block 6, .cpl, .block 7, .fab, .memo, .block 9, .block 16, .trv, .arr, .planes, .disp, .block 17, .sched, .kernels, .running, .log, .sp, .cs] fs = true) :
    Keeps fs s0 (State.blockWrite s ini a v rings).1 := by
  unfold State.blockWrite
  split
  · refine State.toWrite_keeps _ _ _ _ _ ?_ (subF_trans (by decide) hF)
    exact h1
  · refine State.icWrite_keeps _ _ _ _ ?_ (subF_trans (by decide) hF)
    exact h1
  · extract_lets -merge -underBinder y2385
    have k2386 : Keeps fs s0 y2385.1 := by
      refine State.pwrWrite_keeps _ _ _ _ ?_ (subF_trans (by decide) hF)
      exact h1
    refine keeps_mk_fst ?_
    refine State.resumeIf_keeps _ ?_ (subF_trans (by decide) hF)
    exact k2386
  · refine keeps_ite_fst ?_ ?_
    · refine State.ilWrite_keeps _ _ _ _ ?_ (subF_trans (by decide) hF)
      exact h1
    · refine keeps_mk_fst ?_
      exact h1
  · refine State.gvWrite_keeps _ _ _ ?_ (subF_trans (by decide) hF)
    exact h1
  · refine keeps_ite_fst ?_ ?_
    · refine State.judged_keeps _ _ _ _ ?_ ?_ (subF_trans (by decide) hF)
      · exact h1
      · intro z2387 h2388
        refine State.cplWrite_keeps _ _ _ _ ?_ (subF_trans (by decide) hF)
        exact h2388
    · refine State.cplWrite_keeps _ _ _ _ ?_ (subF_trans (by decide) hF)
      exact h1
  · refine keeps_ite_fst ?_ ?_
    · refine State.judged_keeps _ _ _ _ ?_ ?_ (subF_trans (by decide) hF)
      · exact h1
      · intro z2389 h2390
        refine State.fabWrite_keeps _ _ _ _ ?_ (subF_trans (by decide) hF)
        exact h2390
    · refine State.fabWrite_keeps _ _ _ _ ?_ (subF_trans (by decide) hF)
      exact h1
  · refine keeps_ite_fst ?_ ?_
    · refine State.memFirmware_keeps _ _ _ ?_ (subF_trans (by decide) hF)
      exact h1
    · refine State.memOther_keeps _ _ _ ?_ (subF_trans (by decide) hF)
      exact h1
  · refine State.fwWrite_keeps _ _ _ _ ?_ (subF_trans (by decide) hF)
    exact h1
  · refine State.arrWrite_keeps _ _ _ ?_ (subF_trans (by decide) hF)
    exact h1
  · refine State.csBlockWrite_keeps _ _ _ ?_ (subF_trans (by decide) hF)
    exact h1
  · refine State.jtWrite_keeps _ _ _ ?_ (subF_trans (by decide) hF)
    exact h1
  · refine keeps_ite_fst ?_ ?_
    · refine keeps_mk_fst ?_
      refine State.camWrite_keeps _ _ _ ?_ (subF_trans (by decide) hF)
      exact h1
    · refine State.pipeWrite_keeps _ _ _ ?_ (subF_trans (by decide) hF)
      exact h1
  · refine State.pipeWrite_keeps _ _ _ ?_ (subF_trans (by decide) hF)
    exact h1
  · refine keeps_mk_fst ?_
    exact h1

theorem State.regWrite_keeps {fs : List Zone} {s0 : State} (s : State) (ini : ℕ) (a : ℕ) (v : Word) (rings : List ℕ) (h1 : Keeps fs s0 s) (hF : subF [.regs, .block 0, .tkt, .block 1, .out, .block 2, .pwr, .block 18, .jt, .sm, .block 20, .streams, .pipes, .block 3, .free, .il, .block 8, .block 5, .van, .block 6, .cpl, .block 7, .fab, .memo, .block 9, .block 16, .trv, .arr, .planes, .disp, .block 17, .sched, .kernels, .running, .log, .sp, .cs] fs = true) :
    Keeps fs s0 (State.regWrite s ini a v rings).1 := by
  unfold State.regWrite
  refine keeps_ite_fst ?_ ?_
  · refine keeps_mk_fst ?_
    exact h1
  · refine keeps_ite_fst ?_ ?_
    · refine State.blockWrite_keeps _ _ _ _ _ ?_ (subF_trans (by decide) hF)
      exact h1
    · refine keeps_mk_fst ?_
      exact h1

theorem State.cycleWrite_keeps {fs : List Zone} {s0 : State} (s : State) (ini : ℕ) (a : ℕ) (v : Word) (rivals : List (ℕ × ℕ × Word)) (h1 : Keeps fs s0 s) (hF : subF [.regs, .block 0, .tkt, .block 1, .out, .block 2, .pwr, .block 18, .jt, .sm, .block 20, .streams, .pipes, .block 3, .free, .il, .block 8, .block 5, .van, .block 6, .cpl, .block 7, .fab, .memo, .block 9, .block 16, .trv, .arr, .planes, .disp, .block 17, .sched, .kernels, .running, .log, .sp, .cs] fs = true) :
    Keeps fs s0 (State.cycleWrite s ini a v rivals).1 := by
  unfold State.cycleWrite
  refine keeps_ite_fst ?_ ?_
  · refine keeps_mk_fst ?_
    exact h1
  · refine State.regWrite_keeps _ _ _ _ _ ?_ (subF_trans (by decide) hF)
    exact h1

theorem State.readEffect_keeps {fs : List Zone} {s0 : State} (s : State) (a : ℕ) (h1 : Keeps fs s0 s) (hF : subF [.block 16, .block 17, .free, .block 7, .block 20, .pipes, .regs] fs = true) :
    Keeps fs s0 (State.readEffect s a) := by
  unfold State.readEffect
  refine keeps_ite ?_ ?_
  · refine State.bscntLatch_keeps _ ?_ (subF_trans (by decide) hF)
    exact h1
  · refine keeps_ite ?_ ?_
    · refine State.csRead_keeps _ ?_ (subF_trans (by decide) hF)
      exact h1
    · refine keeps_ite ?_ ?_
      · refine State.fabRbRead_keeps _ ?_ (subF_trans (by decide) hF)
        exact h1
      · refine keeps_ite ?_ ?_
        · refine State.tsLoRead_keeps _ _ _ ?_ (subF_trans (by decide) hF)
          exact h1
        · refine keeps_ite ?_ ?_
          · refine State.lutAccess_keeps _ _ _ _ ?_ (subF_trans (by decide) hF)
            exact h1
          · split
            · refine keeps_ite ?_ ?_
              · refine State.useFree_keeps _ ?_ (subF_trans (by decide) hF)
                exact h1
              · refine setReg_keeps _ _ ?_ (alwR hF (by decide))
                exact h1
            · exact h1

theorem State.regRead_keeps {fs : List Zone} {s0 : State} (s : State) (a : ℕ) (h1 : Keeps fs s0 s) (hF : subF [.free, .block 16, .block 17, .block 7, .block 20, .pipes, .regs] fs = true) :
    Keeps fs s0 (State.regRead s a).1 := by
  unfold State.regRead
  refine keeps_mk_fst ?_
  refine keeps_ite ?_ ?_
  · refine State.useFree_keeps _ ?_ (subF_trans (by decide) hF)
    exact h1
  · refine State.readEffect_keeps _ _ ?_ (subF_trans (by decide) hF)
    exact h1

theorem execRegisterWrite_keeps (ini : ℕ) (addr : ℕ) (v : Word) (s : State) : ∃ s', execRegisterWrite ini addr v s = .next s' ∧
    Keeps [.regs, .block 0, .tkt, .block 1, .out, .block 2, .pwr, .block 18, .jt, .sm, .block 20, .streams, .pipes, .block 3, .free, .il, .block 8, .block 5, .van, .block 6, .cpl, .block 7, .fab, .memo, .block 9, .block 16, .trv, .arr, .planes, .disp, .block 17, .sched, .kernels, .running, .log, .sp, .cs] s s' := by
  have hF : subF [.regs, .block 0, .tkt, .block 1, .out, .block 2, .pwr, .block 18, .jt, .sm, .block 20, .streams, .pipes, .block 3, .free, .il, .block 8, .block 5, .van, .block 6, .cpl, .block 7, .fab, .memo, .block 9, .block 16, .trv, .arr, .planes, .disp, .block 17, .sched, .kernels, .running, .log, .sp, .cs] [.regs, .block 0, .tkt, .block 1, .out, .block 2, .pwr, .block 18, .jt, .sm, .block 20, .streams, .pipes, .block 3, .free, .il, .block 8, .block 5, .van, .block 6, .cpl, .block 7, .fab, .memo, .block 9, .block 16, .trv, .arr, .planes, .disp, .block 17, .sched, .kernels, .running, .log, .sp, .cs] = true := by decide
  unfold execRegisterWrite
  refine ⟨_, rfl, ?_⟩
  refine keeps_ite ?_ ?_
  · exact (Keeps.rfl' _ _)
  · refine State.regWrite_keeps _ _ _ _ _ ?_ (subF_trans (by decide) hF)
    exact (Keeps.rfl' _ _)

theorem State.peerAnswer_keeps {fs : List Zone} {s0 : State} (s : State) (p : ℕ) (r : Resp) (v : Word) (h1 : Keeps fs s0 s) (hF : subF [.cpl, .out] fs = true) :
    Keeps fs s0 (State.peerAnswer s p r v) := by
  unfold State.peerAnswer
  refine State.cplSend_keeps _ _ _ _ _ ?_ (subF_trans (by decide) hF)
  exact h1

theorem State.peerAccess_keeps {fs : List Zone} {s0 : State} (s : State) (p : ℕ) (f : CplFrame) (rivals : List (ℕ × ℕ × Word)) (h1 : Keeps fs s0 s) (hF : subF [.regs, .block 0, .tkt, .block 1, .out, .block 2, .pwr, .block 18, .jt, .sm, .block 20, .streams, .pipes, .block 3, .free, .il, .block 8, .block 5, .van, .block 6, .cpl, .block 7, .fab, .memo, .block 9, .block 16, .trv, .arr, .planes, .disp, .block 17, .sched, .kernels, .running, .log, .sp, .cs] fs = true) :
    Keeps fs s0 (State.peerAccess s p f rivals) := by
  unfold State.peerAccess
  extract_lets -merge -underBinder y2391 y2392 y2393 y2394
  have k2395 : Keeps fs s0 y2393.1 := by
    refine State.cycleWrite_keeps _ _ _ _ _ ?_ (subF_trans (by decide) hF)
    exact h1
  have k2396 : Keeps fs s0 y2394.1 := by
    refine State.regRead_keeps _ _ ?_ (subF_trans (by decide) hF)
    exact h1
  refine keeps_ite ?_ ?_
  · refine keeps_ite ?_ ?_
    · refine State.peerAnswer_keeps _ _ _ _ ?_ (subF_trans (by decide) hF)
      exact k2395
    · refine State.peerAnswer_keeps _ _ _ _ ?_ (subF_trans (by decide) hF)
      exact h1
  · refine keeps_ite ?_ ?_
    · refine State.peerAnswer_keeps _ _ _ _ ?_ (subF_trans (by decide) hF)
      exact k2396
    · refine State.peerAnswer_keeps _ _ _ _ ?_ (subF_trans (by decide) hF)
      exact h1

theorem execReq_keeps (p : ℕ) (f : CplFrame) (rivals : List (ℕ × ℕ × Word)) (s : State) : ∃ s', execReq p f rivals s = .next s' ∧
    Keeps [.block 1, .out, .block 6, .cpl, .regs, .block 0, .tkt, .block 2, .pwr, .block 18, .jt, .sm, .block 20, .streams, .pipes, .block 3, .free, .il, .block 8, .block 5, .van, .block 7, .fab, .memo, .block 9, .block 16, .trv, .arr, .planes, .disp, .block 17, .sched, .kernels, .running, .log, .sp, .cs] s s' := by
  have hF : subF [.block 1, .out, .block 6, .cpl, .regs, .block 0, .tkt, .block 2, .pwr, .block 18, .jt, .sm, .block 20, .streams, .pipes, .block 3, .free, .il, .block 8, .block 5, .van, .block 7, .fab, .memo, .block 9, .block 16, .trv, .arr, .planes, .disp, .block 17, .sched, .kernels, .running, .log, .sp, .cs] [.block 1, .out, .block 6, .cpl, .regs, .block 0, .tkt, .block 2, .pwr, .block 18, .jt, .sm, .block 20, .streams, .pipes, .block 3, .free, .il, .block 8, .block 5, .van, .block 7, .fab, .memo, .block 9, .block 16, .trv, .arr, .planes, .disp, .block 17, .sched, .kernels, .running, .log, .sp, .cs] = true := by decide
  unfold execReq
  refine ⟨_, rfl, ?_⟩
  refine State.frameIn_keeps _ _ _ _ _ ?_ ?_ (subF_trans (by decide) hF)
  · exact (Keeps.rfl' _ _)
  · intro z2397 h2398
    refine State.peerAccess_keeps _ _ _ _ ?_ (subF_trans (by decide) hF)
    exact h2398

end Sys2Proof.Machine
end

