-- ==== Sys2Proof/Laws/KeepsScalar.lean ====
section
/-! SUPPORT. What each operation of Machine/Scalar.lean can change, one lemma an operation (Laws/KeepsBase.lean). -/

-- elaborated one declaration at a time, so that the package compiles as one text in bounded memory
set_option Elab.async false

namespace Sys2Proof.Machine

theorem State.movxSet_keeps {fs : List Zone} {s0 : State} (s : State) (n : ℕ) (v : Word) (h1 : Keeps fs s0 s) (hF : subF [.disp] fs = true) :
    Keeps fs s0 (State.movxSet s n v) := by
  have kd : ∀ d, Keeps fs s0 { s with disp := d } := fun d =>
    Keeps.upd h1 (.inr rfl) (.inl ⟨rfl, rfl⟩) (.inr rfl) (.inl (alw hF (by decide))) (.inr rfl) (.inl ⟨rfl, rfl⟩) (.inl ⟨rfl, rfl⟩) (.inl rfl) (.inr rfl) (.inr rfl) (.inr rfl) (.inr rfl) (.inr ⟨rfl, rfl⟩) (.inr rfl) (.inr rfl) (.inr rfl) (.inr rfl) (.inr rfl) (.inr rfl) (.inr rfl) (.inr rfl) (.inr rfl) (.inr rfl) (.inr rfl) (.inr rfl) (.inr rfl) (.inr rfl) (.inr rfl) (.inl rfl) rfl
  have kp : ∀ d n b, Keeps fs s0 (({ s with disp := d } : State).setPsw n b) := fun d n b =>
    State.setPsw_keeps _ _ _ (kd d) (subF_trans (by decide) hF)
  unfold State.movxSet
  dsimp only
  split <;> first | exact kd _ | exact kp _ _ _ | exact keeps_ite (kd _) h1 | exact h1 | skip
  all_goals first | (split <;> first | exact kd _ | exact h1) | skip

theorem State.spill_keeps {fs : List Zone} {s0 : State} (s : State) (older : Word) (newer : Word) (h1 : Keeps fs s0 s) (hF : subF [.jt, .disp] fs = true) :
    Keeps fs s0 (State.spill s older newer) := by
  unfold State.spill
  extract_lets -merge -underBinder y2401 y2402
  have k2403 : Keeps fs s0 y2401 := by
    refine State.postStore_keeps _ _ _ _ ?_ (subF_trans (by decide) hF)
    exact h1
  refine Keeps.upd ?_ (.inr rfl) (.inl ⟨rfl, rfl⟩) (.inr rfl) (.inl (alw hF (by decide))) (.inr rfl) (.inl ⟨rfl, rfl⟩) (.inl ⟨rfl, rfl⟩) (.inl rfl) (.inr rfl) (.inr rfl) (.inr rfl) (.inr rfl) (.inr ⟨rfl, rfl⟩) (.inr rfl) (.inr rfl) (.inr rfl) (.inr rfl) (.inr rfl) (.inr rfl) (.inr rfl) (.inr rfl) (.inr rfl) (.inr rfl) (.inr rfl) (.inr rfl) (.inr rfl) (.inr rfl) (.inr rfl) (.inl rfl) rfl
  exact k2403

theorem State.push_keeps {fs : List Zone} {s0 : State} (s : State) (v : Word) (h1 : Keeps fs s0 s) (hF : subF [.jt, .disp] fs = true) :
    Keeps fs s0 (State.push s v) := by
  unfold State.push
  extract_lets -merge -underBinder y2404 y2405 y2406 y2407
  have k2408 : Keeps fs s0 y2405 := by
    refine State.spill_keeps _ _ _ ?_ (subF_trans (by decide) hF)
    exact h1
  refine keeps_ite ?_ ?_
  · refine Keeps.upd ?_ (.inr rfl) (.inl ⟨rfl, rfl⟩) (.inr rfl) (.inl (alw hF (by decide))) (.inr rfl) (.inl ⟨rfl, rfl⟩) (.inl ⟨rfl, rfl⟩) (.inl rfl) (.inr rfl) (.inr rfl) (.inr rfl) (.inr rfl) (.inr ⟨rfl, rfl⟩) (.inr rfl) (.inr rfl) (.inr rfl) (.inr rfl) (.inr rfl) (.inr rfl) (.inr rfl) (.inr rfl) (.inr rfl) (.inr rfl) (.inr rfl) (.inr rfl) (.inr rfl) (.inr rfl) (.inr rfl) (.inl rfl) rfl
    exact k2408
  · refine Keeps.upd ?_ (.inr rfl) (.inl ⟨rfl, rfl⟩) (.inr rfl) (.inl (alw hF (by decide))) (.inr rfl) (.inl ⟨rfl, rfl⟩) (.inl ⟨rfl, rfl⟩) (.inl rfl) (.inr rfl) (.inr rfl) (.inr rfl) (.inr rfl) (.inr ⟨rfl, rfl⟩) (.inr rfl) (.inr rfl) (.inr rfl) (.inr rfl) (.inr rfl) (.inr rfl) (.inr rfl) (.inr rfl) (.inr rfl) (.inr rfl) (.inr rfl) (.inr rfl) (.inr rfl) (.inr rfl) (.inr rfl) (.inl rfl) rfl
    exact h1

theorem State.flush_keeps {fs : List Zone} {s0 : State} (s : State) (x2 : ℕ) (h1 : Keeps fs s0 s) (hF : subF [.jt, .disp] fs = true) :
    Keeps fs s0 (State.flush s x2) := by
  induction x2 generalizing s with
  | zero => exact h1
  | succ n ih =>
    unfold State.flush
    have kd : ∀ (s : State) l, Keeps fs s0 s → Keeps fs s0 { s with disp := { s.disp with ds := l } } := fun s l h =>
      Keeps.upd h (.inr rfl) (.inl ⟨rfl, rfl⟩) (.inr rfl) (.inl (alw hF (by decide))) (.inr rfl) (.inl ⟨rfl, rfl⟩) (.inl ⟨rfl, rfl⟩) (.inl rfl) (.inr rfl) (.inr rfl) (.inr rfl) (.inr rfl) (.inr ⟨rfl, rfl⟩) (.inr rfl) (.inr rfl) (.inr rfl) (.inr rfl) (.inr rfl) (.inr rfl) (.inr rfl) (.inr rfl) (.inr rfl) (.inr rfl) (.inr rfl) (.inr rfl) (.inr rfl) (.inr rfl) (.inr rfl) (.inl rfl) rfl
    refine keeps_ite h1 ?_
    split
    · exact h1
    · exact kd _ _ (State.spill_keeps _ _ _ h1 (subF_trans (by decide) hF))
    · exact ih _ (kd _ _ (State.spill_keeps _ _ _ h1 (subF_trans (by decide) hF)))

theorem State.alu_keeps {fs : List Zone} {s0 : State} (s : State) (r : Word) (f : Flags) (h1 : Keeps fs s0 s) (hF : subF [.disp, .block 17, .sched, .kernels, .running, .log, .free] fs = true) :
    Keeps fs s0 (State.alu s r f) := by
  unfold State.alu
  refine State.endInstr_keeps _ _ _ ?_ (subF_trans (by decide) hF)
  refine State.setFlags_keeps _ _ ?_ (subF_trans (by decide) hF)
  refine State.setAcc_keeps _ _ ?_ (subF_trans (by decide) hF)
  exact h1

theorem State.store_keeps {fs : List Zone} {s0 : State} (s : State) (o : SOp) (h1 : Keeps fs s0 s) (hF : subF [.jt, .disp, .block 17, .sched, .kernels, .running, .log, .free] fs = true) :
    Keeps fs s0 (State.store s o) := by
  unfold State.store
  extract_lets -merge -underBinder y2409 y2410
  split
  · extract_lets -merge -underBinder y2411 y2412
    have k2413 : Keeps fs s0 y2411 := by
      refine State.postStore_keeps _ _ _ _ ?_ (subF_trans (by decide) hF)
      exact h1
    refine State.endInstr_keeps _ _ _ ?_ (subF_trans (by decide) hF)
    refine Keeps.upd ?_ (.inr rfl) (.inl ⟨rfl, rfl⟩) (.inr rfl) (.inl (alw hF (by decide))) (.inr rfl) (.inl ⟨rfl, rfl⟩) (.inl ⟨rfl, rfl⟩) (.inl rfl) (.inr rfl) (.inr rfl) (.inr rfl) (.inr rfl) (.inr ⟨rfl, rfl⟩) (.inr rfl) (.inr rfl) (.inr rfl) (.inr rfl) (.inr rfl) (.inr rfl) (.inr rfl) (.inr rfl) (.inr rfl) (.inr rfl) (.inr rfl) (.inr rfl) (.inr rfl) (.inr rfl) (.inr rfl) (.inl rfl) rfl
    exact k2413
  · extract_lets -merge -underBinder y2414
    refine keeps_ite ?_ ?_
    · refine State.endInstr_keeps _ _ _ ?_ (subF_trans (by decide) hF)
      refine Keeps.upd ?_ (.inr rfl) (.inl ⟨rfl, rfl⟩) (.inr rfl) (.inl (alw hF (by decide))) (.inr rfl) (.inl ⟨rfl, rfl⟩) (.inl ⟨rfl, rfl⟩) (.inl rfl) (.inr rfl) (.inr rfl) (.inr rfl) (.inr rfl) (.inr ⟨rfl, rfl⟩) (.inr rfl) (.inr rfl) (.inr rfl) (.inr rfl) (.inr rfl) (.inr rfl) (.inr rfl) (.inr rfl) (.inr rfl) (.inr rfl) (.inr rfl) (.inr rfl) (.inr rfl) (.inr rfl) (.inr rfl) (.inl rfl) rfl
      exact h1
    · refine State.endInstr_keeps _ _ _ ?_ (subF_trans (by decide) hF)
      refine State.postStore_keeps _ _ _ _ ?_ (subF_trans (by decide) hF)
      exact h1

theorem State.index_keeps {fs : List Zone} {s0 : State} (s : State) (o : SOp) (op : Word) (h1 : Keeps fs s0 s) (hF : subF [.disp, .block 17, .sched, .kernels, .running, .log, .free] fs = true) :
    Keeps fs s0 (State.index s o op) := by
  unfold State.index
  extract_lets -merge -underBinder y2415 y2416
  split
  · extract_lets -merge -underBinder y2417
    refine State.endInstr_keeps _ _ _ ?_ (subF_trans (by decide) hF)
    refine Keeps.upd ?_ (.inr rfl) (.inl ⟨rfl, rfl⟩) (.inr rfl) (.inl (alw hF (by decide))) (.inr rfl) (.inl ⟨rfl, rfl⟩) (.inl ⟨rfl, rfl⟩) (.inl rfl) (.inr rfl) (.inr rfl) (.inr rfl) (.inr rfl) (.inr ⟨rfl, rfl⟩) (.inr rfl) (.inr rfl) (.inr rfl) (.inr rfl) (.inr rfl) (.inr rfl) (.inr rfl) (.inr rfl) (.inr rfl) (.inr rfl) (.inr rfl) (.inr rfl) (.inr rfl) (.inr rfl) (.inr rfl) (.inl rfl) rfl
    exact h1
  · extract_lets -merge -underBinder y2418
    refine State.endInstr_keeps _ _ _ ?_ (subF_trans (by decide) hF)
    refine Keeps.upd ?_ (.inr rfl) (.inl ⟨rfl, rfl⟩) (.inr rfl) (.inl (alw hF (by decide))) (.inr rfl) (.inl ⟨rfl, rfl⟩) (.inl ⟨rfl, rfl⟩) (.inl rfl) (.inr rfl) (.inr rfl) (.inr rfl) (.inr rfl) (.inr ⟨rfl, rfl⟩) (.inr rfl) (.inr rfl) (.inr rfl) (.inr rfl) (.inr rfl) (.inr rfl) (.inr rfl) (.inr rfl) (.inr rfl) (.inr rfl) (.inr rfl) (.inr rfl) (.inr rfl) (.inr rfl) (.inr rfl) (.inl rfl) rfl
    exact h1
  · extract_lets -merge -underBinder y2419 y2420
    have k2421 : Keeps fs s0 y2419 := by
      refine State.useFree_keeps _ ?_ (subF_trans (by decide) hF)
      exact h1
    refine State.endInstr_keeps _ _ _ ?_ (subF_trans (by decide) hF)
    refine Keeps.upd ?_ (.inr rfl) (.inl ⟨rfl, rfl⟩) (.inr rfl) (.inl (alw hF (by decide))) (.inr rfl) (.inl ⟨rfl, rfl⟩) (.inl ⟨rfl, rfl⟩) (.inl rfl) (.inr rfl) (.inr rfl) (.inr rfl) (.inr rfl) (.inr ⟨rfl, rfl⟩) (.inr rfl) (.inr rfl) (.inr rfl) (.inr rfl) (.inr rfl) (.inr rfl) (.inr rfl) (.inr rfl) (.inr rfl) (.inr rfl) (.inr rfl) (.inr rfl) (.inr rfl) (.inr rfl) (.inr rfl) (.inl rfl) rfl
    exact k2421
  · extract_lets -merge -underBinder y2422 y2423
    have k2424 : Keeps fs s0 y2422 := by
      refine State.useFree_keeps _ ?_ (subF_trans (by decide) hF)
      exact h1
    refine State.endInstr_keeps _ _ _ ?_ (subF_trans (by decide) hF)
    refine Keeps.upd ?_ (.inr rfl) (.inl ⟨rfl, rfl⟩) (.inr rfl) (.inl (alw hF (by decide))) (.inr rfl) (.inl ⟨rfl, rfl⟩) (.inl ⟨rfl, rfl⟩) (.inl rfl) (.inr rfl) (.inr rfl) (.inr rfl) (.inr rfl) (.inr ⟨rfl, rfl⟩) (.inr rfl) (.inr rfl) (.inr rfl) (.inr rfl) (.inr rfl) (.inr rfl) (.inr rfl) (.inr rfl) (.inr rfl) (.inr rfl) (.inr rfl) (.inr rfl) (.inr rfl) (.inr rfl) (.inr rfl) (.inl rfl) rfl
    exact k2424
  · refine State.endInstr_keeps _ _ _ ?_ (subF_trans (by decide) hF)
    refine State.useFree_keeps _ ?_ (subF_trans (by decide) hF)
    refine State.setAcc_keeps _ _ ?_ (subF_trans (by decide) hF)
    exact h1
  · refine State.endInstr_keeps _ _ _ ?_ (subF_trans (by decide) hF)
    refine State.useFree_keeps _ ?_ (subF_trans (by decide) hF)
    refine State.setAcc_keeps _ _ ?_ (subF_trans (by decide) hF)
    exact h1

theorem State.bank_keeps {fs : List Zone} {s0 : State} (s : State) (o : SOp) (op : Word) (h1 : Keeps fs s0 s) (hF : subF [.disp, .block 17, .sched, .kernels, .running, .log, .free] fs = true) :
    Keeps fs s0 (State.bank s o op) := by
  unfold State.bank
  extract_lets -merge -underBinder y2425 y2426
  split
  · extract_lets -merge -underBinder y2427
    refine State.endInstr_keeps _ _ _ ?_ (subF_trans (by decide) hF)
    refine Keeps.upd ?_ (.inr rfl) (.inl ⟨rfl, rfl⟩) (.inr rfl) (.inl (alw hF (by decide))) (.inr rfl) (.inl ⟨rfl, rfl⟩) (.inl ⟨rfl, rfl⟩) (.inl rfl) (.inr rfl) (.inr rfl) (.inr rfl) (.inr rfl) (.inr ⟨rfl, rfl⟩) (.inr rfl) (.inr rfl) (.inr rfl) (.inr rfl) (.inr rfl) (.inr rfl) (.inr rfl) (.inr rfl) (.inr rfl) (.inr rfl) (.inr rfl) (.inr rfl) (.inr rfl) (.inr rfl) (.inr rfl) (.inl rfl) rfl
    exact h1
  · extract_lets -merge -underBinder y2428
    refine State.endInstr_keeps _ _ _ ?_ (subF_trans (by decide) hF)
    refine Keeps.upd ?_ (.inr rfl) (.inl ⟨rfl, rfl⟩) (.inr rfl) (.inl (alw hF (by decide))) (.inr rfl) (.inl ⟨rfl, rfl⟩) (.inl ⟨rfl, rfl⟩) (.inl rfl) (.inr rfl) (.inr rfl) (.inr rfl) (.inr rfl) (.inr ⟨rfl, rfl⟩) (.inr rfl) (.inr rfl) (.inr rfl) (.inr rfl) (.inr rfl) (.inr rfl) (.inr rfl) (.inr rfl) (.inr rfl) (.inr rfl) (.inr rfl) (.inr rfl) (.inr rfl) (.inr rfl) (.inr rfl) (.inl rfl) rfl
    exact h1
  · refine State.endInstr_keeps _ _ _ ?_ (subF_trans (by decide) hF)
    refine State.useFree_keeps _ ?_ (subF_trans (by decide) hF)
    refine State.setAcc_keeps _ _ ?_ (subF_trans (by decide) hF)
    exact h1
  · refine State.endInstr_keeps _ _ _ ?_ (subF_trans (by decide) hF)
    refine State.useFree_keeps _ ?_ (subF_trans (by decide) hF)
    refine State.setAcc_keeps _ _ ?_ (subF_trans (by decide) hF)
    exact h1
  · extract_lets -merge -underBinder y2429 y2430
    have k2431 : Keeps fs s0 y2429 := by
      refine State.useFree_keeps _ ?_ (subF_trans (by decide) hF)
      exact h1
    refine State.endInstr_keeps _ _ _ ?_ (subF_trans (by decide) hF)
    refine Keeps.upd ?_ (.inr rfl) (.inl ⟨rfl, rfl⟩) (.inr rfl) (.inl (alw hF (by decide))) (.inr rfl) (.inl ⟨rfl, rfl⟩) (.inl ⟨rfl, rfl⟩) (.inl rfl) (.inr rfl) (.inr rfl) (.inr rfl) (.inr rfl) (.inr ⟨rfl, rfl⟩) (.inr rfl) (.inr rfl) (.inr rfl) (.inr rfl) (.inr rfl) (.inr rfl) (.inr rfl) (.inr rfl) (.inr rfl) (.inr rfl) (.inr rfl) (.inr rfl) (.inr rfl) (.inr rfl) (.inr rfl) (.inl rfl) rfl
    exact k2431

theorem State.startDiv_keeps {fs : List Zone} {s0 : State} (s : State) (o : SOp) (op : Word) (h1 : Keeps fs s0 s) (hF : subF [.disp, .block 17, .sched, .kernels, .running, .log, .free] fs = true) :
    Keeps fs s0 (State.startDiv s o op) := by
  unfold State.startDiv
  extract_lets -merge -underBinder y2432 y2433 y2434
  have k2435 : Keeps fs s0 y2434 := by
    refine Keeps.upd ?_ (.inr rfl) (.inl ⟨rfl, rfl⟩) (.inr rfl) (.inl (alw hF (by decide))) (.inr rfl) (.inl ⟨rfl, rfl⟩) (.inl ⟨rfl, rfl⟩) (.inl rfl) (.inr rfl) (.inr rfl) (.inr rfl) (.inr rfl) (.inr ⟨rfl, rfl⟩) (.inr rfl) (.inr rfl) (.inr rfl) (.inr rfl) (.inr rfl) (.inr rfl) (.inr rfl) (.inr rfl) (.inr rfl) (.inr rfl) (.inr rfl) (.inr rfl) (.inr rfl) (.inr rfl) (.inr rfl) (.inl rfl) rfl
    exact h1
  refine keeps_ite ?_ ?_
  · refine State.trapHere_keeps _ _ _ _ _ ?_ (subF_trans (by decide) hF)
    exact h1
  · refine State.endInstr_keeps _ _ _ ?_ (subF_trans (by decide) hF)
    refine State.setPsw_keeps _ _ _ ?_ (subF_trans (by decide) hF)
    refine State.setPsw_keeps _ _ _ ?_ (subF_trans (by decide) hF)
    exact k2435

theorem State.movx_keeps {fs : List Zone} {s0 : State} (s : State) (o : SOp) (h1 : Keeps fs s0 s) (hF : subF [.disp, .block 17, .sched, .kernels, .running, .log, .free] fs = true) :
    Keeps fs s0 (State.movx s o) := by
  unfold State.movx
  extract_lets -merge -underBinder y2436 y2437
  have k2438 : Keeps fs s0 y2436 := by
    refine State.movxSet_keeps _ _ _ ?_ (subF_trans (by decide) hF)
    exact h1
  refine keeps_ite ?_ ?_
  · refine State.endInstr_keeps _ _ _ ?_ (subF_trans (by decide) hF)
    refine State.useFree_keeps _ ?_ (subF_trans (by decide) hF)
    refine State.setAcc_keeps _ _ ?_ (subF_trans (by decide) hF)
    exact h1
  · refine State.endInstr_keeps _ _ _ ?_ (subF_trans (by decide) hF)
    exact k2438

theorem State.stack_keeps {fs : List Zone} {s0 : State} (s : State) (o : SOp) (op : Word) (h1 : Keeps fs s0 s) (hF : subF [.disp, .block 17, .sched, .kernels, .running, .log, .free, .jt] fs = true) :
    Keeps fs s0 (State.stack s o op) := by
  unfold State.stack
  refine keeps_ite ?_ ?_
  · split
    · extract_lets -merge -underBinder y2439 y2440
      refine State.endInstr_keeps _ _ _ ?_ (subF_trans (by decide) hF)
      refine Keeps.upd ?_ (.inr rfl) (.inl ⟨rfl, rfl⟩) (.inr rfl) (.inl (alw hF (by decide))) (.inr rfl) (.inl ⟨rfl, rfl⟩) (.inl ⟨rfl, rfl⟩) (.inl rfl) (.inr rfl) (.inr rfl) (.inr rfl) (.inr rfl) (.inr ⟨rfl, rfl⟩) (.inr rfl) (.inr rfl) (.inr rfl) (.inr rfl) (.inr rfl) (.inr rfl) (.inr rfl) (.inr rfl) (.inr rfl) (.inr rfl) (.inr rfl) (.inr rfl) (.inr rfl) (.inr rfl) (.inr rfl) (.inl rfl) rfl
      exact h1
    · refine keeps_ite ?_ ?_
      · refine State.trapHere_keeps _ _ _ _ _ ?_ (subF_trans (by decide) hF)
        exact h1
      · refine State.waitFor_keeps _ _ ?_ (subF_trans (by decide) hF)
        refine State.sendReq_keeps _ _ _ _ _ _ _ ?_ (subF_trans (by decide) hF)
        exact h1
  · refine keeps_ite ?_ ?_
    · refine State.trapHere_keeps _ _ _ _ _ ?_ (subF_trans (by decide) hF)
      exact h1
    · refine State.endInstr_keeps _ _ _ ?_ (subF_trans (by decide) hF)
      refine State.push_keeps _ _ ?_ (subF_trans (by decide) hF)
      exact h1

theorem State.branch_keeps {fs : List Zone} {s0 : State} (s : State) (call : Bool) (o : SOp) (op : Word) (h1 : Keeps fs s0 s) (hF : subF [.disp, .block 17, .sched, .kernels, .running, .log, .free] fs = true) :
    Keeps fs s0 (State.branch s call o op) := by
  unfold State.branch
  extract_lets -merge -underBinder y2441 y2442 y2443
  refine keeps_ite ?_ ?_
  · refine State.trapHere_keeps _ _ _ _ _ ?_ (subF_trans (by decide) hF)
    exact h1
  · refine keeps_ite ?_ ?_
    · refine State.trapHere_keeps _ _ _ _ _ ?_ (subF_trans (by decide) hF)
      exact h1
    · refine keeps_ite ?_ ?_
      · refine State.endJump_keeps _ _ _ ?_ (subF_trans (by decide) hF)
        refine Keeps.upd ?_ (.inr rfl) (.inl ⟨rfl, rfl⟩) (.inr rfl) (.inl (alw hF (by decide))) (.inr rfl) (.inl ⟨rfl, rfl⟩) (.inl ⟨rfl, rfl⟩) (.inl rfl) (.inr rfl) (.inr rfl) (.inr rfl) (.inr rfl) (.inr ⟨rfl, rfl⟩) (.inr rfl) (.inr rfl) (.inr rfl) (.inr rfl) (.inr rfl) (.inr rfl) (.inr rfl) (.inr rfl) (.inr rfl) (.inr rfl) (.inr rfl) (.inr rfl) (.inr rfl) (.inr rfl) (.inr rfl) (.inl rfl) rfl
        exact h1
      · refine State.endJump_keeps _ _ _ ?_ (subF_trans (by decide) hF)
        exact h1

theorem State.endArray_keeps {fs : List Zone} {s0 : State} (s : State) (h1 : Keeps fs s0 s) (hF : subF [.disp, .block 17, .sched, .kernels, .running, .log, .free] fs = true) :
    Keeps fs s0 (State.endArray s) := by
  unfold State.endArray
  extract_lets -merge -underBinder y2444 y2445
  have k2446 : Keeps fs s0 y2445 := by
    refine Keeps.upd ?_ (.inr rfl) (.inl ⟨rfl, rfl⟩) (.inr rfl) (.inl (alw hF (by decide))) (.inr rfl) (.inl ⟨rfl, rfl⟩) (.inl ⟨rfl, rfl⟩) (.inl rfl) (.inr rfl) (.inr rfl) (.inr rfl) (.inr rfl) (.inr ⟨rfl, rfl⟩) (.inr rfl) (.inr rfl) (.inr rfl) (.inr rfl) (.inr rfl) (.inr rfl) (.inr rfl) (.inr rfl) (.inr rfl) (.inr rfl) (.inr rfl) (.inr rfl) (.inr rfl) (.inr rfl) (.inr rfl) (.inl rfl) rfl
    exact h1
  refine State.boundary_keeps _ ?_ (subF_trans (by decide) hF)
  refine State.startHold_keeps _ ?_ (subF_trans (by decide) hF)
  refine State.ageUnits_keeps _ ?_ (subF_trans (by decide) hF)
  exact k2446

theorem State.ret_keeps {fs : List Zone} {s0 : State} (s : State) (o : SOp) (h1 : Keeps fs s0 s) (hF : subF [.disp, .block 17, .sched, .kernels, .running, .log, .free, .planes, .arr, .block 16, .block 8, .block 1, .out, .block 3] fs = true) :
    Keeps fs s0 (State.ret s o) := by
  unfold State.ret
  split
  · refine State.trapHere_keeps _ _ _ _ _ ?_ (subF_trans (by decide) hF)
    exact h1
  · extract_lets -merge -underBinder y2447 y2448 y2449 y2450 y2451 y2452 y2453 y2454 y2455 y2456
    have k2457 : Keeps fs s0 y2451 := by
      refine Keeps.upd ?_ (.inr rfl) (.inl ⟨rfl, rfl⟩) (.inr rfl) (.inl (alw hF (by decide))) (.inr rfl) (.inl ⟨rfl, rfl⟩) (.inl ⟨rfl, rfl⟩) (.inl rfl) (.inr rfl) (.inr rfl) (.inr rfl) (.inr rfl) (.inr ⟨rfl, rfl⟩) (.inr rfl) (.inr rfl) (.inr rfl) (.inr rfl) (.inr rfl) (.inr rfl) (.inr rfl) (.inr rfl) (.inr rfl) (.inr rfl) (.inr rfl) (.inr rfl) (.inr rfl) (.inr rfl) (.inr rfl) (.inl rfl) rfl
      exact h1
    clear_value y2451
    have k2458 : Keeps fs s0 y2454 := by
      refine State.flushLate_keeps _ ?_ (subF_trans (by decide) hF)
      refine Keeps.upd ?_ (.inr rfl) (.inl ⟨rfl, rfl⟩) (.inr rfl) (.inl (alw hF (by decide))) (.inr rfl) (.inl ⟨rfl, rfl⟩) (.inl ⟨rfl, rfl⟩) (.inl rfl) (.inr rfl) (.inr rfl) (.inr rfl) (.inr rfl) (.inr ⟨rfl, rfl⟩) (.inr rfl) (.inr rfl) (.inr rfl) (.inr rfl) (.inr rfl) (.inr rfl) (.inr rfl) (.inr rfl) (.inr rfl) (.inr rfl) (.inr rfl) (.inr rfl) (.inr rfl) (.inr rfl) (.inr rfl) (.inl rfl) rfl
      exact k2457
    clear_value y2454
    have k2459 : Keeps fs s0 y2455 := by
      refine State.resumeSeq_keeps _ ?_ (subF_trans (by decide) hF)
      exact k2458
    clear_value y2455
    refine keeps_ite ?_ ?_
    · refine State.endJump_keeps _ _ _ ?_ (subF_trans (by decide) hF)
      refine Keeps.upd ?_ (.inr rfl) (.inl ⟨rfl, rfl⟩) (.inr rfl) (.inl (alw hF (by decide))) (.inr rfl) (.inl ⟨rfl, rfl⟩) (.inl ⟨rfl, rfl⟩) (.inl rfl) (.inr rfl) (.inr rfl) (.inr rfl) (.inr rfl) (.inr ⟨rfl, rfl⟩) (.inr rfl) (.inr rfl) (.inr rfl) (.inr rfl) (.inr rfl) (.inr rfl) (.inr rfl) (.inr rfl) (.inr rfl) (.inr rfl) (.inr rfl) (.inr rfl) (.inr rfl) (.inr rfl) (.inr rfl) (.inl rfl) rfl
      exact h1
    · refine keeps_ite ?_ ?_
      · refine State.trapHere_keeps _ _ _ _ _ ?_ (subF_trans (by decide) hF)
        exact h1
      · refine keeps_ite ?_ ?_
        · refine keeps_ite ?_ ?_
          · refine State.endJump_keeps _ _ _ ?_ (subF_trans (by decide) hF)
            refine Keeps.upd ?_ (.inl (alw hF (by decide))) (.inl ⟨rfl, rfl⟩) (.inr rfl) (.inr rfl) (.inr rfl) (.inl ⟨rfl, rfl⟩) (.inl ⟨rfl, rfl⟩) (.inl rfl) (.inr rfl) (.inr rfl) (.inr rfl) (.inr rfl) (.inr ⟨rfl, rfl⟩) (.inr rfl) (.inr rfl) (.inr rfl) (.inr rfl) (.inr rfl) (.inr rfl) (.inr rfl) (.inr rfl) (.inr rfl) (.inr rfl) (.inr rfl) (.inr rfl) (.inr rfl) (.inr rfl) (.inr rfl) (.inl rfl) rfl
            exact k2459
          · refine State.endArray_keeps _ ?_ (subF_trans (by decide) hF)
            refine State.resumeArray_keeps _ _ ?_ (subF_trans (by decide) hF)
            exact k2458
        · refine State.endJump_keeps _ _ _ ?_ (subF_trans (by decide) hF)
          exact k2457

theorem State.float_keeps {fs : List Zone} {s0 : State} (s : State) (f : Fmt) (o : SOp) (op : Word) (h1 : Keeps fs s0 s) (hF : subF [.disp, .block 17, .sched, .kernels, .running, .log, .free] fs = true) :
    Keeps fs s0 (State.float s f o op) := by
  unfold State.float
  extract_lets -merge -underBinder y2460 y2461 y2462 y2463 y2464 y2465 y2466 y2467
  have k2468 : Keeps fs s0 y2466 := by
    refine Keeps.upd ?_ (.inr rfl) (.inl ⟨rfl, rfl⟩) (.inr rfl) (.inl (alw hF (by decide))) (.inr rfl) (.inl ⟨rfl, rfl⟩) (.inl ⟨rfl, rfl⟩) (.inl rfl) (.inr rfl) (.inr rfl) (.inr rfl) (.inr rfl) (.inr ⟨rfl, rfl⟩) (.inr rfl) (.inr rfl) (.inr rfl) (.inr rfl) (.inr rfl) (.inr rfl) (.inr rfl) (.inr rfl) (.inr rfl) (.inr rfl) (.inr rfl) (.inr rfl) (.inr rfl) (.inr rfl) (.inr rfl) (.inl rfl) rfl
    exact h1
  have k2469 : Keeps fs s0 y2467 := by
    unfold y2467
    try clear_value y2461
    split
    · refine State.setAcc_keeps _ _ ?_ (subF_trans (by decide) hF)
      exact k2468
    · exact k2468
  refine keeps_ite ?_ ?_
  · refine State.trapHere_keeps _ _ _ _ _ ?_ (subF_trans (by decide) hF)
    refine Keeps.upd ?_ (.inr rfl) (.inl ⟨rfl, rfl⟩) (.inr rfl) (.inl (alw hF (by decide))) (.inr rfl) (.inl ⟨rfl, rfl⟩) (.inl ⟨rfl, rfl⟩) (.inl rfl) (.inr rfl) (.inr rfl) (.inr rfl) (.inr rfl) (.inr ⟨rfl, rfl⟩) (.inr rfl) (.inr rfl) (.inr rfl) (.inr rfl) (.inr rfl) (.inr rfl) (.inr rfl) (.inr rfl) (.inr rfl) (.inr rfl) (.inr rfl) (.inr rfl) (.inr rfl) (.inr rfl) (.inr rfl) (.inl rfl) rfl
    exact h1
  · refine State.endInstr_keeps _ _ _ ?_ (subF_trans (by decide) hF)
    try clear_value y2461
    split
    · refine State.setFlags_keeps _ _ ?_ (subF_trans (by decide) hF)
      exact k2469
    · exact k2469

theorem State.sys_keeps {fs : List Zone} {s0 : State} (s : State) (o : SOp) (h1 : Keeps fs s0 s) (hF : subF [.disp, .block 17, .sched, .kernels, .running, .log, .free, .jt] fs = true) :
    Keeps fs s0 (State.sys s o) := by
  unfold State.sys
  split
  · refine State.endInstr_keeps _ _ _ ?_ (subF_trans (by decide) hF)
    refine State.setPsw_keeps _ _ _ ?_ (subF_trans (by decide) hF)
    exact h1
  · refine State.endInstr_keeps _ _ _ ?_ (subF_trans (by decide) hF)
    refine State.setPsw_keeps _ _ _ ?_ (subF_trans (by decide) hF)
    exact h1
  · refine keeps_ite ?_ ?_
    · refine State.endInstr_keeps _ _ _ ?_ (subF_trans (by decide) hF)
      exact h1
    · refine State.waitFor_keeps _ _ ?_ (subF_trans (by decide) hF)
      exact h1
  · refine keeps_ite ?_ ?_
    · refine State.waitFor_keeps _ _ ?_ (subF_trans (by decide) hF)
      exact h1
    · refine State.endInstr_keeps _ _ _ ?_ (subF_trans (by decide) hF)
      exact h1
  · extract_lets -merge -underBinder y2470
    have k2471 : Keeps fs s0 y2470 := by
      refine State.flush_keeps _ _ ?_ (subF_trans (by decide) hF)
      exact h1
    refine keeps_ite ?_ ?_
    · refine State.trapHere_keeps _ _ _ _ _ ?_ (subF_trans (by decide) hF)
      exact h1
    · refine keeps_ite ?_ ?_
      · refine State.endInstr_keeps _ _ _ ?_ (subF_trans (by decide) hF)
        exact k2471
      · refine State.waitFor_keeps _ _ ?_ (subF_trans (by decide) hF)
        exact k2471

theorem State.coprocSend_keeps {fs : List Zone} {s0 : State} (s : State) (u : ℕ) (o : SOp) (op : Word) (h1 : Keeps fs s0 s) (hF : subF [.disp, .jt] fs = true) :
    Keeps fs s0 (State.coprocSend s u o op) := by
  unfold State.coprocSend
  extract_lets -merge -underBinder y2472
  refine State.waitFor_keeps _ _ ?_ (subF_trans (by decide) hF)
  refine State.sendReq_keeps _ _ _ _ _ _ _ ?_ (subF_trans (by decide) hF)
  exact h1

theorem State.scalarFinish_keeps {fs : List Zone} {s0 : State} (s : State) (opc : ℕ) (o : SOp) (op : Word) (h1 : Keeps fs s0 s) (hF : subF [.disp, .block 17, .sched, .kernels, .running, .log, .free, .jt, .planes, .arr, .block 16, .block 8, .block 1, .out, .block 3] fs = true) :
    Keeps fs s0 (State.scalarFinish s opc o op) := by
  unfold State.scalarFinish
  extract_lets -merge -underBinder y2473 y2474
  split
  · refine State.endInstr_keeps _ _ _ ?_ (subF_trans (by decide) hF)
    exact h1
  · extract_lets -merge -underBinder y2475
    refine State.endInstr_keeps _ _ _ ?_ (subF_trans (by decide) hF)
    exact h1
  · refine State.store_keeps _ _ ?_ (subF_trans (by decide) hF)
    exact h1
  · refine State.endInstr_keeps _ _ _ ?_ (subF_trans (by decide) hF)
    refine State.setAcc_keeps _ _ ?_ (subF_trans (by decide) hF)
    exact h1
  · extract_lets -merge -underBinder y2476
    refine State.alu_keeps _ _ _ ?_ (subF_trans (by decide) hF)
    exact h1
  · extract_lets -merge -underBinder y2477
    refine State.alu_keeps _ _ _ ?_ (subF_trans (by decide) hF)
    exact h1
  · refine State.alu_keeps _ _ _ ?_ (subF_trans (by decide) hF)
    exact h1
  · refine State.alu_keeps _ _ _ ?_ (subF_trans (by decide) hF)
    exact h1
  · refine State.alu_keeps _ _ _ ?_ (subF_trans (by decide) hF)
    exact h1
  · extract_lets -merge -underBinder y2478
    refine State.alu_keeps _ _ _ ?_ (subF_trans (by decide) hF)
    exact h1
  · refine State.endInstr_keeps _ _ _ ?_ (subF_trans (by decide) hF)
    refine State.setFlags_keeps _ _ ?_ (subF_trans (by decide) hF)
    exact h1
  · refine State.endInstr_keeps _ _ _ ?_ (subF_trans (by decide) hF)
    refine State.setFlags_keeps _ _ ?_ (subF_trans (by decide) hF)
    exact h1
  · refine State.index_keeps _ _ _ ?_ (subF_trans (by decide) hF)
    exact h1
  · refine State.bank_keeps _ _ _ ?_ (subF_trans (by decide) hF)
    exact h1
  · extract_lets -merge -underBinder y2479
    refine State.endInstr_keeps _ _ _ ?_ (subF_trans (by decide) hF)
    refine State.setPsw_keeps _ _ _ ?_ (subF_trans (by decide) hF)
    refine Keeps.upd ?_ (.inr rfl) (.inl ⟨rfl, rfl⟩) (.inr rfl) (.inl (alw hF (by decide))) (.inr rfl) (.inl ⟨rfl, rfl⟩) (.inl ⟨rfl, rfl⟩) (.inl rfl) (.inr rfl) (.inr rfl) (.inr rfl) (.inr rfl) (.inr ⟨rfl, rfl⟩) (.inr rfl) (.inr rfl) (.inr rfl) (.inr rfl) (.inr rfl) (.inr rfl) (.inr rfl) (.inr rfl) (.inr rfl) (.inr rfl) (.inr rfl) (.inr rfl) (.inr rfl) (.inr rfl) (.inr rfl) (.inl rfl) rfl
    exact h1
  · refine State.startDiv_keeps _ _ _ ?_ (subF_trans (by decide) hF)
    exact h1
  · refine State.movx_keeps _ _ ?_ (subF_trans (by decide) hF)
    exact h1
  · refine State.stack_keeps _ _ _ ?_ (subF_trans (by decide) hF)
    exact h1
  · refine State.branch_keeps _ _ _ _ ?_ (subF_trans (by decide) hF)
    exact h1
  · refine State.branch_keeps _ _ _ _ ?_ (subF_trans (by decide) hF)
    exact h1
  · refine State.ret_keeps _ _ ?_ (subF_trans (by decide) hF)
    exact h1
  · refine State.trapHere_keeps _ _ _ _ _ ?_ (subF_trans (by decide) hF)
    exact h1
  · refine State.float_keeps _ _ _ _ ?_ (subF_trans (by decide) hF)
    exact h1
  · refine State.float_keeps _ _ _ _ ?_ (subF_trans (by decide) hF)
    exact h1
  · refine State.sys_keeps _ _ ?_ (subF_trans (by decide) hF)
    exact h1
  · refine State.coprocSend_keeps _ _ _ _ ?_ (subF_trans (by decide) hF)
    exact h1

theorem State.scalarRun_keeps {fs : List Zone} {s0 : State} (s : State) (opc : ℕ) (o : SOp) (h1 : Keeps fs s0 s) (hF : subF [.disp, .jt, .block 17, .sched, .kernels, .running, .log, .free, .planes, .arr, .block 16, .block 8, .block 1, .out, .block 3] fs = true) :
    Keeps fs s0 (State.scalarRun s opc o) := by
  unfold State.scalarRun
  refine keeps_ite ?_ ?_
  · refine State.waitFor_keeps _ _ ?_ (subF_trans (by decide) hF)
    exact h1
  · refine keeps_ite ?_ ?_
    · refine State.waitFor_keeps _ _ ?_ (subF_trans (by decide) hF)
      refine State.sendReq_keeps _ _ _ _ _ _ _ ?_ (subF_trans (by decide) hF)
      exact h1
    · refine State.scalarFinish_keeps _ _ _ _ ?_ (subF_trans (by decide) hF)
      exact h1

theorem State.scalarIssue_keeps {fs : List Zone} {s0 : State} (s : State) (opc : ℕ) (o : SOp) (h1 : Keeps fs s0 s) (hF : subF [.disp, .block 17, .sched, .kernels, .running, .log, .free, .block 3, .arr, .block 1, .out, .block 8, .jt, .planes, .block 16] fs = true) :
    Keeps fs s0 (State.scalarIssue s opc o) := by
  unfold State.scalarIssue
  extract_lets -merge -underBinder y2480 y2481
  have k2482 : Keeps fs s0 y2480 := by
    refine State.begin_keeps _ ?_ (subF_trans (by decide) hF)
    exact h1
  have k2483 : Keeps fs s0 y2481 := by
    refine keeps_ite ?_ ?_
    · exact k2482
    · refine State.discardPair_keeps _ ?_ (subF_trans (by decide) hF)
      exact k2482
  refine keeps_ite ?_ ?_
  · exact h1
  · refine keeps_ite ?_ ?_
    · refine State.trapHere_keeps _ _ _ _ _ ?_ (subF_trans (by decide) hF)
      refine State.discardPair_keeps _ ?_ (subF_trans (by decide) hF)
      exact k2483
    · refine keeps_ite ?_ ?_
      · refine State.endInstr_keeps _ _ _ ?_ (subF_trans (by decide) hF)
        exact k2483
      · split
        · refine State.trapHere_keeps _ _ _ _ _ ?_ (subF_trans (by decide) hF)
          refine State.discardPair_keeps _ ?_ (subF_trans (by decide) hF)
          exact k2483
        · refine State.scalarRun_keeps _ _ _ ?_ (subF_trans (by decide) hF)
          exact k2483

theorem State.loadArrived_keeps {fs : List Zone} {s0 : State} (s : State) (addr : ℕ) (r : Resp) (bytes : List Byte) (h1 : Keeps fs s0 s) (hF : subF [.disp, .block 17, .sched, .kernels, .running, .log, .free, .jt, .planes, .arr, .block 16, .block 8, .block 1, .out, .block 3] fs = true) :
    Keeps fs s0 (State.loadArrived s addr r bytes) := by
  unfold State.loadArrived
  split
  · extract_lets -merge -underBinder y2484
    have k2485 : Keeps fs s0 y2484 := by
      refine State.waitFor_keeps _ _ ?_ (subF_trans (by decide) hF)
      exact h1
    refine keeps_ite ?_ ?_
    · refine State.scalarFinish_keeps _ _ _ _ ?_ (subF_trans (by decide) hF)
      exact k2485
    · refine State.trapHere_keeps _ _ _ _ _ ?_ (subF_trans (by decide) hF)
      exact k2485
  · extract_lets -merge -underBinder y2486 y2487 y2488 y2489
    have k2490 : Keeps fs s0 y2486 := by
      refine State.waitFor_keeps _ _ ?_ (subF_trans (by decide) hF)
      exact h1
    refine keeps_ite ?_ ?_
    · refine State.endInstr_keeps _ _ _ ?_ (subF_trans (by decide) hF)
      refine Keeps.upd ?_ (.inr rfl) (.inl ⟨rfl, rfl⟩) (.inr rfl) (.inl (alw hF (by decide))) (.inr rfl) (.inl ⟨rfl, rfl⟩) (.inl ⟨rfl, rfl⟩) (.inl rfl) (.inr rfl) (.inr rfl) (.inr rfl) (.inr rfl) (.inr ⟨rfl, rfl⟩) (.inr rfl) (.inr rfl) (.inr rfl) (.inr rfl) (.inr rfl) (.inr rfl) (.inr rfl) (.inr rfl) (.inr rfl) (.inr rfl) (.inr rfl) (.inr rfl) (.inr rfl) (.inr rfl) (.inr rfl) (.inl rfl) rfl
      exact k2490
    · refine State.trapHere_keeps _ _ _ _ _ ?_ (subF_trans (by decide) hF)
      exact k2490
  · refine State.microLoaded_keeps _ _ _ _ _ _ ?_ (subF_trans (by decide) hF)
    exact h1
  · exact h1

theorem State.storeArrived_keeps {fs : List Zone} {s0 : State} (s : State) (addr : ℕ) (r : Resp) (h1 : Keeps fs s0 s) (hF : subF [.disp, .block 8, .jt, .block 17, .sched, .kernels, .running, .log, .free, .planes, .arr, .block 16, .block 1, .out, .block 3] fs = true) :
    Keeps fs s0 (State.storeArrived s addr r) := by
  unfold State.storeArrived
  extract_lets -merge -underBinder y2491
  have k2492 : Keeps fs s0 y2491 := by
    refine keeps_ite ?_ ?_
    · exact h1
    · refine State.noteStoreError_keeps _ _ _ ?_ (subF_trans (by decide) hF)
      exact h1
  split
  · refine State.scalarRun_keeps _ _ _ ?_ (subF_trans (by decide) hF)
    refine State.waitFor_keeps _ _ ?_ (subF_trans (by decide) hF)
    exact k2492
  · refine State.mwr_keeps _ _ _ _ _ ?_ (subF_trans (by decide) hF)
    refine State.waitFor_keeps _ _ ?_ (subF_trans (by decide) hF)
    exact k2492
  · refine keeps_ite ?_ ?_
    · exact k2492
    · refine State.endInstr_keeps _ _ _ ?_ (subF_trans (by decide) hF)
      refine State.waitFor_keeps _ _ ?_ (subF_trans (by decide) hF)
      exact k2492
  · refine State.boundary_keeps _ ?_ (subF_trans (by decide) hF)
    exact k2492

theorem execNop_keeps (o : SOp) (s : State) : ∃ s', execNop o s = .next s' ∧
    Keeps [.disp, .block 17, .sched, .kernels, .running, .log, .free, .block 3, .arr, .block 1, .out, .block 8, .jt, .planes, .block 16] s s' := by
  have hF : subF [.disp, .block 17, .sched, .kernels, .running, .log, .free, .block 3, .arr, .block 1, .out, .block 8, .jt, .planes, .block 16] [.disp, .block 17, .sched, .kernels, .running, .log, .free, .block 3, .arr, .block 1, .out, .block 8, .jt, .planes, .block 16] = true := by decide
  unfold execNop
  refine ⟨_, rfl, ?_⟩
  refine State.scalarIssue_keeps _ _ _ ?_ (subF_trans (by decide) hF)
  exact (Keeps.rfl' _ _)

theorem execLd_keeps (o : SOp) (s : State) : ∃ s', execLd o s = .next s' ∧
    Keeps [.disp, .block 17, .sched, .kernels, .running, .log, .free, .block 3, .arr, .block 1, .out, .block 8, .jt, .planes, .block 16] s s' := by
  have hF : subF [.disp, .block 17, .sched, .kernels, .running, .log, .free, .block 3, .arr, .block 1, .out, .block 8, .jt, .planes, .block 16] [.disp, .block 17, .sched, .kernels, .running, .log, .free, .block 3, .arr, .block 1, .out, .block 8, .jt, .planes, .block 16] = true := by decide
  unfold execLd
  refine ⟨_, rfl, ?_⟩
  refine State.scalarIssue_keeps _ _ _ ?_ (subF_trans (by decide) hF)
  exact (Keeps.rfl' _ _)

theorem execSt_keeps (o : SOp) (s : State) : ∃ s', execSt o s = .next s' ∧
    Keeps [.disp, .block 17, .sched, .kernels, .running, .log, .free, .block 3, .arr, .block 1, .out, .block 8, .jt, .planes, .block 16] s s' := by
  have hF : subF [.disp, .block 17, .sched, .kernels, .running, .log, .free, .block 3, .arr, .block 1, .out, .block 8, .jt, .planes, .block 16] [.disp, .block 17, .sched, .kernels, .running, .log, .free, .block 3, .arr, .block 1, .out, .block 8, .jt, .planes, .block 16] = true := by decide
  unfold execSt
  refine ⟨_, rfl, ?_⟩
  refine State.scalarIssue_keeps _ _ _ ?_ (subF_trans (by decide) hF)
  exact (Keeps.rfl' _ _)

theorem execLui_keeps (o : SOp) (s : State) : ∃ s', execLui o s = .next s' ∧
    Keeps [.disp, .block 17, .sched, .kernels, .running, .log, .free, .block 3, .arr, .block 1, .out, .block 8, .jt, .planes, .block 16] s s' := by
  have hF : subF [.disp, .block 17, .sched, .kernels, .running, .log, .free, .block 3, .arr, .block 1, .out, .block 8, .jt, .planes, .block 16] [.disp, .block 17, .sched, .kernels, .running, .log, .free, .block 3, .arr, .block 1, .out, .block 8, .jt, .planes, .block 16] = true := by decide
  unfold execLui
  refine ⟨_, rfl, ?_⟩
  refine State.scalarIssue_keeps _ _ _ ?_ (subF_trans (by decide) hF)
  exact (Keeps.rfl' _ _)

theorem execAdd_keeps (o : SOp) (s : State) : ∃ s', execAdd o s = .next s' ∧
    Keeps [.disp, .block 17, .sched, .kernels, .running, .log, .free, .block 3, .arr, .block 1, .out, .block 8, .jt, .planes, .block 16] s s' := by
  have hF : subF [.disp, .block 17, .sched, .kernels, .running, .log, .free, .block 3, .arr, .block 1, .out, .block 8, .jt, .planes, .block 16] [.disp, .block 17, .sched, .kernels, .running, .log, .free, .block 3, .arr, .block 1, .out, .block 8, .jt, .planes, .block 16] = true := by decide
  unfold execAdd
  refine ⟨_, rfl, ?_⟩
  refine State.scalarIssue_keeps _ _ _ ?_ (subF_trans (by decide) hF)
  exact (Keeps.rfl' _ _)

theorem execSub_keeps (o : SOp) (s : State) : ∃ s', execSub o s = .next s' ∧
    Keeps [.disp, .block 17, .sched, .kernels, .running, .log, .free, .block 3, .arr, .block 1, .out, .block 8, .jt, .planes, .block 16] s s' := by
  have hF : subF [.disp, .block 17, .sched, .kernels, .running, .log, .free, .block 3, .arr, .block 1, .out, .block 8, .jt, .planes, .block 16] [.disp, .block 17, .sched, .kernels, .running, .log, .free, .block 3, .arr, .block 1, .out, .block 8, .jt, .planes, .block 16] = true := by decide
  unfold execSub
  refine ⟨_, rfl, ?_⟩
  refine State.scalarIssue_keeps _ _ _ ?_ (subF_trans (by decide) hF)
  exact (Keeps.rfl' _ _)

theorem execAnd_keeps (o : SOp) (s : State) : ∃ s', execAnd o s = .next s' ∧
    Keeps [.disp, .block 17, .sched, .kernels, .running, .log, .free, .block 3, .arr, .block 1, .out, .block 8, .jt, .planes, .block 16] s s' := by
  have hF : subF [.disp, .block 17, .sched, .kernels, .running, .log, .free, .block 3, .arr, .block 1, .out, .block 8, .jt, .planes, .block 16] [.disp, .block 17, .sched, .kernels, .running, .log, .free, .block 3, .arr, .block 1, .out, .block 8, .jt, .planes, .block 16] = true := by decide
  unfold execAnd
  refine ⟨_, rfl, ?_⟩
  refine State.scalarIssue_keeps _ _ _ ?_ (subF_trans (by decide) hF)
  exact (Keeps.rfl' _ _)

theorem execOr_keeps (o : SOp) (s : State) : ∃ s', execOr o s = .next s' ∧
    Keeps [.disp, .block 17, .sched, .kernels, .running, .log, .free, .block 3, .arr, .block 1, .out, .block 8, .jt, .planes, .block 16] s s' := by
  have hF : subF [.disp, .block 17, .sched, .kernels, .running, .log, .free, .block 3, .arr, .block 1, .out, .block 8, .jt, .planes, .block 16] [.disp, .block 17, .sched, .kernels, .running, .log, .free, .block 3, .arr, .block 1, .out, .block 8, .jt, .planes, .block 16] = true := by decide
  unfold execOr
  refine ⟨_, rfl, ?_⟩
  refine State.scalarIssue_keeps _ _ _ ?_ (subF_trans (by decide) hF)
  exact (Keeps.rfl' _ _)

theorem execXor_keeps (o : SOp) (s : State) : ∃ s', execXor o s = .next s' ∧
    Keeps [.disp, .block 17, .sched, .kernels, .running, .log, .free, .block 3, .arr, .block 1, .out, .block 8, .jt, .planes, .block 16] s s' := by
  have hF : subF [.disp, .block 17, .sched, .kernels, .running, .log, .free, .block 3, .arr, .block 1, .out, .block 8, .jt, .planes, .block 16] [.disp, .block 17, .sched, .kernels, .running, .log, .free, .block 3, .arr, .block 1, .out, .block 8, .jt, .planes, .block 16] = true := by decide
  unfold execXor
  refine ⟨_, rfl, ?_⟩
  refine State.scalarIssue_keeps _ _ _ ?_ (subF_trans (by decide) hF)
  exact (Keeps.rfl' _ _)

theorem execShf_keeps (o : SOp) (s : State) : ∃ s', execShf o s = .next s' ∧
    Keeps [.disp, .block 17, .sched, .kernels, .running, .log, .free, .block 3, .arr, .block 1, .out, .block 8, .jt, .planes, .block 16] s s' := by
  have hF : subF [.disp, .block 17, .sched, .kernels, .running, .log, .free, .block 3, .arr, .block 1, .out, .block 8, .jt, .planes, .block 16] [.disp, .block 17, .sched, .kernels, .running, .log, .free, .block 3, .arr, .block 1, .out, .block 8, .jt, .planes, .block 16] = true := by decide
  unfold execShf
  refine ⟨_, rfl, ?_⟩
  refine State.scalarIssue_keeps _ _ _ ?_ (subF_trans (by decide) hF)
  exact (Keeps.rfl' _ _)

theorem execCmp_keeps (o : SOp) (s : State) : ∃ s', execCmp o s = .next s' ∧
    Keeps [.disp, .block 17, .sched, .kernels, .running, .log, .free, .block 3, .arr, .block 1, .out, .block 8, .jt, .planes, .block 16] s s' := by
  have hF : subF [.disp, .block 17, .sched, .kernels, .running, .log, .free, .block 3, .arr, .block 1, .out, .block 8, .jt, .planes, .block 16] [.disp, .block 17, .sched, .kernels, .running, .log, .free, .block 3, .arr, .block 1, .out, .block 8, .jt, .planes, .block 16] = true := by decide
  unfold execCmp
  refine ⟨_, rfl, ?_⟩
  refine State.scalarIssue_keeps _ _ _ ?_ (subF_trans (by decide) hF)
  exact (Keeps.rfl' _ _)

theorem execTst_keeps (o : SOp) (s : State) : ∃ s', execTst o s = .next s' ∧
    Keeps [.disp, .block 17, .sched, .kernels, .running, .log, .free, .block 3, .arr, .block 1, .out, .block 8, .jt, .planes, .block 16] s s' := by
  have hF : subF [.disp, .block 17, .sched, .kernels, .running, .log, .free, .block 3, .arr, .block 1, .out, .block 8, .jt, .planes, .block 16] [.disp, .block 17, .sched, .kernels, .running, .log, .free, .block 3, .arr, .block 1, .out, .block 8, .jt, .planes, .block 16] = true := by decide
  unfold execTst
  refine ⟨_, rfl, ?_⟩
  refine State.scalarIssue_keeps _ _ _ ?_ (subF_trans (by decide) hF)
  exact (Keeps.rfl' _ _)

theorem execIx_keeps (o : SOp) (s : State) : ∃ s', execIx o s = .next s' ∧
    Keeps [.disp, .block 17, .sched, .kernels, .running, .log, .free, .block 3, .arr, .block 1, .out, .block 8, .jt, .planes, .block 16] s s' := by
  have hF : subF [.disp, .block 17, .sched, .kernels, .running, .log, .free, .block 3, .arr, .block 1, .out, .block 8, .jt, .planes, .block 16] [.disp, .block 17, .sched, .kernels, .running, .log, .free, .block 3, .arr, .block 1, .out, .block 8, .jt, .planes, .block 16] = true := by decide
  unfold execIx
  refine ⟨_, rfl, ?_⟩
  refine State.scalarIssue_keeps _ _ _ ?_ (subF_trans (by decide) hF)
  exact (Keeps.rfl' _ _)

theorem execBnk_keeps (o : SOp) (s : State) : ∃ s', execBnk o s = .next s' ∧
    Keeps [.disp, .block 17, .sched, .kernels, .running, .log, .free, .block 3, .arr, .block 1, .out, .block 8, .jt, .planes, .block 16] s s' := by
  have hF : subF [.disp, .block 17, .sched, .kernels, .running, .log, .free, .block 3, .arr, .block 1, .out, .block 8, .jt, .planes, .block 16] [.disp, .block 17, .sched, .kernels, .running, .log, .free, .block 3, .arr, .block 1, .out, .block 8, .jt, .planes, .block 16] = true := by decide
  unfold execBnk
  refine ⟨_, rfl, ?_⟩
  refine State.scalarIssue_keeps _ _ _ ?_ (subF_trans (by decide) hF)
  exact (Keeps.rfl' _ _)

theorem execMul_keeps (o : SOp) (s : State) : ∃ s', execMul o s = .next s' ∧
    Keeps [.disp, .block 17, .sched, .kernels, .running, .log, .free, .block 3, .arr, .block 1, .out, .block 8, .jt, .planes, .block 16] s s' := by
  have hF : subF [.disp, .block 17, .sched, .kernels, .running, .log, .free, .block 3, .arr, .block 1, .out, .block 8, .jt, .planes, .block 16] [.disp, .block 17, .sched, .kernels, .running, .log, .free, .block 3, .arr, .block 1, .out, .block 8, .jt, .planes, .block 16] = true := by decide
  unfold execMul
  refine ⟨_, rfl, ?_⟩
  refine State.scalarIssue_keeps _ _ _ ?_ (subF_trans (by decide) hF)
  exact (Keeps.rfl' _ _)

theorem execDiv_keeps (o : SOp) (s : State) : ∃ s', execDiv o s = .next s' ∧
    Keeps [.disp, .block 17, .sched, .kernels, .running, .log, .free, .block 3, .arr, .block 1, .out, .block 8, .jt, .planes, .block 16] s s' := by
  have hF : subF [.disp, .block 17, .sched, .kernels, .running, .log, .free, .block 3, .arr, .block 1, .out, .block 8, .jt, .planes, .block 16] [.disp, .block 17, .sched, .kernels, .running, .log, .free, .block 3, .arr, .block 1, .out, .block 8, .jt, .planes, .block 16] = true := by decide
  unfold execDiv
  refine ⟨_, rfl, ?_⟩
  refine State.scalarIssue_keeps _ _ _ ?_ (subF_trans (by decide) hF)
  exact (Keeps.rfl' _ _)

theorem execMovxRead_keeps (o : SOp) (s : State) : ∃ s', execMovxRead o s = .next s' ∧
    Keeps [.disp, .block 17, .sched, .kernels, .running, .log, .free, .block 3, .arr, .block 1, .out, .block 8, .jt, .planes, .block 16] s s' := by
  have hF : subF [.disp, .block 17, .sched, .kernels, .running, .log, .free, .block 3, .arr, .block 1, .out, .block 8, .jt, .planes, .block 16] [.disp, .block 17, .sched, .kernels, .running, .log, .free, .block 3, .arr, .block 1, .out, .block 8, .jt, .planes, .block 16] = true := by decide
  unfold execMovxRead
  refine ⟨_, rfl, ?_⟩
  refine State.scalarIssue_keeps _ _ _ ?_ (subF_trans (by decide) hF)
  exact (Keeps.rfl' _ _)

theorem execMovxWrite_keeps (o : SOp) (s : State) : ∃ s', execMovxWrite o s = .next s' ∧
    Keeps [.disp, .block 17, .sched, .kernels, .running, .log, .free, .block 3, .arr, .block 1, .out, .block 8, .jt, .planes, .block 16] s s' := by
  have hF : subF [.disp, .block 17, .sched, .kernels, .running, .log, .free, .block 3, .arr, .block 1, .out, .block 8, .jt, .planes, .block 16] [.disp, .block 17, .sched, .kernels, .running, .log, .free, .block 3, .arr, .block 1, .out, .block 8, .jt, .planes, .block 16] = true := by decide
  unfold execMovxWrite
  refine ⟨_, rfl, ?_⟩
  refine State.scalarIssue_keeps _ _ _ ?_ (subF_trans (by decide) hF)
  exact (Keeps.rfl' _ _)

theorem execStkPush_keeps (o : SOp) (s : State) : ∃ s', execStkPush o s = .next s' ∧
    Keeps [.disp, .block 17, .sched, .kernels, .running, .log, .free, .block 3, .arr, .block 1, .out, .block 8, .jt, .planes, .block 16] s s' := by
  have hF : subF [.disp, .block 17, .sched, .kernels, .running, .log, .free, .block 3, .arr, .block 1, .out, .block 8, .jt, .planes, .block 16] [.disp, .block 17, .sched, .kernels, .running, .log, .free, .block 3, .arr, .block 1, .out, .block 8, .jt, .planes, .block 16] = true := by decide
  unfold execStkPush
  refine ⟨_, rfl, ?_⟩
  refine State.scalarIssue_keeps _ _ _ ?_ (subF_trans (by decide) hF)
  exact (Keeps.rfl' _ _)

theorem execStkPop_keeps (o : SOp) (s : State) : ∃ s', execStkPop o s = .next s' ∧
    Keeps [.disp, .block 17, .sched, .kernels, .running, .log, .free, .block 3, .arr, .block 1, .out, .block 8, .jt, .planes, .block 16] s s' := by
  have hF : subF [.disp, .block 17, .sched, .kernels, .running, .log, .free, .block 3, .arr, .block 1, .out, .block 8, .jt, .planes, .block 16] [.disp, .block 17, .sched, .kernels, .running, .log, .free, .block 3, .arr, .block 1, .out, .block 8, .jt, .planes, .block 16] = true := by decide
  unfold execStkPop
  refine ⟨_, rfl, ?_⟩
  refine State.scalarIssue_keeps _ _ _ ?_ (subF_trans (by decide) hF)
  exact (Keeps.rfl' _ _)

theorem execBr_keeps (o : SOp) (s : State) : ∃ s', execBr o s = .next s' ∧
    Keeps [.disp, .block 17, .sched, .kernels, .running, .log, .free, .block 3, .arr, .block 1, .out, .block 8, .jt, .planes, .block 16] s s' := by
  have hF : subF [.disp, .block 17, .sched, .kernels, .running, .log, .free, .block 3, .arr, .block 1, .out, .block 8, .jt, .planes, .block 16] [.disp, .block 17, .sched, .kernels, .running, .log, .free, .block 3, .arr, .block 1, .out, .block 8, .jt, .planes, .block 16] = true := by decide
  unfold execBr
  refine ⟨_, rfl, ?_⟩
  refine State.scalarIssue_keeps _ _ _ ?_ (subF_trans (by decide) hF)
  exact (Keeps.rfl' _ _)

theorem execCall_keeps (o : SOp) (s : State) : ∃ s', execCall o s = .next s' ∧
    Keeps [.disp, .block 17, .sched, .kernels, .running, .log, .free, .block 3, .arr, .block 1, .out, .block 8, .jt, .planes, .block 16] s s' := by
  have hF : subF [.disp, .block 17, .sched, .kernels, .running, .log, .free, .block 3, .arr, .block 1, .out, .block 8, .jt, .planes, .block 16] [.disp, .block 17, .sched, .kernels, .running, .log, .free, .block 3, .arr, .block 1, .out, .block 8, .jt, .planes, .block 16] = true := by decide
  unfold execCall
  refine ⟨_, rfl, ?_⟩
  refine State.scalarIssue_keeps _ _ _ ?_ (subF_trans (by decide) hF)
  exact (Keeps.rfl' _ _)

theorem execRet_keeps (o : SOp) (s : State) : ∃ s', execRet o s = .next s' ∧
    Keeps [.disp, .block 17, .sched, .kernels, .running, .log, .free, .block 3, .arr, .block 1, .out, .block 8, .jt, .planes, .block 16] s s' := by
  have hF : subF [.disp, .block 17, .sched, .kernels, .running, .log, .free, .block 3, .arr, .block 1, .out, .block 8, .jt, .planes, .block 16] [.disp, .block 17, .sched, .kernels, .running, .log, .free, .block 3, .arr, .block 1, .out, .block 8, .jt, .planes, .block 16] = true := by decide
  unfold execRet
  refine ⟨_, rfl, ?_⟩
  refine State.scalarIssue_keeps _ _ _ ?_ (subF_trans (by decide) hF)
  exact (Keeps.rfl' _ _)

theorem execReti_keeps (o : SOp) (s : State) : ∃ s', execReti o s = .next s' ∧
    Keeps [.disp, .block 17, .sched, .kernels, .running, .log, .free, .block 3, .arr, .block 1, .out, .block 8, .jt, .planes, .block 16] s s' := by
  have hF : subF [.disp, .block 17, .sched, .kernels, .running, .log, .free, .block 3, .arr, .block 1, .out, .block 8, .jt, .planes, .block 16] [.disp, .block 17, .sched, .kernels, .running, .log, .free, .block 3, .arr, .block 1, .out, .block 8, .jt, .planes, .block 16] = true := by decide
  unfold execReti
  refine ⟨_, rfl, ?_⟩
  refine State.scalarIssue_keeps _ _ _ ?_ (subF_trans (by decide) hF)
  exact (Keeps.rfl' _ _)

theorem execSvc_keeps (o : SOp) (s : State) : ∃ s', execSvc o s = .next s' ∧
    Keeps [.disp, .block 17, .sched, .kernels, .running, .log, .free, .block 3, .arr, .block 1, .out, .block 8, .jt, .planes, .block 16] s s' := by
  have hF : subF [.disp, .block 17, .sched, .kernels, .running, .log, .free, .block 3, .arr, .block 1, .out, .block 8, .jt, .planes, .block 16] [.disp, .block 17, .sched, .kernels, .running, .log, .free, .block 3, .arr, .block 1, .out, .block 8, .jt, .planes, .block 16] = true := by decide
  unfold execSvc
  refine ⟨_, rfl, ?_⟩
  refine State.scalarIssue_keeps _ _ _ ?_ (subF_trans (by decide) hF)
  exact (Keeps.rfl' _ _)

theorem execBrk_keeps (o : SOp) (s : State) : ∃ s', execBrk o s = .next s' ∧
    Keeps [.disp, .block 17, .sched, .kernels, .running, .log, .free, .block 3, .arr, .block 1, .out, .block 8, .jt, .planes, .block 16] s s' := by
  have hF : subF [.disp, .block 17, .sched, .kernels, .running, .log, .free, .block 3, .arr, .block 1, .out, .block 8, .jt, .planes, .block 16] [.disp, .block 17, .sched, .kernels, .running, .log, .free, .block 3, .arr, .block 1, .out, .block 8, .jt, .planes, .block 16] = true := by decide
  unfold execBrk
  refine ⟨_, rfl, ?_⟩
  refine State.scalarIssue_keeps _ _ _ ?_ (subF_trans (by decide) hF)
  exact (Keeps.rfl' _ _)

theorem execFps_keeps (o : SOp) (s : State) : ∃ s', execFps o s = .next s' ∧
    Keeps [.disp, .block 17, .sched, .kernels, .running, .log, .free, .block 3, .arr, .block 1, .out, .block 8, .jt, .planes, .block 16] s s' := by
  have hF : subF [.disp, .block 17, .sched, .kernels, .running, .log, .free, .block 3, .arr, .block 1, .out, .block 8, .jt, .planes, .block 16] [.disp, .block 17, .sched, .kernels, .running, .log, .free, .block 3, .arr, .block 1, .out, .block 8, .jt, .planes, .block 16] = true := by decide
  unfold execFps
  refine ⟨_, rfl, ?_⟩
  refine State.scalarIssue_keeps _ _ _ ?_ (subF_trans (by decide) hF)
  exact (Keeps.rfl' _ _)

theorem execFph_keeps (o : SOp) (s : State) : ∃ s', execFph o s = .next s' ∧
    Keeps [.disp, .block 17, .sched, .kernels, .running, .log, .free, .block 3, .arr, .block 1, .out, .block 8, .jt, .planes, .block 16] s s' := by
  have hF : subF [.disp, .block 17, .sched, .kernels, .running, .log, .free, .block 3, .arr, .block 1, .out, .block 8, .jt, .planes, .block 16] [.disp, .block 17, .sched, .kernels, .running, .log, .free, .block 3, .arr, .block 1, .out, .block 8, .jt, .planes, .block 16] = true := by decide
  unfold execFph
  refine ⟨_, rfl, ?_⟩
  refine State.scalarIssue_keeps _ _ _ ?_ (subF_trans (by decide) hF)
  exact (Keeps.rfl' _ _)

theorem execEi_keeps (o : SOp) (s : State) : ∃ s', execEi o s = .next s' ∧
    Keeps [.disp, .block 17, .sched, .kernels, .running, .log, .free, .block 3, .arr, .block 1, .out, .block 8, .jt, .planes, .block 16] s s' := by
  have hF : subF [.disp, .block 17, .sched, .kernels, .running, .log, .free, .block 3, .arr, .block 1, .out, .block 8, .jt, .planes, .block 16] [.disp, .block 17, .sched, .kernels, .running, .log, .free, .block 3, .arr, .block 1, .out, .block 8, .jt, .planes, .block 16] = true := by decide
  unfold execEi
  refine ⟨_, rfl, ?_⟩
  refine State.scalarIssue_keeps _ _ _ ?_ (subF_trans (by decide) hF)
  exact (Keeps.rfl' _ _)

theorem execDi_keeps (o : SOp) (s : State) : ∃ s', execDi o s = .next s' ∧
    Keeps [.disp, .block 17, .sched, .kernels, .running, .log, .free, .block 3, .arr, .block 1, .out, .block 8, .jt, .planes, .block 16] s s' := by
  have hF : subF [.disp, .block 17, .sched, .kernels, .running, .log, .free, .block 3, .arr, .block 1, .out, .block 8, .jt, .planes, .block 16] [.disp, .block 17, .sched, .kernels, .running, .log, .free, .block 3, .arr, .block 1, .out, .block 8, .jt, .planes, .block 16] = true := by decide
  unfold execDi
  refine ⟨_, rfl, ?_⟩
  refine State.scalarIssue_keeps _ _ _ ?_ (subF_trans (by decide) hF)
  exact (Keeps.rfl' _ _)

theorem execWfi_keeps (o : SOp) (s : State) : ∃ s', execWfi o s = .next s' ∧
    Keeps [.disp, .block 17, .sched, .kernels, .running, .log, .free, .block 3, .arr, .block 1, .out, .block 8, .jt, .planes, .block 16] s s' := by
  have hF : subF [.disp, .block 17, .sched, .kernels, .running, .log, .free, .block 3, .arr, .block 1, .out, .block 8, .jt, .planes, .block 16] [.disp, .block 17, .sched, .kernels, .running, .log, .free, .block 3, .arr, .block 1, .out, .block 8, .jt, .planes, .block 16] = true := by decide
  unfold execWfi
  refine ⟨_, rfl, ?_⟩
  refine State.scalarIssue_keeps _ _ _ ?_ (subF_trans (by decide) hF)
  exact (Keeps.rfl' _ _)

theorem execFence_keeps (o : SOp) (s : State) : ∃ s', execFence o s = .next s' ∧
    Keeps [.disp, .block 17, .sched, .kernels, .running, .log, .free, .block 3, .arr, .block 1, .out, .block 8, .jt, .planes, .block 16] s s' := by
  have hF : subF [.disp, .block 17, .sched, .kernels, .running, .log, .free, .block 3, .arr, .block 1, .out, .block 8, .jt, .planes, .block 16] [.disp, .block 17, .sched, .kernels, .running, .log, .free, .block 3, .arr, .block 1, .out, .block 8, .jt, .planes, .block 16] = true := by decide
  unfold execFence
  refine ⟨_, rfl, ?_⟩
  refine State.scalarIssue_keeps _ _ _ ?_ (subF_trans (by decide) hF)
  exact (Keeps.rfl' _ _)

theorem execDsflush_keeps (o : SOp) (s : State) : ∃ s', execDsflush o s = .next s' ∧
    Keeps [.disp, .block 17, .sched, .kernels, .running, .log, .free, .block 3, .arr, .block 1, .out, .block 8, .jt, .planes, .block 16] s s' := by
  have hF : subF [.disp, .block 17, .sched, .kernels, .running, .log, .free, .block 3, .arr, .block 1, .out, .block 8, .jt, .planes, .block 16] [.disp, .block 17, .sched, .kernels, .running, .log, .free, .block 3, .arr, .block 1, .out, .block 8, .jt, .planes, .block 16] = true := by decide
  unfold execDsflush
  refine ⟨_, rfl, ?_⟩
  refine State.scalarIssue_keeps _ _ _ ?_ (subF_trans (by decide) hF)
  exact (Keeps.rfl' _ _)

theorem execCoproc_keeps (u : ℕ) (o : SOp) (s : State) : ∃ s', execCoproc u o s = .next s' ∧
    Keeps [.disp, .block 17, .sched, .kernels, .running, .log, .free, .block 3, .arr, .block 1, .out, .block 8, .jt, .planes, .block 16] s s' := by
  have hF : subF [.disp, .block 17, .sched, .kernels, .running, .log, .free, .block 3, .arr, .block 1, .out, .block 8, .jt, .planes, .block 16] [.disp, .block 17, .sched, .kernels, .running, .log, .free, .block 3, .arr, .block 1, .out, .block 8, .jt, .planes, .block 16] = true := by decide
  unfold execCoproc
  refine ⟨_, rfl, ?_⟩
  refine State.scalarIssue_keeps _ _ _ ?_ (subF_trans (by decide) hF)
  exact (Keeps.rfl' _ _)

theorem execMulDone_keeps (s : State) : ∃ s', execMulDone s = .next s' ∧
    Keeps [.disp] s s' := by
  have hF : subF [.disp] [.disp] = true := by decide
  unfold execMulDone
  refine ⟨_, rfl, ?_⟩
  refine State.mulDone_keeps _ ?_ (subF_trans (by decide) hF)
  exact (Keeps.rfl' _ _)

theorem execDivDone_keeps (s : State) : ∃ s', execDivDone s = .next s' ∧
    Keeps [.disp] s s' := by
  have hF : subF [.disp] [.disp] = true := by decide
  unfold execDivDone
  refine ⟨_, rfl, ?_⟩
  refine State.divDone_keeps _ ?_ (subF_trans (by decide) hF)
  exact (Keeps.rfl' _ _)

theorem execStoreError_keeps (addr : ℕ) (r : Resp) (s : State) : ∃ s', execStoreError addr r s = .next s' ∧
    Keeps [.disp, .block 8, .jt, .block 17, .sched, .kernels, .running, .log, .free, .planes, .arr, .block 16, .block 1, .out, .block 3] s s' := by
  have hF : subF [.disp, .block 8, .jt, .block 17, .sched, .kernels, .running, .log, .free, .planes, .arr, .block 16, .block 1, .out, .block 3] [.disp, .block 8, .jt, .block 17, .sched, .kernels, .running, .log, .free, .planes, .arr, .block 16, .block 1, .out, .block 3] = true := by decide
  unfold execStoreError
  refine ⟨_, rfl, ?_⟩
  split
  · exact (Keeps.rfl' _ _)
  · extract_lets -merge -underBinder y2493
    refine State.storeArrived_keeps _ _ _ ?_ (subF_trans (by decide) hF)
    refine Keeps.upd ?_ (.inr rfl) (.inl ⟨rfl, rfl⟩) (.inr rfl) (.inr rfl) (.inr rfl) (.inl ⟨rfl, rfl⟩) (.inl ⟨rfl, rfl⟩) (.inl rfl) (.inr rfl) (.inl (alw hF (by decide))) (.inr rfl) (.inr rfl) (.inr ⟨rfl, rfl⟩) (.inr rfl) (.inr rfl) (.inr rfl) (.inr rfl) (.inr rfl) (.inr rfl) (.inr rfl) (.inr rfl) (.inr rfl) (.inr rfl) (.inr rfl) (.inr rfl) (.inr rfl) (.inr rfl) (.inr rfl) (.inl rfl) rfl
    exact (Keeps.rfl' _ _)

end Sys2Proof.Machine
end

