-- ==== Sys2Proof/Laws/KeepsJunction.lean ====
section
/-! SUPPORT. What each operation of Machine/Junction.lean can change, one lemma an operation (Laws/KeepsBase.lean). -/

-- elaborated one declaration at a time, so that the package compiles as one text in bounded memory
set_option Elab.async false

namespace Sys2Proof.Machine

theorem State.regReads_keeps {fs : List Zone} {s0 : State} (s : State) (k : ℕ) (x3 : ℕ) (h1 : Keeps fs s0 s) (hF : subF [.free, .block 16, .block 17, .block 7, .block 20, .pipes, .regs] fs = true) :
    Keeps fs s0 (State.regReads s k x3).1 := by
  induction x3 generalizing s k with
  | zero => exact h1
  | succ n ih =>
    unfold State.regReads
    exact ih _ _ (State.regRead_keeps _ _ h1 (subF_trans (by decide) hF))

theorem State.regBytes_keeps {fs : List Zone} {s0 : State} (s : State) (k : ℕ) (len : ℕ) (h1 : Keeps fs s0 s) (hF : subF [.free, .block 16, .block 17, .block 7, .block 20, .pipes, .regs] fs = true) :
    Keeps fs s0 (State.regBytes s k len).1 := by
  unfold State.regBytes
  extract_lets -merge -underBinder y2494
  have k2495 : Keeps fs s0 y2494.1 := by
    refine State.regReads_keeps _ _ _ ?_ (subF_trans (by decide) hF)
    exact h1
  refine keeps_mk_fst ?_
  exact k2495

theorem State.regWord_keeps {fs : List Zone} {s0 : State} (s : State) (ini : ℕ) (k : ℕ) (d : Word64 × BitVec 8) (rivals : List (ℕ × ℕ × Word)) (h1 : Keeps fs s0 s) (hF : subF [.cpl, .regs, .block 0, .tkt, .block 1, .out, .block 2, .pwr, .block 18, .jt, .sm, .block 20, .streams, .pipes, .block 3, .free, .il, .block 8, .block 5, .van, .block 6, .block 7, .fab, .memo, .block 9, .block 16, .trv, .arr, .planes, .disp, .block 17, .sched, .kernels, .running, .log, .sp, .cs] fs = true) :
    Keeps fs s0 (State.regWord s ini k d rivals).1 := by
  unfold State.regWord
  extract_lets -merge -underBinder y2496 y2497 y2498 y2499
  have k2500 : Keeps fs s0 y2498.1 := by
    refine keeps_ite_fst ?_ ?_
    · refine State.cycleWrite_keeps _ _ _ _ _ ?_ (subF_trans (by decide) hF)
      exact h1
    · refine keeps_mk_fst ?_
      exact h1
  have k2501 : Keeps fs s0 y2499.1 := by
    refine keeps_ite_fst ?_ ?_
    · refine State.cycleWrite_keeps _ _ _ _ _ ?_ (subF_trans (by decide) hF)
      exact k2500
    · refine keeps_mk_fst ?_
      exact k2500
  refine keeps_ite_fst ?_ ?_
  · refine State.halfWrite_keeps _ _ _ _ _ ?_ (subF_trans (by decide) hF)
    exact h1
  · refine keeps_ite_fst ?_ ?_
    · refine keeps_mk_fst ?_
      exact h1
    · refine keeps_mk_fst ?_
      exact k2501

theorem State.readAt_keeps {fs : List Zone} {s0 : State} (s : State) (port : ℕ) (addr : ℕ) (len : ℕ) (h1 : Keeps fs s0 s) (hF : subF [.free, .memo, .block 1, .out, .sp, .block 8, .block 16, .block 17, .block 7, .block 20, .pipes, .regs] fs = true) :
    Keeps fs s0 (State.readAt s port addr len).1 := by
  unfold State.readAt
  extract_lets -merge -underBinder y2502
  have k2503 : Keeps fs s0 y2502.1 := by
    refine State.regBytes_keeps _ _ _ ?_ (subF_trans (by decide) hF)
    exact h1
  refine keeps_ite_fst ?_ ?_
  · refine State.spRead_keeps _ _ _ ?_ (subF_trans (by decide) hF)
    exact h1
  · refine keeps_ite_fst ?_ ?_
    · refine State.secRead_keeps _ _ _ ?_ (subF_trans (by decide) hF)
      exact h1
    · refine keeps_ite_fst ?_ ?_
      · refine State.ddrRead_keeps _ _ _ ?_ (subF_trans (by decide) hF)
        exact h1
      · refine keeps_mk_fst ?_
        exact k2503

theorem State.writeAt_keeps {fs : List Zone} {s0 : State} (s : State) (port : ℕ) (ini : ℕ) (addr : ℕ) (met : List ℕ) (rivals : List (ℕ × ℕ × Word)) (d : Word64 × BitVec 8) (h1 : Keeps fs s0 s) (hF : subF [.block 1, .out, .block 8, .sp, .sec, .free, .ddr, .cpl, .regs, .block 0, .tkt, .block 2, .pwr, .block 18, .jt, .sm, .block 20, .streams, .pipes, .block 3, .il, .block 5, .van, .block 6, .block 7, .fab, .memo, .block 9, .block 16, .trv, .arr, .planes, .disp, .block 17, .sched, .kernels, .running, .log, .cs] fs = true) :
    Keeps fs s0 (State.writeAt s port ini addr met rivals d).1 := by
  unfold State.writeAt
  refine keeps_ite_fst ?_ ?_
  · refine State.spWriteReq_keeps _ _ _ _ _ ?_ (subF_trans (by decide) hF)
    exact h1
  · refine keeps_ite_fst ?_ ?_
    · refine State.secWriteReq_keeps _ _ _ ?_ (subF_trans (by decide) hF)
      exact h1
    · refine keeps_ite_fst ?_ ?_
      · refine State.ddrWriteReq_keeps _ _ _ ?_ (subF_trans (by decide) hF)
        exact h1
      · refine State.regWord_keeps _ _ _ _ _ ?_ (subF_trans (by decide) hF)
        exact h1

theorem State.writeEach_keeps {fs : List Zone} {s0 : State} (s : State) (port : ℕ) (ini : ℕ) (addr : ℕ) (met : List ℕ) (bad : List ℕ) (rivals : List (ℕ × ℕ × Word)) (x8 : ℕ) (x9 : List (Word64 × BitVec 8)) (h1 : Keeps fs s0 s) (hF : subF [.block 1, .out, .block 8, .sp, .sec, .free, .ddr, .cpl, .regs, .block 0, .tkt, .block 2, .pwr, .block 18, .jt, .sm, .block 20, .streams, .pipes, .block 3, .il, .block 5, .van, .block 6, .block 7, .fab, .memo, .block 9, .block 16, .trv, .arr, .planes, .disp, .block 17, .sched, .kernels, .running, .log, .cs] fs = true) :
    Keeps fs s0 (State.writeEach s port ini addr met bad rivals x8 x9).1 := by
  induction x9 generalizing s x8 with
  | nil => exact h1
  | cons d t ih =>
    unfold State.writeEach
    apply ih
    exact keeps_ite_fst h1 (State.writeAt_keeps _ _ _ _ _ _ _ h1 (subF_trans (by decide) hF))

theorem State.writeAll_keeps {fs : List Zone} {s0 : State} (s : State) (port : ℕ) (ini : ℕ) (addr : ℕ) (met : List ℕ) (bad : List ℕ) (rivals : List (ℕ × ℕ × Word)) (data : List (Word64 × BitVec 8)) (h1 : Keeps fs s0 s) (hF : subF [.block 1, .out, .block 8, .sp, .sec, .free, .ddr, .cpl, .regs, .block 0, .tkt, .block 2, .pwr, .block 18, .jt, .sm, .block 20, .streams, .pipes, .block 3, .il, .block 5, .van, .block 6, .block 7, .fab, .memo, .block 9, .block 16, .trv, .arr, .planes, .disp, .block 17, .sched, .kernels, .running, .log, .cs] fs = true) :
    Keeps fs s0 (State.writeAll s port ini addr met bad rivals data).1 := by
  unfold State.writeAll
  extract_lets -merge -underBinder y2504
  have k2505 : Keeps fs s0 y2504.1 := by
    refine State.writeEach_keeps _ _ _ _ _ _ _ _ _ ?_ (subF_trans (by decide) hF)
    exact h1
  refine keeps_mk_fst ?_
  exact k2505

theorem State.performTxn_keeps {fs : List Zone} {s0 : State} (s : State) (src : ℕ) (tag : ℕ) (met : List ℕ) (rivals : List (ℕ × ℕ × Word)) (h1 : Keeps fs s0 s) (hF : subF [.block 1, .out, .block 8, .sp, .sec, .free, .ddr, .cpl, .regs, .block 0, .tkt, .block 2, .pwr, .block 18, .jt, .sm, .block 20, .streams, .pipes, .block 3, .il, .block 5, .van, .block 6, .block 7, .fab, .memo, .block 9, .block 16, .trv, .arr, .planes, .disp, .block 17, .sched, .kernels, .running, .log, .cs] fs = true) :
    Keeps fs s0 (State.performTxn s src tag met rivals) := by
  unfold State.performTxn
  split
  · exact h1
  · split
    · exact h1
    · extract_lets -merge -underBinder y2506 y2507
      have k2508 : Keeps fs s0 y2506.1 := by
        refine State.writeAll_keeps _ _ _ _ _ _ _ _ ?_ (subF_trans (by decide) hF)
        exact h1
      have k2509 : Keeps fs s0 y2507.1 := by
        refine State.readAt_keeps _ _ _ _ ?_ (subF_trans (by decide) hF)
        exact h1
      refine keeps_ite ?_ ?_
      · exact h1
      · refine keeps_ite ?_ ?_
        · refine State.updTxn_keeps _ _ _ _ ?_ (subF_trans (by decide) hF)
          exact k2508
        · refine State.updTxn_keeps _ _ _ _ ?_ (subF_trans (by decide) hF)
          exact k2509

theorem State.rootJudge_keeps {fs : List Zone} {s0 : State} (s : State) (t : Txn) (h1 : Keeps fs s0 s) (hF : subF [.jt, .block 1, .out, .block 9, .block 18] fs = true) :
    Keeps fs s0 (State.rootJudge s t) := by
  unfold State.rootJudge
  extract_lets -merge -underBinder y2510 y2511
  have k2512 : Keeps fs s0 y2511.1 := by
    refine State.route_keeps _ _ _ _ _ _ _ _ ?_ (subF_trans (by decide) hF)
    exact h1
  refine keeps_ite ?_ ?_
  · refine State.updTxn_keeps _ _ _ _ ?_ (subF_trans (by decide) hF)
    exact h1
  · split
    · refine State.updTxn_keeps _ _ _ _ ?_ (subF_trans (by decide) hF)
      exact k2512
    · refine State.updTxn_keeps _ _ _ _ ?_ (subF_trans (by decide) hF)
      exact k2512

theorem State.depart_keeps {fs : List Zone} {s0 : State} (s : State) (src : ℕ) (tag : ℕ) (h1 : Keeps fs s0 s) (hF : subF [.jt, .block 1, .out, .block 9, .block 18] fs = true) :
    Keeps fs s0 (State.depart s src tag) := by
  unfold State.depart
  split
  · exact h1
  · refine keeps_ite ?_ ?_
    · exact h1
    · refine keeps_ite ?_ ?_
      · refine State.rootJudge_keeps _ _ ?_ (subF_trans (by decide) hF)
        exact h1
      · split
        · exact h1
        · refine State.rootJudge_keeps _ _ ?_ (subF_trans (by decide) hF)
          refine State.ttSpend_keeps _ _ ?_ (subF_trans (by decide) hF)
          exact h1
        · refine State.rootJudge_keeps _ _ ?_ (subF_trans (by decide) hF)
          refine State.updTxn_keeps _ _ _ _ ?_ (subF_trans (by decide) hF)
          exact h1

theorem State.enroll_keeps {fs : List Zone} {s0 : State} (s : State) (p : Packet) (write : Bool) (cp : Bool) (h1 : Keeps fs s0 s) (hF : subF [.jt] fs = true) :
    Keeps fs s0 (State.enroll s p write cp) := by
  unfold State.enroll
  extract_lets -merge -underBinder y2513 y2514
  refine keeps_ite ?_ ?_
  · exact h1
  · refine Keeps.upd ?_ (.inr rfl) (.inl ⟨rfl, rfl⟩) (.inr rfl) (.inr rfl) (.inr rfl) (.inl ⟨rfl, rfl⟩) (.inl ⟨rfl, rfl⟩) (.inl rfl) (.inr rfl) (.inl (alw hF (by decide))) (.inr rfl) (.inr rfl) (.inr ⟨rfl, rfl⟩) (.inr rfl) (.inr rfl) (.inr rfl) (.inr rfl) (.inr rfl) (.inr rfl) (.inr rfl) (.inr rfl) (.inr rfl) (.inr rfl) (.inr rfl) (.inr rfl) (.inr rfl) (.inr rfl) (.inr rfl) (.inl rfl) rfl
    exact h1

theorem State.linkCe_keeps {fs : List Zone} {s0 : State} (s : State) (x2 : ℕ) (h1 : Keeps fs s0 s) (hF : subF [.block 18] fs = true) :
    Keeps fs s0 (State.linkCe s x2) := by
  induction x2 generalizing s with
  | zero => exact h1
  | succ n ih =>
    unfold State.linkCe
    exact ih _ (satInc_keeps _ _ _ h1 (alwB hF 18 rfl (by decide)))

theorem State.sendPacket_keeps {fs : List Zone} {s0 : State} (s : State) (p : Packet) (write : Bool) (cp : Bool) (rivals : List (ℕ × ℕ × Word)) (h1 : Keeps fs s0 s) (hF : subF [.jt, .block 1, .out, .block 9, .block 18, .block 8, .sp, .sec, .free, .ddr, .cpl, .regs, .block 0, .tkt, .block 2, .pwr, .sm, .block 20, .streams, .pipes, .block 3, .il, .block 5, .van, .block 6, .block 7, .fab, .memo, .block 16, .trv, .arr, .planes, .disp, .block 17, .sched, .kernels, .running, .log, .cs] fs = true) :
    Keeps fs s0 (State.sendPacket s p write cp rivals) := by
  unfold State.sendPacket
  extract_lets -merge -underBinder y2515
  have k2516 : Keeps fs s0 y2515 := by
    refine State.depart_keeps _ _ _ ?_ (subF_trans (by decide) hF)
    refine State.enroll_keeps _ _ _ _ ?_ (subF_trans (by decide) hF)
    exact h1
  split
  · exact k2516
  · split
    · extract_lets -merge -underBinder y2517 y2518
      have k2519 : Keeps fs s0 y2517 := by
        refine State.linkCe_keeps _ _ ?_ (subF_trans (by decide) hF)
        exact k2516
      have k2520 : Keeps fs s0 y2518 := by
        refine keeps_ite ?_ ?_
        · exact k2519
        · refine State.updTxn_keeps _ _ _ _ ?_ (subF_trans (by decide) hF)
          refine State.fire_keeps _ _ ?_ (subF_trans (by decide) hF)
          refine State.jtError_keeps _ _ _ _ _ _ ?_ (subF_trans (by decide) hF)
          exact k2519
      refine keeps_ite ?_ ?_
      · refine State.performTxn_keeps _ _ _ _ _ ?_ (subF_trans (by decide) hF)
        exact k2520
      · exact k2520
    · exact k2516

theorem execRd_keeps (p : Packet) (s : State) : ∃ s', execRd p s = .next s' ∧
    Keeps [.jt, .block 1, .out, .block 9, .block 18, .block 8, .sp, .sec, .free, .ddr, .cpl, .regs, .block 0, .tkt, .block 2, .pwr, .sm, .block 20, .streams, .pipes, .block 3, .il, .block 5, .van, .block 6, .block 7, .fab, .memo, .block 16, .trv, .arr, .planes, .disp, .block 17, .sched, .kernels, .running, .log, .cs] s s' := by
  have hF : subF [.jt, .block 1, .out, .block 9, .block 18, .block 8, .sp, .sec, .free, .ddr, .cpl, .regs, .block 0, .tkt, .block 2, .pwr, .sm, .block 20, .streams, .pipes, .block 3, .il, .block 5, .van, .block 6, .block 7, .fab, .memo, .block 16, .trv, .arr, .planes, .disp, .block 17, .sched, .kernels, .running, .log, .cs] [.jt, .block 1, .out, .block 9, .block 18, .block 8, .sp, .sec, .free, .ddr, .cpl, .regs, .block 0, .tkt, .block 2, .pwr, .sm, .block 20, .streams, .pipes, .block 3, .il, .block 5, .van, .block 6, .block 7, .fab, .memo, .block 16, .trv, .arr, .planes, .disp, .block 17, .sched, .kernels, .running, .log, .cs] = true := by decide
  unfold execRd
  refine ⟨_, rfl, ?_⟩
  refine keeps_ite ?_ ?_
  · refine State.sendPacket_keeps _ _ _ _ _ ?_ (subF_trans (by decide) hF)
    exact (Keeps.rfl' _ _)
  · exact (Keeps.rfl' _ _)

theorem execWr_keeps (p : Packet) (rivals : List (ℕ × ℕ × Word)) (s : State) : ∃ s', execWr p rivals s = .next s' ∧
    Keeps [.jt, .block 1, .out, .block 9, .block 18, .block 8, .sp, .sec, .free, .ddr, .cpl, .regs, .block 0, .tkt, .block 2, .pwr, .sm, .block 20, .streams, .pipes, .block 3, .il, .block 5, .van, .block 6, .block 7, .fab, .memo, .block 16, .trv, .arr, .planes, .disp, .block 17, .sched, .kernels, .running, .log, .cs] s s' := by
  have hF : subF [.jt, .block 1, .out, .block 9, .block 18, .block 8, .sp, .sec, .free, .ddr, .cpl, .regs, .block 0, .tkt, .block 2, .pwr, .sm, .block 20, .streams, .pipes, .block 3, .il, .block 5, .van, .block 6, .block 7, .fab, .memo, .block 16, .trv, .arr, .planes, .disp, .block 17, .sched, .kernels, .running, .log, .cs] [.jt, .block 1, .out, .block 9, .block 18, .block 8, .sp, .sec, .free, .ddr, .cpl, .regs, .block 0, .tkt, .block 2, .pwr, .sm, .block 20, .streams, .pipes, .block 3, .il, .block 5, .van, .block 6, .block 7, .fab, .memo, .block 16, .trv, .arr, .planes, .disp, .block 17, .sched, .kernels, .running, .log, .cs] = true := by decide
  unfold execWr
  refine ⟨_, rfl, ?_⟩
  refine keeps_ite ?_ ?_
  · refine State.sendPacket_keeps _ _ _ _ _ ?_ (subF_trans (by decide) hF)
    exact (Keeps.rfl' _ _)
  · exact (Keeps.rfl' _ _)

theorem execCpreq_keeps (p : Packet) (s : State) : ∃ s', execCpreq p s = .next s' ∧
    Keeps [.jt, .block 1, .out, .block 9, .block 18, .block 8, .sp, .sec, .free, .ddr, .cpl, .regs, .block 0, .tkt, .block 2, .pwr, .sm, .block 20, .streams, .pipes, .block 3, .il, .block 5, .van, .block 6, .block 7, .fab, .memo, .block 16, .trv, .arr, .planes, .disp, .block 17, .sched, .kernels, .running, .log, .cs] s s' := by
  have hF : subF [.jt, .block 1, .out, .block 9, .block 18, .block 8, .sp, .sec, .free, .ddr, .cpl, .regs, .block 0, .tkt, .block 2, .pwr, .sm, .block 20, .streams, .pipes, .block 3, .il, .block 5, .van, .block 6, .block 7, .fab, .memo, .block 16, .trv, .arr, .planes, .disp, .block 17, .sched, .kernels, .running, .log, .cs] [.jt, .block 1, .out, .block 9, .block 18, .block 8, .sp, .sec, .free, .ddr, .cpl, .regs, .block 0, .tkt, .block 2, .pwr, .sm, .block 20, .streams, .pipes, .block 3, .il, .block 5, .van, .block 6, .block 7, .fab, .memo, .block 16, .trv, .arr, .planes, .disp, .block 17, .sched, .kernels, .running, .log, .cs] = true := by decide
  unfold execCpreq
  refine ⟨_, rfl, ?_⟩
  refine keeps_ite ?_ ?_
  · refine State.sendPacket_keeps _ _ _ _ _ ?_ (subF_trans (by decide) hF)
    exact (Keeps.rfl' _ _)
  · exact (Keeps.rfl' _ _)

theorem State.performHere_keeps {fs : List Zone} {s0 : State} (s : State) (src : ℕ) (tag : ℕ) (write : Bool) (ports : ℕ → Bool) (met : List ℕ) (h1 : Keeps fs s0 s) (hF : subF [.block 1, .out, .block 8, .sp, .sec, .free, .ddr, .cpl, .regs, .block 0, .tkt, .block 2, .pwr, .block 18, .jt, .sm, .block 20, .streams, .pipes, .block 3, .il, .block 5, .van, .block 6, .block 7, .fab, .memo, .block 9, .block 16, .trv, .arr, .planes, .disp, .block 17, .sched, .kernels, .running, .log, .cs] fs = true) :
    Keeps fs s0 (State.performHere s src tag write ports met) := by
  unfold State.performHere
  split
  · exact h1
  · refine keeps_ite ?_ ?_
    · refine State.performTxn_keeps _ _ _ _ _ ?_ (subF_trans (by decide) hF)
      exact h1
    · exact h1

theorem execScratchpadRead_keeps (src : ℕ) (tag : ℕ) (s : State) : ∃ s', execScratchpadRead src tag s = .next s' ∧
    Keeps [.block 1, .out, .block 8, .sp, .sec, .free, .ddr, .cpl, .regs, .block 0, .tkt, .block 2, .pwr, .block 18, .jt, .sm, .block 20, .streams, .pipes, .block 3, .il, .block 5, .van, .block 6, .block 7, .fab, .memo, .block 9, .block 16, .trv, .arr, .planes, .disp, .block 17, .sched, .kernels, .running, .log, .cs] s s' := by
  have hF : subF [.block 1, .out, .block 8, .sp, .sec, .free, .ddr, .cpl, .regs, .block 0, .tkt, .block 2, .pwr, .block 18, .jt, .sm, .block 20, .streams, .pipes, .block 3, .il, .block 5, .van, .block 6, .block 7, .fab, .memo, .block 9, .block 16, .trv, .arr, .planes, .disp, .block 17, .sched, .kernels, .running, .log, .cs] [.block 1, .out, .block 8, .sp, .sec, .free, .ddr, .cpl, .regs, .block 0, .tkt, .block 2, .pwr, .block 18, .jt, .sm, .block 20, .streams, .pipes, .block 3, .il, .block 5, .van, .block 6, .block 7, .fab, .memo, .block 9, .block 16, .trv, .arr, .planes, .disp, .block 17, .sched, .kernels, .running, .log, .cs] = true := by decide
  unfold execScratchpadRead
  refine ⟨_, rfl, ?_⟩
  refine State.performHere_keeps _ _ _ _ _ _ ?_ (subF_trans (by decide) hF)
  exact (Keeps.rfl' _ _)

theorem execScratchpadWrite_keeps (src : ℕ) (tag : ℕ) (met : List ℕ) (s : State) : ∃ s', execScratchpadWrite src tag met s = .next s' ∧
    Keeps [.block 1, .out, .block 8, .sp, .sec, .free, .ddr, .cpl, .regs, .block 0, .tkt, .block 2, .pwr, .block 18, .jt, .sm, .block 20, .streams, .pipes, .block 3, .il, .block 5, .van, .block 6, .block 7, .fab, .memo, .block 9, .block 16, .trv, .arr, .planes, .disp, .block 17, .sched, .kernels, .running, .log, .cs] s s' := by
  have hF : subF [.block 1, .out, .block 8, .sp, .sec, .free, .ddr, .cpl, .regs, .block 0, .tkt, .block 2, .pwr, .block 18, .jt, .sm, .block 20, .streams, .pipes, .block 3, .il, .block 5, .van, .block 6, .block 7, .fab, .memo, .block 9, .block 16, .trv, .arr, .planes, .disp, .block 17, .sched, .kernels, .running, .log, .cs] [.block 1, .out, .block 8, .sp, .sec, .free, .ddr, .cpl, .regs, .block 0, .tkt, .block 2, .pwr, .block 18, .jt, .sm, .block 20, .streams, .pipes, .block 3, .il, .block 5, .van, .block 6, .block 7, .fab, .memo, .block 9, .block 16, .trv, .arr, .planes, .disp, .block 17, .sched, .kernels, .running, .log, .cs] = true := by decide
  unfold execScratchpadWrite
  refine ⟨_, rfl, ?_⟩
  refine State.performHere_keeps _ _ _ _ _ _ ?_ (subF_trans (by decide) hF)
  exact (Keeps.rfl' _ _)

theorem execSecureRegionWrite_keeps (src : ℕ) (tag : ℕ) (s : State) : ∃ s', execSecureRegionWrite src tag s = .next s' ∧
    Keeps [.block 1, .out, .block 8, .sp, .sec, .free, .ddr, .cpl, .regs, .block 0, .tkt, .block 2, .pwr, .block 18, .jt, .sm, .block 20, .streams, .pipes, .block 3, .il, .block 5, .van, .block 6, .block 7, .fab, .memo, .block 9, .block 16, .trv, .arr, .planes, .disp, .block 17, .sched, .kernels, .running, .log, .cs] s s' := by
  have hF : subF [.block 1, .out, .block 8, .sp, .sec, .free, .ddr, .cpl, .regs, .block 0, .tkt, .block 2, .pwr, .block 18, .jt, .sm, .block 20, .streams, .pipes, .block 3, .il, .block 5, .van, .block 6, .block 7, .fab, .memo, .block 9, .block 16, .trv, .arr, .planes, .disp, .block 17, .sched, .kernels, .running, .log, .cs] [.block 1, .out, .block 8, .sp, .sec, .free, .ddr, .cpl, .regs, .block 0, .tkt, .block 2, .pwr, .block 18, .jt, .sm, .block 20, .streams, .pipes, .block 3, .il, .block 5, .van, .block 6, .block 7, .fab, .memo, .block 9, .block 16, .trv, .arr, .planes, .disp, .block 17, .sched, .kernels, .running, .log, .cs] = true := by decide
  unfold execSecureRegionWrite
  refine ⟨_, rfl, ?_⟩
  refine State.performHere_keeps _ _ _ _ _ _ ?_ (subF_trans (by decide) hF)
  exact (Keeps.rfl' _ _)

theorem execLpddr5Write_keeps (src : ℕ) (tag : ℕ) (s : State) : ∃ s', execLpddr5Write src tag s = .next s' ∧
    Keeps [.block 1, .out, .block 8, .sp, .sec, .free, .ddr, .cpl, .regs, .block 0, .tkt, .block 2, .pwr, .block 18, .jt, .sm, .block 20, .streams, .pipes, .block 3, .il, .block 5, .van, .block 6, .block 7, .fab, .memo, .block 9, .block 16, .trv, .arr, .planes, .disp, .block 17, .sched, .kernels, .running, .log, .cs] s s' := by
  have hF : subF [.block 1, .out, .block 8, .sp, .sec, .free, .ddr, .cpl, .regs, .block 0, .tkt, .block 2, .pwr, .block 18, .jt, .sm, .block 20, .streams, .pipes, .block 3, .il, .block 5, .van, .block 6, .block 7, .fab, .memo, .block 9, .block 16, .trv, .arr, .planes, .disp, .block 17, .sched, .kernels, .running, .log, .cs] [.block 1, .out, .block 8, .sp, .sec, .free, .ddr, .cpl, .regs, .block 0, .tkt, .block 2, .pwr, .block 18, .jt, .sm, .block 20, .streams, .pipes, .block 3, .il, .block 5, .van, .block 6, .block 7, .fab, .memo, .block 9, .block 16, .trv, .arr, .planes, .disp, .block 17, .sched, .kernels, .running, .log, .cs] = true := by decide
  unfold execLpddr5Write
  refine ⟨_, rfl, ?_⟩
  refine State.performHere_keeps _ _ _ _ _ _ ?_ (subF_trans (by decide) hF)
  exact (Keeps.rfl' _ _)

theorem execLpddr5Read_keeps (src : ℕ) (tag : ℕ) (s : State) : ∃ s', execLpddr5Read src tag s = .next s' ∧
    Keeps [.block 1, .out, .block 8, .sp, .sec, .free, .ddr, .cpl, .regs, .block 0, .tkt, .block 2, .pwr, .block 18, .jt, .sm, .block 20, .streams, .pipes, .block 3, .il, .block 5, .van, .block 6, .block 7, .fab, .memo, .block 9, .block 16, .trv, .arr, .planes, .disp, .block 17, .sched, .kernels, .running, .log, .cs] s s' := by
  have hF : subF [.block 1, .out, .block 8, .sp, .sec, .free, .ddr, .cpl, .regs, .block 0, .tkt, .block 2, .pwr, .block 18, .jt, .sm, .block 20, .streams, .pipes, .block 3, .il, .block 5, .van, .block 6, .block 7, .fab, .memo, .block 9, .block 16, .trv, .arr, .planes, .disp, .block 17, .sched, .kernels, .running, .log, .cs] [.block 1, .out, .block 8, .sp, .sec, .free, .ddr, .cpl, .regs, .block 0, .tkt, .block 2, .pwr, .block 18, .jt, .sm, .block 20, .streams, .pipes, .block 3, .il, .block 5, .van, .block 6, .block 7, .fab, .memo, .block 9, .block 16, .trv, .arr, .planes, .disp, .block 17, .sched, .kernels, .running, .log, .cs] = true := by decide
  unfold execLpddr5Read
  refine ⟨_, rfl, ?_⟩
  refine State.performHere_keeps _ _ _ _ _ _ ?_ (subF_trans (by decide) hF)
  exact (Keeps.rfl' _ _)

theorem State.coprocArrived_keeps {fs : List Zone} {s0 : State} (s : State) (r : Resp) (result : Word) (flags : Option (BitVec 4)) (h1 : Keeps fs s0 s) (hF : subF [.disp, .block 17, .sched, .kernels, .running, .log, .free] fs = true) :
    Keeps fs s0 (State.coprocArrived s r result flags) := by
  unfold State.coprocArrived
  split
  · extract_lets -merge -underBinder y2521 y2522 y2523
    have k2524 : Keeps fs s0 y2521 := by
      refine State.waitFor_keeps _ _ ?_ (subF_trans (by decide) hF)
      exact h1
    have k2525 : Keeps fs s0 y2522 := by
      unfold y2522
      split
      · refine State.setFlags_keeps _ _ ?_ (subF_trans (by decide) hF)
        exact k2524
      · exact k2524
    refine keeps_ite ?_ ?_
    · refine State.endInstr_keeps _ _ _ ?_ (subF_trans (by decide) hF)
      exact k2525
    · refine State.trapHere_keeps _ _ _ _ _ ?_ (subF_trans (by decide) hF)
      exact k2524
  · exact h1

theorem State.respond_keeps {fs : List Zone} {s0 : State} (s : State) (t : Txn) (r : Resp) (data : List Byte) (h1 : Keeps fs s0 s) (hF : subF [.disp, .block 17, .sched, .kernels, .running, .log, .free, .block 8, .jt, .planes, .arr, .block 16, .block 1, .out, .block 3, .pipes, .streams, .block 20] fs = true) :
    Keeps fs s0 (State.respond s t r data) := by
  unfold State.respond
  refine keeps_ite ?_ ?_
  · refine keeps_ite ?_ ?_
    · refine State.coprocArrived_keeps _ _ _ _ ?_ (subF_trans (by decide) hF)
      exact h1
    · refine keeps_ite ?_ ?_
      · refine State.storeArrived_keeps _ _ _ ?_ (subF_trans (by decide) hF)
        exact h1
      · refine State.loadArrived_keeps _ _ _ _ ?_ (subF_trans (by decide) hF)
        exact h1
  · refine keeps_ite ?_ ?_
    · refine State.pipeResponse_keeps _ _ _ _ _ ?_ (subF_trans (by decide) hF)
      exact h1
    · refine keeps_ite ?_ ?_
      · refine State.camResponse_keeps _ _ _ _ ?_ (subF_trans (by decide) hF)
        exact h1
      · refine keeps_ite ?_ ?_
        · exact h1
        · refine State.emit_keeps _ _ ?_ (subF_trans (by decide) hF)
          exact h1

theorem State.lateResponse_keeps {fs : List Zone} {s0 : State} (s : State) (src : ℕ) (tag : ℕ) (h1 : Keeps fs s0 s) (hF : subF [.block 1, .out, .block 18, .jt] fs = true) :
    Keeps fs s0 (State.lateResponse s src tag) := by
  unfold State.lateResponse
  refine State.fire_keeps _ _ ?_ (subF_trans (by decide) hF)
  refine satInc_keeps _ _ _ ?_ (alwB hF 18 rfl (by decide))
  refine State.updTxn_keeps _ _ _ _ ?_ (subF_trans (by decide) hF)
  exact h1

theorem State.readReturns_keeps {fs : List Zone} {s0 : State} (s : State) (src : ℕ) (tag : ℕ) (ext : Resp) (data : List Byte) (poison : Bool) (ce : ℕ) (h1 : Keeps fs s0 s) (hF : subF [.block 1, .out, .block 18, .jt, .free, .disp, .block 17, .sched, .kernels, .running, .log, .block 8, .planes, .arr, .block 16, .block 3, .pipes, .streams, .block 20] fs = true) :
    Keeps fs s0 (State.readReturns s src tag ext data poison ce) := by
  unfold State.readReturns
  split
  · exact h1
  · refine keeps_ite ?_ ?_
    · exact h1
    · refine keeps_ite ?_ ?_
      · refine State.lateResponse_keeps _ _ _ ?_ (subF_trans (by decide) hF)
        refine State.linkCe_keeps _ _ ?_ (subF_trans (by decide) hF)
        exact h1
      · split
        · exact h1
        · extract_lets -merge -underBinder y2526
          have k2527 : Keeps fs s0 y2526 := by
            refine State.updTxn_keeps _ _ _ _ ?_ (subF_trans (by decide) hF)
            refine State.linkCe_keeps _ _ ?_ (subF_trans (by decide) hF)
            exact h1
          refine keeps_ite ?_ ?_
          · refine State.useFree_keeps _ ?_ (subF_trans (by decide) hF)
            refine State.respond_keeps _ _ _ _ ?_ (subF_trans (by decide) hF)
            refine State.fire_keeps _ _ ?_ (subF_trans (by decide) hF)
            refine State.jtError_keeps _ _ _ _ _ _ ?_ (subF_trans (by decide) hF)
            exact k2527
          · refine State.respond_keeps _ _ _ _ ?_ (subF_trans (by decide) hF)
            exact k2527

theorem execRdrsp_keeps (src : ℕ) (tag : ℕ) (ext : Resp) (data : List Byte) (poison : Bool) (ce : ℕ) (s : State) : ∃ s', execRdrsp src tag ext data poison ce s = .next s' ∧
    Keeps [.block 1, .out, .block 18, .jt, .free, .disp, .block 17, .sched, .kernels, .running, .log, .block 8, .planes, .arr, .block 16, .block 3, .pipes, .streams, .block 20] s s' := by
  have hF : subF [.block 1, .out, .block 18, .jt, .free, .disp, .block 17, .sched, .kernels, .running, .log, .block 8, .planes, .arr, .block 16, .block 3, .pipes, .streams, .block 20] [.block 1, .out, .block 18, .jt, .free, .disp, .block 17, .sched, .kernels, .running, .log, .block 8, .planes, .arr, .block 16, .block 3, .pipes, .streams, .block 20] = true := by decide
  unfold execRdrsp
  refine ⟨_, rfl, ?_⟩
  refine State.readReturns_keeps _ _ _ _ _ _ _ ?_ (subF_trans (by decide) hF)
  exact (Keeps.rfl' _ _)

theorem State.writeReturns_keeps {fs : List Zone} {s0 : State} (s : State) (src : ℕ) (tag : ℕ) (ext : Resp) (ce : ℕ) (h1 : Keeps fs s0 s) (hF : subF [.block 1, .out, .block 18, .jt, .disp, .block 17, .sched, .kernels, .running, .log, .free, .block 8, .planes, .arr, .block 16, .block 3, .pipes, .streams, .block 20] fs = true) :
    Keeps fs s0 (State.writeReturns s src tag ext ce) := by
  unfold State.writeReturns
  split
  · exact h1
  · refine keeps_ite ?_ ?_
    · exact h1
    · refine keeps_ite ?_ ?_
      · refine State.lateResponse_keeps _ _ _ ?_ (subF_trans (by decide) hF)
        refine State.linkCe_keeps _ _ ?_ (subF_trans (by decide) hF)
        exact h1
      · split
        · exact h1
        · refine State.respond_keeps _ _ _ _ ?_ (subF_trans (by decide) hF)
          refine State.updTxn_keeps _ _ _ _ ?_ (subF_trans (by decide) hF)
          refine State.linkCe_keeps _ _ ?_ (subF_trans (by decide) hF)
          exact h1

theorem execWrrsp_keeps (src : ℕ) (tag : ℕ) (ext : Resp) (ce : ℕ) (s : State) : ∃ s', execWrrsp src tag ext ce s = .next s' ∧
    Keeps [.block 1, .out, .block 18, .jt, .disp, .block 17, .sched, .kernels, .running, .log, .free, .block 8, .planes, .arr, .block 16, .block 3, .pipes, .streams, .block 20] s s' := by
  have hF : subF [.block 1, .out, .block 18, .jt, .disp, .block 17, .sched, .kernels, .running, .log, .free, .block 8, .planes, .arr, .block 16, .block 3, .pipes, .streams, .block 20] [.block 1, .out, .block 18, .jt, .disp, .block 17, .sched, .kernels, .running, .log, .free, .block 8, .planes, .arr, .block 16, .block 3, .pipes, .streams, .block 20] = true := by decide
  unfold execWrrsp
  refine ⟨_, rfl, ?_⟩
  refine State.writeReturns_keeps _ _ _ _ _ ?_ (subF_trans (by decide) hF)
  exact (Keeps.rfl' _ _)

theorem State.coprocReturns_keeps {fs : List Zone} {s0 : State} (s : State) (r : Resp) (result : Word) (flags : Option (BitVec 4)) (h1 : Keeps fs s0 s) (hF : subF [.jt, .block 1, .out, .block 18, .disp, .block 17, .sched, .kernels, .running, .log, .free] fs = true) :
    Keeps fs s0 (State.coprocReturns s r result flags) := by
  unfold State.coprocReturns
  split
  · exact h1
  · extract_lets -merge -underBinder y2528
    have k2529 : Keeps fs s0 y2528 := by
      refine State.updTxn_keeps _ _ _ _ ?_ (subF_trans (by decide) hF)
      exact h1
    split
    · refine State.lateResponse_keeps _ _ _ ?_ (subF_trans (by decide) hF)
      exact h1
    · refine State.coprocArrived_keeps _ _ _ _ ?_ (subF_trans (by decide) hF)
      exact k2529
    · refine State.coprocArrived_keeps _ _ _ _ ?_ (subF_trans (by decide) hF)
      exact k2529
    · exact h1

theorem execCprsp_keeps (r : Resp) (result : Word) (flags : Option (BitVec 4)) (s : State) : ∃ s', execCprsp r result flags s = .next s' ∧
    Keeps [.jt, .block 1, .out, .block 18, .disp, .block 17, .sched, .kernels, .running, .log, .free] s s' := by
  have hF : subF [.jt, .block 1, .out, .block 18, .disp, .block 17, .sched, .kernels, .running, .log, .free] [.jt, .block 1, .out, .block 18, .disp, .block 17, .sched, .kernels, .running, .log, .free] = true := by decide
  unfold execCprsp
  refine ⟨_, rfl, ?_⟩
  refine State.coprocReturns_keeps _ _ _ _ ?_ (subF_trans (by decide) hF)
  exact (Keeps.rfl' _ _)

theorem execCoprocResponse_keeps (r : Resp) (result : Word) (flags : Option (BitVec 4)) (s : State) : ∃ s', execCoprocResponse r result flags s = .next s' ∧
    Keeps [.jt, .block 1, .out, .block 18, .disp, .block 17, .sched, .kernels, .running, .log, .free, .block 9] s s' := by
  have hF : subF [.jt, .block 1, .out, .block 18, .disp, .block 17, .sched, .kernels, .running, .log, .free, .block 9] [.jt, .block 1, .out, .block 18, .disp, .block 17, .sched, .kernels, .running, .log, .free, .block 9] = true := by decide
  unfold execCoprocResponse
  refine ⟨_, rfl, ?_⟩
  split
  · exact (Keeps.rfl' _ _)
  · refine State.coprocReturns_keeps _ _ _ _ ?_ (subF_trans (by decide) hF)
    refine State.depart_keeps _ _ _ ?_ (subF_trans (by decide) hF)
    exact (Keeps.rfl' _ _)

theorem State.reqTimeout_keeps {fs : List Zone} {s0 : State} (s : State) (src : ℕ) (tag : ℕ) (h1 : Keeps fs s0 s) (hF : subF [.jt, .block 1, .out, .block 18, .free, .disp, .block 17, .sched, .kernels, .running, .log, .block 8, .planes, .arr, .block 16, .block 3, .pipes, .streams, .block 20] fs = true) :
    Keeps fs s0 (State.reqTimeout s src tag) := by
  unfold State.reqTimeout
  split
  · exact h1
  · extract_lets -merge -underBinder y2530
    have k2531 : Keeps fs s0 y2530 := by
      refine State.updTxn_keeps _ _ _ _ ?_ (subF_trans (by decide) hF)
      refine State.fire_keeps _ _ ?_ (subF_trans (by decide) hF)
      refine State.jtError_keeps _ _ _ _ _ _ ?_ (subF_trans (by decide) hF)
      refine satInc_keeps _ _ _ ?_ (alwB hF 18 rfl (by decide))
      exact h1
    refine keeps_ite ?_ ?_
    · exact h1
    · refine State.useFree_keeps _ ?_ (subF_trans (by decide) hF)
      refine State.respond_keeps _ _ _ _ ?_ (subF_trans (by decide) hF)
      exact k2531

theorem execReqTimeout_keeps (src : ℕ) (tag : ℕ) (s : State) : ∃ s', execReqTimeout src tag s = .next s' ∧
    Keeps [.jt, .block 1, .out, .block 18, .free, .disp, .block 17, .sched, .kernels, .running, .log, .block 8, .planes, .arr, .block 16, .block 3, .pipes, .streams, .block 20] s s' := by
  have hF : subF [.jt, .block 1, .out, .block 18, .free, .disp, .block 17, .sched, .kernels, .running, .log, .block 8, .planes, .arr, .block 16, .block 3, .pipes, .streams, .block 20] [.jt, .block 1, .out, .block 18, .free, .disp, .block 17, .sched, .kernels, .running, .log, .block 8, .planes, .arr, .block 16, .block 3, .pipes, .streams, .block 20] = true := by decide
  unfold execReqTimeout
  refine ⟨_, rfl, ?_⟩
  refine State.reqTimeout_keeps _ _ _ ?_ (subF_trans (by decide) hF)
  exact (Keeps.rfl' _ _)

theorem State.loadReturns_keeps {fs : List Zone} {s0 : State} (s : State) (extResp : Resp) (ext : Word64) (h1 : Keeps fs s0 s) (hF : subF [.block 1, .out, .block 18, .jt, .free, .disp, .block 17, .sched, .kernels, .running, .log, .block 8, .planes, .arr, .block 16, .block 3, .pipes, .streams, .block 20, .sp, .sec, .ddr, .cpl, .regs, .block 0, .tkt, .block 2, .pwr, .sm, .il, .block 5, .van, .block 6, .block 7, .fab, .memo, .block 9, .trv, .cs] fs = true) :
    Keeps fs s0 (State.loadReturns s extResp ext) := by
  unfold State.loadReturns
  split
  · refine State.readReturns_keeps _ _ _ _ _ _ _ ?_ (subF_trans (by decide) hF)
    refine State.performTxn_keeps _ _ _ _ _ ?_ (subF_trans (by decide) hF)
    refine State.depart_keeps _ _ _ ?_ (subF_trans (by decide) hF)
    exact h1
  · refine keeps_ite ?_ ?_
    · refine State.trapHere_keeps _ _ _ _ _ ?_ (subF_trans (by decide) hF)
      exact h1
    · exact h1

theorem execLoadResponse_keeps (extResp : Resp) (ext : Word64) (s : State) : ∃ s', execLoadResponse extResp ext s = .next s' ∧
    Keeps [.block 1, .out, .block 18, .jt, .free, .disp, .block 17, .sched, .kernels, .running, .log, .block 8, .planes, .arr, .block 16, .block 3, .pipes, .streams, .block 20, .sp, .sec, .ddr, .cpl, .regs, .block 0, .tkt, .block 2, .pwr, .sm, .il, .block 5, .van, .block 6, .block 7, .fab, .memo, .block 9, .trv, .cs] s s' := by
  have hF : subF [.block 1, .out, .block 18, .jt, .free, .disp, .block 17, .sched, .kernels, .running, .log, .block 8, .planes, .arr, .block 16, .block 3, .pipes, .streams, .block 20, .sp, .sec, .ddr, .cpl, .regs, .block 0, .tkt, .block 2, .pwr, .sm, .il, .block 5, .van, .block 6, .block 7, .fab, .memo, .block 9, .trv, .cs] [.block 1, .out, .block 18, .jt, .free, .disp, .block 17, .sched, .kernels, .running, .log, .block 8, .planes, .arr, .block 16, .block 3, .pipes, .streams, .block 20, .sp, .sec, .ddr, .cpl, .regs, .block 0, .tkt, .block 2, .pwr, .sm, .il, .block 5, .van, .block 6, .block 7, .fab, .memo, .block 9, .trv, .cs] = true := by decide
  unfold execLoadResponse
  refine ⟨_, rfl, ?_⟩
  refine State.loadReturns_keeps _ _ _ ?_ (subF_trans (by decide) hF)
  exact (Keeps.rfl' _ _)

theorem State.accessRead_keeps {fs : List Zone} {s0 : State} (s : State) (src : ℕ) (ini : ℕ) (addr : ℕ) (len : ℕ) (h1 : Keeps fs s0 s) (hF : subF [.block 1, .out, .block 9, .block 18, .free, .memo, .sp, .block 8, .block 16, .block 17, .block 7, .block 20, .pipes, .regs] fs = true) :
    Keeps fs s0 (State.accessRead s src ini addr len).1 := by
  unfold State.accessRead
  extract_lets -merge -underBinder y2532
  have k2533 : Keeps fs s0 y2532.1 := by
    refine State.route_keeps _ _ _ _ _ _ _ _ ?_ (subF_trans (by decide) hF)
    exact h1
  split
  · refine keeps_mk_fst ?_
    exact k2533
  · refine keeps_mk_fst ?_
    refine State.useFree_keeps _ ?_ (subF_trans (by decide) hF)
    exact k2533
  · refine State.readAt_keeps _ _ _ _ ?_ (subF_trans (by decide) hF)
    exact k2533

theorem State.accessWrite_keeps {fs : List Zone} {s0 : State} (s : State) (src : ℕ) (ini : ℕ) (addr : ℕ) (met : List ℕ) (rivals : List (ℕ × ℕ × Word)) (d : Word64 × BitVec 8) (h1 : Keeps fs s0 s) (hF : subF [.block 1, .out, .block 9, .block 18, .block 8, .sp, .sec, .free, .ddr, .cpl, .regs, .block 0, .tkt, .block 2, .pwr, .jt, .sm, .block 20, .streams, .pipes, .block 3, .il, .block 5, .van, .block 6, .block 7, .fab, .memo, .block 16, .trv, .arr, .planes, .disp, .block 17, .sched, .kernels, .running, .log, .cs] fs = true) :
    Keeps fs s0 (State.accessWrite s src ini addr met rivals d).1 := by
  unfold State.accessWrite
  extract_lets -merge -underBinder y2534
  have k2535 : Keeps fs s0 y2534.1 := by
    refine State.route_keeps _ _ _ _ _ _ _ _ ?_ (subF_trans (by decide) hF)
    exact h1
  split
  · refine keeps_mk_fst ?_
    exact k2535
  · refine keeps_mk_fst ?_
    exact k2535
  · refine State.writeAt_keeps _ _ _ _ _ _ _ ?_ (subF_trans (by decide) hF)
    exact k2535

end Sys2Proof.Machine
end

