-- ==== Sys2Proof/Laws/KeepsHostAccess.lean ====
section
/-! SUPPORT. What each operation of Machine/HostAccess.lean can change, one lemma an operation (Laws/KeepsBase.lean). -/

-- elaborated one declaration at a time, so that the package compiles as one text in bounded memory
set_option Elab.async false

namespace Sys2Proof.Machine

theorem State.accessTimeout_keeps {fs : List Zone} {s0 : State} (s : State) (ini : ℕ) (addr : ℕ) (h1 : Keeps fs s0 s) (hF : subF [.free, .block 1, .out, .block 18] fs = true) :
    Keeps fs s0 (State.accessTimeout s ini addr) := by
  unfold State.accessTimeout
  refine State.useFree_keeps _ ?_ (subF_trans (by decide) hF)
  refine State.fire_keeps _ _ ?_ (subF_trans (by decide) hF)
  refine State.jtError_keeps _ _ _ _ _ _ ?_ (subF_trans (by decide) hF)
  refine satInc_keeps _ _ _ ?_ (alwB hF 18 rfl (by decide))
  exact h1

theorem State.maybe_keeps {fs : List Zone} {s0 : State} (s : State) (t : State) (ini : ℕ) (addr : ℕ) (h1 : Keeps fs s0 s) (h2 : Keeps fs s0 t) (hF : subF [.free, .block 1, .out, .block 18] fs = true) :
    Keeps fs s0 (State.maybe s t ini addr) := by
  unfold State.maybe
  refine State.accessTimeout_keeps _ _ _ ?_ (subF_trans (by decide) hF)
  refine keeps_ite ?_ ?_
  · exact h2
  · exact h1

theorem State.treeWrite_keeps {fs : List Zone} {s0 : State} (s : State) (ini : ℕ) (a : ℕ) (v : Word) (rivals : List (ℕ × ℕ × Word)) (late : Bool) (h1 : Keeps fs s0 s) (hF : subF [.block 1, .out, .block 9, .block 18, .block 8, .sp, .sec, .free, .ddr, .cpl, .regs, .block 0, .tkt, .block 2, .pwr, .jt, .sm, .block 20, .streams, .pipes, .block 3, .il, .block 5, .van, .block 6, .block 7, .fab, .memo, .block 16, .trv, .arr, .planes, .disp, .block 17, .sched, .kernels, .running, .log, .cs] fs = true) :
    Keeps fs s0 (State.treeWrite s ini a v rivals late).1 := by
  unfold State.treeWrite
  extract_lets -merge -underBinder y2536 y2537
  have k2538 : Keeps fs s0 y2537.1 := by
    refine State.accessWrite_keeps _ _ _ _ _ _ _ ?_ (subF_trans (by decide) hF)
    exact h1
  refine keeps_ite_fst ?_ ?_
  · refine keeps_mk_fst ?_
    refine State.maybe_keeps _ _ _ _ ?_ ?_ (subF_trans (by decide) hF)
    · exact h1
    · exact k2538
  · exact k2538

theorem State.treeRead_keeps {fs : List Zone} {s0 : State} (s : State) (ini : ℕ) (a : ℕ) (late : Bool) (h1 : Keeps fs s0 s) (hF : subF [.block 1, .out, .block 9, .block 18, .free, .memo, .sp, .block 8, .block 16, .block 17, .block 7, .block 20, .pipes, .regs] fs = true) :
    Keeps fs s0 (State.treeRead s ini a late).1 := by
  unfold State.treeRead
  extract_lets -merge -underBinder y2539 y2540
  have k2541 : Keeps fs s0 y2540.1 := by
    refine State.accessRead_keeps _ _ _ _ _ ?_ (subF_trans (by decide) hF)
    exact h1
  refine keeps_ite_fst ?_ ?_
  · refine keeps_mk_fst ?_
    refine State.maybe_keeps _ _ _ _ ?_ ?_ (subF_trans (by decide) hF)
    · exact h1
    · exact k2541
  · refine keeps_mk_fst ?_
    exact k2541

theorem State.barWrite_keeps {fs : List Zone} {s0 : State} (s : State) (ini : ℕ) (a : ℕ) (v : Word) (rivals : List (ℕ × ℕ × Word)) (late : Bool) (h1 : Keeps fs s0 s) (hF : subF [.regs, .block 0, .tkt, .block 1, .out, .block 2, .pwr, .block 18, .jt, .sm, .block 20, .streams, .pipes, .block 3, .free, .il, .block 8, .block 5, .van, .block 6, .cpl, .block 7, .fab, .memo, .block 9, .block 16, .trv, .arr, .planes, .disp, .block 17, .sched, .kernels, .running, .log, .sp, .cs, .sec, .ddr] fs = true) :
    Keeps fs s0 (State.barWrite s ini a v rivals late).1 := by
  unfold State.barWrite
  refine keeps_ite_fst ?_ ?_
  · refine State.cycleWrite_keeps _ _ _ _ _ ?_ (subF_trans (by decide) hF)
    exact h1
  · refine keeps_ite_fst ?_ ?_
    · refine keeps_mk_fst ?_
      exact h1
    · refine State.treeWrite_keeps _ _ _ _ _ _ ?_ (subF_trans (by decide) hF)
      exact h1

theorem State.barRead_keeps {fs : List Zone} {s0 : State} (s : State) (ini : ℕ) (a : ℕ) (late : Bool) (h1 : Keeps fs s0 s) (hF : subF [.free, .block 16, .block 17, .block 7, .block 20, .pipes, .regs, .block 1, .out, .block 9, .block 18, .memo, .sp, .block 8] fs = true) :
    Keeps fs s0 (State.barRead s ini a late).1 := by
  unfold State.barRead
  extract_lets -merge -underBinder y2542
  have k2543 : Keeps fs s0 y2542.1 := by
    refine State.regRead_keeps _ _ ?_ (subF_trans (by decide) hF)
    exact h1
  refine keeps_ite_fst ?_ ?_
  · refine keeps_mk_fst ?_
    exact k2543
  · refine keeps_ite_fst ?_ ?_
    · refine keeps_mk_fst ?_
      exact h1
    · refine State.treeRead_keeps _ _ _ _ ?_ (subF_trans (by decide) hF)
      exact h1

theorem State.writeResult_keeps {fs : List Zone} {s0 : State} (s : State) (r : Resp) (a : ℕ) (h1 : Keeps fs s0 s) (hF : subF [.block 0, .block 1, .out] fs = true) :
    Keeps fs s0 (State.writeResult s r a) := by
  unfold State.writeResult
  split
  · exact h1
  · refine State.toError_keeps _ _ _ _ _ ?_ (subF_trans (by decide) hF)
    exact h1
  · refine State.toError_keeps _ _ _ _ _ ?_ (subF_trans (by decide) hF)
    exact h1
  · refine State.toError_keeps _ _ _ _ _ ?_ (subF_trans (by decide) hF)
    exact h1

theorem State.bar0Writes_keeps {fs : List Zone} {s0 : State} (s : State) (off : ℕ) (rivals : List (ℕ × ℕ × Word)) (tmo : List ℕ) (x5 : ℕ) (x6 : List (Word × BitVec 4)) (h1 : Keeps fs s0 s) (hF : subF [.block 0, .block 1, .out, .regs, .tkt, .block 2, .pwr, .block 18, .jt, .sm, .block 20, .streams, .pipes, .block 3, .free, .il, .block 8, .block 5, .van, .block 6, .cpl, .block 7, .fab, .memo, .block 9, .block 16, .trv, .arr, .planes, .disp, .block 17, .sched, .kernels, .running, .log, .sp, .cs, .sec, .ddr] fs = true) :
    Keeps fs s0 (State.bar0Writes s off rivals tmo x5 x6) := by
  induction x6 generalizing s x5 with
  | nil => exact h1
  | cons p t ih =>
    obtain ⟨v, be⟩ := p
    unfold State.bar0Writes
    apply ih
    refine keeps_ite h1 (keeps_ite ?_ ?_)
    · exact State.toError_keeps _ _ _ _ _ h1 (subF_trans (by decide) hF)
    · exact State.writeResult_keeps _ _ _ (State.barWrite_keeps _ _ _ _ _ _ h1 (subF_trans (by decide) hF)) (subF_trans (by decide) hF)

theorem State.bar0Reads_keeps {fs : List Zone} {s0 : State} (s : State) (off : ℕ) (tmo : List ℕ) (x4 : ℕ) (x5 : List (Word × BitVec 4)) (h1 : Keeps fs s0 s) (hF : subF [.free, .block 16, .block 17, .block 7, .block 20, .pipes, .regs, .block 1, .out, .block 9, .block 18, .memo, .sp, .block 8] fs = true) :
    Keeps fs s0 (State.bar0Reads s off tmo x4 x5).1 := by
  induction x5 generalizing s x4 with
  | nil => exact h1
  | cons p t ih =>
    unfold State.bar0Reads
    exact ih _ _ (State.barRead_keeps _ _ _ _ h1 (subF_trans (by decide) hF))

theorem State.complete_keeps {fs : List Zone} {s0 : State} (s : State) (kind : ℕ) (ini : ℕ) (bytes : List Byte) (bad : Option (Resp × ℕ)) (h1 : Keeps fs s0 s) (hF : subF [.out, .block 0, .block 1] fs = true) :
    Keeps fs s0 (State.complete s kind ini bytes bad) := by
  unfold State.complete
  split
  · refine State.emit_keeps _ _ ?_ (subF_trans (by decide) hF)
    exact h1
  · refine State.emit_keeps _ _ ?_ (subF_trans (by decide) hF)
    refine State.toError_keeps _ _ _ _ _ ?_ (subF_trans (by decide) hF)
    exact h1

theorem State.hostBar0_keeps {fs : List Zone} {s0 : State} (s : State) (kind : BarKind) (off : ℕ) (dws : List (Word × BitVec 4)) (rivals : List (ℕ × ℕ × Word)) (tmo : List ℕ) (h1 : Keeps fs s0 s) (hF : subF [.out, .block 0, .block 1, .regs, .tkt, .block 2, .pwr, .block 18, .jt, .sm, .block 20, .streams, .pipes, .block 3, .free, .il, .block 8, .block 5, .van, .block 6, .cpl, .block 7, .fab, .memo, .block 9, .block 16, .trv, .arr, .planes, .disp, .block 17, .sched, .kernels, .running, .log, .sp, .cs, .sec, .ddr] fs = true) :
    Keeps fs s0 (State.hostBar0 s kind off dws rivals tmo) := by
  unfold State.hostBar0
  extract_lets -merge -underBinder y2544 y2545
  refine keeps_ite ?_ ?_
  · refine keeps_ite ?_ ?_
    · exact h1
    · refine State.emit_keeps _ _ ?_ (subF_trans (by decide) hF)
      exact h1
  · refine keeps_ite ?_ ?_
    · exact h1
    · split
      · refine State.emit_keeps _ _ ?_ (subF_trans (by decide) hF)
        exact h1
      · refine State.bar0Writes_keeps _ _ _ _ _ _ ?_ (subF_trans (by decide) hF)
        exact h1
      · extract_lets -merge -underBinder y2546
        have k2547 : Keeps fs s0 y2546.1 := by
          refine State.bar0Reads_keeps _ _ _ _ _ ?_ (subF_trans (by decide) hF)
          exact h1
        refine State.complete_keeps _ _ _ _ _ ?_ (subF_trans (by decide) hF)
        exact k2547

theorem execHostBar0Request_keeps (kind : BarKind) (off : ℕ) (dws : List (Word × BitVec 4)) (rivals : List (ℕ × ℕ × Word)) (tmo : List ℕ) (s : State) : ∃ s', execHostBar0Request kind off dws rivals tmo s = .next s' ∧
    Keeps [.out, .block 0, .block 1, .regs, .tkt, .block 2, .pwr, .block 18, .jt, .sm, .block 20, .streams, .pipes, .block 3, .free, .il, .block 8, .block 5, .van, .block 6, .cpl, .block 7, .fab, .memo, .block 9, .block 16, .trv, .arr, .planes, .disp, .block 17, .sched, .kernels, .running, .log, .sp, .cs, .sec, .ddr] s s' := by
  have hF : subF [.out, .block 0, .block 1, .regs, .tkt, .block 2, .pwr, .block 18, .jt, .sm, .block 20, .streams, .pipes, .block 3, .free, .il, .block 8, .block 5, .van, .block 6, .cpl, .block 7, .fab, .memo, .block 9, .block 16, .trv, .arr, .planes, .disp, .block 17, .sched, .kernels, .running, .log, .sp, .cs, .sec, .ddr] [.out, .block 0, .block 1, .regs, .tkt, .block 2, .pwr, .block 18, .jt, .sm, .block 20, .streams, .pipes, .block 3, .free, .il, .block 8, .block 5, .van, .block 6, .cpl, .block 7, .fab, .memo, .block 9, .block 16, .trv, .arr, .planes, .disp, .block 17, .sched, .kernels, .running, .log, .sp, .cs, .sec, .ddr] = true := by decide
  unfold execHostBar0Request
  refine ⟨_, rfl, ?_⟩
  refine State.hostBar0_keeps _ _ _ _ _ _ ?_ (subF_trans (by decide) hF)
  exact (Keeps.rfl' _ _)

theorem State.bar2Report_keeps {fs : List Zone} {s0 : State} (s : State) (e : Resp) (addr : ℕ) (off : ℕ) (h1 : Keeps fs s0 s) (hF : subF [.block 0, .block 1, .out] fs = true) :
    Keeps fs s0 (State.bar2Report s e addr off) := by
  unfold State.bar2Report
  refine keeps_ite ?_ ?_
  · exact h1
  · refine State.toError_keeps _ _ _ _ _ ?_ (subF_trans (by decide) hF)
    exact h1

theorem State.bar2Try_keeps {fs : List Zone} {s0 : State} (s : State) (addr : ℕ) (met : List ℕ) (rivals : List (ℕ × ℕ × Word)) (late : Bool) (d : Word64 × BitVec 8) (h1 : Keeps fs s0 s) (hF : subF [.block 1, .out, .block 9, .block 18, .block 8, .sp, .sec, .free, .ddr, .cpl, .regs, .block 0, .tkt, .block 2, .pwr, .jt, .sm, .block 20, .streams, .pipes, .block 3, .il, .block 5, .van, .block 6, .block 7, .fab, .memo, .block 16, .trv, .arr, .planes, .disp, .block 17, .sched, .kernels, .running, .log, .cs] fs = true) :
    Keeps fs s0 (State.bar2Try s addr met rivals late d).1 := by
  unfold State.bar2Try
  extract_lets -merge -underBinder y2548
  have k2549 : Keeps fs s0 y2548.1 := by
    refine State.accessWrite_keeps _ _ _ _ _ _ _ ?_ (subF_trans (by decide) hF)
    exact h1
  refine keeps_ite_fst ?_ ?_
  · refine keeps_mk_fst ?_
    refine State.maybe_keeps _ _ _ _ ?_ ?_ (subF_trans (by decide) hF)
    · exact h1
    · exact k2549
  · exact k2549

theorem State.bar2Write_keeps {fs : List Zone} {s0 : State} (s : State) (w : ℕ) (met : List ℕ) (rivals : List (ℕ × ℕ × Word)) (tmo : List ℕ) (i : ℕ) (d : Word64 × BitVec 8) (h1 : Keeps fs s0 s) (hF : subF [.block 1, .out, .block 9, .block 18, .block 8, .sp, .sec, .free, .ddr, .cpl, .regs, .block 0, .tkt, .block 2, .pwr, .jt, .sm, .block 20, .streams, .pipes, .block 3, .il, .block 5, .van, .block 6, .block 7, .fab, .memo, .block 16, .trv, .arr, .planes, .disp, .block 17, .sched, .kernels, .running, .log, .cs] fs = true) :
    Keeps fs s0 (State.bar2Write s w met rivals tmo i d) := by
  unfold State.bar2Write
  extract_lets -merge -underBinder y2550 y2551
  have k2552 : Keeps fs s0 y2551.1 := by
    refine State.bar2Try_keeps _ _ _ _ _ _ ?_ (subF_trans (by decide) hF)
    exact h1
  refine keeps_ite ?_ ?_
  · exact h1
  · refine State.bar2Report_keeps _ _ _ _ ?_ (subF_trans (by decide) hF)
    exact k2552

theorem State.bar2Writes_keeps {fs : List Zone} {s0 : State} (s : State) (w : ℕ) (met : List ℕ) (rivals : List (ℕ × ℕ × Word)) (tmo : List ℕ) (x6 : ℕ) (x7 : List (Word64 × BitVec 8)) (h1 : Keeps fs s0 s) (hF : subF [.block 1, .out, .block 9, .block 18, .block 8, .sp, .sec, .free, .ddr, .cpl, .regs, .block 0, .tkt, .block 2, .pwr, .jt, .sm, .block 20, .streams, .pipes, .block 3, .il, .block 5, .van, .block 6, .block 7, .fab, .memo, .block 16, .trv, .arr, .planes, .disp, .block 17, .sched, .kernels, .running, .log, .cs] fs = true) :
    Keeps fs s0 (State.bar2Writes s w met rivals tmo x6 x7) := by
  induction x7 generalizing s x6 with
  | nil => exact h1
  | cons d t ih =>
    unfold State.bar2Writes
    exact ih _ _ (State.bar2Write_keeps _ _ _ _ _ _ _ h1 (subF_trans (by decide) hF))

theorem State.bar2Reads_keeps {fs : List Zone} {s0 : State} (s : State) (tmo : List ℕ) (x3 : ℕ) (x4 : ℕ) (x5 : ℕ) (x6 : ℕ) (h1 : Keeps fs s0 s) (hF : subF [.block 1, .out, .block 9, .block 18, .free, .memo, .sp, .block 8, .block 16, .block 17, .block 7, .block 20, .pipes, .regs] fs = true) :
    Keeps fs s0 (State.bar2Reads s tmo x3 x4 x5 x6).1 := by
  induction x3 generalizing s x4 x5 x6 with
  | zero => exact h1
  | succ n ih =>
    unfold State.bar2Reads
    refine keeps_ite_fst h1 ?_
    apply ih
    have k := State.accessRead_keeps s 48 4 (s.bar2Addr x5) (min x6 (8 - x5 % 8)) h1 (subF_trans (by decide) hF)
    refine keeps_ite ?_ k
    exact State.maybe_keeps _ _ _ _ h1 k (subF_trans (by decide) hF)

theorem State.hostBar2_keeps {fs : List Zone} {s0 : State} (s : State) (kind : BarKind) (off : ℕ) (len : ℕ) (data : List (Word64 × BitVec 8)) (met : List ℕ) (rivals : List (ℕ × ℕ × Word)) (tmo : List ℕ) (h1 : Keeps fs s0 s) (hF : subF [.out, .block 1, .block 9, .block 18, .block 8, .sp, .sec, .free, .ddr, .cpl, .regs, .block 0, .tkt, .block 2, .pwr, .jt, .sm, .block 20, .streams, .pipes, .block 3, .il, .block 5, .van, .block 6, .block 7, .fab, .memo, .block 16, .trv, .arr, .planes, .disp, .block 17, .sched, .kernels, .running, .log, .cs] fs = true) :
    Keeps fs s0 (State.hostBar2 s kind off len data met rivals tmo) := by
  unfold State.hostBar2
  extract_lets -merge -underBinder y2553
  refine keeps_ite ?_ ?_
  · refine keeps_ite ?_ ?_
    · exact h1
    · refine State.emit_keeps _ _ ?_ (subF_trans (by decide) hF)
      exact h1
  · split
    · refine State.emit_keeps _ _ ?_ (subF_trans (by decide) hF)
      exact h1
    · refine keeps_ite ?_ ?_
      · exact h1
      · refine State.bar2Writes_keeps _ _ _ _ _ _ _ ?_ (subF_trans (by decide) hF)
        exact h1
    · extract_lets -merge -underBinder y2554 y2555
      have k2556 : Keeps fs s0 y2555.1 := by
        refine State.bar2Reads_keeps _ _ _ _ _ _ ?_ (subF_trans (by decide) hF)
        exact h1
      refine keeps_ite ?_ ?_
      · exact h1
      · refine State.complete_keeps _ _ _ _ _ ?_ (subF_trans (by decide) hF)
        exact k2556

theorem execHostBar2Request_keeps (kind : BarKind) (off : ℕ) (len : ℕ) (data : List (Word64 × BitVec 8)) (met : List ℕ) (rivals : List (ℕ × ℕ × Word)) (tmo : List ℕ) (s : State) : ∃ s', execHostBar2Request kind off len data met rivals tmo s = .next s' ∧
    Keeps [.out, .block 1, .block 9, .block 18, .block 8, .sp, .sec, .free, .ddr, .cpl, .regs, .block 0, .tkt, .block 2, .pwr, .jt, .sm, .block 20, .streams, .pipes, .block 3, .il, .block 5, .van, .block 6, .block 7, .fab, .memo, .block 16, .trv, .arr, .planes, .disp, .block 17, .sched, .kernels, .running, .log, .cs] s s' := by
  have hF : subF [.out, .block 1, .block 9, .block 18, .block 8, .sp, .sec, .free, .ddr, .cpl, .regs, .block 0, .tkt, .block 2, .pwr, .jt, .sm, .block 20, .streams, .pipes, .block 3, .il, .block 5, .van, .block 6, .block 7, .fab, .memo, .block 16, .trv, .arr, .planes, .disp, .block 17, .sched, .kernels, .running, .log, .cs] [.out, .block 1, .block 9, .block 18, .block 8, .sp, .sec, .free, .ddr, .cpl, .regs, .block 0, .tkt, .block 2, .pwr, .jt, .sm, .block 20, .streams, .pipes, .block 3, .il, .block 5, .van, .block 6, .block 7, .fab, .memo, .block 16, .trv, .arr, .planes, .disp, .block 17, .sched, .kernels, .running, .log, .cs] = true := by decide
  unfold execHostBar2Request
  refine ⟨_, rfl, ?_⟩
  refine State.hostBar2_keeps _ _ _ _ _ _ _ _ ?_ (subF_trans (by decide) hF)
  exact (Keeps.rfl' _ _)

theorem State.spEvent_keeps {fs : List Zone} {s0 : State} (s : State) (b : ℕ) (h1 : Keeps fs s0 s) (hF : subF [.block 1, .out, .block 0] fs = true) :
    Keeps fs s0 (State.spEvent s b) := by
  unfold State.spEvent
  refine State.fire_keeps _ _ ?_ (subF_trans (by decide) hF)
  refine satInc_keeps _ _ _ ?_ (alwB hF 0 rfl (by decide))
  refine setBit_keeps _ _ _ ?_ (alwB hF 0 rfl (by decide))
  exact h1

theorem State.spCount_keeps {fs : List Zone} {s0 : State} (s : State) (h1 : Keeps fs s0 s) (hF : subF [.tkt] fs = true) :
    Keeps fs s0 (State.spCount s) := by
  unfold State.spCount
  extract_lets -merge -underBinder y2557
  refine Keeps.upd ?_ (.inr rfl) (.inl ⟨rfl, rfl⟩) (.inr rfl) (.inr rfl) (.inr rfl) (.inl ⟨rfl, rfl⟩) (.inl ⟨rfl, rfl⟩) (.inl rfl) (.inr rfl) (.inr rfl) (.inr rfl) (.inr rfl) (.inr ⟨rfl, rfl⟩) (.inr rfl) (.inr rfl) (.inr rfl) (.inr rfl) (.inr rfl) (.inr rfl) (.inr rfl) (.inr rfl) (.inr rfl) (.inr rfl) (.inr rfl) (.inr rfl) (.inl (alw hF (by decide))) (.inr rfl) (.inr rfl) (.inl rfl) rfl
  exact h1

theorem State.spLate_keeps {fs : List Zone} {s0 : State} (s : State) (wr : Bool) (a : ℕ) (v : Word) (h1 : Keeps fs s0 s) (hF : subF [.tkt, .block 0] fs = true) :
    Keeps fs s0 (State.spLate s wr a v).1 := by
  unfold State.spLate
  extract_lets -merge -underBinder y2558 y2559
  have k2560 : Keeps fs s0 y2558 := by
    refine State.spCount_keeps _ ?_ (subF_trans (by decide) hF)
    refine setFld_keeps _ _ _ _ ?_ (alwB hF 0 rfl (by decide))
    refine setBit_keeps _ _ _ ?_ (alwB hF 0 rfl (by decide))
    refine setBit_keeps _ _ _ ?_ (alwB hF 0 rfl (by decide))
    exact h1
  refine keeps_ite_fst ?_ ?_
  · refine keeps_mk_fst ?_
    exact h1
  · refine keeps_mk_fst ?_
    refine Keeps.upd ?_ (.inr rfl) (.inl ⟨rfl, rfl⟩) (.inr rfl) (.inr rfl) (.inr rfl) (.inl ⟨rfl, rfl⟩) (.inl ⟨rfl, rfl⟩) (.inl rfl) (.inr rfl) (.inr rfl) (.inr rfl) (.inr rfl) (.inr ⟨rfl, rfl⟩) (.inr rfl) (.inr rfl) (.inr rfl) (.inr rfl) (.inr rfl) (.inr rfl) (.inr rfl) (.inr rfl) (.inr rfl) (.inr rfl) (.inr rfl) (.inr rfl) (.inl (alw hF (by decide))) (.inr rfl) (.inr rfl) (.inl rfl) rfl
    exact k2560

theorem State.spAnswer_keeps {fs : List Zone} {s0 : State} (s : State) (cut : Option ℕ) (dEnd : ℕ) (sEnd : ℕ) (d : Option Word) (f : Word) (h1 : Keeps fs s0 s) (hF : subF [.block 1, .out, .block 0] fs = true) :
    Keeps fs s0 (State.spAnswer s cut dEnd sEnd d f) := by
  unfold State.spAnswer
  extract_lets -merge -underBinder y2561
  have k2562 : Keeps fs s0 y2561 := by
    refine keeps_ite ?_ ?_
    · refine State.spEvent_keeps _ _ ?_ (subF_trans (by decide) hF)
      exact h1
    · exact h1
  refine State.emit_keeps _ _ ?_ (subF_trans (by decide) hF)
  exact k2562

theorem State.spReadTr_keeps {fs : List Zone} {s0 : State} (s : State) (x2 : Word) (cut : Option ℕ) (h1 : Keeps fs s0 s) (hF : subF [.block 1, .out, .block 0, .tkt, .free, .block 16, .block 17, .block 7, .block 20, .pipes, .regs, .block 9, .block 18, .memo, .sp, .block 8] fs = true) :
    Keeps fs s0 (State.spReadTr s x2 cut) := by
  unfold State.spReadTr
  extract_lets -merge -underBinder y2563 y2564 y2565 y2566 y2567
  have k2568 : Keeps fs s0 y2563 := by
    refine State.spEvent_keeps _ _ ?_ (subF_trans (by decide) hF)
    exact h1
  have k2569 : Keeps fs s0 y2564 := by
    refine State.spEvent_keeps _ _ ?_ (subF_trans (by decide) hF)
    exact h1
  have k2570 : Keeps fs s0 y2565.1 := by
    refine State.spLate_keeps _ _ _ _ ?_ (subF_trans (by decide) hF)
    exact h1
  have k2571 : Keeps fs s0 y2566.1 := by
    refine State.barRead_keeps _ _ _ _ ?_ (subF_trans (by decide) hF)
    exact h1
  have k2572 : Keeps fs s0 y2567 := by
    refine State.spCount_keeps _ ?_ (subF_trans (by decide) hF)
    exact k2571
  refine keeps_ite ?_ ?_
  · refine State.spAnswer_keeps _ _ _ _ _ _ ?_ (subF_trans (by decide) hF)
    exact h1
  · refine keeps_ite ?_ ?_
    · refine State.spAnswer_keeps _ _ _ _ _ _ ?_ (subF_trans (by decide) hF)
      exact k2568
    · refine keeps_ite ?_ ?_
      · refine State.spAnswer_keeps _ _ _ _ _ _ ?_ (subF_trans (by decide) hF)
        exact k2569
      · refine keeps_ite ?_ ?_
        · refine State.spAnswer_keeps _ _ _ _ _ _ ?_ (subF_trans (by decide) hF)
          exact k2570
        · refine State.spAnswer_keeps _ _ _ _ _ _ ?_ (subF_trans (by decide) hF)
          exact k2572

theorem State.spWriteTr_keeps {fs : List Zone} {s0 : State} (s : State) (x2 : Word) (d : Word) (c : Word) (cut : Option ℕ) (rivals : List (ℕ × ℕ × Word)) (h1 : Keeps fs s0 s) (hF : subF [.block 1, .out, .block 0, .tkt, .regs, .block 2, .pwr, .block 18, .jt, .sm, .block 20, .streams, .pipes, .block 3, .free, .il, .block 8, .block 5, .van, .block 6, .cpl, .block 7, .fab, .memo, .block 9, .block 16, .trv, .arr, .planes, .disp, .block 17, .sched, .kernels, .running, .log, .sp, .cs, .sec, .ddr] fs = true) :
    Keeps fs s0 (State.spWriteTr s x2 d c cut rivals) := by
  unfold State.spWriteTr
  extract_lets -merge -underBinder y2573 y2574 y2575 y2576 y2577 y2578
  have k2579 : Keeps fs s0 y2574 := by
    refine keeps_ite ?_ ?_
    · refine State.spEvent_keeps _ _ ?_ (subF_trans (by decide) hF)
      exact h1
    · exact h1
  have k2580 : Keeps fs s0 y2575 := by
    refine State.spEvent_keeps _ _ ?_ (subF_trans (by decide) hF)
    exact k2579
  have k2581 : Keeps fs s0 y2576.1 := by
    refine State.spLate_keeps _ _ _ _ ?_ (subF_trans (by decide) hF)
    exact k2579
  have k2582 : Keeps fs s0 y2577.1 := by
    refine State.barWrite_keeps _ _ _ _ _ _ ?_ (subF_trans (by decide) hF)
    exact k2579
  have k2583 : Keeps fs s0 y2578 := by
    refine State.spCount_keeps _ ?_ (subF_trans (by decide) hF)
    exact k2582
  refine keeps_ite ?_ ?_
  · refine State.spAnswer_keeps _ _ _ _ _ _ ?_ (subF_trans (by decide) hF)
    exact k2579
  · refine keeps_ite ?_ ?_
    · refine State.spAnswer_keeps _ _ _ _ _ _ ?_ (subF_trans (by decide) hF)
      exact k2579
    · refine keeps_ite ?_ ?_
      · refine State.spAnswer_keeps _ _ _ _ _ _ ?_ (subF_trans (by decide) hF)
        exact k2580
      · refine keeps_ite ?_ ?_
        · refine State.spAnswer_keeps _ _ _ _ _ _ ?_ (subF_trans (by decide) hF)
          exact k2581
        · refine State.spAnswer_keeps _ _ _ _ _ _ ?_ (subF_trans (by decide) hF)
          exact k2583

theorem execSafetyPortRead_keeps (x1 : Word) (cut : Option ℕ) (s : State) : ∃ s', execSafetyPortRead x1 cut s = .next s' ∧
    Keeps [.block 1, .out, .block 0, .tkt, .free, .block 16, .block 17, .block 7, .block 20, .pipes, .regs, .block 9, .block 18, .memo, .sp, .block 8] s s' := by
  have hF : subF [.block 1, .out, .block 0, .tkt, .free, .block 16, .block 17, .block 7, .block 20, .pipes, .regs, .block 9, .block 18, .memo, .sp, .block 8] [.block 1, .out, .block 0, .tkt, .free, .block 16, .block 17, .block 7, .block 20, .pipes, .regs, .block 9, .block 18, .memo, .sp, .block 8] = true := by decide
  unfold execSafetyPortRead
  refine ⟨_, rfl, ?_⟩
  refine keeps_ite ?_ ?_
  · refine State.spReadTr_keeps _ _ _ ?_ (subF_trans (by decide) hF)
    exact (Keeps.rfl' _ _)
  · exact (Keeps.rfl' _ _)

theorem execSafetyPortWrite_keeps (x1 : Word) (d : Word) (c : Word) (cut : Option ℕ) (rivals : List (ℕ × ℕ × Word)) (s : State) : ∃ s', execSafetyPortWrite x1 d c cut rivals s = .next s' ∧
    Keeps [.block 1, .out, .block 0, .tkt, .regs, .block 2, .pwr, .block 18, .jt, .sm, .block 20, .streams, .pipes, .block 3, .free, .il, .block 8, .block 5, .van, .block 6, .cpl, .block 7, .fab, .memo, .block 9, .block 16, .trv, .arr, .planes, .disp, .block 17, .sched, .kernels, .running, .log, .sp, .cs, .sec, .ddr] s s' := by
  have hF : subF [.block 1, .out, .block 0, .tkt, .regs, .block 2, .pwr, .block 18, .jt, .sm, .block 20, .streams, .pipes, .block 3, .free, .il, .block 8, .block 5, .van, .block 6, .cpl, .block 7, .fab, .memo, .block 9, .block 16, .trv, .arr, .planes, .disp, .block 17, .sched, .kernels, .running, .log, .sp, .cs, .sec, .ddr] [.block 1, .out, .block 0, .tkt, .regs, .block 2, .pwr, .block 18, .jt, .sm, .block 20, .streams, .pipes, .block 3, .free, .il, .block 8, .block 5, .van, .block 6, .cpl, .block 7, .fab, .memo, .block 9, .block 16, .trv, .arr, .planes, .disp, .block 17, .sched, .kernels, .running, .log, .sp, .cs, .sec, .ddr] = true := by decide
  unfold execSafetyPortWrite
  refine ⟨_, rfl, ?_⟩
  refine keeps_ite ?_ ?_
  · refine State.spWriteTr_keeps _ _ _ _ _ _ ?_ (subF_trans (by decide) hF)
    exact (Keeps.rfl' _ _)
  · exact (Keeps.rfl' _ _)

theorem execSafetyPortNoAccess_keeps (x1 : Word) (cut : Option ℕ) (s : State) : ∃ s', execSafetyPortNoAccess x1 cut s = .next s' ∧
    Keeps [.block 1, .out, .block 0, .tkt, .free, .block 16, .block 17, .block 7, .block 20, .pipes, .regs, .block 9, .block 18, .memo, .sp, .block 8] s s' := by
  have hF : subF [.block 1, .out, .block 0, .tkt, .free, .block 16, .block 17, .block 7, .block 20, .pipes, .regs, .block 9, .block 18, .memo, .sp, .block 8] [.block 1, .out, .block 0, .tkt, .free, .block 16, .block 17, .block 7, .block 20, .pipes, .regs, .block 9, .block 18, .memo, .sp, .block 8] = true := by decide
  unfold execSafetyPortNoAccess
  refine ⟨_, rfl, ?_⟩
  refine keeps_ite ?_ ?_
  · refine State.spReadTr_keeps _ _ _ ?_ (subF_trans (by decide) hF)
    exact (Keeps.rfl' _ _)
  · exact (Keeps.rfl' _ _)

theorem State.spLateDone_keeps {fs : List Zone} {s0 : State} (s : State) (timeout : Bool) (rivals : List (ℕ × ℕ × Word)) (h1 : Keeps fs s0 s) (hF : subF [.block 1, .out, .block 9, .block 18, .block 8, .sp, .sec, .free, .ddr, .cpl, .regs, .block 0, .tkt, .block 2, .pwr, .jt, .sm, .block 20, .streams, .pipes, .block 3, .il, .block 5, .van, .block 6, .block 7, .fab, .memo, .block 16, .trv, .arr, .planes, .disp, .block 17, .sched, .kernels, .running, .log, .cs] fs = true) :
    Keeps fs s0 (State.spLateDone s timeout rivals) := by
  unfold State.spLateDone
  split
  · exact h1
  · extract_lets -merge -underBinder y2584 y2585 y2586 y2587 y2588 y2589 y2590
    have k2591 : Keeps fs s0 y2584.1 := by
      refine State.treeWrite_keeps _ _ _ _ _ _ ?_ (subF_trans (by decide) hF)
      exact h1
    have k2592 : Keeps fs s0 y2585.1 := by
      refine State.treeRead_keeps _ _ _ _ ?_ (subF_trans (by decide) hF)
      exact h1
    have k2593 : Keeps fs s0 y2586 := by
      refine keeps_ite ?_ ?_
      · exact k2591
      · exact k2592
    have k2594 : Keeps fs s0 y2590 := by
      refine Keeps.upd ?_ (.inr rfl) (.inl ⟨rfl, rfl⟩) (.inr rfl) (.inr rfl) (.inr rfl) (.inl ⟨rfl, rfl⟩) (.inl ⟨rfl, rfl⟩) (.inl rfl) (.inr rfl) (.inr rfl) (.inr rfl) (.inr rfl) (.inr ⟨rfl, rfl⟩) (.inr rfl) (.inr rfl) (.inr rfl) (.inr rfl) (.inr rfl) (.inr rfl) (.inr rfl) (.inr rfl) (.inr rfl) (.inr rfl) (.inr rfl) (.inr rfl) (.inl (alw hF (by decide))) (.inr rfl) (.inr rfl) (.inl rfl) rfl
      exact k2593
    refine keeps_ite ?_ ?_
    · exact h1
    · refine State.useFree_keeps _ ?_ (subF_trans (by decide) hF)
      refine setReg_keeps _ _ ?_ (alwB hF 0 rfl (by decide))
      refine setFld_keeps _ _ _ _ ?_ (alwB hF 0 rfl (by decide))
      refine setFld_keeps _ _ _ _ ?_ (alwB hF 0 rfl (by decide))
      exact k2594

theorem execSpLateDone_keeps (timeout : Bool) (rivals : List (ℕ × ℕ × Word)) (s : State) : ∃ s', execSpLateDone timeout rivals s = .next s' ∧
    Keeps [.block 1, .out, .block 9, .block 18, .block 8, .sp, .sec, .free, .ddr, .cpl, .regs, .block 0, .tkt, .block 2, .pwr, .jt, .sm, .block 20, .streams, .pipes, .block 3, .il, .block 5, .van, .block 6, .block 7, .fab, .memo, .block 16, .trv, .arr, .planes, .disp, .block 17, .sched, .kernels, .running, .log, .cs] s s' := by
  have hF : subF [.block 1, .out, .block 9, .block 18, .block 8, .sp, .sec, .free, .ddr, .cpl, .regs, .block 0, .tkt, .block 2, .pwr, .jt, .sm, .block 20, .streams, .pipes, .block 3, .il, .block 5, .van, .block 6, .block 7, .fab, .memo, .block 16, .trv, .arr, .planes, .disp, .block 17, .sched, .kernels, .running, .log, .cs] [.block 1, .out, .block 9, .block 18, .block 8, .sp, .sec, .free, .ddr, .cpl, .regs, .block 0, .tkt, .block 2, .pwr, .jt, .sm, .block 20, .streams, .pipes, .block 3, .il, .block 5, .van, .block 6, .block 7, .fab, .memo, .block 16, .trv, .arr, .planes, .disp, .block 17, .sched, .kernels, .running, .log, .cs] = true := by decide
  unfold execSpLateDone
  refine ⟨_, rfl, ?_⟩
  refine State.spLateDone_keeps _ _ _ ?_ (subF_trans (by decide) hF)
  exact (Keeps.rfl' _ _)

end Sys2Proof.Machine
end

