-- ==== Sys2Proof/Laws/KeepsIssue.lean ====
section
/-! SUPPORT. What each operation of Machine/Issue.lean can change, one lemma an operation (Laws/KeepsBase.lean). -/

-- elaborated one declaration at a time, so that the package compiles as one text in bounded memory
set_option Elab.async false

namespace Sys2Proof.Machine

theorem State.arrayRun_keeps {fs : List Zone} {s0 : State} (s : State) (opc : ℕ) (o : AOp) (h1 : Keeps fs s0 s) (hF : subF [.block 16, .disp, .block 17, .sched, .kernels, .running, .log, .free, .planes, .arr, .block 3, .block 1, .out, .block 8, .memo, .sp, .trv] fs = true) :
    Keeps fs s0 (State.arrayRun s opc o) := by
  unfold State.arrayRun
  extract_lets -merge -underBinder y2595
  split
  · extract_lets -merge -underBinder y2596
    have k2597 : Keeps fs s0 y2596 := by
      refine State.latchEdges_keeps _ ?_ (subF_trans (by decide) hF)
      exact h1
    refine State.endArray_keeps _ ?_ (subF_trans (by decide) hF)
    refine keeps_ite ?_ ?_
    · refine State.abandon_keeps _ ?_ (subF_trans (by decide) hF)
      exact k2597
    · refine State.install_keeps _ _ ?_ (subF_trans (by decide) hF)
      exact k2597
  · refine State.endArray_keeps _ ?_ (subF_trans (by decide) hF)
    refine State.fbit_keeps _ _ _ ?_ (subF_trans (by decide) hF)
    refine State.latchEdges_keeps _ ?_ (subF_trans (by decide) hF)
    exact h1
  · refine keeps_ite ?_ ?_
    · refine State.waitFor_keeps _ _ ?_ (subF_trans (by decide) hF)
      exact h1
    · refine State.endInstr_keeps _ _ _ ?_ (subF_trans (by decide) hF)
      refine State.trvHold_keeps _ ?_ (subF_trans (by decide) hF)
      exact h1
  · refine keeps_ite ?_ ?_
    · refine State.waitFor_keeps _ _ ?_ (subF_trans (by decide) hF)
      exact h1
    · refine State.endInstr_keeps _ _ _ ?_ (subF_trans (by decide) hF)
      exact h1
  · extract_lets -merge -underBinder y2598
    have k2599 : Keeps fs s0 y2598 := by
      refine State.latchEdges_keeps _ ?_ (subF_trans (by decide) hF)
      exact h1
    refine State.endArray_keeps _ ?_ (subF_trans (by decide) hF)
    refine State.install_keeps _ _ ?_ (subF_trans (by decide) hF)
    exact k2599

/-- What the gate of an array instruction answers when it does not let the instruction run. -/
theorem arrayGate_some {fs : List Zone} {s0 s t : State} {opc : Nat} {o : AOp} (h : s.arrayGate opc o = some t)
    (h1 : Keeps fs s0 s) (hF : subF [.disp, .block 8, .block 17, .sched, .kernels, .running, .log, .free] fs = true) :
    Keeps fs s0 t := by
  have k : ∀ c, Keeps fs s0 (s.trapHere c s.here.toNat 0 .ok) := fun c =>
    State.trapHere_keeps _ _ _ _ _ h1 (subF_trans (by decide) hF)
  unfold State.arrayGate at h
  split at h
  · cases h; exact k _
  · split at h
    · cases h; exact State.endInstr_keeps _ _ _ h1 (subF_trans (by decide) hF)
    · split at h
      · cases h; exact k _
      · cases h

theorem State.arrayIssue_keeps {fs : List Zone} {s0 : State} (s : State) (opc : ℕ) (o : AOp) (h1 : Keeps fs s0 s) (hF : subF [.disp, .block 8, .block 17, .sched, .kernels, .running, .log, .free, .block 3, .arr, .block 1, .out, .block 16, .planes, .memo, .sp, .trv] fs = true) :
    Keeps fs s0 (State.arrayIssue s opc o) := by
  unfold State.arrayIssue
  refine keeps_ite h1 ?_
  have k : Keeps fs s0 s.begin.discardPair := State.discardPair_keeps _ (State.begin_keeps _ h1 (subF_trans (by decide) hF)) (subF_trans (by decide) hF)
  cases hg : s.begin.discardPair.arrayGate opc o with
  | none => simp only [hg, Option.getD_none]; exact State.arrayRun_keeps _ _ _ k (subF_trans (by decide) hF)
  | some t => simp only [hg, Option.getD_some]; exact arrayGate_some hg k (subF_trans (by decide) hF)

theorem execFlog_keeps (o : AOp) (s : State) : ∃ s', execFlog o s = .next s' ∧
    Keeps [.disp, .block 8, .block 17, .sched, .kernels, .running, .log, .free, .block 3, .arr, .block 1, .out, .block 16, .planes, .memo, .sp, .trv] s s' := by
  have hF : subF [.disp, .block 8, .block 17, .sched, .kernels, .running, .log, .free, .block 3, .arr, .block 1, .out, .block 16, .planes, .memo, .sp, .trv] [.disp, .block 8, .block 17, .sched, .kernels, .running, .log, .free, .block 3, .arr, .block 1, .out, .block 16, .planes, .memo, .sp, .trv] = true := by decide
  unfold execFlog
  refine ⟨_, rfl, ?_⟩
  refine State.arrayIssue_keeps _ _ _ ?_ (subF_trans (by decide) hF)
  exact (Keeps.rfl' _ _)

theorem execFadd_keeps (o : AOp) (s : State) : ∃ s', execFadd o s = .next s' ∧
    Keeps [.disp, .block 8, .block 17, .sched, .kernels, .running, .log, .free, .block 3, .arr, .block 1, .out, .block 16, .planes, .memo, .sp, .trv] s s' := by
  have hF : subF [.disp, .block 8, .block 17, .sched, .kernels, .running, .log, .free, .block 3, .arr, .block 1, .out, .block 16, .planes, .memo, .sp, .trv] [.disp, .block 8, .block 17, .sched, .kernels, .running, .log, .free, .block 3, .arr, .block 1, .out, .block 16, .planes, .memo, .sp, .trv] = true := by decide
  unfold execFadd
  refine ⟨_, rfl, ?_⟩
  refine State.arrayIssue_keeps _ _ _ ?_ (subF_trans (by decide) hF)
  exact (Keeps.rfl' _ _)

theorem execFsub_keeps (o : AOp) (s : State) : ∃ s', execFsub o s = .next s' ∧
    Keeps [.disp, .block 8, .block 17, .sched, .kernels, .running, .log, .free, .block 3, .arr, .block 1, .out, .block 16, .planes, .memo, .sp, .trv] s s' := by
  have hF : subF [.disp, .block 8, .block 17, .sched, .kernels, .running, .log, .free, .block 3, .arr, .block 1, .out, .block 16, .planes, .memo, .sp, .trv] [.disp, .block 8, .block 17, .sched, .kernels, .running, .log, .free, .block 3, .arr, .block 1, .out, .block 16, .planes, .memo, .sp, .trv] = true := by decide
  unfold execFsub
  refine ⟨_, rfl, ?_⟩
  refine State.arrayIssue_keeps _ _ _ ?_ (subF_trans (by decide) hF)
  exact (Keeps.rfl' _ _)

theorem execFcmp_keeps (o : AOp) (s : State) : ∃ s', execFcmp o s = .next s' ∧
    Keeps [.disp, .block 8, .block 17, .sched, .kernels, .running, .log, .free, .block 3, .arr, .block 1, .out, .block 16, .planes, .memo, .sp, .trv] s s' := by
  have hF : subF [.disp, .block 8, .block 17, .sched, .kernels, .running, .log, .free, .block 3, .arr, .block 1, .out, .block 16, .planes, .memo, .sp, .trv] [.disp, .block 8, .block 17, .sched, .kernels, .running, .log, .free, .block 3, .arr, .block 1, .out, .block 16, .planes, .memo, .sp, .trv] = true := by decide
  unfold execFcmp
  refine ⟨_, rfl, ?_⟩
  refine State.arrayIssue_keeps _ _ _ ?_ (subF_trans (by decide) hF)
  exact (Keeps.rfl' _ _)

theorem execFmul_keeps (o : AOp) (s : State) : ∃ s', execFmul o s = .next s' ∧
    Keeps [.disp, .block 8, .block 17, .sched, .kernels, .running, .log, .free, .block 3, .arr, .block 1, .out, .block 16, .planes, .memo, .sp, .trv] s s' := by
  have hF : subF [.disp, .block 8, .block 17, .sched, .kernels, .running, .log, .free, .block 3, .arr, .block 1, .out, .block 16, .planes, .memo, .sp, .trv] [.disp, .block 8, .block 17, .sched, .kernels, .running, .log, .free, .block 3, .arr, .block 1, .out, .block 16, .planes, .memo, .sp, .trv] = true := by decide
  unfold execFmul
  refine ⟨_, rfl, ?_⟩
  refine State.arrayIssue_keeps _ _ _ ?_ (subF_trans (by decide) hF)
  exact (Keeps.rfl' _ _)

theorem execFminmax_keeps (o : AOp) (s : State) : ∃ s', execFminmax o s = .next s' ∧
    Keeps [.disp, .block 8, .block 17, .sched, .kernels, .running, .log, .free, .block 3, .arr, .block 1, .out, .block 16, .planes, .memo, .sp, .trv] s s' := by
  have hF : subF [.disp, .block 8, .block 17, .sched, .kernels, .running, .log, .free, .block 3, .arr, .block 1, .out, .block 16, .planes, .memo, .sp, .trv] [.disp, .block 8, .block 17, .sched, .kernels, .running, .log, .free, .block 3, .arr, .block 1, .out, .block 16, .planes, .memo, .sp, .trv] = true := by decide
  unfold execFminmax
  refine ⟨_, rfl, ?_⟩
  refine State.arrayIssue_keeps _ _ _ ?_ (subF_trans (by decide) hF)
  exact (Keeps.rfl' _ _)

theorem execFshn_keeps (o : AOp) (s : State) : ∃ s', execFshn o s = .next s' ∧
    Keeps [.disp, .block 8, .block 17, .sched, .kernels, .running, .log, .free, .block 3, .arr, .block 1, .out, .block 16, .planes, .memo, .sp, .trv] s s' := by
  have hF : subF [.disp, .block 8, .block 17, .sched, .kernels, .running, .log, .free, .block 3, .arr, .block 1, .out, .block 16, .planes, .memo, .sp, .trv] [.disp, .block 8, .block 17, .sched, .kernels, .running, .log, .free, .block 3, .arr, .block 1, .out, .block 16, .planes, .memo, .sp, .trv] = true := by decide
  unfold execFshn
  refine ⟨_, rfl, ?_⟩
  refine State.arrayIssue_keeps _ _ _ ?_ (subF_trans (by decide) hF)
  exact (Keeps.rfl' _ _)

theorem execFlut_keeps (o : AOp) (s : State) : ∃ s', execFlut o s = .next s' ∧
    Keeps [.disp, .block 8, .block 17, .sched, .kernels, .running, .log, .free, .block 3, .arr, .block 1, .out, .block 16, .planes, .memo, .sp, .trv] s s' := by
  have hF : subF [.disp, .block 8, .block 17, .sched, .kernels, .running, .log, .free, .block 3, .arr, .block 1, .out, .block 16, .planes, .memo, .sp, .trv] [.disp, .block 8, .block 17, .sched, .kernels, .running, .log, .free, .block 3, .arr, .block 1, .out, .block 16, .planes, .memo, .sp, .trv] = true := by decide
  unfold execFlut
  refine ⟨_, rfl, ?_⟩
  refine State.arrayIssue_keeps _ _ _ ?_ (subF_trans (by decide) hF)
  exact (Keeps.rfl' _ _)

theorem execFpop_keeps (o : AOp) (s : State) : ∃ s', execFpop o s = .next s' ∧
    Keeps [.disp, .block 8, .block 17, .sched, .kernels, .running, .log, .free, .block 3, .arr, .block 1, .out, .block 16, .planes, .memo, .sp, .trv] s s' := by
  have hF : subF [.disp, .block 8, .block 17, .sched, .kernels, .running, .log, .free, .block 3, .arr, .block 1, .out, .block 16, .planes, .memo, .sp, .trv] [.disp, .block 8, .block 17, .sched, .kernels, .running, .log, .free, .block 3, .arr, .block 1, .out, .block 16, .planes, .memo, .sp, .trv] = true := by decide
  unfold execFpop
  refine ⟨_, rfl, ?_⟩
  refine State.arrayIssue_keeps _ _ _ ?_ (subF_trans (by decide) hF)
  exact (Keeps.rfl' _ _)

theorem execFsel_keeps (o : AOp) (s : State) : ∃ s', execFsel o s = .next s' ∧
    Keeps [.disp, .block 8, .block 17, .sched, .kernels, .running, .log, .free, .block 3, .arr, .block 1, .out, .block 16, .planes, .memo, .sp, .trv] s s' := by
  have hF : subF [.disp, .block 8, .block 17, .sched, .kernels, .running, .log, .free, .block 3, .arr, .block 1, .out, .block 16, .planes, .memo, .sp, .trv] [.disp, .block 8, .block 17, .sched, .kernels, .running, .log, .free, .block 3, .arr, .block 1, .out, .block 16, .planes, .memo, .sp, .trv] = true := by decide
  unfold execFsel
  refine ⟨_, rfl, ?_⟩
  refine State.arrayIssue_keeps _ _ _ ?_ (subF_trans (by decide) hF)
  exact (Keeps.rfl' _ _)

theorem execFmaskMFromF_keeps (o : AOp) (s : State) : ∃ s', execFmaskMFromF o s = .next s' ∧
    Keeps [.disp, .block 8, .block 17, .sched, .kernels, .running, .log, .free, .block 3, .arr, .block 1, .out, .block 16, .planes, .memo, .sp, .trv] s s' := by
  have hF : subF [.disp, .block 8, .block 17, .sched, .kernels, .running, .log, .free, .block 3, .arr, .block 1, .out, .block 16, .planes, .memo, .sp, .trv] [.disp, .block 8, .block 17, .sched, .kernels, .running, .log, .free, .block 3, .arr, .block 1, .out, .block 16, .planes, .memo, .sp, .trv] = true := by decide
  unfold execFmaskMFromF
  refine ⟨_, rfl, ?_⟩
  refine State.arrayIssue_keeps _ _ _ ?_ (subF_trans (by decide) hF)
  exact (Keeps.rfl' _ _)

theorem execFmaskMAndF_keeps (o : AOp) (s : State) : ∃ s', execFmaskMAndF o s = .next s' ∧
    Keeps [.disp, .block 8, .block 17, .sched, .kernels, .running, .log, .free, .block 3, .arr, .block 1, .out, .block 16, .planes, .memo, .sp, .trv] s s' := by
  have hF : subF [.disp, .block 8, .block 17, .sched, .kernels, .running, .log, .free, .block 3, .arr, .block 1, .out, .block 16, .planes, .memo, .sp, .trv] [.disp, .block 8, .block 17, .sched, .kernels, .running, .log, .free, .block 3, .arr, .block 1, .out, .block 16, .planes, .memo, .sp, .trv] = true := by decide
  unfold execFmaskMAndF
  refine ⟨_, rfl, ?_⟩
  refine State.arrayIssue_keeps _ _ _ ?_ (subF_trans (by decide) hF)
  exact (Keeps.rfl' _ _)

theorem execFmaskMOrF_keeps (o : AOp) (s : State) : ∃ s', execFmaskMOrF o s = .next s' ∧
    Keeps [.disp, .block 8, .block 17, .sched, .kernels, .running, .log, .free, .block 3, .arr, .block 1, .out, .block 16, .planes, .memo, .sp, .trv] s s' := by
  have hF : subF [.disp, .block 8, .block 17, .sched, .kernels, .running, .log, .free, .block 3, .arr, .block 1, .out, .block 16, .planes, .memo, .sp, .trv] [.disp, .block 8, .block 17, .sched, .kernels, .running, .log, .free, .block 3, .arr, .block 1, .out, .block 16, .planes, .memo, .sp, .trv] = true := by decide
  unfold execFmaskMOrF
  refine ⟨_, rfl, ?_⟩
  refine State.arrayIssue_keeps _ _ _ ?_ (subF_trans (by decide) hF)
  exact (Keeps.rfl' _ _)

theorem execFmaskMFromBit_keeps (o : AOp) (s : State) : ∃ s', execFmaskMFromBit o s = .next s' ∧
    Keeps [.disp, .block 8, .block 17, .sched, .kernels, .running, .log, .free, .block 3, .arr, .block 1, .out, .block 16, .planes, .memo, .sp, .trv] s s' := by
  have hF : subF [.disp, .block 8, .block 17, .sched, .kernels, .running, .log, .free, .block 3, .arr, .block 1, .out, .block 16, .planes, .memo, .sp, .trv] [.disp, .block 8, .block 17, .sched, .kernels, .running, .log, .free, .block 3, .arr, .block 1, .out, .block 16, .planes, .memo, .sp, .trv] = true := by decide
  unfold execFmaskMFromBit
  refine ⟨_, rfl, ?_⟩
  refine State.arrayIssue_keeps _ _ _ ?_ (subF_trans (by decide) hF)
  exact (Keeps.rfl' _ _)

theorem execFmaskMAndBit_keeps (o : AOp) (s : State) : ∃ s', execFmaskMAndBit o s = .next s' ∧
    Keeps [.disp, .block 8, .block 17, .sched, .kernels, .running, .log, .free, .block 3, .arr, .block 1, .out, .block 16, .planes, .memo, .sp, .trv] s s' := by
  have hF : subF [.disp, .block 8, .block 17, .sched, .kernels, .running, .log, .free, .block 3, .arr, .block 1, .out, .block 16, .planes, .memo, .sp, .trv] [.disp, .block 8, .block 17, .sched, .kernels, .running, .log, .free, .block 3, .arr, .block 1, .out, .block 16, .planes, .memo, .sp, .trv] = true := by decide
  unfold execFmaskMAndBit
  refine ⟨_, rfl, ?_⟩
  refine State.arrayIssue_keeps _ _ _ ?_ (subF_trans (by decide) hF)
  exact (Keeps.rfl' _ _)

theorem execFmaskMSet_keeps (o : AOp) (s : State) : ∃ s', execFmaskMSet o s = .next s' ∧
    Keeps [.disp, .block 8, .block 17, .sched, .kernels, .running, .log, .free, .block 3, .arr, .block 1, .out, .block 16, .planes, .memo, .sp, .trv] s s' := by
  have hF : subF [.disp, .block 8, .block 17, .sched, .kernels, .running, .log, .free, .block 3, .arr, .block 1, .out, .block 16, .planes, .memo, .sp, .trv] [.disp, .block 8, .block 17, .sched, .kernels, .running, .log, .free, .block 3, .arr, .block 1, .out, .block 16, .planes, .memo, .sp, .trv] = true := by decide
  unfold execFmaskMSet
  refine ⟨_, rfl, ?_⟩
  refine State.arrayIssue_keeps _ _ _ ?_ (subF_trans (by decide) hF)
  exact (Keeps.rfl' _ _)

theorem execFmaskMFromValid_keeps (o : AOp) (s : State) : ∃ s', execFmaskMFromValid o s = .next s' ∧
    Keeps [.disp, .block 8, .block 17, .sched, .kernels, .running, .log, .free, .block 3, .arr, .block 1, .out, .block 16, .planes, .memo, .sp, .trv] s s' := by
  have hF : subF [.disp, .block 8, .block 17, .sched, .kernels, .running, .log, .free, .block 3, .arr, .block 1, .out, .block 16, .planes, .memo, .sp, .trv] [.disp, .block 8, .block 17, .sched, .kernels, .running, .log, .free, .block 3, .arr, .block 1, .out, .block 16, .planes, .memo, .sp, .trv] = true := by decide
  unfold execFmaskMFromValid
  refine ⟨_, rfl, ?_⟩
  refine State.arrayIssue_keeps _ _ _ ?_ (subF_trans (by decide) hF)
  exact (Keeps.rfl' _ _)

theorem execFmaskFFromBit_keeps (o : AOp) (s : State) : ∃ s', execFmaskFFromBit o s = .next s' ∧
    Keeps [.disp, .block 8, .block 17, .sched, .kernels, .running, .log, .free, .block 3, .arr, .block 1, .out, .block 16, .planes, .memo, .sp, .trv] s s' := by
  have hF : subF [.disp, .block 8, .block 17, .sched, .kernels, .running, .log, .free, .block 3, .arr, .block 1, .out, .block 16, .planes, .memo, .sp, .trv] [.disp, .block 8, .block 17, .sched, .kernels, .running, .log, .free, .block 3, .arr, .block 1, .out, .block 16, .planes, .memo, .sp, .trv] = true := by decide
  unfold execFmaskFFromBit
  refine ⟨_, rfl, ?_⟩
  refine State.arrayIssue_keeps _ _ _ ?_ (subF_trans (by decide) hF)
  exact (Keeps.rfl' _ _)

theorem execFmaskFClear_keeps (o : AOp) (s : State) : ∃ s', execFmaskFClear o s = .next s' ∧
    Keeps [.disp, .block 8, .block 17, .sched, .kernels, .running, .log, .free, .block 3, .arr, .block 1, .out, .block 16, .planes, .memo, .sp, .trv] s s' := by
  have hF : subF [.disp, .block 8, .block 17, .sched, .kernels, .running, .log, .free, .block 3, .arr, .block 1, .out, .block 16, .planes, .memo, .sp, .trv] [.disp, .block 8, .block 17, .sched, .kernels, .running, .log, .free, .block 3, .arr, .block 1, .out, .block 16, .planes, .memo, .sp, .trv] = true := by decide
  unfold execFmaskFClear
  refine ⟨_, rfl, ?_⟩
  refine State.arrayIssue_keeps _ _ _ ?_ (subF_trans (by decide) hF)
  exact (Keeps.rfl' _ _)

theorem execFmaskFInvert_keeps (o : AOp) (s : State) : ∃ s', execFmaskFInvert o s = .next s' ∧
    Keeps [.disp, .block 8, .block 17, .sched, .kernels, .running, .log, .free, .block 3, .arr, .block 1, .out, .block 16, .planes, .memo, .sp, .trv] s s' := by
  have hF : subF [.disp, .block 8, .block 17, .sched, .kernels, .running, .log, .free, .block 3, .arr, .block 1, .out, .block 16, .planes, .memo, .sp, .trv] [.disp, .block 8, .block 17, .sched, .kernels, .running, .log, .free, .block 3, .arr, .block 1, .out, .block 16, .planes, .memo, .sp, .trv] = true := by decide
  unfold execFmaskFInvert
  refine ⟨_, rfl, ?_⟩
  refine State.arrayIssue_keeps _ _ _ ?_ (subF_trans (by decide) hF)
  exact (Keeps.rfl' _ _)

theorem execFmaskBitFromF_keeps (o : AOp) (s : State) : ∃ s', execFmaskBitFromF o s = .next s' ∧
    Keeps [.disp, .block 8, .block 17, .sched, .kernels, .running, .log, .free, .block 3, .arr, .block 1, .out, .block 16, .planes, .memo, .sp, .trv] s s' := by
  have hF : subF [.disp, .block 8, .block 17, .sched, .kernels, .running, .log, .free, .block 3, .arr, .block 1, .out, .block 16, .planes, .memo, .sp, .trv] [.disp, .block 8, .block 17, .sched, .kernels, .running, .log, .free, .block 3, .arr, .block 1, .out, .block 16, .planes, .memo, .sp, .trv] = true := by decide
  unfold execFmaskBitFromF
  refine ⟨_, rfl, ?_⟩
  refine State.arrayIssue_keeps _ _ _ ?_ (subF_trans (by decide) hF)
  exact (Keeps.rfl' _ _)

theorem execFmaskCClear_keeps (o : AOp) (s : State) : ∃ s', execFmaskCClear o s = .next s' ∧
    Keeps [.disp, .block 8, .block 17, .sched, .kernels, .running, .log, .free, .block 3, .arr, .block 1, .out, .block 16, .planes, .memo, .sp, .trv] s s' := by
  have hF : subF [.disp, .block 8, .block 17, .sched, .kernels, .running, .log, .free, .block 3, .arr, .block 1, .out, .block 16, .planes, .memo, .sp, .trv] [.disp, .block 8, .block 17, .sched, .kernels, .running, .log, .free, .block 3, .arr, .block 1, .out, .block 16, .planes, .memo, .sp, .trv] = true := by decide
  unfold execFmaskCClear
  refine ⟨_, rfl, ?_⟩
  refine State.arrayIssue_keeps _ _ _ ?_ (subF_trans (by decide) hF)
  exact (Keeps.rfl' _ _)

theorem execFmaskCSet_keeps (o : AOp) (s : State) : ∃ s', execFmaskCSet o s = .next s' ∧
    Keeps [.disp, .block 8, .block 17, .sched, .kernels, .running, .log, .free, .block 3, .arr, .block 1, .out, .block 16, .planes, .memo, .sp, .trv] s s' := by
  have hF : subF [.disp, .block 8, .block 17, .sched, .kernels, .running, .log, .free, .block 3, .arr, .block 1, .out, .block 16, .planes, .memo, .sp, .trv] [.disp, .block 8, .block 17, .sched, .kernels, .running, .log, .free, .block 3, .arr, .block 1, .out, .block 16, .planes, .memo, .sp, .trv] = true := by decide
  unfold execFmaskCSet
  refine ⟨_, rfl, ?_⟩
  refine State.arrayIssue_keeps _ _ _ ?_ (subF_trans (by decide) hF)
  exact (Keeps.rfl' _ _)

theorem execAbandon_keeps (o : AOp) (s : State) : ∃ s', execAbandon o s = .next s' ∧
    Keeps [.disp, .block 8, .block 17, .sched, .kernels, .running, .log, .free, .block 3, .arr, .block 1, .out, .block 16, .planes, .memo, .sp, .trv] s s' := by
  have hF : subF [.disp, .block 8, .block 17, .sched, .kernels, .running, .log, .free, .block 3, .arr, .block 1, .out, .block 16, .planes, .memo, .sp, .trv] [.disp, .block 8, .block 17, .sched, .kernels, .running, .log, .free, .block 3, .arr, .block 1, .out, .block 16, .planes, .memo, .sp, .trv] = true := by decide
  unfold execAbandon
  refine ⟨_, rfl, ?_⟩
  refine State.arrayIssue_keeps _ _ _ ?_ (subF_trans (by decide) hF)
  exact (Keeps.rfl' _ _)

theorem execFbit_keeps (o : AOp) (s : State) : ∃ s', execFbit o s = .next s' ∧
    Keeps [.disp, .block 8, .block 17, .sched, .kernels, .running, .log, .free, .block 3, .arr, .block 1, .out, .block 16, .planes, .memo, .sp, .trv] s s' := by
  have hF : subF [.disp, .block 8, .block 17, .sched, .kernels, .running, .log, .free, .block 3, .arr, .block 1, .out, .block 16, .planes, .memo, .sp, .trv] [.disp, .block 8, .block 17, .sched, .kernels, .running, .log, .free, .block 3, .arr, .block 1, .out, .block 16, .planes, .memo, .sp, .trv] = true := by decide
  unfold execFbit
  refine ⟨_, rfl, ?_⟩
  refine State.arrayIssue_keeps _ _ _ ?_ (subF_trans (by decide) hF)
  exact (Keeps.rfl' _ _)

theorem execFxfer_keeps (o : AOp) (s : State) : ∃ s', execFxfer o s = .next s' ∧
    Keeps [.disp, .block 8, .block 17, .sched, .kernels, .running, .log, .free, .block 3, .arr, .block 1, .out, .block 16, .planes, .memo, .sp, .trv] s s' := by
  have hF : subF [.disp, .block 8, .block 17, .sched, .kernels, .running, .log, .free, .block 3, .arr, .block 1, .out, .block 16, .planes, .memo, .sp, .trv] [.disp, .block 8, .block 17, .sched, .kernels, .running, .log, .free, .block 3, .arr, .block 1, .out, .block 16, .planes, .memo, .sp, .trv] = true := by decide
  unfold execFxfer
  refine ⟨_, rfl, ?_⟩
  refine State.arrayIssue_keeps _ _ _ ?_ (subF_trans (by decide) hF)
  exact (Keeps.rfl' _ _)

theorem execFsync_keeps (o : AOp) (s : State) : ∃ s', execFsync o s = .next s' ∧
    Keeps [.disp, .block 8, .block 17, .sched, .kernels, .running, .log, .free, .block 3, .arr, .block 1, .out, .block 16, .planes, .memo, .sp, .trv] s s' := by
  have hF : subF [.disp, .block 8, .block 17, .sched, .kernels, .running, .log, .free, .block 3, .arr, .block 1, .out, .block 16, .planes, .memo, .sp, .trv] [.disp, .block 8, .block 17, .sched, .kernels, .running, .log, .free, .block 3, .arr, .block 1, .out, .block 16, .planes, .memo, .sp, .trv] = true := by decide
  unfold execFsync
  refine ⟨_, rfl, ?_⟩
  refine State.arrayIssue_keeps _ _ _ ?_ (subF_trans (by decide) hF)
  exact (Keeps.rfl' _ _)

theorem execBitStep_keeps (d : Word64) (firmware : Bool) (s : State) : ∃ s', execBitStep d firmware s = .next s' ∧
    Keeps [.disp, .block 17, .sched, .kernels, .running, .log, .free, .planes, .arr, .block 16, .block 8, .block 1, .out, .block 3] s s' := by
  have hF : subF [.disp, .block 17, .sched, .kernels, .running, .log, .free, .planes, .arr, .block 16, .block 8, .block 1, .out, .block 3] [.disp, .block 17, .sched, .kernels, .running, .log, .free, .planes, .arr, .block 16, .block 8, .block 1, .out, .block 3] = true := by decide
  unfold execBitStep
  refine ⟨_, rfl, ?_⟩
  refine keeps_ite ?_ ?_
  · refine State.trapHere_keeps _ _ _ _ _ ?_ (subF_trans (by decide) hF)
    exact (Keeps.rfl' _ _)
  · refine State.bitStep_keeps _ _ ?_ (subF_trans (by decide) hF)
    exact (Keeps.rfl' _ _)

theorem State.applyPendingMaps_keeps {fs : List Zone} {s0 : State} (s : State) (h1 : Keeps fs s0 s) (hF : subF [.block 16, .trv, .arr, .block 1, .out] fs = true) :
    Keeps fs s0 (State.applyPendingMaps s) := by
  unfold State.applyPendingMaps
  refine keeps_foldl _ _ ?_ ?_
  · exact h1
  · intro z2602 z2604 h2603
    refine keeps_ite ?_ ?_
    · refine State.applyMap_keeps _ _ _ ?_ (subF_trans (by decide) hF)
      exact h2603
    · exact h2603

theorem State.interruptSuspended_keeps {fs : List Zone} {s0 : State} (s : State) (k : ℕ) (h1 : Keeps fs s0 s) (hF : subF [.block 17, .disp] fs = true) :
    Keeps fs s0 (State.interruptSuspended s k) := by
  unfold State.interruptSuspended
  extract_lets -merge -underBinder y2605 y2606
  refine State.interrupt_keeps _ _ ?_ (subF_trans (by decide) hF)
  refine Keeps.upd ?_ (.inr rfl) (.inl ⟨rfl, rfl⟩) (.inr rfl) (.inl (alw hF (by decide))) (.inr rfl) (.inl ⟨rfl, rfl⟩) (.inl ⟨rfl, rfl⟩) (.inl rfl) (.inr rfl) (.inr rfl) (.inr rfl) (.inr rfl) (.inr ⟨rfl, rfl⟩) (.inr rfl) (.inr rfl) (.inr rfl) (.inr rfl) (.inr rfl) (.inr rfl) (.inr rfl) (.inr rfl) (.inr rfl) (.inr rfl) (.inr rfl) (.inr rfl) (.inr rfl) (.inr rfl) (.inr rfl) (.inl rfl) rfl
  exact h1

theorem State.interruptArray_keeps {fs : List Zone} {s0 : State} (s : State) (opc : ℕ) (o : AOp) (k : ℕ) (h1 : Keeps fs s0 s) (hF : subF [.disp, .block 8, .block 17, .sched, .kernels, .running, .log, .free, .block 3, .arr, .block 1, .out, .block 16, .planes, .trv, .memo, .sp] fs = true) :
    Keeps fs s0 (State.interruptArray s opc o k) := by
  unfold State.interruptArray
  refine keeps_ite h1 ?_
  have k : Keeps fs s0 s.begin.discardPair := State.discardPair_keeps _ (State.begin_keeps _ h1 (subF_trans (by decide) hF)) (subF_trans (by decide) hF)
  extract_lets -merge -underBinder s1
  have k1 : Keeps fs s0 s1 := k
  clear_value s1
  cases hg : s1.arrayGate opc o with
  | some t =>
    have kt : Keeps fs s0 t := arrayGate_some hg k1 (subF_trans (by decide) hF)
    dsimp only
    exact keeps_ite (State.interrupt_keeps _ _ kt (subF_trans (by decide) hF)) kt
  | none =>
    dsimp only
    refine keeps_ite ?_ ?_
    · refine State.interruptSuspended_keeps _ _ (State.applyPendingMaps_keeps _ (keeps_ite ?_ ?_) (subF_trans (by decide) hF)) (subF_trans (by decide) hF)
      · exact State.suspendFbit_keeps _ _ _ _ (State.latchEdges_keeps _ k1 (subF_trans (by decide) hF)) (subF_trans (by decide) hF)
      · exact State.suspendArray_keeps _ _ _ _ _ (State.latchEdges_keeps _ k1 (subF_trans (by decide) hF)) (subF_trans (by decide) hF)
    · have kr := State.arrayRun_keeps s1 opc o k1 (subF_trans (by decide) hF)
      exact keeps_ite (State.interrupt_keeps _ _ kr (subF_trans (by decide) hF)) kr

theorem State.interruptResumed_keeps {fs : List Zone} {s0 : State} (s : State) (k : ℕ) (h1 : Keeps fs s0 s) (hF : subF [.disp, .block 8, .block 17, .sched, .kernels, .running, .log, .free, .block 3, .arr, .block 1, .out, .block 16, .trv, .planes] fs = true) :
    Keeps fs s0 (State.interruptResumed s k) := by
  unfold State.interruptResumed
  split
  · extract_lets -merge -underBinder y2615 y2616 y2617 y2618
    have k2619 : Keeps fs s0 y2615 := by
      refine State.flushLate_keeps _ ?_ (subF_trans (by decide) hF)
      refine State.discardPair_keeps _ ?_ (subF_trans (by decide) hF)
      refine State.begin_keeps _ ?_ (subF_trans (by decide) hF)
      exact h1
    have k2620 : Keeps fs s0 y2618 := by
      refine Keeps.upd ?_ (.inr rfl) (.inl ⟨rfl, rfl⟩) (.inr rfl) (.inl (alw hF (by decide))) (.inr rfl) (.inl ⟨rfl, rfl⟩) (.inl ⟨rfl, rfl⟩) (.inl rfl) (.inr rfl) (.inr rfl) (.inr rfl) (.inr rfl) (.inr ⟨rfl, rfl⟩) (.inr rfl) (.inr rfl) (.inr rfl) (.inr rfl) (.inr rfl) (.inr rfl) (.inr rfl) (.inr rfl) (.inr rfl) (.inr rfl) (.inr rfl) (.inr rfl) (.inr rfl) (.inr rfl) (.inr rfl) (.inl rfl) rfl
      exact k2619
    refine keeps_ite ?_ ?_
    · refine State.interruptSuspended_keeps _ _ ?_ (subF_trans (by decide) hF)
      refine State.applyPendingMaps_keeps _ ?_ (subF_trans (by decide) hF)
      refine State.resuspend_keeps _ _ _ ?_ (subF_trans (by decide) hF)
      exact k2620
    · exact h1
  · exact h1

theorem State.takeInterrupt_keeps {fs : List Zone} {s0 : State} (s : State) (pt : IntPoint) (h1 : Keeps fs s0 s) (hF : subF [.block 17, .disp, .block 8, .sched, .kernels, .running, .log, .free, .block 3, .arr, .block 1, .out, .block 16, .planes, .trv, .memo, .sp] fs = true) :
    Keeps fs s0 (State.takeInterrupt s pt) := by
  unfold State.takeInterrupt
  split
  · refine keeps_ite ?_ ?_
    · refine State.interrupt_keeps _ _ ?_ (subF_trans (by decide) hF)
      exact h1
    · exact h1
  · refine keeps_ite ?_ ?_
    · split
      · refine State.interrupt_keeps _ _ ?_ (subF_trans (by decide) hF)
        refine State.waitFor_keeps _ _ ?_ (subF_trans (by decide) hF)
        exact h1
      · refine State.interrupt_keeps _ _ ?_ (subF_trans (by decide) hF)
        refine State.waitFor_keeps _ _ ?_ (subF_trans (by decide) hF)
        exact h1
      · refine State.interrupt_keeps _ _ ?_ (subF_trans (by decide) hF)
        refine State.waitFor_keeps _ _ ?_ (subF_trans (by decide) hF)
        exact h1
      · exact h1
    · exact h1
  · refine State.interruptArray_keeps _ _ _ _ ?_ (subF_trans (by decide) hF)
    exact h1
  · refine State.interruptResumed_keeps _ _ ?_ (subF_trans (by decide) hF)
    exact h1

theorem execInterruptEntry_keeps (pt : IntPoint) (s : State) : ∃ s', execInterruptEntry pt s = .next s' ∧
    Keeps [.block 17, .disp, .block 8, .sched, .kernels, .running, .log, .free, .block 3, .arr, .block 1, .out, .block 16, .planes, .trv, .memo, .sp] s s' := by
  have hF : subF [.block 17, .disp, .block 8, .sched, .kernels, .running, .log, .free, .block 3, .arr, .block 1, .out, .block 16, .planes, .trv, .memo, .sp] [.block 17, .disp, .block 8, .sched, .kernels, .running, .log, .free, .block 3, .arr, .block 1, .out, .block 16, .planes, .trv, .memo, .sp] = true := by decide
  unfold execInterruptEntry
  refine ⟨_, rfl, ?_⟩
  refine State.takeInterrupt_keeps _ _ ?_ (subF_trans (by decide) hF)
  exact (Keeps.rfl' _ _)

end Sys2Proof.Machine
end

