-- ==== Sys2Proof/Laws/KeepsTraverserMove.lean ====
section
/-! SUPPORT. What each operation of Machine/TraverserMove.lean can change, one lemma an operation (Laws/KeepsBase.lean). -/

-- elaborated one declaration at a time, so that the package compiles as one text in bounded memory
set_option Elab.async false

namespace Sys2Proof.Machine

theorem State.readList_keeps {fs : List Zone} {s0 : State} (s : State) (base : ℕ) (x3 : List ℕ) (h1 : Keeps fs s0 s) (hF : subF [.block 1, .out, .block 9, .block 18, .free, .memo, .sp, .block 8, .block 16, .block 17, .block 7, .block 20, .pipes, .regs] fs = true) :
    Keeps fs s0 (State.readList s base x3).1 := by
  induction x3 generalizing s with
  | nil => exact h1
  | cons a t ih =>
    unfold State.readList
    exact ih _ (State.accessRead_keeps _ _ _ _ _ h1 (subF_trans (by decide) hF))

theorem State.loadPlane_keeps {fs : List Zone} {s0 : State} (s : State) (t : Xfer) (a : ℕ) (rows : Array Lanes) (h1 : Keeps fs s0 s) (hF : subF [.free, .planes] fs = true) :
    Keeps fs s0 (State.loadPlane s t a rows) := by
  unfold State.loadPlane
  extract_lets -merge -underBinder y2621 y2622
  refine State.useFree_keeps _ ?_ (subF_trans (by decide) hF)
  refine State.writePlane_keeps _ _ _ _ _ ?_ (subF_trans (by decide) hF)
  exact h1

theorem State.load_keeps {fs : List Zone} {s0 : State} (s : State) (t : Xfer) (h1 : Keeps fs s0 s) (hF : subF [.block 1, .out, .block 9, .block 18, .free, .memo, .sp, .block 8, .block 16, .block 17, .block 7, .block 20, .pipes, .regs, .planes] fs = true) :
    Keeps fs s0 (State.load s t).1 := by
  unfold State.load
  extract_lets -merge -underBinder y2623 y2624 y2625 y2626 y2627 y2628 y2629 y2630
  have k2631 : Keeps fs s0 y2628.1 := by
    refine State.readList_keeps _ _ _ ?_ (subF_trans (by decide) hF)
    exact h1
  have k2632 : Keeps fs s0 y2630 := by
    refine keeps_foldl _ _ ?_ ?_
    · exact k2631
    · intro z2633 z2635 h2634
      refine State.loadPlane_keeps _ _ _ _ ?_ (subF_trans (by decide) hF)
      exact h2634
  refine keeps_mk_fst ?_
  refine keeps_ite ?_ ?_
  · refine State.loadPlane_keeps _ _ _ _ ?_ (subF_trans (by decide) hF)
    exact k2632
  · exact k2632

theorem State.storeList_keeps {fs : List Zone} {s0 : State} (s : State) (base : ℕ) (met : List ℕ) (bad : ℕ → Bool) (x5 : List (ℕ × List ℕ × Word64)) (h1 : Keeps fs s0 s) (hF : subF [.block 1, .out, .block 9, .block 18, .block 8, .sp, .sec, .free, .ddr, .cpl, .regs, .block 0, .tkt, .block 2, .pwr, .jt, .sm, .block 20, .streams, .pipes, .block 3, .il, .block 5, .van, .block 6, .block 7, .fab, .memo, .block 16, .trv, .arr, .planes, .disp, .block 17, .sched, .kernels, .running, .log, .cs] fs = true) :
    Keeps fs s0 (State.storeList s base met bad x5).1 := by
  induction x5 generalizing s with
  | nil => exact h1
  | cons p t ih =>
    obtain ⟨off, ks, d⟩ := p
    unfold State.storeList
    refine keeps_ite_fst (ih _ h1) ?_
    exact ih _ (State.accessWrite_keeps _ _ _ _ _ _ _ h1 (subF_trans (by decide) hF))

theorem State.storeOut_keeps {fs : List Zone} {s0 : State} (s : State) (t : Xfer) (met : List ℕ) (h1 : Keeps fs s0 s) (hF : subF [.free, .block 8, .block 16, .block 1, .out, .arr, .block 9, .block 18, .sp, .sec, .ddr, .cpl, .regs, .block 0, .tkt, .block 2, .pwr, .jt, .sm, .block 20, .streams, .pipes, .block 3, .il, .block 5, .van, .block 6, .block 7, .fab, .memo, .trv, .planes, .disp, .block 17, .sched, .kernels, .running, .log, .cs] fs = true) :
    Keeps fs s0 (State.storeOut s t met).1 := by
  unfold State.storeOut
  extract_lets -merge -underBinder y2636 y2637 y2638 y2639 y2640 y2641 y2642 y2643 y2644
  have k2645 : Keeps fs s0 y2643 := by
    refine State.useFree_keeps _ ?_ (subF_trans (by decide) hF)
    refine keeps_foldl _ _ ?_ ?_
    · exact h1
    · intro z2646 z2648 h2647
      refine State.account_keeps _ _ ?_ (subF_trans (by decide) hF)
      exact h2647
  have k2649 : Keeps fs s0 y2644.1 := by
    refine State.storeList_keeps _ _ _ _ _ ?_ (subF_trans (by decide) hF)
    exact k2645
  refine keeps_mk_fst ?_
  exact k2649

theorem State.transferDone_keeps {fs : List Zone} {s0 : State} (s : State) (met : List ℕ) (h1 : Keeps fs s0 s) (hF : subF [.disp, .block 17, .sched, .kernels, .running, .log, .free, .memo, .block 1, .out, .sp, .block 8, .trv, .block 16, .arr, .block 9, .block 18, .sec, .ddr, .cpl, .regs, .block 0, .tkt, .block 2, .pwr, .jt, .sm, .block 20, .streams, .pipes, .block 3, .il, .block 5, .van, .block 6, .block 7, .fab, .planes, .cs] fs = true) :
    Keeps fs s0 (State.transferDone s met) := by
  unfold State.transferDone
  split
  · extract_lets -merge -underBinder y2650 y2651 y2652 y2653
    have k2654 : ∀ z2655 z2657 z2658, Keeps fs s0 z2655 → Keeps fs s0 (y2651 z2655 z2657 z2658) := by
      intro z2655 z2657 z2658 h2656
      unfold y2651
      extract_lets -merge -underBinder y2659
      refine State.trvWake_keeps _ ?_ (subF_trans (by decide) hF)
      refine State.trvComplete_keeps _ _ _ _ _ ?_ (subF_trans (by decide) hF)
      refine State.useFree_keeps _ ?_ (subF_trans (by decide) hF)
      refine Keeps.upd ?_ (.inr rfl) (.inl ⟨rfl, rfl⟩) (.inl (alw hF (by decide))) (.inr rfl) (.inr rfl) (.inl ⟨rfl, rfl⟩) (.inl ⟨rfl, rfl⟩) (.inl rfl) (.inr rfl) (.inr rfl) (.inr rfl) (.inr rfl) (.inr ⟨rfl, rfl⟩) (.inr rfl) (.inr rfl) (.inr rfl) (.inr rfl) (.inr rfl) (.inr rfl) (.inr rfl) (.inr rfl) (.inr rfl) (.inr rfl) (.inr rfl) (.inr rfl) (.inr rfl) (.inr rfl) (.inr rfl) (.inl rfl) rfl
      exact h2656
    have k2660 : Keeps fs s0 y2652.1 := by
      refine State.storeOut_keeps _ _ _ ?_ (subF_trans (by decide) hF)
      exact h1
    have k2661 : Keeps fs s0 y2653.1 := by
      refine State.load_keeps _ _ ?_ (subF_trans (by decide) hF)
      exact h1
    refine keeps_ite ?_ ?_
    · exact h1
    · refine keeps_ite ?_ ?_
      · refine k2654 _ _ _ ?_
        exact k2660
      · refine k2654 _ _ _ ?_
        exact k2661
  · exact h1

theorem execTransferDone_keeps (met : List ℕ) (s : State) : ∃ s', execTransferDone met s = .next s' ∧
    Keeps [.disp, .block 17, .sched, .kernels, .running, .log, .free, .memo, .block 1, .out, .sp, .block 8, .trv, .block 16, .arr, .block 9, .block 18, .sec, .ddr, .cpl, .regs, .block 0, .tkt, .block 2, .pwr, .jt, .sm, .block 20, .streams, .pipes, .block 3, .il, .block 5, .van, .block 6, .block 7, .fab, .planes, .cs] s s' := by
  have hF : subF [.disp, .block 17, .sched, .kernels, .running, .log, .free, .memo, .block 1, .out, .sp, .block 8, .trv, .block 16, .arr, .block 9, .block 18, .sec, .ddr, .cpl, .regs, .block 0, .tkt, .block 2, .pwr, .jt, .sm, .block 20, .streams, .pipes, .block 3, .il, .block 5, .van, .block 6, .block 7, .fab, .planes, .cs] [.disp, .block 17, .sched, .kernels, .running, .log, .free, .memo, .block 1, .out, .sp, .block 8, .trv, .block 16, .arr, .block 9, .block 18, .sec, .ddr, .cpl, .regs, .block 0, .tkt, .block 2, .pwr, .jt, .sm, .block 20, .streams, .pipes, .block 3, .il, .block 5, .van, .block 6, .block 7, .fab, .planes, .cs] = true := by decide
  unfold execTransferDone
  refine ⟨_, rfl, ?_⟩
  refine State.transferDone_keeps _ _ ?_ (subF_trans (by decide) hF)
  exact (Keeps.rfl' _ _)

theorem State.undefinedOpcode_keeps {fs : List Zone} {s0 : State} (s : State) (opc : ℕ) (o : SOp) (h1 : Keeps fs s0 s) (hF : subF [.disp, .block 8, .block 17, .sched, .kernels, .running, .log, .free, .block 3, .arr, .block 1, .out] fs = true) :
    Keeps fs s0 (State.undefinedOpcode s opc o) := by
  unfold State.undefinedOpcode
  have k : ∀ c, Keeps fs s0 (s.begin.discardPair.trapHere c s.begin.discardPair.here.toNat 0 .ok) := fun c =>
    State.trapHere_keeps _ _ _ _ _ (State.discardPair_keeps _ (State.begin_keeps _ h1 (subF_trans (by decide) hF)) (subF_trans (by decide) hF)) (subF_trans (by decide) hF)
  refine keeps_ite h1 (keeps_ite (keeps_ite (k _) h1) (keeps_ite (k _) (keeps_ite (k _) h1)))

theorem execUndefinedOpcode_keeps (opc : ℕ) (o : SOp) (s : State) : ∃ s', execUndefinedOpcode opc o s = .next s' ∧
    Keeps [.disp, .block 8, .block 17, .sched, .kernels, .running, .log, .free, .block 3, .arr, .block 1, .out] s s' := by
  have hF : subF [.disp, .block 8, .block 17, .sched, .kernels, .running, .log, .free, .block 3, .arr, .block 1, .out] [.disp, .block 8, .block 17, .sched, .kernels, .running, .log, .free, .block 3, .arr, .block 1, .out] = true := by decide
  unfold execUndefinedOpcode
  refine ⟨_, rfl, ?_⟩
  refine State.undefinedOpcode_keeps _ _ _ ?_ (subF_trans (by decide) hF)
  exact (Keeps.rfl' _ _)

end Sys2Proof.Machine
end

