-- ==== Sys2Proof/Laws/State.lean ====
section
/-! SUPPORT. The small lemmas of State: what each update leaves of each field, and what a register, a field or a bit reads
after a write. -/

namespace Sys2Proof.Machine

variable (s : State)

/-! Field by update -/

@[simp] theorem State.setReg_arr (a : Nat) (v : Word) : (s.setReg a v).arr = s.arr := rfl
@[simp] theorem State.setReg_trv (a : Nat) (v : Word) : (s.setReg a v).trv = s.trv := rfl
@[simp] theorem State.setReg_disp (a : Nat) (v : Word) : (s.setReg a v).disp = s.disp := rfl
@[simp] theorem State.setReg_cs (a : Nat) (v : Word) : (s.setReg a v).cs = s.cs := rfl
@[simp] theorem State.setReg_mem (a : Nat) (v : Word) : (s.setReg a v).mem = s.mem := rfl
@[simp] theorem State.setReg_jt (a : Nat) (v : Word) : (s.setReg a v).jt = s.jt := rfl
@[simp] theorem State.setReg_pcie (a : Nat) (v : Word) : (s.setReg a v).pcie = s.pcie := rfl
@[simp] theorem State.setReg_part (a : Nat) (v : Word) : (s.setReg a v).part = s.part := rfl
@[simp] theorem State.setReg_log (a : Nat) (v : Word) : (s.setReg a v).log = s.log := rfl
@[simp] theorem State.setReg_logSeq (a : Nat) (v : Word) : (s.setReg a v).logSeq = s.logSeq := rfl
@[simp] theorem State.setReg_repair (a : Nat) (v : Word) : (s.setReg a v).repair = s.repair := rfl
@[simp] theorem State.setReg_sched (a : Nat) (v : Word) : (s.setReg a v).sched = s.sched := rfl
@[simp] theorem State.setReg_kernels (a : Nat) (v : Word) : (s.setReg a v).kernels = s.kernels := rfl
@[simp] theorem State.setReg_running (a : Nat) (v : Word) : (s.setReg a v).running = s.running := rfl
@[simp] theorem State.setReg_pwr (a : Nat) (v : Word) : (s.setReg a v).pwr = s.pwr := rfl
@[simp] theorem State.setReg_cpl (a : Nat) (v : Word) : (s.setReg a v).cpl = s.cpl := rfl
@[simp] theorem State.setReg_fab (a : Nat) (v : Word) : (s.setReg a v).fab = s.fab := rfl
@[simp] theorem State.setReg_sm (a : Nat) (v : Word) : (s.setReg a v).sm = s.sm := rfl
@[simp] theorem State.setReg_upd (a : Nat) (v : Word) : (s.setReg a v).upd = s.upd := rfl
@[simp] theorem State.setReg_streams (a : Nat) (v : Word) : (s.setReg a v).streams = s.streams := rfl
@[simp] theorem State.setReg_pipes (a : Nat) (v : Word) : (s.setReg a v).pipes = s.pipes := rfl
@[simp] theorem State.setReg_il (a : Nat) (v : Word) : (s.setReg a v).il = s.il := rfl
@[simp] theorem State.setReg_tkt (a : Nat) (v : Word) : (s.setReg a v).tkt = s.tkt := rfl
@[simp] theorem State.setReg_van (a : Nat) (v : Word) : (s.setReg a v).van = s.van := rfl
@[simp] theorem State.setReg_free (a : Nat) (v : Word) : (s.setReg a v).free = s.free := rfl
@[simp] theorem State.setReg_out (a : Nat) (v : Word) : (s.setReg a v).out = s.out := rfl
@[simp] theorem State.setReg_pending (a : Nat) (v : Word) : (s.setReg a v).pending = s.pending := rfl

@[simp] theorem State.setFld_arr (a hi lo n : Nat) : (s.setFld a hi lo n).arr = s.arr := rfl
@[simp] theorem State.setFld_trv (a hi lo n : Nat) : (s.setFld a hi lo n).trv = s.trv := rfl
@[simp] theorem State.setFld_disp (a hi lo n : Nat) : (s.setFld a hi lo n).disp = s.disp := rfl
@[simp] theorem State.setFld_cs (a hi lo n : Nat) : (s.setFld a hi lo n).cs = s.cs := rfl
@[simp] theorem State.setFld_mem (a hi lo n : Nat) : (s.setFld a hi lo n).mem = s.mem := rfl
@[simp] theorem State.setFld_jt (a hi lo n : Nat) : (s.setFld a hi lo n).jt = s.jt := rfl
@[simp] theorem State.setFld_pcie (a hi lo n : Nat) : (s.setFld a hi lo n).pcie = s.pcie := rfl
@[simp] theorem State.setFld_part (a hi lo n : Nat) : (s.setFld a hi lo n).part = s.part := rfl
@[simp] theorem State.setFld_log (a hi lo n : Nat) : (s.setFld a hi lo n).log = s.log := rfl
@[simp] theorem State.setFld_logSeq (a hi lo n : Nat) : (s.setFld a hi lo n).logSeq = s.logSeq := rfl
@[simp] theorem State.setFld_repair (a hi lo n : Nat) : (s.setFld a hi lo n).repair = s.repair := rfl
@[simp] theorem State.setFld_sched (a hi lo n : Nat) : (s.setFld a hi lo n).sched = s.sched := rfl
@[simp] theorem State.setFld_kernels (a hi lo n : Nat) : (s.setFld a hi lo n).kernels = s.kernels := rfl
@[simp] theorem State.setFld_running (a hi lo n : Nat) : (s.setFld a hi lo n).running = s.running := rfl
@[simp] theorem State.setFld_pwr (a hi lo n : Nat) : (s.setFld a hi lo n).pwr = s.pwr := rfl
@[simp] theorem State.setFld_cpl (a hi lo n : Nat) : (s.setFld a hi lo n).cpl = s.cpl := rfl
@[simp] theorem State.setFld_fab (a hi lo n : Nat) : (s.setFld a hi lo n).fab = s.fab := rfl
@[simp] theorem State.setFld_sm (a hi lo n : Nat) : (s.setFld a hi lo n).sm = s.sm := rfl
@[simp] theorem State.setFld_upd (a hi lo n : Nat) : (s.setFld a hi lo n).upd = s.upd := rfl
@[simp] theorem State.setFld_streams (a hi lo n : Nat) : (s.setFld a hi lo n).streams = s.streams := rfl
@[simp] theorem State.setFld_pipes (a hi lo n : Nat) : (s.setFld a hi lo n).pipes = s.pipes := rfl
@[simp] theorem State.setFld_il (a hi lo n : Nat) : (s.setFld a hi lo n).il = s.il := rfl
@[simp] theorem State.setFld_tkt (a hi lo n : Nat) : (s.setFld a hi lo n).tkt = s.tkt := rfl
@[simp] theorem State.setFld_van (a hi lo n : Nat) : (s.setFld a hi lo n).van = s.van := rfl
@[simp] theorem State.setFld_free (a hi lo n : Nat) : (s.setFld a hi lo n).free = s.free := rfl
@[simp] theorem State.setFld_out (a hi lo n : Nat) : (s.setFld a hi lo n).out = s.out := rfl
@[simp] theorem State.setFld_pending (a hi lo n : Nat) : (s.setFld a hi lo n).pending = s.pending := rfl

@[simp] theorem State.setBit_arr (a n : Nat) (b : Bool) : (s.setBit a n b).arr = s.arr := rfl
@[simp] theorem State.setBit_trv (a n : Nat) (b : Bool) : (s.setBit a n b).trv = s.trv := rfl
@[simp] theorem State.setBit_disp (a n : Nat) (b : Bool) : (s.setBit a n b).disp = s.disp := rfl
@[simp] theorem State.setBit_cs (a n : Nat) (b : Bool) : (s.setBit a n b).cs = s.cs := rfl
@[simp] theorem State.setBit_mem (a n : Nat) (b : Bool) : (s.setBit a n b).mem = s.mem := rfl
@[simp] theorem State.setBit_jt (a n : Nat) (b : Bool) : (s.setBit a n b).jt = s.jt := rfl
@[simp] theorem State.setBit_pcie (a n : Nat) (b : Bool) : (s.setBit a n b).pcie = s.pcie := rfl
@[simp] theorem State.setBit_part (a n : Nat) (b : Bool) : (s.setBit a n b).part = s.part := rfl
@[simp] theorem State.setBit_log (a n : Nat) (b : Bool) : (s.setBit a n b).log = s.log := rfl
@[simp] theorem State.setBit_logSeq (a n : Nat) (b : Bool) : (s.setBit a n b).logSeq = s.logSeq := rfl
@[simp] theorem State.setBit_repair (a n : Nat) (b : Bool) : (s.setBit a n b).repair = s.repair := rfl
@[simp] theorem State.setBit_sched (a n : Nat) (b : Bool) : (s.setBit a n b).sched = s.sched := rfl
@[simp] theorem State.setBit_kernels (a n : Nat) (b : Bool) : (s.setBit a n b).kernels = s.kernels := rfl
@[simp] theorem State.setBit_running (a n : Nat) (b : Bool) : (s.setBit a n b).running = s.running := rfl
@[simp] theorem State.setBit_pwr (a n : Nat) (b : Bool) : (s.setBit a n b).pwr = s.pwr := rfl
@[simp] theorem State.setBit_cpl (a n : Nat) (b : Bool) : (s.setBit a n b).cpl = s.cpl := rfl
@[simp] theorem State.setBit_fab (a n : Nat) (b : Bool) : (s.setBit a n b).fab = s.fab := rfl
@[simp] theorem State.setBit_sm (a n : Nat) (b : Bool) : (s.setBit a n b).sm = s.sm := rfl
@[simp] theorem State.setBit_upd (a n : Nat) (b : Bool) : (s.setBit a n b).upd = s.upd := rfl
@[simp] theorem State.setBit_streams (a n : Nat) (b : Bool) : (s.setBit a n b).streams = s.streams := rfl
@[simp] theorem State.setBit_pipes (a n : Nat) (b : Bool) : (s.setBit a n b).pipes = s.pipes := rfl
@[simp] theorem State.setBit_il (a n : Nat) (b : Bool) : (s.setBit a n b).il = s.il := rfl
@[simp] theorem State.setBit_tkt (a n : Nat) (b : Bool) : (s.setBit a n b).tkt = s.tkt := rfl
@[simp] theorem State.setBit_van (a n : Nat) (b : Bool) : (s.setBit a n b).van = s.van := rfl
@[simp] theorem State.setBit_free (a n : Nat) (b : Bool) : (s.setBit a n b).free = s.free := rfl
@[simp] theorem State.setBit_out (a n : Nat) (b : Bool) : (s.setBit a n b).out = s.out := rfl
@[simp] theorem State.setBit_pending (a n : Nat) (b : Bool) : (s.setBit a n b).pending = s.pending := rfl

@[simp] theorem State.satInc_arr (a hi lo : Nat) : (s.satInc a hi lo).arr = s.arr := by unfold State.satInc; split <;> rfl
@[simp] theorem State.satInc_trv (a hi lo : Nat) : (s.satInc a hi lo).trv = s.trv := by unfold State.satInc; split <;> rfl
@[simp] theorem State.satInc_disp (a hi lo : Nat) : (s.satInc a hi lo).disp = s.disp := by unfold State.satInc; split <;> rfl
@[simp] theorem State.satInc_cs (a hi lo : Nat) : (s.satInc a hi lo).cs = s.cs := by unfold State.satInc; split <;> rfl
@[simp] theorem State.satInc_mem (a hi lo : Nat) : (s.satInc a hi lo).mem = s.mem := by unfold State.satInc; split <;> rfl
@[simp] theorem State.satInc_jt (a hi lo : Nat) : (s.satInc a hi lo).jt = s.jt := by unfold State.satInc; split <;> rfl
@[simp] theorem State.satInc_pcie (a hi lo : Nat) : (s.satInc a hi lo).pcie = s.pcie := by unfold State.satInc; split <;> rfl
@[simp] theorem State.satInc_part (a hi lo : Nat) : (s.satInc a hi lo).part = s.part := by unfold State.satInc; split <;> rfl
@[simp] theorem State.satInc_log (a hi lo : Nat) : (s.satInc a hi lo).log = s.log := by unfold State.satInc; split <;> rfl
@[simp] theorem State.satInc_logSeq (a hi lo : Nat) : (s.satInc a hi lo).logSeq = s.logSeq := by unfold State.satInc; split <;> rfl
@[simp] theorem State.satInc_repair (a hi lo : Nat) : (s.satInc a hi lo).repair = s.repair := by unfold State.satInc; split <;> rfl
@[simp] theorem State.satInc_sched (a hi lo : Nat) : (s.satInc a hi lo).sched = s.sched := by unfold State.satInc; split <;> rfl
@[simp] theorem State.satInc_kernels (a hi lo : Nat) : (s.satInc a hi lo).kernels = s.kernels := by unfold State.satInc; split <;> rfl
@[simp] theorem State.satInc_running (a hi lo : Nat) : (s.satInc a hi lo).running = s.running := by unfold State.satInc; split <;> rfl
@[simp] theorem State.satInc_pwr (a hi lo : Nat) : (s.satInc a hi lo).pwr = s.pwr := by unfold State.satInc; split <;> rfl
@[simp] theorem State.satInc_cpl (a hi lo : Nat) : (s.satInc a hi lo).cpl = s.cpl := by unfold State.satInc; split <;> rfl
@[simp] theorem State.satInc_fab (a hi lo : Nat) : (s.satInc a hi lo).fab = s.fab := by unfold State.satInc; split <;> rfl
@[simp] theorem State.satInc_sm (a hi lo : Nat) : (s.satInc a hi lo).sm = s.sm := by unfold State.satInc; split <;> rfl
@[simp] theorem State.satInc_upd (a hi lo : Nat) : (s.satInc a hi lo).upd = s.upd := by unfold State.satInc; split <;> rfl
@[simp] theorem State.satInc_streams (a hi lo : Nat) : (s.satInc a hi lo).streams = s.streams := by unfold State.satInc; split <;> rfl
@[simp] theorem State.satInc_pipes (a hi lo : Nat) : (s.satInc a hi lo).pipes = s.pipes := by unfold State.satInc; split <;> rfl
@[simp] theorem State.satInc_il (a hi lo : Nat) : (s.satInc a hi lo).il = s.il := by unfold State.satInc; split <;> rfl
@[simp] theorem State.satInc_tkt (a hi lo : Nat) : (s.satInc a hi lo).tkt = s.tkt := by unfold State.satInc; split <;> rfl
@[simp] theorem State.satInc_van (a hi lo : Nat) : (s.satInc a hi lo).van = s.van := by unfold State.satInc; split <;> rfl
@[simp] theorem State.satInc_free (a hi lo : Nat) : (s.satInc a hi lo).free = s.free := by unfold State.satInc; split <;> rfl
@[simp] theorem State.satInc_out (a hi lo : Nat) : (s.satInc a hi lo).out = s.out := by unfold State.satInc; split <;> rfl
@[simp] theorem State.satInc_pending (a hi lo : Nat) : (s.satInc a hi lo).pending = s.pending := by unfold State.satInc; split <;> rfl

@[simp] theorem State.codeWrite_arr (a : Nat) (v : Word) : (s.codeWrite a v).arr = s.arr := by unfold State.codeWrite; split <;> rfl
@[simp] theorem State.codeWrite_trv (a : Nat) (v : Word) : (s.codeWrite a v).trv = s.trv := by unfold State.codeWrite; split <;> rfl
@[simp] theorem State.codeWrite_disp (a : Nat) (v : Word) : (s.codeWrite a v).disp = s.disp := by unfold State.codeWrite; split <;> rfl
@[simp] theorem State.codeWrite_cs (a : Nat) (v : Word) : (s.codeWrite a v).cs = s.cs := by unfold State.codeWrite; split <;> rfl
@[simp] theorem State.codeWrite_mem (a : Nat) (v : Word) : (s.codeWrite a v).mem = s.mem := by unfold State.codeWrite; split <;> rfl
@[simp] theorem State.codeWrite_jt (a : Nat) (v : Word) : (s.codeWrite a v).jt = s.jt := by unfold State.codeWrite; split <;> rfl
@[simp] theorem State.codeWrite_pcie (a : Nat) (v : Word) : (s.codeWrite a v).pcie = s.pcie := by unfold State.codeWrite; split <;> rfl
@[simp] theorem State.codeWrite_part (a : Nat) (v : Word) : (s.codeWrite a v).part = s.part := by unfold State.codeWrite; split <;> rfl
@[simp] theorem State.codeWrite_log (a : Nat) (v : Word) : (s.codeWrite a v).log = s.log := by unfold State.codeWrite; split <;> rfl
@[simp] theorem State.codeWrite_logSeq (a : Nat) (v : Word) : (s.codeWrite a v).logSeq = s.logSeq := by unfold State.codeWrite; split <;> rfl
@[simp] theorem State.codeWrite_repair (a : Nat) (v : Word) : (s.codeWrite a v).repair = s.repair := by unfold State.codeWrite; split <;> rfl
@[simp] theorem State.codeWrite_sched (a : Nat) (v : Word) : (s.codeWrite a v).sched = s.sched := by unfold State.codeWrite; split <;> rfl
@[simp] theorem State.codeWrite_kernels (a : Nat) (v : Word) : (s.codeWrite a v).kernels = s.kernels := by unfold State.codeWrite; split <;> rfl
@[simp] theorem State.codeWrite_running (a : Nat) (v : Word) : (s.codeWrite a v).running = s.running := by unfold State.codeWrite; split <;> rfl
@[simp] theorem State.codeWrite_pwr (a : Nat) (v : Word) : (s.codeWrite a v).pwr = s.pwr := by unfold State.codeWrite; split <;> rfl
@[simp] theorem State.codeWrite_cpl (a : Nat) (v : Word) : (s.codeWrite a v).cpl = s.cpl := by unfold State.codeWrite; split <;> rfl
@[simp] theorem State.codeWrite_fab (a : Nat) (v : Word) : (s.codeWrite a v).fab = s.fab := by unfold State.codeWrite; split <;> rfl
@[simp] theorem State.codeWrite_sm (a : Nat) (v : Word) : (s.codeWrite a v).sm = s.sm := by unfold State.codeWrite; split <;> rfl
@[simp] theorem State.codeWrite_upd (a : Nat) (v : Word) : (s.codeWrite a v).upd = s.upd := by unfold State.codeWrite; split <;> rfl
@[simp] theorem State.codeWrite_streams (a : Nat) (v : Word) : (s.codeWrite a v).streams = s.streams := by unfold State.codeWrite; split <;> rfl
@[simp] theorem State.codeWrite_pipes (a : Nat) (v : Word) : (s.codeWrite a v).pipes = s.pipes := by unfold State.codeWrite; split <;> rfl
@[simp] theorem State.codeWrite_il (a : Nat) (v : Word) : (s.codeWrite a v).il = s.il := by unfold State.codeWrite; split <;> rfl
@[simp] theorem State.codeWrite_tkt (a : Nat) (v : Word) : (s.codeWrite a v).tkt = s.tkt := by unfold State.codeWrite; split <;> rfl
@[simp] theorem State.codeWrite_van (a : Nat) (v : Word) : (s.codeWrite a v).van = s.van := by unfold State.codeWrite; split <;> rfl
@[simp] theorem State.codeWrite_free (a : Nat) (v : Word) : (s.codeWrite a v).free = s.free := by unfold State.codeWrite; split <;> rfl
@[simp] theorem State.codeWrite_out (a : Nat) (v : Word) : (s.codeWrite a v).out = s.out := by unfold State.codeWrite; split <;> rfl
@[simp] theorem State.codeWrite_pending (a : Nat) (v : Word) : (s.codeWrite a v).pending = s.pending := by unfold State.codeWrite; split <;> rfl

@[simp] theorem State.useFree_regs : (s.useFree).regs = s.regs := rfl
@[simp] theorem State.useFree_arr : (s.useFree).arr = s.arr := rfl
@[simp] theorem State.useFree_trv : (s.useFree).trv = s.trv := rfl
@[simp] theorem State.useFree_disp : (s.useFree).disp = s.disp := rfl
@[simp] theorem State.useFree_cs : (s.useFree).cs = s.cs := rfl
@[simp] theorem State.useFree_mem : (s.useFree).mem = s.mem := rfl
@[simp] theorem State.useFree_jt : (s.useFree).jt = s.jt := rfl
@[simp] theorem State.useFree_pcie : (s.useFree).pcie = s.pcie := rfl
@[simp] theorem State.useFree_part : (s.useFree).part = s.part := rfl
@[simp] theorem State.useFree_log : (s.useFree).log = s.log := rfl
@[simp] theorem State.useFree_logSeq : (s.useFree).logSeq = s.logSeq := rfl
@[simp] theorem State.useFree_repair : (s.useFree).repair = s.repair := rfl
@[simp] theorem State.useFree_sched : (s.useFree).sched = s.sched := rfl
@[simp] theorem State.useFree_kernels : (s.useFree).kernels = s.kernels := rfl
@[simp] theorem State.useFree_running : (s.useFree).running = s.running := rfl
@[simp] theorem State.useFree_pwr : (s.useFree).pwr = s.pwr := rfl
@[simp] theorem State.useFree_cpl : (s.useFree).cpl = s.cpl := rfl
@[simp] theorem State.useFree_fab : (s.useFree).fab = s.fab := rfl
@[simp] theorem State.useFree_sm : (s.useFree).sm = s.sm := rfl
@[simp] theorem State.useFree_upd : (s.useFree).upd = s.upd := rfl
@[simp] theorem State.useFree_streams : (s.useFree).streams = s.streams := rfl
@[simp] theorem State.useFree_pipes : (s.useFree).pipes = s.pipes := rfl
@[simp] theorem State.useFree_il : (s.useFree).il = s.il := rfl
@[simp] theorem State.useFree_tkt : (s.useFree).tkt = s.tkt := rfl
@[simp] theorem State.useFree_van : (s.useFree).van = s.van := rfl
@[simp] theorem State.useFree_out : (s.useFree).out = s.out := rfl
@[simp] theorem State.useFree_pending : (s.useFree).pending = s.pending := rfl

@[simp] theorem State.emit_regs (o : Out) : (s.emit o).regs = s.regs := rfl
@[simp] theorem State.emit_arr (o : Out) : (s.emit o).arr = s.arr := rfl
@[simp] theorem State.emit_trv (o : Out) : (s.emit o).trv = s.trv := rfl
@[simp] theorem State.emit_disp (o : Out) : (s.emit o).disp = s.disp := rfl
@[simp] theorem State.emit_cs (o : Out) : (s.emit o).cs = s.cs := rfl
@[simp] theorem State.emit_mem (o : Out) : (s.emit o).mem = s.mem := rfl
@[simp] theorem State.emit_jt (o : Out) : (s.emit o).jt = s.jt := rfl
@[simp] theorem State.emit_pcie (o : Out) : (s.emit o).pcie = s.pcie := rfl
@[simp] theorem State.emit_part (o : Out) : (s.emit o).part = s.part := rfl
@[simp] theorem State.emit_log (o : Out) : (s.emit o).log = s.log := rfl
@[simp] theorem State.emit_logSeq (o : Out) : (s.emit o).logSeq = s.logSeq := rfl
@[simp] theorem State.emit_repair (o : Out) : (s.emit o).repair = s.repair := rfl
@[simp] theorem State.emit_sched (o : Out) : (s.emit o).sched = s.sched := rfl
@[simp] theorem State.emit_kernels (o : Out) : (s.emit o).kernels = s.kernels := rfl
@[simp] theorem State.emit_running (o : Out) : (s.emit o).running = s.running := rfl
@[simp] theorem State.emit_pwr (o : Out) : (s.emit o).pwr = s.pwr := rfl
@[simp] theorem State.emit_cpl (o : Out) : (s.emit o).cpl = s.cpl := rfl
@[simp] theorem State.emit_fab (o : Out) : (s.emit o).fab = s.fab := rfl
@[simp] theorem State.emit_sm (o : Out) : (s.emit o).sm = s.sm := rfl
@[simp] theorem State.emit_upd (o : Out) : (s.emit o).upd = s.upd := rfl
@[simp] theorem State.emit_streams (o : Out) : (s.emit o).streams = s.streams := rfl
@[simp] theorem State.emit_pipes (o : Out) : (s.emit o).pipes = s.pipes := rfl
@[simp] theorem State.emit_il (o : Out) : (s.emit o).il = s.il := rfl
@[simp] theorem State.emit_tkt (o : Out) : (s.emit o).tkt = s.tkt := rfl
@[simp] theorem State.emit_van (o : Out) : (s.emit o).van = s.van := rfl
@[simp] theorem State.emit_free (o : Out) : (s.emit o).free = s.free := rfl
@[simp] theorem State.emit_pending (o : Out) : (s.emit o).pending = s.pending := rfl

@[simp] theorem State.setPsw_regs (i : Nat) (b : Bool) : (s.setPsw i b).regs = s.regs := rfl
@[simp] theorem State.setPsw_arr (i : Nat) (b : Bool) : (s.setPsw i b).arr = s.arr := rfl
@[simp] theorem State.setPsw_trv (i : Nat) (b : Bool) : (s.setPsw i b).trv = s.trv := rfl
@[simp] theorem State.setPsw_cs (i : Nat) (b : Bool) : (s.setPsw i b).cs = s.cs := rfl
@[simp] theorem State.setPsw_mem (i : Nat) (b : Bool) : (s.setPsw i b).mem = s.mem := rfl
@[simp] theorem State.setPsw_jt (i : Nat) (b : Bool) : (s.setPsw i b).jt = s.jt := rfl
@[simp] theorem State.setPsw_pcie (i : Nat) (b : Bool) : (s.setPsw i b).pcie = s.pcie := rfl
@[simp] theorem State.setPsw_part (i : Nat) (b : Bool) : (s.setPsw i b).part = s.part := rfl
@[simp] theorem State.setPsw_log (i : Nat) (b : Bool) : (s.setPsw i b).log = s.log := rfl
@[simp] theorem State.setPsw_logSeq (i : Nat) (b : Bool) : (s.setPsw i b).logSeq = s.logSeq := rfl
@[simp] theorem State.setPsw_repair (i : Nat) (b : Bool) : (s.setPsw i b).repair = s.repair := rfl
@[simp] theorem State.setPsw_sched (i : Nat) (b : Bool) : (s.setPsw i b).sched = s.sched := rfl
@[simp] theorem State.setPsw_kernels (i : Nat) (b : Bool) : (s.setPsw i b).kernels = s.kernels := rfl
@[simp] theorem State.setPsw_running (i : Nat) (b : Bool) : (s.setPsw i b).running = s.running := rfl
@[simp] theorem State.setPsw_pwr (i : Nat) (b : Bool) : (s.setPsw i b).pwr = s.pwr := rfl
@[simp] theorem State.setPsw_cpl (i : Nat) (b : Bool) : (s.setPsw i b).cpl = s.cpl := rfl
@[simp] theorem State.setPsw_fab (i : Nat) (b : Bool) : (s.setPsw i b).fab = s.fab := rfl
@[simp] theorem State.setPsw_sm (i : Nat) (b : Bool) : (s.setPsw i b).sm = s.sm := rfl
@[simp] theorem State.setPsw_upd (i : Nat) (b : Bool) : (s.setPsw i b).upd = s.upd := rfl
@[simp] theorem State.setPsw_streams (i : Nat) (b : Bool) : (s.setPsw i b).streams = s.streams := rfl
@[simp] theorem State.setPsw_pipes (i : Nat) (b : Bool) : (s.setPsw i b).pipes = s.pipes := rfl
@[simp] theorem State.setPsw_il (i : Nat) (b : Bool) : (s.setPsw i b).il = s.il := rfl
@[simp] theorem State.setPsw_tkt (i : Nat) (b : Bool) : (s.setPsw i b).tkt = s.tkt := rfl
@[simp] theorem State.setPsw_van (i : Nat) (b : Bool) : (s.setPsw i b).van = s.van := rfl
@[simp] theorem State.setPsw_free (i : Nat) (b : Bool) : (s.setPsw i b).free = s.free := rfl
@[simp] theorem State.setPsw_out (i : Nat) (b : Bool) : (s.setPsw i b).out = s.out := rfl
@[simp] theorem State.setPsw_pending (i : Nat) (b : Bool) : (s.setPsw i b).pending = s.pending := rfl

@[simp] theorem State.setFlags_regs (f : Flags) : (s.setFlags f).regs = s.regs := rfl
@[simp] theorem State.setFlags_arr (f : Flags) : (s.setFlags f).arr = s.arr := rfl
@[simp] theorem State.setFlags_trv (f : Flags) : (s.setFlags f).trv = s.trv := rfl
@[simp] theorem State.setFlags_cs (f : Flags) : (s.setFlags f).cs = s.cs := rfl
@[simp] theorem State.setFlags_mem (f : Flags) : (s.setFlags f).mem = s.mem := rfl
@[simp] theorem State.setFlags_jt (f : Flags) : (s.setFlags f).jt = s.jt := rfl
@[simp] theorem State.setFlags_pcie (f : Flags) : (s.setFlags f).pcie = s.pcie := rfl
@[simp] theorem State.setFlags_part (f : Flags) : (s.setFlags f).part = s.part := rfl
@[simp] theorem State.setFlags_log (f : Flags) : (s.setFlags f).log = s.log := rfl
@[simp] theorem State.setFlags_logSeq (f : Flags) : (s.setFlags f).logSeq = s.logSeq := rfl
@[simp] theorem State.setFlags_repair (f : Flags) : (s.setFlags f).repair = s.repair := rfl
@[simp] theorem State.setFlags_sched (f : Flags) : (s.setFlags f).sched = s.sched := rfl
@[simp] theorem State.setFlags_kernels (f : Flags) : (s.setFlags f).kernels = s.kernels := rfl
@[simp] theorem State.setFlags_running (f : Flags) : (s.setFlags f).running = s.running := rfl
@[simp] theorem State.setFlags_pwr (f : Flags) : (s.setFlags f).pwr = s.pwr := rfl
@[simp] theorem State.setFlags_cpl (f : Flags) : (s.setFlags f).cpl = s.cpl := rfl
@[simp] theorem State.setFlags_fab (f : Flags) : (s.setFlags f).fab = s.fab := rfl
@[simp] theorem State.setFlags_sm (f : Flags) : (s.setFlags f).sm = s.sm := rfl
@[simp] theorem State.setFlags_upd (f : Flags) : (s.setFlags f).upd = s.upd := rfl
@[simp] theorem State.setFlags_streams (f : Flags) : (s.setFlags f).streams = s.streams := rfl
@[simp] theorem State.setFlags_pipes (f : Flags) : (s.setFlags f).pipes = s.pipes := rfl
@[simp] theorem State.setFlags_il (f : Flags) : (s.setFlags f).il = s.il := rfl
@[simp] theorem State.setFlags_tkt (f : Flags) : (s.setFlags f).tkt = s.tkt := rfl
@[simp] theorem State.setFlags_van (f : Flags) : (s.setFlags f).van = s.van := rfl
@[simp] theorem State.setFlags_free (f : Flags) : (s.setFlags f).free = s.free := rfl
@[simp] theorem State.setFlags_out (f : Flags) : (s.setFlags f).out = s.out := rfl
@[simp] theorem State.setFlags_pending (f : Flags) : (s.setFlags f).pending = s.pending := rfl


theorem State.fire_parts (i : Nat) : ∃ regs out, s.fire i = { s with regs := regs, out := out } := by
  have hv : ∀ (t : State) v, ∃ regs out, t.vecUpdate v = { t with regs := regs, out := out } := by
    intro t v
    unfold State.vecUpdate
    split
    · split
      · exact ⟨_, _, rfl⟩
      · split <;> exact ⟨_, _, rfl⟩
    · exact ⟨_, _, rfl⟩
  unfold State.fire
  have h1 : ∃ regs, (if s.bit (icReg Reg.IC_PEND i) (i % 32) then s.setBit (icReg Reg.IC_LOST i) (i % 32) true
      else s.setBit (icReg Reg.IC_PEND i) (i % 32) true) = { s with regs := regs } := by split <;> exact ⟨_, rfl⟩
  obtain ⟨r1, h1⟩ := h1
  simp only [h1]
  split
  · exact ⟨_, _, rfl⟩
  · next v _ =>
    obtain ⟨r2, o2, h2⟩ := hv (State.setBit { s with regs := r1 } (icReg Reg.IC_HPEND i) (i % 32) true) v
    exact ⟨r2, o2, by rw [h2]; rfl⟩

@[simp] theorem State.fire_arr (i : Nat) : (s.fire i).arr = s.arr := by obtain ⟨r, o, h⟩ := s.fire_parts i; rw [h]
@[simp] theorem State.fire_trv (i : Nat) : (s.fire i).trv = s.trv := by obtain ⟨r, o, h⟩ := s.fire_parts i; rw [h]
@[simp] theorem State.fire_disp (i : Nat) : (s.fire i).disp = s.disp := by obtain ⟨r, o, h⟩ := s.fire_parts i; rw [h]
@[simp] theorem State.fire_cs (i : Nat) : (s.fire i).cs = s.cs := by obtain ⟨r, o, h⟩ := s.fire_parts i; rw [h]
@[simp] theorem State.fire_mem (i : Nat) : (s.fire i).mem = s.mem := by obtain ⟨r, o, h⟩ := s.fire_parts i; rw [h]
@[simp] theorem State.fire_jt (i : Nat) : (s.fire i).jt = s.jt := by obtain ⟨r, o, h⟩ := s.fire_parts i; rw [h]
@[simp] theorem State.fire_pcie (i : Nat) : (s.fire i).pcie = s.pcie := by obtain ⟨r, o, h⟩ := s.fire_parts i; rw [h]
@[simp] theorem State.fire_part (i : Nat) : (s.fire i).part = s.part := by obtain ⟨r, o, h⟩ := s.fire_parts i; rw [h]
@[simp] theorem State.fire_log (i : Nat) : (s.fire i).log = s.log := by obtain ⟨r, o, h⟩ := s.fire_parts i; rw [h]
@[simp] theorem State.fire_logSeq (i : Nat) : (s.fire i).logSeq = s.logSeq := by obtain ⟨r, o, h⟩ := s.fire_parts i; rw [h]
@[simp] theorem State.fire_repair (i : Nat) : (s.fire i).repair = s.repair := by obtain ⟨r, o, h⟩ := s.fire_parts i; rw [h]
@[simp] theorem State.fire_sched (i : Nat) : (s.fire i).sched = s.sched := by obtain ⟨r, o, h⟩ := s.fire_parts i; rw [h]
@[simp] theorem State.fire_kernels (i : Nat) : (s.fire i).kernels = s.kernels := by obtain ⟨r, o, h⟩ := s.fire_parts i; rw [h]
@[simp] theorem State.fire_running (i : Nat) : (s.fire i).running = s.running := by obtain ⟨r, o, h⟩ := s.fire_parts i; rw [h]
@[simp] theorem State.fire_pwr (i : Nat) : (s.fire i).pwr = s.pwr := by obtain ⟨r, o, h⟩ := s.fire_parts i; rw [h]
@[simp] theorem State.fire_cpl (i : Nat) : (s.fire i).cpl = s.cpl := by obtain ⟨r, o, h⟩ := s.fire_parts i; rw [h]
@[simp] theorem State.fire_fab (i : Nat) : (s.fire i).fab = s.fab := by obtain ⟨r, o, h⟩ := s.fire_parts i; rw [h]
@[simp] theorem State.fire_sm (i : Nat) : (s.fire i).sm = s.sm := by obtain ⟨r, o, h⟩ := s.fire_parts i; rw [h]
@[simp] theorem State.fire_upd (i : Nat) : (s.fire i).upd = s.upd := by obtain ⟨r, o, h⟩ := s.fire_parts i; rw [h]
@[simp] theorem State.fire_streams (i : Nat) : (s.fire i).streams = s.streams := by obtain ⟨r, o, h⟩ := s.fire_parts i; rw [h]
@[simp] theorem State.fire_pipes (i : Nat) : (s.fire i).pipes = s.pipes := by obtain ⟨r, o, h⟩ := s.fire_parts i; rw [h]
@[simp] theorem State.fire_il (i : Nat) : (s.fire i).il = s.il := by obtain ⟨r, o, h⟩ := s.fire_parts i; rw [h]
@[simp] theorem State.fire_tkt (i : Nat) : (s.fire i).tkt = s.tkt := by obtain ⟨r, o, h⟩ := s.fire_parts i; rw [h]
@[simp] theorem State.fire_van (i : Nat) : (s.fire i).van = s.van := by obtain ⟨r, o, h⟩ := s.fire_parts i; rw [h]
@[simp] theorem State.fire_free (i : Nat) : (s.fire i).free = s.free := by obtain ⟨r, o, h⟩ := s.fire_parts i; rw [h]
@[simp] theorem State.fire_pending (i : Nat) : (s.fire i).pending = s.pending := by obtain ⟨r, o, h⟩ := s.fire_parts i; rw [h]

@[simp] theorem State.fireIf_arr (c : Bool) (i : Nat) : (s.fireIf c i).arr = s.arr := by unfold State.fireIf; split <;> simp
@[simp] theorem State.fireIf_trv (c : Bool) (i : Nat) : (s.fireIf c i).trv = s.trv := by unfold State.fireIf; split <;> simp
@[simp] theorem State.fireIf_disp (c : Bool) (i : Nat) : (s.fireIf c i).disp = s.disp := by unfold State.fireIf; split <;> simp
@[simp] theorem State.fireIf_cs (c : Bool) (i : Nat) : (s.fireIf c i).cs = s.cs := by unfold State.fireIf; split <;> simp
@[simp] theorem State.fireIf_mem (c : Bool) (i : Nat) : (s.fireIf c i).mem = s.mem := by unfold State.fireIf; split <;> simp
@[simp] theorem State.fireIf_jt (c : Bool) (i : Nat) : (s.fireIf c i).jt = s.jt := by unfold State.fireIf; split <;> simp
@[simp] theorem State.fireIf_pcie (c : Bool) (i : Nat) : (s.fireIf c i).pcie = s.pcie := by unfold State.fireIf; split <;> simp
@[simp] theorem State.fireIf_part (c : Bool) (i : Nat) : (s.fireIf c i).part = s.part := by unfold State.fireIf; split <;> simp
@[simp] theorem State.fireIf_log (c : Bool) (i : Nat) : (s.fireIf c i).log = s.log := by unfold State.fireIf; split <;> simp
@[simp] theorem State.fireIf_logSeq (c : Bool) (i : Nat) : (s.fireIf c i).logSeq = s.logSeq := by unfold State.fireIf; split <;> simp
@[simp] theorem State.fireIf_repair (c : Bool) (i : Nat) : (s.fireIf c i).repair = s.repair := by unfold State.fireIf; split <;> simp
@[simp] theorem State.fireIf_sched (c : Bool) (i : Nat) : (s.fireIf c i).sched = s.sched := by unfold State.fireIf; split <;> simp
@[simp] theorem State.fireIf_kernels (c : Bool) (i : Nat) : (s.fireIf c i).kernels = s.kernels := by unfold State.fireIf; split <;> simp
@[simp] theorem State.fireIf_running (c : Bool) (i : Nat) : (s.fireIf c i).running = s.running := by unfold State.fireIf; split <;> simp
@[simp] theorem State.fireIf_pwr (c : Bool) (i : Nat) : (s.fireIf c i).pwr = s.pwr := by unfold State.fireIf; split <;> simp
@[simp] theorem State.fireIf_cpl (c : Bool) (i : Nat) : (s.fireIf c i).cpl = s.cpl := by unfold State.fireIf; split <;> simp
@[simp] theorem State.fireIf_fab (c : Bool) (i : Nat) : (s.fireIf c i).fab = s.fab := by unfold State.fireIf; split <;> simp
@[simp] theorem State.fireIf_sm (c : Bool) (i : Nat) : (s.fireIf c i).sm = s.sm := by unfold State.fireIf; split <;> simp
@[simp] theorem State.fireIf_upd (c : Bool) (i : Nat) : (s.fireIf c i).upd = s.upd := by unfold State.fireIf; split <;> simp
@[simp] theorem State.fireIf_streams (c : Bool) (i : Nat) : (s.fireIf c i).streams = s.streams := by unfold State.fireIf; split <;> simp
@[simp] theorem State.fireIf_pipes (c : Bool) (i : Nat) : (s.fireIf c i).pipes = s.pipes := by unfold State.fireIf; split <;> simp
@[simp] theorem State.fireIf_il (c : Bool) (i : Nat) : (s.fireIf c i).il = s.il := by unfold State.fireIf; split <;> simp
@[simp] theorem State.fireIf_tkt (c : Bool) (i : Nat) : (s.fireIf c i).tkt = s.tkt := by unfold State.fireIf; split <;> simp
@[simp] theorem State.fireIf_van (c : Bool) (i : Nat) : (s.fireIf c i).van = s.van := by unfold State.fireIf; split <;> simp
@[simp] theorem State.fireIf_free (c : Bool) (i : Nat) : (s.fireIf c i).free = s.free := by unfold State.fireIf; split <;> simp
@[simp] theorem State.fireIf_pending (c : Bool) (i : Nat) : (s.fireIf c i).pending = s.pending := by unfold State.fireIf; split <;> simp

/-! Registers, fields and bits after a write -/

@[simp] theorem State.reg_setReg_same (a : Nat) (v : Word) : (s.setReg a v).reg a = v := by
  simp [State.reg, State.setReg]

theorem State.reg_setReg (a b : Nat) (v : Word) : (s.setReg a v).reg b = if b = a then v else s.reg b := by
  simp [State.reg, State.setReg, Store.get_set]

@[simp] theorem State.reg_setReg_other {a b : Nat} (v : Word) (h : b ≠ a) : (s.setReg a v).reg b = s.reg b := by
  simp [State.reg_setReg, h]

@[simp] theorem State.reg_setFld_same (a hi lo n : Nat) : (s.setFld a hi lo n).reg a = putBits (s.reg a) hi lo n := by
  simp [State.setFld]

@[simp] theorem State.reg_setFld_other {a b : Nat} (hi lo n : Nat) (h : b ≠ a) : (s.setFld a hi lo n).reg b = s.reg b := by
  simp [State.setFld, h]

@[simp] theorem State.reg_setBit_same (a n : Nat) (b : Bool) :
    (s.setBit a n b).reg a = putBits (s.reg a) n n (if b then 1 else 0) := by simp [State.setBit]

@[simp] theorem State.reg_setBit_other {a b : Nat} (n : Nat) (v : Bool) (h : b ≠ a) : (s.setBit a n v).reg b = s.reg b := by
  simp [State.setBit, h]

@[simp] theorem State.reg_useFree (a : Nat) : s.useFree.reg a = s.reg a := rfl
@[simp] theorem State.reg_emit (o : Out) (a : Nat) : (s.emit o).reg a = s.reg a := rfl
@[simp] theorem State.reg_setPsw (i : Nat) (b : Bool) (a : Nat) : (s.setPsw i b).reg a = s.reg a := rfl
@[simp] theorem State.reg_setFlags (f : Flags) (a : Nat) : (s.setFlags f).reg a = s.reg a := rfl

@[simp] theorem State.reg_satInc_other {a b : Nat} (hi lo : Nat) (h : b ≠ a) : (s.satInc a hi lo).reg b = s.reg b := by
  unfold State.satInc; split <;> simp [h]

theorem State.reg_codeWrite_other {a b : Nat} (v : Word) (h : b ≠ a) : (s.codeWrite a v).reg b = s.reg b := by
  unfold State.codeWrite; split <;> simp [h]

theorem State.fld_congr {s t : State} {a : Nat} (hi lo : Nat) (h : t.reg a = s.reg a) : t.fld a hi lo = s.fld a hi lo := by
  simp [State.fld, h]

theorem State.bit_congr {s t : State} {a : Nat} (n : Nat) (h : t.reg a = s.reg a) : t.bit a n = s.bit a n := by
  simp [State.bit, h]

@[simp] theorem State.fld_setFld_same (a : Nat) {hi lo : Nat} (n : Nat) (hhi : hi < 32) (hlo : lo ≤ hi) :
    (s.setFld a hi lo n).fld a hi lo = n % 2 ^ (hi + 1 - lo) := by simp [State.fld, hhi, hlo]

@[simp] theorem State.fld_setFld_other {a b : Nat} (hi lo n i j : Nat) (h : b ≠ a) :
    (s.setFld a hi lo n).fld b i j = s.fld b i j := by simp [State.fld, h]

theorem State.fld_setFld_disjoint (a : Nat) {hi lo i j : Nat} (n : Nat) (hhi : hi < 32) (hlo : lo ≤ hi) (hd : i < lo ∨ hi < j) :
    (s.setFld a hi lo n).fld a i j = s.fld a i j := by simp [State.fld, bitsOf_putBits_other _ n hhi hlo hd]

@[simp] theorem State.fld_setReg_same (a : Nat) (v : Word) (hi lo : Nat) : (s.setReg a v).fld a hi lo = bitsOf v hi lo := by
  simp [State.fld]

@[simp] theorem State.fld_setReg_other {a b : Nat} (v : Word) (hi lo : Nat) (h : b ≠ a) :
    (s.setReg a v).fld b hi lo = s.fld b hi lo := by simp [State.fld, h]

@[simp] theorem State.fld_setBit_other {a b : Nat} (n : Nat) (v : Bool) (i j : Nat) (h : b ≠ a) :
    (s.setBit a n v).fld b i j = s.fld b i j := by simp [State.fld, h]

theorem State.fld_setBit_disjoint (a : Nat) {n i j : Nat} (v : Bool) (hn : n < 32) (hd : i < n ∨ n < j) :
    (s.setBit a n v).fld a i j = s.fld a i j := by simp [State.fld, bitsOf_putBits_other _ _ hn (Nat.le_refl n) hd]

@[simp] theorem State.fld_useFree (a hi lo : Nat) : s.useFree.fld a hi lo = s.fld a hi lo := rfl
@[simp] theorem State.fld_emit (o : Out) (a hi lo : Nat) : (s.emit o).fld a hi lo = s.fld a hi lo := rfl

@[simp] theorem State.bit_setBit_same (a : Nat) {n : Nat} (v : Bool) (h : n < 32) : (s.setBit a n v).bit a n = v := by
  simp only [State.bit, State.reg_setBit_same, getLsbD_putBits_bit _ _ h]; cases v <;> rfl

@[simp] theorem State.bit_setBit_other {a b : Nat} (n m : Nat) (v : Bool) (h : b ≠ a) :
    (s.setBit a n v).bit b m = s.bit b m := by simp [State.bit, h]

theorem State.bit_setBit_bit (a : Nat) {n m : Nat} (v : Bool) (hn : n < 32) (h : m ≠ n) :
    (s.setBit a n v).bit a m = s.bit a m := by
  simp only [State.bit, State.reg_setBit_same]; exact getLsbD_putBits_other _ _ hn (Nat.le_refl n) (by omega)

@[simp] theorem State.bit_setFld_other {a b : Nat} (hi lo n m : Nat) (h : b ≠ a) :
    (s.setFld a hi lo n).bit b m = s.bit b m := by simp [State.bit, h]

theorem State.bit_setFld_disjoint (a : Nat) {hi lo m : Nat} (n : Nat) (hhi : hi < 32) (hlo : lo ≤ hi) (hd : m < lo ∨ hi < m) :
    (s.setFld a hi lo n).bit a m = s.bit a m := by
  simp only [State.bit, State.reg_setFld_same]; exact getLsbD_putBits_other _ _ hhi hlo hd

@[simp] theorem State.bit_setReg_same (a : Nat) (v : Word) (n : Nat) : (s.setReg a v).bit a n = v.getLsbD n := by
  simp [State.bit]

@[simp] theorem State.bit_setReg_other {a b : Nat} (v : Word) (n : Nat) (h : b ≠ a) :
    (s.setReg a v).bit b n = s.bit b n := by simp [State.bit, h]

@[simp] theorem State.bit_useFree (a n : Nat) : s.useFree.bit a n = s.bit a n := rfl
@[simp] theorem State.bit_emit (o : Out) (a n : Nat) : (s.emit o).bit a n = s.bit a n := rfl

/-- A saturating count after an increase. -/
theorem State.fld_satInc_same (a : Nat) {hi lo : Nat} (hhi : hi < 32) (hlo : lo ≤ hi) :
    (s.satInc a hi lo).fld a hi lo = min (s.fld a hi lo + 1) (2 ^ (hi + 1 - lo) - 1) := by
  have hb := bitsOf_lt (s.reg a) hi lo
  unfold State.satInc
  split
  · next h => rw [State.fld_setFld_same s a _ hhi hlo, Nat.mod_eq_of_lt h]; omega
  · next h =>
    have : s.fld a hi lo < 2 ^ (hi + 1 - lo) := hb
    omega

/-! Interrupt sources -/

/-- A register outside the interrupt controller's block keeps its value when a source fires. -/
@[simp] theorem State.reg_fire (i : Nat) {a : Nat} (h : blockOf a ≠ 1) : (s.fire i).reg a = s.reg a := by
  have k := State.fire_keeps (fs := [.block 1, .out]) (s0 := s) s i (Keeps.rfl' _ _) (by decide)
  exact k.only (.block (blockOf a)) (by simp [Zone.inList, h]) a rfl

@[simp] theorem State.reg_fireIf (c : Bool) (i : Nat) {a : Nat} (h : blockOf a ≠ 1) : (s.fireIf c i).reg a = s.reg a := by
  unfold State.fireIf; split <;> simp [h]

@[simp] theorem State.bit_fire (i : Nat) {a : Nat} (n : Nat) (h : blockOf a ≠ 1) : (s.fire i).bit a n = s.bit a n :=
  State.bit_congr n (s.reg_fire i h)

@[simp] theorem State.fld_fire (i : Nat) {a : Nat} (hi lo : Nat) (h : blockOf a ≠ 1) : (s.fire i).fld a hi lo = s.fld a hi lo :=
  State.fld_congr hi lo (s.reg_fire i h)

@[simp] theorem State.bit_fireIf (c : Bool) (i : Nat) {a : Nat} (n : Nat) (h : blockOf a ≠ 1) : (s.fireIf c i).bit a n = s.bit a n :=
  State.bit_congr n (s.reg_fireIf c i h)

@[simp] theorem State.fld_fireIf (c : Bool) (i : Nat) {a : Nat} (hi lo : Nat) (h : blockOf a ≠ 1) :
    (s.fireIf c i).fld a hi lo = s.fld a hi lo := State.fld_congr hi lo (s.reg_fireIf c i h)

/-- Judging a vector touches no PEND register. -/
theorem State.reg_vecUpdate (v : Nat) {a : Nat} (h1 : a ≠ vecReg Reg.MSIX_PBA v) (h2 : a ≠ vecReg Reg.IC_HINSVC v) :
    (s.vecUpdate v).reg a = s.reg a := by
  unfold State.vecUpdate
  split
  · split
    · rfl
    · split <;> simp [h1, h2]
  · simp [h1]

/-- A source that fires is pending afterwards (R474). -/
@[simp] theorem State.fire_pend (i : Nat) : (s.fire i).bit (icReg Reg.IC_PEND i) (i % 32) = true := by
  have hi : i % 32 < 32 := Nat.mod_lt _ (by decide)
  have hne : icReg Reg.IC_PEND i ≠ icReg Reg.IC_LOST i := by unfold icReg; simp [Reg.IC_PEND, Reg.IC_LOST]
  have hne2 : icReg Reg.IC_PEND i ≠ icReg Reg.IC_HPEND i := by
    have := Nat.mod_lt (i / 32) (by decide : 4 > 0)
    simp only [icReg, Reg.IC_PEND, Reg.IC_HPEND]; omega
  have h1 : (if s.bit (icReg Reg.IC_PEND i) (i % 32) then s.setBit (icReg Reg.IC_LOST i) (i % 32) true
      else s.setBit (icReg Reg.IC_PEND i) (i % 32) true).bit (icReg Reg.IC_PEND i) (i % 32) = true := by
    split
    · next h => rw [State.bit_setBit_other _ _ _ _ hne]; exact h
    · exact State.bit_setBit_same _ _ _ hi
  unfold State.fire
  dsimp only
  split
  · exact h1
  · next v _ =>
    refine (State.bit_congr _ (State.reg_vecUpdate _ v ?_ ?_)).trans ?_
    · have := Nat.mod_lt (i / 32) (by decide : 4 > 0)
      have := Nat.mod_lt (v / 32) (by decide : 2 > 0)
      simp only [icReg, vecReg, Reg.IC_PEND, Reg.MSIX_PBA]; omega
    · have := Nat.mod_lt (i / 32) (by decide : 4 > 0)
      have := Nat.mod_lt (v / 32) (by decide : 2 > 0)
      simp only [icReg, vecReg, Reg.IC_PEND, Reg.IC_HINSVC]; omega
    · rw [State.bit_setBit_other _ _ _ _ hne2]; exact h1

end Sys2Proof.Machine
end

