-- ==== Sys2Proof/Tests/Slice0.lean ====
section
/-! SUPPORT. Tests: ill-formed terms that WellFormed refuses, and, for every statement, a state that meets its hypotheses together
with a value the spec gives there. -/

namespace Sys2Proof.Machine.Tests

/-! ## Helpers -/

/-- The state after a command. -/
def after (c : Instr) (s : State) : State := match exec c s with | .next t => t | _ => s

/-- The reset state with a Dispatcher of the test's own. -/
def withDisp (f : Disp → Disp) : State := { State.reset with disp := f State.reset.disp }

/-- The reset state with registers of the test's own. -/
def withRegs (l : List (Nat × Word)) : State := l.foldl (fun s e => s.setReg e.1 e.2) State.reset

/-- An immediate instruction under condition AL. -/
def imm (sub addr : Nat) : SOp := ⟨0, 3, sub, addr⟩

/-! ## WellFormed: one ill-formed term for each check, which the check refuses, and the well-formed term beside it -/

/-- All are refused. -/
def refused (l : List Instr) : Bool := l.all fun c => !c.wf

theorem test_wf_scalar_fields :
    refused [.nop ⟨16, 3, 0, 0⟩, .ld ⟨0, 4, 0, 0⟩, .st ⟨0, 0, 16, 0⟩, .add ⟨0, 3, 0, 0x10000⟩, .coproc 8 (imm 0 0), .coproc 0 ⟨16, 3, 0, 0⟩,
      .customerInstruction 64 (imm 0 0), .customerInstruction 0 ⟨0, 4, 0, 0⟩, .undefinedOpcode 64 (imm 0 0), .undefinedOpcode 0 ⟨0, 3, 16, 0⟩] = true ∧
    Instr.wf (.add ⟨15, 3, 15, 0xFFFF⟩) = true ∧ Instr.wf (.coproc 7 (imm 0 0)) = true := by decide
theorem test_wf_array_fields :
    refused [.fadd ⟨16, 0, 0, 0, 0, 0, 0, 0, 0, 0, 0⟩, .fadd ⟨0, 4, 0, 0, 0, 0, 0, 0, 0, 0, 0⟩, .fadd ⟨0, 0, 16, 0, 0, 0, 0, 0, 0, 0, 0⟩,
      .fadd ⟨0, 0, 0, 64, 0, 0, 0, 0, 0, 0, 0⟩, .fadd ⟨0, 0, 0, 0, 2, 0, 0, 0, 0, 0, 0⟩, .fadd ⟨0, 0, 0, 0, 0, 2, 0, 0, 0, 0, 0⟩,
      .fadd ⟨0, 0, 0, 0, 0, 0, 4, 0, 0, 0, 0⟩, .fadd ⟨0, 0, 0, 0, 0, 0, 0, 16, 0, 0, 0⟩, .fadd ⟨0, 0, 0, 0, 0, 0, 0, 0, 1024, 0, 0⟩,
      .fadd ⟨0, 0, 0, 0, 0, 0, 0, 0, 0, 1024, 0⟩, .fadd ⟨0, 0, 0, 0, 0, 0, 0, 0, 0, 0, 1024⟩] = true ∧
    Instr.wf (.fadd ⟨15, 3, 15, 63, 1, 1, 3, 15, 1023, 1023, 1023⟩) = true := by decide
theorem test_wf_interrupt_point :
    refused [.interruptEntry (.safePoint 0x1F ⟨0, 0, 0, 0, 0, 0, 0, 0, 0, 0, 0⟩ 1), .interruptEntry (.safePoint 0x30 ⟨0, 0, 0, 0, 0, 0, 0, 0, 0, 0, 0⟩ 1),
      .interruptEntry (.safePoint 0x20 ⟨0, 0, 0, 64, 0, 0, 0, 0, 0, 0, 0⟩ 1)] = true ∧
    Instr.wf (.interruptEntry (.safePoint 0x2F ⟨0, 0, 0, 0, 0, 0, 0, 0, 0, 0, 0⟩ 1)) = true := by decide
theorem test_wf_microwords :
    refused [.malu 16 0 0 0 false, .malu 0 16 0 0 false, .malu 0 0 16 0 false, .malu 0 0 0 16 false, .malui 16 0 0 false 0, .malui 0 16 0 false 0,
      .malui 0 0 16 false 0, .mlui 16 0, .mrd 16 0 0 0, .mrd 0 16 0 0, .mrd 0 0 4 0, .mwr 16 0 0 0, .mwr 0 16 0 0, .mwr 0 0 4 0, .mbr 16 0, .mbr 0 0x4000,
      .mcall 0x4000, .mloop 16 0, .mloop 0 0x4000, .bsd 16, .bsa 16, .bsi 16 0, .bsi 0 8] = true ∧
    Instr.wf (.mbr 15 0x3FFF) = true ∧ Instr.wf (.bsi 15 7) = true := by decide
theorem test_wf_array_blocks :
    refused [.registerWrite 32 0 0, .registerWrite 0 (2 ^ 52) 0, .ackTimeout 72, .prowMapWrite 8 0 false, .mapApplied 8, .colmonClr 72,
      .colSubWrite 72 0 false, .substitutionApplied 72 0, .substitutionApplied 0 2, .substituteColumn 72, .platformFailure 72 0 0,
      .platformFailure 0 0 16, .stripRepeat 72, .stripRetry 4 0 0, .rotationStep 8] = true ∧
    Instr.wf (.substitutionApplied 71 1) = true ∧ Instr.wf (.platformFailure 71 0 15) = true := by decide
theorem test_wf_memory :
    refused [.scratchpadRead 64 0, .scratchpadRead 0 256, .scratchpadWrite 64 0 [], .scratchpadWrite 0 256 [], .bucketLeak 4, .bktCfgWrite 4 0, .logStatAck 4 0,
      .remapWrite 16 0 0, .remapWrite 0 16 0, .scrubAccess 4 false, .secureRegionWrite 64 0, .secureRegionWrite 0 256, .tamperTrigger 5, .lpddr5Write 64 0,
      .lpddr5Write 0 256, .lpddr5Read 64 0, .lpddr5Read 0 256] = true ∧ Instr.wf (.remapWrite 15 15 0) = true := by decide
theorem test_wf_junction :
    refused [.rd ⟨64, 0, 0, 0, 8, [], [], 0⟩, .rd ⟨0, 32, 0, 0, 8, [], [], 0⟩, .wr ⟨0, 0, 256, 0, 8, [(0, 0xFF)], [], 0⟩ [],
      .cpreq ⟨0, 0, 0, 2 ^ 52, 8, [], [], 0⟩, .wr ⟨0, 0, 0, 0, 8, [(0, 0xFF)], [1], 0⟩ [], .rdrsp 64 0 .ok [] false 0, .rdrsp 0 256 .ok [] false 0,
      .wrrsp 64 0 .ok 0, .wrrsp 0 256 .ok 0, .corruptHeader 64 0 0 false, .corruptHeader 0 64 0 false, .corruptHeader 0 0 256 false, .reqTimeout 64 0,
      .reqTimeout 0 256, .timetableSlot 64, .guarStarved 32, .ttEntryWrite 2 0 0, .ttEntryWrite 0 64 0, .fenceDone 64, .jtTmoWrite 64 0] = true ∧
    Instr.wf (.wr ⟨63, 31, 255, 2 ^ 52 - 8, 8, [(0, 0xFF)], [0], 0⟩ []) = true := by decide
theorem test_wf_cameras_and_pipes :
    refused [.frameStart 6 0 0, .frameStart 0 4 0, .longPacket 6 0 0 [] false false false, .longPacket 0 4 0 [] false false false, .longPacket 0 0 64 [] false false false,
      .frameEnd 6 0 0, .frameEnd 0 4 0, .camFrame 6 0, .camFrame 0 4, .camLost 6 0, .camLost 0 4, .camStreamCfgWrite 6 0 0, .camStreamCfgWrite 0 4 0,
      .tsLoRead 6 0, .tsLoRead 0 4, .passThroughRelease 6 0 0 0, .passThroughRelease 0 4 0 0, .pipeCommitWrite 4, .pipeCancel 4, .vsyncStart 4 0 false, .lineFetch 4 0, .lutDataAccess 4 false 0,
      .pipeCtlWrite 4 0, .linkUp 4, .linkFail 4, .hpdLost 4, .irqHpd 4, .pipeUnderrun 4 0 0, .pipeUnderrun 0 0 8, .lockSrcLost 4, .pipeLockWrite 4 0] = true ∧
    Instr.wf (.pipeUnderrun 3 0 7) = true := by decide
theorem test_wf_interlocking_and_office :
    refused [.rcommitWrite 4, .rcommitCancel 4, .regionVerdict 4 0, .regionVerdict 0 64, .heartbeatVerdict 4, .pipeStopped 4, .frozenWrite 4, .faultWrite 4 0 0,
      .faultWrite 0 2 0, .dispCfgWrite 32 0 0, .dispCfgWrite 0 4 0, .mbDoorbell 4 [], .hostBar0Request .read 0x10000 [] [] [], .mbAbort 4, .responsePost 4 0, .mbTimeout 4, .icPendWrite 4 0,
      .icUnpendWrite 4 0, .icAck 128, .icEoi 128, .icHeoi 64, .msixTableWrite 256 0] = true ∧
    Instr.wf (.regionVerdict 3 63) = true ∧ Instr.wf (.icAck 127) = true := by decide
theorem test_wf_stationmaster :
    refused [.ident 4, .power 4, .sceneLoad 4 none none, .layerSet 4, .layerCommit 4, .telltaleMapSlot 4, .telltaleMapCommit 4, .telltaleMapArm 4,
      .regionRefLoad 4 none, .kernelLoad 4 none, .kernelRun 4 none false, .telemetryRead 4 [], .displayConfig 4 none none, .updateChunk 4 none, .fabricLoad 4 none false, .fabricReadback 4 [], .microcodeWrite 4 none, .kernelUnload 4, .cameraConfig 4, .displayConfigRetrain 4, .updateBegin 4, .updateVerify 4, .updateActivate 4,
      .updateConfirm 4, .logRead 4, .couplerPair 4, .couplerUnpair 4, .couplerSweep 4, .takeoverGrant 4, .takeoverRevoke 4, .metroRead 4, .fabricRelease 4,
      .decodeSet 4, .undefinedCommand 4, .telltaleMapReservedSub 4] = true ∧ Instr.wf (.ident 3) = true := by decide
theorem test_wf_van_coupler_and_rest :
    refused [.gvPowerOn 3 0, .gvPowerOn 0 3, .gvIdent (.can 2 []), .log (.can 1 (List.replicate 65 0)), .hello 2 ⟨0, 0, []⟩, .hello 0 ⟨256, 0, []⟩,
      .req 2 ⟨0, 0, []⟩ [], .align 0 ⟨256, 0, []⟩, .cplFrameError 2 false, .laneLock 2, .laneLockLost 2, .lostRetrain 2, .helloSend 2, .heartbeatSend 2,
      .heartbeatLimit 2, .fabUsrWrite 32 0 0, .fabUsrWrite 0 16 0, .fabUser 4, .couplerWake 2, .tempSensorUpdate (List.replicate 15 0)] = true ∧
    Instr.wf (.gvIdent (.can 1 [1])) = true ∧ Instr.wf (.gvIdent .window) = true := by decide

/-! ## Scalar instructions: the hypotheses of the statements are met, and one value each -/

theorem test_add_carry : let s := withDisp fun d => { d with acc := 0xFFFFFFFF, psw := 0x202 }
    (s.ready 4 (imm 1 1) ∧ (after (.add (imm 1 1)) s).disp.acc = 1 ∧ (after (.add (imm 1 1)) s).psw 1 = true ∧ (after (.add (imm 1 1)) s).psw 3 = false) := by
  unfold State.ready State.still State.defined; decide
theorem test_add_overflow : let s := withDisp fun d => { d with acc := 0x7FFFFFFF }
    (after (.add (imm 0 1)) s).psw 3 = true ∧ (after (.add (imm 0 1)) s).psw 2 = true ∧ (after (.add (imm 0 1)) s).disp.pc = 4 := by decide
theorem test_sub_borrow : let s := withDisp fun d => { d with acc := 5 }
    (s.ready 5 (imm 1 5) ∧ (after (.sub (imm 1 5)) s).disp.acc = 0xFFFFFFFF ∧ (after (.sub (imm 1 5)) s).psw 1 = false) := by
  unfold State.ready State.still State.defined; decide
theorem test_sub_reversed : let s := withDisp fun d => { d with acc := 5 }
    (s.ready 5 (imm 2 7) ∧ (after (.sub (imm 2 7)) s).disp.acc = 2 ∧ (after (.sub (imm 2 7)) s).psw 1 = true) := by
  unfold State.ready State.still State.defined; decide
theorem test_cmp_negative_immediate : let s := withDisp fun d => { d with acc := 3 }
    (s.ready 10 (imm 0 0xFFFF) ∧ (after (.cmp (imm 0 0xFFFF)) s).psw 1 = false ∧ (after (.cmp (imm 0 0xFFFF)) s).disp.acc = 3) := by
  unfold State.ready State.still State.defined; decide
theorem test_nop_ready : State.reset.ready 0 (imm 0 0) ∧ (after (.nop (imm 0 0)) State.reset).disp.pc = 4 := by
  unfold State.ready State.still State.defined; decide
theorem test_lui : let s := withDisp fun d => { d with acc := 0x11112222 }
    (s.ready 3 (imm 0 0xABCD) ∧ (after (.lui (imm 0 0xABCD)) s).disp.acc = 0xABCD2222) := by
  unfold State.ready State.still State.defined; decide
theorem test_and_zero_extends : let s := withDisp fun d => { d with acc := 0xFFFFFFFF }
    (s.ready 6 (imm 0 0x8000) ∧ (after (.and (imm 0 0x8000)) s).disp.acc = 0x8000 ∧ (after (.and (imm 0 0x8000)) s).psw 2 = false) := by
  unfold State.ready State.still State.defined; decide
theorem test_or : State.reset.ready 7 (imm 0 6) ∧ (after (.or (imm 0 6)) State.reset).disp.acc = 6 := by
  unfold State.ready State.still State.defined; decide
theorem test_xor : let s := withDisp fun d => { d with acc := 5 }
    (s.ready 8 (imm 0 5) ∧ (after (.xor (imm 0 5)) s).psw 0 = true) := by
  unfold State.ready State.still State.defined; decide
theorem test_tst : let s := withDisp fun d => { d with acc := 5 }
    (s.ready 11 (imm 0 2) ∧ (after (.tst (imm 0 2)) s).psw 0 = true ∧ (after (.tst (imm 0 2)) s).disp.acc = 5) := by
  unfold State.ready State.still State.defined; decide
theorem test_shf_last_bit_out : let s := withDisp fun d => { d with acc := 0x80000001 }
    (s.ready 9 (imm 0 1) ∧ (after (.shf (imm 0 1)) s).disp.acc = 2 ∧ (after (.shf (imm 0 1)) s).psw 1 = true ∧
      (after (.shf (imm 2 31)) s).disp.acc = 0xFFFFFFFF ∧ (after (.shf (imm 2 31)) s).psw 1 = false) := by
  unfold State.ready State.still State.defined; decide
theorem test_shf_by_zero_keeps_c : let s := withDisp fun d => { d with acc := 3, psw := 0x202 }
    (s.ready 9 (imm 3 32) ∧ (after (.shf (imm 3 32)) s).psw 1 = true ∧ (after (.shf (imm 3 32)) s).disp.acc = 3) := by
  unfold State.ready State.still State.defined; decide
theorem test_ld_is_late : let s := withDisp fun d => { d with acc := 9 }
    (s.ready 1 (imm 0 0xFFFE) ∧ (after (.ld (imm 0 0xFFFE)) s).disp.acc = 9 ∧
      (after (.nop (imm 0 0)) (after (.ld (imm 0 0xFFFE)) s)).disp.acc = 0xFFFFFFFE) := by
  unfold State.ready State.still State.defined; decide
theorem test_ix_sum_wraps : let s := withDisp fun d => { d with ixa := 0xFFFF }
    (s.ready 0x0C (imm 2 3) ∧ (after (.ix (imm 2 3)) s).disp.ixa = 2 ∧ (after (.ix (imm 4 0)) s).disp.acc = 0xFFFF) := by
  unfold State.ready State.still State.defined; decide
theorem test_bnk_halves : let s := withDisp fun d => { d with bnk := 0x123456789 }
    (s.ready 0x0D (imm 0 0xFFFF) ∧ (after (.bnk (imm 0 0xFFFF)) s).disp.bnk = 0x12345FFFF ∧
      (after (.bnk (imm 1 1)) s).disp.bnk = 0x16789 ∧ (after (.bnk (imm 3 0)) s).disp.acc = 1 ∧ (after (.bnk (imm 4 0xFFFF)) s).disp.bnk = 0x123456788) := by
  unfold State.ready State.still State.defined; decide
theorem test_mul_signed : let s := withDisp fun d => { d with acc := 0xFFFFFFFE }
    (s.ready 0x0E (imm 1 3) ∧ (after .mulDone (after (.mul (imm 1 3)) s)).disp.prod = 0xFFFFFFFFFFFFFFFA ∧
      (after .mulDone (after (.mul (imm 0 3)) s)).disp.prod = 0x2FFFFFFFA ∧ (after (.mul (imm 1 3)) s).psw 5 = false) := by
  unfold State.ready State.still State.defined; decide
theorem test_div_signed : let s := withDisp fun d => { d with acc := 0xFFFFFFF9 }
    (s.ready 0x0F (imm 1 2) ∧ (after .divDone (after (.div (imm 1 2)) s)).disp.quo = 0xFFFFFFFD ∧
      (after .divDone (after (.div (imm 1 2)) s)).disp.rem = 0xFFFFFFFF ∧ (after .divDone (after (.div (imm 1 2)) s)).psw 6 = true) := by
  unfold State.ready State.still State.defined; decide
theorem test_div_by_zero : let s := withDisp fun d => { d with acc := 0x80000000, fpctl := 0x2000 }
    ((after .divDone (after (.div (imm 1 0xFFFF)) s)).disp.quo = 0x80000000 ∧ (after (.div (imm 1 0xFFFF)) s).psw 3 = true ∧
      (after (.div (imm 0 0)) s).disp.pc = 0xA0 ∧ s.ready 0x0F (imm 0 0)) := by
  unfold State.ready State.still State.defined; decide
theorem test_movx_read_rsp : let s := withDisp fun d => { d with rs := [0x123456789ABCD] }
    (s.ready 0x10 (imm 0 0x0C) ∧ (after (.movxRead (imm 0 0x0C)) s).disp.acc = 0x12345 ∧ (after (.movxRead (imm 0 0x0A)) s).disp.acc = 1 ∧
      (after (.movxRead (imm 0 0x33)) s).disp.acc = 0) := by
  unfold State.ready State.still State.defined; decide
theorem test_movx_write_psw : let s := withDisp fun d => { d with acc := 0xFFFFFFFF }
    (s.ready 0x10 (imm 1 0) ∧ (after (.movxWrite (imm 1 0)) s).disp.psw = 0x28F ∧ (after (.movxWrite (imm 1 1)) s).disp.fpctl = 0x33F1F ∧
      (after (.movxWrite (imm 1 6)) s).disp.dsp = 0xFFFFFFF8 ∧ (after (.movxWrite (imm 1 0x12)) s).disp.vbnk = 0xF00000000) := by
  unfold State.ready State.still State.defined; decide
theorem test_movx_write_at_application : let s := withDisp fun d => { d with acc := 0xFF, psw := 0 }
    (s.ready 0x10 (imm 1 6) ∧ (after (.movxWrite (imm 1 6)) s).disp.dsp = 0 ∧ (after (.movxWrite (imm 1 4)) s).disp.quo = 0xFF ∧
      (after (.movxWrite (imm 1 4)) s).psw 6 = true ∧ (after (.movxWrite (imm 1 7)) s).disp.pc = 0x30) := by
  unfold State.ready State.still State.defined; decide
theorem test_stk_push_pop : let s := withDisp fun d => { d with acc := 7 }
    (s.ready 0x11 (imm 0 0) ∧ (after (.stkPush (imm 0 0)) s).disp.ds = [7] ∧ (after (.stkPush (imm 2 0xFFFF)) s).disp.ds = [0xFFFFFFFF] ∧
      (after (.stkPop (imm 1 0)) (after (.stkPush (imm 0 0)) s)).disp.late.acc = some 7) := by
  unfold State.ready State.still State.defined; decide
theorem test_stk_spill : let s := withDisp fun d => { d with ds := (List.range 32).map (BitVec.ofNat 32), dsp := 16, dsLimit := 24 }
    (s.ready 0x11 (imm 0 0) ∧ s.postedCount < 8 ∧ (after (.stkPush (imm 0 0)) s).disp.ds.length = 31 ∧ (after (.stkPush (imm 0 0)) s).disp.dsp = 24 ∧
      (after (.stkPush (imm 0 0)) s).jt.txns.map (fun x => (x.addr, x.data)) = [(16, [(0x1E0000001F, 0xFF)])]) := by
  unfold State.ready State.still State.defined; decide
theorem test_stk_faults : let s := withDisp fun d => { d with ds := List.replicate 32 1, dsp := 24, dsLimit := 24 }
    ((after (.stkPush (imm 0 0)) s).disp.tcause = 9 ∧ (after (.stkPop (imm 1 0)) State.reset).disp.tcause = 9) := by decide
theorem test_stk_fill : let s := withDisp fun d => { d with dsp := 24 }
    (s.ready 0x11 (imm 1 0) ∧ (after (.stkPop (imm 1 0)) s).disp.wait = .fill ∧ (after (.stkPop (imm 1 0)) s).jt.txns.map (·.addr) = [16]) := by
  unfold State.ready State.still State.defined; decide
theorem test_dsflush_odd : let s := withDisp fun d => { d with ds := [5], dsp := 8, dsLimit := 16 }
    (s.ready 0x18 (imm 4 0) ∧ (after (.dsflush (imm 4 0)) s).disp.ds = [] ∧ (after (.dsflush (imm 4 0)) s).jt.txns.map (·.data) = [[(5, 0xFF)]] ∧
      (after (.dsflush (imm 4 0)) s).disp.pc = 4) := by
  unfold State.ready State.still State.defined; decide
theorem test_dsflush_two : let s := withDisp fun d => { d with ds := [6, 5], dsp := 8, dsLimit := 16 }
    ((after (.dsflush (imm 4 0)) s).disp.dsp = 16 ∧ (after (.dsflush (imm 4 0)) s).jt.txns.map (·.data) = [[(0x600000005, 0xFF)]]) := by decide
theorem test_br_backwards : let s := withDisp fun d => { d with pc := 8, bnk := 0x77 }
    (s.ready 0x12 (imm 0 0xFFFF) ∧ (after (.br (imm 0 0xFFFF)) s).disp.pc = 4 ∧ (after (.br (imm 1 0xFFFF)) s).disp.pbnk = 0x77) := by
  unfold State.ready State.still State.defined; decide
theorem test_call_ret : let s := withDisp fun d => { d with pc := 8 }
    (s.ready 0x13 (imm 0 2) ∧ (after (.call (imm 0 2)) s).disp.rs = [0x2F0000C] ∧ (after (.ret (imm 0 0)) (after (.call (imm 0 2)) s)).disp.pc = 0xC) := by
  unfold State.ready State.still State.defined; decide
theorem test_call_overflow_and_ret_underflow : let s := withDisp fun d => { d with rs := List.replicate 14 0 }
    ((after (.call (imm 0 2)) s).disp.tcause = 7 ∧ (after (.ret (imm 0 0)) State.reset).disp.tcause = 8) := by decide
theorem test_br_misaligned : let s := withDisp fun d => { d with pc := 2 }
    ((after (.br (imm 0 0)) s).disp.tcause = 4 ∧ (after (.br (imm 0 0)) s).disp.taddr = 0x2F00002) := by decide
theorem test_reti_restores : let s := withDisp fun d => { d with rs := [0x50004], spsw := 0x10F, psw := 0x270 }
    (s.ready 0x14 (imm 1 0) ∧ s.firmware = true ∧ (after (.reti (imm 1 0)) s).disp.psw = 0x17F ∧ (after (.reti (imm 1 0)) s).disp.pbnk = 5) := by
  unfold State.ready State.still State.defined; decide
theorem test_svc_brk : State.reset.ready 0x15 (imm 0 0x55) ∧ (after (.svc (imm 0 0x55)) State.reset).disp.tcause = 0x55000E ∧
    (after (.svc (imm 0 0x55)) State.reset).disp.pc = 0xE0 ∧ (after (.brk (imm 1 0)) State.reset).disp.rs = [0x2F00000] := by
  unfold State.ready State.still State.defined; decide
theorem test_ei_di_wfi_fence : State.reset.ready 0x18 (imm 0 0) ∧ (after (.ei (imm 0 0)) State.reset).psw 8 = true ∧
    (after (.di (imm 1 0)) (after (.ei (imm 0 0)) State.reset)).psw 8 = false ∧ (after (.wfi (imm 2 0)) State.reset).disp.wait = .wfi ∧
    (after (.fence (imm 3 0)) State.reset).disp.pc = 4 := by
  unfold State.ready State.still State.defined; decide
theorem test_undefined_before_condition : ¬ State.reset.defined 4 ⟨1, 3, 5, 0⟩ ∧ (after (.add ⟨1, 3, 5, 0⟩) State.reset).disp.tcause = 2 ∧
    (after (.add ⟨1, 3, 0, 9⟩) State.reset).disp.acc = 0 ∧ (after (.add ⟨1, 3, 0, 9⟩) State.reset).disp.pc = 4 := by
  unfold State.defined; decide
theorem test_alignment_trap : State.reset.ready 2 ⟨0, 0, 0, 2⟩ ∧ misaligned false (State.reset.operandAddr ⟨0, 0, 0, 2⟩) 4 = true ∧
    (after (.st ⟨0, 0, 0, 2⟩) State.reset).disp.tcause = 4 := by
  unfold State.ready State.still State.defined; decide
theorem test_privilege_trap : let s := withDisp fun d => { d with psw := 0 }
    (s.still ∧ s.firmware = false ∧ (after (.ei (imm 0 0)) s).disp.tcause = 3 ∧ (after (.fence (imm 3 0)) s).disp.pc = 4) := by
  unfold State.still; decide

end Sys2Proof.Machine.Tests
end

section
/-! Proofs about REGISTER_WRITE (O47). A write takes effect under the access codes (R9), is discarded or is denied: the
rules of `codeWrite`, which key leads where, and which writes of a mailbox's words are taken. -/

namespace Sys2Proof.Machine

/-! A write under the access codes (R9) -/

/-- The written register, bit by bit: W1S before W1C before RW. -/
theorem State.codeWrite_bit (s : State) {a i : Nat} {r : RegRow} (v : Word) (h : regRow? a = some r) (hi : i < 32) :
    (s.codeWrite a v).bit a i =
      if r.w1s.testBit i && v.getLsbD i then true
      else if r.w1c.testBit i && v.getLsbD i then false
      else if r.rw.testBit i then v.getLsbD i else s.bit a i := by
  simp only [State.codeWrite, h, State.bit_setReg_same, BitVec.getLsbD_or, BitVec.getLsbD_and, BitVec.getLsbD_not,
    BitVec.getLsbD_ofNat, hi, decide_true, Bool.true_and, ← State.bit.eq_def]
  cases r.w1s.testBit i <;> cases r.w1c.testBit i <;> cases r.rw.testBit i <;> cases v.getLsbD i <;> simp

/-- A register of which all bits are RW takes the written word. -/
theorem State.codeWrite_reg_of_allRw (s : State) {a : Nat} {r : RegRow} (v : Word) (h : regRow? a = some r)
    (hrw : r.rw = 0xFFFFFFFF) (hc : r.w1c = 0) (hs : r.w1s = 0) : (s.codeWrite a v).reg a = v := by
  apply BitVec.eq_of_getLsbD_eq
  intro i hi
  have hall : (0xFFFFFFFF : Nat).testBit i = true := by
    rw [show (0xFFFFFFFF : Nat) = 2 ^ 32 - 1 from rfl, Nat.testBit_two_pow_sub_one, decide_eq_true hi]
  refine (s.codeWrite_bit v h hi).trans ?_
  simp [hrw, hc, hs, hall]

theorem State.codeWrite_regsBut (s : State) (a : Nat) (v : Word) : RegsBut [a] s (s.codeWrite a v) :=
  fun _ hb _ => s.reg_codeWrite_other v (List.ne_of_not_mem_cons hb)

/-- A command that is a write under the access codes changes the register's block only. -/
theorem does_of_exec_eq_codeWrite {c : Instr} {s : State} {a : Nat} {v : Word} {post : State → Prop}
    (h : exec c s = .next (s.codeWrite a v)) (hp : post (s.codeWrite a v)) : Does c s [.block (blockOf a)] post :=
  ⟨_, h, (codeWrite_keeps a v (Keeps.rfl' _ s) (by simp [Zone.inList])).toOnly, hp⟩

/-! Which key leads where (R33, R34, R616) -/

theorem lt_of_isReg {a : Nat} (h : isReg a = true) : a < 0x100000 := by
  simp only [isReg, Bool.and_eq_true, decide_eq_true_eq] at h
  exact h.1.1

theorem State.regWrite_of_isReg (s : State) (ini : Nat) {a : Nat} (v : Word) (rings : List Nat) (h : isReg a = true) :
    s.regWrite ini a v rings = s.blockWrite ini a v rings := by
  have hrom : inBootRom a = false := decide_eq_false fun hr => absurd (lt_of_isReg h) (by omega)
  simp [State.regWrite, hrom, h]

theorem State.regWrite_fst_of_not_isReg (s : State) (ini : Nat) {a : Nat} (v : Word) (rings : List Nat) (h : isReg a = false) :
    (s.regWrite ini a v rings).1 = s := by
  simp only [State.regWrite, h]
  split <;> rfl

/-- A write that its block leaves without effect leaves the state as it is, whether or not the key names a register. -/
theorem State.regWrite_fst_eq_self {s : State} {ini a : Nat} {v : Word} {rings : List Nat}
    (h : (s.blockWrite ini a v rings).1 = s) : (s.regWrite ini a v rings).1 = s := by
  cases hr : isReg a with
  | true => rw [s.regWrite_of_isReg ini v rings hr, h]
  | false => exact s.regWrite_fst_of_not_isReg ini v rings hr

theorem exec_registerWrite_of_allowed {s : State} {ini a : Nat} {v : Word} (h : ¬ (0x10000 ≤ a ∧ ini ≠ 0)) :
    exec (.registerWrite ini a v) s = .next (s.regWrite ini a v []).1 :=
  congrArg Host.Outcome.next (if_neg h)

theorem exec_registerWrite_of_internal (s : State) {ini a : Nat} (v : Word) (ha : 0x10000 ≤ a) (hi : ini ≠ 0) :
    exec (.registerWrite ini a v) s = .next s :=
  congrArg Host.Outcome.next (if_pos ⟨ha, hi⟩)

/-- A write without effect at its block is a command without effect, from every initiator. -/
theorem exec_registerWrite_eq_self {s : State} {ini a : Nat} {v : Word} (h : (s.regWrite ini a v []).1 = s) :
    exec (.registerWrite ini a v) s = .next s := by
  by_cases hint : 0x10000 ≤ a ∧ ini ≠ 0
  · exact exec_registerWrite_of_internal s v hint.1 hint.2
  · rw [exec_registerWrite_of_allowed hint, h]

theorem exec_registerWrite_reserved (s : State) (ini : Nat) {a : Nat} (v : Word) (h : isReg a = false) :
    exec (.registerWrite ini a v) s = .next s :=
  exec_registerWrite_eq_self (s.regWrite_fst_of_not_isReg ini v [] h)

theorem not_isReg_of_bootRom {a : Nat} (h : 0xF00000 ≤ a) : isReg a = false :=
  Bool.eq_false_iff.mpr fun hr => absurd (lt_of_isReg hr) (by omega)

/-! Blocks that take no write from the initiator (R440) or from any (the telemetry and identification blocks) -/

theorem State.ilWrite_denied (s : State) {ini : Nat} (a : Nat) (v : Word) (h0 : ini ≠ 0) (h6 : ini ≠ 6) :
    s.ilWrite ini a v = (s, .denied) := by
  simp [State.ilWrite, h0, h6]

theorem State.blockWrite_interlocking (s : State) {ini a : Nat} (v : Word) (rings : List Nat) (hlo : 0x3000 ≤ a)
    (hhi : a < 0x3800) : s.blockWrite ini a v rings = s.ilWrite ini a v := by
  have hp : a / 0x1000 = 3 := by omega
  simp [State.blockWrite, hp, hhi]

theorem State.blockWrite_readOnlyBlock (s : State) {ini a : Nat} (v : Word) (rings : List Nat)
    (h : 0x4000 ≤ a ∧ a < 0x5000 ∨ 0xF000 ≤ a ∧ a < 0x10000) : s.blockWrite ini a v rings = (s, .ok) := by
  have hp : a / 0x1000 = 4 ∨ a / 0x1000 = 0xF := by omega
  rcases hp with hp | hp <;> simp [State.blockWrite, hp]

/-! Registers with no rule beside their access codes -/

/-- Registers of the Ticket office block that every initiator may write (R35, R483). -/
def openRegs : List Nat := [0xF00, 0x404, 0x40C, 0x414, 0x41C]

/-- Registers of the array's, the Traverser's and the repair blocks with no rule beside their access codes. -/
def arrCodeRegs : List Nat := [0x10000, 0x1000C, 0x10010, 0x10108, 0x1010C, 0x10200, 0x10204]

/-- Registers of the control store's block with no rule beside their access codes. -/
def csCodeRegs : List Nat := [0x11000, 0x11004, 0x11008, 0x11010]

/-- Registers of camera port 0, stream 0, with no rule beside their access codes. -/
def camCodeRegs : List Nat := [0x14030, 0x1403C]

/-- Registers that only INIT 0 may write, with no rule beside their access codes. -/
def firmwareRegs : List Nat := Reg.TO_STAT :: (arrCodeRegs ++ (csCodeRegs ++ camCodeRegs))

theorem isReg_and_place_of_mem_openRegs : ∀ a ∈ openRegs, isReg a = true ∧ Reg.TO_STAT < a ∧ a < 0x1000 := by decide

theorem isReg_of_mem_firmwareRegs : ∀ a ∈ firmwareRegs, isReg a = true := by decide

theorem State.blockWrite_page0 (s : State) (ini : Nat) {a : Nat} (v : Word) (rings : List Nat) (h : a < 0x1000) :
    s.blockWrite ini a v rings = s.toWrite ini a v rings := by
  have hp : a / 0x1000 = 0 := by omega
  simp [State.blockWrite, hp]

theorem State.toWrite_above_toStat (s : State) (ini : Nat) {a : Nat} (v : Word) (rings : List Nat) (h : Reg.TO_STAT < a) :
    s.toWrite ini a v rings = (s.codeWrite a v, .ok) := by
  simp only [Reg.TO_STAT] at h
  rw [State.toWrite, if_neg (by omega), if_neg (by simp only [Reg.TO_STAT]; omega)]

theorem State.arrWrite_codeRegs (s : State) {a : Nat} (v : Word) (h : a ∈ arrCodeRegs) :
    s.arrWrite a v = (s.codeWrite a v, .ok) := by
  simp only [arrCodeRegs, List.mem_cons, List.not_mem_nil, or_false] at h
  rcases h with rfl | rfl | rfl | rfl | rfl | rfl | rfl <;> simp [State.arrWrite, Reg.PROW_MAP, Reg.COLMON, Reg.COL_SUB]

theorem State.csBlockWrite_codeRegs (s : State) {a : Nat} (v : Word) (h : a ∈ csCodeRegs) :
    s.csBlockWrite a v = (s.codeWrite a v, .ok) := by
  have hne : ∀ b ∈ csCodeRegs, b ≠ Reg.CS_WDATA ∧ b ≠ Reg.DEC_ENTRY := by decide
  rw [State.csBlockWrite, if_neg (hne a h).1, if_neg (hne a h).2]

theorem State.camWrite_codeRegs (s : State) {a : Nat} (v : Word) (h : a ∈ camCodeRegs) :
    s.camWrite a v = s.codeWrite a v := by
  simp only [camCodeRegs, List.mem_cons, List.not_mem_nil, or_false] at h
  rcases h with rfl | rfl <;> simp [State.camWrite]

theorem State.blockWrite_firmwareRegs (s : State) {a : Nat} (v : Word) (rings : List Nat) (h : a ∈ firmwareRegs) :
    s.blockWrite 0 a v rings = (s.codeWrite a v, .ok) := by
  simp only [firmwareRegs, List.mem_cons, List.mem_append] at h
  rcases h with rfl | h | h | h
  · simp [s.blockWrite_page0 0 v rings (show Reg.TO_STAT < 0x1000 by decide), State.toWrite]
  · have hp : ∀ b ∈ arrCodeRegs, b / 0x1000 = 0x10 := by decide
    simp [State.blockWrite, hp a h, s.arrWrite_codeRegs v h]
  · have hp : ∀ b ∈ csCodeRegs, b / 0x1000 = 0x11 := by decide
    simp [State.blockWrite, hp a h, s.csBlockWrite_codeRegs v h]
  · have hp : ∀ b ∈ camCodeRegs, b / 0x1000 = 0x14 ∧ b < 0x14800 := by decide
    simp [State.blockWrite, hp a h, s.camWrite_codeRegs v h]

theorem exec_registerWrite_openRegs (s : State) (ini : Nat) {a : Nat} (v : Word) (h : a ∈ openRegs) :
    exec (.registerWrite ini a v) s = .next (s.codeWrite a v) := by
  obtain ⟨hreg, hlo, hhi⟩ := isReg_and_place_of_mem_openRegs a h
  rw [exec_registerWrite_of_allowed (by omega), s.regWrite_of_isReg ini v [] hreg, s.blockWrite_page0 ini v [] hhi,
    s.toWrite_above_toStat ini v [] hlo]

theorem exec_registerWrite_firmwareRegs (s : State) {a : Nat} (v : Word) (h : a ∈ firmwareRegs) :
    exec (.registerWrite 0 a v) s = .next (s.codeWrite a v) := by
  rw [exec_registerWrite_of_allowed (by simp), s.regWrite_of_isReg 0 v [] (isReg_of_mem_firmwareRegs a h),
    s.blockWrite_firmwareRegs v [] h]

/-! The words of a mailbox (R448, R459, R463, R572) -/

/-- The initiator that owns mailbox `m` (R448, R572). -/
def State.mbOwnerIni (s : State) (m : Nat) : Nat := if m < 2 then 5 else if m = 2 then 6 else if s.part.cplRole then 19 else 20

theorem State.mbOwner_iff (s : State) (m ini : Nat) : s.mbOwner m ini = true ↔ ini = s.mbOwnerIni m := by
  unfold State.mbOwner State.mbOwnerIni
  split
  · exact beq_iff_eq
  · split <;> exact beq_iff_eq

theorem State.mbState_lt (s : State) (m : Nat) : s.mbState m < 4 := bitsOf_lt _ 1 0

theorem State.mbState_eq (s : State) {m : Nat} (hm : m < 4) : s.mbState m = s.fld (Reg.MB_STAT + 0x100 * m) 1 0 := by
  simp only [State.mbState, mbReg, Nat.mod_eq_of_lt (show m < 8 by omega)]

/-- Word `j` of a mailbox, other than word 0 of the response, is a register of which all bits are RW: words 0 to 15 are the
command, 16 to 31 the response (R482). -/
theorem regRow_mailboxWord : ∀ m < 4, ∀ j < 32, j ≠ 16 → isReg (0x100 * m + 4 * j) = true ∧
    (regRow? (0x100 * m + 4 * j)).any (fun r => r.rw == 0xFFFFFFFF && r.w1c == 0 && r.w1s == 0) = true := by decide

theorem State.codeWrite_mailboxWord (s : State) {m j : Nat} (v : Word) (hm : m < 4) (hj : j < 32) (hne : j ≠ 16) :
    (s.codeWrite (0x100 * m + 4 * j) v).reg (0x100 * m + 4 * j) = v := by
  have hrow := (regRow_mailboxWord m hm j hj hne).2
  simp only [Option.any_eq_true, Bool.and_eq_true, beq_iff_eq] at hrow
  obtain ⟨r, hr, ⟨hrw, hc⟩, hs⟩ := hrow
  exact s.codeWrite_reg_of_allRw v hr hrw hc hs

theorem exec_registerWrite_mailboxWord (s : State) (ini : Nat) {m j : Nat} (v : Word) (hm : m < 4) (hj : j < 32) (hne : j ≠ 16) :
    exec (.registerWrite ini (0x100 * m + 4 * j) v) s = .next (s.toWrite ini (0x100 * m + 4 * j) v []).1 := by
  rw [exec_registerWrite_of_allowed (by omega), s.regWrite_of_isReg ini v [] (regRow_mailboxWord m hm j hj hne).1,
    s.blockWrite_page0 ini v [] (by omega)]

/-- A write of a word of the command buffer (R448). -/
theorem State.toWrite_command (s : State) (ini : Nat) {m w : Nat} (v : Word) (rings : List Nat) (hm : m < 4) (hw : w < 16) :
    s.toWrite ini (0x100 * m + 4 * w) v rings =
      if s.mbOwner m ini && (s.mbState m == 0 || s.mbState m == 3) then (s.codeWrite (0x100 * m + 4 * w) v, .ok)
      else (s, .denied) := by
  have hdiv : (0x100 * m + 4 * w) / 0x100 = m := by omega
  have hmod : (0x100 * m + 4 * w) % 0x100 = 4 * w := by omega
  rw [State.toWrite, if_pos (by omega)]
  simp only [hdiv, hmod]
  rw [if_pos (by omega)]

/-- A write of a response word beyond the first (R463). -/
theorem State.toWrite_response (s : State) (ini : Nat) {m w : Nat} (v : Word) (rings : List Nat) (hm : m < 4) (hw : w < 16)
    (h0 : 0 < w) :
    s.toWrite ini (0x100 * m + 4 * (16 + w)) v rings =
      if ini = 0 ∧ (s.mbState m = 1 ∨ s.mbState m = 2) then (s.codeWrite (0x100 * m + 4 * (16 + w)) v, .ok)
      else (s, .denied) := by
  have hdiv : (0x100 * m + 4 * (16 + w)) / 0x100 = m := by omega
  have hmod : (0x100 * m + 4 * (16 + w)) % 0x100 = 0x40 + 4 * w := by omega
  rw [State.toWrite, if_pos (by omega)]
  simp only [hdiv, hmod]
  rw [if_neg (by omega), if_neg (by omega), if_pos (by omega)]

/-- A taken write of a mailbox word changes that word alone, to the written value. -/
theorem does_of_mailboxWord_taken {s : State} {c : Instr} {m j : Nat} {v : Word} (hm : m < 4) (hj : j < 32) (hne : j ≠ 16)
    (h : exec c s = .next (s.codeWrite (0x100 * m + 4 * j) v)) :
    Does c s [.block 0] fun t => t.reg (0x100 * m + 4 * j) = v ∧ RegsBut [0x100 * m + 4 * j] s t := by
  have hb : blockOf (0x100 * m + 4 * j) = 0 := blockOf_eq 0 0 (by decide) (by omega)
  rw [← hb]
  exact does_of_exec_eq_codeWrite h ⟨s.codeWrite_mailboxWord v hm hj hne, s.codeWrite_regsBut _ v⟩

theorem registerWrite_command_taken {s : State} {m w ini : Nat} (v : Word) (hm : m < 4) (hw : w < 16)
    (ho : ini = s.mbOwnerIni m) (hst : s.mbState m = 0 ∨ s.mbState m = 3) :
    Does (.registerWrite ini (0x100 * m + 4 * w) v) s [.block 0] fun t =>
      t.reg (0x100 * m + 4 * w) = v ∧ RegsBut [0x100 * m + 4 * w] s t := by
  refine does_of_mailboxWord_taken hm (by omega) (by omega) ?_
  rw [exec_registerWrite_mailboxWord s ini v hm (by omega) (by omega), s.toWrite_command ini v [] hm hw,
    if_pos (by simp [(s.mbOwner_iff m ini).mpr ho, hst])]

theorem registerWrite_command_denied {s : State} {m w ini : Nat} (v : Word) (hm : m < 4) (hw : w < 16)
    (h : ini ≠ s.mbOwnerIni m ∨ s.mbState m = 1 ∨ s.mbState m = 2) :
    exec (.registerWrite ini (0x100 * m + 4 * w) v) s = .next s := by
  have hno : ¬ (s.mbOwner m ini && (s.mbState m == 0 || s.mbState m == 3)) = true := by
    simp only [Bool.and_eq_true, Bool.or_eq_true, beq_iff_eq, s.mbOwner_iff]
    omega
  rw [exec_registerWrite_mailboxWord s ini v hm (by omega) (by omega), s.toWrite_command ini v [] hm hw, if_neg hno]

theorem registerWrite_response_taken {s : State} {m w : Nat} (v : Word) (hm : m < 4) (hw : w < 16) (h0 : 0 < w)
    (hst : s.mbState m = 1 ∨ s.mbState m = 2) :
    Does (.registerWrite 0 (0x100 * m + 4 * (16 + w)) v) s [.block 0] fun t =>
      t.reg (0x100 * m + 4 * (16 + w)) = v ∧ RegsBut [0x100 * m + 4 * (16 + w)] s t := by
  refine does_of_mailboxWord_taken hm (by omega) (by omega) ?_
  rw [exec_registerWrite_mailboxWord s 0 v hm (by omega) (by omega), s.toWrite_response 0 v [] hm hw h0, if_pos ⟨rfl, hst⟩]

theorem registerWrite_response_denied {s : State} {m w ini : Nat} (v : Word) (hm : m < 4) (hw : w < 16) (h0 : 0 < w)
    (h : ini ≠ 0 ∨ s.mbState m = 0 ∨ s.mbState m = 3) :
    exec (.registerWrite ini (0x100 * m + 4 * (16 + w)) v) s = .next s := by
  rw [exec_registerWrite_mailboxWord s ini v hm (by omega) (by omega), s.toWrite_response ini v [] hm hw h0,
    if_neg (by omega)]

/-- Settles O47: each clause is one of the rules above, by where the key leads. -/
theorem registerWrites : Obligations.RegisterWrites := by
  intro s ini a v c same
  refine ⟨?reserved, exec_registerWrite_of_internal s v, ?interlocking, ?readOnly, ?codes, ?mailboxes⟩
  case reserved =>
    rintro (h | ⟨h, -⟩)
    · exact exec_registerWrite_reserved s ini v h
    · exact exec_registerWrite_reserved s ini v (not_isReg_of_bootRom h)
  case interlocking =>
    intro hlo hhi h0 h6
    refine exec_registerWrite_eq_self (State.regWrite_fst_eq_self ?_)
    rw [s.blockWrite_interlocking v [] hlo hhi, s.ilWrite_denied a v h0 h6]
  case readOnly =>
    intro h
    refine exec_registerWrite_eq_self (State.regWrite_fst_eq_self ?_)
    rw [s.blockWrite_readOnlyBlock v [] h]
  case codes =>
    intro h
    have hexec : exec c s = .next (s.codeWrite a v) := by
      rcases h with h | ⟨rfl, h⟩
      · exact exec_registerWrite_openRegs s ini v h
      · exact exec_registerWrite_firmwareRegs s v h
    exact does_of_exec_eq_codeWrite hexec ⟨s.codeWrite_regsBut a v, fun r hr i hi => s.codeWrite_bit v hr hi⟩
  case mailboxes =>
    intro m w hm hw st owner
    have hst : st = s.mbState m := (s.mbState_eq hm).symm
    refine ⟨fun ha => ?_, fun ha h0 => ?_⟩
    · obtain rfl : a = 0x100 * m + 4 * w := by simpa using ha
      exact ⟨fun ho h => registerWrite_command_taken v hm hw ho (hst ▸ h),
        fun h => registerWrite_command_denied v hm hw (hst ▸ h)⟩
    · obtain rfl : a = 0x100 * m + 4 * (16 + w) := by simp only [Reg.RSP0] at ha; omega
      refine ⟨fun hi h => ?_, fun h => registerWrite_response_denied v hm hw h0 (hst ▸ h)⟩
      subst hi
      exact registerWrite_response_taken v hm hw h0 (hst ▸ h)

end Sys2Proof.Machine
end

section
/-! Rules for the accesses from outside (O48): sources that fire, whole-register counts, the error record of the Ticket office,
and reads of the in-cycle blocks. -/

namespace Sys2Proof.Machine

/-- A command that leads to `t`, on a path that changes only the parts `fs`. -/
theorem does_of_keeps {c : Instr} {s t : State} {fs : List Zone} {post : State → Prop} (h : exec c s = .next t)
    (hk : Keeps fs s t) (hp : post t) : Does c s fs post := ⟨t, h, hk.toOnly, hp⟩

/-! Sources (R474) -/

theorem icReg_ne_icReg {r r' : Nat} (i j : Nat) (h : r + 16 ≤ r') : icReg r i ≠ icReg r' j := by
  simp only [icReg]; omega

/-- A bit that is set stays set when a bit is set. -/
theorem State.bit_setBit_true {s : State} {a b n m : Nat} (hm : m < 32) (h : s.bit a n = true) :
    (s.setBit b m true).bit a n = true := by
  by_cases hab : a = b
  · subst hab
    by_cases hnm : n = m
    · subst hnm; exact s.bit_setBit_same a true hm
    · rw [s.bit_setBit_bit a true hm hnm, h]
  · rw [s.bit_setBit_other _ _ _ hab, h]

/-- Of the PEND registers, a source that fires changes its own bit alone. -/
theorem State.reg_fire_pend (s : State) (i j : Nat) : (s.fire i).reg (icReg Reg.IC_PEND j) =
    if s.bit (icReg Reg.IC_PEND i) (i % 32) then s.reg (icReg Reg.IC_PEND j)
    else (s.setBit (icReg Reg.IC_PEND i) (i % 32) true).reg (icReg Reg.IC_PEND j) := by
  have hlost : icReg Reg.IC_PEND j ≠ icReg Reg.IC_LOST i := icReg_ne_icReg j i (by decide)
  have hh : icReg Reg.IC_PEND j ≠ icReg Reg.IC_HPEND i := icReg_ne_icReg j i (by decide)
  have hfirst : (if s.bit (icReg Reg.IC_PEND i) (i % 32) then s.setBit (icReg Reg.IC_LOST i) (i % 32) true
      else s.setBit (icReg Reg.IC_PEND i) (i % 32) true).reg (icReg Reg.IC_PEND j) =
      if s.bit (icReg Reg.IC_PEND i) (i % 32) then s.reg (icReg Reg.IC_PEND j)
      else (s.setBit (icReg Reg.IC_PEND i) (i % 32) true).reg (icReg Reg.IC_PEND j) := by
    split
    · exact s.reg_setBit_other _ _ hlost
    · rfl
  unfold State.fire
  dsimp only
  split
  · exact hfirst
  · next v _ =>
    rw [State.reg_vecUpdate _ v, State.reg_setBit_other _ _ _ hh, hfirst]
    all_goals simp only [icReg, vecReg, Reg.IC_PEND, Reg.MSIX_PBA, Reg.IC_HINSVC]; omega

theorem State.pends_fire_self (s : State) (i : Nat) : (s.fire i).pends i = true := s.fire_pend i

theorem State.pends_fire_of_pends {s : State} {j : Nat} (i : Nat) (h : s.pends j = true) : (s.fire i).pends j = true := by
  rw [State.pends, State.bit, s.reg_fire_pend i j]
  split
  · exact h
  · exact State.bit_setBit_true (Nat.mod_lt _ (by decide)) h

/-! Whole-register counts -/

theorem State.fld_word (s : State) (a : Nat) : s.fld a 31 0 = (s.reg a).toNat := by
  simp only [State.fld, bitsOf]; omega

theorem State.reg_satInc_word (s : State) (a : Nat) :
    ((s.satInc a 31 0).reg a).toNat = min ((s.reg a).toNat + 1) (2 ^ 32 - 1) := by
  have h := s.fld_satInc_same a (hi := 31) (lo := 0) (by decide) (by decide)
  rwa [State.fld_word, State.fld_word] at h

/-! The error record (R450, R483) -/

/-- From `s` to `t` an error is recorded with its kind, response, initiator and offset, counted, and raises source 12. -/
def State.errorRecorded (s t : State) (kind resp ini off : Nat) : Prop :=
  t.pends 12 = true ∧ t.bit Reg.TO_ERR_STAT 31 = true ∧
    (t.reg Reg.TO_ERR_CNT).toNat = min ((s.reg Reg.TO_ERR_CNT).toNat + 1) (2 ^ 32 - 1) ∧
    (s.bit Reg.TO_ERR_STAT 31 = true → t.bit Reg.TO_ERR_STAT 30 = true) ∧
    (s.bit Reg.TO_ERR_STAT 31 = false → t.fld Reg.TO_ERR_STAT 29 27 = kind ∧ t.fld Reg.TO_ERR_STAT 26 24 = resp ∧
      t.fld Reg.TO_ERR_STAT 23 19 = ini ∧ t.reg Reg.TO_ERR_ADDR = BitVec.ofNat 32 off)

/-- The same error recorded from a state with the same Ticket office registers. -/
theorem State.errorRecorded.of_agree {s u t : State} {kind resp ini off : Nat} (h : u.errorRecorded t kind resp ini off)
    (hu : s.agree (.block 0) u) : s.errorRecorded t kind resp ini off := by
  have hstat : u.reg Reg.TO_ERR_STAT = s.reg Reg.TO_ERR_STAT := hu _ rfl
  have hcnt : u.reg Reg.TO_ERR_CNT = s.reg Reg.TO_ERR_CNT := hu _ rfl
  simpa only [State.errorRecorded, State.bit, hstat, hcnt] using h

/-- What a first record writes into TO_ERR_STAT and TO_ERR_ADDR (R483). -/
def State.errorFill (s : State) (kind : Nat) (r : Resp) (ini off : Nat) : State :=
  (((s.setFld Reg.TO_ERR_STAT 29 27 kind).setFld Reg.TO_ERR_STAT 26 24 (respCode r)).setFld Reg.TO_ERR_STAT 23 19 ini).setReg
    Reg.TO_ERR_ADDR (BitVec.ofNat 32 off)

theorem State.toError_eq (s : State) {kind : Nat} (r : Resp) (ini off : Nat) (h2 : kind ≠ 2) :
    s.toError kind r ini off =
      ((s.satInc Reg.TO_ERR_CNT 31 0).record Reg.TO_ERR_STAT fun u => u.errorFill kind r ini off).fire 12 :=
  if_neg h2

theorem State.record_of_valid {s : State} {a : Nat} (fill : State → State) (h : s.bit a 31 = true) :
    s.record a fill = s.setBit a 30 true := if_pos h

theorem State.record_of_not_valid {s : State} {a : Nat} (fill : State → State) (h : s.bit a 31 = false) :
    s.record a fill = (fill s).setBit a 31 true := if_neg (by simp [h])

theorem respCode_lt (r : Resp) : respCode r < 8 := by cases r <;> decide

theorem State.toError_errorRecorded (s : State) {kind ini : Nat} (r : Resp) (off : Nat) (hk : kind < 8) (h2 : kind ≠ 2)
    (hi : ini < 32) : s.errorRecorded (s.toError kind r ini off) kind (respCode r) ini off := by
  have hr := respCode_lt r
  have hcount := s.reg_satInc_word Reg.TO_ERR_CNT
  have hstat : ∀ n, (s.satInc Reg.TO_ERR_CNT 31 0).bit Reg.TO_ERR_STAT n = s.bit Reg.TO_ERR_STAT n :=
    fun n => State.bit_congr n (s.reg_satInc_other 31 0 (by decide))
  rw [s.toError_eq r ini off h2]
  refine ⟨State.pends_fire_self _ 12, ?_⟩
  cases hv : s.bit Reg.TO_ERR_STAT 31 with
  | true =>
    rw [State.record_of_valid _ ((hstat 31).trans hv)]
    refine ⟨?_, ?_, fun _ => ?_, fun h => nomatch h⟩
    · rw [State.bit_fire _ _ _ (by decide), State.bit_setBit_bit _ _ _ (by decide) (by decide), hstat, hv]
    · rw [State.reg_fire _ _ (by decide), State.reg_setBit_other _ _ _ (by decide), hcount]
    · rw [State.bit_fire _ _ _ (by decide), State.bit_setBit_same _ _ _ (by decide)]
  | false =>
    rw [State.record_of_not_valid _ ((hstat 31).trans hv)]
    refine ⟨?_, ?_, fun h => (nomatch h), fun _ => ⟨?_, ?_, ?_, ?_⟩⟩
    · rw [State.bit_fire _ _ _ (by decide), State.bit_setBit_same _ _ _ (by decide)]
    · rw [State.reg_fire _ _ (by decide), State.reg_setBit_other _ _ _ (by decide)]
      simpa [State.errorFill] using hcount
    · rw [State.fld_fire _ _ _ _ (by decide), State.fld_setBit_disjoint _ _ _ (by decide) (by decide), State.errorFill,
        State.fld_setReg_other _ _ _ _ (by decide), State.fld_setFld_disjoint _ _ _ (by decide) (by decide) (by decide),
        State.fld_setFld_disjoint _ _ _ (by decide) (by decide) (by decide),
        State.fld_setFld_same _ _ _ (by decide) (by decide)]
      exact Nat.mod_eq_of_lt hk
    · rw [State.fld_fire _ _ _ _ (by decide), State.fld_setBit_disjoint _ _ _ (by decide) (by decide), State.errorFill,
        State.fld_setReg_other _ _ _ _ (by decide), State.fld_setFld_disjoint _ _ _ (by decide) (by decide) (by decide),
        State.fld_setFld_same _ _ _ (by decide) (by decide)]
      exact Nat.mod_eq_of_lt hr
    · rw [State.fld_fire _ _ _ _ (by decide), State.fld_setBit_disjoint _ _ _ (by decide) (by decide), State.errorFill,
        State.fld_setReg_other _ _ _ _ (by decide), State.fld_setFld_same _ _ _ (by decide) (by decide)]
      exact Nat.mod_eq_of_lt hi
    · rw [State.reg_fire _ _ (by decide), State.reg_setBit_other _ _ _ (by decide), State.errorFill, State.reg_setReg_same]

/-! Reads of the in-cycle blocks (R9, R449) -/

/-- The registers of the in-cycle blocks that a read clears (R483). -/
def readClearRegs : List Nat := [Reg.TO_ERR_CNT, Reg.TO_COLL_CNT, Reg.SP_ERR_CNT]

theorem lt_of_inCycle {a : Nat} (h : inCycle a = true) : a < 0x10000 := by
  have := of_decide_eq_true h; omega

/-- The rows of the in-cycle blocks: one that a read clears is one register of `readClearRegs`. -/
theorem rc_rows_inCycle : ∀ r ∈ regRows0 ++ regRows1 ++ regRows3 ++ regRowsF, r.rc ≠ 0 →
    r.base ∈ readClearRegs ∧ r.n1 = 1 ∧ r.s1 = 0x10000 ∧ r.n2 = 1 ∧ r.s2 = 4 := by decide

theorem mem_rows_of_inCycle {a : Nat} {r : RegRow} (h : inCycle a = true) (hr : regRow? a = some r) :
    r ∈ regRows0 ++ regRows1 ++ regRows3 ++ regRowsF ∧ r.hit a = true := by
  have hlt := lt_of_inCycle h
  have hp : a / 0x1000 = 0 ∨ a / 0x1000 = 1 ∨ a / 0x1000 = 3 ∨ a / 0x1000 = 0xF := by
    have := of_decide_eq_true h; omega
  rw [regRow?, Nat.mod_eq_of_lt (by omega : a < 0x100000)] at hr
  refine ⟨?_, List.find?_some (p := fun (r : RegRow) => r.hit a) hr⟩
  have hm := List.mem_of_find?_eq_some hr
  simp only [List.mem_append]
  rcases hp with hp | hp | hp | hp <;> rw [hp] at hm <;> simp [regPage] at hm <;> simp [hm]

/-- A register of the in-cycle blocks that is no `readClearRegs` keeps its value when read. -/
theorem rc_eq_zero_of_inCycle {a : Nat} {r : RegRow} (h : inCycle a = true) (hr : regRow? a = some r)
    (hn : a ∉ readClearRegs) : r.rc = 0 := by
  obtain ⟨hm, hhit⟩ := mem_rows_of_inCycle h hr
  by_contra hrc
  obtain ⟨hb, hn1, hs1, hn2, hs2⟩ := rc_rows_inCycle r hm hrc
  simp only [RegRow.hit, hn1, hs1, hn2, hs2, Bool.and_eq_true, decide_eq_true_eq] at hhit
  obtain rfl : a = r.base := by omega
  exact hn hb

/-- Below the internal range only FAB_RB_DATA has a read effect beside its access code. -/
theorem State.readEffect_external (s : State) {a : Nat} {r : RegRow} (ha : a < 0x10000) (hne : a ≠ Reg.FAB_RB_DATA)
    (hr : regRow? a = some r) :
    s.readEffect a = if r.rc = 0 then s.useFree else s.setReg a (s.reg a &&& ~~~BitVec.ofNat 32 r.rc) := by
  rw [State.readEffect, if_neg (by simp only [Reg.ARR_BSCNT_LO]; omega), if_neg (by simp only [Reg.CS_WDATA]; omega),
    if_neg hne, if_neg (by omega), if_neg (by omega), hr]

theorem State.regRead_fst_of_isReg (s : State) {a : Nat} (ha : a < 0x10000) (h : isReg a = true) :
    (s.regRead a).1 = s.readEffect a := by
  have h1 : inBootRom a = false := decide_eq_false (by omega)
  have h2 : inHalves a = false := decide_eq_false (by omega)
  simp [State.regRead, h1, h2, h]

theorem State.regRead_fst_of_not_isReg (s : State) {a : Nat} (h : isReg a = false) : (s.regRead a).1 = s.useFree := by
  simp [State.regRead, h]

theorem State.regRead_snd (s : State) (a : Nat) : (s.regRead a).2 = s.readValue a := rfl

/-- A read outside `readClearRegs`, or of a reserved offset, changes no register. -/
theorem State.regRead_fst_of_noRc (s : State) {a : Nat} (ha : a < 0x10000) (hne : a ≠ Reg.FAB_RB_DATA)
    (hrc : ∀ r, regRow? a = some r → r.rc = 0) : (s.regRead a).1 = s.useFree := by
  cases h : isReg a with
  | false => exact s.regRead_fst_of_not_isReg h
  | true =>
    have hsome : (regRow? a).isSome = true := by
      simp only [isReg, Bool.and_eq_true] at h; exact h.2
    obtain ⟨r, hr⟩ := Option.isSome_iff_exists.mp hsome
    rw [s.regRead_fst_of_isReg ha h, s.readEffect_external ha hne hr, if_pos (hrc r hr)]

theorem State.regRead_fst_inCycle (s : State) {a : Nat} (h : inCycle a = true) (hn : a ∉ readClearRegs) :
    (s.regRead a).1 = s.useFree :=
  s.regRead_fst_of_noRc (lt_of_inCycle h) (by rintro rfl; exact absurd h (by decide))
    fun _ hr => rc_eq_zero_of_inCycle h hr hn

/-- A read of a counter of `readClearRegs` clears it. -/
theorem State.regRead_fst_readClear (s : State) {a : Nat} (h : a ∈ readClearRegs) : (s.regRead a).1 = s.setReg a 0 := by
  have hrow : ∀ b ∈ readClearRegs, isReg b = true ∧ b < 0x10000 ∧ b ≠ Reg.FAB_RB_DATA ∧
      (regRow? b).map (fun r => r.rc) = some 0xFFFFFFFF := by decide
  obtain ⟨hreg, ha, hne, hrc⟩ := hrow a h
  obtain ⟨r, hr, hrc⟩ := Option.map_eq_some_iff.mp hrc
  rw [s.regRead_fst_of_isReg ha hreg, s.readEffect_external ha hne hr, hrc, if_neg (by decide)]
  congr 1
  simp

theorem State.regRead_fst_inCycle_cases (s : State) {a : Nat} (h : inCycle a = true) :
    (a ∉ readClearRegs ∧ (s.regRead a).1 = s.useFree) ∨ (a ∈ readClearRegs ∧ (s.regRead a).1 = s.setReg a 0) := by
  by_cases hm : a ∈ readClearRegs
  · exact .inr ⟨hm, s.regRead_fst_readClear hm⟩
  · exact .inl ⟨hm, s.regRead_fst_inCycle h hm⟩

/-- A read of the in-cycle blocks changes nothing but a counter that it clears. -/
theorem State.regRead_inCycle_keeps {fs : List Zone} {s0 : State} (s : State) {a : Nat} (h : inCycle a = true)
    (h1 : Keeps fs s0 s) (hF : subF [.block 0, .free] fs = true) : Keeps fs s0 (s.regRead a).1 := by
  rcases s.regRead_fst_inCycle_cases h with ⟨-, he⟩ | ⟨hm, he⟩ <;> rw [he]
  · exact State.useFree_keeps _ h1 (subF_trans (by decide) hF)
  · have hb : ∀ b ∈ readClearRegs, blockOf b = 0 := by decide
    exact setReg_keeps _ _ h1 (alwB hF 0 (hb a hm) (by decide))

theorem State.regRead_inCycle_out (s : State) {a : Nat} (h : inCycle a = true) : (s.regRead a).1.out = s.out := by
  rcases s.regRead_fst_inCycle_cases h with ⟨-, he⟩ | ⟨-, he⟩ <;> rw [he] <;> rfl

theorem State.regRead_inCycle_tkt (s : State) {a : Nat} (h : inCycle a = true) : (s.regRead a).1.tkt = s.tkt := by
  rcases s.regRead_fst_inCycle_cases h with ⟨-, he⟩ | ⟨-, he⟩ <;> rw [he] <;> rfl

end Sys2Proof.Machine
end

section
/-! How a host request to BAR0 or BAR2 runs (O48): one equation a case, and the way of a scratchpad word through the root. -/

namespace Sys2Proof.Machine

/-! Requests to BAR0 (R34, R450, R471) -/

theorem exec_hostBar0Request (kind : BarKind) (off : Nat) (dws : List (Word × BitVec 4)) (rivals : List (Nat × Nat × Word))
    (tmo : List Nat) (s : State) :
    exec (.hostBar0Request kind off dws rivals tmo) s = .next (s.hostBar0 kind off dws rivals tmo) := rfl

theorem exec_hostBar2Request (kind : BarKind) (off len : Nat) (data : List (Word64 × BitVec 8)) (met : List Nat)
    (rivals : List (Nat × Nat × Word)) (tmo : List Nat) (s : State) :
    exec (.hostBar2Request kind off len data met rivals tmo) s = .next (s.hostBar2 kind off len data met rivals tmo) := rfl

theorem State.barLive_iff (s : State) : s.barLive = true ↔ s.bit Reg.TO_STAT 1 = true ∧ s.pcie.memEnable = true := by
  simp [State.barLive]

/-- A command that answers Unsupported Request and nothing else. -/
theorem does_unsupported {c : Instr} {s : State} (h : exec c s = .next (s.emit .unsupported)) :
    Does c s [.out] fun t => t.out = s.out ++ [Out.unsupported] :=
  does_of_keeps h (State.emit_keeps _ _ (Keeps.rfl' _ _) (by decide)) rfl

theorem State.hostBar0_notLive {s : State} (h : s.barLive = false) (kind : BarKind) (off : Nat)
    (dws : List (Word × BitVec 4)) (rivals : List (Nat × Nat × Word)) (tmo : List Nat) :
    s.hostBar0 kind off dws rivals tmo = if kind = .write then s else s.emit .unsupported := by
  simp only [State.hostBar0, h, Bool.not_false, if_true]

theorem State.hostBar0_atomic {s : State} (h : s.barLive = true) (h49 : s.fence 49 = 0) (off : Nat)
    (dws : List (Word × BitVec 4)) (rivals : List (Nat × Nat × Word)) (tmo : List Nat) :
    s.hostBar0 .atomic off dws rivals tmo = s.emit .unsupported := by
  simp [State.hostBar0, h, h49]

theorem State.hostBar2_notLive {s : State} (h : s.barLive = false) (kind : BarKind) (off len : Nat)
    (data : List (Word64 × BitVec 8)) (met : List Nat) (rivals : List (Nat × Nat × Word)) (tmo : List Nat) :
    s.hostBar2 kind off len data met rivals tmo = if kind = .write then s else s.emit .unsupported := by
  simp only [State.hostBar2, h, Bool.not_false, if_true]

theorem State.hostBar2_atomic {s : State} (h : s.barLive = true) (off len : Nat)
    (data : List (Word64 × BitVec 8)) (met : List Nat) (rivals : List (Nat × Nat × Word)) (tmo : List Nat) :
    s.hostBar2 .atomic off len data met rivals tmo = s.emit .unsupported := by
  simp [State.hostBar2, h]

theorem State.hostBar2_fenced {s : State} (h : s.barLive = true) (h48 : s.fence 48 ≠ 0) {kind : BarKind} (hk : kind ≠ .atomic)
    (off len : Nat) (data : List (Word64 × BitVec 8)) (met : List Nat) (rivals : List (Nat × Nat × Word)) (tmo : List Nat) :
    s.hostBar2 kind off len data met rivals tmo = s := by
  cases kind with
  | atomic => exact absurd rfl hk
  | read => simp [State.hostBar2, h, h48]
  | write => simp [State.hostBar2, h, h48]

section OneDoubleword

variable {s : State} {off : Nat} (hl : s.barLive = true) (h4 : off % 4 = 0) (hoff : off < 0x10000)
include hl h4 hoff

/-- A request for one doubleword through a fenced port 49 waits. -/
theorem State.hostBar0_one_fenced {kind : BarKind} (ht : throughTree off = true) (h49 : s.fence 49 ≠ 0) (d : Word × BitVec 4) :
    s.hostBar0 kind off [d] [] [] = s := by
  have he : off % 0x10000 / 4 * 4 = off := by omega
  have htake : [d].take ((0x10000 - off) / 4) = [d] := List.take_of_length_le (by simp only [List.length_singleton]; omega)
  simp [State.hostBar0, hl, he, htake, ht, h49]

theorem State.hostBar0_write_one (hf : throughTree off = false ∨ s.fence 49 = 0) (v : Word) (be : BitVec 4) :
    s.hostBar0 .write off [(v, be)] [] [] = if be = 0 then s else if be ≠ 15 then s.toError 0 .ok 5 off
      else (s.barWrite 5 off v [] false).1.writeResult (s.barWrite 5 off v [] false).2 off := by
  have he : off % 0x10000 / 4 * 4 = off := by omega
  have htake : [(v, be)].take ((0x10000 - off) / 4) = [(v, be)] :=
    List.take_of_length_le (by simp only [List.length_singleton]; omega)
  rcases hf with hf | hf <;> simp [State.hostBar0, hl, he, htake, State.bar0Writes, hf]

theorem State.hostBar0_read_one (ht : throughTree off = false) (d : Word × BitVec 4) :
    s.hostBar0 .read off [d] [] [] = (s.barRead 5 off false).1.complete 4 5 (natLe 4 (s.barRead 5 off false).2.2.toNat)
      (if (s.barRead 5 off false).2.1 = .ok then none else some ((s.barRead 5 off false).2.1, off)) := by
  have he : off % 0x10000 / 4 * 4 = off := by omega
  have htake : [d].take ((0x10000 - off) / 4) = [d] := List.take_of_length_le (by simp only [List.length_singleton]; omega)
  simp [State.hostBar0, hl, he, htake, ht, State.bar0Reads]

end OneDoubleword

theorem throughTree_of_inCycle {a : Nat} (h : inCycle a = true) : throughTree a = false := by simp [throughTree, h]

theorem outsideBlocks_iff (a : Nat) : outsideBlocks a = true ↔ 0xA000 ≤ a ∧ a < 0xF000 := decide_eq_true_iff

theorem throughTree_iff (a : Nat) : throughTree a = true ↔ inCycle a = false ∧ ¬ (0xA000 ≤ a ∧ a < 0xF000) := by
  rw [← outsideBlocks_iff]; simp [throughTree]

theorem State.cycleWrite_alone (s : State) (ini a : Nat) (v : Word) : s.cycleWrite ini a v [] = s.regWrite ini a v [] := by
  simp [State.cycleWrite, writeLoses, ringsOf]

theorem State.barWrite_inCycle (s : State) {a : Nat} (h : inCycle a = true) (ini : Nat) (v : Word) (late : Bool) :
    s.barWrite ini a v [] late = s.regWrite ini a v [] := by
  rw [State.barWrite, if_pos h, s.cycleWrite_alone]

theorem State.barRead_inCycle (s : State) {a : Nat} (h : inCycle a = true) (ini : Nat) (late : Bool) :
    s.barRead ini a late = ((s.regRead a).1, .ok, s.readValue a) := if_pos h

theorem outside_not_inCycle {a : Nat} (hlo : 0xA000 ≤ a) (hhi : a < 0xF000) : inCycle a = false :=
  decide_eq_false (by omega)

theorem State.barWrite_outside (s : State) {a : Nat} (hlo : 0xA000 ≤ a) (hhi : a < 0xF000) (ini : Nat) (v : Word)
    (rivals : List (Nat × Nat × Word)) (late : Bool) : s.barWrite ini a v rivals late = (s, .ok) := by
  simp [State.barWrite, outside_not_inCycle hlo hhi, (outsideBlocks_iff a).mpr ⟨hlo, hhi⟩]

theorem State.barRead_outside (s : State) {a : Nat} (hlo : 0xA000 ≤ a) (hhi : a < 0xF000) (ini : Nat) (late : Bool) :
    s.barRead ini a late = (s, .ok, 0) := by
  simp [State.barRead, outside_not_inCycle hlo hhi, (outsideBlocks_iff a).mpr ⟨hlo, hhi⟩]

theorem State.bar0_denied {s : State} {off : Nat} (hl : s.barLive = true) (h4 : off % 4 = 0) (v : Word)
    (hlo : 0x3000 ≤ off) (hhi : off < 0x3800) (hreg : isReg off = true) :
    s.hostBar0 .write off [(v, 0xF)] [] [] = s.toError 1 .denied 5 off := by
  have hin : inCycle off = true := decide_eq_true (by omega)
  rw [State.hostBar0_write_one hl h4 (by omega) (.inl (throughTree_of_inCycle hin)), if_neg (by decide), if_neg (by decide),
    s.barWrite_inCycle hin, s.regWrite_of_isReg 5 v [] hreg, s.blockWrite_interlocking v [] hlo hhi,
    s.ilWrite_denied off v (by decide) (by decide)]
  rfl

theorem does_toError {c : Instr} {s : State} {kind ini off : Nat} {r : Resp} (h : exec c s = .next (s.toError kind r ini off))
    (hk : kind < 8) (h2 : kind ≠ 2) (hi : ini < 32) : Does c s [.block 0, .block 1, .out] fun t =>
      s.errorRecorded t kind (respCode r) ini off :=
  does_of_keeps h (State.toError_keeps _ _ _ _ _ (Keeps.rfl' _ _) (by decide)) (s.toError_errorRecorded r off hk h2 hi)

/-- A read of an in-cycle doubleword (R450). -/
theorem State.bar0_read_inCycle {s : State} {off : Nat} (hl : s.barLive = true) (h4 : off % 4 = 0) (hin : inCycle off = true)
    (d : Word × BitVec 4) : s.hostBar0 .read off [d] [] [] =
      (s.regRead off).1.emit (.completion true (natLe 4 (s.readValue off).toNat)) := by
  rw [State.hostBar0_read_one hl h4 (lt_of_inCycle hin) (throughTree_of_inCycle hin), s.barRead_inCycle hin]
  rfl

theorem State.readValue_chipId (s : State) : s.readValue Reg.CHIP_ID = s.reg Reg.CHIP_ID := by
  have h : isReg Reg.CHIP_ID = true ∧ inBootRom Reg.CHIP_ID = false ∧ inHalves Reg.CHIP_ID = false ∧
    inLogMirror Reg.CHIP_ID = false := by decide
  obtain ⟨hreg, hrom, hhalf, hlog⟩ := h
  simp [State.readValue, hreg, hrom, hhalf, hlog, State.view, Reg.CHIP_ID, Reg.FAB_UST, Reg.PIPE_STAT]

/-! The way through the root (R33, R338, R355) -/

theorem State.route_plain {s : State} {usable src ini tag addr len p q : Nat} {write : Bool} (hp : portOf usable addr = some p)
    (hq : portOf usable (addr + (len - 1)) = some q) (hpriv : privileged addr = false) (hf : s.fence p = 0)
    (hm : malformed p addr len write = false) : s.route usable src ini tag addr len write =
      if s.fwAllows ini addr len write then (s, .inl p) else (s.fwDenied ini addr write, .inr .denied) := by
  unfold State.route
  rw [hp, hq]
  cases ha : s.fwAllows ini addr len write <;> simp [hpriv, hf, hm]

theorem State.pends_fwDenied (s : State) (ini addr : Nat) (write : Bool) : (s.fwDenied ini addr write).pends 86 = true :=
  State.pends_fire_self _ 86

theorem State.fwDenied_agree_block0 (s : State) (ini addr : Nat) (write : Bool) : s.agree (.block 0) (s.fwDenied ini addr write) :=
  (State.fwDenied_keeps (fs := [.block 1, .out, .block 9]) s ini addr write (Keeps.rfl' _ s) (by decide)).only _ (by decide)

/-- A denied access that is then recorded: both events pend, and the record is that of the access (R355, R450). -/
theorem State.fwDenied_toError (s : State) (ini' addr : Nat) (write : Bool) {kind ini : Nat} (r : Resp) (off : Nat) (hk : kind < 8)
    (h2 : kind ≠ 2) (hi : ini < 32) :
    s.errorRecorded ((s.fwDenied ini' addr write).toError kind r ini off) kind (respCode r) ini off ∧
      ((s.fwDenied ini' addr write).toError kind r ini off).pends 86 = true := by
  refine ⟨((s.fwDenied ini' addr write).toError_errorRecorded r off hk h2 hi).of_agree (s.fwDenied_agree_block0 ini' addr write), ?_⟩
  rw [State.toError_eq _ r ini off h2]
  refine State.pends_fire_of_pends 12 ?_
  have hk : Keeps [.block 0] (s.fwDenied ini' addr write)
      (((s.fwDenied ini' addr write).satInc Reg.TO_ERR_CNT 31 0).record Reg.TO_ERR_STAT fun u => u.errorFill kind r ini off) := by
    refine record_keeps _ _ (satInc_keeps _ _ _ (Keeps.rfl' _ _) (by decide)) (fun u hu => ?_) (by decide)
    exact setReg_keeps _ _ (setFld_keeps _ _ _ _ (setFld_keeps _ _ _ _ (setFld_keeps _ _ _ _ hu (by decide)) (by decide))
      (by decide)) (by decide)
  exact (State.bit_congr _ (hk.only (.block 1) (by decide) _ rfl)).trans (s.pends_fwDenied ini' addr write)

/-! A word of the scratchpad through BAR2 (R36, R38, R280, R286) -/

theorem natLe_length (n v : Nat) : (natLe n v).length = n := by
  induction n generalizing v with
  | zero => rfl
  | succ n ih => rw [natLe, List.length_cons, ih]

/-- A read of a clean word finds its data and accounts for nothing (R285). -/
theorem State.spReadWord_clean {s : State} {w : Nat} (h : (decode72 (s.spCell (s.spKey w))).2 = .clean) :
    s.spReadWord w = (s, (decode72 (s.spCell (s.spKey w))).1, false) := by
  have hw : 16 * (w / 16) + w % 16 = w := Nat.div_add_mod w 16
  cases hr : s.remapOf (w % 16) (w / 16) <;>
    simp only [State.spKey, hr] at h <;> simp [State.spReadWord, State.spReadCell, State.spKey, hr, hw, h]

section OneWord

variable {s : State} {off : Nat} (h57 : s.fence 57 = 0) (hfill : s.bit Reg.MEM_STAT 0 = false)
  (h8 : off % 8 = 0) (hoff : off < 0x800000)

include h57 h8 hoff

theorem State.route_scratchpadWord (usable src ini : Nat) (write : Bool) : s.route usable src ini 0 off 8 write =
    if s.fwAllows ini off 8 write then (s, .inl 57) else (s.fwDenied ini off write, .inr .denied) := by
  have hcross : off / 256 = (off + 7) / 256 := by omega
  refine State.route_plain (q := 57) (if_pos hoff) (if_pos (by omega)) ?_ h57 ?_
  · exact decide_eq_false (by omega)
  · simp [malformed, hcross, h8]

theorem State.accessWrite_scratchpad_denied {src ini : Nat} (h : s.fwAllows ini off 8 true = false) (d : Word64 × BitVec 8) :
    s.accessWrite src ini off [] [] d = (s.fwDenied ini off true, .denied) := by
  rw [State.accessWrite, State.route_scratchpadWord h57 h8 hoff, h]
  rfl

theorem State.accessRead_scratchpad_denied {src ini : Nat} (h : s.fwAllows ini off 8 false = false) :
    s.accessRead src ini off 8 = (s.fwDenied ini off false, .denied, []) := by
  rw [State.accessRead, State.route_scratchpadWord h57 h8 hoff, h]
  rfl

include hfill

theorem State.accessWrite_scratchpad_allowed {src ini : Nat} (h : s.fwAllows ini off 8 true = true) (d : Word64) :
    s.accessWrite src ini off [] [] (d, 0xFF) = (s.spWrite (off / 8) d, .ok) := by
  rw [State.accessWrite, State.route_scratchpadWord h57 h8 hoff, h]
  have hw : ¬ 0x100000 ≤ off / 8 := by omega
  simp [State.writeAt, State.spWriteReq, hfill, State.spWriteWords, hw, firstResp]

theorem State.accessRead_scratchpad_clean {src ini : Nat} (h : s.fwAllows ini off 8 false = true)
    (hc : (decode72 (s.spCell (s.spKey (off / 8)))).2 = .clean) :
    s.accessRead src ini off 8 = (s.useFree, .ok, natLe 8 (decode72 (s.spCell (s.spKey (off / 8)))).1.toNat) := by
  have hspan : wordSpan off 8 = 1 := by rw [wordSpan, if_neg (by decide)]; omega
  have hend : ¬ off + 8 > 0x800000 := by omega
  rw [State.accessRead, State.route_scratchpadWord h57 h8 hoff, h]
  simp [State.readAt, State.spRead, hend, hfill, hspan, State.spReadWords, State.spReadWord_clean hc, cutBytes, h8,
    natLe_length, List.take_of_length_le]

end OneWord

/-! Requests to BAR2 for one word (R38) -/

section OneWordRequest

variable {s : State} {off : Nat} (hl : s.barLive = true) (h48 : s.fence 48 = 0) (h8 : off % 8 = 0) (hoff : off < 0x800000)
  (hbank : s.fld Reg.BAR2_BANK 22 0 = 0)

include hl h48 h8 hoff hbank

theorem State.hostBar2_write_word (d : Word64) : s.hostBar2 .write off 8 [(d, 0xFF)] [] [] [] =
    (s.accessWrite 48 4 off [] [] (d, 0xFF)).1.bar2Report (s.accessWrite 48 4 off [] [] (d, 0xFF)).2 off off := by
  have hmod : off % 2 ^ 28 = off := by omega
  have hmul : 8 * (off / 8) = off := by omega
  have htake : [(d, (0xFF : BitVec 8))].take ((2 ^ 28 - off / 8 * 8) / 8) = [(d, 0xFF)] :=
    List.take_of_length_le (by simp only [List.length_singleton]; omega)
  simp only [State.hostBar2, hl, h48, hmod, htake, State.bar2Writes, State.bar2Write, State.bar2Try, State.bar2Addr, hbank, hmul,
    Nat.add_zero]
  simp

theorem State.hostBar2_read_word : s.hostBar2 .read off 8 [] [] [] [] =
    (s.accessRead 48 4 off 8).1.complete 3 4 (s.accessRead 48 4 off 8).2.2
      (if (s.accessRead 48 4 off 8).2.1 = .ok then none else some ((s.accessRead 48 4 off 8).2.1, off)) := by
  have hmod : off % 2 ^ 28 = off := by omega
  have hlen : min 8 (2 ^ 28 - off) = 8 := by omega
  have hmul : off / 8 * 8 = off := by omega
  simp only [State.hostBar2, hl, h48, hmod, hlen, State.bar2Reads, State.bar2Addr, hbank, h8, hmul]
  simp

end OneWordRequest

end Sys2Proof.Machine
end

section
/-! Proofs about the host's requests to BAR0 and BAR2 (O48), clause by clause. -/

namespace Sys2Proof.Machine

/-! The BARs that cannot be reached, and AtomicOps (R450, R471) -/

theorem State.barLive_eq_false {s : State} (h : ¬ (s.bit Reg.TO_STAT 1 = true ∧ s.pcie.memEnable = true)) : s.barLive = false := by
  rw [← s.barLive_iff] at h; exact Bool.eq_false_iff.mpr h

/-! One doubleword through BAR0 -/

section Doubleword

variable {s : State} {off : Nat} (hl : s.barLive = true) (h4 : off % 4 = 0) (hoff : off < 0x10000)
include hl h4

theorem hostBar0_write_inCycle (v : Word) (hin : inCycle off = true) (hok : (s.regWrite 5 off v []).2 = .ok) :
    exec (.hostBar0Request .write off [(v, 0xF)] [] []) s = exec (.registerWrite 5 off v) s := by
  have hlt := lt_of_inCycle hin
  rw [exec_registerWrite_of_allowed (by omega), exec_hostBar0Request,
    State.hostBar0_write_one hl h4 hlt (.inl (throughTree_of_inCycle hin)), if_neg (by decide), if_neg (by decide),
    s.barWrite_inCycle hin, hok]
  rfl

theorem hostBar0_write_denied (v : Word) (hlo : 0x3000 ≤ off) (hhi : off < 0x3800) (hreg : isReg off = true) :
    Does (.hostBar0Request .write off [(v, 0xF)] [] []) s [.block 0, .block 1, .out] fun t => s.errorRecorded t 1 6 5 off :=
  does_toError (r := .denied) (by rw [exec_hostBar0Request, State.bar0_denied hl h4 v hlo hhi hreg]) (by decide) (by decide)
    (by decide)

theorem hostBar0_read_inCycle (hin : inCycle off = true) (d : Word × BitVec 4) :
    Does (.hostBar0Request .read off [d] [] []) s [.out, .block 0, .free] fun t =>
      t.out = s.out ++ [Out.completion true (natLe 4 (s.readValue off).toNat)] ∧
      (off = Reg.TO_ERR_CNT → t.reg off = 0) ∧
      (off ≠ Reg.TO_ERR_CNT → off ≠ Reg.TO_COLL_CNT → off ≠ Reg.SP_ERR_CNT → s.regs = t.regs) := by
  refine does_of_keeps (t := (s.regRead off).1.emit _) (by rw [exec_hostBar0Request, State.bar0_read_inCycle hl h4 hin])
    (State.emit_keeps _ _ (State.regRead_inCycle_keeps _ hin (Keeps.rfl' _ _) (by decide)) (by decide)) ⟨?_, ?_, ?_⟩
  · exact congrArg (· ++ _) (s.regRead_inCycle_out hin)
  · rintro rfl
    rw [State.reg_emit, s.regRead_fst_readClear (by decide), State.reg_setReg_same]
  · intro h1 h2 h3
    have hn : off ∉ readClearRegs := by simp [readClearRegs, h1, h2, h3]
    rw [State.emit_regs, s.regRead_fst_inCycle hin hn, State.useFree_regs]

include hoff

theorem hostBar0_write_noBytes (v : Word) : exec (.hostBar0Request .write off [(v, 0)] [] []) s = .next s := by
  rw [exec_hostBar0Request]
  by_cases h : throughTree off = true ∧ s.fence 49 ≠ 0
  · rw [State.hostBar0_one_fenced hl h4 hoff h.1 h.2]
  · have hf : throughTree off = false ∨ s.fence 49 = 0 := by
      rcases Bool.eq_false_or_eq_true (throughTree off) with ht | ht
      · exact .inr (not_not.mp fun hn => h ⟨ht, hn⟩)
      · exact .inl ht
    rw [State.hostBar0_write_one hl h4 hoff hf, if_pos rfl]

theorem hostBar0_write_someBytes (v : Word) {be : BitVec 4} (h0 : be ≠ 0) (hF : be ≠ 0xF)
    (h : inCycle off = true ∨ s.fence 49 = 0) :
    Does (.hostBar0Request .write off [(v, be)] [] []) s [.block 0, .block 1, .out] fun t => s.errorRecorded t 0 0 5 off := by
  refine does_toError (r := .ok) ?_ (by decide) (by decide) (by decide)
  rw [exec_hostBar0Request, State.hostBar0_write_one hl h4 hoff (h.imp_left throughTree_of_inCycle), if_neg h0, if_pos hF]

end Doubleword

theorem hostBar0_read_chipId {s : State} (hl : s.barLive = true) (h : s.reg Reg.CHIP_ID = 0x7131025E) (d : Word × BitVec 4) :
    Does (.hostBar0Request .read Reg.CHIP_ID [d] [] []) s [.out, .free] fun t =>
      t.out = s.out ++ [Out.completion true [0x5E, 0x02, 0x31, 0x71]] := by
  have hin : inCycle Reg.CHIP_ID = true := by decide
  refine does_of_keeps (t := s.useFree.emit (.completion true (natLe 4 (s.readValue Reg.CHIP_ID).toNat))) ?_
    (State.emit_keeps _ _ (State.useFree_keeps _ (Keeps.rfl' _ _) (by decide)) (by decide)) ?_
  · rw [exec_hostBar0Request, State.bar0_read_inCycle hl (by decide) hin, s.regRead_fst_inCycle hin (by decide)]
  · rw [s.readValue_chipId, h]
    rfl

theorem throughTree_outside {a : Nat} (hlo : 0xA000 ≤ a) (hhi : a < 0xF000) : throughTree a = false :=
  Bool.eq_false_iff.mpr fun h => ((throughTree_iff a).mp h).2 ⟨hlo, hhi⟩

section Outside

variable {s : State} {off : Nat} (hl : s.barLive = true) (h4 : off % 4 = 0) (hlo : 0xA000 ≤ off) (hhi : off < 0xF000)
include hl h4 hlo hhi

theorem hostBar0_write_outside (v : Word) : exec (.hostBar0Request .write off [(v, 0xF)] [] []) s = .next s := by
  rw [exec_hostBar0Request, State.hostBar0_write_one hl h4 (by omega) (.inl (throughTree_outside hlo hhi)),
    if_neg (by decide), if_neg (by decide), s.barWrite_outside hlo hhi]
  rfl

theorem hostBar0_read_outside (d : Word × BitVec 4) : Does (.hostBar0Request .read off [d] [] []) s [.out] fun t =>
    t.out = s.out ++ [Out.completion true [0, 0, 0, 0]] := by
  refine does_of_keeps (t := s.emit (.completion true [0, 0, 0, 0])) ?_ (State.emit_keeps _ _ (Keeps.rfl' _ _) (by decide)) rfl
  rw [exec_hostBar0Request, State.hostBar0_read_one hl h4 (by omega) (throughTree_outside hlo hhi), s.barRead_outside hlo hhi]
  simp [State.complete, natLe]

end Outside

/-! One word through BAR2 -/

theorem State.bar2Report_denied (s : State) (addr off : Nat) : s.bar2Report .denied addr off = s.toError 3 .denied 4 off := by
  simp [State.bar2Report, bar2Op]

section BarWord

variable {s : State} {off : Nat} (hl : s.barLive = true) (h48 : s.fence 48 = 0) (h57 : s.fence 57 = 0)
  (hfill : s.bit Reg.MEM_STAT 0 = false) (h8 : off % 8 = 0) (hoff : off < 0x800000) (hbank : s.fld Reg.BAR2_BANK 22 0 = 0)

include hl h48 h57 h8 hoff hbank

theorem hostBar2_write_denied (d : Word64) (h : s.fwAllows 4 off 8 true = false) :
    Does (.hostBar2Request .write off 8 [(d, 0xFF)] [] [] []) s [.block 9, .block 0, .block 1, .out] fun t =>
      s.errorRecorded t 3 6 4 off ∧ t.pends 86 = true := by
  refine does_of_keeps (t := (s.fwDenied 4 off true).toError 3 .denied 4 off) ?_ ?_
    (s.fwDenied_toError 4 off true .denied off (by decide) (by decide) (by decide))
  · rw [exec_hostBar2Request, State.hostBar2_write_word hl h48 h8 hoff hbank,
      State.accessWrite_scratchpad_denied h57 h8 hoff h, State.bar2Report_denied]
  · exact State.toError_keeps _ _ _ _ _ (State.fwDenied_keeps _ _ _ _ (Keeps.rfl' _ _) (by decide)) (by decide)

theorem hostBar2_read_denied (h : s.fwAllows 4 off 8 false = false) :
    Does (.hostBar2Request .read off 8 [] [] [] []) s [.block 9, .block 0, .block 1, .out, .free] fun t =>
      s.errorRecorded t 3 6 4 off ∧ Out.completion false [] ∈ t.out := by
  refine does_of_keeps (t := ((s.fwDenied 4 off false).toError 3 .denied 4 off).emit (.completion false [])) ?_ ?_
    ⟨(s.fwDenied_toError 4 off false .denied off (by decide) (by decide) (by decide)).1, List.mem_append_right _ List.mem_cons_self⟩
  · rw [exec_hostBar2Request, State.hostBar2_read_word hl h48 h8 hoff hbank, State.accessRead_scratchpad_denied h57 h8 hoff h]
    rfl
  · exact State.emit_keeps _ _ (State.toError_keeps _ _ _ _ _ (State.fwDenied_keeps _ _ _ _ (Keeps.rfl' _ _) (by decide))
      (by decide)) (by decide)

include hfill

theorem hostBar2_write_allowed (d : Word64) (h : s.fwAllows 4 off 8 true = true) :
    Does (.hostBar2Request .write off 8 [(d, 0xFF)] [] [] []) s [.sp] fun t =>
      t.spCell (s.spKey (off / 8)) = encode72 d ∧ ∀ j, j ≠ s.spKey (off / 8) → t.spCell j = s.spCell j := by
  refine does_of_keeps (t := s.spWrite (off / 8) d) ?_ (State.spWrite_keeps _ _ _ (Keeps.rfl' _ _) (by decide)) ⟨?_, fun j hj => ?_⟩
  · rw [exec_hostBar2Request, State.hostBar2_write_word hl h48 h8 hoff hbank,
      State.accessWrite_scratchpad_allowed h57 hfill h8 hoff h]
    rfl
  · simp [State.spWrite, State.spCell, State.setSpCell, cell72]
  · simp only [State.spWrite, State.spCell, State.setSpCell, Store.get_set_other _ _ _ hj]
    rfl

theorem hostBar2_read_allowed (h : s.fwAllows 4 off 8 false = true)
    (hc : (decode72 (s.spCell (s.spKey (off / 8)))).2 = .clean) :
    Does (.hostBar2Request .read off 8 [] [] [] []) s [.out, .free] fun t =>
      t.out = s.out ++ [Out.completion true (natLe 8 (decode72 (s.spCell (s.spKey (off / 8)))).1.toNat)] := by
  refine does_of_keeps (t := s.useFree.emit (.completion true _)) ?_
    (State.emit_keeps _ _ (State.useFree_keeps _ (Keeps.rfl' _ _) (by decide)) (by decide)) rfl
  rw [exec_hostBar2Request, State.hostBar2_read_word hl h48 h8 hoff hbank,
    State.accessRead_scratchpad_clean h57 hfill h8 hoff h hc]
  rfl

end BarWord

end Sys2Proof.Machine
end

section
/-! How a transaction of the safety port runs (O48): the S frame, events, late accesses, and one equation a case. -/

namespace Sys2Proof.Machine

/-! The S frame (R454) -/

theorem crc16Bit_lt {c : Nat} (h : c < 65536) : crc16Bit c < 65536 := by
  rw [crc16Bit]
  split
  · exact Nat.xor_lt_two_pow (n := 16) (Nat.mod_lt _ (by decide)) (by decide)
  · omega

theorem crc16_lt (l : List Byte) : crc16 l < 65536 := by
  refine List.foldlRecOn (motive := (· < 65536)) l _ (by decide) fun c hc b _ => ?_
  refine List.foldlRecOn (motive := (· < 65536)) (List.range 8) _ ?_ fun _ hx _ _ => crc16Bit_lt hx
  have hb : b.toNat * 256 < 2 ^ 16 := by have := b.isLt; omega
  exact Nat.xor_lt_two_pow (n := 16) hc hb

/-- `f` is an S frame after the D frame `word`, with that response, flags 28 to 25 and count, and its own checksum (R454). -/
def IsSFrame (tcnt : Nat) (word f : Word) (resp flags : Nat) : Prop :=
  bitsOf f 31 29 = resp ∧ bitsOf f 28 24 = 2 * flags ∧ bitsOf f 23 16 = tcnt ∧
    crc16 (natBe 4 word.toNat ++ natBe 2 (f.toNat / 65536)) = bitsOf f 15 0

theorem State.spFrame_isSFrame (s : State) (d : Word) (r : Resp) {flags : Nat} (hf : flags < 16) (ht : s.tkt.tcnt < 256) :
    IsSFrame s.tkt.tcnt d (s.spFrame d r flags) (respCode r) flags := by
  have hr := respCode_lt r
  obtain ⟨top, htop⟩ : ∃ top, top = respCode r * 2 ^ 13 + flags * 2 ^ 9 + s.tkt.tcnt := ⟨_, rfl⟩
  have hcrc := crc16_lt (natBe 4 d.toNat ++ natBe 2 top)
  have hv : (s.spFrame d r flags).toNat = top * 65536 + crc16 (natBe 4 d.toNat ++ natBe 2 top) := by
    rw [State.spFrame, ← htop, BitVec.toNat_ofNat]
    exact Nat.mod_eq_of_lt (by omega)
  have hdiv : (s.spFrame d r flags).toNat / 65536 = top := by omega
  refine ⟨?_, ?_, ?_, ?_⟩
  · simp only [bitsOf, hv]; omega
  · simp only [bitsOf, hv]; omega
  · simp only [bitsOf, hv]; omega
  · rw [hdiv]; simp only [bitsOf, hv]; omega

/-! Events and late accesses (R455, R457) -/

/-- From `s` to `t` bit `b` of SP_STAT is set, the event is counted, and source 14 fires (R455). -/
def State.spEventSeen (s t : State) (b : Nat) : Prop :=
  t.bit Reg.SP_STAT b = true ∧ t.pends 14 = true ∧
    (t.reg Reg.SP_ERR_CNT).toNat = min ((s.reg Reg.SP_ERR_CNT).toNat + 1) (2 ^ 32 - 1)

theorem State.spEvent_seen (s : State) {b : Nat} (hb : b < 32) : s.spEventSeen (s.spEvent b) b := by
  refine ⟨?_, State.pends_fire_self _ 14, ?_⟩
  · rw [State.spEvent, State.bit_fire _ _ _ (by decide), State.bit_congr b (State.reg_satInc_other _ 31 0 (by decide)),
      State.bit_setBit_same _ _ _ hb]
  · rw [State.spEvent, State.reg_fire _ _ (by decide), State.reg_satInc_word, State.reg_setBit_other _ _ _ (by decide)]

@[simp] theorem State.spEvent_tkt (s : State) (b : Nat) : (s.spEvent b).tkt = s.tkt := by simp [State.spEvent]

theorem State.spAnswer_whole (s : State) (dEnd sEnd : Nat) (d : Option Word) (f : Word) :
    s.spAnswer none dEnd sEnd d f = s.emit (.miso d (some f)) := rfl

/-- `t` holds the access in SP_LATE, BUSY, and the transaction is counted (R457). -/
def State.spLateHeld (s t : State) (wr : Bool) (a : Nat) (v : Word) : Prop :=
  t.bit Reg.SP_LATE_STAT 31 = true ∧ t.bit Reg.SP_LATE_STAT 29 = wr ∧ t.fld Reg.SP_LATE_STAT 13 0 = a / 4 ∧
    t.tkt.late = some (wr, a, v) ∧ t.tkt.tcnt = (s.tkt.tcnt + 1) % 256

theorem State.spOccupied_iff (s : State) :
    s.spOccupied = true ↔ s.bit Reg.SP_LATE_STAT 31 = true ∨ s.bit Reg.SP_LATE_STAT 30 = true := by
  simp [State.spOccupied]

theorem State.spLate_of_occupied {s : State} (h : s.spOccupied = true) (wr : Bool) (a : Nat) (v : Word) :
    s.spLate wr a v = (s, 1) := if_pos h

/-- SP_LATE_STAT once an access is issued (R457). -/
def State.spLateBusy (s : State) (wr : Bool) (a : Nat) : State :=
  ((s.setBit Reg.SP_LATE_STAT 31 true).setBit Reg.SP_LATE_STAT 29 wr).setFld Reg.SP_LATE_STAT 13 0 (a / 4)

theorem State.spLateBusy_tkt (s : State) (wr : Bool) (a : Nat) : (s.spLateBusy wr a).tkt = s.tkt := by
  rw [State.spLateBusy, State.setFld_tkt, State.setBit_tkt, State.setBit_tkt]

/-- The transaction is counted, and its access stands in SP_LATE. -/
def State.spLateTaken (u : State) (wr : Bool) (a : Nat) (v : Word) : State :=
  { u.spCount with tkt := { u.spCount.tkt with late := some (wr, a, v) } }

theorem State.spLateTaken_reg (u : State) (wr : Bool) (a : Nat) (v : Word) (b : Nat) : (u.spLateTaken wr a v).reg b = u.reg b := rfl

theorem State.spLateTaken_tkt (u : State) (wr : Bool) (a : Nat) (v : Word) :
    (u.spLateTaken wr a v).tkt = { u.tkt with tcnt := (u.tkt.tcnt + 1) % 256, late := some (wr, a, v) } := rfl

theorem State.spLate_of_free {s : State} (h : s.spOccupied = false) (wr : Bool) (a : Nat) (v : Word) :
    s.spLate wr a v = ((s.spLateBusy wr a).spLateTaken wr a v, 2) := by
  rw [State.spLate, if_neg (by rw [h]; decide), State.spLateTaken, State.spLateBusy]

theorem State.spLateTaken_held (s : State) (wr : Bool) {a : Nat} (ha : a < 0x10000) (v : Word) :
    s.spLateHeld ((s.spLateBusy wr a).spLateTaken wr a v) wr a v := by
  have hreg : ((s.spLateBusy wr a).spLateTaken wr a v).reg Reg.SP_LATE_STAT = (s.spLateBusy wr a).reg Reg.SP_LATE_STAT :=
    State.spLateTaken_reg _ _ _ _ _
  refine ⟨(State.bit_congr 31 hreg).trans ?_, (State.bit_congr 29 hreg).trans ?_, (State.fld_congr 13 0 hreg).trans ?_, ?_, ?_⟩
  · rw [State.spLateBusy, State.bit_setFld_disjoint _ _ _ (by decide) (by decide) (by decide),
      State.bit_setBit_bit _ _ _ (by decide) (by decide), State.bit_setBit_same _ _ _ (by decide)]
  · rw [State.spLateBusy, State.bit_setFld_disjoint _ _ _ (by decide) (by decide) (by decide),
      State.bit_setBit_same _ _ _ (by decide)]
  · rw [State.spLateBusy, State.fld_setFld_same _ _ _ (by decide) (by decide)]
    omega
  · rw [State.spLateTaken_tkt]
  · rw [State.spLateTaken_tkt, s.spLateBusy_tkt]

theorem State.spLate_out (s : State) (wr : Bool) (a : Nat) (v : Word) : (s.spLate wr a v).1.out = s.out :=
  (State.spLate_keeps (fs := [.tkt, .block 0]) s wr a v (Keeps.rfl' _ s) (by decide)).only .out (by decide)

/-! The transactions (R453 to R457) -/

theorem exec_safetyPortRead (h : Word) (cut : Option Nat) (s : State) : exec (.safetyPortRead h cut) s =
    .next (if s.spLive && bitsOf h 31 30 == 1 then s.spReadTr h cut else s) := rfl

theorem exec_safetyPortWrite (h d c : Word) (cut : Option Nat) (rivals : List (Nat × Nat × Word)) (s : State) :
    exec (.safetyPortWrite h d c cut rivals) s =
      .next (if s.spLive && bitsOf h 31 30 == 2 then s.spWriteTr h d c cut rivals else s) := rfl

theorem exec_safetyPortNoAccess (h : Word) (cut : Option Nat) (s : State) : exec (.safetyPortNoAccess h cut) s =
    .next (if s.spLive && (bitsOf h 31 30 == 0 || bitsOf h 31 30 == 3) then s.spReadTr h cut else s) := rfl

theorem spHeaderOk_iff (h : Word) : spHeaderOk h = true ↔ crc16 (natBe 2 (h.toNat / 65536)) = h.toNat % 65536 := beq_iff_eq

theorem spHeaderAddr_lt (h : Word) : spHeaderAddr h < 0x10000 := by
  have := bitsOf_lt h 29 16
  simp only [spHeaderAddr]; omega

section ReadLayout

variable (s : State) {h : Word}

theorem State.spReadTr_badHeader (hb : spHeaderOk h = false) : s.spReadTr h none =
    (s.spEvent 1).emit (.miso (some 0) (some ((s.spEvent 1).spFrame 0 .slverr 8))) := by
  simp [State.spReadTr, cutBefore, hb, State.spAnswer_whole]

variable (hg : spHeaderOk h = true)
include hg

theorem State.spReadTr_noAccess (hc : bitsOf h 31 30 ≠ 1) : s.spReadTr h none =
    (s.spEvent 0).emit (.miso (some 0) (some ((s.spEvent 0).spFrame 0 .decerr 0))) := by
  simp [State.spReadTr, cutBefore, hg, hc, State.spAnswer_whole]

theorem State.spReadTr_late (hc : bitsOf h 31 30 = 1) (ht : throughTree (spHeaderAddr h) = true) : s.spReadTr h none =
    (s.spLate false (spHeaderAddr h) 0).1.emit (.miso (some 0) (some ((s.spLate false (spHeaderAddr h) 0).1.spFrame 0 .ok
      (s.spLate false (spHeaderAddr h) 0).2))) := by
  simp [State.spReadTr, cutBefore, hg, hc, ht, State.spAnswer_whole]

theorem State.spReadTr_inCycle (hc : bitsOf h 31 30 = 1) (hi : inCycle (spHeaderAddr h) = true) : s.spReadTr h none =
    (s.regRead (spHeaderAddr h)).1.spCount.emit (.miso (some (s.readValue (spHeaderAddr h)))
      (some ((s.regRead (spHeaderAddr h)).1.spCount.spFrame (s.readValue (spHeaderAddr h)) .ok 0))) := by
  simp [State.spReadTr, cutBefore, hg, hc, throughTree_of_inCycle hi, s.barRead_inCycle hi, State.spAnswer_whole]

end ReadLayout

section WriteLayout

variable (s : State) {h d c : Word} (rivals : List (Nat × Nat × Word))

theorem State.spWriteTr_badHeader (hb : spHeaderOk h = false) : s.spWriteTr h d c none rivals =
    (s.spEvent 1).emit (.miso none (some ((s.spEvent 1).spFrame d .slverr 8))) := by
  simp [State.spWriteTr, cutBefore, hb, State.spAnswer_whole]

variable (hg : spHeaderOk h = true)
include hg

theorem State.spWriteTr_cut {n : Nat} (hn : n < 96) : s.spWriteTr h d c (some n) rivals = (s.spEvent 3).emit (.miso none none) := by
  have h130 : n < 130 := by omega
  simp [State.spWriteTr, cutBefore, hg, hn, h130, State.spAnswer]

theorem State.spWriteTr_badData (hb : crc16 (natBe 4 d.toNat) ≠ bitsOf c 31 16) : s.spWriteTr h d c none rivals =
    (s.spEvent 2).emit (.miso none (some ((s.spEvent 2).spFrame d .slverr 4))) := by
  simp [State.spWriteTr, cutBefore, hg, hb, State.spAnswer_whole]

variable (hd : crc16 (natBe 4 d.toNat) = bitsOf c 31 16)
include hd

theorem State.spWriteTr_late (ht : throughTree (spHeaderAddr h) = true) : s.spWriteTr h d c none rivals =
    (s.spLate true (spHeaderAddr h) d).1.emit (.miso none (some ((s.spLate true (spHeaderAddr h) d).1.spFrame d .ok
      (s.spLate true (spHeaderAddr h) d).2))) := by
  simp [State.spWriteTr, cutBefore, hg, hd, ht, State.spAnswer_whole]

theorem State.spWriteTr_inCycle (hi : inCycle (spHeaderAddr h) = true) : s.spWriteTr h d c none [] =
    (s.regWrite 6 (spHeaderAddr h) d []).1.spCount.emit (.miso none (some ((s.regWrite 6 (spHeaderAddr h) d []).1.spCount.spFrame d
      (s.regWrite 6 (spHeaderAddr h) d []).2 0))) := by
  simp [State.spWriteTr, cutBefore, hg, hd, throughTree_of_inCycle hi, s.barWrite_inCycle hi, State.spAnswer_whole]

end WriteLayout

end Sys2Proof.Machine
end

section
/-! Proofs about the transactions of the safety port (O48), clause by clause. -/

namespace Sys2Proof.Machine

theorem Does.mono {c : Instr} {s : State} {fs : List Zone} {p q : State → Prop} (h : Does c s fs p) (hpq : ∀ t, p t → q t) :
    Does c s fs q := by
  obtain ⟨t, he, ho, hp⟩ := h
  exact ⟨t, he, ho, hpq t hp⟩

/-! The frames driven -/

/-- In `t` the port has driven `m` and an S frame after the D frame `word`, after the outputs `o`. -/
def State.drives (t : State) (o : List Out) (m : Option Word) (word : Word) (resp flags : Nat) : Prop :=
  ∃ f, t.out = o ++ [Out.miso m (some f)] ∧ IsSFrame t.tkt.tcnt word f resp flags

theorem State.emit_drives (u : State) (m : Option Word) (word : Word) (r : Resp) {flags : Nat} (hf : flags < 16)
    (ht : u.tkt.tcnt < 256) : (u.emit (.miso m (some (u.spFrame word r flags)))).drives u.out m word (respCode r) flags :=
  ⟨_, rfl, u.spFrame_isSFrame word r hf ht⟩

theorem State.drives.mem {t : State} {o : List Out} {m : Option Word} {word : Word} {resp flags : Nat}
    (h : t.drives o m word resp flags) : ∃ f, Out.miso m (some f) ∈ t.out ∧ IsSFrame t.tkt.tcnt word f resp flags := by
  obtain ⟨f, ho, hf⟩ := h
  exact ⟨f, ho ▸ List.mem_append_right _ List.mem_cons_self, hf⟩

theorem State.spEventSeen_emit {s u : State} {b : Nat} (o : Out) (h : s.spEventSeen u b) : s.spEventSeen (u.emit o) b := h

theorem State.spLateHeld_emit {s u : State} {wr : Bool} {a : Nat} {v : Word} (o : Out) (h : s.spLateHeld u wr a v) :
    s.spLateHeld (u.emit o) wr a v := h

section Answers

variable {c : Instr} {s : State} {m : Option Word} {d : Word}

/-- A transaction that ends in an event of SP_STAT and an S frame. -/
theorem does_spEvent (r : Resp) {b flags : Nat} (hb : b < 32) (hf : flags < 16) (ht : s.tkt.tcnt < 256)
    (he : exec c s = .next ((s.spEvent b).emit (.miso m (some ((s.spEvent b).spFrame d r flags))))) :
    Does c s [.block 0, .block 1, .out] fun t => s.spEventSeen t b ∧ t.tkt.tcnt = s.tkt.tcnt ∧
      ∃ f, Out.miso m (some f) ∈ t.out ∧ IsSFrame t.tkt.tcnt d f (respCode r) flags := by
  refine does_of_keeps he (State.emit_keeps _ _ (State.spEvent_keeps _ _ (Keeps.rfl' _ _) (by decide)) (by decide))
    ⟨State.spEventSeen_emit _ (s.spEvent_seen hb), ?_, (State.emit_drives _ m d r hf ?_).mem⟩
  · rw [State.emit_tkt, State.spEvent_tkt]
  · rwa [State.spEvent_tkt]

variable {wr : Bool} {a : Nat} {v : Word} (he : exec c s = .next ((s.spLate wr a v).1.emit
  (.miso m (some ((s.spLate wr a v).1.spFrame d .ok (s.spLate wr a v).2)))))
include he

/-- An access issued to the tree is answered at once with LATE (R457). -/
theorem does_spLate_issued (ho : s.spOccupied = false) (ha : a < 0x10000) : Does c s [.out, .block 0, .tkt] fun t =>
    s.spLateHeld t wr a v ∧ t.drives s.out m d 0 2 := by
  have hheld := s.spLateTaken_held wr ha v
  have hout := s.spLate_out wr a v
  have hk : Keeps [.out, .block 0, .tkt] s (s.spLate wr a v).1 := State.spLate_keeps _ _ _ _ (Keeps.rfl' _ _) (by decide)
  rw [State.spLate_of_free ho] at he hout hk
  obtain ⟨-, -, -, -, htcnt⟩ := hheld
  have hdrives := State.emit_drives ((s.spLateBusy wr a).spLateTaken wr a v) m d .ok (flags := 2) (by decide) (by omega)
  rw [hout] at hdrives
  exact does_of_keeps he (State.emit_keeps _ _ hk (by decide)) ⟨State.spLateHeld_emit _ (s.spLateTaken_held wr ha v), hdrives⟩

/-- While SP_LATE is occupied an access is held (R457). -/
theorem does_spLate_heldBack (ho : s.spOccupied = true) (ht : s.tkt.tcnt < 256) : Does c s [.out] fun t =>
    t.drives s.out m d 0 1 := by
  rw [State.spLate_of_occupied ho] at he
  exact does_of_keeps he (State.emit_keeps _ _ (Keeps.rfl' _ _) (by decide)) (s.emit_drives m d .ok (flags := 1) (by decide) ht)

end Answers

/-! Reads -/

section Transactions

variable {s : State} {h : Word}

theorem exec_safetyPort_dead (hup : s.spLive = false) (d c : Word) (cut : Option Nat) (rivals : List (Nat × Nat × Word)) :
    exec (.safetyPortRead h cut) s = .next s ∧ exec (.safetyPortWrite h d c cut rivals) s = .next s ∧
      exec (.safetyPortNoAccess h cut) s = .next s := by
  simp [exec_safetyPortRead, exec_safetyPortWrite, exec_safetyPortNoAccess, hup]

variable (hup : s.spLive = true)
include hup

theorem exec_safetyPortRead_live (hc : bitsOf h 31 30 = 1) (cut : Option Nat) :
    exec (.safetyPortRead h cut) s = .next (s.spReadTr h cut) := by
  rw [exec_safetyPortRead, hup, hc]; rfl

theorem exec_safetyPortWrite_live (hc : bitsOf h 31 30 = 2) (d c : Word) (cut : Option Nat) (rivals : List (Nat × Nat × Word)) :
    exec (.safetyPortWrite h d c cut rivals) s = .next (s.spWriteTr h d c cut rivals) := by
  rw [exec_safetyPortWrite, hup, hc]; rfl

theorem exec_safetyPortNoAccess_live (hc : bitsOf h 31 30 = 0 ∨ bitsOf h 31 30 = 3) (cut : Option Nat) :
    exec (.safetyPortNoAccess h cut) s = .next (s.spReadTr h cut) := by
  rw [exec_safetyPortNoAccess, hup]
  rcases hc with hc | hc <;> rw [hc] <;> rfl

theorem safetyPortRead_badHeader (ht : s.tkt.tcnt < 256) (hc : bitsOf h 31 30 = 1) (hb : spHeaderOk h = false) :
    Does (.safetyPortRead h none) s [.block 0, .block 1, .out] fun t => s.spEventSeen t 1 ∧ t.tkt.tcnt = s.tkt.tcnt ∧
      ∃ f, Out.miso (some 0) (some f) ∈ t.out ∧ IsSFrame t.tkt.tcnt 0 f 2 8 :=
  does_spEvent .slverr (by decide) (by decide) ht (by rw [exec_safetyPortRead_live hup hc, s.spReadTr_badHeader hb])

theorem safetyPortWrite_badHeader (ht : s.tkt.tcnt < 256) (hc : bitsOf h 31 30 = 2) (hb : spHeaderOk h = false) (d c : Word) :
    Does (.safetyPortWrite h d c none []) s [.block 0, .block 1, .out] fun t => s.spEventSeen t 1 ∧ t.tkt.tcnt = s.tkt.tcnt ∧
      ∃ f, Out.miso none (some f) ∈ t.out ∧ IsSFrame t.tkt.tcnt d f 2 8 :=
  does_spEvent .slverr (by decide) (by decide) ht (by rw [exec_safetyPortWrite_live hup hc, s.spWriteTr_badHeader [] hb])

variable (hg : spHeaderOk h = true)
include hg

theorem safetyPortRead_inCycle (hc : bitsOf h 31 30 = 1) (hi : inCycle (spHeaderAddr h) = true) :
    Does (.safetyPortRead h none) s [.out, .block 0, .tkt, .free] fun t => t.tkt.tcnt = (s.tkt.tcnt + 1) % 256 ∧
      t.drives s.out (some (s.readValue (spHeaderAddr h))) (s.readValue (spHeaderAddr h)) 0 0 := by
  have htcnt : (s.regRead (spHeaderAddr h)).1.spCount.tkt.tcnt = (s.tkt.tcnt + 1) % 256 := by
    rw [State.spCount, s.regRead_inCycle_tkt hi]
  have hout : (s.regRead (spHeaderAddr h)).1.spCount.out = s.out := s.regRead_inCycle_out hi
  have hdrives := State.emit_drives (s.regRead (spHeaderAddr h)).1.spCount (some (s.readValue (spHeaderAddr h)))
    (s.readValue (spHeaderAddr h)) .ok (flags := 0) (by decide) (by omega)
  rw [hout] at hdrives
  have he := exec_safetyPortRead_live hup hc none
  rw [s.spReadTr_inCycle hg hc hi] at he
  refine does_of_keeps he (State.emit_keeps _ _ ?_ (by decide)) ⟨htcnt, hdrives⟩
  exact State.spCount_keeps _ (State.regRead_inCycle_keeps _ hi (Keeps.rfl' _ _) (by decide)) (by decide)

theorem safetyPortRead_issued (hc : bitsOf h 31 30 = 1) (hx : throughTree (spHeaderAddr h) = true) (ho : s.spOccupied = false) :
    Does (.safetyPortRead h none) s [.out, .block 0, .tkt] fun t => s.spLateHeld t false (spHeaderAddr h) 0 ∧
      t.drives s.out (some 0) 0 0 2 :=
  does_spLate_issued (by rw [exec_safetyPortRead_live hup hc, s.spReadTr_late hg hc hx]) ho (spHeaderAddr_lt h)

theorem safetyPortRead_heldBack (ht : s.tkt.tcnt < 256) (hc : bitsOf h 31 30 = 1) (hx : throughTree (spHeaderAddr h) = true)
    (ho : s.spOccupied = true) : Does (.safetyPortRead h none) s [.out] fun t => t.drives s.out (some 0) 0 0 1 :=
  does_spLate_heldBack (by rw [exec_safetyPortRead_live hup hc, s.spReadTr_late hg hc hx]) ho ht

theorem safetyPortNoAccess_event (ht : s.tkt.tcnt < 256) (hc : bitsOf h 31 30 = 0 ∨ bitsOf h 31 30 = 3) :
    Does (.safetyPortNoAccess h none) s [.block 0, .block 1, .out] fun t => s.spEventSeen t 0 ∧ t.tkt.tcnt = s.tkt.tcnt ∧
      ∃ f, Out.miso (some 0) (some f) ∈ t.out ∧ IsSFrame t.tkt.tcnt 0 f 1 0 :=
  does_spEvent .decerr (by decide) (by decide) ht
    (by rw [exec_safetyPortNoAccess_live hup hc, s.spReadTr_noAccess hg (by omega)])

/-! Writes -/

variable (hc : bitsOf h 31 30 = 2) {d c : Word}
include hc

theorem safetyPortWrite_cut {n : Nat} (hn : n < 96) (rivals : List (Nat × Nat × Word)) :
    Does (.safetyPortWrite h d c (some n) rivals) s [.block 0, .block 1, .out] fun t => s.spEventSeen t 3 ∧
      Out.miso none none ∈ t.out ∧ t.tkt = s.tkt := by
  refine does_of_keeps (by rw [exec_safetyPortWrite_live hup hc, s.spWriteTr_cut rivals hg hn])
    (State.emit_keeps _ _ (State.spEvent_keeps _ _ (Keeps.rfl' _ _) (by decide)) (by decide))
    ⟨State.spEventSeen_emit _ (s.spEvent_seen (by decide)), List.mem_append_right _ List.mem_cons_self, ?_⟩
  rw [State.emit_tkt, State.spEvent_tkt]

theorem safetyPortWrite_badData (ht : s.tkt.tcnt < 256) (hb : crc16 (natBe 4 d.toNat) ≠ bitsOf c 31 16) :
    Does (.safetyPortWrite h d c none []) s [.block 0, .block 1, .out] fun t => s.spEventSeen t 2 ∧ t.tkt.tcnt = s.tkt.tcnt ∧
      ∃ f, Out.miso none (some f) ∈ t.out ∧ IsSFrame t.tkt.tcnt d f 2 4 :=
  does_spEvent .slverr (by decide) (by decide) ht (by rw [exec_safetyPortWrite_live hup hc, s.spWriteTr_badData [] hg hb])

variable (hd : crc16 (natBe 4 d.toNat) = bitsOf c 31 16)
include hd

theorem safetyPortWrite_issued (hx : throughTree (spHeaderAddr h) = true) (ho : s.spOccupied = false) :
    Does (.safetyPortWrite h d c none []) s [.out, .block 0, .tkt] fun t => s.spLateHeld t true (spHeaderAddr h) d ∧
      t.drives s.out none d 0 2 :=
  does_spLate_issued (by rw [exec_safetyPortWrite_live hup hc, s.spWriteTr_late [] hg hd hx]) ho (spHeaderAddr_lt h)

theorem safetyPortWrite_heldBack (ht : s.tkt.tcnt < 256) (hx : throughTree (spHeaderAddr h) = true)
    (ho : s.spOccupied = true) : Does (.safetyPortWrite h d c none []) s [.out] fun t => t.drives s.out none d 0 1 :=
  does_spLate_heldBack (by rw [exec_safetyPortWrite_live hup hc, s.spWriteTr_late [] hg hd hx]) ho ht

/-- A write of an in-cycle register is the register write of INIT 6, counted and answered (R456). -/
theorem safetyPortWrite_inCycle (hi : inCycle (spHeaderAddr h) = true) :
    ∃ u t, exec (.registerWrite 6 (spHeaderAddr h) d) s = .next u ∧ exec (.safetyPortWrite h d c none []) s = .next t ∧
      t = { u with tkt := { u.tkt with tcnt := (u.tkt.tcnt + 1) % 256 }, out := t.out } ∧
      t.drives u.out none d (respCode (s.regWrite 6 (spHeaderAddr h) d []).2) 0 := by
  have hlt := lt_of_inCycle hi
  refine ⟨(s.regWrite 6 (spHeaderAddr h) d []).1, _, exec_registerWrite_of_allowed (by omega),
    by rw [exec_safetyPortWrite_live hup hc, s.spWriteTr_inCycle hg hd hi], rfl, ?_⟩
  exact State.emit_drives (s.regWrite 6 (spHeaderAddr h) d []).1.spCount none d (s.regWrite 6 (spHeaderAddr h) d []).2
    (by decide) (Nat.mod_lt _ (by decide))

end Transactions

end Sys2Proof.Machine
end

section
/-! Proofs about the responses to the safety port's late accesses (O48), and O48. -/

namespace Sys2Proof.Machine

/-! A read of a register on its way through the tree (R331, R346, R355) -/

theorem portOf_register {k : Nat} (usable : Nat) (hk : k < 0x1000000) : portOf usable (0x2000000 + k) = some (regPort k) := by
  rw [portOf, if_neg (by omega), if_neg (by omega), if_pos (by omega), Nat.add_sub_cancel_left]

theorem regPort_treeBlocks {a : Nat} (hlo : 0x2000 ≤ a) (hhi : a < 0xA000) : regPort a = 53 ∨ regPort a = 59 := by
  rw [regPort, if_neg (by omega)]
  split
  · exact .inl rfl
  · rw [if_neg (by omega), if_neg (by omega)]
    exact .inr rfl

theorem leNat_natLe (n v : Nat) : leNat (natLe n v) = v % 256 ^ n := by
  induction n generalizing v with
  | zero => simp [natLe, leNat, Nat.mod_one]
  | succ n ih =>
    rw [natLe, leNat, ih, BitVec.toNat_ofNat, pow_succ' 256 n]
    exact Nat.mod_mul.symm

section LateRead

variable {s : State} {a : Nat} (h4 : a % 4 = 0) (hlo : 0x2000 ≤ a) (hhi : a < 0xA000)
include h4

/-- A read of one register: its four bytes, and the effects of the read. -/
theorem State.regBytes_one : s.regBytes a 4 = ((s.regRead a).1, natLe 4 (s.readValue a).toNat) := by
  have hdiv : a / 4 * 4 = a := by omega
  simp [State.regBytes, h4, hdiv, State.regReads, State.regRead_snd, List.take_of_length_le, natLe_length]

include hlo hhi

theorem State.route_lateRead (src ini : Nat) (hf : s.fence (regPort a) = 0) :
    s.route s.ddrUsable src ini 0 (0x2000000 + a) 4 false =
      if s.fwAllows ini (0x2000000 + a) 4 false then (s, .inl (regPort a))
      else (s.fwDenied ini (0x2000000 + a) false, .inr .denied) := by
  refine State.route_plain (portOf_register _ (by omega)) (q := regPort (a + 3)) ?_ (decide_eq_false (by omega)) hf ?_
  · rw [show 0x2000000 + a + (4 - 1) = 0x2000000 + (a + 3) by omega]
    exact portOf_register _ (by omega)
  · have hcross : (0x2000000 + a) / 256 = (0x2000000 + a + 3) / 256 := by omega
    have hport : regPort a ≠ 57 := by rcases regPort_treeBlocks hlo hhi with h | h <;> omega
    have hmod : (0x2000000 + a) % 4 = 0 := by omega
    simp [malformed, hcross, hport, hmod]

theorem State.accessRead_late_denied (src ini : Nat) (hf : s.fence (regPort a) = 0)
    (h : s.fwAllows ini (0x2000000 + a) 4 false = false) :
    s.accessRead src ini (0x2000000 + a) 4 = (s.fwDenied ini (0x2000000 + a) false, .denied, []) := by
  rw [State.accessRead, State.route_lateRead h4 hlo hhi src ini hf, h]
  rfl

theorem State.accessRead_late_allowed (src ini : Nat) (hf : s.fence (regPort a) = 0)
    (h : s.fwAllows ini (0x2000000 + a) 4 false = true) :
    s.accessRead src ini (0x2000000 + a) 4 = ((s.regRead a).1, .ok, natLe 4 (s.readValue a).toNat) := by
  rw [State.accessRead, State.route_lateRead h4 hlo hhi src ini hf, h]
  rcases regPort_treeBlocks hlo hhi with hp | hp <;> simp [hp, State.readAt, State.regBytes_one h4]

theorem State.treeRead_denied (ini : Nat) (hf : s.fence (regPort a) = 0)
    (h : s.fwAllows ini (0x2000000 + a) 4 false = false) :
    s.treeRead ini a false = (s.fwDenied ini (0x2000000 + a) false, .denied, 0) := by
  rw [State.treeRead, State.accessRead_late_denied h4 hlo hhi 49 ini hf h]
  rfl

theorem State.treeRead_allowed (ini : Nat) (hf : s.fence (regPort a) = 0)
    (h : s.fwAllows ini (0x2000000 + a) 4 false = true) :
    s.treeRead ini a false = ((s.regRead a).1, .ok, s.readValue a) := by
  have hv : (s.readValue a).toNat % 256 ^ 4 = (s.readValue a).toNat := Nat.mod_eq_of_lt (s.readValue a).isLt
  rw [State.treeRead, State.accessRead_late_allowed h4 hlo hhi 49 ini hf h]
  simp only [Bool.false_eq_true, if_false, leNat_natLe, hv, BitVec.ofNat_toNat, BitVec.setWidth_eq]

theorem State.treeRead_timeout (ini : Nat) (hf : s.fence (regPort a) = 0)
    (h : s.fwAllows ini (0x2000000 + a) 4 false = true) :
    s.treeRead ini a true = (s.maybe (s.regRead a).1 ini (0x2000000 + a), .timeout, 0) := by
  rw [State.treeRead, State.accessRead_late_allowed h4 hlo hhi 49 ini hf h]
  rfl

end LateRead

/-! The response placed in SP_LATE (R457) -/

/-- The access in SP_LATE is answered: BUSY gives way to DONE, and the response and the data are shown. -/
def State.spLatePlace (u : State) (e : Resp) (d : Word) : State :=
  (((State.setFld { u with tkt := { u.tkt with late := none } } Reg.SP_LATE_STAT 31 30 1).setFld Reg.SP_LATE_STAT 18 16
    (respCode e)).setReg Reg.SP_LATE_DATA d).useFree

/-- In `t` SP_LATE is DONE with that response, and holds no access. -/
def State.spLatePlaced (t : State) (resp : Nat) : Prop :=
  t.tkt.late = none ∧ t.bit Reg.SP_LATE_STAT 31 = false ∧ t.bit Reg.SP_LATE_STAT 30 = true ∧ t.fld Reg.SP_LATE_STAT 18 16 = resp

/-- A change of what the Ticket office holds beside its registers. -/
theorem Keeps.withTkt {fs : List Zone} {s0 s : State} (h : Keeps fs s0 s) (x : To) (hx : Zone.inList .tkt fs = true) :
    Keeps fs s0 { s with tkt := x } where
  only f hf := by
    have h0 := h.only f hf
    cases f
    case tkt => exact absurd hx (by simp [hf])
    all_goals exact h0
  canon := h.canon
  queue := h.queue
  out := h.out

theorem State.spLatePlace_keeps {fs : List Zone} {s0 : State} (u : State) (e : Resp) (d : Word) (h1 : Keeps fs s0 u)
    (hF : subF [.block 0, .tkt, .free] fs = true) : Keeps fs s0 (u.spLatePlace e d) := by
  refine State.useFree_keeps _ (setReg_keeps _ _ (setFld_keeps _ _ _ _ (setFld_keeps _ _ _ _ ?_ (alwB hF 0 rfl (by decide)))
    (alwB hF 0 rfl (by decide))) (alwB hF 0 rfl (by decide))) (subF_trans (by decide) hF)
  exact h1.withTkt _ (alw hF (by decide))

theorem State.spLatePlace_placed (u : State) (e : Resp) (d : Word) : (u.spLatePlace e d).spLatePlaced (respCode e) := by
  refine ⟨?_, ?_, ?_, ?_⟩
  · rw [State.spLatePlace, State.useFree_tkt, State.setReg_tkt, State.setFld_tkt, State.setFld_tkt]
  · rw [State.spLatePlace, State.bit_useFree, State.bit_setReg_other _ _ _ (by decide),
      State.bit_setFld_disjoint _ _ _ (by decide) (by decide) (by decide), State.bit, State.reg_setFld_same,
      putBits_getLsbD _ _ _ (by decide) (by decide)]
    rfl
  · rw [State.spLatePlace, State.bit_useFree, State.bit_setReg_other _ _ _ (by decide),
      State.bit_setFld_disjoint _ _ _ (by decide) (by decide) (by decide), State.bit, State.reg_setFld_same,
      putBits_getLsbD _ _ _ (by decide) (by decide)]
    rfl
  · rw [State.spLatePlace, State.fld_useFree, State.fld_setReg_other _ _ _ _ (by decide),
      State.fld_setFld_same _ _ _ (by decide) (by decide)]
    exact Nat.mod_eq_of_lt (respCode_lt e)

theorem State.spLatePlace_data (u : State) (e : Resp) (d : Word) : (u.spLatePlace e d).reg Reg.SP_LATE_DATA = d := by
  rw [State.spLatePlace, State.reg_useFree, State.reg_setReg_same]

theorem exec_spLateDone (timeout : Bool) (rivals : List (Nat × Nat × Word)) (s : State) :
    exec (.spLateDone timeout rivals) s = .next (s.spLateDone timeout rivals) := rfl

theorem exec_spLateDone_idle {s : State} (h : s.tkt.late = none ∨ s.fence 49 ≠ 0) (timeout : Bool)
    (rivals : List (Nat × Nat × Word)) : exec (.spLateDone timeout rivals) s = .next s := by
  rw [exec_spLateDone, State.spLateDone]
  rcases h with h | h
  · rw [h]
  · cases hl : s.tkt.late with
    | none => rfl
    | some x => simp [h]

theorem State.spLateDone_read {s : State} {a : Nat} {v : Word} (hl : s.tkt.late = some (false, a, v)) (h49 : s.fence 49 = 0)
    (timeout : Bool) (rivals : List (Nat × Nat × Word)) : s.spLateDone timeout rivals =
      (s.treeRead 6 a timeout).1.spLatePlace (s.treeRead 6 a timeout).2.1
        (if (s.treeRead 6 a timeout).2.1 = .ok then (s.treeRead 6 a timeout).2.2
          else Config.freeWord (s.treeRead 6 a timeout).1.free 0) := by
  rw [State.spLateDone, hl]
  simp [h49, State.spLatePlace]

/-- What stands in the interrupt controller's block stays when the response is placed. -/
theorem State.spLatePlace_pends (u : State) (e : Resp) (d : Word) (i : Nat) : (u.spLatePlace e d).pends i = u.pends i := by
  have hk := State.spLatePlace_keeps (fs := [.block 0, .tkt, .free]) u e d (Keeps.rfl' _ u) (by decide)
  have hb : blockOf (icReg Reg.IC_PEND i) = 1 := by
    have := Nat.mod_lt (i / 32) (by decide : 4 > 0)
    exact blockOf_eq 1 0 (by decide) (by simp only [icReg, Reg.IC_PEND]; omega)
  exact State.bit_congr _ (hk.only (.block 1) (by decide) _ hb)

/-- A request that has timed out leaves source 82 pending (R346). -/
theorem State.pends_maybe (s u : State) (ini addr : Nat) : (s.maybe u ini addr).pends 82 = true := by
  rw [State.maybe, State.accessTimeout]
  exact State.pends_fire_self _ 82

section LateDone

variable {s : State} {a : Nat} {v : Word} (hl : s.tkt.late = some (false, a, v)) (h49 : s.fence 49 = 0) (h4 : a % 4 = 0)
  (hlo : 0x2000 ≤ a) (hhi : a < 0xA000) (hf : s.fence (regPort a) = 0) (rivals : List (Nat × Nat × Word))
include hl h49 h4 hlo hhi hf

theorem spLateDone_denied (h : s.fwAllows 6 (0x2000000 + a) 4 false = false) :
    Does (.spLateDone false rivals) s [.block 9, .block 0, .block 1, .out, .tkt, .free] fun t => t.spLatePlaced 6 := by
  have he := exec_spLateDone false rivals s
  rw [State.spLateDone_read hl h49, State.treeRead_denied h4 hlo hhi 6 hf h] at he
  exact does_of_keeps he (State.spLatePlace_keeps _ _ _ (State.fwDenied_keeps _ _ _ _ (Keeps.rfl' _ _) (by decide)) (by decide))
    (State.spLatePlace_placed _ .denied _)

variable (hrc : ∀ r, regRow? a = some r → r.rc = 0) (hne : a ≠ Reg.FAB_RB_DATA)
  (h : s.fwAllows 6 (0x2000000 + a) 4 false = true)
include hrc hne h

theorem spLateDone_read : Does (.spLateDone false rivals) s [.block 0, .tkt, .free] fun t => t.spLatePlaced 0 ∧
    t.reg Reg.SP_LATE_DATA = s.readValue a := by
  have he := exec_spLateDone false rivals s
  rw [State.spLateDone_read hl h49, State.treeRead_allowed h4 hlo hhi 6 hf h,
    s.regRead_fst_of_noRc (by omega) hne hrc] at he
  exact does_of_keeps he (State.spLatePlace_keeps _ _ _ (State.useFree_keeps _ (Keeps.rfl' _ _) (by decide)) (by decide))
    ⟨State.spLatePlace_placed _ .ok _, State.spLatePlace_data _ _ _⟩

theorem spLateDone_timeout : Does (.spLateDone true rivals) s [.block 0, .block 1, .block 18, .out, .tkt, .free] fun t =>
    t.spLatePlaced 3 ∧ t.pends 82 = true := by
  have he := exec_spLateDone true rivals s
  rw [State.spLateDone_read hl h49, State.treeRead_timeout h4 hlo hhi 6 hf h,
    s.regRead_fst_of_noRc (by omega) hne hrc] at he
  refine does_of_keeps he (State.spLatePlace_keeps _ _ _ ?_ (by decide)) ⟨State.spLatePlace_placed _ .timeout _, ?_⟩
  · exact State.maybe_keeps _ _ _ _ (Keeps.rfl' _ _) (State.useFree_keeps _ (Keeps.rfl' _ _) (by decide)) (by decide)
  · rw [State.spLatePlace_pends, State.pends_maybe]

end LateDone

/-- Settles O48: each clause is one of the rules above, by the kind of request, where it leads and what it fails. -/
theorem hostRequestsAndSafetyPort : Obligations.HostRequestsAndSafetyPort := by
  intro s live unsupported recorded
  have hdead : ¬ live → s.barLive = false := State.barLive_eq_false
  have halive : live → s.barLive = true := s.barLive_iff.mpr
  refine ⟨?bar0, ?bar2, ?doubleword, ?word, ?port, fun h tmo rivals => exec_spLateDone_idle h tmo rivals, ?late⟩
  case bar0 =>
    intro kind off dws rivals tmo c
    refine ⟨fun hn hk => ?_, fun hn hk => does_unsupported ?_, fun hl hk h49 => does_unsupported ?_⟩
    · rw [exec_hostBar0Request, State.hostBar0_notLive (hdead hn), if_pos hk]
    · rw [exec_hostBar0Request, State.hostBar0_notLive (hdead hn), if_neg hk]
    · rw [exec_hostBar0Request, hk, State.hostBar0_atomic (halive hl) h49]
  case bar2 =>
    intro kind off len data met rivals tmo c
    refine ⟨fun hn hk => ?_, fun hn hk => does_unsupported ?_, fun hl hk => does_unsupported ?_, fun hl hk h48 => ?_⟩
    · rw [exec_hostBar2Request, State.hostBar2_notLive (hdead hn), if_pos hk]
    · rw [exec_hostBar2Request, State.hostBar2_notLive (hdead hn), if_neg hk]
    · rw [exec_hostBar2Request, hk, State.hostBar2_atomic (halive hl)]
    · rw [exec_hostBar2Request, State.hostBar2_fenced (halive hl) h48 hk]
  case doubleword =>
    intro hlive off v h4 hoff write read
    have hl := halive hlive
    refine ⟨hostBar0_write_inCycle hl h4 v, hostBar0_write_denied hl h4 v,
      fun be h0 hF h => hostBar0_write_someBytes hl h4 hoff v h0 hF h, hostBar0_write_noBytes hl h4 hoff v,
      fun hin => hostBar0_read_inCycle hl h4 hin _, ?chipId,
      fun hlo hhi => ⟨hostBar0_write_outside hl h4 hlo hhi v, hostBar0_read_outside hl h4 hlo hhi _⟩, fun hin hout h49 => ?fenced⟩
    case chipId =>
      rintro rfl h
      exact hostBar0_read_chipId hl h _
    case fenced =>
      have ht := (throughTree_iff off).mpr ⟨hin, hout⟩
      exact ⟨congrArg _ (State.hostBar0_one_fenced hl h4 hoff ht h49 _), congrArg _ (State.hostBar0_one_fenced hl h4 hoff ht h49 _)⟩
  case word =>
    intro hlive h48 h57 hfill off d h8 hoff hbank k write word
    have hl := halive hlive
    exact ⟨hostBar2_write_allowed hl h48 h57 hfill h8 hoff hbank d, hostBar2_write_denied hl h48 h57 h8 hoff hbank d,
      hostBar2_read_allowed hl h48 h57 hfill h8 hoff hbank, hostBar2_read_denied hl h48 h57 h8 hoff hbank⟩
  case port =>
    intro h d c cut rivals good whole a cmd up event frame reads wrote occupied counted outer late rd wr faults ht
    have hgood : good → spHeaderOk h = true := (spHeaderOk_iff h).mpr
    have hbad : ¬ good → spHeaderOk h = false := fun hb => Bool.eq_false_iff.mpr fun hg => hb ((spHeaderOk_iff h).mp hg)
    have htree : outer → throughTree (spHeaderAddr h) = true := (throughTree_iff _).mpr
    have hocc : occupied → s.spOccupied = true := s.spOccupied_iff.mpr
    have hfree : ¬ occupied → s.spOccupied = false := fun ho => Bool.eq_false_iff.mpr fun hg => ho (s.spOccupied_iff.mp hg)
    have hheld : ∀ t w v, v = (if w then d else 0) → s.spLateHeld t w a v → late t w := by
      rintro t w v rfl ⟨hbusy, hwr, haddr, hlate, hcnt⟩
      exact ⟨hbusy, hwr, haddr, hlate, hcnt⟩
    refine ⟨fun hn => ?dead, fun hup hc hg hi => safetyPortRead_inCycle hup (hgood hg) hc hi,
      fun hup hc hg ho hf => ?readIssued, fun hup hc hg ho hf => safetyPortRead_heldBack hup (hgood hg) ht hc (htree ho) (hocc hf),
      fun hup hc hb => safetyPortRead_badHeader hup ht hc (hbad hb), fun hup hc hg => ?noAccess,
      fun hup hc hg hd hi => safetyPortWrite_inCycle hup (hgood hg) hc hd hi, fun hup hc hg hd ho hf => ?writeIssued,
      fun hup hc hg hd ho hf => safetyPortWrite_heldBack hup (hgood hg) hc hd ht (htree ho) (hocc hf),
      fun hup hc hg hd => ?badData, fun hup hc hb => ?badHeader, fun hup hc hg n hn => safetyPortWrite_cut hup (hgood hg) hc hn rivals⟩
    case dead => exact exec_safetyPort_dead (Bool.eq_false_iff.mpr hn) d c cut rivals
    case readIssued =>
      exact (safetyPortRead_issued hup (hgood hg) hc (htree ho) (hfree hf)).mono fun t ⟨h1, h2⟩ => ⟨hheld t false 0 rfl h1, h2⟩
    case noAccess =>
      exact (safetyPortNoAccess_event hup (hgood hg) ht hc).mono fun t ⟨h1, _, h3⟩ => ⟨h1, h3⟩
    case writeIssued =>
      exact (safetyPortWrite_issued hup (hgood hg) hc hd (htree ho) (hfree hf)).mono fun t ⟨h1, h2⟩ => ⟨hheld t true d rfl h1, h2⟩
    case badData =>
      exact (safetyPortWrite_badData hup (hgood hg) hc ht hd).mono fun t ⟨h1, _, h3⟩ => ⟨h1, h3⟩
    case badHeader =>
      exact (safetyPortWrite_badHeader hup ht hc (hbad hb) d c).mono fun t ⟨h1, _, h3⟩ => ⟨h1, h3⟩
  case late =>
    intro a r rivals hl h49 hr h4 hlo hhi hrc hne hf allowed placed
    have hrc' : ∀ q, regRow? a = some q → q.rc = 0 := fun q hq => Option.some.inj (hr.symm.trans hq) ▸ hrc
    exact ⟨spLateDone_read hl h49 h4 hlo hhi hf rivals hrc' hne, spLateDone_denied hl h49 h4 hlo hhi hf rivals,
      spLateDone_timeout hl h49 h4 hlo hhi hf rivals hrc' hne⟩

end Sys2Proof.Machine
end

section
/-! What writing planes leaves alone (O11, O12, O15): which planes, registers and counts an array instruction's own work
changes before its bit-steps are counted and its snapshot is taken. -/

namespace Sys2Proof.Machine

/-- From `s` to `t` the array wrote no plane outside `W`; the applied column substitutions, the snapshots in flight, the count
of bit-steps, the Dispatcher and SB_SEQ are as they were. -/
structure Wrote (W : Nat → Prop) (s t : State) : Prop where
  base : t.arr.base = s.arr.base
  planes : ∀ a, ¬ W a → Store.get (fun _ => []) t.arr.planes a = Store.get (fun _ => []) s.arr.planes a
  colSub : ∀ p, t.reg (Reg.act (colSubReg p)) = s.reg (Reg.act (colSubReg p))
  snaps : t.arr.snaps = s.arr.snaps
  bscnt : t.arr.bscnt = s.arr.bscnt
  disp : t.disp = s.disp
  seq : t.reg Reg.SB_SEQ = s.reg Reg.SB_SEQ

variable {W : Nat → Prop} {s t u : State}

theorem Wrote.refl (W : Nat → Prop) (s : State) : Wrote W s s :=
  ⟨rfl, fun _ _ => rfl, fun _ => rfl, rfl, rfl, rfl, rfl⟩

theorem Wrote.trans (h : Wrote W s t) (h' : Wrote W t u) : Wrote W s u :=
  ⟨h'.base.trans h.base, fun a ha => (h'.planes a ha).trans (h.planes a ha), fun p => (h'.colSub p).trans (h.colSub p),
    h'.snaps.trans h.snaps, h'.bscnt.trans h.bscnt, h'.disp.trans h.disp, h'.seq.trans h.seq⟩

theorem Wrote.mono {V : Nat → Prop} (h : Wrote V s t) (hVW : ∀ a, V a → W a) : Wrote W s t :=
  ⟨h.base, fun a ha => h.planes a fun hv => ha (hVW a hv), h.colSub, h.snaps, h.bscnt, h.disp, h.seq⟩

theorem Wrote.ite {c : Prop} [Decidable c] (ht : c → Wrote W s t) (hu : ¬ c → Wrote W s u) : Wrote W s (if c then t else u) := by
  split
  · next h => exact ht h
  · next h => exact hu h

theorem Wrote.foldl {α : Type} (l : List α) (f : State → α → State) (hf : ∀ s x, Wrote W s (f s x)) :
    Wrote W s (l.foldl f s) := by
  induction l generalizing s with
  | nil => exact Wrote.refl W s
  | cons x l ih => exact (hf s x).trans ih

theorem Wrote.subOf_eq (h : Wrote W s t) (p j : Nat) : t.subOf p j = s.subOf p j := by
  simp only [State.subOf, State.fld, h.colSub]

/-- The copies in force lie above every register. -/
theorem act_colSubReg_ge (p : Nat) : 0x100000 ≤ Reg.act (colSubReg p) := by simp only [Reg.act]; omega

theorem setReg_wrote (W : Nat → Prop) (s : State) {a : Nat} (v : Word) (ha : a < 0x100000) (hs : a ≠ Reg.SB_SEQ) :
    Wrote W s (s.setReg a v) where
  base := rfl
  planes _ _ := rfl
  colSub p := s.reg_setReg_other v (by have := act_colSubReg_ge p; omega)
  snaps := rfl
  bscnt := rfl
  disp := rfl
  seq := s.reg_setReg_other v hs.symm

theorem setFld_wrote (W : Nat → Prop) (s : State) {a : Nat} (hi lo n : Nat) (ha : a < 0x100000) (hs : a ≠ Reg.SB_SEQ) :
    Wrote W s (s.setFld a hi lo n) := setReg_wrote W s _ ha hs

theorem setBit_wrote (W : Nat → Prop) (s : State) {a : Nat} (n : Nat) (b : Bool) (ha : a < 0x100000) (hs : a ≠ Reg.SB_SEQ) :
    Wrote W s (s.setBit a n b) := setReg_wrote W s _ ha hs

/-- What touches neither the array nor its registers writes no plane. -/
theorem Wrote.of_keeps (h : Keeps [.free, .block 8, .block 1, .out] s t) : Wrote W s t := by
  have harr : t.arr = { s.arr with base := t.arr.base, planes := t.arr.planes } := h.only .arr (by decide)
  obtain ⟨hbase, hplanes⟩ := h.only .planes (by decide)
  have hreg : ∀ a, blockOf a = 16 ∨ blockOf a = 3 → t.reg a = s.reg a := by
    rintro a (ha | ha)
    · exact h.only (.block 16) (by decide) a ha
    · exact h.only (.block 3) (by decide) a ha
  refine ⟨hbase, fun a _ => by rw [hplanes], fun p => hreg _ (.inl ?_), by rw [harr], by rw [harr], h.only .disp (by decide),
    hreg _ (.inr rfl)⟩
  exact blockOf_eq 16 1 (by decide) (by simp only [Reg.act, colSubReg, Reg.COL_SUB]; omega)

/-! Cells and planes -/

theorem setPlaneCells_wrote (s : State) {a : Nat} (cells : List (Option Word74)) (ha : W a) :
    Wrote W s (s.setPlaneCells a cells) where
  base := rfl
  planes _ hb := Store.get_set_other _ _ _ fun h => hb (h ▸ ha)
  colSub _ := rfl
  snaps := rfl
  bscnt := rfl
  disp := rfl
  seq := rfl

theorem writePlane_wrote (s : State) {a : Nat} (ex : Nat → Bool) (gate val : Nat → Lanes) (ha : W a) :
    Wrote W s (s.writePlane a ex gate val).1 := setPlaneCells_wrote s _ ha

theorem mirrorPlane_wrote (s : State) {a : Nat} (ha : W a) : Wrote W s (s.mirrorPlane a) := by
  unfold State.mirrorPlane
  exact Wrote.ite (fun _ => setPlaneCells_wrote s _ ha) fun _ => Wrote.refl W s

theorem copyStates_wrote (s : State) (hC : W planeC) (hM : W planeM) (hF : W planeF) (hN : W planeN) :
    Wrote W s s.copyStates := by
  have hW : ∀ a ∈ [planeC, planeM, planeF, planeN], W a := by simp [hC, hM, hF, hN]
  unfold State.copyStates
  refine Wrote.ite (fun _ => Wrote.refl W s) fun _ => ?_
  have hfold : ∀ (l : List Nat) (f : State → Nat → List (Option Word74)), (∀ a ∈ l, W a) → ∀ s,
      Wrote W s (l.foldl (fun s a => s.setPlaneCells a (f s a)) s) := by
    intro l f
    induction l with
    | nil => exact fun _ s => Wrote.refl W s
    | cons a l ih => exact fun h s => (setPlaneCells_wrote s _ (h a (by simp))).trans (ih (fun b hb => h b (by simp [hb])) _)
  exact hfold _ _ hW s

theorem colSubReg_lt (p : Nat) : colSubReg p < 0x100000 := by simp only [colSubReg, Reg.COL_SUB]; omega

theorem colSubReg_ne_seq (p : Nat) : colSubReg p ≠ Reg.SB_SEQ := by simp only [colSubReg, Reg.COL_SUB, Reg.SB_SEQ]; omega

theorem setArr_wrote (W : Nat → Prop) (s : State) (arr : Arr) (hbase : arr.base = s.arr.base) (hplanes : arr.planes = s.arr.planes)
    (hsnaps : arr.snaps = s.arr.snaps) (hcnt : arr.bscnt = s.arr.bscnt) : Wrote W s { s with arr := arr } :=
  ⟨hbase, fun _ _ => by rw [hplanes], fun _ => rfl, hsnaps, hcnt, rfl, rfl⟩

theorem sweepAt_wrote (W : Nat → Prop) (s : State) (a : Nat) : Wrote W s (s.sweepAt a) := by
  unfold State.sweepAt
  extract_lets s1
  have h1 : Wrote W s s1 := by
    refine Wrote.foldl _ _ fun u i => Wrote.ite (fun _ => ?_) fun _ => Wrote.refl W u
    have hptr := setArr_wrote W u { u.arr with sweep := Store.set (fun _ => 0) u.arr.sweep i (a + 1) } rfl rfl rfl rfl
    exact Wrote.ite (fun _ => hptr.trans (setBit_wrote W _ _ _ (colSubReg_lt _) (colSubReg_ne_seq _))) fun _ => hptr
  clear_value s1
  refine h1.trans (Wrote.ite (fun _ => ?_) fun _ => Wrote.refl W s1)
  have hptr := setArr_wrote W s1 { s1.arr with mirrorSweep := a + 1 } rfl rfl rfl rfl
  exact Wrote.ite (fun _ => hptr.trans (setBit_wrote W _ _ _ (by decide) (by decide))) fun _ => hptr

/-! Accounting for errors (R65 to R67, R157, R161) -/

theorem arrEvent_wrote (W : Nat → Prop) (s : State) (bitNo p row : Nat) (addr : Option (Nat × Nat)) :
    Wrote W s (s.arrEvent bitNo p row addr) := by
  have first : Wrote W s (((s.setFld Reg.ARR_ERR_STAT 20 14 p).setFld Reg.ARR_ERR_STAT 25 21 row).setBit
      Reg.ARR_ERR_STAT bitNo true) :=
    ((setFld_wrote W s _ _ _ (by decide) (by decide)).trans (setFld_wrote W _ _ _ _ (by decide) (by decide))).trans
      (setBit_wrote W _ _ _ (by decide) (by decide))
  unfold State.arrEvent
  refine Wrote.ite (fun _ => ?_) fun _ => ?_
  · exact (setBit_wrote W s _ _ (by decide) (by decide)).trans (setBit_wrote W _ _ _ (by decide) (by decide))
  · cases addr with
    | none => exact first
    | some e =>
      exact (first.trans (setFld_wrote W _ _ _ _ (by decide) (by decide))).trans
        (setFld_wrote W _ _ _ _ (by decide) (by decide))

theorem fire_wrote (W : Nat → Prop) (s : State) (i : Nat) : Wrote W s (s.fire i) :=
  Wrote.of_keeps (State.fire_keeps s i (Keeps.rfl' _ s) (by decide))

theorem ackTimeout_wrote (W : Nat → Prop) (s : State) (p : Nat) : Wrote W s (s.ackTimeout p) :=
  Wrote.trans ((arrEvent_wrote W s 3 p 0 none).trans (fire_wrote W _ 67))
    (setArr_wrote W _ _ rfl rfl rfl rfl)

theorem handleBad_wrote (W : Nat → Prop) (s : State) (n : Note) : Wrote W s (s.handleBad n) := by
  have hUE : ∀ (u : State) (addr syn : Nat), Wrote W u (u.countUE 2 addr syn) := fun u addr syn =>
    Wrote.of_keeps (State.countUE_keeps u 2 addr syn (Keeps.rfl' _ u) (by decide))
  unfold State.handleBad
  split
  · refine Wrote.ite (fun _ => Wrote.ite (fun _ => ?_) fun _ => ?_) fun _ => ackTimeout_wrote W s _
    · exact (setBit_wrote W s _ _ (by decide) (by decide)).trans (hUE _ _ _)
    · exact ((hUE s _ _).trans (arrEvent_wrote W _ _ _ _ _)).trans (fire_wrote W _ 65)
  · exact Wrote.refl W s

theorem colmonReg_lt (p : Nat) : colmonReg p < 0x100000 := by simp only [colmonReg, Reg.COLMON]; omega

theorem colmonReg_ne_seq (p : Nat) : colmonReg p ≠ Reg.SB_SEQ := by simp only [colmonReg, Reg.COLMON, Reg.SB_SEQ]; omega

theorem colMonitor_wrote (W : Nat → Prop) (s : State) (p : Nat) (cols : List Nat) : Wrote W s (s.colMonitor p cols) := by
  unfold State.colMonitor
  refine Wrote.ite (fun _ => Wrote.refl W s) fun _ => ?_
  refine Wrote.trans ?_ (Wrote.of_keeps (State.fireIf_keeps _ _ 70 (Keeps.rfl' _ _) (by decide)))
  exact (setFld_wrote W s _ _ _ (colmonReg_lt p) (colmonReg_ne_seq p)).trans
    (setFld_wrote W _ _ _ _ (colmonReg_lt p) (colmonReg_ne_seq p))

theorem countFixed_wrote (W : Nat → Prop) (s : State) (p : Nat) (ns : List Note) : Wrote W s (s.countFixed p ns) := by
  unfold State.countFixed
  dsimp only
  split
  · exact Wrote.refl W s
  · exact Wrote.trans (Wrote.of_keeps (State.countCE_keeps s 2 _ _ (Keeps.rfl' _ s) (by decide))) (colMonitor_wrote W _ _ _)

theorem account_wrote (W : Nat → Prop) (s : State) (ns : List Note) : Wrote W s (s.account ns) := by
  unfold State.account
  refine Wrote.ite (fun _ => Wrote.refl W s) fun _ => ?_
  exact (Wrote.foldl _ _ fun s p => countFixed_wrote W s p ns).trans (Wrote.foldl _ _ fun s n => handleBad_wrote W s n)

theorem useFree_wrote (W : Nat → Prop) (s : State) : Wrote W s s.useFree := ⟨rfl, fun _ _ => rfl, fun _ => rfl, rfl, rfl, rfl, rfl⟩

theorem latchEdges_wrote (W : Nat → Prop) (s : State) : Wrote W s s.latchEdges := by
  unfold State.latchEdges
  exact Wrote.ite (fun _ => Wrote.refl W s) fun _ =>
    (setFld_wrote W s _ _ _ (by decide) (by decide)).trans (setFld_wrote W _ _ _ _ (by decide) (by decide))

/-! Results (R110) -/

theorem putPlane_wrote (s : State) (ex : Nat → Bool) (gate : Nat → Lanes) {p : Plane} (hp : W p.a) :
    Wrote W s (s.putPlane ex gate p).1 := by
  have hw := writePlane_wrote (W := W) s ex gate p.at hp
  unfold State.putPlane
  exact Wrote.ite (fun _ => (hw.trans (mirrorPlane_wrote _ hp)).trans (sweepAt_wrote W _ _)) fun _ => hw

theorem putPlanes_wrote (s : State) (ex : Nat → Bool) (gate : Nat → Lanes) (ps : List Plane) (hp : ∀ p ∈ ps, W p.a) :
    Wrote W s (s.putPlanes ex gate ps).1 := by
  induction ps generalizing s with
  | nil => exact Wrote.refl W s
  | cons p ps ih =>
    unfold State.putPlanes
    exact (putPlane_wrote s ex gate (hp p (by simp))).trans (ih _ fun q hq => hp q (by simp [hq]))

/-- What installing results writes, before the bit-steps are counted and the snapshot is taken. -/
theorem install_eq (s : State) (r : Results) (hp : ∀ p ∈ r.planes, W p.a) (hst : ∀ a, 1024 ≤ a → W a) :
    ∃ u, Wrote W s u ∧ s.install r = (u.spend (r.steps + r.casts)).snapshot := by
  refine ⟨_, ?_, rfl⟩
  refine Wrote.trans (Wrote.trans (Wrote.trans ?_ (copyStates_wrote _ (hst _ (by decide)) (hst _ (by decide))
    (hst _ (by decide)) (hst _ (by decide)))) (account_wrote W _ _)) (useFree_wrote W _)
  have hput := putPlanes_wrote s (fun p => (((List.range 72).map s.executes).toArray).getD p false)
    (laneAt (s.readPlane planeM)) r.planes hp
  cases hm : r.mask with
  | none => exact hput
  | some p => exact hput.trans (writePlane_wrote _ _ _ _ (hst _ (by decide)))

theorem notSuspended_wrote (W : Nat → Prop) (s : State) : Wrote W s s.notSuspended :=
  setArr_wrote W s _ rfl rfl rfl rfl

/-- What ABANDON writes (R152). -/
theorem abandon_eq (s : State) (hres : ∀ a, 1008 ≤ a → a ≤ 1015 → W a) (hst : ∀ a, 1024 ≤ a → W a) :
    ∃ u, Wrote W s u ∧ s.abandon = (u.spend 9).snapshot := by
  refine ⟨_, ?_, rfl⟩
  refine Wrote.trans (Wrote.trans (Wrote.trans (Wrote.trans ?_ (notSuspended_wrote W _)) (copyStates_wrote _
    (hst _ (by decide)) (hst _ (by decide)) (hst _ (by decide)) (hst _ (by decide)))) (account_wrote W _ _)) (useFree_wrote W _)
  refine ((writePlane_wrote s _ _ _ (hst _ (by decide))).trans (putPlanes_wrote _ _ _ _ ?_)).trans (putPlanes_wrote _ _ _ _ ?_)
  · intro p hp
    obtain ⟨i, hi, rfl⟩ := List.mem_map.mp hp
    have hi8 := List.mem_range.mp hi
    exact hres _ (by simp [planeOf]) (by simp only [planeOf]; omega)
  · intro p hp
    simp only [List.mem_cons, List.not_mem_nil, or_false] at hp
    rcases hp with rfl | rfl | rfl <;> exact hst _ (by simp only [State.freePlane]; decide)

end Sys2Proof.Machine
end

section
/-! How an array instruction issues and ends (O11, O12, O14, O15): the checks that `arrayReady` has passed, the count of
bit-steps, the snapshot with room for it, and the end at an undisturbed boundary. -/

namespace Sys2Proof.Machine

/-! Issuing (R104 to R107) -/

theorem exec_arrayOf {c : Instr} {opc : Nat} {o : AOp} (h : arrayOf c = some (opc, o)) (s : State) :
    exec c s = .next (s.arrayIssue opc o) := by
  unfold arrayOf at h
  split at h <;> cases h
  all_goals rfl

theorem arrayOf_opcode {c : Instr} {opc : Nat} {o : AOp} (h : arrayOf c = some (opc, o)) : 0x20 ≤ opc ∧ opc ≤ 0x2D := by
  unfold arrayOf at h
  split at h <;> cases h
  all_goals decide

theorem State.begin_of_still {s : State} (h : s.still) : s.begin = s := by
  obtain ⟨-, hwait, -, -, -, hhold, hmul, hdiv⟩ := h
  simp [State.begin, hwait, State.unitsByDistance, hmul, hdiv, State.holdAtBegin, hhold]

theorem State.discardPair_of_still {s : State} (h : s.still) : s.discardPair = s := by
  obtain ⟨-, -, -, hpair, -⟩ := h
  simp [State.discardPair, hpair]

/-- Nothing stops an instruction that is ready. -/
theorem State.arrayIssue_of_ready {s : State} {opc : Nat} {o : AOp} (h : s.arrayReady opc o) (hopc : opc < 0x2E) :
    s.arrayIssue opc o = s.arrayRun opc o := by
  obtain ⟨hstill, hdec, hcond, htrap⟩ := h
  have hgate : s.arrayGate opc o = none := by
    rw [State.arrayGate, if_neg (by simp [hdec]; omega), if_neg (by simp [hcond]), htrap]
  have hissue : s.canIssue = true := hstill.1
  rw [State.arrayIssue, if_neg (by simp [hissue])]
  simp only [State.begin_of_still hstill, State.discardPair_of_still hstill, hgate, Option.getD_none]

theorem exec_of_arrayReady {c : Instr} {opc : Nat} {o : AOp} {s : State} (h : arrayOf c = some (opc, o))
    (hready : s.arrayReady opc o) : exec c s = .next (s.arrayRun opc o) := by
  rw [exec_arrayOf h, State.arrayIssue_of_ready hready (by have := arrayOf_opcode h; omega)]

/-- The checks of R101 and R107 have passed. -/
theorem State.arrayReady.controls {s : State} {opc : Nat} {o : AOp} (h : s.arrayReady opc o) : controlsOk opc o = true := by
  obtain ⟨-, -, -, htrap⟩ := h
  by_contra hc
  simp only [State.arrayTrap, Bool.not_eq_true] at htrap hc
  split at htrap
  · exact nomatch htrap
  · simp [hc] at htrap

/-! The count and the snapshot (R75, R93) -/

@[simp] theorem State.spend_bscnt (s : State) (n : Nat) : (s.spend n).arr.bscnt = (s.arr.bscnt + n) % 2 ^ 64 := rfl
@[simp] theorem State.spend_snaps (s : State) (n : Nat) : (s.spend n).arr.snaps = s.arr.snaps := rfl
@[simp] theorem State.spend_planes (s : State) (n : Nat) : (s.spend n).arr.planes = s.arr.planes := rfl
@[simp] theorem State.spend_base (s : State) (n : Nat) : (s.spend n).arr.base = s.arr.base := rfl
@[simp] theorem State.spend_disp (s : State) (n : Nat) : (s.spend n).disp = s.disp := rfl

theorem State.spend_reg (s : State) (n : Nat) {a : Nat} (h : a ≠ Reg.EST_STATUS) : (s.spend n).reg a = s.reg a :=
  State.reg_setBit_other _ 0 true h

/-- A snapshot with room for it is the newest in flight, under the next number. -/
theorem State.snapshot_of_room {s : State} (h : s.arr.snaps.length < 4) : ∃ x : Snap,
    x.num = (s.fld Reg.SB_SEQ 7 0 + 1) % 256 ∧ x.orD = false ∧
      s.snapshot = ({ s with arr := { s.arr with snaps := s.arr.snaps ++ [x] } }).setFld Reg.SB_SEQ 7 0 x.num := by
  have hroom : ¬ 4 ≤ s.arr.snaps.length := by omega
  simp only [State.snapshot, ge_iff_le, if_neg hroom]
  exact ⟨_, rfl, rfl, rfl⟩

/-! The end (R207, R214) -/

/-- The Dispatcher holds no late result, unit in progress or store error, and waits for nothing. -/
def Disp.quiet (d : Disp) : Prop :=
  d.late = noLate ∧ d.wait = .none ∧ d.imprecise = none ∧ d.mul = none ∧ d.div = none

theorem State.still.quiet {s : State} (h : s.still) : s.disp.quiet := by
  obtain ⟨-, hwait, hlate, -, himp, -, hmul, hdiv⟩ := h
  exact ⟨hlate, hwait, himp, hmul, hdiv⟩

theorem State.boundary_of_noError {s : State} (h : s.disp.imprecise = none) : s.boundary = s := by
  unfold State.boundary
  split
  · rw [h]
  · rfl

theorem State.startHold_eq (s : State) :
    s.startHold = { s with disp := { s.disp with hold := s.arr.snaps.getLast?.map fun n => (n.num, 2) } } := by
  unfold State.startHold
  cases s.arr.snaps.getLast? <;> rfl

/-- What every end of an instruction does to the Dispatcher beside PC and the hold: late results become visible, waits end, and
the units grow older. -/
def Disp.settle (d : Disp) : Disp :=
  { d with acc := d.late.acc.getD d.acc, late := noLate, wait := .none,
           mul := d.mul.map (fun m => { m with age := m.age + 1 }), div := d.div.map (fun m => { m with age := m.age + 1 }) }

theorem Disp.settle_of_quiet {d : Disp} (h : d.quiet) : d.settle = d := by
  obtain ⟨hlate, hwait, -, hmul, hdiv⟩ := h
  cases d
  subst hlate hwait hmul hdiv
  rfl

theorem State.endArray_of_quiet {s : State} (h : s.disp.quiet) : s.endArray =
    { s with disp := { s.disp with pc := s.disp.pc + 8, hold := s.arr.snaps.getLast?.map fun n => (n.num, 2) } } := by
  have hend : s.endArray = State.boundary
      { s with disp := { s.disp.settle with pc := s.disp.pc + 8, hold := s.arr.snaps.getLast?.map fun n => (n.num, 2) } } := by
    rw [State.endArray, State.startHold_eq]
    rfl
  obtain ⟨-, -, himp, -⟩ := id h
  rw [hend, Disp.settle_of_quiet h]
  exact State.boundary_of_noError himp

theorem setDisp_keeps {fs : List Zone} {s0 s : State} (d : Disp) (h : Keeps fs s0 s) (hd : Zone.inList .disp fs = true) :
    Keeps fs s0 { s with disp := d } where
  only f hf := by
    have h0 := h.only f hf
    cases f
    case disp => exact absurd hd (by simp [hf])
    all_goals exact h0
  canon := h.canon
  queue := h.queue
  out := h.out

/-- An undisturbed end changes the Dispatcher alone. -/
theorem endArray_keeps_of_quiet {fs : List Zone} {s0 s : State} (h : Keeps fs s0 s) (hq : s.disp.quiet)
    (hd : Zone.inList .disp fs = true) : Keeps fs s0 s.endArray := by
  rw [State.endArray_of_quiet hq]
  exact setDisp_keeps _ h hd

theorem State.endInstr_of_quiet {s : State} (h : s.disp.quiet) (hhold : s.disp.hold = none) (n : Nat) :
    s.endInstr n noLate = { s with disp := { s.disp with pc := s.disp.pc + BitVec.ofNat 16 n } } := by
  have hend : s.endInstr n noLate = State.boundary
      { s with disp := { s.disp.settle with pc := s.disp.pc + BitVec.ofNat 16 n, hold := s.disp.hold.map fun h => (h.1, h.2 - 1) } } :=
    rfl
  obtain ⟨-, -, himp, -⟩ := id h
  rw [hend, Disp.settle_of_quiet h, hhold, Option.map_none, ← hhold]
  exact State.boundary_of_noError himp

end Sys2Proof.Machine
end

section
/-! Proofs about the run of the array instructions 0x20 to 0x2A (O11): which planes their results name, how many bit-steps
they take, and what the count, the snapshot and the Dispatcher show at their end. -/

namespace Sys2Proof.Machine

/-! The planes an instruction may write (R109, R110, R114, R152) -/

/-- The destination field of an instruction; no plane where it has none. -/
def destOf (opc : Nat) (o : AOp) (acc : Word) : Field := (fieldsOf opc o acc).2.2.getD (0, 0)

/-- The planes of bit-RAM that an instruction uses beside its fields. -/
def spareOf (opc : Nat) (o : AOp) (a : Nat) : Prop :=
  (a = 1012 ∧ o.fm = 3) ∨ (a = 1013 ∧ opc = 0x24) ∨ (a = 1015 ∧ opc = 0x27) ∨ (opc = 0x2A ∧ o.sub = 0xF ∧ 1008 ≤ a ∧ a ≤ 1015)

/-- The planes an instruction may write: its destination field, the spare planes and the state bits. -/
def mayWrite (opc : Nat) (o : AOp) (acc : Word) (a : Nat) : Prop :=
  ((destOf opc o acc).1 ≤ a ∧ a < (destOf opc o acc).1 + (destOf opc o acc).2) ∨ spareOf opc o a ∨ 1024 ≤ a

theorem statePlane_ge {a : Nat} (h : a = planeC ∨ a = planeM ∨ a = planeF ∨ a = planeN) : 1024 ≤ a := by
  rcases h with rfl | rfl | rfl | rfl <;> decide

theorem mem_dPlanes {base w : Nat} {r : Array (Array LaneOut)} {p : Plane} (h : p ∈ dPlanes base w r) :
    base ≤ p.a ∧ p.a < base + w := by
  obtain ⟨i, hi, rfl⟩ := List.mem_map.mp h
  have hi := List.mem_range.mp hi
  exact ⟨Nat.le_add_right _ _, Nat.add_lt_add_left hi _⟩

theorem mem_shiftResults {s : State} {o : AOp} {a old : List (Array RowRead)} {gate : Nat → Lanes} {p : Plane}
    (h : p ∈ s.shiftResults o a old gate) : o.fd ≤ p.a ∧ p.a < o.fd + old.length := by
  obtain ⟨⟨x, i⟩, hx, rfl⟩ := List.mem_map.mp h
  have hi := (List.mem_zipIdx hx).2.1
  simp only [List.length_zip] at hi
  dsimp only
  omega

theorem fmOf_eq_three {opc : Nat} {o : AOp} (h : fmOf opc o = 3) : o.fm = 3 := by
  unfold fmOf at h
  split at h
  · exact absurd h (by decide)
  · exact h

theorem fieldResults_mayWrite {s : State} {opc : Nat} {o : AOp} {acc : Word} {p : Plane}
    (h : p ∈ (s.fieldResults opc o acc).planes) : mayWrite opc o acc p.a := by
  have state : p.a = planeC ∨ p.a = planeF ∨ p.a = planeN → mayWrite opc o acc p.a :=
    fun ha => .inr (.inr (statePlane_ge (ha.imp_right .inr)))
  have spare12 : p ∈ (if fmOf opc o = 3 ∧ usesReserved opc o = true then [s.freePlane 1012] else []) →
      mayWrite opc o acc p.a := by
    intro hp
    split at hp
    · next hc =>
      obtain rfl := List.mem_singleton.mp hp
      exact .inr (.inl (.inl ⟨rfl, fmOf_eq_three hc.1⟩))
    · exact nomatch hp
  by_cases hshift : opc = 0x26
  · subst hshift
    simp only [State.fieldResults, if_true, List.mem_append] at h
    rcases h with ((h | h) | h) | h
    · have hd := mem_shiftResults h
      exact .inl (by simpa [State.readField, destOf, fieldsOf] using hd)
    · obtain ⟨q, -, rfl⟩ := Option.map_eq_some_iff.mp (Option.mem_toList.mp h)
      exact state (.inr (.inr rfl))
    · split at h
      · exact nomatch h
      · obtain rfl := List.mem_singleton.mp h
        exact state (.inr (.inl rfl))
    · exact spare12 h
  · simp only [State.fieldResults, if_neg hshift, List.mem_append] at h
    rcases h with (((h | h) | h) | h) | h
    · exact .inl (mem_dPlanes h)
    · split at h
      · exact nomatch h
      · obtain rfl := List.mem_singleton.mp h
        exact state (.inl rfl)
      · simp only [List.mem_cons, List.not_mem_nil, or_false] at h
        rcases h with rfl | rfl | rfl
        · exact state (.inl rfl)
        · exact state (.inr (.inr rfl))
        · exact .inr (.inl (.inr (.inr (.inl ⟨rfl, rfl⟩))))
      · obtain rfl := List.mem_singleton.mp h
        exact state (.inl rfl)
      · obtain rfl := List.mem_singleton.mp h
        exact state (.inl rfl)
    · split at h
      · exact nomatch h
      · obtain rfl := List.mem_singleton.mp h
        exact state (.inr (.inl rfl))
    · exact spare12 h
    · split at h
      · next hc =>
        obtain rfl := List.mem_singleton.mp h
        exact .inr (.inl (.inr (.inl ⟨rfl, hc.1⟩)))
      · exact nomatch h

theorem mem_maskResults {s : State} {o : AOp} {p : Plane} (h : p ∈ (s.maskResults o).planes) :
    (o.sub = 0xA ∧ p.a = o.fd) ∨ p.a = planeF ∨ p.a = planeC := by
  simp only [State.maskResults] at h
  split at h <;> first
    | exact absurd h List.not_mem_nil
    | (obtain rfl := List.mem_singleton.mp h; simp [planeOf, *])

theorem maskResults_mayWrite {s : State} {o : AOp} (acc : Word) {p : Plane} (h : p ∈ (s.maskResults o).planes) :
    mayWrite 0x2A o acc p.a := by
  rcases mem_maskResults h with ⟨hsub, ha⟩ | ha | ha
  · exact .inl (by simp [destOf, fieldsOf, hsub, ha])
  · exact .inr (.inr (statePlane_ge (by simp [ha])))
  · exact .inr (.inr (statePlane_ge (by simp [ha])))

theorem maskResults_steps (s : State) (o : AOp) : (s.maskResults o).steps + (s.maskResults o).casts = 1 := by
  simp only [State.maskResults]
  split <;> rfl

theorem fieldResults_steps (s : State) (opc : Nat) (o : AOp) (acc : Word) :
    (s.fieldResults opc o acc).steps = baseSteps opc o ∧ (s.fieldResults opc o acc).casts = castSteps opc o := by
  by_cases h : opc = 0x26
  · simp [State.fieldResults, if_pos h]
  · simp [State.fieldResults, if_neg h]

/-- The parts of the state that the run of an array instruction can change. -/
def runZones : List Zone := [.disp, .free, .planes, .arr, .block 16, .block 8, .block 1, .out, .block 3]

/-- An instruction of 0x20 to 0x2A writes what it may write, counts its bit-steps and takes a snapshot. -/
theorem State.arrayRun_eq (s : State) {opc : Nat} (o : AOp) (hlo : 0x20 ≤ opc) (hhi : opc < 0x2B) :
    ∃ u, Wrote (mayWrite opc o s.disp.acc) s u ∧
      Keeps runZones s ((u.spend (baseSteps opc o + castSteps opc o)).snapshot) ∧
      s.arrayRun opc o = ((u.spend (baseSteps opc o + castSteps opc o)).snapshot).endArray := by
  have hst : ∀ a, 1024 ≤ a → mayWrite opc o s.disp.acc a := fun a ha => .inr (.inr ha)
  have hlatch := latchEdges_wrote (mayWrite opc o s.disp.acc) s
  have klatch : Keeps runZones s s.latchEdges := State.latchEdges_keeps s (Keeps.rfl' _ s) (by decide)
  have kinstall : ∀ r, Keeps runZones s (s.latchEdges.install r) := fun r => State.install_keeps _ r klatch (by decide)
  by_cases hmask : opc = 0x2A
  · subst hmask
    by_cases hsub : o.sub = 0xF
    · obtain ⟨u, hu, he⟩ := abandon_eq s.latchEdges (W := mayWrite 0x2A o s.disp.acc)
        (fun a h1 h2 => .inr (.inl (.inr (.inr (.inr ⟨rfl, hsub, h1, h2⟩))))) hst
      have hn : baseSteps 0x2A o + castSteps 0x2A o = 9 := by simp [baseSteps, castSteps, hsub]
      rw [hn]
      exact ⟨u, hlatch.trans hu, he ▸ State.abandon_keeps _ klatch (by decide), by simp only [State.arrayRun, if_pos hsub, he]⟩
    · obtain ⟨u, hu, he⟩ := install_eq s.latchEdges (s.latchEdges.maskResults o) (fun p hp => maskResults_mayWrite s.disp.acc hp) hst
      have hn : baseSteps 0x2A o + castSteps 0x2A o = 1 := by simp [baseSteps, castSteps, hsub]
      rw [maskResults_steps] at he
      rw [hn]
      exact ⟨u, hlatch.trans hu, he ▸ kinstall _, by simp only [State.arrayRun, if_neg hsub, he]⟩
  · obtain ⟨u, hu, he⟩ := install_eq s.latchEdges (s.latchEdges.fieldResults opc o s.disp.acc)
      (fun p hp => fieldResults_mayWrite hp) hst
    obtain ⟨hsteps, hcasts⟩ := fieldResults_steps s.latchEdges opc o s.disp.acc
    rw [hsteps, hcasts] at he
    refine ⟨u, hlatch.trans hu, he ▸ kinstall _, ?_⟩
    rw [← he, State.arrayRun]
    all_goals (intros; omega)

/-! What the end shows (R75, R93, R207, R214) -/

/-- A snapshot with room for it leaves the Dispatcher as it was. -/
theorem Wrote.snapshot_disp {W : Nat → Prop} {s u : State} (h : Wrote W s u) (n : Nat) (h4 : s.arr.snaps.length < 4) :
    ((u.spend n).snapshot).disp = s.disp := by
  obtain ⟨x, -, -, he⟩ := State.snapshot_of_room (s := u.spend n) (by rw [State.spend_snaps, h.snaps]; exact h4)
  rw [he]
  exact h.disp

theorem Wrote.ended {W : Nat → Prop} {s u : State} (h : Wrote W s u) (n : Nat) (hs : s.still) (h4 : s.arr.snaps.length < 4) :
    let t := ((u.spend n).snapshot).endArray
    t.arr.bscnt = (s.arr.bscnt + n) % 2 ^ 64 ∧ t.fld Reg.SB_SEQ 7 0 = (s.fld Reg.SB_SEQ 7 0 + 1) % 256 ∧
      (∃ x, t.arr.snaps = s.arr.snaps ++ [x] ∧ x.num = t.fld Reg.SB_SEQ 7 0 ∧ x.orD = false) ∧
      t.disp = { s.disp with pc := s.disp.pc + 8, hold := some (t.fld Reg.SB_SEQ 7 0, 2) } ∧
      ∀ a, ¬ W a → Store.get (fun _ => []) t.arr.planes a = Store.get (fun _ => []) s.arr.planes a := by
  obtain ⟨x, hnum, hor, he⟩ := State.snapshot_of_room (s := u.spend n) (by rw [State.spend_snaps, h.snaps]; exact h4)
  have hseq : (u.spend n).fld Reg.SB_SEQ 7 0 = s.fld Reg.SB_SEQ 7 0 :=
    State.fld_congr 7 0 ((u.spend_reg n (by decide)).trans h.seq)
  have hquiet : ((u.spend n).snapshot).disp.quiet := by
    rw [h.snapshot_disp n h4]
    exact hs.quiet
  rw [hseq] at hnum
  have hfld : (((u.spend n).snapshot).endArray).fld Reg.SB_SEQ 7 0 = x.num := by
    rw [State.endArray_of_quiet hquiet, he]
    refine (State.fld_setFld_same _ _ _ (by decide) (by decide)).trans ?_
    rw [hnum]; omega
  refine ⟨?_, hfld.trans hnum, ⟨x, ?_, hfld.symm, hor⟩, ?_, fun a ha => ?_⟩
  · rw [State.endArray_of_quiet hquiet, he]
    simp [h.bscnt]
  · rw [State.endArray_of_quiet hquiet, he]
    simp [h.snaps]
  · rw [hfld, State.endArray_of_quiet hquiet, he]
    simp [h.disp]
  · rw [State.endArray_of_quiet hquiet, he]
    exact h.planes a ha

/-! Bit-steps (R114) -/

/-- ⌈log₂(n + 1)⌉ as the instructions compute it. -/
theorem popWidth_eq_clog {n : Nat} (h : n ≠ 0) : popWidth n = Nat.clog 2 (n + 1) :=
  eq_of_forall_ge_iff fun c => calc
    popWidth n ≤ c ↔ n.log2 < c := Iff.rfl
    _ ↔ n < 2 ^ c := Nat.log2_lt h
    _ ↔ Nat.clog 2 (n + 1) ≤ c := (Nat.clog_le_iff_le_pow (by decide)).symm

/-- The bit-steps FM adds to an instruction with a destination of `m` planes. -/
def fmSteps (fm m : Nat) : Nat := match fm with | 0 => 0 | 3 => m + 2 | _ => m

theorem fmSteps_eq (fm m : Nat) : fmSteps fm m = if fm = 0 then 0 else if fm = 3 then m + 2 else m := by
  unfold fmSteps
  split
  · rfl
  · rfl
  · next h0 h3 => rw [if_neg h0, if_neg h3]

theorem baseSteps_fmul (o : AOp) : baseSteps 0x24 o = (if o.sgn != 0 then widthOf o * widthOf o + 4 * widthOf o + 6
    else widthOf o * widthOf o + 2 * widthOf o + 2) + fmSteps o.fm (widthOf o) := rfl

theorem baseSteps_fshn (o : AOp) : baseSteps 0x26 o = (if o.sub ≤ 3 then o.aux * widthOf o else widthOf o) +
    fmSteps o.fm (widthOf o) := rfl

theorem baseSteps_flut (o : AOp) : baseSteps 0x27 o = 2 ^ o.aux * (2 * o.aux + 2 * widthOf o) + fmSteps o.fm (widthOf o) := rfl

theorem baseSteps_fpop (o : AOp) : baseSteps 0x28 o = popWidth (widthOf o) * (widthOf o + 1) +
    fmSteps o.fm (popWidth (widthOf o)) := rfl

/-- Settles O11: the run writes what the instruction may write (`arrayRun_eq`), and each opcode's bit-steps and destination are
those of the table of R114. -/
theorem arrayInstructionsRunToTheirEnd : Obligations.ArrayInstructionsRunToTheirEnd := by
  intro c opc o s hc hopc hready h4 _ n w sg extra times width spare
  obtain ⟨hlo, -⟩ := arrayOf_opcode hc
  obtain ⟨u, hu, hkeeps, hrun⟩ := State.arrayRun_eq s o hlo hopc
  obtain ⟨hcnt, hseq, hsnap, hdisp, hplanes⟩ := hu.ended (baseSteps opc o + castSteps opc o) hready.1 h4
  refine ⟨s.arrayRun opc o, exec_of_arrayReady hc hready, ?_, ?_⟩
  · rw [hrun]
    exact (endArray_keeps_of_quiet hkeeps (by rw [hu.snapshot_disp _ h4]; exact hready.1.quiet) (by decide)).toOnly
  have hn : widthOf o = n := rfl
  have hpop : popWidth n = w := popWidth_eq_clog (Nat.succ_ne_zero _)
  have hcases : opc = 0x20 ∨ opc = 0x21 ∨ opc = 0x22 ∨ opc = 0x23 ∨ opc = 0x24 ∨ opc = 0x25 ∨ opc = 0x26 ∨ opc = 0x27 ∨
    opc = 0x28 ∨ opc = 0x29 ∨ opc = 0x2A := by omega
  rw [hrun]
  refine ⟨?_, hseq, hsnap, hdisp, fun a ha hout hspare => hplanes a ?_⟩
  · have htimes : times = baseSteps opc o + castSteps opc o := by
      rcases hcases with rfl | rfl | rfl | rfl | rfl | rfl | rfl | rfl | rfl | rfl | rfl <;>
        simp only [times, sg, extra, baseSteps_fmul, baseSteps_fshn, baseSteps_flut, baseSteps_fpop, castSteps, fmSteps_eq, hpop,
          hn, Nat.add_zero]
      case inr.inr.inr.inr.inl => by_cases h : o.sgn = 0 <;> simp [h] <;> ring
      case inr.inr.inr.inr.inr.inr.inl => split <;> ring
      case inr.inr.inr.inr.inr.inr.inr.inl => ring
      all_goals simp only [baseSteps, hn]
      all_goals by_cases h : o.sgn = 0 <;> by_cases h' : o.sat = 0 <;> simp [h, h']
    rw [htimes, hcnt]
  · have hdest : width = (destOf opc o s.disp.acc).2 ∧ (width ≠ 0 → (destOf opc o s.disp.acc).1 = o.fd) := by
      rcases hcases with rfl | rfl | rfl | rfl | rfl | rfl | rfl | rfl | rfl | rfl | rfl <;>
        simp [width, destOf, fieldsOf, hpop, hn]
      by_cases h : o.sub = 0xA <;> simp [h]
    rintro (hd | hd | hd)
    · omega
    · exact hspare hd
    · omega

end Sys2Proof.Machine
end

section
/-! Proofs about FXFER and FSYNC (O14): a transfer is held, or the Dispatcher waits. -/

namespace Sys2Proof.Machine

/-- The parts of the state that holding a transfer can change. -/
def holdZones : List Zone := [.disp, .trv, .sp, .memo, .block 8, .block 1, .out, .free]

theorem State.trvHold_disp (s : State) : s.trvHold.disp = s.disp :=
  (State.trvHold_keeps (fs := [.memo, .block 1, .out, .sp, .block 8, .free, .trv]) s (Keeps.rfl' _ s) (by decide)).only
    .disp (by decide)

/-- The copied descriptor becomes the newest transfer held (R128, R129). -/
theorem State.trvHold_trv (s : State) : ∃ x, s.trvHold.trv = { s.trv with held := s.trv.held ++ [x] } := by
  have hcopy : (s.trvCopy s.disp.acc.toNat).1.trv = s.trv :=
    (State.trvCopy_keeps (fs := [.memo, .block 1, .out, .sp, .block 8, .free]) s _ (Keeps.rfl' _ s) (by decide)).only
      .trv (by decide)
  exact ⟨(s.trvCopy s.disp.acc.toNat).2, by simp only [State.trvHold, hcopy]⟩

theorem State.trvHolds_iff (s : State) (tag : Nat) : s.trvHolds tag = true ↔ ∃ x ∈ s.trv.held, x.tag = tag := by
  simp [State.trvHolds]

/-- An instruction that only moves PC on. -/
theorem does_endInstr {c : Instr} {s u : State} {fs : List Zone} {post : State → Prop} {n : Nat}
    (h : exec c s = .next (u.endInstr n noLate)) (hu : u.disp = s.disp) (hs : s.still) (hk : Keeps fs s u)
    (hd : Zone.inList .disp fs = true)
    (hp : post { u with disp := { s.disp with pc := s.disp.pc + BitVec.ofNat 16 n } }) : Does c s fs post := by
  obtain ⟨-, -, -, -, -, hhold, -⟩ := id hs
  rw [State.endInstr_of_quiet (hu ▸ hs.quiet) (hu ▸ hhold), hu] at h
  exact does_of_keeps h (setDisp_keeps _ hk hd) hp

theorem does_waitFor {c : Instr} {s : State} {w : Wait} {post : State → Prop} (h : exec c s = .next (s.waitFor w))
    (hp : post (s.waitFor w)) : Does c s [.disp] post :=
  does_of_keeps h (State.waitFor_keeps s w (Keeps.rfl' _ s) (by decide)) hp

theorem exec_fxfer {s : State} {o : AOp} (h : s.arrayReady 0x2C o) :
    exec (.fxfer o) s = .next (if s.trv.held.length ≥ 4 then s.waitFor .fxfer else s.trvHold.endInstr 8 noLate) :=
  exec_of_arrayReady rfl h

theorem exec_fsync {s : State} {o : AOp} (h : s.arrayReady 0x2D o) :
    exec (.fsync o) s = .next (if s.trvHolds o.aux then s.waitFor (.fsync o.aux) else s.endInstr 8 noLate) :=
  exec_of_arrayReady rfl h

/-- Settles O14: with room the transfer is held and PC moves on; else, as for a tag that is held, the Dispatcher waits. -/
theorem transfersAreHeldAndAwaited : Obligations.TransfersAreHeldAndAwaited := by
  intro s o
  refine ⟨fun hready hroom => ?_, fun hready hfull => ?_, fun hready => ?_⟩
  · have hexec := exec_fxfer hready
    rw [if_neg (by omega)] at hexec
    obtain ⟨x, hx⟩ := s.trvHold_trv
    refine does_endInstr hexec s.trvHold_disp hready.1
      (State.trvHold_keeps (fs := holdZones) s (Keeps.rfl' _ s) (by decide)) (by decide) ⟨⟨x, ?_⟩, ?_, rfl⟩
    · exact (congrArg Trv.held hx :)
    · exact (congrArg Trv.active hx :)
  · have hexec := exec_fxfer hready
    rw [if_pos hfull] at hexec
    exact does_waitFor hexec rfl
  · have hexec := exec_fsync hready
    by_cases hheld : ∃ x ∈ s.trv.held, x.tag = o.aux
    · rw [if_pos ((s.trvHolds_iff _).mpr hheld)] at hexec
      exact does_waitFor hexec (by rw [if_pos hheld]; rfl)
    · rw [if_neg (by rw [s.trvHolds_iff]; exact hheld)] at hexec
      exact does_endInstr hexec rfl hready.1 (Keeps.rfl' _ s) (by decide) (by rw [if_neg hheld]; rfl)

end Sys2Proof.Machine
end

section
/-! Proofs about FBIT (O15): what one bit-step and its snapshot change, and the repetitions one after the other. -/

namespace Sys2Proof.Machine

/-- From `s` to `t` the array wrote only planes of `W`, spent `c` bit-step times and took `j` snapshots; the Dispatcher is as it
was but for PSW. -/
structure Stepped (W : Nat → Prop) (c j : Nat) (s t : State) : Prop where
  planes : ∀ a, ¬ W a → Store.get (fun _ => []) t.arr.planes a = Store.get (fun _ => []) s.arr.planes a
  bscnt : t.arr.bscnt ≡ s.arr.bscnt + c [MOD 2 ^ 64]
  bscnt_lt : s.arr.bscnt < 2 ^ 64 → t.arr.bscnt < 2 ^ 64
  seq : t.fld Reg.SB_SEQ 7 0 ≡ s.fld Reg.SB_SEQ 7 0 + j [MOD 256]
  disp : t.disp = { s.disp with psw := t.disp.psw }

variable {W : Nat → Prop} {s t u : State}

theorem Stepped.refl (W : Nat → Prop) (s : State) : Stepped W 0 0 s s := ⟨fun _ _ => rfl, rfl, id, rfl, rfl⟩

theorem Stepped.trans {c c' j j' : Nat} (h : Stepped W c j s t) (h' : Stepped W c' j' t u) : Stepped W (c + c') (j + j') s u where
  planes a ha := (h'.planes a ha).trans (h.planes a ha)
  bscnt := by rw [← Nat.add_assoc]; exact h'.bscnt.trans (h.bscnt.add_right c')
  bscnt_lt := h'.bscnt_lt ∘ h.bscnt_lt
  seq := by rw [← Nat.add_assoc]; exact h'.seq.trans (h.seq.add_right j')
  disp := by rw [h'.disp, h.disp]

theorem Wrote.stepped (h : Wrote W s t) : Stepped W 0 0 s t where
  planes := h.planes
  bscnt := by rw [h.bscnt]; rfl
  bscnt_lt hlt := by rw [h.bscnt]; exact hlt
  seq := by rw [State.fld_congr 7 0 h.seq]; rfl
  disp := by rw [h.disp]

theorem spend_stepped (W : Nat → Prop) (s : State) (n : Nat) : Stepped W n 0 s (s.spend n) where
  planes _ _ := rfl
  bscnt := Nat.mod_modEq _ _
  bscnt_lt _ := Nat.mod_lt _ (by decide)
  seq := by rw [State.fld_congr 7 0 (s.spend_reg n (by decide))]; rfl
  disp := rfl

/-! The snapshot (R75 to R79) -/

/-- A delivery changes snapshots, registers and PSW alone. -/
theorem Stepped.of_delivery (harr : t.arr = { s.arr with snaps := t.arr.snaps }) (hdisp : t.disp = { s.disp with psw := t.disp.psw })
    (hseq : t.fld Reg.SB_SEQ 7 0 = s.fld Reg.SB_SEQ 7 0) : Stepped W 0 0 s t where
  planes _ _ := by rw [harr]
  bscnt := by rw [harr]; rfl
  bscnt_lt hlt := by rw [harr]; exact hlt
  seq := by rw [hseq]; rfl
  disp := hdisp

theorem Stepped.of_delivery_then (h : Stepped W 0 0 t u) (harr : t.arr = { s.arr with snaps := t.arr.snaps })
    (hdisp : t.disp = { s.disp with psw := t.disp.psw }) (hseq : t.fld Reg.SB_SEQ 7 0 = s.fld Reg.SB_SEQ 7 0) :
    Stepped W 0 0 s u := (Stepped.of_delivery harr hdisp hseq).trans h

theorem fireIf_wrote (W : Nat → Prop) (s : State) (c : Bool) (i : Nat) : Wrote W s (s.fireIf c i) :=
  Wrote.of_keeps (State.fireIf_keeps s c i (Keeps.rfl' _ s) (by decide))

theorem setPsw_stepped (W : Nat → Prop) (s : State) (p : Word) : Stepped W 0 0 s { s with disp := { s.disp with psw := p } } :=
  ⟨fun _ _ => rfl, rfl, id, rfl, rfl⟩

theorem deliverOr_stepped (W : Nat → Prop) (s : State) : Stepped W 0 0 s s.deliverOr := by
  unfold State.deliverOr
  split
  · exact Stepped.refl W s
  · split
    · exact Stepped.refl W s
    · refine Stepped.of_delivery_then ((setPsw_stepped W _ _).trans (fireIf_wrote W _ _ _).stepped) rfl rfl ?_
      exact State.fld_congr 7 0 ((State.reg_setBit_other _ _ _ (by decide)).trans (State.reg_setFld_other _ _ _ _ (by decide)))

theorem deliverFirst_stepped (W : Nat → Prop) (s : State) : Stepped W 0 0 s s.deliverFirst := by
  unfold State.deliverFirst
  split
  · exact Stepped.refl W s
  · split
    · exact Stepped.refl W s
    · refine Stepped.of_delivery rfl rfl (State.fld_congr 7 0 ?_)
      exact (State.reg_setFld_other _ _ _ _ (by decide)).trans ((State.reg_setFld_other _ _ _ _ (by decide)).trans
        ((State.reg_setBit_other _ _ _ (by decide)).trans (State.reg_setFld_other _ _ _ _ (by decide))))

theorem deliverCount_stepped (W : Nat → Prop) (s : State) : Stepped W 0 0 s s.deliverCount := by
  unfold State.deliverCount
  split
  · exact Stepped.refl W s
  · split
    · exact Stepped.refl W s
    · refine Stepped.of_delivery rfl rfl (State.fld_congr 7 0 ?_)
      exact (State.reg_setFld_other _ _ _ _ (by decide)).trans (State.reg_setFld_other _ _ _ _ (by decide))

theorem retireSnaps_stepped (W : Nat → Prop) (n : Nat) (s : State) : Stepped W 0 0 s (State.retireSnaps n s) := by
  induction n generalizing s with
  | zero => exact Stepped.refl W s
  | succ n ih =>
    unfold State.retireSnaps
    split
    · split
      · refine Stepped.of_delivery_then (ih _) rfl rfl ?_
        exact State.fld_setFld_disjoint _ _ _ (by decide) (by decide) (by decide)
      · exact Stepped.refl W s
    · exact Stepped.refl W s

theorem snapshot_stepped (W : Nat → Prop) (s : State) : Stepped W 0 1 s s.snapshot := by
  have take : ∀ (u : State) (x : Snap), x.num = (u.fld Reg.SB_SEQ 7 0 + 1) % 256 →
      Stepped W 0 1 u (({ u with arr := { u.arr with snaps := u.arr.snaps ++ [x] } }).setFld Reg.SB_SEQ 7 0 x.num) := by
    intro u x hx
    refine ⟨fun _ _ => rfl, rfl, id, ?_, rfl⟩
    rw [State.fld_setFld_same _ _ _ (by decide) (by decide), hx]
    exact (Nat.mod_modEq _ _).trans (Nat.mod_modEq _ _)
  unfold State.snapshot
  extract_lets s1
  have h1 : Stepped W 0 0 s s1 := by
    unfold s1
    split
    · exact ((deliverOr_stepped W s).trans (deliverFirst_stepped W _)).trans
        ((deliverCount_stepped W _).trans (retireSnaps_stepped W 4 _))
    · exact Stepped.refl W s
  exact h1.trans (take s1 _ rfl)

/-! One bit-step (R54 to R62, R93) -/

/-- The bit-step times of a bit-step: a broadcast line takes two (R74). -/
def Desc.cost (d : Desc) : Nat := if d.ns ≥ 6 then 2 else 1

/-- The planes a bit-step may write. -/
def Desc.writes (d : Desc) (a : Nat) : Prop := (d.we = true ∧ a = d.wa) ∨ 1024 ≤ a

theorem bitStep_eq (s : State) (d : Desc) : ∃ u, Wrote d.writes s u ∧
    s.bitStep d = if d.snap then (u.spend d.cost).snapshot else u.spend d.cost := by
  have hst : ∀ a, 1024 ≤ a → d.writes a := fun a ha => .inr ha
  have one : ∀ {c : Prop} [Decidable c] (u : State) (a : Nat) (ex : Nat → Bool) (gate val : Nat → Lanes), (c → d.writes a) →
      Wrote d.writes u (if c then u.writePlane a ex gate val else (u, [])).1 := by
    intro c _ u a ex gate val ha
    split
    · next hc => exact writePlane_wrote u ex gate val (ha hc)
    · exact Wrote.refl _ u
  unfold State.bitStep
  extract_lets ex exA exf mrd xrd yplane yrd zplane zrd frd x y z m pA p lA l notes0 all w1 w2 w3 f w4 w5 notes s6 s7
  have h1 : Wrote d.writes s w1.1 := one s d.wa exf m _ fun hwe => .inl ⟨hwe, rfl⟩
  have h2 : Wrote d.writes w1.1 w2.1 := one w1.1 planeC exf m _ fun _ => hst _ (by decide)
  have h3 : Wrote d.writes w2.1 w3.1 := one w2.1 planeN exf m _ fun _ => hst _ (by decide)
  have h4 : Wrote d.writes w3.1 w4.1 := one w3.1 planeF exf m _ fun _ => hst _ (by decide)
  have h5 : Wrote d.writes w4.1 w5.1 := one w4.1 planeM exf all _ fun _ => hst _ (by decide)
  have h6 : Wrote d.writes w5.1 s6 := by
    refine Wrote.trans (Wrote.ite (fun hwe => ?_) fun _ => Wrote.refl _ _)
      (copyStates_wrote _ (hst _ (by decide)) (hst _ (by decide)) (hst _ (by decide)) (hst _ (by decide)))
    exact (mirrorPlane_wrote _ (.inl ⟨hwe, rfl⟩)).trans (sweepAt_wrote _ _ _)
  exact ⟨(s6.account notes).useFree, ((((h1.trans h2).trans h3).trans h4).trans h5).trans
    (h6.trans ((account_wrote _ _ _).trans (useFree_wrote _ _))), rfl⟩

theorem Stepped.mono {V : Nat → Prop} {c j : Nat} (h : Stepped V c j s t) (hVW : ∀ a, V a → W a) : Stepped W c j s t :=
  ⟨fun a ha => h.planes a fun hv => ha (hVW a hv), h.bscnt, h.bscnt_lt, h.seq, h.disp⟩

theorem bitStep_stepped (s : State) (d : Desc) : Stepped d.writes d.cost d.snap.toNat s (s.bitStep d) := by
  obtain ⟨u, hu, he⟩ := bitStep_eq s d
  have hspent : Stepped d.writes d.cost 0 s (u.spend d.cost) := by
    simpa using hu.stepped.trans (spend_stepped d.writes u d.cost)
  rw [he]
  cases d.snap with
  | false => exact hspent
  | true => exact hspent.trans (snapshot_stepped d.writes _)

theorem bitStep_bscnt_lt (s : State) (d : Desc) : (s.bitStep d).arr.bscnt < 2 ^ 64 := by
  obtain ⟨u, -, he⟩ := bitStep_eq s d
  have hlt : (u.spend d.cost).arr.bscnt < 2 ^ 64 := Nat.mod_lt _ (by decide)
  rw [he]
  cases d.snap with
  | false => exact hlt
  | true => exact (snapshot_stepped d.writes _).bscnt_lt hlt

theorem bitSteps_stepped (ds : List Desc) (hW : ∀ d ∈ ds, ∀ a, d.writes a → W a) (s : State) :
    Stepped W (ds.map Desc.cost).sum (ds.countP Desc.snap) s (ds.foldl State.bitStep s) := by
  induction ds generalizing s with
  | nil => exact Stepped.refl W s
  | cons d ds ih =>
    have hd := (bitStep_stepped s d).mono (hW d (by simp))
    have hrest := hd.trans (ih (fun e he => hW e (by simp [he])) (s.bitStep d))
    rw [List.map_cons, List.sum_cons, List.countP_cons]
    have hsnap : (if d.snap = true then 1 else 0) = d.snap.toNat := by cases d.snap <;> rfl
    rw [hsnap, Nat.add_comm (List.countP _ _)]
    exact hrest

/-! The descriptors of FBIT (R126) -/

/-- The fields of a descriptor put together from the template `acc` and three addresses. -/
theorem descOf_template (acc : Word) {a b w : Nat} (ha : a < 1024) (hb : b < 1024) (hw : w < 1024) :
    let d := descOf (BitVec.ofNat 64 (acc.toNat % 2 ^ 25 * 2 ^ 30 + w * 2 ^ 20 + b * 2 ^ 10 + a))
    d.wa = w ∧ d.ns = bitsOf acc 19 17 ∧ d.we = acc.getLsbD 13 ∧ d.snap = acc.getLsbD 24 := by
  have hn : acc.toNat % 2 ^ 25 * 2 ^ 30 + w * 2 ^ 20 + b * 2 ^ 10 + a < 2 ^ 64 := by omega
  simp only [descOf, natBits, bitsOf, BitVec.toNat_ofNat, Nat.mod_eq_of_lt hn, BitVec.getLsbD, Nat.testBit_eq_decide_div_mod_eq]
  refine ⟨by omega, by omega, ?_, ?_⟩ <;> congr 2 <;> omega

theorem fbitDesc_fields (o : AOp) (acc : Word) (i : Nat) :
    (fbitDesc o acc i).wa = (o.fd + if o.aux.testBit 2 then i else 0) % 1024 ∧
      (fbitDesc o acc i).cost = (if 6 ≤ bitsOf acc 19 17 then 2 else 1) ∧ (fbitDesc o acc i).we = acc.getLsbD 13 ∧
      (fbitDesc o acc i).snap = (decide (i + 1 = widthOf o) || acc.getLsbD 24) := by
  have mod : ∀ n, n % 1024 < 1024 := fun n => Nat.mod_lt n (by decide)
  obtain ⟨hwa, hns, hwe, hsnap⟩ := descOf_template acc (mod (o.fa + if o.aux.testBit 0 then i else 0))
    (mod (o.fb + if o.aux.testBit 1 then i else 0)) (mod (o.fd + if o.aux.testBit 2 then i else 0))
  unfold fbitDesc Desc.cost
  by_cases h : i + 1 = widthOf o
  · simp only [if_pos h]
    exact ⟨hwa, by rw [← hns], hwe, by simp [h]⟩
  · simp only [if_neg h]
    exact ⟨hwa, by rw [← hns], hwe, hsnap.trans (by rw [decide_eq_false h, Bool.false_or])⟩

/-- The planes FBIT may write. -/
def fbitWrites (o : AOp) (acc : Word) (a : Nat) : Prop :=
  (acc.getLsbD 13 = true ∧ ∃ i, i < widthOf o ∧ a = (o.fd + if o.aux.testBit 2 then i else 0) % 1024) ∨ 1024 ≤ a

theorem fbit_eq_foldl (s : State) (o : AOp) (acc : Word) :
    s.fbit o acc = ((List.range (widthOf o)).map (fbitDesc o acc)).foldl State.bitStep s := List.foldl_map.symm

theorem fbitCosts (o : AOp) (acc : Word) :
    (((List.range (widthOf o)).map (fbitDesc o acc)).map Desc.cost).sum =
      if 6 ≤ bitsOf acc 19 17 then 2 * widthOf o else widthOf o := by
  have hc : ∀ d ∈ (List.range (widthOf o)).map (fbitDesc o acc), d.cost = if 6 ≤ bitsOf acc 19 17 then 2 else 1 := by
    simp only [List.mem_map]
    rintro _ ⟨i, -, rfl⟩
    exact (fbitDesc_fields o acc i).2.1
  rw [List.map_congr_left hc, List.map_const', List.sum_replicate, List.length_map, List.length_range]
  split <;> simp [Nat.mul_comm]

theorem fbitSnaps (o : AOp) {acc : Word} (h : acc.getLsbD 24 = false) :
    ((List.range (widthOf o)).map (fbitDesc o acc)).countP Desc.snap = 1 := by
  have hs : Desc.snap ∘ fbitDesc o acc = (· == o.wm1) := by
    funext i
    obtain ⟨-, -, -, hsnap⟩ := fbitDesc_fields o acc i
    rw [Function.comp, hsnap, h, Bool.or_false]
    exact Bool.eq_iff_iff.mpr (by simp [widthOf])
  rw [List.countP_map, hs]
  exact List.count_range.trans (if_pos (Nat.lt_succ_self _))

theorem fbit_stepped (s : State) (o : AOp) (acc : Word) :
    Stepped (fbitWrites o acc) (if 6 ≤ bitsOf acc 19 17 then 2 * widthOf o else widthOf o)
      (((List.range (widthOf o)).map (fbitDesc o acc)).countP Desc.snap) s (s.fbit o acc) := by
  rw [fbit_eq_foldl, ← fbitCosts]
  refine bitSteps_stepped _ (fun d hd a ha => ?_) s
  obtain ⟨i, hi, rfl⟩ := List.mem_map.mp hd
  obtain ⟨hwa, -, hwe, -⟩ := fbitDesc_fields o acc i
  rcases ha with ⟨h1, h2⟩ | h
  · exact .inl ⟨hwe ▸ h1, i, List.mem_range.mp hi, h2.trans hwa⟩
  · exact .inr h

theorem fbit_bscnt_lt (s : State) (o : AOp) (acc : Word) : (s.fbit o acc).arr.bscnt < 2 ^ 64 := by
  unfold State.fbit widthOf
  rw [List.range_succ, List.foldl_append]
  exact bitStep_bscnt_lt _ _

/-- Settles O15: the bit-steps of the run add up. -/
theorem bitStepRepetitions : Obligations.BitStepRepetitions := by
  intro s o hready _ _ _ _ n ns
  have hrun : s.arrayRun 0x2B o = (s.latchEdges.fbit o s.disp.acc).endArray := rfl
  have hstep := (latchEdges_wrote (fbitWrites o s.disp.acc) s).stepped.trans (fbit_stepped s.latchEdges o s.disp.acc)
  have hquiet : (s.latchEdges.fbit o s.disp.acc).disp.quiet := by
    rw [hstep.disp]
    exact hready.1.quiet
  have hkeeps : Keeps runZones s (s.latchEdges.fbit o s.disp.acc) :=
    State.fbit_keeps _ _ _ (State.latchEdges_keeps s (Keeps.rfl' _ s) (by decide)) (by decide)
  have hpc : (s.latchEdges.fbit o s.disp.acc).disp.pc = s.disp.pc := by rw [hstep.disp]
  refine ⟨s.arrayRun 0x2B o, exec_of_arrayReady rfl hready, ?_, ?_⟩
  · rw [hrun]
    exact (endArray_keeps_of_quiet hkeeps hquiet (by decide)).toOnly
  rw [hrun, State.endArray_of_quiet hquiet]
  refine ⟨?_, ?_, fun h24 => ?_, fun a ha hno => hstep.planes a ?_⟩
  · have hmod := hstep.bscnt
    rw [Nat.zero_add] at hmod
    exact (Nat.mod_eq_of_lt (fbit_bscnt_lt _ _ _)).symm.trans hmod
  · exact congrArg (· + 8) hpc
  · have hmod := hstep.seq
    rw [fbitSnaps o h24] at hmod
    exact (Nat.mod_eq_of_lt (bitsOf_lt _ _ _)).symm.trans hmod
  · rintro (⟨hwe, i, hi, hai⟩ | h)
    · rcases hno with h | h
      · rw [h] at hwe; exact nomatch hwe
      · exact h ⟨i, hi, hai⟩
    · omega

end Sys2Proof.Machine
end

section
/-! Proofs about the Traverser (O16): what a completion records, and what remains while a waiting FXFER or FSYNC goes on. -/

namespace Sys2Proof.Machine

variable {s t u : State}

/-! Sources stay pending (R474) -/

/-- Every source pending in `s` is pending in `t`. -/
def KeepsPending (s t : State) : Prop := ∀ i, s.pends i = true → t.pends i = true

theorem KeepsPending.trans (h : KeepsPending s t) (h' : KeepsPending t u) : KeepsPending s u := fun i hi => h' i (h i hi)

theorem blockOf_icPend (i : Nat) : blockOf (icReg Reg.IC_PEND i) = 1 :=
  blockOf_eq 1 0 (by decide) (by simp only [icReg, Reg.IC_PEND]; omega)

theorem KeepsPending.of_reg (h : ∀ a, blockOf a = 1 → t.reg a = s.reg a) : KeepsPending s t := fun i hi =>
  (State.bit_congr _ (h _ (blockOf_icPend i))).trans hi

theorem KeepsPending.of_keeps {fs : List Zone} (h : Keeps fs s t) (h1 : Zone.inList (.block 1) fs = false) : KeepsPending s t :=
  .of_reg fun a ha => h.only (.block 1) h1 a ha

theorem KeepsPending.setReg {a : Nat} (v : Word) (h : KeepsPending s t) (ha : blockOf a ≠ 1) : KeepsPending s (t.setReg a v) :=
  h.trans (.of_reg fun b hb => t.reg_setReg_other v (by rintro rfl; exact ha hb))

theorem KeepsPending.setBit {a : Nat} (n : Nat) (v : Bool) (h : KeepsPending s t) (ha : blockOf a ≠ 1) :
    KeepsPending s (t.setBit a n v) := h.setReg _ ha

theorem KeepsPending.fire (i : Nat) (h : KeepsPending s t) : KeepsPending s (t.fire i) :=
  h.trans fun _ => State.pends_fire_of_pends i

theorem KeepsPending.fireIf (c : Bool) (i : Nat) (h : KeepsPending s t) : KeepsPending s (t.fireIf c i) := by
  unfold State.fireIf
  split
  · exact h.fire i
  · exact h

/-! A waiting FXFER or FSYNC goes on (R128, R129, R139) -/

theorem bucketUp_keepsPending (s : State) (k : Nat) : KeepsPending s (s.bucketUp k) := by
  have hstat : blockOf (kindReg Reg.BKT_STAT k) ≠ 1 := by
    rw [blockOf_eq 8 0 (by decide) (by simp only [kindReg, Reg.BKT_STAT]; omega)]; decide
  have hself : KeepsPending s s := fun _ => id
  unfold State.bucketUp
  split
  · exact hself
  · split
    · exact ((hself.setReg _ hstat).setBit 31 true hstat).fire _
    · exact hself.setReg _ hstat

theorem countCE_keepsPending (s : State) (k addr syn : Nat) : KeepsPending s (s.countCE k addr syn) := by
  refine KeepsPending.trans (.of_keeps (fs := [.block 8]) (State.logCE_keeps _ k addr syn
    (satInc_keeps _ 31 0 (Keeps.rfl' _ s) ?_) (by decide)) (by decide)) (bucketUp_keepsPending _ k)
  rw [blockOf_eq 8 0 (by decide) (by simp only [kindReg, Reg.CE_COUNT]; omega)]
  decide

theorem suspectError_keepsPending (s : State) (b idx : Nat) (spare : Option Nat) (d : Word64) :
    KeepsPending s (s.suspectError b idx spare d) := by
  have hremap : ∀ e, blockOf (remapReg b e) ≠ 1 := fun e => by
    rw [blockOf_eq 8 0 (by decide) (by simp only [remapReg, Reg.REMAP]; omega)]; decide
  have hself : KeepsPending s s := fun _ => id
  unfold State.suspectError
  extract_lets key cur n
  split
  · exact hself
  · split
    · exact KeepsPending.fire 55 hself
    · next e _ =>
      have hcell : KeepsPending s (s.setSpCell (spareKey b e) (encode72 d)) := hself
      have hentry := hcell.setReg (BitVec.ofNat 32 (3 * 2 ^ 30 + idx)) (hremap e)
      cases spare with
      | none => exact hentry
      | some old => exact hentry.setBit 31 false (hremap old)

theorem spReadCell_keepsPending (s : State) (b idx : Nat) (spare : Option Nat) (addr : Nat) :
    KeepsPending s (s.spReadCell b idx spare addr).1 := by
  unfold State.spReadCell
  extract_lets key r
  split
  · exact fun _ => id
  · exact (countCE_keepsPending s 0 addr _).trans (suspectError_keepsPending _ b idx spare _)
  · exact (KeepsPending.of_keeps (fs := [.block 8]) (State.countUE_keeps s 0 addr _ (Keeps.rfl' _ s) (by decide)) (by decide)).fire 52

theorem spReadWords_keepsPending (n : Nat) (s : State) (w : Nat) : KeepsPending s (s.spReadWords w n).1 := by
  induction n generalizing s w with
  | zero => exact fun _ => id
  | succ n ih => exact (spReadCell_keepsPending s _ _ _ _).trans (ih _ _)

theorem trvHold_keepsPending (s : State) : KeepsPending s s.trvHold := by
  unfold State.trvHold State.trvCopy
  split
  · exact fun _ => id
  · exact spReadWords_keepsPending 4 s _

/-- The zones of the end of an instruction. -/
def endZones : List Zone := [.disp, .block 17, .sched, .kernels, .running, .log, .free]

/-- While the wait of an FXFER or FSYNC is judged no transfer ends and none starts; a waiting FXFER may be held. -/
theorem trvWake_frame (s : State) : s.trvWake.trv.active = s.trv.active ∧
    (s.trvWake.trv.held = s.trv.held ∨ ∃ y, s.trvWake.trv.held = s.trv.held ++ [y]) ∧
    (∀ a, blockOf a = 16 → s.trvWake.reg a = s.reg a) ∧ KeepsPending s s.trvWake := by
  have hreg : ∀ a, blockOf a = 16 → s.trvWake.reg a = s.reg a := fun a ha =>
    (State.trvWake_keeps (fs := endZones ++ holdZones) s (Keeps.rfl' _ s) (by decide)).only (.block 16) (by decide) a ha
  have hend : ∀ u : State, Keeps endZones u (({ u with disp := { u.disp with wait := .none } }).endInstr 8 noLate) := fun u =>
    State.endInstr_keeps _ 8 noLate (setDisp_keeps _ (Keeps.rfl' _ u) (by decide)) (by decide)
  have same : s.trvWake = s → s.trvWake.trv.active = s.trv.active ∧
      (s.trvWake.trv.held = s.trv.held ∨ ∃ y, s.trvWake.trv.held = s.trv.held ++ [y]) ∧ KeepsPending s s.trvWake := by
    intro h
    rw [h]
    exact ⟨rfl, .inl rfl, fun _ => id⟩
  suffices h : s.trvWake.trv.active = s.trv.active ∧
      (s.trvWake.trv.held = s.trv.held ∨ ∃ y, s.trvWake.trv.held = s.trv.held ++ [y]) ∧ KeepsPending s s.trvWake by
    obtain ⟨hactive, hheld, hpending⟩ := h
    exact ⟨hactive, hheld, hreg, hpending⟩
  cases hw : s.disp.wait with
  | fxfer =>
    by_cases hroom : s.trv.held.length < 4
    · have hwake : s.trvWake = ({ s.trvHold with disp := { s.trvHold.disp with wait := .none } }).endInstr 8 noLate := by
        simp only [State.trvWake, hw, if_pos hroom]
      obtain ⟨y, hy⟩ := s.trvHold_trv
      have htrv : s.trvWake.trv = s.trvHold.trv := by
        rw [hwake]
        exact (hend _).only .trv (by decide)
      refine ⟨by rw [htrv, hy], .inr ⟨y, by rw [htrv, hy]⟩, ?_⟩
      rw [hwake]
      exact (trvHold_keepsPending s).trans (KeepsPending.of_keeps (hend s.trvHold) (by decide))
    · exact same (by simp only [State.trvWake, hw, if_neg hroom])
  | fsync tag =>
    by_cases hheld : s.trvHolds tag = true
    · exact same (by simp only [State.trvWake, hw, if_pos hheld])
    · have hwake : s.trvWake = ({ s with disp := { s.disp with wait := .none } }).endInstr 8 noLate := by
        simp only [State.trvWake, hw, if_neg hheld]
      have htrv : s.trvWake.trv = s.trv := by
        rw [hwake]
        exact (hend _).only .trv (by decide)
      rw [htrv, hwake]
      exact ⟨rfl, .inl rfl, KeepsPending.of_keeps (hend s) (by decide)⟩
  | _ => exact same (by simp only [State.trvWake, hw])

theorem trvWake_of_notWaiting (h : ∀ tag, s.disp.wait ≠ .fxfer ∧ s.disp.wait ≠ .fsync tag) : s.trvWake = s := by
  unfold State.trvWake
  split
  · next hw => exact absurd hw (h 0).1
  · next tag hw => exact absurd hw (h tag).2
  · rfl

theorem setTrv_keeps {fs : List Zone} {s0 : State} (v : Trv) (h : Keeps fs s0 s) (hd : Zone.inList .trv fs = true) :
    Keeps fs s0 { s with trv := v } where
  only f hf := by
    have h0 := h.only f hf
    cases f
    case trv => exact absurd hd (by simp [hf])
    all_goals exact h0
  canon := h.canon
  queue := h.queue
  out := h.out

/-! A completion (R143 to R145) -/

/-- The registers that a completion writes. -/
def trvRegs : List Nat := [Reg.TRV_DONE, Reg.TRV_ERR, Reg.TRV_ERR_WORD]

theorem Xfer.tag_lt (x : Xfer) : x.tag < 16 := Nat.mod_lt _ (by decide)

/-- What every completion does: DONE of the tag is set, and source 68 where it is enabled. -/
def State.trvDone (s : State) (x : Xfer) : State := (s.setBit Reg.TRV_DONE x.tag true).fireIf (s.bit Reg.TRV_IRQ_EN x.tag) 68

theorem trvDone_reg (s : State) (x : Xfer) {a : Nat} (h : a ≠ Reg.TRV_DONE) (h1 : blockOf a ≠ 1) : (s.trvDone x).reg a = s.reg a :=
  (State.reg_fireIf _ _ _ h1).trans (State.reg_setBit_other s _ _ h)

/-- What a completion keeps: every register but its own, the DONE bits that are set, and the sources that pend. -/
structure Completed (s t : State) : Prop where
  regs : RegsBut trvRegs s t
  done : ∀ n, s.bit Reg.TRV_DONE n = true → t.bit Reg.TRV_DONE n = true
  pends : KeepsPending s t
  trv : t.trv = s.trv
  disp : t.disp = s.disp

theorem Completed.refl (s : State) : Completed s s := ⟨fun _ _ _ => rfl, fun _ => id, fun _ => id, rfl, rfl⟩

theorem Completed.trans (h : Completed s t) (h' : Completed t u) : Completed s u where
  regs a ha h1 := (h'.regs a ha h1).trans (h.regs a ha h1)
  done n hn := h'.done n (h.done n hn)
  pends := h.pends.trans h'.pends
  trv := h'.trv.trans h.trv
  disp := h'.disp.trans h.disp

theorem Completed.setReg {a : Nat} (v : Word) (h : Completed s t) (ha : a = Reg.TRV_ERR ∨ a = Reg.TRV_ERR_WORD) :
    Completed s (t.setReg a v) := by
  have hblock : blockOf a ≠ 1 := by rcases ha with rfl | rfl <;> decide
  refine h.trans ⟨fun b hb _ => t.reg_setReg_other v ?_, fun n hn => ?_, KeepsPending.setReg v (fun _ => id) hblock, rfl, rfl⟩
  · rintro rfl
    rcases ha with rfl | rfl <;> exact hb (by decide)
  · have hne : Reg.TRV_DONE ≠ a := by rcases ha with rfl | rfl <;> decide
    exact (State.bit_congr n (t.reg_setReg_other v hne)).trans hn

theorem Completed.fire (i : Nat) (h : Completed s t) : Completed s (t.fire i) := by
  have hk : Keeps [.block 1, .out] t (t.fire i) := State.fire_keeps t i (Keeps.rfl' _ t) (by decide)
  exact h.trans ⟨fun a _ ha => t.reg_fire i ha, fun n hn => (t.bit_fire i n (by decide)).trans hn, fun _ => State.pends_fire_of_pends i,
    hk.only .trv (by decide), hk.only .disp (by decide)⟩

theorem trvDone_completed (s : State) (x : Xfer) : Completed s (s.trvDone x) := by
  have htag := x.tag_lt
  have hset : Completed s (s.setBit Reg.TRV_DONE x.tag true) :=
    ⟨fun a ha _ => s.reg_setBit_other _ _ (by rintro rfl; exact ha (by decide)), fun n => State.bit_setBit_true (by omega),
      KeepsPending.setBit _ _ (fun _ => id) (by decide), rfl, rfl⟩
  unfold State.trvDone State.fireIf
  split
  · exact hset.fire 68
  · exact hset

theorem trvDone_done (s : State) (x : Xfer) : (s.trvDone x).bit Reg.TRV_DONE x.tag = true := by
  have htag := x.tag_lt
  rw [State.trvDone, State.bit_fireIf _ _ _ _ (by decide)]
  exact s.bit_setBit_same _ true (by omega)

theorem trvDone_pends (x : Xfer) (h : s.bit Reg.TRV_IRQ_EN x.tag = true) : (s.trvDone x).pends 68 = true := by
  rw [State.trvDone, h]
  exact State.pends_fire_self _ 68

theorem trvComplete_none (s : State) (x : Xfer) (r : Resp) (off : Nat) : s.trvComplete x .none r off = s.trvDone x := rfl

/-- A later error only sets the bit that says so (R144). -/
theorem trvComplete_again {c : Cause} (x : Xfer) (r : Resp) (off : Nat) (hc : c ≠ .none) (h : s.bit Reg.TRV_ERR 15 = true) :
    s.trvComplete x c r off = ((s.trvDone x).setBit Reg.TRV_ERR 16 true).fire 69 := by
  have hbit : (s.trvDone x).bit Reg.TRV_ERR 15 = true := (State.bit_congr 15 (trvDone_reg s x (by decide) (by decide))).trans h
  unfold State.trvDone at hbit ⊢
  simp only [State.trvComplete, if_neg hc, if_pos hbit]

/-- The first error fills the record (R144). -/
theorem trvComplete_first {c : Cause} (x : Xfer) (r : Resp) (off : Nat) (hc : c ≠ .none) (h : s.bit Reg.TRV_ERR 15 = false) :
    s.trvComplete x c r off = (((s.trvDone x).setReg Reg.TRV_ERR (BitVec.ofNat 32
        ((if (s.trvDone x).bit Reg.TRV_ERR 16 then 2 ^ 16 else 0) + 2 ^ 15 +
          (if c == .readErr || c == .writeErr then respCode r else 0) * 2 ^ 8 + causeCode c * 2 ^ 4 + x.tag))).setReg
        Reg.TRV_ERR_WORD (BitVec.ofNat 32 (if c == .readErr || c == .writeErr then off else 0))).fire 69 := by
  have hbit : ¬ (s.trvDone x).bit Reg.TRV_ERR 15 = true := by
    rw [State.bit_congr 15 (trvDone_reg s x (by decide) (by decide)), h]; decide
  unfold State.trvDone at hbit ⊢
  simp only [State.trvComplete, if_neg hc, if_neg hbit]

/-- After its first half a completion with an error writes the record and fires source 69. -/
theorem trvComplete_error {c : Cause} (s : State) (x : Xfer) (r : Resp) (off : Nat) (hc : c ≠ .none) :
    ∃ u, Completed (s.trvDone x) u ∧ s.trvComplete x c r off = u.fire 69 := by
  cases h : s.bit Reg.TRV_ERR 15 with
  | true => exact ⟨_, (Completed.refl _).setReg _ (.inl rfl), trvComplete_again x r off hc h⟩
  | false => exact ⟨_, ((Completed.refl _).setReg _ (.inl rfl)).setReg _ (.inr rfl), trvComplete_first x r off hc h⟩

theorem trvDone_trvComplete (s : State) (x : Xfer) (c : Cause) (r : Resp) (off : Nat) :
    Completed (s.trvDone x) (s.trvComplete x c r off) := by
  by_cases hc : c = .none
  · rw [hc, trvComplete_none]
    exact Completed.refl _
  · obtain ⟨u, hu, he⟩ := trvComplete_error s x r off hc
    rw [he]
    exact hu.fire 69

theorem trvComplete_completed (s : State) (x : Xfer) (c : Cause) (r : Resp) (off : Nat) : Completed s (s.trvComplete x c r off) :=
  (trvDone_completed s x).trans (trvDone_trvComplete s x c r off)

theorem trvComplete_done (s : State) (x : Xfer) (c : Cause) (r : Resp) (off : Nat) :
    (s.trvComplete x c r off).bit Reg.TRV_DONE x.tag = true :=
  (trvDone_trvComplete s x c r off).done _ (trvDone_done s x)

theorem trvComplete_pends_69 {c : Cause} (s : State) (x : Xfer) (r : Resp) (off : Nat) (hc : c ≠ .none) :
    (s.trvComplete x c r off).pends 69 = true := by
  obtain ⟨u, -, he⟩ := trvComplete_error s x r off hc
  rw [he]
  exact State.pends_fire_self u 69

/-- The record of the first error: VALID, the cause and the tag; no word of memory for a cause that names none. -/
theorem trvComplete_record {c : Cause} (x : Xfer) (r : Resp) (off : Nat) (hc : c ≠ .none) (hmem : c ≠ .readErr ∧ c ≠ .writeErr)
    (h : s.bit Reg.TRV_ERR 15 = false) : let t := s.trvComplete x c r off
    t.bit Reg.TRV_ERR 15 = true ∧ t.fld Reg.TRV_ERR 6 4 = causeCode c ∧ t.fld Reg.TRV_ERR 3 0 = x.tag ∧ t.reg Reg.TRV_ERR_WORD = 0 := by
  intro t
  have hio : (c == .readErr || c == .writeErr) = false := by simp [hmem]
  have hcode : causeCode c < 8 := by cases c <;> decide
  have htag := x.tag_lt
  have ht := trvComplete_first x r off hc h
  simp only [hio, Bool.false_eq_true, if_false] at ht
  have hmore : (if (s.trvDone x).bit Reg.TRV_ERR 16 then 2 ^ 16 else 0) = 0 ∨
      (if (s.trvDone x).bit Reg.TRV_ERR 16 then 2 ^ 16 else 0) = 2 ^ 16 := by split <;> simp
  generalize (if (s.trvDone x).bit Reg.TRV_ERR 16 then 2 ^ 16 else 0) = more at ht hmore
  have herr : t.reg Reg.TRV_ERR = BitVec.ofNat 32 (more + 2 ^ 15 + 0 * 2 ^ 8 + causeCode c * 2 ^ 4 + x.tag) := by
    rw [show t = _ from ht, State.reg_fire _ _ (by decide), State.reg_setReg_other _ _ (by decide), State.reg_setReg_same]
  refine ⟨?_, ?_, ?_, ?_⟩
  · rw [State.bit, herr, BitVec.getLsbD, BitVec.toNat_ofNat, Nat.testBit_eq_decide_div_mod_eq, decide_eq_true_iff]
    omega
  · rw [State.fld, herr, bitsOf, BitVec.toNat_ofNat]
    omega
  · rw [State.fld, herr, bitsOf, BitVec.toNat_ofNat]
    omega
  · rw [show t = _ from ht, State.reg_fire _ _ (by decide), State.reg_setReg_same]
    rfl

/-- With an error recorded the record stays, but for the bit that says there was another. -/
theorem trvComplete_recorded {c : Cause} (x : Xfer) (r : Resp) (off : Nat) (hc : c ≠ .none) (h : s.bit Reg.TRV_ERR 15 = true) :
    let t := s.trvComplete x c r off
    t.bit Reg.TRV_ERR 16 = true ∧ ∀ n, n ≠ 16 → t.bit Reg.TRV_ERR n = s.bit Reg.TRV_ERR n := by
  intro t
  rw [show t = _ from trvComplete_again x r off hc h]
  refine ⟨?_, fun n hn => ?_⟩
  · rw [State.bit_fire _ _ _ (by decide), State.bit_setBit_same _ _ _ (by decide)]
  · rw [State.bit_fire _ _ _ (by decide), State.bit_setBit_bit _ _ _ (by decide) hn]
    exact State.bit_congr n (trvDone_reg s x (by decide) (by decide))

theorem fld_eq_of_bits {a hi lo : Nat} (h : ∀ n, n ≤ hi → t.bit a n = s.bit a n) : t.fld a hi lo = s.fld a hi lo :=
  bitsOf_congr fun n _ hn => h n hn

/-! Every held transfer aborted (R141) -/

/-- Each of `xs` completes with cause ABORTED. -/
def State.abortAll (s : State) (xs : List Xfer) : State := xs.foldl (fun s x => s.trvComplete x .aborted .ok 0) s

theorem abortAll_completed (xs : List Xfer) (s : State) : Completed s (s.abortAll xs) := by
  induction xs generalizing s with
  | nil => exact Completed.refl s
  | cons x xs ih => exact (trvComplete_completed s x _ _ _).trans (ih _)

theorem abortAll_done (xs : List Xfer) (s : State) : ∀ x ∈ xs, (s.abortAll xs).bit Reg.TRV_DONE x.tag = true := by
  induction xs generalizing s with
  | nil => exact fun _ h => nomatch h
  | cons y ys ih =>
    intro x hx
    rcases List.mem_cons.mp hx with rfl | hx
    · exact (abortAll_completed ys _).done _ (trvComplete_done s x _ _ _)
    · exact ih _ x hx

/-- Once an error is recorded, what follows leaves its record. -/
theorem abortAll_recorded (xs : List Xfer) (s : State) (h : s.bit Reg.TRV_ERR 15 = true) :
    ∀ n, n ≠ 16 → (s.abortAll xs).bit Reg.TRV_ERR n = s.bit Reg.TRV_ERR n := by
  induction xs generalizing s with
  | nil => exact fun _ _ => rfl
  | cons x xs ih =>
    obtain ⟨-, hbits⟩ := trvComplete_recorded x .ok 0 (c := .aborted) (by decide) h
    exact fun n hn => (ih _ ((hbits 15 (by decide)).trans h) n hn).trans (hbits n hn)

theorem abortAll_cons (s : State) (x : Xfer) (xs : List Xfer) :
    s.abortAll (x :: xs) = (s.trvComplete x .aborted .ok 0).abortAll xs := rfl

/-- What the end of a load in progress leaves in its planes (R141). -/
theorem trvAbort_eq (s : State) : ∃ u, (∀ fs, subF [.free, .planes] fs = true → Keeps fs s u) ∧
    s.trvAbort = (({ u with trv := ⟨[], false⟩ } : State).abortAll s.trv.held).trvWake := by
  refine ⟨_, fun fs hfs => ?_, rfl⟩
  refine keeps_foldl _ _ (Keeps.rfl' _ s) fun u x hu => keeps_foldl _ _ hu fun u i hu => ?_
  exact State.useFree_keeps _ (State.writePlane_keeps _ _ _ _ _ hu (subF_trans (by decide) hfs)) (subF_trans (by decide) hfs)

/-! The three commands -/

theorem useFree_trv (s : State) : s.useFree.trv = s.trv := rfl

/-- A transfer in progress moves its data in some way, then completes with some cause (R143). -/
theorem transferDone_eq {x : Xfer} {rest : List Xfer} (met : List Nat) (hheld : s.trv.held = x :: rest) (hact : s.trv.active = true)
    (hfence : ∀ p, p < 4 → s.fence p = 0) : ∃ (u : State) (c : Cause) (r : Resp) (off : Nat),
    u.trv = ⟨rest, false⟩ ∧ s.transferDone met = (u.trvComplete x c r off).trvWake := by
  have hopen : ((List.range 4).any fun p => s.fence p != 0) = false := by
    simp only [List.any_eq_false, List.mem_range, bne_iff_ne, ne_eq, not_not]
    exact hfence
  simp only [State.transferDone, hact, hheld, hopen, Bool.false_eq_true, if_false]
  split
  · exact ⟨_, _, _, _, useFree_trv _, rfl⟩
  · exact ⟨_, _, _, _, useFree_trv _, rfl⟩

/-- Settles O16: a completion and what waits for it (`Completed`, `trvWake_frame`), for one transfer or for all of them. -/
theorem traverserTransfers : Obligations.TraverserTransfers := by
  intro s x rest hheld hwait
  refine ⟨fun hact hok => ?_, fun hact hok => ?_, fun met hact hfence => ?_, ?_⟩
  · have hstart : s.trvStart = { s with trv := { s.trv with active := true } } := by
      simp only [State.trvStart, hact, hheld, hok, Bool.false_eq_true, if_false, if_true]
    exact congrArg Host.Outcome.next hstart
  · let s1 : State := { s with trv := { s.trv with held := rest } }
    have hcomp := trvComplete_completed s1 x .badDesc .ok 0
    have hstart : s.trvStart = s1.trvComplete x .badDesc .ok 0 := by
      refine Eq.trans ?_ (trvWake_of_notWaiting (by rw [hcomp.disp]; exact hwait))
      simp only [State.trvStart, hact, hheld, hok, Bool.false_eq_true, if_false, s1]
    refine does_of_keeps (congrArg Host.Outcome.next hstart)
      (State.trvComplete_keeps _ x .badDesc .ok 0 (setTrv_keeps _ (Keeps.rfl' _ s) (by decide)) (by decide)) ⟨?_, trvComplete_done _ _ _ _ _,
        trvComplete_pends_69 _ _ _ _ (by decide), trvComplete_record (s := s1) x .ok 0 (by decide) (by decide), fun h => ?_, hcomp.regs⟩
    · rw [hcomp.trv]
      simp only [s1, hact]
    · obtain ⟨hmore, hbits⟩ := trvComplete_recorded (s := s1) x .ok 0 (c := .badDesc) (by decide) h
      exact ⟨hmore, fld_eq_of_bits (s := s1) fun n hn => hbits n (by omega)⟩
  · obtain ⟨u, c, r, off, hu, he⟩ := transferDone_eq met hheld hact hfence
    have hcomp := trvComplete_completed u x c r off
    have hen := hcomp.regs Reg.TRV_IRQ_EN (by decide) (by decide)
    have hdone := trvComplete_done u x c r off
    have h68 : u.bit Reg.TRV_IRQ_EN x.tag = true → (u.trvComplete x c r off).pends 68 = true := fun h =>
      (trvDone_trvComplete u x c r off).pends 68 (trvDone_pends x h)
    have htrv := hcomp.trv.trans hu
    generalize u.trvComplete x c r off = w at he hen hdone h68 htrv
    obtain ⟨hactive, hnext, hregs, hpends⟩ := trvWake_frame w
    rw [htrv] at hactive hnext
    refine ⟨w.trvWake, congrArg Host.Outcome.next he, hactive, hnext, ?_, fun hirq => hpends 68 (h68 ?_)⟩
    · exact (State.bit_congr _ (hregs Reg.TRV_DONE (by decide))).trans hdone
    · exact ((State.bit_congr x.tag (hregs Reg.TRV_IRQ_EN (by decide))).trans (State.bit_congr x.tag hen)).symm.trans hirq
  · obtain ⟨u, hu, he⟩ := trvAbort_eq s
    let s1 : State := { u with trv := ⟨[], false⟩ }
    have hcomp := abortAll_completed s.trv.held s1
    have hreg : ∀ a, s1.reg a = s.reg a := fun a =>
      (hu [.free, .planes] (by decide)).only (.block (blockOf a)) (by simp [Zone.inList]) a rfl
    have hdisp : s1.disp = s.disp := (hu [.free, .planes] (by decide)).only .disp (by decide)
    have habort : s.trvAbort = s1.abortAll s.trv.held := by
      rw [he]
      exact trvWake_of_notWaiting (by rw [hcomp.disp, hdisp]; exact hwait)
    have hrest := abortAll_completed rest (s1.trvComplete x .aborted .ok 0)
    have hk : Keeps [.free, .planes, .trv, .block 1, .out, .block 16] s (s1.abortAll s.trv.held) :=
      keeps_foldl _ _ (setTrv_keeps _ (hu _ (by decide)) (by decide)) fun v y hv =>
        State.trvComplete_keeps v y .aborted .ok 0 hv (by decide)
    refine does_of_keeps (congrArg Host.Outcome.next habort) hk ⟨hcomp.trv, abortAll_done s.trv.held s1, ?_, fun h => ?_, ?_⟩
    · rw [hheld, abortAll_cons]
      exact hrest.pends 69 (trvComplete_pends_69 s1 x .ok 0 (by decide))
    · obtain ⟨hvalid, hcause, htag, -⟩ := trvComplete_record (s := s1) x .ok 0 (c := .aborted) (by decide) (by decide)
        ((State.bit_congr 15 (hreg _)).trans h)
      have hbits := abortAll_recorded rest _ hvalid
      rw [hheld, abortAll_cons]
      exact ⟨(hbits 15 (by decide)).trans hvalid, (fld_eq_of_bits fun n hn => hbits n (by omega)).trans hcause,
        (fld_eq_of_bits fun n hn => hbits n (by omega)).trans htag⟩
    · exact fun a ha h1 => (hcomp.regs a ha h1).trans (hreg a)

end Sys2Proof.Machine
end

section
/-! Proofs about planes (O12): what a PE holds after its planes were written, in an array without substitutions or mirror. -/

namespace Sys2Proof.Machine

variable {s t u : State}

/-! The code (R155, R156) -/

theorem extractLsb'_append_low {n m : Nat} (x : BitVec n) (y : BitVec m) : (x ++ y).extractLsb' 0 m = y := by
  ext i hi
  simp [BitVec.getLsbD_append, hi]

theorem extractLsb'_append_high {n m : Nat} (x : BitVec n) (y : BitVec m) : (x ++ y).extractLsb' m n = x := by
  ext i hi
  simp [BitVec.getLsbD_append, hi]

theorem getLsbD_append_low {n m i : Nat} (x : BitVec n) (y : BitVec m) (hi : i < m) : (x ++ y).getLsbD i = y.getLsbD i := by
  rw [BitVec.getLsbD_append, if_pos hi]

theorem decode72_encode72 (d : Word64) : decode72 (encode72 d) = (d, .clean) := by
  have hlow : (encode72 d).extractLsb' 0 64 = d := extractLsb'_append_low (checkBits d) d
  have hhigh : (encode72 d).extractLsb' 64 8 = checkBits d := extractLsb'_append_high (checkBits d) d
  simp only [decode72, hlow, hhigh, BitVec.xor_self]
  rfl

/-- Without an active slot the code word of a row word is the one stored. -/
theorem gather_scatter {v w : Subs} (hv0 : v.st0 ≠ 2) (hv1 : v.st1 ≠ 2) (hw0 : w.st0 ≠ 2) (hw1 : w.st1 ≠ 2) (old : Word74)
    (c : Word72) (sid : BitVec 2) : w.gather (v.scatter old c sid) = c := by
  have hkeep : (c &&& ~~~(0 ||| 0 : Word72)) ||| (old.extractLsb' 0 72 &&& (0 ||| 0)) = c := by
    rw [show (0 ||| 0 : Word72) = 0#72 from rfl, BitVec.and_zero, BitVec.or_zero, BitVec.not_zero, BitVec.and_allOnes]
  simp only [Subs.gather, Subs.scatter, if_neg hv0, if_neg hv1, if_neg hw0, if_neg hw1, hkeep]
  exact extractLsb'_append_low _ c

/-! Cells (R51, R52) -/

theorem Store.dense_length {α : Type} (d : Nat → α) (n k : Nat) (m : List (Nat × α)) : (Store.dense d k n m).length = n := by
  induction n generalizing k m with
  | zero => rfl
  | succ n ih =>
    cases m with
    | nil => simp [Store.dense, ih]
    | cons e m =>
      simp only [Store.dense]
      split <;> simp [ih]

theorem Store.dense_of_rising {α : Type} (d : Nat → α) (n k : Nat) (m : List (Nat × α)) (h : Store.rising (some k) m = true) :
    Store.dense d k (n + 1) m = d k :: Store.dense d (k + 1) n m := by
  cases m with
  | nil => rfl
  | cons e m =>
    have hk : k < e.1 := by
      simp only [Store.rising, Bool.and_eq_true, decide_eq_true_eq] at h
      exact h.1
    simp only [Store.dense, if_neg (show ¬ e.1 = k by omega)]

theorem Store.dense_sparse {α : Type} [DecidableEq α] (d : Nat → α) (vs : List α) (k : Nat) :
    Store.dense d k vs.length (Store.sparse d k vs) = vs := by
  induction vs generalizing k with
  | nil => rfl
  | cons v vs ih =>
    by_cases hv : v = d k
    · have hrising : Store.rising (some k) (Store.sparse d (k + 1) vs) = true :=
        Store.rising_sparse d vs (k + 1) (some k) fun c hc => by cases hc; omega
      rw [Store.sparse, if_pos hv, List.length_cons, Store.dense_of_rising d _ _ _ hrising, ih, hv]
    · rw [Store.sparse, if_neg hv, List.length_cons, Store.dense, if_pos rfl, ih]

@[simp] theorem State.planeCells_length (s : State) (a : Nat) : (s.planeCells a).length = rowWords := Store.dense_length _ _ _ _

theorem State.planeCells_setPlaneCells_same (s : State) (a : Nat) {cells : List (Option Word74)} (h : cells.length = rowWords) :
    (s.setPlaneCells a cells).planeCells a = cells := by
  have hget : Store.get (fun _ => []) (s.setPlaneCells a cells).arr.planes a = Store.sparse (planeDefault s.arr.base a) 0 cells :=
    Store.get_set_same _ _ _ _
  rw [State.planeCells, hget, ← h]
  exact Store.dense_sparse _ cells 0

theorem State.planeCells_congr {a : Nat} (hbase : t.arr.base = s.arr.base)
    (hplanes : Store.get (fun _ => []) t.arr.planes a = Store.get (fun _ => []) s.arr.planes a) : t.planeCells a = s.planeCells a := by
  rw [State.planeCells, State.planeCells, hbase, hplanes]

/-! Row words as read (R65, R156 to R158) -/

theorem State.readPlane_getElem? (s : State) (a k : Nat) :
    (s.readPlane a)[k]? = (s.planeCells a)[k]?.map (readCell s a k) := by
  simp only [State.readPlane, List.getElem?_toArray, List.getElem?_map, List.getElem?_zipIdx, Option.map_map, Nat.zero_add]
  rfl

theorem State.exists_cell (s : State) (a : Nat) {k : Nat} (hk : k < 2304) : ∃ c, (s.planeCells a)[k]? = some c :=
  ⟨_, List.getElem?_eq_getElem (by rw [s.planeCells_length]; exact hk)⟩

theorem State.readPlane_congr {a : Nat} (hfree : t.free = s.free) (hcells : t.planeCells a = s.planeCells a)
    (hsub : ∀ p j, t.subOf p j = s.subOf p j) : t.readPlane a = s.readPlane a := by
  have hcell : ∀ k c, readCell t a k c = readCell s a k c := fun k c => by
    simp only [readCell, cellWord, State.subsOf, hsub, hfree]
  simp only [State.readPlane, hcells, hcell]

/-- No column is substituted or shadowed. -/
def State.noSub (s : State) : Prop := ∀ p j, (s.subOf p j).1 = 0

theorem State.plainArray.noSub (h : s.plainArray) : s.noSub := by
  intro p j
  have hp : s.subOf p j = s.subOf (p % 72) j := by
    simp only [State.subOf, colSubReg, Nat.mod_mod]
  rw [hp]
  obtain ⟨h0, h1⟩ := h.1 (p % 72) (Nat.mod_lt _ (by decide))
  by_cases hj : j = 0
  · rw [hj]; exact h0
  · rw [show s.subOf (p % 72) j = s.subOf (p % 72) 1 by simp only [State.subOf, if_neg hj, if_neg Nat.one_ne_zero]]
    exact h1

theorem State.noSub.st0 (h : s.noSub) (p : Nat) : (s.subsOf p).st0 = 0 := h p 0
theorem State.noSub.st1 (h : s.noSub) (p : Nat) : (s.subsOf p).st1 = 0 := h p 1

/-- Row word `k` of plane `a` is a cell that stores the data `f`, one bit a column. -/
def State.stores (s : State) (a k : Nat) (f : Nat → Bool) : Prop :=
  ∃ (v : Subs) (old : Word74) (d : Word64) (sid : BitVec 2), v.st0 = 0 ∧ v.st1 = 0 ∧
    (s.planeCells a)[k]? = some (some (v.scatter old (encode72 d) sid)) ∧ ∀ col, col < 64 → d.getLsbD col = f col

theorem State.stores.congr {a k : Nat} {f : Nat → Bool} (h : s.stores a k f) (ht : t.planeCells a = s.planeCells a) : t.stores a k f := by
  obtain ⟨v, old, d, sid, h0, h1, hcell, hd⟩ := h
  exact ⟨v, old, d, sid, h0, h1, by rw [ht]; exact hcell, hd⟩

/-- A cell that stores data reads as that data. -/
theorem State.stores.peBit {a k col : Nat} {f : Nat → Bool} (h : s.stores a k f) (hs : s.noSub) (hcol : col < 64) :
    s.peBit a k col = f col := by
  obtain ⟨v, old, d, sid, h0, h1, hcell, hd⟩ := h
  have hgather : (s.subsOf (k / 32)).gather (v.scatter old (encode72 d) sid) = encode72 d :=
    gather_scatter (by rw [h0]; decide) (by rw [h1]; decide) (by rw [hs.st0]; decide) (by rw [hs.st1]; decide) _ _ _
  rw [← hd col hcol, State.peBit, laneAt, s.readPlane_getElem?, hcell]
  simp only [Option.map_some, Option.getD_some, readCell, cellWord, hgather, decode72_encode72, BitVec.getLsbD_append, if_pos hcol]

/-! Writing a plane (R53, R57, R64) -/

/-- What a write leaves in a row word of a Platform that executes: the value where the gate is open, else the old bit. -/
theorem State.writePlane_stores (s : State) {a k : Nat} {ex : Nat → Bool} (gate val : Nat → Lanes) (hs : s.noSub) (hk : k < 2304)
    (hex : ex (k / 32) = true) (hgood : s.readable a) : ((s.writePlane a ex gate val).1).stores a k fun col =>
      if (gate k).getLsbD col then (val k).getLsbD col else s.peBit a k col := by
  obtain ⟨c, hc⟩ := s.exists_cell a hk
  have hread : (s.readPlane a)[k]? = some (readCell s a k c) := by rw [s.readPlane_getElem?, hc]; rfl
  have hstat := hgood k hk _ hread
  unfold State.writePlane
  extract_lets rd cells full arrayOn laneOn on new notes
  have hrd : rd.getD k ⟨0, .clean, 0⟩ = readCell s a k c := by
    rw [Array.getD_eq_getD_getElem?, hread]; rfl
  have hlow : ∀ col, col < 64 → (on.getD (k / 32) 0).getLsbD col = true := fun col hcol => by
    have hon : on.getD (k / 32) 0 = laneOn (k / 32) := by
      have h72 : k / 32 < 72 := by omega
      simp [on, Array.getD_eq_getD_getElem?, h72]
    rw [hon]
    exact (getLsbD_append_low _ full hcol).trans (BitVec.getLsbD_allOnes.trans (decide_eq_true hcol))
  generalize hg : gate k &&& on.getD (k / 32) 0 = g
  have hnew : new[k]? = some (some ((s.subsOf (k / 32)).scatter (readCell s a k c).raw
      (encode72 (((val k &&& g) ||| ((readCell s a k c).lanes &&& ~~~g)).extractLsb' 0 64))
      (((val k &&& g) ||| ((readCell s a k c).lanes &&& ~~~g)).extractLsb' 64 2))) := by
    simp only [new, List.getElem?_map, List.getElem?_zipIdx, cells, hc, Option.map_some, Nat.zero_add, hex, if_true, hrd, hg]
  rw [← State.planeCells_setPlaneCells_same s a (show new.length = rowWords by simp [new, cells])] at hnew
  refine ⟨_, _, _, _, hs.st0 _, hs.st1 _, hnew, fun col hcol => ?_⟩
  have hpe : s.peBit a k col = (readCell s a k c).lanes.getLsbD col := by
    rw [State.peBit, laneAt, hread]; rfl
  have hgcol : g.getLsbD col = (gate k).getLsbD col := by
    rw [← hg, BitVec.getLsbD_and, hlow col hcol, Bool.and_true]
  have h66 : col < 66 := by omega
  beta_reduce
  rw [hpe, BitVec.getLsbD_extractLsb', Nat.zero_add, BitVec.getLsbD_or, BitVec.getLsbD_and, BitVec.getLsbD_and, BitVec.getLsbD_not,
    hgcol]
  cases (gate k).getLsbD col <;> simp [hcol, h66]

/-! Writing several (R110) -/

/-- From `s` to `t` only planes changed. -/
def PlanesOnly (s t : State) : Prop := ∃ ps, t = { s with arr := { s.arr with planes := ps } }

theorem PlanesOnly.refl (s : State) : PlanesOnly s s := ⟨s.arr.planes, rfl⟩

theorem PlanesOnly.trans (h : PlanesOnly s t) (h' : PlanesOnly t u) : PlanesOnly s u := by
  obtain ⟨ps, rfl⟩ := h
  obtain ⟨qs, rfl⟩ := h'
  exact ⟨qs, rfl⟩

theorem PlanesOnly.base (h : PlanesOnly s t) : t.arr.base = s.arr.base := by obtain ⟨ps, rfl⟩ := h; rfl
theorem PlanesOnly.free (h : PlanesOnly s t) : t.free = s.free := by obtain ⟨ps, rfl⟩ := h; rfl
theorem PlanesOnly.subOf (h : PlanesOnly s t) (p j : Nat) : t.subOf p j = s.subOf p j := by obtain ⟨ps, rfl⟩ := h; rfl

theorem PlanesOnly.plainArray (h : PlanesOnly s t) (hs : s.plainArray) : t.plainArray := by
  obtain ⟨ps, rfl⟩ := h
  exact hs

theorem writePlane_planesOnly (s : State) (a : Nat) (ex : Nat → Bool) (gate val : Nat → Lanes) :
    PlanesOnly s (s.writePlane a ex gate val).1 := ⟨_, rfl⟩

theorem foldl_eq_self {α β : Type} (l : List α) (f : β → α → β) (b : β) (hf : ∀ x ∈ l, f b x = b) : l.foldl f b = b := by
  induction l with
  | nil => rfl
  | cons x l ih => rw [List.foldl_cons, hf x (by simp), ih fun y hy => hf y (by simp [hy])]

theorem sweepAt_of_plain (hs : s.plainArray) (a : Nat) : s.sweepAt a = s := by
  have hfold : (List.range 144).foldl (fun s i =>
      if (s.subOf (i / 2) (i % 2)).1 = 1 ∧ s.executes (i / 2) ∧ Store.get (fun _ => 0) s.arr.sweep i = a then
        let s2 := { s with arr := { s.arr with sweep := Store.set (fun _ => 0) s.arr.sweep i (a + 1) } }
        if a = 1023 then s2.setBit (colSubReg (i / 2)) (if i % 2 = 0 then 10 else 26) true else s2
      else s) s = s := by
    refine foldl_eq_self _ _ s fun i _ => if_neg fun h => ?_
    have h0 := hs.noSub (i / 2) (i % 2)
    omega
  unfold State.sweepAt
  rw [hfold]
  exact if_neg fun h => by rw [hs.2] at h; exact nomatch h.1

theorem putPlane_of_plain (hs : s.plainArray) (ex : Nat → Bool) (gate : Nat → Lanes) (p : Plane) :
    s.putPlane ex gate p = s.writePlane p.a ex gate p.at := by
  have hw := (writePlane_planesOnly s p.a ex gate p.at).plainArray hs
  have hm : (s.writePlane p.a ex gate p.at).1.mirrorPlane p.a = (s.writePlane p.a ex gate p.at).1 := by
    unfold State.mirrorPlane
    exact if_neg (by rw [hw.2]; decide)
  simp only [State.putPlane, hm, sweepAt_of_plain hw, ite_self]

theorem putPlanes_planesOnly (hs : s.plainArray) (ex : Nat → Bool) (gate : Nat → Lanes) (ps : List Plane) :
    PlanesOnly s (s.putPlanes ex gate ps).1 := by
  induction ps generalizing s with
  | nil => exact PlanesOnly.refl s
  | cons p ps ih =>
    have hw := writePlane_planesOnly s p.a ex gate p.at
    unfold State.putPlanes
    rw [putPlane_of_plain hs]
    exact hw.trans (ih (hw.plainArray hs))

theorem copyStates_of_plain (hs : s.plainArray) : s.copyStates = s := by
  have hshadow : ((List.range 72).any fun p => (s.subsOf p).st0 == 1 || (s.subsOf p).st1 == 1) = false := by
    simp [hs.noSub.st0, hs.noSub.st1]
  unfold State.copyStates
  simp only [hs.2, hshadow]
  exact if_pos rfl

theorem readable_congr {a : Nat} (h : t.readPlane a = s.readPlane a) (hs : s.readable a) : t.readable a := by
  unfold State.readable
  rw [h]
  exact hs

theorem peBit_congr {a : Nat} (h : t.readPlane a = s.readPlane a) (k col : Nat) : t.peBit a k col = s.peBit a k col := by
  rw [State.peBit, State.peBit, h]

/-- Each of several planes, all different, holds its value where the gate is open, else the old bits. -/
theorem putPlanes_stores {k : Nat} {ex : Nat → Bool} (gate : Nat → Lanes) (hk : k < 2304) (hex : ex (k / 32) = true) (ps : List Plane)
    (hnodup : (ps.map Plane.a).Nodup) (hs : s.plainArray) {p : Plane} (hp : p ∈ ps) (hgood : s.readable p.a) :
    (s.putPlanes ex gate ps).1.stores p.a k fun col =>
      if (gate k).getLsbD col then (p.at k).getLsbD col else s.peBit p.a k col := by
  induction ps generalizing s with
  | nil => exact nomatch hp
  | cons q ps ih =>
    obtain ⟨hq, hnodup⟩ := List.nodup_cons.mp hnodup
    have hw := writePlane_planesOnly s q.a ex gate q.at
    unfold State.putPlanes
    rw [putPlane_of_plain hs]
    rcases List.mem_cons.mp hp with rfl | hp
    · have hrest := putPlanes_wrote (W := fun a => a ≠ p.a) (s.writePlane p.a ex gate p.at).1 ex gate ps
        fun r hr h => hq (h ▸ List.mem_map_of_mem hr)
      exact (s.writePlane_stores gate p.at hs.noSub hk hex hgood).congr
        (State.planeCells_congr hrest.base (hrest.planes p.a (by simp)))
    · have hne : p.a ≠ q.a := fun h => hq (h ▸ List.mem_map_of_mem hp)
      have hone := writePlane_wrote (W := fun a => a ≠ p.a) s ex gate q.at hne.symm
      have hsame := State.readPlane_congr hw.free (State.planeCells_congr hone.base (hone.planes p.a (by simp))) hw.subOf
      have := ih hnodup (hw.plainArray hs) hp (readable_congr hsame hgood)
      simpa only [peBit_congr hsame] using this

end Sys2Proof.Machine
end

section
/-! Proofs about the run of a field operation in an array without substitutions or mirror (O12): every plane of its results
reaches the PEs, and nothing else does. -/

namespace Sys2Proof.Machine

variable {s t u : State}

/-! What keeps every cell -/

/-- From `s` to `t` no plane changed, and the columns are served as before. -/
structure SameCells (s t : State) : Prop where
  base : t.arr.base = s.arr.base
  planes : ∀ a, Store.get (fun _ => []) t.arr.planes a = Store.get (fun _ => []) s.arr.planes a
  subOf : ∀ p j, t.subOf p j = s.subOf p j

theorem SameCells.trans (h : SameCells s t) (h' : SameCells t u) : SameCells s u :=
  ⟨h'.base.trans h.base, fun a => (h'.planes a).trans (h.planes a), fun p j => (h'.subOf p j).trans (h.subOf p j)⟩

theorem SameCells.cells (h : SameCells s t) (a : Nat) : t.planeCells a = s.planeCells a := State.planeCells_congr h.base (h.planes a)

theorem SameCells.noSub (h : SameCells s t) (hs : s.noSub) : t.noSub := fun p j => by rw [h.subOf]; exact hs p j

theorem Wrote.sameCells (h : Wrote (fun _ => False) s t) : SameCells s t := ⟨h.base, fun a => h.planes a id, h.subOf_eq⟩

theorem blockOf_act_colSubReg (p : Nat) : blockOf (Reg.act (colSubReg p)) = 16 :=
  blockOf_eq 16 1 (by decide) (by simp only [Reg.act, colSubReg, Reg.COL_SUB]; omega)

theorem SameCells.of_keeps {fs : List Zone} (h : Keeps fs s t) (hplanes : Zone.inList .planes fs = false)
    (h16 : Zone.inList (.block 16) fs = false) : SameCells s t := by
  obtain ⟨hbase, hps⟩ := h.only .planes hplanes
  refine ⟨hbase, fun a => by rw [hps], fun p j => ?_⟩
  have hreg := h.only (.block 16) h16 _ (blockOf_act_colSubReg p)
  simp only [State.subOf, State.fld, hreg]

theorem spend_sameCells (s : State) (n : Nat) : SameCells s (s.spend n) := by
  refine ⟨rfl, fun _ => rfl, fun p j => ?_⟩
  have hreg : (s.spend n).reg (Reg.act (colSubReg p)) = s.reg (Reg.act (colSubReg p)) :=
    s.spend_reg n (by have := act_colSubReg_ge p; simp only [Reg.EST_STATUS]; omega)
  simp only [State.subOf, State.fld, hreg]

theorem snapshot_endArray_sameCells (s : State) : SameCells s s.snapshot.endArray :=
  (SameCells.of_keeps (fs := [.block 3, .arr, .disp, .block 1, .out]) (State.snapshot_keeps s (Keeps.rfl' _ s) (by decide))
    (by decide) (by decide)).trans
  (SameCells.of_keeps (fs := [.disp, .block 17, .sched, .kernels, .running, .log, .free])
    (State.endArray_keeps _ (Keeps.rfl' _ _) (by decide)) (by decide) (by decide))

/-! The edge latch (R71) -/

theorem latchEdges_reg (s : State) {a : Nat} (h : a ≠ Reg.ARR_EDGE) : s.latchEdges.reg a = s.reg a := by
  unfold State.latchEdges
  split
  · rfl
  · exact (State.reg_setFld_other _ _ _ _ h).trans (s.reg_setFld_other _ _ _ h)

theorem latchEdges_free (s : State) : s.latchEdges.free = s.free := by
  unfold State.latchEdges
  split <;> rfl

theorem latchEdges_silent (s : State) : s.latchEdges.arr.silent = s.arr.silent := by
  unfold State.latchEdges
  split <;> rfl

theorem latchEdges_sameCells (s : State) : SameCells s s.latchEdges := (latchEdges_wrote _ s).sameCells

theorem latchEdges_readPlane (s : State) (a : Nat) : s.latchEdges.readPlane a = s.readPlane a :=
  State.readPlane_congr (latchEdges_free s) ((latchEdges_sameCells s).cells a) (latchEdges_sameCells s).subOf

theorem latchEdges_plainArray (hs : s.plainArray) : s.latchEdges.plainArray := by
  obtain ⟨hsub, hmirror⟩ := hs
  refine ⟨fun p hp => ?_, (State.bit_congr 12 (latchEdges_reg s (by decide))).trans hmirror⟩
  rw [(latchEdges_sameCells s).subOf, (latchEdges_sameCells s).subOf]
  exact hsub p hp

theorem latchEdges_executes (s : State) (p : Nat) : s.latchEdges.executes p = s.executes p := by
  have hmap : ∀ r, s.latchEdges.reg (Reg.act (rowMap r)) = s.reg (Reg.act (rowMap r)) := fun r =>
    latchEdges_reg s (by simp only [Reg.act, rowMap, Reg.PROW_MAP, Reg.ARR_EDGE]; omega)
  have hctl := latchEdges_reg s (a := Reg.ARR_CTL) (by decide)
  have hmir := latchEdges_reg s (a := Reg.MIRROR_CTL) (by decide)
  have hbist := latchEdges_reg s (a := Reg.BIST_STATUS) (by decide)
  have hgap : ∀ r slot, s.latchEdges.isGap r slot = s.isGap r slot := fun r slot => by
    simp only [State.isGap, State.fld, hmap]
  have hlogical : ∀ r slot, s.latchEdges.logicalOf r slot = s.logicalOf r slot := fun r slot => by
    simp only [State.logicalOf, hgap]
  simp only [State.executes, hlogical, State.bistOwns, State.fld, State.bit, hctl, hmir, hbist, latchEdges_silent]

/-! The run -/

/-- Which Platforms execute, as `install` has it. -/
def State.executing (s : State) (p : Nat) : Bool := (((List.range 72).map s.executes).toArray).getD p false

theorem executing_of_executes {p : Nat} (hp : p < 72) (h : s.executes p = true) : s.executing p = true := by
  simp [State.executing, Array.getD_eq_getD_getElem?, hp, h]

/-- After its planes are put an operation changes no cell. -/
theorem install_sameCells (hs : s.plainArray) {r : Results} (hmask : r.mask = none) :
    SameCells (s.putPlanes s.executing (laneAt (s.readPlane planeM)) r.planes).1 (s.install r).endArray := by
  have hput := (putPlanes_planesOnly hs s.executing (laneAt (s.readPlane planeM)) r.planes).plainArray hs
  simp only [State.install, hmask]
  refine SameCells.trans ?_ (snapshot_endArray_sameCells _)
  refine SameCells.trans ?_ (spend_sameCells _ _)
  refine ((Wrote.trans ?_ (account_wrote _ _ _)).trans (useFree_wrote _ _)).sameCells
  change Wrote _ _ (s.putPlanes s.executing (laneAt (s.readPlane planeM)) r.planes).1.copyStates
  rw [copyStates_of_plain hput]
  exact Wrote.refl _ _

theorem arrayRun_field (s : State) {opc : Nat} (o : AOp) (h : opc < 0x2A) :
    s.arrayRun opc o = (s.latchEdges.install (s.latchEdges.fieldResults opc o s.disp.acc)).endArray := by
  rw [State.arrayRun]
  all_goals (intros; omega)

/-- The planes that a field operation writes. -/
def State.fieldPlanes (s : State) (opc : Nat) (o : AOp) : List Plane := (s.latchEdges.fieldResults opc o s.disp.acc).planes

theorem fieldResults_mask (s : State) (opc : Nat) (o : AOp) (acc : Word) : (s.fieldResults opc o acc).mask = none := by
  unfold State.fieldResults
  extract_lets
  split <;> rfl

theorem arrayRun_sameCells (hs : s.plainArray) {opc : Nat} (o : AOp) (h : opc < 0x2A) :
    SameCells (s.latchEdges.putPlanes s.latchEdges.executing (laneAt (s.readPlane planeM)) (s.fieldPlanes opc o)).1 (s.arrayRun opc o) := by
  rw [arrayRun_field s o h, ← latchEdges_readPlane]
  exact install_sameCells (latchEdges_plainArray hs) (fieldResults_mask _ _ _ _)

/-- A plane that is no result keeps its cells. -/
theorem arrayRun_other (hs : s.plainArray) {opc : Nat} (o : AOp) (h : opc < 0x2A) {a : Nat} (ha : a ∉ (s.fieldPlanes opc o).map Plane.a) :
    Store.get (fun _ => []) (s.arrayRun opc o).arr.planes a = Store.get (fun _ => []) s.arr.planes a := by
  have hput := putPlanes_wrote (W := fun b => b ≠ a) s.latchEdges s.latchEdges.executing (laneAt (s.readPlane planeM))
    (s.fieldPlanes opc o) fun p hp h => ha (h ▸ List.mem_map_of_mem hp)
  exact (((arrayRun_sameCells hs o h).planes a).trans (hput.planes a (by simp))).trans ((latchEdges_sameCells s).planes a)

/-- A plane of the results is in every active PE of a Platform that executes, and other PEs keep their bit. -/
theorem arrayRun_peBit (hs : s.plainArray) {opc : Nat} (o : AOp) (h : opc < 0x2A) (hnodup : ((s.fieldPlanes opc o).map Plane.a).Nodup)
    {p : Plane} (hp : p ∈ s.fieldPlanes opc o) (hgood : s.readable p.a) {k col : Nat} (hk : k < 2304) (hcol : col < 64)
    (hex : s.executes (k / 32) = true) : (s.arrayRun opc o).peBit p.a k col =
      if s.peBit planeM k col then (p.at k).getLsbD col else s.peBit p.a k col := by
  have hplain := latchEdges_plainArray hs
  have hstores := putPlanes_stores (laneAt (s.readPlane planeM)) hk
    (executing_of_executes (by omega) ((latchEdges_executes s _).trans hex)) _ hnodup hplain hp
    (readable_congr (latchEdges_readPlane s p.a) hgood)
  have hsame := arrayRun_sameCells hs o h
  have hnoSub := hsame.noSub (((putPlanes_planesOnly hplain _ _ _).plainArray hplain).noSub)
  rw [(hstores.congr (hsame.cells p.a)).peBit hnoSub hcol, peBit_congr (latchEdges_readPlane s p.a)]
  rfl

end Sys2Proof.Machine
end

section
/-! Proofs about lanes (O12): the planes of results as the bits of what each PE computes. -/

namespace Sys2Proof.Machine

variable {s : State}

/-! Numbers from bits -/

/-- The number whose bit `i` is `b i`, for `i` below `n`. -/
def bitSum (b : Nat → Bool) (n : Nat) : Nat := ((List.range n).map fun i => (b i).toNat * 2 ^ i).sum

theorem bitSum_succ (b : Nat → Bool) (n : Nat) : bitSum b (n + 1) = 2 * bitSum (fun i => b (i + 1)) n + (b 0).toNat := by
  have hmul : ∀ i, (b (i + 1)).toNat * 2 ^ (i + 1) = 2 * ((b (i + 1)).toNat * 2 ^ i) := fun i => by ring
  simp only [bitSum, List.range_succ_eq_map, List.map_cons, List.sum_cons, List.map_map, Function.comp_def, pow_zero, mul_one,
    Nat.succ_eq_add_one, hmul, List.sum_map_mul_left]
  omega

theorem bitSum_testBit (b : Nat → Bool) (n i : Nat) : (bitSum b n).testBit i = (decide (i < n) && b i) := by
  induction n generalizing b i with
  | zero => simp [bitSum]
  | succ n ih =>
    rw [bitSum_succ]
    have hbit : (b 0).toNat < 2 := by cases b 0 <;> decide
    cases i with
    | zero =>
      rw [Nat.testBit_zero]
      cases b 0 <;> simp
    | succ i =>
      rw [Nat.testBit_succ, show (2 * bitSum (fun i => b (i + 1)) n + (b 0).toNat) / 2 = bitSum (fun i => b (i + 1)) n by omega, ih]
      simp

theorem bitSum_lt (b : Nat → Bool) (n : Nat) : bitSum b n < 2 ^ n := by
  refine Nat.lt_pow_two_of_testBit _ fun i hi => ?_
  rw [bitSum_testBit, decide_eq_false (by omega), Bool.false_and]

theorem bitSum_congr {b b' : Nat → Bool} {n : Nat} (h : ∀ i, i < n → b i = b' i) : bitSum b n = bitSum b' n := by
  unfold bitSum
  congr 1
  exact List.map_congr_left fun i hi => by rw [h i (List.mem_range.mp hi)]

theorem bitSum_of_testBit {d n : Nat} (h : d < 2 ^ n) : bitSum d.testBit n = d := by
  refine Nat.eq_of_testBit_eq fun i => ?_
  rw [bitSum_testBit]
  by_cases hi : i < n
  · rw [decide_eq_true hi, Bool.true_and]
  · rw [decide_eq_false hi, Bool.false_and,
      Nat.testBit_lt_two_pow (h.trans_le (Nat.pow_le_pow_right (by decide) (by omega)))]

theorem foldr_bits_eq_bitSum (b : Nat → Bool) (n : Nat) : (List.range n).foldr (fun i acc => 2 * acc + (b i).toNat) 0 = bitSum b n := by
  induction n generalizing b with
  | zero => rfl
  | succ n ih =>
    rw [List.range_succ_eq_map, List.foldr_cons, List.foldr_map, bitSum_succ]
    rw [← ih fun i => b (i + 1)]

theorem peField_eq_bitSum (s : State) (a n k col : Nat) : s.peField a n k col = bitSum (fun i => s.peBit (a + i) k col) n := rfl

theorem peField_lt (s : State) (a n k col : Nat) : s.peField a n k col < 2 ^ n := bitSum_lt _ _

theorem colField_readField (s : State) (f : Field) (k col : Nat) :
    colField (fieldRow (s.readField f) k) col = s.peField f.1 f.2 k col := by
  simp only [colField, fieldRow, State.readField, List.map_map, List.foldr_map]
  exact foldr_bits_eq_bitSum _ _

/-! Lanes -/

theorem lanesOf_getLsbD (f : Nat → Bool) {col : Nat} (h : col < 66) : (lanesOf f).getLsbD col = f col := by
  rw [lanesOf, foldr_bits_eq_bitSum, BitVec.getLsbD_ofNat, bitSum_testBit]
  simp [h]

theorem rows_getD {α : Type} (g : Nat → α) (d : α) {k : Nat} (hk : k < 2304) :
    (((List.range rowWords).map g).toArray).getD k d = g k := by
  simp [Array.getD_eq_getD_getElem?, hk]

/-- What the PE at `k`, `col` gets from a table of results. -/
def hasResult (r : Array (Array LaneOut)) (k col : Nat) (x : LaneOut) : Prop := ∃ row, r[k]? = some row ∧ row[col]? = some x

theorem boolPlane_at {r : Array (Array LaneOut)} {k col : Nat} {x : LaneOut} (h : hasResult r k col x) (hcol : col < 66) (a : Nat)
    (p : LaneOut → Bool) : ((boolPlane a r p).at k).getLsbD col = p x := by
  obtain ⟨row, hrow, hx⟩ := h
  rw [Plane.at, boolPlane, Array.getD_eq_getD_getElem?, Array.getElem?_map, hrow]
  simp only [Option.map_some, Option.getD_some]
  rw [lanesOf_getLsbD _ hcol, hx]
  rfl

theorem dPlanes_eq (base w : Nat) (r : Array (Array LaneOut)) :
    dPlanes base w r = (List.range w).map fun i => boolPlane (base + i) r fun x => x.d.testBit i := rfl

/-! The results of a field operation (R110, R113, R114) -/

/-- The table of every PE's result. -/
def State.laneTable (s : State) (opc : Nat) (o : AOp) (acc : Word) : Array (Array LaneOut) :=
  s.laneResults opc o acc (s.readField ((fieldsOf opc o acc).1.getD (0, 0))) (s.readField ((fieldsOf opc o acc).2.1.getD (0, 0)))
    (s.readPlane planeC) (s.readPlane planeF) (s.readPlane planeM)

/-- F under FM. -/
def State.flagPlane (s : State) (opc : Nat) (o : AOp) (acc : Word) : Plane :=
  ⟨planeF, ((List.range rowWords).map fun k => lanesOf fun col => flagUpdate (fmOf opc o) ((laneAt (s.readPlane planeF) k).getLsbD col)
    (((((s.laneTable opc o acc).getD k #[])[col]?).map (·.cond)).getD false)).toArray⟩

/-- C, where the operation writes it, and what else it leaves unspecified beside. -/
def State.carryPlanes (s : State) (opc : Nat) (o : AOp) (acc : Word) : List Plane :=
  match opc with
  | 0x20 => []
  | 0x24 => [s.freePlane planeC]
  | 0x27 => [s.freePlane planeC, s.freePlane planeN, s.freePlane 1015]
  | 0x28 => [s.freePlane planeC]
  | _ => [boolPlane planeC (s.laneTable opc o acc) fun x => x.c.getD false]

/-- The planes of bit-RAM used beside the destination. -/
def State.sparePlanes (s : State) (opc : Nat) (o : AOp) : List Plane :=
  (if fmOf opc o = 3 ∧ usesReserved opc o then [s.freePlane 1012] else []) ++
    (if opc = 0x24 ∧ o.sgn ≠ 0 then [s.freePlane 1013] else [])

theorem fieldResults_planes (s : State) {opc : Nat} (o : AOp) (acc : Word) (h26 : opc ≠ 0x26) :
    (s.fieldResults opc o acc).planes = dPlanes (destOf opc o acc).1 (destOf opc o acc).2 (s.laneTable opc o acc) ++
      s.carryPlanes opc o acc ++ (if fmOf opc o = 0 then [] else [s.flagPlane opc o acc]) ++ s.sparePlanes opc o := by
  simp only [State.fieldResults, if_neg h26]
  exact List.append_assoc _ _ _

/-- The results of row word `k`, a PE in each column. -/
def State.laneRow (s : State) (opc : Nat) (o : AOp) (acc : Word) (k : Nat) : Array LaneOut :=
  ((List.range 66).map fun col => laneOp opc o.sub (widthOf o) (o.sgn != 0) (o.sat != 0)
    (colField (fieldRow (s.readField ((fieldsOf opc o acc).1.getD (0, 0))) k) col)
    (if o.form = 1 then acc.toNat % 2 ^ widthOf o
      else colField (fieldRow (s.readField ((fieldsOf opc o acc).2.1.getD (0, 0))) k) col)
    ((laneAt (s.readPlane planeC) k).getLsbD col) ((laneAt (s.readPlane planeF) k).getLsbD col)).toArray

theorem laneTable_eq (s : State) {opc : Nat} (o : AOp) (acc : Word) (h27 : opc ≠ 0x27) :
    s.laneTable opc o acc = ((List.range rowWords).map (s.laneRow opc o acc)).toArray := by
  unfold State.laneTable State.laneResults
  split
  · exact absurd rfl h27
  · rfl

/-- What the operation computes in the PE at `k`, `col` (R115 to R121, R124). -/
def State.laneAtPe (s : State) (opc : Nat) (o : AOp) (acc : Word) (k col : Nat) : LaneOut :=
  laneOp opc o.sub (widthOf o) (o.sgn != 0) (o.sat != 0)
    (s.peField ((fieldsOf opc o acc).1.getD (0, 0)).1 ((fieldsOf opc o acc).1.getD (0, 0)).2 k col)
    (if o.form = 1 then acc.toNat % 2 ^ widthOf o
      else s.peField ((fieldsOf opc o acc).2.1.getD (0, 0)).1 ((fieldsOf opc o acc).2.1.getD (0, 0)).2 k col)
    (s.peBit planeC k col) (s.peBit planeF k col)

theorem laneTable_hasResult (s : State) {opc : Nat} (o : AOp) (acc : Word) (h27 : opc ≠ 0x27) {k col : Nat} (hk : k < 2304)
    (hcol : col < 66) : hasResult (s.laneTable opc o acc) k col (s.laneAtPe opc o acc k col) := by
  refine ⟨s.laneRow opc o acc k, ?_, ?_⟩
  · rw [laneTable_eq s o acc h27, List.getElem?_toArray, List.getElem?_map, List.getElem?_range hk, Option.map_some]
  · rw [State.laneRow, List.getElem?_toArray, List.getElem?_map, List.getElem?_range hcol, Option.map_some, colField_readField,
      colField_readField]
    rfl

theorem flagPlane_at (s : State) {opc : Nat} (o : AOp) (acc : Word) (h27 : opc ≠ 0x27) {k col : Nat} (hk : k < 2304)
    (hcol : col < 66) : ((s.flagPlane opc o acc).at k).getLsbD col =
      flagUpdate (fmOf opc o) (s.peBit planeF k col) (s.laneAtPe opc o acc k col).cond := by
  obtain ⟨row, hrow, hx⟩ := laneTable_hasResult s o acc h27 hk hcol
  rw [Plane.at, State.flagPlane, rows_getD _ _ hk, lanesOf_getLsbD _ hcol, Array.getD_eq_getD_getElem?, hrow, Option.getD_some, hx]
  rfl

/-! Which planes those are -/

theorem dPlanes_map_a (base w : Nat) (r : Array (Array LaneOut)) : (dPlanes base w r).map Plane.a = (List.range w).map (base + ·) := by
  rw [dPlanes_eq, List.map_map]
  rfl

/-- The numbers of the planes beside the destination: C, F and the spare planes. -/
def besideList (opc : Nat) (o : AOp) : List Nat :=
  (if opc = 0x20 then [] else [planeC]) ++ (if fmOf opc o = 0 then [] else [planeF]) ++
    ((if fmOf opc o = 3 ∧ usesReserved opc o then [1012] else []) ++ (if opc = 0x24 ∧ o.sgn ≠ 0 then [1013] else []))

theorem carryPlanes_map_a (s : State) {opc : Nat} (o : AOp) (acc : Word) (h27 : opc ≠ 0x27) :
    (s.carryPlanes opc o acc).map Plane.a = if opc = 0x20 then [] else [planeC] := by
  unfold State.carryPlanes
  split
  · rfl
  · rfl
  · exact absurd rfl h27
  · rfl
  · next h20 _ _ _ => rw [if_neg h20]; rfl

theorem fieldResults_map_a (s : State) {opc : Nat} (o : AOp) (acc : Word) (h26 : opc ≠ 0x26) (h27 : opc ≠ 0x27) :
    (s.fieldResults opc o acc).planes.map Plane.a =
      (List.range (destOf opc o acc).2).map ((destOf opc o acc).1 + ·) ++ besideList opc o := by
  have hflag : (if fmOf opc o = 0 then [] else [s.flagPlane opc o acc]).map Plane.a = if fmOf opc o = 0 then [] else [planeF] := by
    split <;> rfl
  have hspare : (s.sparePlanes opc o).map Plane.a =
      (if fmOf opc o = 3 ∧ usesReserved opc o then [1012] else []) ++ (if opc = 0x24 ∧ o.sgn ≠ 0 then [1013] else []) := by
    unfold State.sparePlanes
    rw [List.map_append]
    congr 1 <;> split <;> rfl
  rw [fieldResults_planes s o acc h26, List.map_append, List.map_append, List.map_append, dPlanes_map_a,
    carryPlanes_map_a s o acc h27, hflag, hspare, besideList, List.append_assoc, List.append_assoc, List.append_assoc]

theorem mem_besideList {opc : Nat} {o : AOp} {a : Nat} (h : a ∈ besideList opc o) :
    (a = planeC ∧ opc ≠ 0x20) ∨ (a = planeF ∧ fmOf opc o ≠ 0) ∨ a = 1012 ∨ a = 1013 := by
  simp only [besideList, List.mem_append] at h
  rcases h with (h | h) | h | h <;> split at h <;> simp_all

theorem optional_sublist {α : Type} {c : Prop} [Decidable c] (a : α) : (if c then [a] else []).Sublist [a] := by
  split
  · exact List.Sublist.refl _
  · exact List.nil_sublist _

theorem optional_sublist' {α : Type} {c : Prop} [Decidable c] (a : α) : (if c then [] else [a]).Sublist [a] := by
  split
  · exact List.nil_sublist _
  · exact List.Sublist.refl _

theorem besideList_nodup (opc : Nat) (o : AOp) : (besideList opc o).Nodup :=
  List.Nodup.sublist (((optional_sublist' planeC).append (optional_sublist' planeF)).append
    ((optional_sublist 1012).append (optional_sublist 1013))) (by decide)

/-- With the destination below plane 1008 no plane is written twice. -/
theorem fieldResults_nodup (s : State) {opc : Nat} (o : AOp) (acc : Word) (h26 : opc ≠ 0x26) (h27 : opc ≠ 0x27)
    (hdest : (destOf opc o acc).2 ≠ 0 → (destOf opc o acc).1 + (destOf opc o acc).2 ≤ 1008) :
    ((s.fieldResults opc o acc).planes.map Plane.a).Nodup := by
  rw [fieldResults_map_a s o acc h26 h27]
  refine List.Nodup.append ?_ (besideList_nodup opc o) ?_
  · exact (List.nodup_range).map fun i j h => Nat.add_left_cancel h
  · intro a ha hb
    obtain ⟨i, hi, rfl⟩ := List.mem_map.mp ha
    have hi := List.mem_range.mp hi
    have hd := hdest (by omega)
    have hC : planeC = 1024 := rfl
    have hF : planeF = 1026 := rfl
    have hcases := mem_besideList hb
    omega

end Sys2Proof.Machine
end

section
/-! Proofs that a field operation computes in every participating PE (O12): the bits after the run, the values of R115 to
R121 and R124, and the settlement. -/

namespace Sys2Proof.Machine

variable {s : State}

/-! The bits after the run (R110, R113) -/

theorem latchEdges_laneAtPe (s : State) (opc : Nat) (o : AOp) (acc : Word) (k col : Nat) :
    s.latchEdges.laneAtPe opc o acc k col = s.laneAtPe opc o acc k col := by
  have hbit : ∀ a, s.latchEdges.peBit a k col = s.peBit a k col := fun a => peBit_congr (latchEdges_readPlane s a) k col
  simp only [State.laneAtPe, State.peField, hbit]

/-- A field operation whose destination is readable and lies below plane 1008, in an array without substitutions or mirror. -/
structure FieldRun (s : State) (opc : Nat) (o : AOp) : Prop where
  plain : s.plainArray
  lt : opc < 0x2A
  notShift : opc ≠ 0x26
  notTable : opc ≠ 0x27
  dest : (destOf opc o s.disp.acc).2 ≠ 0 → (destOf opc o s.disp.acc).1 + (destOf opc o s.disp.acc).2 ≤ 1008
  readD : ∀ i, i < (destOf opc o s.disp.acc).2 → s.readable ((destOf opc o s.disp.acc).1 + i)
  readC : s.readable planeC
  readF : s.readable planeF

variable {opc : Nat} {o : AOp} {k col : Nat}

theorem FieldRun.planes (h : FieldRun s opc o) : s.fieldPlanes opc o =
    dPlanes (destOf opc o s.disp.acc).1 (destOf opc o s.disp.acc).2 (s.latchEdges.laneTable opc o s.disp.acc) ++
      s.latchEdges.carryPlanes opc o s.disp.acc ++ (if fmOf opc o = 0 then [] else [s.latchEdges.flagPlane opc o s.disp.acc]) ++
      s.latchEdges.sparePlanes opc o := fieldResults_planes _ o _ h.notShift

theorem FieldRun.map_a (h : FieldRun s opc o) : (s.fieldPlanes opc o).map Plane.a =
    (List.range (destOf opc o s.disp.acc).2).map ((destOf opc o s.disp.acc).1 + ·) ++ besideList opc o :=
  fieldResults_map_a _ o _ h.notShift h.notTable

/-- Only the destination, C, F and the spare planes change. -/
theorem FieldRun.other (h : FieldRun s opc o) {p : Nat} (hd : ¬ ((destOf opc o s.disp.acc).1 ≤ p ∧
    p < (destOf opc o s.disp.acc).1 + (destOf opc o s.disp.acc).2)) (hb : p ∉ besideList opc o) :
    Store.get (fun _ => []) (s.arrayRun opc o).arr.planes p = Store.get (fun _ => []) s.arr.planes p := by
  refine arrayRun_other h.plain o h.lt fun hp => ?_
  rw [h.map_a] at hp
  rcases List.mem_append.mp hp with hp | hp
  · obtain ⟨i, hi, rfl⟩ := List.mem_map.mp hp
    exact hd ⟨Nat.le_add_right _ _, Nat.add_lt_add_left (List.mem_range.mp hi) _⟩
  · exact hb hp

theorem FieldRun.peBit (h : FieldRun s opc o) {p : Plane} (hp : p ∈ s.fieldPlanes opc o) (hgood : s.readable p.a) (hk : k < 2304)
    (hcol : col < 64) (hex : s.executes (k / 32) = true) : (s.arrayRun opc o).peBit p.a k col =
      if s.peBit planeM k col then (p.at k).getLsbD col else s.peBit p.a k col :=
  arrayRun_peBit h.plain o h.lt (fieldResults_nodup _ o _ h.notShift h.notTable h.dest) hp hgood hk hcol hex

theorem FieldRun.dest_peBit (h : FieldRun s opc o) (hk : k < 2304) (hcol : col < 64) (hex : s.executes (k / 32) = true) {i : Nat}
    (hi : i < (destOf opc o s.disp.acc).2) : (s.arrayRun opc o).peBit ((destOf opc o s.disp.acc).1 + i) k col =
      if s.peBit planeM k col then (s.laneAtPe opc o s.disp.acc k col).d.testBit i
      else s.peBit ((destOf opc o s.disp.acc).1 + i) k col := by
  have hmem : boolPlane ((destOf opc o s.disp.acc).1 + i) (s.latchEdges.laneTable opc o s.disp.acc) (fun x => x.d.testBit i) ∈
      s.fieldPlanes opc o := by
    rw [h.planes, dPlanes_eq]
    simp only [List.mem_append]
    exact .inl (.inl (.inl (List.mem_map.mpr ⟨i, List.mem_range.mpr hi, rfl⟩)))
  have hrun := h.peBit hmem (h.readD i hi) hk hcol hex
  rw [boolPlane_at (laneTable_hasResult _ o _ h.notTable hk (by omega)) (by omega), latchEdges_laneAtPe] at hrun
  exact hrun

/-- The destination as a number. -/
theorem FieldRun.dest_peField (h : FieldRun s opc o) (hk : k < 2304) (hcol : col < 64) (hex : s.executes (k / 32) = true)
    (hlt : (s.laneAtPe opc o s.disp.acc k col).d < 2 ^ (destOf opc o s.disp.acc).2) :
    (s.arrayRun opc o).peField (destOf opc o s.disp.acc).1 (destOf opc o s.disp.acc).2 k col =
      if s.peBit planeM k col then (s.laneAtPe opc o s.disp.acc k col).d
      else s.peField (destOf opc o s.disp.acc).1 (destOf opc o s.disp.acc).2 k col := by
  simp only [peField_eq_bitSum]
  rw [bitSum_congr fun i hi => h.dest_peBit hk hcol hex hi]
  split
  · exact bitSum_of_testBit hlt
  · rfl

theorem FieldRun.flag_peBit (h : FieldRun s opc o) (hk : k < 2304) (hcol : col < 64) (hex : s.executes (k / 32) = true)
    (hfm : fmOf opc o ≠ 0) : (s.arrayRun opc o).peBit planeF k col =
      if s.peBit planeM k col then flagUpdate (fmOf opc o) (s.peBit planeF k col) (s.laneAtPe opc o s.disp.acc k col).cond
      else s.peBit planeF k col := by
  have hmem : s.latchEdges.flagPlane opc o s.disp.acc ∈ s.fieldPlanes opc o := by
    rw [h.planes, if_neg hfm]
    simp
  have hrun := h.peBit hmem h.readF hk hcol hex
  rw [flagPlane_at _ o _ h.notTable hk (by omega), latchEdges_laneAtPe, peBit_congr (latchEdges_readPlane s planeF)] at hrun
  exact hrun

theorem FieldRun.carry_idle (h : FieldRun s opc o) (hk : k < 2304) (hcol : col < 64) (hex : s.executes (k / 32) = true)
    (h20 : opc ≠ 0x20) (hidle : s.peBit planeM k col = false) : (s.arrayRun opc o).peBit planeC k col = s.peBit planeC k col := by
  have hmem : planeC ∈ (s.fieldPlanes opc o).map Plane.a := by
    rw [h.map_a, besideList, if_neg h20]
    simp
  obtain ⟨p, hp, hpa⟩ := List.mem_map.mp hmem
  have hrun := h.peBit hp (hpa ▸ h.readC) hk hcol hex
  rw [hpa, hidle] at hrun
  exact hrun

theorem FieldRun.carry_peBit (h : FieldRun s opc o) (hk : k < 2304) (hcol : col < 64) (hex : s.executes (k / 32) = true)
    (h20 : opc ≠ 0x20) (h24 : opc ≠ 0x24) (h28 : opc ≠ 0x28) (hact : s.peBit planeM k col = true) :
    (s.arrayRun opc o).peBit planeC k col = (s.laneAtPe opc o s.disp.acc k col).c.getD false := by
  have hcarry : s.latchEdges.carryPlanes opc o s.disp.acc =
      [boolPlane planeC (s.latchEdges.laneTable opc o s.disp.acc) fun x => x.c.getD false] := by
    have h27 := h.notTable
    unfold State.carryPlanes
    split
    · exact absurd rfl h20
    · exact absurd rfl h24
    · exact absurd rfl h27
    · exact absurd rfl h28
    · rfl
  have hmem : boolPlane planeC (s.latchEdges.laneTable opc o s.disp.acc) (fun x => x.c.getD false) ∈ s.fieldPlanes opc o := by
    rw [h.planes, hcarry]
    simp
  have hrun := h.peBit hmem h.readC hk hcol hex
  rw [boolPlane_at (laneTable_hasResult _ o _ h.notTable hk (by omega)) (by omega), latchEdges_laneAtPe, if_pos hact] at hrun
  exact hrun

/-! The values (R115 to R121, R124) -/

theorem operandInt_eq (sgn n a : Nat) :
    operandInt (sgn != 0) n a = if sgn ≠ 0 ∧ a.testBit (n - 1) = true then (a : Int) - 2 ^ n else a := by
  unfold operandInt signedOf
  by_cases hs : sgn = 0 <;> by_cases ha : a.testBit (n - 1) = true <;> simp [hs, ha]

theorem laneLogic_d (sub n a b : Nat) : (laneLogic sub n a b).d =
    bitSum (fun i => sub.testBit (2 * (a.testBit i).toNat + (b.testBit i).toNat)) n := by
  have hbit : ∀ x i : Nat, x / 2 ^ i % 2 = (x.testBit i).toNat := fun x i => by
    rw [Nat.testBit_eq_decide_div_mod_eq]
    rcases Nat.mod_two_eq_zero_or_one (x / 2 ^ i) with h | h <;> simp [h]
  simp only [laneLogic, hbit]
  exact foldr_bits_eq_bitSum _ _

theorem laneSum_cond (add sat : Bool) (sgn n : Nat) (v : Int) : let raw := (v % 2 ^ (n + 1)).toNat
    (laneSum add (sgn != 0) sat n v).cond = if sgn = 0 then raw.testBit n else raw.testBit n != raw.testBit (n - 1) := by
  by_cases hs : sgn = 0 <;> simp [laneSum, hs]

theorem laneSum_d (add : Bool) (sgn sat n : Nat) (v : Int) : let raw := (v % 2 ^ (n + 1)).toNat
    let carry := if sgn = 0 then raw.testBit n else raw.testBit n != raw.testBit (n - 1)
    (laneSum add (sgn != 0) (sat != 0) n v).d = if sat = 0 ∨ carry = false then raw
      else if sgn = 0 then (if add then 2 ^ (n + 1) - 1 else 2 ^ n)
      else if raw.testBit n then 2 ^ n + 2 ^ (n - 1) else 2 ^ (n - 1) - 1 := by
  intro raw carry
  have hpow : 2 ^ n + (2 ^ n - 1) = 2 ^ (n + 1) - 1 := by have := Nat.two_pow_pos n; rw [pow_succ]; omega
  by_cases hsat : sat = 0
  · simp [laneSum, hsat, raw]
  · by_cases hs : sgn = 0
    · cases hc : raw.testBit n <;> simp_all [laneSum, saturate, raw, carry]
    · cases hc : raw.testBit n <;> cases hc' : raw.testBit (n - 1) <;> simp_all [laneSum, saturate, raw, carry]

theorem emod_two_pow_toNat_lt (v : Int) (m : Nat) : (v % 2 ^ m).toNat < 2 ^ m := by
  have hpos : (0 : Int) < 2 ^ m := by positivity
  zify
  rw [Int.toNat_of_nonneg (Int.emod_nonneg v hpos.ne')]
  exact Int.emod_lt_of_pos v hpos

theorem laneSum_d_lt (add : Bool) (sgn sat : Nat) {n : Nat} (hn : 1 ≤ n) (v : Int) :
    (laneSum add (sgn != 0) (sat != 0) n v).d < 2 ^ (n + 1) := by
  have hraw := emod_two_pow_toNat_lt v (n + 1)
  have hpos := Nat.two_pow_pos n
  have hhalf : 2 ^ (n - 1) < 2 ^ n := Nat.pow_lt_pow_right (by decide) (by omega)
  have hdouble : 2 ^ (n + 1) = 2 * 2 ^ n := by ring
  rw [laneSum_d]
  split_ifs <;> omega

theorem operandInt_signed_bounds {n a : Nat} (hn : 1 ≤ n) (ha : a < 2 ^ n) :
    -((2 ^ (n - 1) : Nat) : Int) ≤ operandInt true n a ∧ operandInt true n a < ((2 ^ (n - 1) : Nat) : Int) := by
  obtain ⟨m, rfl⟩ : ∃ m, n = m + 1 := ⟨n - 1, by omega⟩
  have htop : a.testBit m = decide (2 ^ m ≤ a) := by
    have hdiv : a / 2 ^ m < 2 := Nat.div_lt_of_lt_mul (by rw [pow_succ] at ha; exact ha)
    rw [Nat.testBit_eq_decide_div_mod_eq, Nat.mod_eq_of_lt hdiv, decide_eq_decide, ← Nat.one_le_div_iff (Nat.two_pow_pos m)]
    omega
  have hpow : (2 : Int) ^ (m + 1) = 2 * ((2 ^ m : Nat) : Int) := by push_cast; ring
  have ha' : (a : Int) < 2 * ((2 ^ m : Nat) : Int) := by rw [← hpow]; exact_mod_cast ha
  simp only [operandInt, signedOf, Nat.add_sub_cancel, htop, if_true, decide_eq_true_eq, hpow]
  split <;> omega

/-- Modulo 4 h² the numbers from -h² to h² leave the range from -h to h - 1 just when the digits from h on are neither all
zero nor all at their greatest. -/
theorem top_digits_iff {h : Nat} (hh : 1 ≤ h) {p : Int} (hlo : -((h : Int) * h) ≤ p) (hhi : p ≤ (h : Int) * h) {d : Nat}
    (hd : (d : Int) = p % (4 * (h * h))) : (d / h ≠ 0 ∧ d / h ≠ 4 * h - 1) ↔ ¬ (-(h : Int) ≤ p ∧ p < h) := by
  have hsq : h ≤ h * h := Nat.le_mul_self h
  have hmul : (4 * h - 1) * h = 4 * (h * h) - h := by rw [Nat.sub_mul]; ring_nf
  have hzero : d / h = 0 ↔ d < h := Nat.div_eq_zero_iff_lt (by omega)
  have htop : d < 4 * (h * h) → (d / h = 4 * h - 1 ↔ 4 * (h * h) - h ≤ d) := by
    intro hlt
    rw [← hmul, ← Nat.le_div_iff_mul_le (by omega)]
    have hlt' : d / h < 4 * h := Nat.div_lt_of_lt_mul (by rw [Nat.mul_left_comm]; exact hlt)
    omega
  rw [ne_eq, ne_eq, hzero]
  generalize hq : h * h = q at *
  rw [show (h : Int) * h = (q : Int) by rw [← hq]; push_cast; ring] at hlo hhi hd
  by_cases hp : 0 ≤ p
  · rw [Int.emod_eq_of_lt hp (by omega)] at hd
    rw [htop (by omega)]
    omega
  · rw [← Int.add_emod_right, Int.emod_eq_of_lt (by omega) (by omega)] at hd
    rw [htop (by omega)]
    omega

/-- cond of FMUL (R121): the product does not fit the width of its operands. -/
theorem laneMul_cond (sgn : Nat) {n a b : Nat} (hn : 1 ≤ n) (ha : a < 2 ^ n) (hb : b < 2 ^ n) :
    let p := operandInt (sgn != 0) n a * operandInt (sgn != 0) n b
    (laneMul (sgn != 0) n a b).cond = if sgn = 0 then decide (2 ^ n ≤ (p % 2 ^ (2 * n)).toNat)
      else decide (¬ (-(2 : Int) ^ (n - 1) ≤ p ∧ p < 2 ^ (n - 1))) := by
  intro p
  by_cases hs : sgn = 0
  · rw [if_pos hs, Bool.eq_iff_iff, decide_eq_true_iff, ← Nat.one_le_div_iff (Nat.two_pow_pos n)]
    simp [laneMul, hs, p, Nat.one_le_iff_ne_zero]
  · have hsgn : (sgn != 0) = true := by simp [hs]
    have h1 : (1 : Nat) ≤ 2 ^ (n - 1) := Nat.two_pow_pos _
    obtain ⟨hxlo, hxhi⟩ := operandInt_signed_bounds hn ha
    obtain ⟨hylo, hyhi⟩ := operandInt_signed_bounds hn hb
    have hpow : (2 : Int) ^ (2 * n) = 4 * (((2 ^ (n - 1) : Nat) : Int) * ((2 ^ (n - 1) : Nat) : Int)) := by
      obtain ⟨m, rfl⟩ : ∃ m, n = m + 1 := ⟨n - 1, by omega⟩
      rw [Nat.add_sub_cancel]; push_cast; ring
    have htop : 2 ^ (n + 1) = 4 * 2 ^ (n - 1) := by
      obtain ⟨m, rfl⟩ : ∃ m, n = m + 1 := ⟨n - 1, by omega⟩
      rw [Nat.add_sub_cancel]; ring
    have hd : (((p % 2 ^ (2 * n)).toNat : Nat) : Int) = p % (4 * (((2 ^ (n - 1) : Nat) : Int) * ((2 ^ (n - 1) : Nat) : Int))) := by
      rw [Int.toNat_of_nonneg (Int.emod_nonneg _ (by positivity)), hpow]
    have habs : |p| ≤ ((2 ^ (n - 1) : Nat) : Int) * ((2 ^ (n - 1) : Nat) : Int) := by
      simp only [p, hsgn, abs_mul]
      exact mul_le_mul (abs_le.mpr ⟨hxlo, hxhi.le⟩) (abs_le.mpr ⟨hylo, hyhi.le⟩) (abs_nonneg _) (by positivity)
    have hiff := top_digits_iff h1 (abs_le.mp habs).1 (abs_le.mp habs).2 hd
    rw [if_neg hs, Bool.eq_iff_iff, decide_eq_true_iff]
    push_cast at hiff
    rw [← hiff, ← htop]
    simp [laneMul, hsgn, p]

/-! The operands (R101, R115 to R124) -/

theorem controlsOk_form (h : controlsOk opc o = true) : o.form = 0 ∨ o.form = 1 := by
  unfold controlsOk at h
  split at h <;> simp only [Bool.and_eq_true, Bool.or_eq_true, beq_iff_eq] at h <;> tauto

theorem controlsOk_fadd (h : controlsOk 0x21 o = true) : o.sub = 0 ∨ o.sub = 1 := by
  simp only [controlsOk, Bool.and_eq_true, decide_eq_true_eq] at h
  omega

/-- The opcodes whose result in a PE depends on that PE alone. -/
def perPe (opc : Nat) : Prop :=
  opc = 0x20 ∨ opc = 0x21 ∨ opc = 0x22 ∨ opc = 0x23 ∨ opc = 0x24 ∨ opc = 0x25 ∨ opc = 0x28 ∨ opc = 0x29

theorem fieldsOf_source_a (o : AOp) (acc : Word) (h : perPe opc) : (fieldsOf opc o acc).1 = some (o.fa, widthOf o) := by
  rcases h with rfl | rfl | rfl | rfl | rfl | rfl | rfl | rfl <;> rfl

theorem fieldsOf_source_b (acc : Word) (h : perPe opc) (h28 : opc ≠ 0x28) (hform : o.form = 0) :
    (fieldsOf opc o acc).2.1 = some (o.fb, widthOf o) := by
  rcases h with rfl | rfl | rfl | rfl | rfl | rfl | rfl | rfl
  · exact if_pos hform
  · exact if_pos hform
  · exact if_pos hform
  · exact if_pos hform
  · exact if_pos hform
  · exact if_pos hform
  · exact absurd rfl h28
  · exact if_pos hform

theorem laneOp_fpop (sub n : Nat) (sgn sat : Bool) (a b : Nat) (c f : Bool) :
    laneOp 0x28 sub n sgn sat a b c f = ⟨onesOf n a, onesOf n a != 0, none⟩ := rfl

/-- In a PE the operation computes from its own A and B, or ACC in place of B. -/
theorem laneAtPe_eq (s : State) (acc : Word) (k col : Nat) (hopc : perPe opc) (hform : o.form = 0 ∨ o.form = 1) :
    s.laneAtPe opc o acc k col = laneOp opc o.sub (widthOf o) (o.sgn != 0) (o.sat != 0) (s.peField o.fa (widthOf o) k col)
      (if o.form = 1 then acc.toNat % 2 ^ widthOf o else s.peField o.fb (widthOf o) k col) (s.peBit planeC k col)
      (s.peBit planeF k col) := by
  rw [State.laneAtPe, fieldsOf_source_a o acc hopc, Option.getD_some]
  by_cases h28 : opc = 0x28
  · rw [h28, laneOp_fpop, laneOp_fpop]
  · rcases hform with hf | hf
    · rw [fieldsOf_source_b acc hopc h28 hf, Option.getD_some]
    · rw [if_pos hf, if_pos hf]

theorem onesOf_lt (n a : Nat) : onesOf n a < 2 ^ popWidth n :=
  calc onesOf n a ≤ (List.range n).length := List.countP_le_length
    _ = n := List.length_range
    _ < 2 ^ popWidth n := Nat.lt_log2_self

/-- D fits the destination (R114). -/
theorem laneOp_d_lt (acc : Word) (hopc : perPe opc) {a b : Nat} (ha : a < 2 ^ widthOf o) (hb : b < 2 ^ widthOf o) (c f : Bool) :
    (laneOp opc o.sub (widthOf o) (o.sgn != 0) (o.sat != 0) a b c f).d < 2 ^ (destOf opc o acc).2 := by
  have hn : 1 ≤ widthOf o := Nat.succ_pos _
  have pick : ∀ (t : Bool) {u v : Nat}, u < 2 ^ widthOf o → v < 2 ^ widthOf o → (if t then u else v) < 2 ^ widthOf o := by
    intro t u v hu hv
    cases t
    · exact hv
    · exact hu
  rcases hopc with rfl | rfl | rfl | rfl | rfl | rfl | rfl | rfl
  · exact (laneLogic_d _ _ _ _).trans_lt (bitSum_lt _ _)
  · exact laneSum_d_lt true o.sgn o.sat hn _
  · exact laneSum_d_lt false o.sgn o.sat hn _
  · exact Nat.two_pow_pos _
  · exact emod_two_pow_toNat_lt _ _
  · exact pick _ hb ha
  · exact onesOf_lt _ _
  · exact pick f ha hb

theorem ne_zero_eq_decide (d : Nat) : (d != 0) = decide (d ≠ 0) := by
  rw [Bool.eq_iff_iff]
  simp

theorem flagUpdate_eq (fm : Nat) (f cond : Bool) :
    fm ≠ 0 → flagUpdate fm f cond = match fm with | 1 => cond | 2 => f || cond | _ => f && cond := by
  intro h
  match fm with
  | 0 => exact absurd rfl h
  | 1 => rfl
  | 2 => rfl
  | m + 3 => rfl

/-- Settles O12: every plane of the results reaches the participating PEs (`FieldRun`), and each opcode's value is that of its
rule. -/
theorem fieldOperationsComputeInEveryPe : Obligations.FieldOperationsComputeInEveryPe := by
  intro c opc o s hc hopc hready _ hplain n w width _ hreadD hbelow hC _ hF _
  have hlo := (arrayOf_opcode hc).1
  have hper : perPe opc := by unfold perPe; omega
  have hform := controlsOk_form hready.controls
  have hpop : popWidth n = w := popWidth_eq_clog (Nat.succ_ne_zero _)
  have hdest : (destOf opc o s.disp.acc).2 = width ∧ (width ≠ 0 → (destOf opc o s.disp.acc).1 = o.fd) := by
    rcases hper with rfl | rfl | rfl | rfl | rfl | rfl | rfl | rfl
    · exact ⟨rfl, fun _ => rfl⟩
    · exact ⟨rfl, fun _ => rfl⟩
    · exact ⟨rfl, fun _ => rfl⟩
    · exact ⟨rfl, fun h => absurd rfl h⟩
    · exact ⟨rfl, fun _ => rfl⟩
    · exact ⟨rfl, fun _ => rfl⟩
    · exact ⟨hpop, fun _ => rfl⟩
    · exact ⟨rfl, fun _ => rfl⟩
  obtain ⟨hw, hbase⟩ := hdest
  have hrun : FieldRun s opc o := by
    refine ⟨hplain, by omega, by omega, by omega, ?_, ?_, hC, hF⟩
    · rw [hw]
      exact fun h => by rw [hbase h]; exact hbelow h
    · rw [hw]
      exact fun i hi => by rw [hbase (by omega)]; exact hreadD i hi
  refine ⟨s.arrayRun opc o, exec_of_arrayReady hc hready, fun p hp => hrun.other ?_ ?_, ?_⟩
  · have hdest := hrun.dest
    simp only [planeM, planeN, planeC, planeF] at hp
    omega
  · intro hmem
    have hfm : fmOf opc o ≠ 0 → o.fm ≠ 0 ∨ opc = 0x23 := by unfold fmOf; split <;> omega
    have hcases := mem_besideList hmem
    simp only [planeM, planeN, planeC, planeF] at hp hcases
    omega
  intro k col hk hcol hex active a b f ci x y sum raw carry satd rel takeB prod d cond fm
  have ha : a < 2 ^ widthOf o := peField_lt _ _ _ _ _
  have hb : b < 2 ^ widthOf o := by
    unfold b
    split
    · exact Nat.mod_lt _ (Nat.two_pow_pos _)
    · exact peField_lt _ _ _ _ _
  have hlane : s.laneAtPe opc o s.disp.acc k col =
      laneOp opc o.sub (widthOf o) (o.sgn != 0) (o.sat != 0) a b (s.peBit planeC k col) f := laneAtPe_eq s _ k col hper hform
  have hlt := laneOp_d_lt s.disp.acc hper ha hb (s.peBit planeC k col) f
  have hx : operandInt (o.sgn != 0) (widthOf o) a = x := operandInt_eq _ _ _
  have hy : operandInt (o.sgn != 0) (widthOf o) b = y := operandInt_eq _ _ _
  have hci : (if s.peBit planeC k col then (1 : Int) else 0) = ci := by unfold ci; cases s.peBit planeC k col <;> rfl
  have hval : (laneOp opc o.sub (widthOf o) (o.sgn != 0) (o.sat != 0) a b (s.peBit planeC k col) f).d = d ∧
      (laneOp opc o.sub (widthOf o) (o.sgn != 0) (o.sat != 0) a b (s.peBit planeC k col) f).cond = cond := by
    rcases hper with rfl | rfl | rfl | rfl | rfl | rfl | rfl | rfl
    · have hd : (laneLogic o.sub n a b).d = d := laneLogic_d _ _ _ _
      exact ⟨hd, (ne_zero_eq_decide (laneLogic o.sub n a b).d).trans (by rw [hd]; rfl)⟩
    · have hsum : laneOp 0x21 o.sub (widthOf o) (o.sgn != 0) (o.sat != 0) a b (s.peBit planeC k col) f =
          laneSum true (o.sgn != 0) (o.sat != 0) n sum := by
        refine congrArg (laneSum true _ _ n) ?_
        rw [hx, hy, hci]
        rcases controlsOk_fadd hready.controls with h | h <;> simp only [sum, h] <;> rfl
      rw [hsum]
      exact ⟨laneSum_d true o.sgn o.sat n sum, laneSum_cond true _ o.sgn n sum⟩
    · have hsum : laneOp 0x22 o.sub (widthOf o) (o.sgn != 0) (o.sat != 0) a b (s.peBit planeC k col) f =
          laneSum false (o.sgn != 0) (o.sat != 0) n sum := by
        refine congrArg (laneSum false _ _ n) ?_
        rw [hx, hy, hci]
        match h : o.sub with
        | 0 => simp only [sum, h]
        | 1 => simp only [sum, h]
        | m + 2 => simp only [sum, h]
      rw [hsum]
      exact ⟨laneSum_d false o.sgn o.sat n sum, laneSum_cond false _ o.sgn n sum⟩
    · refine ⟨rfl, ?_⟩
      change laneRel o.sub _ _ = rel
      rw [hx, hy]
      rfl
    · refine ⟨?_, ?_⟩
      · change (_ % _ : Int).toNat = prod
        rw [hx, hy]
        rfl
      · have hprod := laneMul_cond (n := widthOf o) o.sgn (Nat.succ_pos _) ha hb
        simp only [hx, hy] at hprod
        exact hprod
    · have htake : (if o.sub = 0 then decide (operandInt (o.sgn != 0) (widthOf o) b < operandInt (o.sgn != 0) (widthOf o) a)
          else decide (operandInt (o.sgn != 0) (widthOf o) a < operandInt (o.sgn != 0) (widthOf o) b)) = takeB := by
        rw [hx, hy]
      exact ⟨congrArg (fun t : Bool => if t then b else a) htake, htake⟩
    · exact ⟨rfl, ne_zero_eq_decide _⟩
    · exact ⟨rfl, ne_zero_eq_decide _⟩
  obtain ⟨hd, hcond⟩ := hval
  refine ⟨fun hne => ?_, fun hne => ?_, fun h20 hidle => hrun.carry_idle hk hcol hex h20 hidle, fun h20 h24 h28 hact => ?_⟩
  · have hfield := hrun.dest_peField hk hcol hex (hlane ▸ hlt)
    rw [hw, hbase hne, hlane, hd] at hfield
    exact hfield
  · have hflag := hrun.flag_peBit hk hcol hex hne
    rw [hlane, hcond, flagUpdate_eq (fmOf opc o) _ _ hne] at hflag
    exact hflag
  · refine (hrun.carry_peBit hk hcol hex h20 h24 h28 hact).trans ?_
    rw [hlane]
    rcases hper with rfl | rfl | rfl | rfl | rfl | rfl | rfl | rfl
    · exact absurd rfl h20
    · exact hcond
    · exact hcond
    · exact hcond
    · exact absurd rfl h24
    · exact hcond
    · exact absurd rfl h28
    · rfl

end Sys2Proof.Machine
end

section
/-! How registers stay as they were (O18 to O21): the rules of `RegsBut`, one a way to change the state, and what an entry of
Stationmaster's log leaves. -/

namespace Sys2Proof.Machine

variable {ks ls : List Nat} {s t u : State}

theorem RegsBut.refl (ks : List Nat) (s : State) : RegsBut ks s s := fun _ _ _ => rfl

theorem RegsBut.trans (h : RegsBut ks s t) (h' : RegsBut ks t u) : RegsBut ks s u :=
  fun a ha hb => (h' a ha hb).trans (h a ha hb)

theorem RegsBut.mono (h : RegsBut ks s t) (hsub : ks ⊆ ls) : RegsBut ls s t := fun a ha hb => h a (fun hk => ha (hsub hk)) hb

theorem RegsBut.setReg {a : Nat} (h : RegsBut ks s t) (v : Word) (ha : a ∈ ks) : RegsBut ks s (t.setReg a v) :=
  fun b hb hb1 => (t.reg_setReg_other v (ne_of_mem_of_not_mem ha hb).symm).trans (h b hb hb1)

theorem RegsBut.setFld {a : Nat} (h : RegsBut ks s t) (hi lo n : Nat) (ha : a ∈ ks) : RegsBut ks s (t.setFld a hi lo n) :=
  h.setReg _ ha

theorem RegsBut.setBit {a : Nat} (h : RegsBut ks s t) (n : Nat) (b : Bool) (ha : a ∈ ks) : RegsBut ks s (t.setBit a n b) :=
  h.setReg _ ha

theorem RegsBut.fire (h : RegsBut ks s t) (i : Nat) : RegsBut ks s (t.fire i) :=
  fun a ha hb => (t.reg_fire i hb).trans (h a ha hb)

theorem RegsBut.fireIf (h : RegsBut ks s t) (c : Bool) (i : Nat) : RegsBut ks s (t.fireIf c i) :=
  fun a ha hb => (t.reg_fireIf c i hb).trans (h a ha hb)

@[simp] theorem State.logEvent_reg (s : State) (code d d2 a : Nat) : (s.logEvent code d d2).reg a = s.reg a := rfl
@[simp] theorem State.logEvent_sched (s : State) (code d d2 : Nat) : (s.logEvent code d d2).sched = s.sched := rfl
@[simp] theorem State.logEvent_repair (s : State) (code d d2 : Nat) : (s.logEvent code d d2).repair = s.repair := rfl

theorem KeepsPending.refl (s : State) : KeepsPending s s := fun _ => id

end Sys2Proof.Machine
end

section
/-! Proofs about column substitution (O18): what a Sidings slot that takes a state leaves of COL_SUB, and how a write to slot 0
is judged while slot 1 stays OFF. -/

namespace Sys2Proof.Machine

variable {s t : State} {p j st tgt : Nat}

theorem colSubReg_of_lt (hp : p < 72) : colSubReg p = Reg.COL_SUB + 4 * p := by rw [colSubReg, Nat.mod_eq_of_lt hp]

theorem colmonReg_of_lt (hp : p < 72) : colmonReg p = Reg.COLMON + 4 * p := by rw [colmonReg, Nat.mod_eq_of_lt hp]

/-! The halves of COL_SUB (R160) -/

theorem State.subOf_eq_fld (s : State) (p : Nat) (hj : j < 2) : s.subOf p j =
    (s.fld (Reg.act (colSubReg p)) (stBit j + 1) (stBit j), s.fld (Reg.act (colSubReg p)) (16 * j + 6) (16 * j)) := by
  obtain rfl | rfl : j = 0 ∨ j = 1 := by omega
  · rfl
  · rfl

theorem State.subOf_congr (h : t.reg (Reg.act (colSubReg p)) = s.reg (Reg.act (colSubReg p))) (j : Nat) :
    t.subOf p j = s.subOf p j := by
  simp only [State.subOf, State.fld, h]

theorem State.countActive_congr (h : ∀ q, t.reg (Reg.act (colSubReg q)) = s.reg (Reg.act (colSubReg q))) :
    t.countActive = s.countActive := by
  simp only [State.countActive, State.subOf_congr (h _)]

theorem State.countActive_le (s : State) : s.countActive ≤ 144 := List.countP_le_length.trans (by rw [List.length_range])

theorem slotState_lt (w : Word) (j : Nat) : bitsOf w (stBit j + 1) (stBit j) < 4 :=
  (bitsOf_lt _ _ _).trans_eq (by rw [Nat.add_assoc, Nat.add_sub_cancel_left]; rfl)

theorem slotTarget_lt (w : Word) (j : Nat) : bitsOf w (16 * j + 6) (16 * j) < 128 :=
  (bitsOf_lt _ _ _).trans_eq (by rw [Nat.add_assoc, Nat.add_sub_cancel_left]; rfl)

/-- A word of COL_SUB with the state and target of slot `j` put in. -/
def slotPut (w : Word) (j st tgt : Nat) : Word := putBits (putBits w (stBit j + 1) (stBit j) st) (16 * j + 6) (16 * j) tgt

theorem slotPut_state (w : Word) (hj : j < 2) (hst : st < 4) : bitsOf (slotPut w j st tgt) (stBit j + 1) (stBit j) = st := by
  rw [slotPut, bitsOf_putBits_other _ _ (by omega) (by omega) (by simp only [stBit]; omega),
    bitsOf_putBits_same _ _ (by simp only [stBit]; omega) (by omega), Nat.add_assoc, Nat.add_sub_cancel_left]
  exact Nat.mod_eq_of_lt hst

theorem slotPut_target (w : Word) (hj : j < 2) (htgt : tgt < 128) : bitsOf (slotPut w j st tgt) (16 * j + 6) (16 * j) = tgt := by
  rw [slotPut, bitsOf_putBits_same _ _ (by omega) (by omega), Nat.add_assoc, Nat.add_sub_cancel_left]
  exact Nat.mod_eq_of_lt htgt

/-- The other half of the word stays. -/
theorem slotPut_half (w : Word) (hj : j < 2) {i : Nat} (hi : i / 16 ≠ j) : (slotPut w j st tgt).getLsbD i = w.getLsbD i := by
  rw [slotPut, getLsbD_putBits_other _ _ (by omega) (by omega) (by omega),
    getLsbD_putBits_other _ _ (by simp only [stBit]; omega) (by omega) (by simp only [stBit]; omega)]

/-! A slot takes a state (R165 to R167) -/

/-- The registers a slot of Platform `p` is shown in. -/
def subRegs (p : Nat) : List Nat := [colSubReg p, Reg.act (colSubReg p), Reg.REP_STATUS]

/-- From `s` to `t` slot `j` of Platform `p` took a state and target. -/
structure TookSub (p j st tgt : Nat) (s t : State) : Prop where
  slot : t.subOf p j = (st, tgt)
  other : t.subOf p (1 - j) = s.subOf p (1 - j)
  shownState : t.fld (colSubReg p) (stBit j + 1) (stBit j) = st
  shownTarget : t.fld (colSubReg p) (16 * j + 6) (16 * j) = tgt
  pend : t.bit (colSubReg p) (pendBit j) = false
  half : ∀ i, i / 16 ≠ j → t.bit (colSubReg p) i = s.bit (colSubReg p) i
  active : t.fld Reg.REP_STATUS 7 0 = t.countActive
  refused : t.bit Reg.REP_STATUS 8 = s.bit Reg.REP_STATUS 8
  regs : RegsBut (subRegs p) s t
  pending : KeepsPending s t

theorem act_ne {a b : Nat} (h : b < 0x100000) : Reg.act a ≠ b := by simp only [Reg.act]; omega

theorem blockOf_colSubReg (p : Nat) : blockOf (colSubReg p) ≠ 1 := by
  rw [blockOf_eq 16 0 (by decide) (by simp only [colSubReg, Reg.COL_SUB]; omega)]
  decide

theorem colSubReg_ne_repStatus (p : Nat) : colSubReg p ≠ Reg.REP_STATUS := by simp only [colSubReg, Reg.COL_SUB, Reg.REP_STATUS]; omega

/-- COL_SUBp as a slot that takes a state leaves it: SHADOW entered clears SWEPT (R166). -/
def slotWord (w : Word) (j st tgt : Nat) (enter : Bool) : Word :=
  let v := putBits (slotPut w j st tgt) (pendBit j) (pendBit j) 0
  if enter then putBits v (sweptBit j) (sweptBit j) 0 else v

theorem slotWord_field (w : Word) (enter : Bool) (hj : j < 2) {hi lo : Nat} (hhi : hi < 16 * j + 10) :
    bitsOf (slotWord w j st tgt enter) hi lo = bitsOf (slotPut w j st tgt) hi lo := by
  have hpend : bitsOf (putBits (slotPut w j st tgt) (pendBit j) (pendBit j) 0) hi lo = bitsOf (slotPut w j st tgt) hi lo :=
    bitsOf_putBits_other _ _ (by simp only [pendBit]; omega) (Nat.le_refl _) (by simp only [pendBit]; omega)
  cases enter with
  | false => exact hpend
  | true =>
    exact (bitsOf_putBits_other _ _ (by simp only [sweptBit]; omega) (Nat.le_refl _) (by simp only [sweptBit]; omega)).trans hpend

theorem slotWord_half (w : Word) (enter : Bool) (hj : j < 2) {i : Nat} (hi : i / 16 ≠ j) :
    (slotWord w j st tgt enter).getLsbD i = w.getLsbD i := by
  have hpend : (putBits (slotPut w j st tgt) (pendBit j) (pendBit j) 0).getLsbD i = w.getLsbD i :=
    (getLsbD_putBits_other _ _ (by simp only [pendBit]; omega) (Nat.le_refl _) (by simp only [pendBit]; omega)).trans
      (slotPut_half w hj hi)
  cases enter with
  | false => exact hpend
  | true =>
    exact (getLsbD_putBits_other _ _ (by simp only [sweptBit]; omega) (Nat.le_refl _) (by simp only [sweptBit]; omega)).trans hpend

theorem slotWord_pend (w : Word) (enter : Bool) (hj : j < 2) : (slotWord w j st tgt enter).getLsbD (pendBit j) = false := by
  have hpend : (putBits (slotPut w j st tgt) (pendBit j) (pendBit j) 0).getLsbD (pendBit j) = false :=
    getLsbD_putBits_bit _ _ (by simp only [pendBit]; omega)
  cases enter with
  | false => exact hpend
  | true =>
    exact (getLsbD_putBits_other _ _ (by simp only [sweptBit]; omega) (Nat.le_refl _)
      (by simp only [sweptBit, pendBit]; omega)).trans hpend

theorem slotWord_swept (w : Word) (hj : j < 2) : (slotWord w j st tgt true).getLsbD (sweptBit j) = false :=
  getLsbD_putBits_bit _ _ (by simp only [sweptBit]; omega)

/-- Whether taking state `st` enters SHADOW. -/
def State.entersShadow (s : State) (p j st : Nat) : Bool := decide (st = 1) && !((s.subOf p j).1 == 1)

/-- The state and target of a slot put into both copies of COL_SUBp, with nothing pending. -/
def State.putSlot (s : State) (p j st tgt : Nat) : State :=
  let r := colSubReg p
  let s1 := (s.setFld (Reg.act r) (stBit j + 1) (stBit j) st).setFld (Reg.act r) (16 * j + 6) (16 * j) tgt
  ((s1.setFld r (stBit j + 1) (stBit j) st).setFld r (16 * j + 6) (16 * j) tgt).setBit r (pendBit j) false

theorem State.putSlot_arr (s : State) (p j st tgt : Nat) : (s.putSlot p j st tgt).arr = s.arr :=
  (State.setBit_arr _ _ _ _).trans <| (State.setFld_arr _ _ _ _ _).trans <| (State.setFld_arr _ _ _ _ _).trans <|
    (State.setFld_arr _ _ _ _ _).trans (State.setFld_arr _ _ _ _ _)

/-- A sweep starts (R166). -/
def State.startSweep (s : State) (p j : Nat) : State :=
  { s with arr := { s.arr with sweep := Store.set (fun _ => 0) s.arr.sweep (2 * p + j) 0 } }.setBit (colSubReg p) (sweptBit j) false

theorem State.reg_setArr (s : State) (x : Arr) (a : Nat) : ({ s with arr := x } : State).reg a = s.reg a := rfl

theorem State.startSweep_reg (s : State) (p j : Nat) {a : Nat} (h : a ≠ colSubReg p) : (s.startSweep p j).reg a = s.reg a := by
  unfold State.startSweep
  rw [State.reg_setBit_other _ _ _ h, State.reg_setArr]

theorem State.startSweep_word (s : State) (p j : Nat) :
    (s.startSweep p j).reg (colSubReg p) = putBits (s.reg (colSubReg p)) (sweptBit j) (sweptBit j) 0 := by
  unfold State.startSweep
  rw [State.reg_setBit_same, State.reg_setArr]
  rfl

theorem State.startSweep_sweep (s : State) (p j : Nat) :
    (s.startSweep p j).arr.sweep = Store.set (fun _ => 0) s.arr.sweep (2 * p + j) 0 := rfl

/-- What a slot that takes a state changes before SIDINGS_ACTIVE counts it. -/
def State.takeSlot (s : State) (p j st tgt : Nat) : State :=
  if s.entersShadow p j st then (s.putSlot p j st tgt).startSweep p j else s.putSlot p j st tgt

theorem State.applySub_eq (s : State) (p j st tgt : Nat) :
    s.applySub p j st tgt = (s.takeSlot p j st tgt).setFld Reg.REP_STATUS 7 0 (s.takeSlot p j st tgt).countActive := rfl

theorem State.takeSlot_reg (s : State) (p j st tgt : Nat) {a : Nat} (h : a ≠ colSubReg p) (hact : a ≠ Reg.act (colSubReg p)) :
    (s.takeSlot p j st tgt).reg a = s.reg a := by
  have hput : (s.putSlot p j st tgt).reg a = s.reg a := by simp only [State.putSlot, State.reg_setBit_other _ _ _ h,
    State.reg_setFld_other _ _ _ _ h, State.reg_setFld_other _ _ _ _ hact]
  unfold State.takeSlot
  split
  · exact (State.startSweep_reg _ p j h).trans hput
  · exact hput

theorem State.takeSlot_act (s : State) (p j st tgt : Nat) :
    (s.takeSlot p j st tgt).reg (Reg.act (colSubReg p)) = slotPut (s.reg (Reg.act (colSubReg p))) j st tgt := by
  have hne : Reg.act (colSubReg p) ≠ colSubReg p := act_ne (colSubReg_lt p)
  have hput : (s.putSlot p j st tgt).reg (Reg.act (colSubReg p)) = slotPut (s.reg (Reg.act (colSubReg p))) j st tgt := by
    simp only [State.putSlot, State.reg_setBit_other _ _ _ hne, State.reg_setFld_other _ _ _ _ hne, State.reg_setFld_same, slotPut]
  unfold State.takeSlot
  split
  · exact (State.startSweep_reg _ p j hne).trans hput
  · exact hput

theorem State.takeSlot_word (s : State) (p j st tgt : Nat) :
    (s.takeSlot p j st tgt).reg (colSubReg p) = slotWord (s.reg (colSubReg p)) j st tgt (s.entersShadow p j st) := by
  have hne : colSubReg p ≠ Reg.act (colSubReg p) := (act_ne (colSubReg_lt p)).symm
  have hput : (s.putSlot p j st tgt).reg (colSubReg p) =
      putBits (slotPut (s.reg (colSubReg p)) j st tgt) (pendBit j) (pendBit j) 0 := by
    simp only [State.putSlot, State.reg_setBit_same, State.reg_setFld_same, State.reg_setFld_other _ _ _ _ hne, slotPut]
    rfl
  unfold State.takeSlot slotWord
  cases s.entersShadow p j st with
  | false => exact hput
  | true => exact (State.startSweep_word _ p j).trans (congrArg (fun w => putBits w (sweptBit j) (sweptBit j) 0) hput)

theorem State.applySub_reg (s : State) (p j st tgt : Nat) {a : Nat} (h : a ≠ Reg.REP_STATUS) :
    (s.applySub p j st tgt).reg a = (s.takeSlot p j st tgt).reg a := State.reg_setFld_other _ _ _ _ h

theorem applySub_keepsPending (s : State) (p j st tgt : Nat) : KeepsPending s (s.applySub p j st tgt) :=
  .of_keeps (State.applySub_keeps (fs := [.block 16, .arr]) s p j st tgt (Keeps.rfl' _ s) (by decide)) (by decide)

theorem act_colSubReg_ne_repStatus (p : Nat) : Reg.act (colSubReg p) ≠ Reg.REP_STATUS := act_ne (by decide)

/-- What a slot that takes a state leaves. -/
theorem State.applySub_took (s : State) (hj : j < 2) (hst : st < 4) (htgt : tgt < 128) :
    TookSub p j st tgt s (s.applySub p j st tgt) := by
  have hword := (s.applySub_reg p j st tgt (colSubReg_ne_repStatus p)).trans (s.takeSlot_word p j st tgt)
  have hact := (s.applySub_reg p j st tgt (act_colSubReg_ne_repStatus p)).trans (s.takeSlot_act p j st tgt)
  have hrep : (s.takeSlot p j st tgt).reg Reg.REP_STATUS = s.reg Reg.REP_STATUS :=
    s.takeSlot_reg p j st tgt (colSubReg_ne_repStatus p).symm (act_colSubReg_ne_repStatus p).symm
  refine ⟨?_, ?_, ?_, ?_, ?_, fun i hi => ?_, ?_, ?_, fun a ha _ => ?_, applySub_keepsPending s p j st tgt⟩
  · rw [State.subOf_eq_fld _ p hj, State.fld, State.fld, hact, slotPut_state _ hj hst, slotPut_target _ hj htgt]
  · have hhalf : ∀ hi lo, 16 * (1 - j) ≤ lo → hi < 16 * (1 - j) + 16 →
        bitsOf (slotPut (s.reg (Reg.act (colSubReg p))) j st tgt) hi lo = bitsOf (s.reg (Reg.act (colSubReg p))) hi lo :=
      fun hi lo hlo hhi => bitsOf_congr fun i h1 h2 => slotPut_half _ hj (by omega)
    rw [State.subOf_eq_fld _ p (by omega), State.subOf_eq_fld _ p (by omega)]
    simp only [State.fld, hact]
    rw [hhalf _ _ (by simp only [stBit]; omega) (by simp only [stBit]; omega), hhalf _ _ (by omega) (by omega)]
  · rw [State.fld, hword, slotWord_field _ _ hj (by simp only [stBit]; omega), slotPut_state _ hj hst]
  · rw [State.fld, hword, slotWord_field _ _ hj (by omega), slotPut_target _ hj htgt]
  · rw [State.bit, hword, slotWord_pend _ _ hj]
  · rw [State.bit, hword, slotWord_half _ _ hj hi, State.bit]
  · have hcount : (s.applySub p j st tgt).countActive = (s.takeSlot p j st tgt).countActive :=
      State.countActive_congr fun q => s.applySub_reg p j st tgt (act_colSubReg_ne_repStatus q)
    have hle := (s.takeSlot p j st tgt).countActive_le
    rw [hcount, State.applySub_eq, State.fld_setFld_same _ _ _ (by decide) (by decide)]
    exact Nat.mod_eq_of_lt (by omega)
  · rw [State.applySub_eq, State.bit_setFld_disjoint _ _ _ (by decide) (by decide) (by decide)]
    exact State.bit_congr 8 hrep
  · simp only [subRegs, List.mem_cons, List.not_mem_nil, or_false, not_or] at ha
    obtain ⟨h1, h2, h3⟩ := ha
    rw [s.applySub_reg p j st tgt h3, s.takeSlot_reg p j st tgt h1 h2]

theorem TookSub.fire (h : TookSub p j st tgt s t) (i : Nat) : TookSub p j st tgt s (t.fire i) where
  slot := (State.subOf_congr (t.reg_fire i (by rw [blockOf_act_colSubReg]; decide)) j).trans h.slot
  other := (State.subOf_congr (t.reg_fire i (by rw [blockOf_act_colSubReg]; decide)) _).trans h.other
  shownState := (t.fld_fire i _ _ (blockOf_colSubReg p)).trans h.shownState
  shownTarget := (t.fld_fire i _ _ (blockOf_colSubReg p)).trans h.shownTarget
  pend := (t.bit_fire i _ (blockOf_colSubReg p)).trans h.pend
  half n hn := (t.bit_fire i n (blockOf_colSubReg p)).trans (h.half n hn)
  active := by
    rw [t.fld_fire i _ _ (by decide), h.active]
    exact (State.countActive_congr fun q => t.reg_fire i (by rw [blockOf_act_colSubReg]; decide)).symm
  refused := (t.bit_fire i _ (by decide)).trans h.refused
  regs := h.regs.fire i
  pending := h.pending.fire i

/-- A slot that enters SHADOW starts its sweep (R166). -/
theorem State.applySub_entersShadow (s : State) (tgt : Nat) (hj : j < 2) (h : (s.subOf p j).1 ≠ 1) :
    (s.applySub p j 1 tgt).bit (colSubReg p) (sweptBit j) = false ∧
      Store.get (fun _ => 0) (s.applySub p j 1 tgt).arr.sweep (2 * p + j) = 0 := by
  have henter : s.entersShadow p j 1 = true := by simp [State.entersShadow, h]
  constructor
  · rw [State.bit, s.applySub_reg p j 1 tgt (colSubReg_ne_repStatus p), s.takeSlot_word, henter, slotWord_swept _ hj]
  · rw [State.applySub_eq, State.setFld_arr, State.takeSlot, if_pos henter, State.startSweep_sweep, Store.get_set_same]

theorem State.applySub_sweep (s : State) (p j tgt : Nat) {st : Nat} (h : st ≠ 1) : (s.applySub p j st tgt).arr.sweep = s.arr.sweep := by
  have henter : s.entersShadow p j st = false := by simp [State.entersShadow, h]
  rw [State.applySub_eq, State.setFld_arr, State.takeSlot, if_neg (by rw [henter]; decide), State.putSlot_arr]

/-! How a write is judged (R165, R167) -/

/-- Slot `j`'s part of a write is refused. -/
def State.subRefused (s : State) (p j : Nat) (other : Nat × Nat) (v : Word) : Bool :=
  let old := s.subOf p j
  let st := bitsOf v (stBit j + 1) (stBit j)
  let tgt := bitsOf v (16 * j + 6) (16 * j)
  st == 3 || decide (71 < tgt) || !subTransition old.1 st || (st != 0 && other.1 != 0 && tgt == other.2) ||
    (old.1 != 0 && tgt != old.2) || (old.1 == 1 && st == 2 && !s.bit (colSubReg p) (sweptBit j)) ||
    (old.1 == 2 && st == 0 && (s.logicalOf (p / 9) (p % 9)).isSome)

/-- Routing changes: SHADOW to ACTIVE or ACTIVE to OFF, which wait for a safe point (R167). -/
def State.subRoutes (s : State) (p j : Nat) (v : Word) : Bool :=
  ((s.subOf p j).1 == 1 && bitsOf v (stBit j + 1) (stBit j) == 2) || ((s.subOf p j).1 == 2 && bitsOf v (stBit j + 1) (stBit j) == 0)

/-- Slot `j`'s part of a value held in PEND (R167). -/
def State.holdSub (s : State) (p j : Nat) (v : Word) : State :=
  let r := colSubReg p
  ((s.setFld r (stBit j + 1) (stBit j) (bitsOf v (stBit j + 1) (stBit j))).setFld r (16 * j + 6) (16 * j)
    (bitsOf v (16 * j + 6) (16 * j))).setBit r (pendBit j) true

theorem State.judgeSub_eq (s : State) (p j : Nat) (other : Nat × Nat) (v : Word) (executing : Bool) :
    s.judgeSub p j other v executing =
      let took := s.applySub p j (bitsOf v (stBit j + 1) (stBit j)) (bitsOf v (16 * j + 6) (16 * j))
      if s.subRefused p j other v then s.setBit Reg.REP_STATUS 8 true
      else if s.subRoutes p j v then
        if (executing || s.arr.busy) && !s.arr.suspended then s.holdSub p j v else took.fire 71
      else took := rfl

theorem holdSub_word (s : State) (p j : Nat) (v : Word) : (s.holdSub p j v).reg (colSubReg p) =
    putBits (slotPut (s.reg (colSubReg p)) j (bitsOf v (stBit j + 1) (stBit j)) (bitsOf v (16 * j + 6) (16 * j)))
      (pendBit j) (pendBit j) 1 := by
  simp only [State.holdSub, State.reg_setBit_same, State.reg_setFld_same, slotPut, if_true]

theorem holdSub_reg (s : State) (p j : Nat) (v : Word) {a : Nat} (h : a ≠ colSubReg p) : (s.holdSub p j v).reg a = s.reg a := by
  simp only [State.holdSub, State.reg_setBit_other _ _ _ h, State.reg_setFld_other _ _ _ _ h]

/-- Judging one slot leaves the other. -/
theorem judgeSub_other (s : State) (other : Nat × Nat) (v : Word) (executing : Bool) (hj : j < 2) :
    (s.judgeSub p j other v executing).subOf p (1 - j) = s.subOf p (1 - j) := by
  have htook := s.applySub_took (p := p) hj (slotState_lt v j) (slotTarget_lt v j)
  rw [State.judgeSub_eq]
  dsimp only
  split
  · exact State.subOf_congr (s.reg_setBit_other _ _ (act_colSubReg_ne_repStatus p)) _
  · split
    · split
      · exact State.subOf_congr (holdSub_reg s p j v (act_ne (colSubReg_lt p))) _
      · exact (htook.fire 71).other
    · exact htook.other

/-- Slot 1 of Platform `p` is OFF, nothing is pending for it, and the write leaves it OFF. -/
structure SlotOneOff (s : State) (p : Nat) (v : Word) : Prop where
  off : (s.subOf p 1).1 = 0
  pend : s.bit (colSubReg p) 27 = false
  state : bitsOf v 25 24 = 0
  target : bitsOf v 22 16 ≤ 71

variable {v : Word}

/-- A slot that is OFF and stays OFF takes the target written. -/
theorem State.judgeSub_off (s : State) (p : Nat) (other : Nat × Nat) (executing : Bool) (h : (s.subOf p 1).1 = 0)
    (hst : bitsOf v 25 24 = 0) (htgt : bitsOf v 22 16 ≤ 71) : s.judgeSub p 1 other v executing = s.applySub p 1 0 (bitsOf v 22 16) := by
  have hst' : bitsOf v (stBit 1 + 1) (stBit 1) = 0 := hst
  have hno : s.subRefused p 1 other v = false := by simp [State.subRefused, h, hst', htgt, subTransition]
  have hroute : s.subRoutes p 1 v = false := by simp [State.subRoutes, h]
  simp only [State.judgeSub_eq, hno, hroute, hst', Bool.false_eq_true, if_false]

/-- A write that leaves slot 1 OFF: slot 0 is judged, then slot 1 takes the target written. -/
theorem SlotOneOff.colSubWrite_eq (h : SlotOneOff s p v) (executing : Bool) : s.colSubWrite p v executing =
    (s.judgeSub p 0 (s.subOf p 1) v executing).applySub p 1 0 (bitsOf v 22 16) := by
  have hseen : s.subSeen p 1 = s.subOf p 1 := by
    simp only [State.subSeen, show s.bit (colSubReg p) (pendBit 1) = false from h.pend, Bool.false_eq_true, if_false]
  have hother : (s.judgeSub p 0 (s.subOf p 1) v executing).subOf p 1 = s.subOf p 1 := judgeSub_other s _ v executing (j := 0) (by decide)
  unfold State.colSubWrite
  rw [hseen]
  exact State.judgeSub_off _ p _ executing (by rw [hother]; exact h.off) h.state h.target

/-- What the part for slot 1 leaves. -/
theorem SlotOneOff.took (h : SlotOneOff s p v) (executing : Bool) :
    TookSub p 1 0 (bitsOf v 22 16) (s.judgeSub p 0 (s.subOf p 1) v executing) (s.colSubWrite p v executing) := by
  rw [h.colSubWrite_eq]
  exact State.applySub_took _ (by decide) (by decide) ((h.target).trans_lt (by decide))

/-! The clauses -/

theorem SlotOneOff.regs (h : SlotOneOff s p v) (executing : Bool) (hs : RegsBut (subRegs p) s (s.judgeSub p 0 (s.subOf p 1) v executing)) :
    RegsBut (subRegs p) s (s.colSubWrite p v executing) := hs.trans (h.took executing).regs

/-- The half of slot 0 is as the part for slot 0 leaves it. -/
theorem SlotOneOff.fld (h : SlotOneOff s p v) (executing : Bool) {hi lo : Nat} (hhi : hi < 16) :
    (s.colSubWrite p v executing).fld (colSubReg p) hi lo = (s.judgeSub p 0 (s.subOf p 1) v executing).fld (colSubReg p) hi lo :=
  fld_eq_of_bits fun n hn => (h.took executing).half n (by omega)

theorem SlotOneOff.bit (h : SlotOneOff s p v) (executing : Bool) {n : Nat} (hn : n < 16) :
    (s.colSubWrite p v executing).bit (colSubReg p) n = (s.judgeSub p 0 (s.subOf p 1) v executing).bit (colSubReg p) n :=
  (h.took executing).half n (by omega)

/-- Slot 0's part takes effect. -/
theorem SlotOneOff.applied (h : SlotOneOff s p v) {executing : Bool} (htook : TookSub p 0 st tgt s (s.judgeSub p 0 (s.subOf p 1) v executing)) :
    (s.colSubWrite p v executing).subOf p 0 = (st, tgt) ∧ (s.colSubWrite p v executing).bit (colSubReg p) 11 = false ∧
      RegsBut (subRegs p) s (s.colSubWrite p v executing) :=
  ⟨(h.took executing).other.trans htook.slot, (h.bit executing (by decide)).trans htook.pend, h.regs executing htook.regs⟩

theorem SlotOneOff.offToShadow (h : SlotOneOff s p v) (executing : Bool) (htgt : bitsOf v 6 0 ≤ 71) (hst : bitsOf v 9 8 = 1)
    (hold : (s.subOf p 0).1 = 0) : s.judgeSub p 0 (s.subOf p 1) v executing = s.applySub p 0 1 (bitsOf v 6 0) := by
  have hst' : bitsOf v (stBit 0 + 1) (stBit 0) = 1 := hst
  have hno : s.subRefused p 0 (s.subOf p 1) v = false := by
    simp [State.subRefused, h.off, hold, hst', subTransition, htgt]
  have hroute : s.subRoutes p 0 v = false := by simp [State.subRoutes, hold]
  simp only [State.judgeSub_eq, hno, hroute, hst', Bool.false_eq_true, if_false]

theorem SlotOneOff.shadowToActive (h : SlotOneOff s p v) (executing : Bool) (htgt : bitsOf v 6 0 ≤ 71) (hst : bitsOf v 9 8 = 2)
    (hold : s.subOf p 0 = (1, bitsOf v 6 0)) (hswept : s.bit (colSubReg p) 10 = true) :
    s.judgeSub p 0 (s.subOf p 1) v executing = if (executing || s.arr.busy) && !s.arr.suspended then s.holdSub p 0 v
      else (s.applySub p 0 2 (bitsOf v 6 0)).fire 71 := by
  have hst' : bitsOf v (stBit 0 + 1) (stBit 0) = 2 := hst
  have hno : s.subRefused p 0 (s.subOf p 1) v = false := by
    simp [State.subRefused, h.off, hold, hst', subTransition, show s.bit (colSubReg p) (sweptBit 0) = true from hswept, htgt]
  have hroute : s.subRoutes p 0 v = true := by simp [State.subRoutes, hold, hst']
  simp only [State.judgeSub_eq, hno, hroute, hst', Bool.false_eq_true, if_false, if_true]

theorem State.judgeSub_activeToOff (s : State) (other : Nat × Nat) (executing : Bool) (htgt : bitsOf v 6 0 ≤ 71) (hst : bitsOf v 9 8 = 0)
    (hold : s.subOf p 0 = (2, bitsOf v 6 0)) (hgap : s.isGap (p / 9) (p % 9) = true) :
    s.judgeSub p 0 other v executing = if (executing || s.arr.busy) && !s.arr.suspended then s.holdSub p 0 v
      else (s.applySub p 0 0 (bitsOf v 6 0)).fire 71 := by
  have hst' : bitsOf v (stBit 0 + 1) (stBit 0) = 0 := hst
  have hno : s.subRefused p 0 other v = false := by
    simp [State.subRefused, hold, hst', subTransition, State.logicalOf, hgap, htgt]
  have hroute : s.subRoutes p 0 v = true := by simp [State.subRoutes, hold, hst']
  simp only [State.judgeSub_eq, hno, hroute, hst', Bool.false_eq_true, if_false, if_true]

/-- Encoding 0b11, a target that is no column, and the transitions that R165 refuses. -/
theorem State.judgeSub_refused (s : State) (other : Nat × Nat) (executing : Bool)
    (h : bitsOf v 9 8 = 3 ∨ 71 < bitsOf v 6 0 ∨ ((s.subOf p 0).1 = 0 ∧ bitsOf v 9 8 = 2) ∨
      ((s.subOf p 0).1 = 1 ∧ bitsOf v 9 8 = 2 ∧ s.bit (colSubReg p) 10 = false) ∨
      ((s.subOf p 0).1 = 2 ∧ bitsOf v 9 8 = 0 ∧ s.isGap (p / 9) (p % 9) = false)) :
    s.judgeSub p 0 other v executing = s.setBit Reg.REP_STATUS 8 true := by
  have hstate : bitsOf v (stBit 0 + 1) (stBit 0) = bitsOf v 9 8 := rfl
  have hswept : s.bit (colSubReg p) (sweptBit 0) = s.bit (colSubReg p) 10 := rfl
  have hyes : s.subRefused p 0 other v = true := by
    rcases h with h | h | ⟨ho, h⟩ | ⟨ho, h, hs⟩ | ⟨ho, h, hs⟩
    · simp [State.subRefused, hstate, h]
    · simp [State.subRefused, h]
    · simp [State.subRefused, hstate, ho, h, subTransition]
    · simp [State.subRefused, hstate, hswept, ho, h, hs]
    · simp [State.subRefused, hstate, ho, h, State.logicalOf, hs]
  rw [State.judgeSub_eq]
  exact if_pos hyes

/-- What a pending value shows (R167). -/
theorem holdSub_shown (s : State) (p : Nat) (v : Word) : (s.holdSub p 0 v).bit (colSubReg p) 11 = true ∧
    (s.holdSub p 0 v).fld (colSubReg p) 9 8 = bitsOf v 9 8 ∧ (s.holdSub p 0 v).fld (colSubReg p) 6 0 = bitsOf v 6 0 := by
  refine ⟨?_, ?_, ?_⟩
  · rw [State.bit, holdSub_word]
    exact getLsbD_putBits_bit _ _ (by decide)
  · rw [State.fld, holdSub_word, bitsOf_putBits_other _ _ (by decide) (by decide) (by decide)]
    exact slotPut_state _ (j := 0) (by decide) (slotState_lt v 0)
  · rw [State.fld, holdSub_word, bitsOf_putBits_other _ _ (by decide) (by decide) (by decide)]
    exact slotPut_target _ (j := 0) (by decide) (slotTarget_lt v 0)

theorem holdSub_regs (s : State) (p j : Nat) (v : Word) : RegsBut (subRegs p) s (s.holdSub p j v) :=
  fun _ ha _ => holdSub_reg s p j v (ne_of_mem_of_not_mem (by simp [subRegs]) ha).symm

/-- A pending value that applies (R167). -/
theorem State.subApplied_of_pend (hj : j < 2) (h : s.bit (colSubReg p) (pendBit j) = true) :
    TookSub p j (s.fld (colSubReg p) (stBit j + 1) (stBit j)) (s.fld (colSubReg p) (16 * j + 6) (16 * j)) s (s.subApplied p j) ∧
      (s.subApplied p j).pends 71 = true := by
  have heq : s.subApplied p j = (s.applySub p j (s.fld (colSubReg p) (stBit j + 1) (stBit j))
      (s.fld (colSubReg p) (16 * j + 6) (16 * j))).fire 71 := if_pos h
  rw [heq]
  exact ⟨(s.applySub_took hj (slotState_lt _ j) (slotTarget_lt _ j)).fire 71, State.pends_fire_self _ 71⟩

theorem colmonClr_regs (s : State) (p : Nat) : RegsBut [colmonReg p] s (s.colmonClr p) :=
  ((RegsBut.refl _ s).setFld _ _ _ (by simp)).setFld _ _ _ (by simp)

/-- COLMON_CLR clears COL and COUNT (R163). -/
theorem colmonClr_cleared (s : State) (p : Nat) :
    (s.colmonClr p).fld (colmonReg p) 6 0 = 0 ∧ (s.colmonClr p).fld (colmonReg p) 15 8 = 0 := by
  unfold State.colmonClr
  rw [State.fld_setFld_disjoint _ _ _ (by decide) (by decide) (by decide), State.fld_setFld_same _ _ _ (by decide) (by decide),
    State.fld_setFld_same _ _ _ (by decide) (by decide)]
  exact ⟨rfl, rfl⟩

/-- The zones of a write to COL_SUB. -/
def subZones : List Zone := [.block 16, .block 1, .out, .arr]

theorem colSubWrite_does {executing : Bool} {post : State → Prop} (h : post (s.colSubWrite p v executing)) :
    Does (.colSubWrite p v executing) s subZones post :=
  does_of_keeps rfl (State.colSubWrite_keeps s p v executing (Keeps.rfl' _ s) (by decide)) h

/-- A routing change applies at once where the array is idle or an instruction is suspended. -/
theorem waits_eq_false {executing : Bool} (h : s.arr.suspended = true ∨ (executing = false ∧ s.arr.busy = false)) :
    ((executing || s.arr.busy) && !s.arr.suspended) = false := by
  rcases h with h | ⟨h, h'⟩
  · rw [h, Bool.not_true, Bool.and_false]
  · rw [h, h', Bool.or_self, Bool.false_and]

theorem waits_eq_true {executing : Bool} (h : ¬ (s.arr.suspended = true ∨ (executing = false ∧ s.arr.busy = false))) :
    ((executing || s.arr.busy) && !s.arr.suspended) = true := by
  simp only [not_or, not_and, Bool.not_eq_true, Bool.not_eq_false] at h
  obtain ⟨hsusp, hbusy⟩ := h
  rw [hsusp, Bool.not_false, Bool.and_true]
  cases executing with
  | true => rfl
  | false => exact hbusy rfl

/-- A routing change of slot 0 applies, or is held in PEND (R167). -/
theorem SlotOneOff.routed (h : SlotOneOff s p v) {executing : Bool} (hst : st < 4)
    (hjudge : s.judgeSub p 0 (s.subOf p 1) v executing = if (executing || s.arr.busy) && !s.arr.suspended then s.holdSub p 0 v
      else (s.applySub p 0 st (bitsOf v 6 0)).fire 71) :
    let now := s.arr.suspended = true ∨ (executing = false ∧ s.arr.busy = false)
    let t := s.colSubWrite p v executing
    (now → t.subOf p 0 = (st, bitsOf v 6 0) ∧ t.bit (colSubReg p) 11 = false ∧ t.pends 71 = true) ∧
      (¬ now → t.subOf p 0 = s.subOf p 0 ∧ t.bit (colSubReg p) 11 = true ∧ t.fld (colSubReg p) 9 8 = bitsOf v 9 8 ∧
        t.fld (colSubReg p) 6 0 = bitsOf v 6 0) ∧ RegsBut (subRegs p) s t := by
  intro now t
  have htook : TookSub p 0 st (bitsOf v 6 0) s ((s.applySub p 0 st (bitsOf v 6 0)).fire 71) :=
    (s.applySub_took (by decide) hst (slotTarget_lt v 0)).fire 71
  by_cases hnow : now
  · rw [waits_eq_false hnow, if_neg (by decide)] at hjudge
    obtain ⟨hslot, hpend, hregs⟩ := h.applied (hjudge ▸ htook)
    refine ⟨fun _ => ⟨hslot, hpend, (h.took executing).pending 71 ?_⟩, fun hn => absurd hnow hn, hregs⟩
    rw [hjudge]
    exact State.pends_fire_self _ 71
  · rw [waits_eq_true hnow, if_pos rfl] at hjudge
    obtain ⟨hpend, hstate, htarget⟩ := holdSub_shown s p v
    refine ⟨fun hn => absurd hn hnow, fun _ => ⟨(h.took executing).other.trans ?_, (h.bit executing (by decide)).trans ?_,
      (h.fld executing (by decide)).trans ?_, (h.fld executing (by decide)).trans ?_⟩, h.regs executing ?_⟩
    all_goals rw [hjudge]
    · exact State.subOf_congr (holdSub_reg s p 0 v (act_ne (colSubReg_lt p))) 0
    · exact hpend
    · exact hstate
    · exact htarget
    · exact holdSub_regs s p 0 v

/-- At power-on slot 1 of a Platform is OFF, and a write of SHADOW to slot 0 leaves it OFF. -/
theorem reset_slotOneOff : SlotOneOff State.reset 0 0x100 := ⟨by decide, by decide, by decide, by decide⟩

/-- Settles O18: the judgement of slot 0's part, then slot 1's part, which stays OFF (`SlotOneOff.took`). -/
theorem columnSubstitution : Obligations.ColumnSubstitution := by
  intro s p v executing hp r tgt zones regs now
  have hr : r = colSubReg p := (colSubReg_of_lt hp).symm
  clear_value r
  subst hr
  refine ⟨fun hoff hpend hst1 htgt1 => ?_, fun j hj => ⟨fun hpend => ?_, fun hpend => ?_⟩, ?_⟩
  · have h : SlotOneOff s p v := ⟨hoff, hpend, hst1, htgt1⟩
    have hactive := (h.took executing).active
    refine ⟨fun htgt hst hold => colSubWrite_does ?_, fun htgt hst hold hswept => colSubWrite_does ?_,
      fun htgt hst hold hgap hnow => colSubWrite_does ?_, fun href => colSubWrite_does ?_⟩
    · have hjudge := h.offToShadow executing htgt hst hold
      have htook : TookSub p 0 1 tgt s (s.judgeSub p 0 (s.subOf p 1) v executing) :=
        hjudge ▸ s.applySub_took (by decide) (by decide) (slotTarget_lt v 0)
      obtain ⟨hswept, hsweep⟩ := s.applySub_entersShadow (p := p) (j := 0) tgt (by decide) (by rw [hold]; decide)
      obtain ⟨hslot, -, hregs⟩ := h.applied htook
      refine ⟨hslot, (h.fld executing (by decide)).trans htook.shownState, (h.fld executing (by decide)).trans htook.shownTarget,
        (h.bit executing (by decide)).trans ?_, ?_, hactive, hregs⟩
      · rw [hjudge]
        exact hswept
      · rw [h.colSubWrite_eq, State.applySub_sweep _ _ _ _ (by decide), hjudge]
        exact hsweep
    · obtain ⟨hnow, hwait, hregs⟩ := h.routed (st := 2) (by decide) (h.shadowToActive executing htgt hst hold hswept)
      refine ⟨hnow, fun hn => ?_, hactive, hregs⟩
      obtain ⟨hslot, hpend, hstate, htarget⟩ := hwait hn
      exact ⟨hslot.trans hold, hpend, hstate.trans hst, htarget⟩
    · obtain ⟨happlied, -, hregs⟩ := h.routed (st := 0) (by decide) (s.judgeSub_activeToOff _ executing htgt hst hold hgap)
      obtain ⟨hslot, hpend, hfired⟩ := happlied hnow
      exact ⟨hslot, hpend, hfired, hactive, hregs⟩
    · have hjudge := s.judgeSub_refused (s.subOf p 1) executing href
      refine ⟨(h.took executing).other.trans ?_, (h.took executing).refused.trans ?_, h.regs executing ?_⟩
      all_goals rw [hjudge]
      · exact State.subOf_congr (s.reg_setBit_other _ _ (act_colSubReg_ne_repStatus p)) 0
      · exact s.bit_setBit_same _ true (by decide)
      · exact (RegsBut.refl _ s).setBit _ _ (by simp [subRegs])
  · obtain ⟨htook, hfired⟩ := State.subApplied_of_pend (s := s) (p := p) hj hpend
    rw [show stBit j + 1 = 9 + 16 * j by simp only [stBit]; omega, Nat.add_comm (16 * j) 6] at htook
    refine does_of_keeps (t := s.subApplied p j) ?_ (State.subApplied_keeps s p j (Keeps.rfl' _ s) (by decide))
      ⟨htook.slot, htook.other, htook.pend, hfired, htook.active, htook.regs⟩
    exact congrArg (fun i => Host.Outcome.next (s.subApplied p i)) (Nat.mod_eq_of_lt hj)
  · refine (congrArg (fun i => Host.Outcome.next (s.subApplied p i)) (Nat.mod_eq_of_lt hj)).trans (congrArg Host.Outcome.next ?_)
    exact if_neg (by rw [show s.bit (colSubReg p) (pendBit j) = false from hpend]; decide)
  · rw [← colmonReg_of_lt hp]
    obtain ⟨hcol, hcount⟩ := colmonClr_cleared s p
    exact does_of_keeps rfl (State.colmonClr_keeps s p (Keeps.rfl' _ s) (by decide)) ⟨hcol, hcount, colmonClr_regs s p⟩

end Sys2Proof.Machine
end

section
/-! Proofs about the mirror and the built-in test (O19): the cells of a Platform that is filled, the words of MIRROR_CTL and
BIST_STATUS, and what Stationmaster does with a test's result. -/

namespace Sys2Proof.Machine

variable {s t : State} {p : Nat}

/-! Words from numbers -/

theorem bitsOf_ofNat {n : Nat} (h : n < 2 ^ 32) (hi lo : Nat) : bitsOf (BitVec.ofNat 32 n) hi lo = n / 2 ^ lo % 2 ^ (hi + 1 - lo) := by
  rw [bitsOf, BitVec.toNat_ofNat, Nat.mod_eq_of_lt h]

theorem getLsbD_ofNat_lt {n : Nat} (h : n < 2 ^ 32) (i : Nat) : (BitVec.ofNat 32 n).getLsbD i = decide (n / 2 ^ i % 2 = 1) := by
  rw [BitVec.getLsbD, BitVec.toNat_ofNat, Nat.mod_eq_of_lt h, Nat.testBit_eq_decide_div_mod_eq]

/-! The cells of a Platform (R185, R186) -/

theorem State.planeCells_setPlaneCells_other (s : State) {a b : Nat} (cells : List (Option Word74)) (h : b ≠ a) :
    (s.setPlaneCells a cells).planeCells b = s.planeCells b :=
  State.planeCells_congr rfl ((setPlaneCells_wrote (W := (· = a)) s cells rfl).planes b h)

/-- Planes rewritten one after the other, each from its own cells. -/
theorem planeCells_foldl_setPlaneCells (f : Nat → List (Option Word74) → List (Option Word74))
    (hf : ∀ a c, (f a c).length = c.length) (l : List Nat) (hl : l.Nodup) (s : State) (a : Nat) :
    (l.foldl (fun s b => s.setPlaneCells b (f b (s.planeCells b))) s).planeCells a =
      if a ∈ l then f a (s.planeCells a) else s.planeCells a := by
  induction l generalizing s with
  | nil => rfl
  | cons b l ih =>
    obtain ⟨hb, hl⟩ := List.nodup_cons.mp hl
    rw [List.foldl_cons, ih hl]
    by_cases hab : a = b
    · subst hab
      rw [if_neg hb, if_pos (by simp)]
      exact s.planeCells_setPlaneCells_same a ((hf _ _).trans (s.planeCells_length a))
    · rw [s.planeCells_setPlaneCells_other _ hab]
      simp only [List.mem_cons, hab, false_or]

/-- The cells of plane `a` with those of Platform `p` filled. -/
def fillCells (p : Nat) (v m : Option Word74) (a : Nat) (cells : List (Option Word74)) : List (Option Word74) :=
  cells.zipIdx.map fun ck => if ck.2 / 32 == p then (if a = planeM then m else v) else ck.1

theorem fillCells_length (p : Nat) (v m : Option Word74) (a : Nat) (cells : List (Option Word74)) :
    (fillCells p v m a cells).length = cells.length := by rw [fillCells, List.length_map, List.length_zipIdx]

theorem fillPlatform_eq (s : State) (p : Nat) (v m : Option Word74) : s.fillPlatform p v m =
    (List.range 1028).foldl (fun s a => s.setPlaneCells a (fillCells p v m a (s.planeCells a))) s := rfl

/-- What a cell holds after a Platform is filled. -/
theorem fillPlatform_cell (s : State) (p : Nat) (v m : Option Word74) {a k : Nat} (ha : a < 1028) (hk : k < 2304) :
    ((s.fillPlatform p v m).planeCells a)[k]? =
      if k / 32 = p then some (if a = planeM then m else v) else (s.planeCells a)[k]? := by
  obtain ⟨c, hc⟩ := s.exists_cell a hk
  rw [fillPlatform_eq, planeCells_foldl_setPlaneCells _ (fillCells_length p v m) _ List.nodup_range, if_pos (List.mem_range.mpr ha),
    fillCells]
  simp only [List.getElem?_map, List.getElem?_zipIdx, hc, Option.map_some, Nat.zero_add, beq_iff_eq]
  split <;> rfl

theorem fillPlatform_keeps_planes (s : State) (p : Nat) (v m : Option Word74) : Keeps [.planes] s (s.fillPlatform p v m) :=
  State.fillPlatform_keeps s p v m (Keeps.rfl' _ s) (by decide)

/-- Filling a Platform touches no register. -/
theorem fillPlatform_reg (s : State) (p : Nat) (v m : Option Word74) (a : Nat) : (s.fillPlatform p v m).reg a = s.reg a :=
  (fillPlatform_keeps_planes s p v m).only (.block (blockOf a)) rfl a rfl

/-! The mirror (R182) -/

/-- A write with EN = 1 may start the mirror. -/
def State.mirrorLegal (s : State) (row dst src : Nat) : Prop :=
  src ≤ 8 ∧ dst ≤ 8 ∧ (src + 1 = dst ∨ dst + 1 = src) ∧ s.fld (Reg.act (rowMap row)) 7 4 = 15 ∧
    s.fld (Reg.act (rowMap row)) 3 0 = dst ∧ s.bistOwns (9 * row + dst) = false ∧ s.bit Reg.MIRROR_CTL 12 = false

/-- MIRROR_CTL as a mirror that starts shows it. -/
def mirrorWord (row dst src : Nat) : Word := BitVec.ofNat 32 (2 ^ 12 + row * 256 + dst * 16 + src)

theorem mirrorWord_fields {row dst src : Nat} (hrow : row < 8) (hdst : dst < 16) (hsrc : src < 16) :
    (mirrorWord row dst src).getLsbD 12 = true ∧ (mirrorWord row dst src).getLsbD 11 = false ∧
      bitsOf (mirrorWord row dst src) 10 8 = row ∧ bitsOf (mirrorWord row dst src) 7 4 = dst ∧ bitsOf (mirrorWord row dst src) 3 0 = src := by
  have h32 : 2 ^ 12 + row * 256 + dst * 16 + src < 2 ^ 32 := by omega
  refine ⟨?_, ?_, ?_, ?_, ?_⟩
  · rw [mirrorWord, getLsbD_ofNat_lt h32, decide_eq_true_iff]; omega
  · rw [mirrorWord, getLsbD_ofNat_lt h32, decide_eq_false_iff_not]; omega
  all_goals rw [mirrorWord, bitsOf_ofNat h32]; omega

/-- The mirror starts. -/
def State.startMirror (s : State) (row dst src : Nat) : State :=
  { s.setReg Reg.MIRROR_CTL (mirrorWord row dst src) with arr := { s.arr with mirrorSweep := 0 } }

theorem startMirror_reg (s : State) (row dst src a : Nat) :
    (s.startMirror row dst src).reg a = (s.setReg Reg.MIRROR_CTL (mirrorWord row dst src)).reg a := rfl

variable {v : Word}

theorem State.mirrorWrite_legal (hen : v.getLsbD 12 = true) (h : s.mirrorLegal (bitsOf v 10 8) (bitsOf v 7 4) (bitsOf v 3 0)) :
    s.mirrorWrite v = s.startMirror (bitsOf v 10 8) (bitsOf v 7 4) (bitsOf v 3 0) := by
  obtain ⟨hsrc, hdst, hnext, hgap1, hgap0, howns, hoff⟩ := h
  unfold State.mirrorWrite
  rw [if_pos hen]
  refine if_neg ?_
  simpa [hsrc, hdst, hgap1, hgap0, howns, hoff] using or_iff_not_imp_left.mp hnext

theorem State.mirrorWrite_illegal (hen : v.getLsbD 12 = true) (h : ¬ s.mirrorLegal (bitsOf v 10 8) (bitsOf v 7 4) (bitsOf v 3 0)) :
    s.mirrorWrite v = s.setBit Reg.REP_STATUS 9 true := by
  unfold State.mirrorWrite
  rw [if_pos hen]
  refine if_pos ?_
  by_contra hno
  refine h ?_
  simpa [State.mirrorLegal, and_assoc, or_iff_not_imp_left] using hno

theorem State.mirrorWrite_stop (hen : v.getLsbD 12 = false) : (s.mirrorWrite v).bit Reg.MIRROR_CTL 12 = false ∧
    RegsBut [Reg.MIRROR_CTL] s (s.mirrorWrite v) ∧ Keeps [.block 16] s (s.mirrorWrite v) := by
  have hs := Keeps.rfl' [.block 16] s
  unfold State.mirrorWrite
  rw [if_neg (by rw [hen]; decide)]
  split
  · exact ⟨s.bit_setBit_same _ false (by decide), (RegsBut.refl _ s).setBit _ _ (by simp), setBit_keeps _ _ _ hs (by decide)⟩
  · next hoff =>
    refine ⟨?_, (RegsBut.refl _ s).setFld _ _ _ (by simp), setFld_keeps _ _ _ _ hs (by decide)⟩
    rw [State.bit_setFld_disjoint _ _ _ (by decide) (by decide) (by decide)]
    exact Bool.eq_false_iff.mpr hoff

/-! A test starts or is aborted (R184, R185) -/

/-- A START on Platform `p` is not refused. -/
def State.bistLegal (s : State) (p : Nat) : Prop :=
  p ≤ 71 ∧ s.isGap (p / 9) (p % 9) = true ∧ s.bit Reg.BIST_STATUS 7 = false ∧
    ¬ (s.bit Reg.MIRROR_CTL 12 = true ∧ s.fld Reg.MIRROR_CTL 10 8 * 9 + s.fld Reg.MIRROR_CTL 7 4 = p)

/-- BIST_STATUS as a test that starts shows it. -/
def bistBusyWord (p : Nat) : Word := BitVec.ofNat 32 (0x3FFF000 + 128 + p)

theorem bistBusyWord_fields (h : p < 128) : (bistBusyWord p).getLsbD 7 = true ∧ bitsOf (bistBusyWord p) 6 0 = p ∧
    bitsOf (bistBusyWord p) 10 8 = 0 ∧ bitsOf (bistBusyWord p) 18 12 = 0x7F ∧ bitsOf (bistBusyWord p) 25 19 = 0x7F := by
  have h32 : 0x3FFF000 + 128 + p < 2 ^ 32 := by omega
  refine ⟨?_, ?_, ?_, ?_, ?_⟩
  · rw [bistBusyWord, getLsbD_ofNat_lt h32, decide_eq_true_iff]; omega
  all_goals rw [bistBusyWord, bitsOf_ofNat h32]; omega

/-- A test starts on slot `p`, whose contents it destroys. -/
def State.startBist (s : State) (p : Nat) : State :=
  ((s.setFld Reg.BIST_CTL 6 0 p).setReg Reg.BIST_STATUS (bistBusyWord p)).fillPlatform p none none

theorem State.bistStart_legal (h : s.bistLegal (bitsOf v 6 0)) : s.bistStart v = s.startBist (bitsOf v 6 0) := by
  obtain ⟨hp, hgap, hidle, hmirror⟩ := h
  unfold State.bistStart
  refine if_neg ?_
  simpa [hp, hgap, hidle] using hmirror

theorem State.bistStart_illegal (h : ¬ s.bistLegal (bitsOf v 6 0)) :
    s.bistStart v = (s.setFld Reg.BIST_CTL 6 0 (bitsOf v 6 0)).setFld Reg.BIST_STATUS 10 8 5 := by
  unfold State.bistStart
  refine if_pos ?_
  by_contra hno
  refine h ?_
  obtain ⟨⟨⟨hp, hgap⟩, hmirror⟩, hidle⟩ := by simpa using hno
  exact ⟨hp, hgap, hidle, fun hm => hmirror hm.1 hm.2⟩

theorem startBist_regs (s : State) (p : Nat) : RegsBut [Reg.BIST_STATUS, Reg.BIST_CTL] s (s.startBist p) :=
  fun a ha hb => (fillPlatform_reg _ p none none a).trans
    ((((RegsBut.refl _ s).setFld _ _ _ (by simp)).setReg _ (by simp)) a ha hb)

theorem startBist_status (s : State) (p : Nat) : (s.startBist p).reg Reg.BIST_STATUS = bistBusyWord p :=
  (fillPlatform_reg _ p none none _).trans (State.reg_setReg_same _ _ _)

theorem startBist_cell (s : State) {a k : Nat} (ha : a < 1028) (hk : k < 2304) (h : k / 32 ≠ p) :
    ((s.startBist p).planeCells a)[k]? = (s.planeCells a)[k]? := (fillPlatform_cell _ p none none ha hk).trans (if_neg h)

/-! A test ends (R184, R186) -/

/-- A test found failed columns alone, of which the slot's working Sidings can serve every array column. -/
def bistColumns (bad : List Nat) (other : Bool) : Bool :=
  !other && !bad.isEmpty && decide (bad.length ≤ 2) &&
    decide ((bad.filter (· < 72)).length ≤ (if bad.contains 72 then 0 else 1) + (if bad.contains 73 then 0 else 1))

/-- RESULT at the end of a test. -/
def bistResult (bad : List Nat) (other : Bool) : Nat :=
  if bad.isEmpty && !other then 1 else if bistColumns bad other then 2 else 3

/-- BAD0 or BAD1 at the end of a test. -/
def bistBad (bad : List Nat) (other : Bool) (i : Nat) : Nat :=
  match bad[i]? with | some c => if bistColumns bad other then c else 0x7F | none => 0x7F

/-- BIST_STATUS as the end of a test leaves it. -/
def bistEndWord (bad : List Nat) (other : Bool) (p : Nat) : Word :=
  BitVec.ofNat 32 (bistBad bad other 1 * 2 ^ 19 + bistBad bad other 0 * 2 ^ 12 + bistResult bad other * 256 + p)

/-- The slot is cleared, the result shown and source 72 raised. -/
def State.endBist (s : State) (bad : List Nat) (other : Bool) : State :=
  let p := s.fld Reg.BIST_STATUS 6 0
  ((s.fillPlatform p (some 0) (some maskReset)).setReg Reg.BIST_STATUS (bistEndWord bad other p)).fire 72

/-- After the end Stationmaster counts the slot as tested, or records it as failed (R188). -/
theorem State.bistDone_eq (hbusy : s.bit Reg.BIST_STATUS 7 = true) (bad : List Nat) (other : Bool) : ∃ sc : Sched,
    s.bistDone bad other = if bad.isEmpty && !other || bistColumns bad other then ({ s.endBist bad other with sched := sc }).sweepJudge
      else (s.endBist bad other).recordFailed (s.fld Reg.BIST_STATUS 6 0) 3 := by
  unfold State.bistDone
  rw [if_neg (by rw [hbusy]; decide)]
  exact ⟨_, rfl⟩

theorem State.bistDone_idle (h : s.bit Reg.BIST_STATUS 7 = false) (bad : List Nat) (other : Bool) : s.bistDone bad other = s :=
  if_pos (by rw [h]; rfl)

theorem State.bistAbort_idle (h : s.bit Reg.BIST_STATUS 7 = false) : s.bistAbort = s := if_neg (by rw [h]; decide)

theorem State.bistAbort_busy (h : s.bit Reg.BIST_STATUS 7 = true) :
    s.bistAbort = ((s.setBit Reg.BIST_STATUS 7 false).setFld Reg.BIST_STATUS 10 8 4).fire 72 := if_pos h

theorem bistResult_le (bad : List Nat) (other : Bool) : bistResult bad other ≤ 3 := by
  unfold bistResult
  split
  · decide
  · split <;> decide

theorem bistBad_lt {bad : List Nat} (hbad : ∀ c ∈ bad, c < 74) (other : Bool) (i : Nat) : bistBad bad other i < 128 := by
  unfold bistBad
  split
  · next c hc =>
    have hlt := hbad c (List.mem_of_getElem? hc)
    split <;> omega
  · decide

theorem bistEndWord_fields {bad : List Nat} (hbad : ∀ c ∈ bad, c < 74) (other : Bool) (hp : p < 128) :
    (bistEndWord bad other p).getLsbD 7 = false ∧ bitsOf (bistEndWord bad other p) 6 0 = p ∧
      bitsOf (bistEndWord bad other p) 10 8 = bistResult bad other ∧ bitsOf (bistEndWord bad other p) 18 12 = bistBad bad other 0 ∧
      bitsOf (bistEndWord bad other p) 25 19 = bistBad bad other 1 := by
  have h0 := bistBad_lt hbad other 0
  have h1 := bistBad_lt hbad other 1
  have hr := bistResult_le bad other
  have h32 : bistBad bad other 1 * 2 ^ 19 + bistBad bad other 0 * 2 ^ 12 + bistResult bad other * 256 + p < 2 ^ 32 := by omega
  refine ⟨?_, ?_, ?_, ?_, ?_⟩
  · rw [bistEndWord, getLsbD_ofNat_lt h32, decide_eq_false_iff_not]; omega
  all_goals rw [bistEndWord, bitsOf_ofNat h32]; omega

/-- Of columns that are all different the Sidings columns are at most one of each. -/
theorem countP_sidings {bad : List Nat} (hbad : ∀ c ∈ bad, c < 74) (hnodup : bad.Nodup) :
    bad.countP (fun c => decide (72 ≤ c)) = (if 72 ∈ bad then 1 else 0) + if 73 ∈ bad then 1 else 0 := by
  rw [← hnodup.count, ← hnodup.count]
  induction bad with
  | nil => rfl
  | cons c bad ih =>
    obtain ⟨hc, hbad⟩ := List.forall_mem_cons.mp hbad
    rw [List.countP_cons, List.count_cons, List.count_cons, ih hbad hnodup.of_cons]
    obtain h | rfl | rfl : c < 72 ∨ c = 72 ∨ c = 73 := by omega
    · rw [if_neg (by rw [decide_eq_true_iff]; omega), if_neg (by rw [beq_iff_eq]; omega), if_neg (by rw [beq_iff_eq]; omega)]
      rfl
    · simp; omega
    · simp; omega

/-- COLUMNS in the words of R186. -/
theorem bistColumns_iff {bad : List Nat} (hbad : ∀ c ∈ bad, c < 74) (hnodup : bad.Nodup) (other : Bool) :
    bistColumns bad other = true ↔ other = false ∧ bad ≠ [] ∧ bad.length ≤ 2 ∧
      bad.countP (fun c => decide (c < 72)) ≤ 2 - bad.countP (fun c => decide (72 ≤ c)) := by
  have hworking : (if bad.contains 72 then 0 else 1) + (if bad.contains 73 then 0 else 1) =
      2 - bad.countP (fun c => decide (72 ≤ c)) := by
    rw [countP_sidings hbad hnodup]
    simp only [List.contains_iff_mem]
    split <;> split <;> rfl
  rw [bistColumns, hworking, ← List.countP_eq_length_filter]
  simp [and_assoc]

/-- What Stationmaster's books leave of the array and of every register but TLM_ARRAY. -/
structure Booked (s t : State) : Prop where
  regs : RegsBut [Reg.TLM_ARRAY] s t
  pending : KeepsPending s t
  cells : SameCells s t

theorem Booked.of_keeps (hregs : RegsBut [Reg.TLM_ARRAY] s t) (h : Keeps [.block 4, .sched, .free, .repair, .log] s t) : Booked s t :=
  ⟨hregs, .of_keeps h (by decide), .of_keeps h (by decide) (by decide)⟩

theorem setSched_keeps {fs : List Zone} {s0 : State} (sc : Sched) (h : Keeps fs s0 s) (hd : Zone.inList .sched fs = true) :
    Keeps fs s0 { s with sched := sc } where
  only f hf := by
    have h0 := h.only f hf
    cases f
    case sched => exact absurd hd (by simp [hf])
    all_goals exact h0
  canon := h.canon
  queue := h.queue
  out := h.out

theorem setSched_regs (ks : List Nat) (s : State) (sc : Sched) : RegsBut ks s { s with sched := sc } := fun _ _ _ => rfl

theorem RegsBut.useFree {ks : List Nat} (h : RegsBut ks s t) : RegsBut ks s t.useFree :=
  fun a ha hb => (t.reg_useFree a).trans (h a ha hb)

theorem sweepJudge_regs (s : State) : RegsBut [Reg.TLM_ARRAY] s s.sweepJudge := by
  unfold State.sweepJudge
  dsimp only
  split
  · exact (((setSched_regs _ s _).setFld _ _ _ (by simp)).setFld _ _ _ (by simp)).useFree
  · exact RegsBut.refl _ s

/-- The sweep judged after the scheduler has changed. -/
theorem sweepJudge_booked {u : State} (h : Keeps [.block 4, .sched, .free] s u) (hregs : RegsBut [Reg.TLM_ARRAY] s u) :
    Booked s u.sweepJudge ∧ u.sweepJudge.repair = s.repair := by
  have hkeeps : Keeps [.block 4, .sched, .free] s u.sweepJudge := State.sweepJudge_keeps u h (by decide)
  exact ⟨⟨hregs.trans (sweepJudge_regs u), .of_keeps hkeeps (by decide), .of_keeps hkeeps (by decide) (by decide)⟩,
    hkeeps.only .repair (by decide)⟩

theorem RegsBut.logEvent {ks : List Nat} (h : RegsBut ks s t) (code d d2 : Nat) : RegsBut ks s (t.logEvent code d d2) :=
  fun a ha hb => (t.logEvent_reg code d d2 a).trans (h a ha hb)

theorem RegsBut.showFailed {ks : List Nat} (h : RegsBut ks s t) (ha : Reg.TLM_ARRAY ∈ ks) : RegsBut ks s t.showFailed :=
  h.setFld _ _ _ ha

/-- The repair record and the scheduler as a failed slot leaves them, before the log shows it (R173 step 8). -/
def State.bookFailed (s : State) (p : Nat) : State :=
  { s with repair := { s.repair with failed := s.repair.failed ++ [p] },
           sched := { s.sched with retire := if s.sched.retire = some p then none else s.sched.retire } }

theorem recordFailed_eq (s : State) (p reason : Nat) : s.recordFailed p reason =
    if s.repair.failed.contains p then s else (s.bookFailed p).showFailed.logEvent 0x03 p reason := rfl

theorem bookFailed_reg (s : State) (p a : Nat) : (s.bookFailed p).reg a = s.reg a := rfl

theorem recordFailed_keeps (s : State) (p reason : Nat) :
    Keeps [.block 4, .sched, .free, .repair, .log] s (s.recordFailed p reason) :=
  State.recordFailed_keeps s p reason (Keeps.rfl' _ s) (by decide)

theorem recordFailed_regs (s : State) (p reason : Nat) : RegsBut [Reg.TLM_ARRAY] s (s.recordFailed p reason) := by
  rw [recordFailed_eq]
  split
  · exact RegsBut.refl _ s
  · have hbook : RegsBut [Reg.TLM_ARRAY] s (s.bookFailed p) := fun a _ _ => bookFailed_reg s p a
    exact (hbook.showFailed (by simp)).logEvent _ _ _

theorem mem_recordFailed (s : State) (p reason : Nat) : p ∈ (s.recordFailed p reason).repair.failed := by
  rw [recordFailed_eq]
  split
  · next h => exact List.contains_iff_mem.mp h
  · exact List.mem_append_right _ (List.mem_singleton.mpr rfl)

theorem recordFailed_booked (s : State) (p reason : Nat) : Booked s (s.recordFailed p reason) :=
  Booked.of_keeps (recordFailed_regs s p reason) (recordFailed_keeps s p reason)

/-- What the end of a test leaves before Stationmaster acts on it. -/
theorem endBist_spec (s : State) (bad : List Nat) (other : Bool) : let p := s.fld Reg.BIST_STATUS 6 0
    (s.endBist bad other).reg Reg.BIST_STATUS = bistEndWord bad other p ∧ (s.endBist bad other).pends 72 = true ∧
      (s.endBist bad other).repair = s.repair ∧ RegsBut [Reg.BIST_STATUS] s (s.endBist bad other) ∧
      ∀ a k, a < 1028 → k < 2304 → ((s.endBist bad other).planeCells a)[k]? =
        if k / 32 = p then some (some (if a = planeM then maskReset else 0)) else (s.planeCells a)[k]? := by
  intro p
  have hfill := fillPlatform_keeps_planes s p (some 0) (some maskReset)
  refine ⟨?_, State.pends_fire_self _ 72, ?_, ?_, fun a k ha hk => ?_⟩
  · rw [State.endBist, State.reg_fire _ _ (by decide), State.reg_setReg_same]
  · rw [State.endBist, State.fire_repair, State.setReg_repair]
    exact hfill.only .repair (by decide)
  · have hregs : RegsBut [Reg.BIST_STATUS] s (s.fillPlatform p (some 0) (some maskReset)) := fun b _ _ => fillPlatform_reg s p _ _ b
    exact (hregs.setReg _ (by simp)).fire 72
  · have harr : (s.endBist bad other).arr = (s.fillPlatform p (some 0) (some maskReset)).arr := by
      rw [State.endBist, State.fire_arr, State.setReg_arr]
    rw [State.planeCells_congr (congrArg Arr.base harr) (by rw [harr]), fillPlatform_cell s p _ _ ha hk]
    split
    · split <;> rfl
    · rfl

theorem bistBad_columns {bad : List Nat} {other : Bool} (h : bistColumns bad other = true) :
    bistBad bad other 0 = bad.headD 0x7F ∧ bistBad bad other 1 = bad.tail.headD 0x7F := by
  unfold bistBad
  rw [h]
  match bad with
  | [] => exact ⟨rfl, rfl⟩
  | [_] => exact ⟨rfl, rfl⟩
  | _ :: _ :: _ => exact ⟨rfl, rfl⟩

/-- BIST_DONE on a busy test. -/
theorem bistDone_does (hbusy : s.bit Reg.BIST_STATUS 7 = true) {bad : List Nat} (other : Bool) (hbad : ∀ c ∈ bad, c < 74) :
    let p := s.fld Reg.BIST_STATUS 6 0
    Does (.bistDone bad other) s [.planes, .block 1, .out, .block 16, .block 4, .sched, .free, .repair, .log] fun t =>
      t.bit Reg.BIST_STATUS 7 = false ∧ t.fld Reg.BIST_STATUS 6 0 = p ∧ t.pends 72 = true ∧
        t.fld Reg.BIST_STATUS 10 8 = bistResult bad other ∧ t.fld Reg.BIST_STATUS 18 12 = bistBad bad other 0 ∧
        t.fld Reg.BIST_STATUS 25 19 = bistBad bad other 1 ∧ (bistResult bad other < 3 → t.repair = s.repair) ∧
        (bistResult bad other = 3 → p ∈ t.repair.failed) ∧ RegsBut [Reg.BIST_STATUS, Reg.TLM_ARRAY] s t ∧
        ∀ a k, a < 1028 → k < 2304 →
          (t.planeCells a)[k]? = if k / 32 = p then some (some (if a = planeM then maskReset else 0)) else (s.planeCells a)[k]? := by
  intro p
  obtain ⟨hstatus, hpends, hrepair, hregs, hcells⟩ := endBist_spec s bad other
  obtain ⟨hidle, hp, hres, hb0, hb1⟩ := bistEndWord_fields hbad other (p := p) (bitsOf_lt _ 6 0)
  have hacts : Booked (s.endBist bad other) (s.bistDone bad other) ∧
      (bistResult bad other < 3 → (s.bistDone bad other).repair = s.repair) ∧
      (bistResult bad other = 3 → p ∈ (s.bistDone bad other).repair.failed) := by
    obtain ⟨sc, he⟩ := State.bistDone_eq hbusy bad other
    rw [he]
    split
    · next h =>
      obtain ⟨hbooked, hsame⟩ := sweepJudge_booked (setSched_keeps sc (Keeps.rfl' _ (s.endBist bad other)) (by decide))
        (setSched_regs _ _ sc)
      refine ⟨hbooked, fun _ => hsame.trans hrepair, fun h3 => ?_⟩
      simp only [bistResult, Bool.or_eq_true] at h h3
      split at h3
      · omega
      · next hpass => rw [if_pos (h.resolve_left hpass)] at h3; omega
    · next h =>
      have hmem := mem_recordFailed (s.endBist bad other) p 3
      simp only [Bool.or_eq_true, not_or] at h
      refine ⟨recordFailed_booked _ p 3, fun h3 => ?_, fun _ => hmem⟩
      rw [bistResult, if_neg h.1, if_neg h.2] at h3
      omega
  obtain ⟨⟨hbooked, hpending, hsame⟩, hkept, hfailed⟩ := hacts
  have hword : (s.bistDone bad other).reg Reg.BIST_STATUS = bistEndWord bad other p :=
    (hbooked _ (by decide) (by decide)).trans hstatus
  refine does_of_keeps rfl (State.bistDone_keeps s bad other (Keeps.rfl' _ s) (by decide))
    ⟨?_, ?_, hpending 72 hpends, ?_, ?_, ?_, hkept, hfailed, (hregs.mono (by simp)).trans (hbooked.mono (by simp)), fun a k ha hk => ?_⟩
  · rw [State.bit, hword, hidle]
  · rw [State.fld, hword, hp]
  · rw [State.fld, hword, hres]
  · rw [State.fld, hword, hb0]
  · rw [State.fld, hword, hb1]
  · rw [hsame.cells a]
    exact hcells a k ha hk

/-- A test that ends without a fault passes; one that found columns alone names them; any other fails the slot. -/
theorem bistResult_cases (bad : List Nat) (other : Bool) : (bad = [] → other = false → bistResult bad other = 1 ∧ bistBad bad other 0 = 0x7F) ∧
    (bistColumns bad other = true → bistResult bad other = 2) ∧
    (¬ bistColumns bad other = true → ¬ (bad = [] ∧ other = false) → bistResult bad other = 3) := by
  refine ⟨?_, fun h => ?_, fun h hpass => ?_⟩
  · rintro rfl rfl
    exact ⟨rfl, rfl⟩
  · have hne : bad.isEmpty = false := by
      simp only [bistColumns, Bool.and_eq_true, Bool.not_eq_true'] at h
      exact h.1.1.2
    rw [bistResult, hne, Bool.false_and, if_neg (by decide), if_pos h]
  · rw [bistResult, if_neg, if_neg h]
    simpa using hpass

/-- Settles O19: one equation for each way a command can go, and what that leaves. -/
theorem mirrorAndBuiltInTest : Obligations.MirrorAndBuiltInTest := by
  intro s
  refine ⟨fun v => ?_, fun v => ?_, fun hbusy => ?_, fun hbusy bad other hbad hnodup => ?_,
    fun hidle => ⟨congrArg Host.Outcome.next (State.bistAbort_idle hidle),
      fun bad other => congrArg Host.Outcome.next (State.bistDone_idle hidle bad other)⟩⟩
  · intro row dst src map legal
    have hkeeps := Keeps.rfl' [.block 16] s
    have hmap : Reg.act (rowMap (bitsOf v 10 8)) = map := by
      rw [rowMap, Nat.mod_eq_of_lt (show bitsOf v 10 8 < 8 from bitsOf_lt v 10 8)]
    have hlegal : s.mirrorLegal (bitsOf v 10 8) (bitsOf v 7 4) (bitsOf v 3 0) ↔ legal := by rw [State.mirrorLegal, hmap]
    refine ⟨fun hen hl => ?_, fun hen hl => ?_, fun hen => ?_⟩
    · have heq := State.mirrorWrite_legal hen (hlegal.mpr hl)
      obtain ⟨hon, hdone, hrow, hdst, hsrc⟩ := mirrorWord_fields (bitsOf_lt v 10 8) (bitsOf_lt v 7 4) (bitsOf_lt v 3 0)
      have hword : (s.mirrorWrite v).reg Reg.MIRROR_CTL = mirrorWord row dst src := by
        rw [heq, startMirror_reg, State.reg_setReg_same]
      refine does_of_keeps rfl (State.mirrorWrite_keeps s v (Keeps.rfl' _ s) (by decide)) ⟨?_, ?_, ?_, ?_, ?_, ?_, ?_⟩
      · rw [State.bit, hword, hon]
      · rw [State.bit, hword, hdone]
      · rw [State.fld, hword, hrow]
      · rw [State.fld, hword, hdst]
      · rw [State.fld, hword, hsrc]
      · rw [heq]
        rfl
      · rw [heq]
        exact fun a ha hb => (startMirror_reg s _ _ _ a).trans (((RegsBut.refl _ s).setReg _ (by simp)) a ha hb)
    · exact does_of_keeps (congrArg Host.Outcome.next (State.mirrorWrite_illegal hen fun h => hl (hlegal.mp h)))
        (setBit_keeps _ _ _ hkeeps (by decide)) ⟨s.bit_setBit_same _ true (by decide), (RegsBut.refl _ s).setBit _ _ (by simp)⟩
    · obtain ⟨hoff, hregs, hk⟩ := State.mirrorWrite_stop (s := s) hen
      exact does_of_keeps rfl hk ⟨hoff, hregs⟩
  · intro p legal
    refine ⟨fun hl => ?_, fun hl => ?_⟩
    · obtain ⟨hbusy, hp, hres, hb0, hb1⟩ := bistBusyWord_fields (bitsOf_lt v 6 0)
      refine does_of_keeps (t := s.startBist p) (congrArg Host.Outcome.next (State.bistStart_legal hl)) ?_
        ⟨?_, ?_, ?_, ?_, ?_, startBist_regs s p, fun a k ha hk hne => startBist_cell s ha hk hne⟩
      · exact State.fillPlatform_keeps _ _ _ _ (setReg_keeps _ _ (setFld_keeps _ _ _ _ (Keeps.rfl' _ s) (by decide)) (by decide)) (by decide)
      · rw [State.bit, startBist_status, hbusy]
      all_goals rw [State.fld, startBist_status]; assumption
    · refine does_of_keeps (congrArg Host.Outcome.next (State.bistStart_illegal hl))
        (setFld_keeps _ _ _ _ (setFld_keeps _ _ _ _ (Keeps.rfl' _ s) (by decide)) (by decide))
        ⟨State.fld_setFld_same _ _ _ (by decide) (by decide), ?_, ((RegsBut.refl _ s).setFld _ _ _ (by simp)).setFld _ _ _ (by simp)⟩
      rw [State.bit_setFld_disjoint _ _ _ (by decide) (by decide) (by decide), State.bit_setFld_other _ _ _ _ _ (by decide)]
  · have heq := State.bistAbort_busy hbusy
    refine does_of_keeps rfl (State.bistAbort_keeps s (Keeps.rfl' _ s) (by decide)) ⟨?_, ?_, ?_, ?_⟩
    all_goals rw [heq]
    · rw [State.bit_fire _ _ _ (by decide), State.bit_setFld_disjoint _ _ _ (by decide) (by decide) (by decide)]
      exact s.bit_setBit_same _ false (by decide)
    · rw [State.fld_fire _ _ _ _ (by decide)]
      exact State.fld_setFld_same _ _ _ (by decide) (by decide)
    · exact State.pends_fire_self _ 72
    · exact (((RegsBut.refl _ s).setBit _ _ (by simp)).setFld _ _ _ (by simp)).fire 72
  · intro p columns
    obtain ⟨hpass, hcols, hfail⟩ := bistResult_cases bad other
    have hiff : bistColumns bad other = true ↔ columns := bistColumns_iff hbad hnodup other
    obtain ⟨t, hexec, honly, hidle, hp, hpends, hres, hb0, hb1, hkept, hfailed, hregs, hcells⟩ := bistDone_does hbusy other hbad
    refine ⟨t, hexec, honly, hidle, hp, hpends, fun he ho => ?_, fun hc => ?_, fun hc hne => ?_, hregs, hcells⟩
    · obtain ⟨h1, hnone⟩ := hpass he ho
      exact ⟨hres.trans h1, hb0.trans hnone, hkept (by omega)⟩
    · have hc' := hiff.mpr hc
      obtain ⟨hc0, hc1⟩ := bistBad_columns hc'
      exact ⟨hres.trans (hcols hc'), hb0.trans hc0, hb1.trans hc1, hkept (by rw [hcols hc']; decide)⟩
    · have h3 := hfail (fun h => hc (hiff.mp h)) hne
      exact ⟨hres.trans h3, hfailed h3⟩

end Sys2Proof.Machine
end

section
/-! Proofs about the speed estimator and the reserve (O20): EST_STATUS and RATE after a clean window and in fallback, and what
the strip scheduler spends. -/

namespace Sys2Proof.Machine

variable {s t : State}

/-! The estimator (R190 to R192) -/

theorem showRate_regs (s : State) : RegsBut [Reg.EST_RATE] s s.showRate := (RegsBut.refl _ s).setFld _ _ _ (by simp)

/-- RATE shows the value of R192, MEAS stays. -/
theorem showRate_rate (s : State) : s.showRate.fld Reg.EST_RATE 31 16 = s.fld Reg.EST_RATE 31 16 ∧
    s.showRate.fld Reg.EST_RATE 15 0 =
      estRate (s.bit Reg.EST_STATUS 4) (s.bit Reg.EST_STATUS 2) (s.bit Reg.EST_STATUS 3) (s.fld Reg.EST_RATE 31 16) % 2 ^ 16 :=
  ⟨State.fld_setFld_disjoint _ _ _ (by decide) (by decide) (by decide), State.fld_setFld_same _ _ _ (by decide) (by decide)⟩

theorem estRate_lt (valid fallback below : Bool) {m : Nat} (hm : m < 2 ^ 16) : estRate valid fallback below m < 2 ^ 16 := by
  unfold estRate
  split
  · decide
  · split
    · exact hm
    · split <;> omega

/-- EST_STATUS as a clean window leaves it. -/
def estStatusWord (m slow : Nat) : Word := BitVec.ofNat 32 (slow % 128 * 256 + 16 + if decide (m < 850) then 8 else 0)

theorem estStatusWord_fields (m : Nat) {slow : Nat} (hslow : slow < 72) : (estStatusWord m slow).getLsbD 4 = true ∧
    bitsOf (estStatusWord m slow) 14 8 = slow ∧ (estStatusWord m slow).getLsbD 3 = decide (m < 850) ∧
    bitsOf (estStatusWord m slow) 2 0 = 0 ∧ (estStatusWord m slow).getLsbD 2 = false := by
  obtain ⟨b, hb, hbelow⟩ : ∃ b, (if decide (m < 850) then 8 else 0) = 8 * b ∧ b = (decide (m < 850)).toNat := by
    cases decide (m < 850) <;> exact ⟨_, rfl, rfl⟩
  have h1 : b ≤ 1 := hbelow ▸ Bool.toNat_le _
  have h32 : slow % 128 * 256 + 16 + 8 * b < 2 ^ 32 := by omega
  rw [estStatusWord, hb]
  refine ⟨?_, ?_, ?_, ?_, ?_⟩
  · rw [getLsbD_ofNat_lt h32, decide_eq_true_iff]; omega
  · rw [bitsOf_ofNat h32]; omega
  · rw [getLsbD_ofNat_lt h32]
    cases hm : decide (m < 850) with
    | true => rw [decide_eq_true_iff]; rw [hm] at hbelow; simp at hbelow; omega
    | false => rw [decide_eq_false_iff_not]; rw [hm] at hbelow; simp at hbelow; omega
  · rw [bitsOf_ofNat h32]; omega
  · rw [getLsbD_ofNat_lt h32, decide_eq_false_iff_not]; omega

/-- The registers that the end of a clean window writes, before its sources fire. -/
def State.windowRegs (s : State) (m slow : Nat) : State :=
  (((s.setFld Reg.EST_RATE 31 16 m).setReg Reg.EST_AGE 0).setReg Reg.EST_STATUS (estStatusWord m slow)).showRate

/-- The end of a clean window in progress. -/
theorem State.cleanWindow_eq {m : Nat} (slow : Nat) (hm : m < 2 ^ 16) (h : s.bit Reg.EST_STATUS 0 = true) :
    let u := ((s.windowRegs m slow).fireIf (s.bit Reg.EST_STATUS 2) 75).fireIf (decide (m < 850)) 76
    s.cleanWindow m slow = { u with sched := { u.sched with holdIdle := false, windowNext := false } } := by
  unfold State.cleanWindow
  rw [if_neg (by rw [h]; decide), Nat.mod_eq_of_lt hm]
  rfl

theorem windowRegs_regs (s : State) (m slow : Nat) :
    RegsBut [Reg.EST_RATE, Reg.EST_AGE, Reg.EST_STATUS] s (s.windowRegs m slow) :=
  ((((RegsBut.refl _ s).setFld _ _ _ (by simp)).setReg _ (by simp)).setReg _ (by simp)).trans ((showRate_regs _).mono (by simp))

theorem windowRegs_status (s : State) (m slow : Nat) : (s.windowRegs m slow).reg Reg.EST_STATUS = estStatusWord m slow :=
  (showRate_regs _ _ (by decide) (by decide)).trans (State.reg_setReg_same _ _ _)

theorem windowRegs_age (s : State) (m slow : Nat) : (s.windowRegs m slow).reg Reg.EST_AGE = 0 := by
  rw [State.windowRegs, showRate_regs _ _ (by decide) (by decide), State.reg_setReg_other _ _ (by decide), State.reg_setReg_same]

/-- After a clean window MEAS and RATE are both the measurement (R190, R192). -/
theorem windowRegs_rate (s : State) {m slow : Nat} (hm : m < 2 ^ 16) (hslow : slow < 72) :
    (s.windowRegs m slow).fld Reg.EST_RATE 31 16 = m ∧ (s.windowRegs m slow).fld Reg.EST_RATE 15 0 = m := by
  obtain ⟨hvalid, -, -, -, hfallback⟩ := estStatusWord_fields m hslow
  obtain ⟨hmeas, hrate⟩ := showRate_rate (((s.setFld Reg.EST_RATE 31 16 m).setReg Reg.EST_AGE 0).setReg Reg.EST_STATUS (estStatusWord m slow))
  rw [State.fld_setReg_other _ _ _ _ (by decide), State.fld_setReg_other _ _ _ _ (by decide),
    State.fld_setFld_same _ _ _ (by decide) (by decide), show m % 2 ^ (31 + 1 - 16) = m from Nat.mod_eq_of_lt hm] at hmeas hrate
  refine ⟨hmeas, hrate.trans ?_⟩
  rw [State.bit_setReg_same, State.bit_setReg_same, hvalid, hfallback]
  exact Nat.mod_eq_of_lt hm

theorem windowRegs_sched (s : State) (m slow : Nat) : (s.windowRegs m slow).sched = s.sched := by
  rw [State.windowRegs, State.showRate, State.setFld_sched, State.setReg_sched, State.setReg_sched, State.setFld_sched]

theorem pends_fireIf_self (s : State) {c : Bool} (i : Nat) (h : c = true) : (s.fireIf c i).pends i = true := by
  rw [h]
  exact State.pends_fire_self s i

theorem setSched_reg (s : State) (sc : Sched) (a : Nat) : ({ s with sched := sc } : State).reg a = s.reg a := rfl

theorem setSched_keepsPending (s : State) (sc : Sched) : KeepsPending s { s with sched := sc } := fun _ => id

/-- CLEAN_WINDOW_END with a window in progress. -/
theorem cleanWindowEnd_does {m slow : Nat} (hm : m < 2 ^ 16) (hslow : slow < 72) (h : s.bit Reg.EST_STATUS 0 = true) :
    Does (.cleanWindowEnd m slow) s [.block 16, .block 1, .out, .sched] fun t =>
      t.fld Reg.EST_RATE 31 16 = m ∧ t.fld Reg.EST_RATE 15 0 = m ∧ t.reg Reg.EST_AGE = 0 ∧ t.bit Reg.EST_STATUS 4 = true ∧
        t.fld Reg.EST_STATUS 14 8 = slow ∧ t.bit Reg.EST_STATUS 3 = decide (m < 850) ∧ t.fld Reg.EST_STATUS 2 0 = 0 ∧
        (s.bit Reg.EST_STATUS 2 = true → t.pends 75 = true) ∧ (m < 850 → t.pends 76 = true) ∧
        t.sched = { s.sched with holdIdle := false, windowNext := false } ∧
        RegsBut [Reg.EST_RATE, Reg.EST_AGE, Reg.EST_STATUS] s t := by
  refine does_of_keeps rfl (State.cleanWindow_keeps s m slow (Keeps.rfl' _ s) (by decide)) ?_
  rw [State.cleanWindow_eq slow hm h]
  set w := s.windowRegs m slow with hw
  set u := (w.fireIf (s.bit Reg.EST_STATUS 2) 75).fireIf (decide (m < 850)) 76 with hu
  have hreg : ∀ a, blockOf a ≠ 1 → ∀ sc, ({ u with sched := sc } : State).reg a = w.reg a := fun a ha sc => by
    rw [setSched_reg, hu, State.reg_fireIf _ _ _ ha, State.reg_fireIf _ _ _ ha]
  obtain ⟨hmeas, hrate⟩ := windowRegs_rate s hm hslow
  obtain ⟨hvalid, hslowest, hbelow, hclear, -⟩ := estStatusWord_fields m hslow
  have hstatus := (hreg _ (by decide) { u.sched with holdIdle := false, windowNext := false }).trans (windowRegs_status s m slow)
  refine ⟨(State.fld_congr _ _ (hreg _ (by decide) _)).trans hmeas, (State.fld_congr _ _ (hreg _ (by decide) _)).trans hrate,
    (hreg _ (by decide) _).trans (windowRegs_age s m slow), ?_, ?_, ?_, ?_, fun h75 => ?_, fun h76 => ?_, ?_, fun a ha hb => ?_⟩
  · rw [State.bit, hstatus, hvalid]
  · rw [State.fld, hstatus, hslowest]
  · rw [State.bit, hstatus, hbelow]
  · rw [State.fld, hstatus, hclear]
  · exact setSched_keepsPending u _ 75 (KeepsPending.fireIf _ _ (KeepsPending.refl _) 75 (pends_fireIf_self w 75 h75))
  · exact setSched_keepsPending u _ 76 (pends_fireIf_self _ 76 (decide_eq_true h76))
  · rw [hu, State.fireIf_sched, State.fireIf_sched, hw, windowRegs_sched]
  · rw [hreg a hb]
    exact windowRegs_regs s m slow a ha hb

/-! Staleness and fallback (R191, R192) -/

theorem estStale_does (s : State) : Does .estStale s [.block 1, .out, .block 16] fun t =>
    t.reg Reg.EST_AGE = 12500000 ∧ t.bit Reg.EST_STATUS 1 = true ∧ t.pends 73 = true ∧
      (∀ i, i ≠ 1 → t.bit Reg.EST_STATUS i = s.bit Reg.EST_STATUS i) ∧ RegsBut [Reg.EST_AGE, Reg.EST_STATUS] s t := by
  refine does_of_keeps rfl (State.fire_keeps _ 73 (setBit_keeps _ _ _ (setReg_keeps _ _ (Keeps.rfl' _ s) (by decide)) (by decide))
    (by decide)) ⟨?_, ?_, State.pends_fire_self _ 73, fun i hi => ?_, ((RegsBut.refl _ s).setReg _ (by simp)).setBit _ _ (by simp) |>.fire 73⟩
  · rw [State.reg_fire _ _ (by decide), State.reg_setBit_other _ _ _ (by decide), State.reg_setReg_same]
  · rw [State.bit_fire _ _ _ (by decide)]
    exact State.bit_setBit_same _ _ true (by decide)
  · rw [State.bit_fire _ _ _ (by decide), State.bit_setBit_bit _ _ _ (by decide) hi, State.bit_setReg_other _ _ _ (by decide)]

theorem estFallback_does (s : State) : let meas := s.fld Reg.EST_RATE 31 16
    Does .estFallback s [.block 1, .out, .block 16] fun t =>
      t.reg Reg.EST_AGE = 25000000 ∧ t.bit Reg.EST_STATUS 2 = true ∧ t.pends 74 = true ∧ t.fld Reg.EST_RATE 31 16 = meas ∧
      t.fld Reg.EST_RATE 15 0 = (if s.bit Reg.EST_STATUS 4 = false then 850
        else if s.bit Reg.EST_STATUS 3 = true then 82 * meas / 100 else max 850 (82 * meas / 100)) ∧
      (∀ i, i ≠ 2 → t.bit Reg.EST_STATUS i = s.bit Reg.EST_STATUS i) ∧
      RegsBut [Reg.EST_AGE, Reg.EST_STATUS, Reg.EST_RATE] s t := by
  intro meas
  set u := (s.setReg Reg.EST_AGE 25000000).setBit Reg.EST_STATUS 2 true with hu
  have hregs : RegsBut [Reg.EST_AGE, Reg.EST_STATUS, Reg.EST_RATE] s u := ((RegsBut.refl _ s).setReg _ (by simp)).setBit _ _ (by simp)
  have hbit : ∀ i, i ≠ 2 → u.bit Reg.EST_STATUS i = s.bit Reg.EST_STATUS i := fun i hi => by
    rw [hu, State.bit_setBit_bit _ _ _ (by decide) hi, State.bit_setReg_other _ _ _ (by decide)]
  have hfallback : u.bit Reg.EST_STATUS 2 = true := State.bit_setBit_same _ _ true (by decide)
  have hmeas : u.fld Reg.EST_RATE 31 16 = meas := by
    rw [hu, State.fld_setBit_other _ _ _ _ _ (by decide), State.fld_setReg_other _ _ _ _ (by decide)]
  have hshown : ∀ a, a ≠ Reg.EST_RATE → blockOf a ≠ 1 → (u.showRate.fire 74).reg a = u.reg a := fun a ha hb =>
    (State.reg_fire _ _ hb).trans (showRate_regs u a (by simpa using ha) hb)
  obtain ⟨hkept, hrate⟩ := showRate_rate u
  refine does_of_keeps rfl (State.fire_keeps _ 74 (State.showRate_keeps _ (setBit_keeps _ _ _ (setReg_keeps _ _ (Keeps.rfl' _ s)
    (by decide)) (by decide)) (by decide)) (by decide)) ⟨?_, ?_, State.pends_fire_self _ 74, ?_, ?_, fun i hi => ?_, ?_⟩
  · rw [hshown _ (by decide) (by decide), hu, State.reg_setBit_other _ _ _ (by decide), State.reg_setReg_same]
  · exact (State.bit_congr 2 (hshown _ (by decide) (by decide))).trans hfallback
  · rw [State.fld_fire _ _ _ _ (by decide), hkept, hmeas]
  · rw [State.fld_fire _ _ _ _ (by decide), hrate, hfallback, hbit 4 (by decide), hbit 3 (by decide), hmeas,
      Nat.mod_eq_of_lt (estRate_lt _ _ _ (show meas < 2 ^ 16 from bitsOf_lt _ 31 16))]
    unfold estRate
    cases s.bit Reg.EST_STATUS 4 <;> rfl
  · exact (State.bit_congr i (hshown _ (by decide) (by decide))).trans (hbit i hi)
  · exact (hregs.trans ((showRate_regs u).mono (by simp))).fire 74

/-! The reserve (R20, R30, R193) -/

theorem spendReserve_of_spent (h : s.sched.reserveSpent = true) : s.spendReserve =
    { s with sched := { s.sched with lostStrip := true, uncommitted := s.sched.uncommitted + 1 } } := if_pos h

theorem spendReserve_of_unspent (h : s.sched.reserveSpent = false) : s.spendReserve =
    { s with sched := { s.sched with reserveSpent := true, reserveUsed := s.sched.reserveUsed + 1 } } := if_neg (by rw [h]; decide)

theorem forcedWindow_sched (s : State) : s.forcedWindow.sched = if s.sched.reserveSpent = true then { s.sched with windowNext := true }
    else { s.sched with reserveSpent := true, reserveUsed := s.sched.reserveUsed + 1, holdIdle := true } := by
  unfold State.forcedWindow
  dsimp only
  rw [State.logEvent_sched]
  split
  · rfl
  · next h =>
    rw [spendReserve_of_unspent (by rw [State.logEvent_sched]; exact Bool.eq_false_iff.mpr h)]
    rfl

/-- Settles O20: what the end of a clean window leaves (`cleanWindowEnd_does`), the two ages, and the reserve, spent or not. -/
theorem speedEstimatorAndReserve : Obligations.SpeedEstimatorAndReserve := by
  intro s
  refine ⟨fun m slow hm hslow => ⟨cleanWindowEnd_does hm hslow, fun h => ?_⟩, estStale_does s, estFallback_does s, ?_,
    fun display strip frame => ?_⟩
  · exact congrArg Host.Outcome.next (if_pos (by rw [h]; rfl))
  · exact does_of_keeps rfl (State.forcedWindow_keeps s (Keeps.rfl' _ s) (by decide)) (forcedWindow_sched s)
  · refine does_of_keeps rfl (State.stripRetry_keeps s display strip frame (Keeps.rfl' _ s) (by decide)) ⟨fun h => ?_, fun h => ?_⟩
    · rw [State.stripRetry, if_pos h]
      rfl
    · rw [State.stripRetry, if_neg (by rw [h]; decide)]
      dsimp only
      rw [State.logEvent_sched]
      cases hr : s.sched.reserveSpent with
      | true =>
        rw [spendReserve_of_spent hr]
        exact ⟨rfl, rfl, hr, fun hn => (nomatch hn), fun _ => ⟨rfl, rfl⟩⟩
      | false =>
        rw [spendReserve_of_unspent hr]
        exact ⟨rfl, rfl, rfl, fun _ => ⟨rfl, rfl⟩, fun hn => (nomatch hn)⟩

end Sys2Proof.Machine
end

section
/-! What the array's own work leaves of the maps, the mirror and the in-service test (O21): bit-steps, the 16 FBIT that rewrite
every address, and writes to COL_SUB. -/

namespace Sys2Proof.Machine

/-- From `s` to `t` the maps in force, MIRROR_CTL but for its end-of-sweep bit, BIST_STATUS and ARR_STATUS.BUSY are as they were. -/
structure MapKept (s t : State) : Prop where
  map : ∀ n, t.reg (Reg.act (rowMap n)) = s.reg (Reg.act (rowMap n))
  mirror : ∀ i, i ≠ 14 → t.bit Reg.MIRROR_CTL i = s.bit Reg.MIRROR_CTL i
  test : t.reg Reg.BIST_STATUS = s.reg Reg.BIST_STATUS
  busy : t.arr.busy = s.arr.busy

variable {s t u : State}

theorem MapKept.refl (s : State) : MapKept s s := ⟨fun _ => rfl, fun _ _ => rfl, rfl, rfl⟩

theorem MapKept.trans (h : MapKept s t) (h' : MapKept t u) : MapKept s u :=
  ⟨fun n => (h'.map n).trans (h.map n), fun i hi => (h'.mirror i hi).trans (h.mirror i hi), h'.test.trans h.test, h'.busy.trans h.busy⟩

theorem MapKept.ite {c : Prop} [Decidable c] (ht : c → MapKept s t) (hu : ¬ c → MapKept s u) : MapKept s (if c then t else u) := by
  split
  · next h => exact ht h
  · next h => exact hu h

theorem MapKept.foldl {α : Type} (l : List α) (f : State → α → State) (hf : ∀ s x, MapKept s (f s x)) : MapKept s (l.foldl f s) := by
  induction l generalizing s with
  | nil => exact MapKept.refl s
  | cons x l ih => exact (hf s x).trans ih

theorem rowMap_lt (n : Nat) : rowMap n < 0x10040 := by simp only [rowMap, Reg.PROW_MAP]; omega

theorem rowMap_ge (n : Nat) : 0x10020 ≤ rowMap n := by simp only [rowMap, Reg.PROW_MAP]; omega

/-- A register that is no copy in force, and neither the mirror's nor the test's. -/
theorem setReg_mapKept (s : State) {a : Nat} (v : Word) (ha : a < 0x100000) (hm : a ≠ Reg.MIRROR_CTL) (hb : a ≠ Reg.BIST_STATUS) :
    MapKept s (s.setReg a v) where
  map n := s.reg_setReg_other v (by simp only [Reg.act]; omega)
  mirror i _ := s.bit_setReg_other v i hm.symm
  test := s.reg_setReg_other v hb.symm
  busy := rfl

theorem setFld_mapKept (s : State) {a : Nat} (hi lo n : Nat) (ha : a < 0x100000) (hm : a ≠ Reg.MIRROR_CTL) (hb : a ≠ Reg.BIST_STATUS) :
    MapKept s (s.setFld a hi lo n) := setReg_mapKept s _ ha hm hb

theorem setBit_mapKept (s : State) {a : Nat} (n : Nat) (b : Bool) (ha : a < 0x100000) (hm : a ≠ Reg.MIRROR_CTL)
    (hb : a ≠ Reg.BIST_STATUS) : MapKept s (s.setBit a n b) := setReg_mapKept s _ ha hm hb

/-- The end of the mirror's sweep is shown (R182). -/
theorem setSwept_mapKept (s : State) : MapKept s (s.setBit Reg.MIRROR_CTL 14 true) where
  map n := s.reg_setBit_other 14 true (act_ne (by decide))
  mirror i hi := s.bit_setBit_bit _ true (by decide) hi
  test := s.reg_setBit_other _ _ (by decide)
  busy := rfl

theorem setArr_mapKept (s : State) (arr : Arr) (h : arr.busy = s.arr.busy) : MapKept s { s with arr := arr } :=
  ⟨fun _ => rfl, fun _ _ => rfl, rfl, h⟩

/-- What leaves the array's registers. -/
theorem MapKept.of_block (h : ∀ a, blockOf a = 16 → t.reg a = s.reg a) (hbusy : t.arr.busy = s.arr.busy) : MapKept s t := by
  refine ⟨fun n => h _ (blockOf_eq 16 1 (by decide) ?_), fun i _ => State.bit_congr i (h _ rfl), h _ rfl, hbusy⟩
  have := rowMap_lt n
  have := rowMap_ge n
  simp only [Reg.act]
  omega

/-- What touches neither the array, but for its planes, nor its registers. -/
theorem MapKept.of_keeps {fs : List Zone} (h : Keeps fs s t) (harr : Zone.inList .arr fs = false := by decide)
    (h16 : Zone.inList (.block 16) fs = false := by decide) : MapKept s t := by
  have hsame : t.arr = { s.arr with base := t.arr.base, planes := t.arr.planes } := h.only .arr harr
  exact .of_block (fun a ha => h.only (.block 16) h16 a ha) (by rw [hsame])

theorem colSubReg_ge (p : Nat) : Reg.COL_SUB ≤ colSubReg p := by simp only [colSubReg]; omega

theorem setColSub_mapKept (s : State) (p n : Nat) (b : Bool) : MapKept s (s.setBit (colSubReg p) n b) :=
  setBit_mapKept s n b (colSubReg_lt p) (by have := colSubReg_ge p; simp only [Reg.COL_SUB, Reg.MIRROR_CTL] at *; omega)
    (by have := colSubReg_ge p; simp only [Reg.COL_SUB, Reg.BIST_STATUS] at *; omega)

/-! Planes and sweeps (R53, R166, R182) -/

theorem setPlaneCells_mapKept (s : State) (a : Nat) (cells : List (Option Word74)) : MapKept s (s.setPlaneCells a cells) :=
  setArr_mapKept s _ rfl

theorem writePlane_mapKept (s : State) (a : Nat) (ex : Nat → Bool) (gate val : Nat → Lanes) : MapKept s (s.writePlane a ex gate val).1 :=
  setPlaneCells_mapKept s a _

theorem mirrorPlane_mapKept (s : State) (a : Nat) : MapKept s (s.mirrorPlane a) := by
  unfold State.mirrorPlane
  exact MapKept.ite (fun _ => setPlaneCells_mapKept s a _) fun _ => MapKept.refl s

theorem copyStates_mapKept (s : State) : MapKept s s.copyStates := by
  unfold State.copyStates
  exact MapKept.ite (fun _ => MapKept.refl s) fun _ => MapKept.foldl _ _ fun u a => setPlaneCells_mapKept u a _

theorem sweepAt_mapKept (s : State) (a : Nat) : MapKept s (s.sweepAt a) := by
  unfold State.sweepAt
  extract_lets s1
  have h1 : MapKept s s1 := by
    refine MapKept.foldl _ _ fun u i => MapKept.ite (fun _ => ?_) fun _ => MapKept.refl u
    have hptr := setArr_mapKept u { u.arr with sweep := Store.set (fun _ => 0) u.arr.sweep i (a + 1) } rfl
    exact MapKept.ite (fun _ => hptr.trans (setColSub_mapKept _ _ _ _)) fun _ => hptr
  clear_value s1
  refine h1.trans (MapKept.ite (fun _ => ?_) fun _ => MapKept.refl s1)
  have hptr := setArr_mapKept s1 { s1.arr with mirrorSweep := a + 1 } rfl
  exact MapKept.ite (fun _ => hptr.trans (setSwept_mapKept _)) fun _ => hptr

/-! Accounting (R65 to R67, R157, R161) -/

theorem arrEvent_mapKept (s : State) (bitNo p row : Nat) (addr : Option (Nat × Nat)) : MapKept s (s.arrEvent bitNo p row addr) := by
  have hstat : ∀ (u : State) (n : Nat) (b : Bool), MapKept u (u.setBit Reg.ARR_ERR_STAT n b) := fun u n b =>
    setBit_mapKept u n b (by decide) (by decide) (by decide)
  have hfld : ∀ (u : State) (hi lo n : Nat), MapKept u (u.setFld Reg.ARR_ERR_STAT hi lo n) := fun u hi lo n =>
    setFld_mapKept u hi lo n (by decide) (by decide) (by decide)
  have haddr : ∀ (u : State) (hi lo n : Nat), MapKept u (u.setFld Reg.ARR_ERR_ADDR hi lo n) := fun u hi lo n =>
    setFld_mapKept u hi lo n (by decide) (by decide) (by decide)
  unfold State.arrEvent
  refine MapKept.ite (fun _ => (hstat s _ _).trans (hstat _ _ _)) fun _ => ?_
  have hfirst := ((hfld s 20 14 p).trans (hfld _ 25 21 row)).trans (hstat _ bitNo true)
  cases addr with
  | none => exact hfirst
  | some e => exact (hfirst.trans (haddr _ 9 0 _)).trans (haddr _ 23 16 _)

theorem fire_mapKept (s : State) (i : Nat) : MapKept s (s.fire i) :=
  .of_keeps (State.fire_keeps (fs := [.block 1, .out]) s i (Keeps.rfl' _ s) (by decide))

theorem fireIf_mapKept (s : State) (c : Bool) (i : Nat) : MapKept s (s.fireIf c i) :=
  .of_keeps (State.fireIf_keeps (fs := [.block 1, .out]) s c i (Keeps.rfl' _ s) (by decide))

theorem useFree_mapKept (s : State) : MapKept s s.useFree := ⟨fun _ => rfl, fun _ _ => rfl, rfl, rfl⟩

theorem ackTimeout_mapKept (s : State) (p : Nat) : MapKept s (s.ackTimeout p) :=
  ((arrEvent_mapKept s 3 p 0 none).trans (fire_mapKept _ 67)).trans (setArr_mapKept _ _ rfl)

theorem handleBad_mapKept (s : State) (n : Note) : MapKept s (s.handleBad n) := by
  have hcount : ∀ (u : State) (addr syn : Nat), MapKept u (u.countUE 2 addr syn) := fun u addr syn =>
    .of_keeps (State.countUE_keeps (fs := [.block 8]) u 2 addr syn (Keeps.rfl' _ u) (by decide))
  unfold State.handleBad
  split
  · refine MapKept.ite (fun _ => MapKept.ite (fun _ => ?_) fun _ => ?_) fun _ => ackTimeout_mapKept s _
    · exact (setBit_mapKept s 2 true (by decide) (by decide) (by decide)).trans (hcount _ _ _)
    · exact ((hcount s _ _).trans (arrEvent_mapKept _ _ _ _ _)).trans (fire_mapKept _ 65)
  · exact MapKept.refl s

theorem colmonReg_ge (p : Nat) : Reg.COLMON ≤ colmonReg p := by simp only [colmonReg]; omega

theorem colMonitor_mapKept (s : State) (p : Nat) (cols : List Nat) : MapKept s (s.colMonitor p cols) := by
  have hfld : ∀ (u : State) (hi lo n : Nat), MapKept u (u.setFld (colmonReg p) hi lo n) := fun u hi lo n =>
    setFld_mapKept u hi lo n (colmonReg_lt p) (by have := colmonReg_ge p; simp only [Reg.COLMON, Reg.MIRROR_CTL] at *; omega)
      (by have := colmonReg_ge p; simp only [Reg.COLMON, Reg.BIST_STATUS] at *; omega)
  unfold State.colMonitor
  exact MapKept.ite (fun _ => MapKept.refl s) fun _ => ((hfld s 6 0 _).trans (hfld _ 15 8 _)).trans (fireIf_mapKept _ _ 70)

theorem countFixed_mapKept (s : State) (p : Nat) (ns : List Note) : MapKept s (s.countFixed p ns) := by
  unfold State.countFixed
  dsimp only
  split
  · exact MapKept.refl s
  · exact (MapKept.of_keeps (State.countCE_keeps (fs := [.block 1, .out, .block 8]) s 2 _ _ (Keeps.rfl' _ s)
      (by decide))).trans (colMonitor_mapKept _ _ _)

theorem account_mapKept (s : State) (ns : List Note) : MapKept s (s.account ns) := by
  unfold State.account
  refine MapKept.ite (fun _ => MapKept.refl s) fun _ => ?_
  exact (MapKept.foldl _ _ fun s p => countFixed_mapKept s p ns).trans (MapKept.foldl _ _ fun s n => handleBad_mapKept s n)

theorem spend_mapKept (s : State) (n : Nat) : MapKept s (s.spend n) :=
  (setArr_mapKept s { s.arr with bscnt := (s.arr.bscnt + n) % 2 ^ 64 } rfl).trans
    (setBit_mapKept _ 0 true (by decide) (by decide) (by decide))

/-! The snapshot (R75 to R79) -/

theorem setDisp_arr (s : State) (d : Disp) : ({ s with disp := d } : State).arr = s.arr := rfl

theorem deliverOr_busy (s : State) : s.deliverOr.arr.busy = s.arr.busy := by
  unfold State.deliverOr
  split
  · rfl
  · split
    · rfl
    · extract_lets arr s1 s2 dsp s3
      have h2 : s2.arr = s1.arr := (State.setBit_arr _ _ _ _).trans (State.setFld_arr _ _ _ _ _)
      have h3 : s3.arr = s2.arr := setDisp_arr s2 _
      rw [State.fireIf_arr, h3, h2]

theorem deliverFirst_busy (s : State) : s.deliverFirst.arr.busy = s.arr.busy := by
  unfold State.deliverFirst
  split
  · rfl
  · split
    · rfl
    · rw [State.setFld_arr, State.setFld_arr, State.setBit_arr, State.setFld_arr]

theorem deliverCount_busy (s : State) : s.deliverCount.arr.busy = s.arr.busy := by
  unfold State.deliverCount
  split
  · rfl
  · split
    · rfl
    · rw [State.setFld_arr, State.setFld_arr]

theorem retireSnaps_busy (n : Nat) (s : State) : (State.retireSnaps n s).arr.busy = s.arr.busy := by
  induction n generalizing s with
  | zero => rfl
  | succ n ih =>
    unfold State.retireSnaps
    split
    · split
      · exact ih _
      · rfl
    · rfl

theorem snapshot_mapKept (s : State) : MapKept s s.snapshot := by
  have hk := State.snapshot_keeps (fs := [.block 3, .arr, .disp, .block 1, .out]) s (Keeps.rfl' _ s) (by decide)
  refine .of_block (fun a ha => hk.only (.block 16) (by decide) a ha) ?_
  unfold State.snapshot
  extract_lets s1
  have h1 : s1.arr.busy = s.arr.busy := by
    unfold s1
    split
    · rw [retireSnaps_busy, deliverCount_busy, deliverFirst_busy, deliverOr_busy]
    · rfl
  exact h1

/-! Bit-steps (R54 to R62, R126) -/

theorem bitStep_mapKept (s : State) (d : Desc) : MapKept s (s.bitStep d) := by
  have one : ∀ {c : Prop} [Decidable c] (u : State) (a : Nat) (ex : Nat → Bool) (gate val : Nat → Lanes),
      MapKept u (if c then u.writePlane a ex gate val else (u, [])).1 := by
    intro c _ u a ex gate val
    split
    · exact writePlane_mapKept u a ex gate val
    · exact MapKept.refl u
  unfold State.bitStep
  extract_lets ex exA exf mrd xrd yplane yrd zplane zrd frd x y z m pA p lA l notes0 all w1 w2 w3 f w4 w5 notes s6 s7
  have h5 : MapKept s w5.1 := ((((one s _ _ _ _).trans (one w1.1 _ _ _ _)).trans (one w2.1 _ _ _ _)).trans (one w3.1 _ _ _ _)).trans
    (one w4.1 _ _ _ _)
  have h6 : MapKept w5.1 s6 := MapKept.trans
    (MapKept.ite (fun _ => (mirrorPlane_mapKept _ _).trans (sweepAt_mapKept _ _)) fun _ => MapKept.refl _) (copyStates_mapKept _)
  have h7 : MapKept s s7 := ((h5.trans h6).trans (account_mapKept _ _)).trans ((useFree_mapKept _).trans (spend_mapKept _ _))
  exact MapKept.ite (fun _ => h7.trans (snapshot_mapKept s7)) fun _ => h7

theorem latchEdges_mapKept (s : State) : MapKept s s.latchEdges := by
  unfold State.latchEdges
  exact MapKept.ite (fun _ => MapKept.refl s) fun _ =>
    (setFld_mapKept s _ _ _ (by decide) (by decide) (by decide)).trans (setFld_mapKept _ _ _ _ (by decide) (by decide) (by decide))

theorem rewriteAll_mapKept (s : State) : MapKept s s.rewriteAll := by
  unfold State.rewriteAll State.fbit
  exact MapKept.foldl _ _ fun u i => (latchEdges_mapKept u).trans (MapKept.foldl _ _ fun w j => bitStep_mapKept w _)

/-! Writes to COL_SUB (R165 to R167) -/

theorem MapKept.of_subRegs {p : Nat} (h : RegsBut (subRegs p) s t) (hbusy : t.arr.busy = s.arr.busy) : MapKept s t := by
  have hge := colSubReg_ge p
  have hlt := colSubReg_lt p
  have hmap : ∀ n, Reg.act (rowMap n) ∉ subRegs p ∧ blockOf (Reg.act (rowMap n)) ≠ 1 := fun n => by
    have hn := rowMap_lt n
    have hn' := rowMap_ge n
    simp only [Reg.COL_SUB] at hge
    constructor
    · simp only [subRegs, Reg.act, Reg.REP_STATUS, List.mem_cons, List.not_mem_nil, or_false]
      omega
    · rw [blockOf_eq 16 1 (by decide) (by simp only [Reg.act]; omega)]
      decide
  have hother : ∀ a, a = Reg.MIRROR_CTL ∨ a = Reg.BIST_STATUS → a ∉ subRegs p := fun a ha => by
    simp only [Reg.COL_SUB, Reg.MIRROR_CTL, Reg.BIST_STATUS] at hge ha
    simp only [subRegs, Reg.act, Reg.REP_STATUS, List.mem_cons, List.not_mem_nil, or_false]
    omega
  exact ⟨fun n => h _ (hmap n).1 (hmap n).2, fun i _ => State.bit_congr i (h _ (hother _ (.inl rfl)) (by decide)),
    h _ (hother _ (.inr rfl)) (by decide), hbusy⟩

theorem startSweep_busy (s : State) (p j : Nat) : (s.startSweep p j).arr.busy = s.arr.busy := rfl

theorem applySub_busy (s : State) (p j st tgt : Nat) : (s.applySub p j st tgt).arr.busy = s.arr.busy := by
  rw [State.applySub_eq, State.setFld_arr, State.takeSlot]
  split
  · rw [startSweep_busy, State.putSlot_arr]
  · rw [State.putSlot_arr]

theorem judgeSub_mapKept (s : State) (p : Nat) {j : Nat} (other : Nat × Nat) (v : Word) (executing : Bool) (hj : j < 2) :
    MapKept s (s.judgeSub p j other v executing) := by
  have htook : MapKept s (s.applySub p j (bitsOf v (stBit j + 1) (stBit j)) (bitsOf v (16 * j + 6) (16 * j))) :=
    .of_subRegs (s.applySub_took hj (slotState_lt v j) (slotTarget_lt v j)).regs (applySub_busy _ _ _ _ _)
  rw [State.judgeSub_eq]
  refine MapKept.ite (fun _ => setBit_mapKept s _ _ (by decide) (by decide) (by decide)) fun _ => ?_
  refine MapKept.ite (fun _ => MapKept.ite (fun _ => ?_) fun _ => htook.trans (fire_mapKept _ 71)) fun _ => htook
  refine .of_subRegs (holdSub_regs s p j v) ?_
  rw [State.holdSub, State.setBit_arr, State.setFld_arr, State.setFld_arr]

theorem colSubWrite_mapKept (s : State) (p : Nat) (v : Word) (executing : Bool) : MapKept s (s.colSubWrite p v executing) :=
  (judgeSub_mapKept s p _ v executing (by decide)).trans (judgeSub_mapKept _ p _ v executing (by decide))

end Sys2Proof.Machine
end

section
/-! Proofs about maps that are applied and an array that is cleared (O21): PROW_MAP, the clear procedure, and the books of a
repeated strip. -/

namespace Sys2Proof.Machine

variable {s t u : State} {r v : Nat}

/-! A map is applied (R48, R85, R138, R182) -/

/-- From `s` to `t` the value `v` of PROW_MAPr came into force. -/
structure MapApplied (r v : Nat) (s t : State) : Prop where
  word : t.reg (Reg.act (rowMap r)) = BitVec.ofNat 32 (v % 256)
  mirror : s.bit Reg.MIRROR_CTL 12 = false ∨ s.fld Reg.MIRROR_CTL 10 8 = r → t.bit Reg.MIRROR_CTL 12 = false
  test : t.reg Reg.BIST_STATUS = s.reg Reg.BIST_STATUS
  colSub : ∀ p, t.reg (Reg.act (colSubReg p)) = s.reg (Reg.act (colSubReg p))
  silent : s.arr.silent = [] → t.arr.silent = []
  bscnt : t.arr.bscnt = s.arr.bscnt
  pends : t.pends 66 = true

/-- The map's two copies are written, and the gaps are heard again. -/
def State.putMap (s : State) (r v : Nat) : State :=
  (((s.setReg (Reg.act (rowMap r)) (BitVec.ofNat 32 (v % 256))).setReg (rowMap r) (BitVec.ofNat 32 (v % 256))).hearGaps r).markMapChanged r

theorem applyMap_eq (s : State) (r v : Nat) : s.applyMap r v =
    (if (s.putMap r v).bit Reg.MIRROR_CTL 12 ∧ (s.putMap r v).fld Reg.MIRROR_CTL 10 8 = r then
      (s.putMap r v).setBit Reg.MIRROR_CTL 12 false else s.putMap r v).fire 66 := rfl

theorem markMapChanged_arr (s : State) (r : Nat) : (s.markMapChanged r).arr = s.arr := by
  unfold State.markMapChanged
  split <;> rfl

theorem hearGaps_bscnt (s : State) (r : Nat) : (s.hearGaps r).arr.bscnt = s.arr.bscnt := rfl

theorem hearGaps_silent (s : State) (r : Nat) (h : s.arr.silent = []) : (s.hearGaps r).arr.silent = [] := by
  rw [State.hearGaps, h]
  rfl

theorem putMap_arr (s : State) (r v : Nat) : (s.putMap r v).arr.bscnt = s.arr.bscnt ∧ (s.arr.silent = [] → (s.putMap r v).arr.silent = []) := by
  unfold State.putMap
  rw [markMapChanged_arr, hearGaps_bscnt, State.setReg_arr, State.setReg_arr]
  exact ⟨rfl, fun h => hearGaps_silent _ r (by rw [State.setReg_arr, State.setReg_arr, h])⟩

theorem putMap_reg (s : State) (r v a : Nat) : (s.putMap r v).reg a =
    ((s.setReg (Reg.act (rowMap r)) (BitVec.ofNat 32 (v % 256))).setReg (rowMap r) (BitVec.ofNat 32 (v % 256))).reg a := by
  have hk : ∀ w : State, Keeps [.arr, .trv] w ((w.hearGaps r).markMapChanged r) := fun w =>
    State.markMapChanged_keeps _ r (State.hearGaps_keeps w r (Keeps.rfl' _ w) (by decide)) (by decide)
  exact (hk _).only (.block (blockOf a)) rfl a rfl

theorem putMap_reg_other (s : State) (v : Nat) {r a : Nat} (h : a ≠ rowMap r) (hact : a ≠ Reg.act (rowMap r)) :
    (s.putMap r v).reg a = s.reg a := by
  rw [putMap_reg, State.reg_setReg_other _ _ h, State.reg_setReg_other _ _ hact]

theorem applyMap_applied (s : State) (r v : Nat) : MapApplied r v s (s.applyMap r v) := by
  have hlt := rowMap_lt r
  have hge := rowMap_ge r
  have hmir : (s.putMap r v).reg Reg.MIRROR_CTL = s.reg Reg.MIRROR_CTL :=
    putMap_reg_other s v (by simp only [Reg.MIRROR_CTL]; omega) (by simp only [Reg.MIRROR_CTL, Reg.act]; omega)
  obtain ⟨hcnt, hsilent⟩ := putMap_arr s r v
  have hact : blockOf (Reg.act (rowMap r)) ≠ 1 := by
    rw [blockOf_eq 16 1 (by decide) (by simp only [Reg.act]; omega)]
    decide
  rw [applyMap_eq]
  set m := if (s.putMap r v).bit Reg.MIRROR_CTL 12 ∧ (s.putMap r v).fld Reg.MIRROR_CTL 10 8 = r then
      (s.putMap r v).setBit Reg.MIRROR_CTL 12 false else s.putMap r v with hm
  have hreg : ∀ a, a ≠ Reg.MIRROR_CTL → m.reg a = (s.putMap r v).reg a := fun a ha => by
    rw [hm]
    split
    · exact State.reg_setBit_other _ _ _ ha
    · rfl
  have harr : m.arr = (s.putMap r v).arr := by
    rw [hm]
    split
    · exact State.setBit_arr _ _ _ _
    · rfl
  refine ⟨?_, fun h => ?_, ?_, fun p => ?_, fun h => ?_, ?_, State.pends_fire_self _ 66⟩
  · rw [State.reg_fire _ _ hact, hreg _ (act_ne (by decide)), putMap_reg, State.reg_setReg_other _ _ (act_ne (by omega)),
      State.reg_setReg_same]
  · rw [State.bit_fire _ _ _ (by decide), hm]
    split
    · exact State.bit_setBit_same _ _ false (by decide)
    · next hno =>
      rw [State.bit_congr 12 hmir, State.fld_congr 10 8 hmir] at hno
      rw [State.bit_congr 12 hmir]
      rcases h with h | h
      · exact h
      · exact Bool.eq_false_iff.mpr fun hb => hno ⟨hb, h⟩
  · rw [State.reg_fire _ _ (by decide), hreg _ (by decide)]
    exact putMap_reg_other s v (by simp only [Reg.BIST_STATUS]; omega) (by simp only [Reg.BIST_STATUS, Reg.act]; omega)
  · have hp := colSubReg_ge p
    simp only [Reg.COL_SUB] at hp
    rw [State.reg_fire _ _ (by rw [blockOf_act_colSubReg]; decide), hreg _ (act_ne (by decide))]
    exact putMap_reg_other s v (act_ne (by omega)) (by simp only [Reg.act]; omega)
  · rw [State.fire_arr, harr]
    exact hsilent h
  · rw [State.fire_arr, harr, hcnt]

/-- A legal map is applied at once while no bit-steps are executing (R48, R50). -/
theorem State.prowMapWrite_eq (s : State) (r : Nat) {v : Nat} (hbusy : s.arr.busy = false) (hv : v < 256) (h0 : v % 16 ≤ 8)
    (h1 : v / 16 = 15 ∨ v / 16 ≤ 8) (hne : v / 16 ≠ v % 16) : s.prowMapWrite r (BitVec.ofNat 32 v) false = s.applyMap r v := by
  have hg0 : bitsOf (BitVec.ofNat 32 v) 3 0 = v % 16 := by rw [bitsOf_ofNat (by omega)]; omega
  have hg1 : bitsOf (BitVec.ofNat 32 v) 7 4 = v / 16 := by rw [bitsOf_ofNat (by omega)]; omega
  have hsum : v / 16 * 16 + v % 16 = v := by omega
  unfold State.prowMapWrite
  dsimp only
  rw [hg0, hg1, if_neg (by omega), hbusy, if_neg (by decide), hsum]

theorem MapApplied.gaps (h : MapApplied r v s t) (hv : v < 256) :
    t.fld (Reg.act (rowMap r)) 3 0 = v % 16 ∧ t.fld (Reg.act (rowMap r)) 7 4 = v / 16 := by
  rw [State.fld, State.fld, h.word, bitsOf_ofNat (by omega), bitsOf_ofNat (by omega)]
  omega

/-! The clear procedure (R68) -/

/-- The array's cells as the clear procedure writes them. -/
def State.wipe (s : State) : State :=
  if (List.range 72).all s.executes && s.countActive == 0 then { s with arr := { s.arr with base := some 0, planes := [] } }
  else (List.range 1024 ++ [planeC, planeN, planeF]).foldl
    (fun u a => (u.writePlane a s.executes (fun _ => BitVec.allOnes 66) fun _ => 0).1)
    (s.writePlane planeM s.executes (fun _ => BitVec.allOnes 66) fun _ => BitVec.allOnes 66).1

/-- The clear procedure: with SPARE_EXEC set for its duration every address is written, and swept. -/
theorem clearArray_eq (s : State) : s.clearArray =
    ((((List.range 1024).foldl (fun u a => u.sweepAt a) (s.setBit Reg.ARR_CTL 0 true).wipe).spend 1025).setBit Reg.ARR_CTL 0 false) := rfl

theorem wipe_bscnt (s : State) : s.wipe.arr.bscnt = s.arr.bscnt := by
  have hw : ∀ (u : State) (a : Nat) (val : Nat → Lanes),
      Wrote (fun _ => True) u (u.writePlane a s.executes (fun _ => BitVec.allOnes 66) val).1 := fun u a val =>
    writePlane_wrote u _ _ _ trivial
  unfold State.wipe
  split
  · rfl
  · exact ((hw s _ _).trans (Wrote.foldl _ _ fun u a => hw u a _)).bscnt

theorem wipe_mapKept (s : State) : MapKept s s.wipe := by
  unfold State.wipe
  exact MapKept.ite (fun _ => setArr_mapKept s _ rfl) fun _ =>
    (writePlane_mapKept s _ _ _ _).trans (MapKept.foldl _ _ fun u a => writePlane_mapKept u a _ _ _)

/-- What follows the writes of the clear procedure leaves every cell. -/
theorem clearArray_swept (s : State) : ∃ w, Wrote (fun _ => False) (s.setBit Reg.ARR_CTL 0 true).wipe w ∧
    MapKept (s.setBit Reg.ARR_CTL 0 true).wipe w ∧ s.clearArray = (w.spend 1025).setBit Reg.ARR_CTL 0 false :=
  ⟨_, Wrote.foldl _ _ fun u a => sweepAt_wrote _ u a, MapKept.foldl _ _ fun u a => sweepAt_mapKept u a, clearArray_eq s⟩

theorem clearArray_bscnt (s : State) : s.clearArray.arr.bscnt = (s.arr.bscnt + 1025) % 2 ^ 64 := by
  obtain ⟨w, hw, -, he⟩ := clearArray_swept s
  rw [he, State.setBit_arr, State.spend_bscnt, hw.bscnt, wipe_bscnt, State.setBit_arr]

theorem clearArray_mapKept (s : State) : MapKept s s.clearArray := by
  obtain ⟨w, -, hw, he⟩ := clearArray_swept s
  have hctl : ∀ (u : State) (b : Bool), MapKept u (u.setBit Reg.ARR_CTL 0 b) := fun u b =>
    setBit_mapKept u 0 b (by decide) (by decide) (by decide)
  rw [he]
  exact (((hctl s true).trans (wipe_mapKept _)).trans hw).trans ((spend_mapKept w 1025).trans (hctl _ false))

theorem Store.dense_nil {α : Type} (d : Nat → α) (n k : Nat) {i : Nat} (h : i < n) : (Store.dense d k n [])[i]? = some (d (k + i)) := by
  induction n generalizing k i with
  | zero => omega
  | succ n ih =>
    cases i with
    | zero => rfl
    | succ i =>
      rw [Store.dense, List.getElem?_cons_succ, ih (k + 1) (by omega)]
      congr 2
      omega

theorem executes_of_spare {p : Nat} (hspare : s.bit Reg.ARR_CTL 0 = true) (hsilent : s.arr.silent = [])
    (hmirror : s.bit Reg.MIRROR_CTL 12 = false) (htest : s.bit Reg.BIST_STATUS 7 = false) : s.executes p = true := by
  simp [State.executes, State.bistOwns, hspare, hsilent, hmirror, htest]

/-- Where no column is substituted and every Platform acknowledges, the clear procedure leaves 0 in every cell of bit-RAM. -/
theorem clearArray_cell {a k : Nat} (hsilent : s.arr.silent = []) (hmirror : s.bit Reg.MIRROR_CTL 12 = false)
    (htest : s.bit Reg.BIST_STATUS 7 = false) (hsubs : s.countActive = 0) (ha : a < 1024) (hk : k < 2304) :
    (s.clearArray.planeCells a)[k]? = some (some 0) := by
  obtain ⟨w, hw, -, he⟩ := clearArray_swept s
  set x := s.setBit Reg.ARR_CTL 0 true with hx
  have hall : (List.range 72).all x.executes = true := List.all_eq_true.mpr fun p _ =>
    executes_of_spare (State.bit_setBit_same s _ true (by decide)) ((congrArg Arr.silent (s.setBit_arr _ _ _)).trans hsilent)
      ((State.bit_setBit_other s _ _ _ (by decide)).trans hmirror) ((State.bit_setBit_other s _ _ _ (by decide)).trans htest)
  have hcount : x.countActive = 0 := (State.countActive_congr fun q => s.reg_setBit_other 0 true (act_ne (by decide))).trans hsubs
  have hwipe : x.wipe = { x with arr := { x.arr with base := some 0, planes := [] } } := if_pos (by rw [hall, hcount]; rfl)
  have hbase : s.clearArray.arr.base = some 0 := by
    rw [he, State.setBit_arr, State.spend_base, hw.base, hwipe]
  have hplane : Store.get (fun _ => []) s.clearArray.arr.planes a = [] := by
    rw [he, State.setBit_arr, State.spend_planes, hw.planes a id, hwipe]
    rfl
  rw [State.planeCells, hbase, hplane, Store.dense_nil _ _ _ hk, planeDefault, if_neg (by simp only [planeM]; omega)]

/-! A strip is repeated (R30, R174, R179) -/

/-- The scheduler spent the frame's reserve on one more repeat. -/
def Sched.spent (a b : Sched) : Prop :=
  b.repeats = a.repeats + 1 ∧ b.reserveSpent = true ∧
    (a.reserveSpent = true → b.lostStrip = true ∧ b.uncommitted = a.uncommitted + 1)

theorem repeatStrip_spent (s : State) : s.sched.spent s.repeatStrip.sched := by
  unfold State.repeatStrip
  cases h : s.sched.reserveSpent with
  | true =>
    rw [spendReserve_of_spent h]
    exact ⟨rfl, h, fun _ => ⟨rfl, rfl⟩⟩
  | false =>
    rw [spendReserve_of_unspent h]
    exact ⟨rfl, rfl, fun hn => absurd (h.symm.trans hn) (by decide)⟩

/-- The array was cleared: its time is counted, and bit-RAM is 0 where the whole array executes without substitutions. -/
def State.cleared (s t : State) : Prop :=
  t.arr.bscnt = (s.arr.bscnt + 1025) % 2 ^ 64 ∧
    (s.arr.silent = [] → s.bit Reg.MIRROR_CTL 12 = false → s.countActive = 0 →
      ∀ a k, a < 1024 → k < 2304 → (t.planeCells a)[k]? = some (some 0))

/-- What touches neither the array nor its registers leaves the array cleared. -/
theorem State.cleared.of_keeps {fs : List Zone} (h : s.cleared t) (hk : Keeps fs t u) (harr : Zone.inList .arr fs = false := by decide)
    (hplanes : Zone.inList .planes fs = false := by decide) (h16 : Zone.inList (.block 16) fs = false := by decide) : s.cleared u := by
  obtain ⟨hcnt, hcells⟩ := h
  have hsame : u.arr = { t.arr with base := u.arr.base, planes := u.arr.planes } := hk.only .arr harr
  refine ⟨by rw [hsame]; exact hcnt, fun h1 h2 h3 a k ha hk' => ?_⟩
  rw [(SameCells.of_keeps hk hplanes h16).cells a]
  exact hcells h1 h2 h3 a k ha hk'

theorem clearArray_cleared (htest : s.bit Reg.BIST_STATUS 7 = false) : s.cleared s.clearArray :=
  ⟨clearArray_bscnt s, fun h1 h2 h3 _ _ ha hk => clearArray_cell h1 h2 htest h3 ha hk⟩

/-- A map applied first does not keep the array from being cleared. -/
theorem MapApplied.clearArray (h : MapApplied r v s t) (htest : s.bit Reg.BIST_STATUS 7 = false) : s.cleared t.clearArray := by
  refine ⟨by rw [clearArray_bscnt, h.bscnt], fun h1 h2 h3 a k ha hk => ?_⟩
  exact clearArray_cell (h.silent h1) (h.mirror (.inl h2)) ((State.bit_congr 7 h.test).trans htest)
    ((State.countActive_congr h.colSub).trans h3) ha hk

end Sys2Proof.Machine
end

section
/-! Proofs about a failed Platform (O21): the pipes that are stopped leave pending sources, and the failure and the repeat run on
an idle array. -/

namespace Sys2Proof.Machine

variable {s t u : State} {p : Nat}

/-! Stopping pipes (R177, R392) -/

theorem safeSet_keepsPending (s : State) (b : Nat) : KeepsPending s (s.safeSet b) := by
  have hself := KeepsPending.refl s
  unfold State.safeSet
  extract_lets was s1
  have h1 : KeepsPending s s1 := (hself.setBit b true (by decide)).setBit 31 true (by decide)
  split
  · exact h1
  · have hevt : Keeps [.block 3, .free] s1 (s1.evtAdd 6 0xFF s1.freeByte 0xFF).useFree :=
      State.useFree_keeps _ (State.evtAdd_keeps s1 _ _ _ _ (Keeps.rfl' _ s1) (by decide)) (by decide)
    exact (h1.trans (.of_keeps hevt (by decide))).fire 20

theorem blockOf_pipeStat (p : Nat) : blockOf (pipeReg Reg.PIPE_STAT p) ≠ 1 := by
  rw [blockOf_eq14 0 (by simp only [pipeReg, Reg.PIPE_STAT]; omega)]
  decide

theorem linkDown_keepsPending (s : State) (p : Nat) : KeepsPending s (s.linkDown p) := by
  unfold State.linkDown
  extract_lets was s1
  have h1 : KeepsPending s s1 := (KeepsPending.refl s).setBit 15 false (blockOf_pipeStat p)
  split
  · exact h1.trans (safeSet_keepsPending s1 6)
  · exact h1

theorem pipeHalt_keepsPending (s : State) (p : Nat) : KeepsPending s (s.pipeHalt p) := by
  unfold State.pipeHalt
  extract_lets s1
  have hoff : Keeps [.block 20, .pipes] s ((s.setPipePend p false).layersOff p) :=
    State.layersOff_keeps _ p (State.setPipePend_keeps s p false (Keeps.rfl' _ s) (by decide)) (by decide)
  have h1 : KeepsPending s s1 := (KeepsPending.of_keeps hoff (by decide)).setReg _ (blockOf_pipeStat p)
  refine KeepsPending.trans (h1.trans (.of_keeps (fs := [.pipes]) ?_ (by decide))) (linkDown_keepsPending _ p)
  exact State.setPipe_keeps s1 p _ (Keeps.rfl' _ s1) (by decide)

theorem pipeStopNow_keepsPending (s : State) (p : Nat) : KeepsPending s (s.pipeStopNow p) := by
  unfold State.pipeStopNow
  have hil : Keeps [.block 3, .il] s ((s.ilSample p).setChan p { (s.ilSample p).chan p with hist := [], frame := none }) :=
    State.setChan_keeps _ p _ (State.ilSample_keeps s p (Keeps.rfl' _ s) (by decide)) (by decide)
  exact (KeepsPending.of_keeps hil (by decide)).trans (pipeHalt_keepsPending _ p)

theorem pipeDisable_keepsPending (s : State) (p : Nat) : KeepsPending s (s.pipeDisable p) := by
  have hctl : blockOf (pipeReg Reg.PIPE_CTL p) ≠ 1 := by
    rw [blockOf_eq14 0 (by simp only [pipeReg, Reg.PIPE_CTL]; omega)]
    decide
  unfold State.pipeDisable
  extract_lets s1
  have h1 : KeepsPending s s1 := (KeepsPending.refl s).setBit 0 false hctl
  split
  · exact h1
  · exact h1.trans (pipeStopNow_keepsPending s1 p)
  · exact h1.trans (.of_keeps (fs := [.pipes]) (State.setPipe_keeps s1 p _ (Keeps.rfl' _ s1) (by decide)) (by decide))

theorem KeepsPending.foldl {α : Type} (l : List α) (f : State → α → State) (hf : ∀ s x, KeepsPending s (f s x)) (s : State) :
    KeepsPending s (l.foldl f s) := by
  induction l generalizing s with
  | nil => exact KeepsPending.refl s
  | cons x l ih => exact (hf s x).trans (ih _)

theorem stopPipes_keepsPending (s : State) (n : Nat) : KeepsPending s (s.stopPipes n) := by
  unfold State.stopPipes
  refine KeepsPending.foldl _ _ (fun u p => ?_) s
  refine ((pipeDisable_keepsPending u p).setBit (a := Reg.TLM_ARRAY) 15 true (by decide)).trans (.of_keeps (fs := [.log, .free]) ?_ (by decide))
  exact State.logEvent_keeps _ _ _ _ (Keeps.rfl' _ _) (by decide)

/-! An idle array (R173) -/

/-- The array is idle: no bit-steps are executing, nothing is suspended or held, and no test is busy. -/
def State.idleArray (s : State) : Prop :=
  s.arr.busy = false ∧ s.arr.suspended = false ∧ s.trv.held = [] ∧ s.bit Reg.BIST_STATUS 7 = false

/-- Steps 1 to 4 of R173 have nothing to do in an idle array. -/
theorem State.idleArray.failSteps (h : s.idleArray) (row : Option Nat) : s.failSteps row = s := by
  obtain ⟨-, hsusp, hheld, htest⟩ := h
  unfold State.failSteps
  cases row <;> simp [hsusp, hheld, htest]

/-- The array is idle at power-on. -/
theorem reset_idleArray : State.reset.idleArray := by
  unfold State.idleArray
  decide

/-- The parts that Stationmaster's books and the display pipes lie in. -/
def bookZones : List Zone :=
  [.sched, .repair, .log, .free, .block 4, .block 20, .block 3, .block 1, .out, .pipes, .il]

theorem repeatStrip_keeps (s : State) : Keeps bookZones s s.repeatStrip := State.repeatStrip_keeps s (Keeps.rfl' _ s) (by decide)

theorem clearArray_keepsPending (s : State) : KeepsPending s s.clearArray :=
  .of_keeps (fs := [.block 16, .planes, .arr]) (State.clearArray_keeps s (Keeps.rfl' _ s) (by decide)) (by decide)

theorem clearArray_sched (s : State) : s.clearArray.sched = s.sched :=
  (State.clearArray_keeps (fs := [.block 16, .planes, .arr]) s (Keeps.rfl' _ s) (by decide)).only .sched (by decide)

theorem applyMap_sched (s : State) (r v : Nat) : (s.applyMap r v).sched = s.sched :=
  (State.applyMap_keeps (fs := [.block 16, .trv, .arr, .block 1, .out]) s r v (Keeps.rfl' _ s) (by decide)).only .sched (by decide)

/-- Recording a failed slot does not undo what the repeat spent. -/
theorem recordFailed_spent {a : Sched} (p reason : Nat) (h : a.spent s.sched) : a.spent (s.recordFailed p reason).sched := by
  rw [recordFailed_eq]
  split
  · exact h
  · exact h

/-- The strip is repeated in a cleared array under a new map (R173 steps 5 to 7). -/
def State.remapped (s : State) (r v : Nat) : State := (s.applyMap r v).clearArray.repeatStrip

theorem State.remapped_eq (s : State) (r v : Nat) : s.remapped r v = (s.applyMap r v).clearArray.repeatStrip := rfl

/-- What the new map, the clear procedure and the books after it leave. -/
theorem remapped_spec {r v : Nat} (h : s.idleArray) (hv : v < 256) (hk : Keeps bookZones (s.remapped r v) t)
    (hpending : KeepsPending (s.remapped r v) t) (hsched : s.sched.spent (s.remapped r v).sched → s.sched.spent t.sched) :
    t.fld (Reg.act (rowMap r)) 3 0 = v % 16 ∧ t.fld (Reg.act (rowMap r)) 7 4 = v / 16 ∧ t.pends 66 = true ∧
      s.sched.spent t.sched ∧ s.cleared t := by
  obtain ⟨-, -, -, htest⟩ := h
  have happlied := applyMap_applied s r v
  have hrep := repeatStrip_keeps (s.applyMap r v).clearArray
  have hmap : t.reg (Reg.act (rowMap r)) = (s.applyMap r v).reg (Reg.act (rowMap r)) :=
    (((MapKept.of_keeps hk).map r).trans ((MapKept.of_keeps hrep).map r)).trans ((clearArray_mapKept _).map r)
  obtain ⟨h0, h1⟩ := happlied.gaps hv
  refine ⟨(State.fld_congr 3 0 hmap).trans h0, (State.fld_congr 7 4 hmap).trans h1, hpending 66 ?_, hsched ?_, ?_⟩
  · have hquiet : KeepsPending (s.applyMap r v).clearArray (s.remapped r v) :=
      .of_keeps (fs := [.sched]) (State.repeatStrip_keeps _ (Keeps.rfl' _ _) (by decide)) (by decide)
    exact hquiet 66 (clearArray_keepsPending _ 66 happlied.pends)
  · have hspent := repeatStrip_spent (s.applyMap r v).clearArray
    rwa [clearArray_sched, applyMap_sched] at hspent
  · exact (State.cleared.of_keeps (happlied.clearArray htest) hrep).of_keeps hk

/-! PLATFORM_FAILURE (R173, R176 to R178) -/

/-- Some Platform of row `r` has failed. -/
def State.failedRow (s : State) (r : Nat) : Prop := ∃ q ∈ s.repair.failed, q / 9 = r

/-- Both gaps of row `r` have failed (R178). -/
def State.deadRow (s : State) (r : Nat) : Prop :=
  9 * r + s.fld (Reg.act (rowMap r)) 3 0 ∈ s.repair.failed ∧ s.fld (Reg.act (rowMap r)) 7 4 ≠ 15 ∧
    9 * r + s.fld (Reg.act (rowMap r)) 7 4 ∈ s.repair.failed

theorem any_failed_iff (s : State) (r : Nat) :
    ((List.range 9).any fun slot => s.repair.failed.contains (9 * r + slot)) = true ↔ s.failedRow r := by
  simp only [List.any_eq_true, List.mem_range, List.contains_iff_mem, State.failedRow]
  constructor
  · rintro ⟨slot, hslot, hmem⟩
    exact ⟨_, hmem, by omega⟩
  · rintro ⟨q, hq, hr⟩
    exact ⟨q % 9, Nat.mod_lt q (by decide), by rwa [show 9 * r + q % 9 = q by omega]⟩

theorem platformFailure_dead (reason stops : Nat) (h : s.deadRow (p / 9)) :
    s.platformFailure p reason stops = (s.setBit Reg.TLM_ARRAY 14 true).logEvent 0x06 0 0 := by
  obtain ⟨h0, h1, h2⟩ := h
  unfold State.platformFailure
  refine if_pos ?_
  simp only [List.contains_iff_mem.mpr h0, List.contains_iff_mem.mpr h2, bne_iff_ne.mpr h1, Bool.and_self]

/-- The new map of a row whose Platform `p` failed: its slot becomes the gap, or the second gap (R176). -/
def State.failMap (s : State) (p : Nat) (rowFailed : Bool) : Nat :=
  if rowFailed then 16 * (p % 9) + s.fld (Reg.act (rowMap (p / 9))) 3 0 else 15 * 16 + p % 9

theorem platformFailure_idle (reason stops : Nat) (h : s.idleArray) (hdead : ¬ s.deadRow (p / 9)) {rowFailed : Bool}
    (hrow : ((List.range 9).any fun slot => s.repair.failed.contains (9 * (p / 9) + slot)) = rowFailed) :
    s.platformFailure p reason stops =
      let t := (s.prowMapWrite (p / 9) (BitVec.ofNat 32 (s.failMap p rowFailed)) false).clearArray.repeatStrip.recordFailed p reason
      if rowFailed then t.stopPipes stops else t := by
  subst hrow
  unfold State.platformFailure State.failMap
  dsimp only
  rw [if_neg, h.failSteps]
  · intro hd
    simp only [Bool.and_eq_true, List.contains_iff_mem, bne_iff_ne] at hd
    exact hdead ⟨hd.1.1, hd.1.2, hd.2⟩

/-- Stopping pipes is none of the repair's or the scheduler's business. -/
theorem stopPipes_keeps (s : State) (n : Nat) :
    Keeps [.log, .free, .block 4, .block 20, .block 3, .block 1, .out, .pipes, .il] s (s.stopPipes n) :=
  State.stopPipes_keeps s n (Keeps.rfl' _ s) (by decide)

/-- What the end of a failure procedure keeps of `m`, where the new map is in force and the array is cleared. -/
structure FailureBooked (a : Sched) (p : Nat) (m t : State) : Prop where
  keeps : Keeps bookZones m t
  pending : KeepsPending m t
  spent : a.spent m.sched → a.spent t.sched
  failed : p ∈ t.repair.failed

theorem recordFailed_failureBooked (a : Sched) (p reason : Nat) (m : State) : FailureBooked a p m (m.recordFailed p reason) :=
  ⟨State.recordFailed_keeps m p reason (Keeps.rfl' _ m) (by decide), (recordFailed_booked m p reason).pending,
    recordFailed_spent p reason, mem_recordFailed m p reason⟩

theorem FailureBooked.stopPipes {a : Sched} {m : State} (h : FailureBooked a p m t) (stops : Nat) :
    FailureBooked a p m (t.stopPipes stops) := by
  have hstop := stopPipes_keeps t stops
  refine ⟨State.stopPipes_keeps t stops h.keeps (by decide), h.pending.trans (stopPipes_keepsPending t stops), fun hs => ?_, ?_⟩
  · rw [show (t.stopPipes stops).sched = t.sched from hstop.only .sched (by decide)]
    exact h.spent hs
  · rw [show (t.stopPipes stops).repair = t.repair from hstop.only .repair (by decide)]
    exact h.failed

/-- A failure on an idle array, in a row that can take the new map. -/
theorem platformFailure_booked (reason stops : Nat) (h : s.idleArray) (hdead : ¬ s.deadRow (p / 9)) {rowFailed : Bool}
    (hrow : ((List.range 9).any fun slot => s.repair.failed.contains (9 * (p / 9) + slot)) = rowFailed) {v : Nat}
    (hmap : s.failMap p rowFailed = v) (hv : v < 256) (h0 : v % 16 ≤ 8) (h1 : v / 16 = 15 ∨ v / 16 ≤ 8) (hne : v / 16 ≠ v % 16) :
    FailureBooked s.sched p (s.remapped (p / 9) v) (s.platformFailure p reason stops) := by
  have hrec := recordFailed_failureBooked s.sched p reason (s.remapped (p / 9) v)
  obtain ⟨hbusy, -⟩ := id h
  rw [platformFailure_idle reason stops h hdead hrow, hmap, s.prowMapWrite_eq _ hbusy hv h0 h1 hne, ← State.remapped_eq]
  cases rowFailed with
  | false =>
    dsimp only
    rw [if_neg (by decide)]
    exact hrec
  | true =>
    dsimp only
    rw [if_pos rfl]
    exact hrec.stopPipes stops

theorem platformFailure_spec (reason stops : Nat) (h : s.idleArray) {v : Nat} (hv : v < 256)
    (hb : FailureBooked s.sched p (s.remapped (p / 9) v) (s.platformFailure p reason stops)) :
    ∃ t, exec (.platformFailure p reason stops) s = .next t ∧ t.fld (Reg.act (rowMap (p / 9))) 3 0 = v % 16 ∧
      t.fld (Reg.act (rowMap (p / 9))) 7 4 = v / 16 ∧ t.pends 66 = true ∧ p ∈ t.repair.failed ∧ s.sched.spent t.sched ∧ s.cleared t := by
  obtain ⟨hgap0, hgap1, hpends, hsched, hcleared⟩ := remapped_spec h hv hb.keeps hb.pending hb.spent
  exact ⟨_, rfl, hgap0, hgap1, hpends, hb.failed, hsched, hcleared⟩

/-- The first failure of a row: the failed slot becomes its gap (R174). -/
theorem platformFailure_firstOfRow (reason stops : Nat) (h : s.idleArray) (hdead : ¬ s.deadRow (p / 9)) (hrow : ¬ s.failedRow (p / 9)) :
    ∃ t, exec (.platformFailure p reason stops) s = .next t ∧ t.fld (Reg.act (rowMap (p / 9))) 3 0 = p % 9 ∧
      t.fld (Reg.act (rowMap (p / 9))) 7 4 = 15 ∧ t.pends 66 = true ∧ p ∈ t.repair.failed ∧ s.sched.spent t.sched ∧ s.cleared t := by
  have hlt : p % 9 < 9 := Nat.mod_lt p (by decide)
  have hbooked := platformFailure_booked reason stops h hdead
    (Bool.eq_false_iff.mpr fun ha => hrow ((any_failed_iff s _).mp ha)) (v := 15 * 16 + p % 9) rfl (by omega) (by omega)
    (by omega) (by omega)
  have hspec := platformFailure_spec reason stops h (by omega) hbooked
  rwa [show (15 * 16 + p % 9) % 16 = p % 9 by omega, show (15 * 16 + p % 9) / 16 = 15 by omega] at hspec

/-- A further failure in a row: the failed slot becomes its second gap (R176). -/
theorem platformFailure_secondOfRow (reason stops : Nat) (h : s.idleArray) (hdead : ¬ s.deadRow (p / 9)) (hrow : s.failedRow (p / 9))
    (hgap : s.fld (Reg.act (rowMap (p / 9))) 3 0 ≤ 8) (hne : s.fld (Reg.act (rowMap (p / 9))) 3 0 ≠ p % 9) :
    ∃ t, exec (.platformFailure p reason stops) s = .next t ∧
      t.fld (Reg.act (rowMap (p / 9))) 3 0 = s.fld (Reg.act (rowMap (p / 9))) 3 0 ∧ t.fld (Reg.act (rowMap (p / 9))) 7 4 = p % 9 ∧
      t.pends 66 = true ∧ p ∈ t.repair.failed ∧ s.sched.spent t.sched ∧ s.cleared t := by
  have hlt : p % 9 < 9 := Nat.mod_lt p (by decide)
  generalize hg : s.fld (Reg.act (rowMap (p / 9))) 3 0 = g at hgap hne
  have hbooked := platformFailure_booked reason stops h hdead ((any_failed_iff s _).mpr hrow) (v := 16 * (p % 9) + g)
    (by rw [State.failMap, if_pos rfl, hg]) (by omega) (by omega) (by omega) (by omega)
  have hspec := platformFailure_spec reason stops h (by omega) hbooked
  rwa [show (16 * (p % 9) + g) % 16 = g by omega, show (16 * (p % 9) + g) / 16 = p % 9 by omega] at hspec

/-! STRIP_REPEAT (R179) -/

theorem stripRepeat_again (h : s.sched.repeatOf = some p) :
    s.stripRepeat p = ({ s with sched := { s.sched with repeatOf := none } } : State).platformFailure p 4 0 := if_pos h

theorem setRepeatOf_repeatOf (s : State) (q : Option Nat) : (s.setRepeatOf q).sched.repeatOf = q := rfl

theorem setRepeatOf_spent {a : Sched} (q : Option Nat) (h : a.spent s.sched) : a.spent (s.setRepeatOf q).sched := h

/-- The first uncorrectable row word of a strip: its repeat is paid, and the map stays. -/
theorem stripRepeat_first (h : s.idleArray) (hne : s.sched.repeatOf ≠ some p) : ∃ t, exec (.stripRepeat p) s = .next t ∧
    t.sched.repeatOf = some p ∧ s.sched.spent t.sched ∧ s.cleared t ∧ t.repair = s.repair ∧
    ∀ n, t.reg (Reg.act (rowMap n)) = s.reg (Reg.act (rowMap n)) := by
  obtain ⟨-, -, -, htest⟩ := id h
  have heq : s.stripRepeat p = s.clearArray.repeatStrip.setRepeatOf (some p) := by
    rw [State.stripRepeat, if_neg hne, h.failSteps]
  have hbooks : Keeps [.sched] s.clearArray (s.clearArray.repeatStrip.setRepeatOf (some p)) :=
    State.setRepeatOf_keeps _ _ (State.repeatStrip_keeps _ (Keeps.rfl' _ _) (by decide)) (by decide)
  have hclear : Keeps [.block 16, .planes, .arr] s s.clearArray := State.clearArray_keeps s (Keeps.rfl' _ s) (by decide)
  have hspent := repeatStrip_spent s.clearArray
  rw [clearArray_sched] at hspent
  refine ⟨s.clearArray.repeatStrip.setRepeatOf (some p), congrArg Host.Outcome.next heq, setRepeatOf_repeatOf _ _,
    setRepeatOf_spent _ hspent,
    (clearArray_cleared htest).of_keeps hbooks, ?_, fun n => ?_⟩
  · exact (hbooks.only .repair (by decide)).trans (hclear.only .repair (by decide))
  · exact ((MapKept.of_keeps hbooks).map n).trans ((clearArray_mapKept s).map n)

/-! SUBSTITUTE_COLUMN (R169) -/

theorem substituteColumn_retire (h0 : (s.subOf p 0).1 = 2) (h1 : (s.subOf p 1).1 = 2) :
    s.substituteColumn p = { s with sched := { s.sched with retire := some p } } := if_pos ⟨h0, h1⟩

/-- Steps 1 to 4 of R169 for slot `j` and column `col`: into SHADOW, every address rewritten, into ACTIVE. -/
def State.substituteSlot (s : State) (p j col : Nat) : State :=
  let s1 := (s.colSubWrite p (s.subValue p j 1 col) false).rewriteAll
  s1.colSubWrite p (s1.subValue p j 2 col) false

/-- The repair record gains a substitution. -/
def State.addSub (s : State) (e : Nat × Nat × Nat) : State := { s with repair := { s.repair with subs := s.repair.subs ++ [e] } }

theorem substituteColumn_cases (s : State) (p : Nat) (h : (s.subOf p 0).1 ≠ 2 ∨ (s.subOf p 1).1 ≠ 2) : s.substituteColumn p = s ∨
    ∃ j, j < 2 ∧ ((((s.substituteSlot p j (s.fld (colmonReg p) 6 0)).subOf p j).1 = 2 ∧ s.substituteColumn p =
        (((s.substituteSlot p j (s.fld (colmonReg p) 6 0)).colmonClr p).addSub (p, j, s.fld (colmonReg p) 6 0)).logEvent 0x04 p
          (s.fld (colmonReg p) 6 0)) ∨
      s.substituteColumn p = s.substituteSlot p j (s.fld (colmonReg p) 6 0)) := by
  have hslot : ∀ j, j < 2 → (if (s.subOf p 0).1 = 0 then some 0 else if (s.subOf p 1).1 = 0 then some 1 else none) = some j →
      (((s.substituteSlot p j (s.fld (colmonReg p) 6 0)).subOf p j).1 = 2 ∧ s.substituteColumn p =
        (((s.substituteSlot p j (s.fld (colmonReg p) 6 0)).colmonClr p).addSub (p, j, s.fld (colmonReg p) 6 0)).logEvent 0x04 p
          (s.fld (colmonReg p) 6 0)) ∨ s.substituteColumn p = s.substituteSlot p j (s.fld (colmonReg p) 6 0) := by
    intro j _ hj
    have heq : s.substituteColumn p = if ((s.substituteSlot p j (s.fld (colmonReg p) 6 0)).subOf p j).1 = 2 then
        (((s.substituteSlot p j (s.fld (colmonReg p) 6 0)).colmonClr p).addSub (p, j, s.fld (colmonReg p) 6 0)).logEvent 0x04 p
          (s.fld (colmonReg p) 6 0) else s.substituteSlot p j (s.fld (colmonReg p) 6 0) := by
      unfold State.substituteColumn
      dsimp only
      rw [if_neg (by omega), hj]
      rfl
    rw [heq]
    split
    · next hact => exact .inl ⟨hact, rfl⟩
    · exact .inr rfl
  by_cases h0 : (s.subOf p 0).1 = 0
  · exact .inr ⟨0, by decide, hslot 0 (by decide) (if_pos h0)⟩
  · by_cases h1 : (s.subOf p 1).1 = 0
    · exact .inr ⟨1, by decide, hslot 1 (by decide) (by rw [if_neg h0, if_pos h1])⟩
    · refine .inl ?_
      unfold State.substituteColumn
      dsimp only
      rw [if_neg (by omega), if_neg h0, if_neg h1]

end Sys2Proof.Machine
end

section
/-! Proofs about a step of the rotation (O21), and O21. -/

namespace Sys2Proof.Machine

variable {s t u : State} {p r : Nat}

/-! SUBSTITUTE_COLUMN, as the repair record shows it (R169) -/

theorem substituteSlot_repair (s : State) (p j col : Nat) : (s.substituteSlot p j col).repair = s.repair := by
  have hk : Keeps [.planes, .arr, .block 16, .free, .block 8, .block 1, .out, .block 3, .disp] s (s.substituteSlot p j col) :=
    State.colSubWrite_keeps _ p _ false (State.rewriteAll_keeps _ (State.colSubWrite_keeps s p _ false (Keeps.rfl' _ s) (by decide))
      (by decide)) (by decide)
  exact hk.only .repair (by decide)

theorem addSub_reg (s : State) (e : Nat × Nat × Nat) (a : Nat) : (s.addSub e).reg a = s.reg a := rfl

theorem addSub_repair (s : State) (e : Nat × Nat × Nat) : (s.addSub e).repair.failed = s.repair.failed ∧
    (s.addSub e).repair.subs = s.repair.subs ++ [e] := ⟨rfl, rfl⟩

/-- A substitution that is ACTIVE, its monitor cleared, recorded and logged (R169 steps 4 and 5). -/
theorem recordSub_spec (u : State) (j col : Nat) (hact : (u.subOf p j).1 = 2) :
    let t := ((u.colmonClr p).addSub (p, j, col)).logEvent 0x04 p col
    t.repair.failed = u.repair.failed ∧ t.repair.subs = u.repair.subs ++ [(p, j, col)] ∧ (t.subOf p j).1 = 2 ∧
      t.fld (colmonReg p) 6 0 = 0 ∧ t.fld (colmonReg p) 15 8 = 0 := by
  intro t
  have hreg : ∀ a, t.reg a = (u.colmonClr p).reg a := fun a => (State.logEvent_reg _ _ _ _ a).trans (addSub_reg _ _ a)
  have hk : Keeps [.block 16] u (u.colmonClr p) := State.colmonClr_keeps u p (Keeps.rfl' _ u) (by decide)
  have hrep : (u.colmonClr p).repair = u.repair := hk.only .repair (by decide)
  obtain ⟨hfailed, hsubs⟩ := addSub_repair (u.colmonClr p) (p, j, col)
  obtain ⟨hcol, hcount⟩ := colmonClr_cleared u p
  have hsub : (u.colmonClr p).reg (Reg.act (colSubReg p)) = u.reg (Reg.act (colSubReg p)) :=
    colmonClr_regs u p _ (by simpa using act_ne (colmonReg_lt p)) (by rw [blockOf_act_colSubReg]; decide)
  refine ⟨?_, ?_, ?_, (State.fld_congr _ _ (hreg _)).trans hcol, (State.fld_congr _ _ (hreg _)).trans hcount⟩
  · rw [State.logEvent_repair, hfailed, hrep]
  · rw [State.logEvent_repair, hsubs, hrep]
  · rw [State.subOf_congr ((hreg _).trans hsub)]
    exact hact

theorem substituteColumn_repair (s : State) (p : Nat) (h : (s.subOf p 0).1 ≠ 2 ∨ (s.subOf p 1).1 ≠ 2) :
    ∃ t, exec (.substituteColumn p) s = .next t ∧ t.repair.failed = s.repair.failed ∧ (t.repair.subs = s.repair.subs ∨
      ∃ j, j < 2 ∧ t.repair.subs = s.repair.subs ++ [(p, j, s.fld (colmonReg p) 6 0)] ∧ (t.subOf p j).1 = 2 ∧
        t.fld (colmonReg p) 6 0 = 0 ∧ t.fld (colmonReg p) 15 8 = 0) := by
  rcases substituteColumn_cases s p h with he | ⟨j, hj, ⟨hact, he⟩ | he⟩
  · exact ⟨s, congrArg Host.Outcome.next he, rfl, .inl rfl⟩
  · obtain ⟨hfailed, hsubs, hslot, hcol, hcount⟩ := recordSub_spec _ j (s.fld (colmonReg p) 6 0) hact
    rw [substituteSlot_repair] at hfailed hsubs
    exact ⟨_, congrArg Host.Outcome.next he, hfailed, .inr ⟨j, hj, hsubs, hslot, hcol, hcount⟩⟩
  · have hrep := substituteSlot_repair s p j (s.fld (colmonReg p) 6 0)
    exact ⟨_, congrArg Host.Outcome.next he, by rw [hrep], .inl (by rw [hrep])⟩

/-! The columns a test found (R188) -/

theorem shadowFound_mapKept (s : State) (p : Nat) : MapKept s (s.shadowFound p) := by
  unfold State.shadowFound
  refine MapKept.foldl _ _ fun u x => ?_
  dsimp only
  split
  · exact colSubWrite_mapKept u p _ false
  · exact MapKept.refl u

theorem addSub_logEvent_mapKept (s : State) (e : Nat × Nat × Nat) (code d d2 : Nat) : MapKept s ((s.addSub e).logEvent code d d2) :=
  ⟨fun _ => rfl, fun _ _ => rfl, rfl, rfl⟩

theorem setSched_mapKept (s : State) (sc : Sched) : MapKept s { s with sched := sc } := ⟨fun _ => rfl, fun _ _ => rfl, rfl, rfl⟩

theorem activateFound_mapKept (s : State) (p : Nat) : MapKept s (s.activateFound p) := by
  unfold State.activateFound
  extract_lets s1
  have h1 : MapKept s s1 := by
    refine MapKept.foldl _ _ fun u x => ?_
    dsimp only
    split
    · exact (colSubWrite_mapKept u p _ false).trans (addSub_logEvent_mapKept _ _ _ _ _)
    · exact MapKept.refl u
  exact h1.trans (setSched_mapKept s1 _)

/-! ROTATION_STEP (R153, R187) -/

/-- Where the gap of row `r` moves: down to slot 0, then up to slot 8 (R187). -/
def State.nextGap (s : State) (r : Nat) : Nat :=
  let g := s.fld (Reg.act (rowMap r)) 3 0
  if g = 0 ∨ (r ∈ s.sched.rotUp ∧ g ≠ 8) then g + 1 else g - 1

theorem nextGap_spec (hg : s.fld (Reg.act (rowMap r)) 3 0 ≤ 8) : s.nextGap r ≤ 8 ∧
    (s.nextGap r + 1 = s.fld (Reg.act (rowMap r)) 3 0 ∨ s.fld (Reg.act (rowMap r)) 3 0 + 1 = s.nextGap r) := by
  unfold State.nextGap
  dsimp only
  split <;> omega

/-- A busy array or Traverser, a forced window or a failed Platform in the row keeps the gap where it is (R153, R175). -/
theorem rotationStep_held (h : s.arr.busy = true ∨ s.arr.suspended = true ∨ s.trv.held ≠ [] ∨ s.sched.holdIdle = true ∨ s.failedRow r) :
    s.rotationStep r = s := by
  unfold State.rotationStep
  refine if_pos ?_
  rcases h with h | h | h | h | ⟨q, hq, hr⟩
  · simp [h]
  · simp [h]
  · simp [h]
  · simp [h]
  · have hany : (s.repair.failed.any fun p => p / 9 == r) = true := List.any_eq_true.mpr ⟨q, hq, beq_iff_eq.mpr hr⟩
    simp [hany]

/-- The scheduler notes which way the gap walks, columns found by a test go into SHADOW, and the mirror is asked to start. -/
def State.beginMove (s : State) (r g t : Nat) (rotUp : List Nat) : State :=
  (({ s with sched := { s.sched with rotUp := rotUp } } : State).shadowFound (9 * r + g)).mirrorWrite
    (BitVec.ofNat 32 (2 ^ 12 + r * 256 + g * 16 + t))

/-- Every address is rewritten, which is the mirror's sweep, and the columns found become ACTIVE. -/
def State.endMove (s : State) (p : Nat) : State := s.rewriteAll.activateFound p

/-- Nothing keeps the gap of row `r` where it is, and nothing is being retired. -/
structure Rotates (s : State) (r : Nat) : Prop where
  row : r < 8
  idle : s.idleArray
  free : s.sched.holdIdle = false
  retire : s.sched.retire = none
  mirror : s.bit Reg.MIRROR_CTL 12 = false
  gap0 : s.fld (Reg.act (rowMap r)) 3 0 ≤ 8
  gap1 : s.fld (Reg.act (rowMap r)) 7 4 = 15
  sound : ¬ s.failedRow r

/-- At power-on every row rotates. -/
theorem reset_rotates : Rotates State.reset 0 := by
  refine ⟨by decide, reset_idleArray, rfl, rfl, by decide, by decide, by decide, ?_⟩
  rintro ⟨q, hq, -⟩
  exact nomatch hq

/-- A step of the rotation, one procedure after the other (R187, R188). -/
theorem Rotates.eq (h : Rotates s r) : ∃ rotUp, s.rotationStep r =
    (((s.beginMove r (s.fld (Reg.act (rowMap r)) 3 0) (s.nextGap r) rotUp).endMove (9 * r + s.fld (Reg.act (rowMap r)) 3 0)).prowMapWrite r
      (BitVec.ofNat 32 (240 + s.nextGap r)) false).bistStart (BitVec.ofNat 32 (256 + 9 * r + s.nextGap r)) := by
  obtain ⟨hbusy, hsusp, hheld, htest⟩ := h.idle
  have hup : ((s.sched.rotUp.contains r && s.fld (Reg.act (rowMap r)) 3 0 != 8) || s.fld (Reg.act (rowMap r)) 3 0 == 0) =
      decide (s.fld (Reg.act (rowMap r)) 3 0 = 0 ∨ (r ∈ s.sched.rotUp ∧ s.fld (Reg.act (rowMap r)) 3 0 ≠ 8)) := by
    simp only [Bool.decide_or, Bool.decide_and, Bool.or_comm, List.contains_eq_mem, ne_eq, decide_not, beq_eq_decide, bne]
  have hnext : (if decide (s.fld (Reg.act (rowMap r)) 3 0 = 0 ∨ (r ∈ s.sched.rotUp ∧ s.fld (Reg.act (rowMap r)) 3 0 ≠ 8)) = true then
      s.fld (Reg.act (rowMap r)) 3 0 + 1 else s.fld (Reg.act (rowMap r)) 3 0 - 1) = s.nextGap r := by
    simp only [State.nextGap, decide_eq_true_eq]
  have hsound : (s.repair.failed.any fun p => p / 9 == r) = false :=
    Bool.eq_false_iff.mpr fun ha => by
      obtain ⟨q, hq, hr⟩ := List.any_eq_true.mp ha
      exact h.sound ⟨q, hq, beq_iff_eq.mp hr⟩
  have hrow := h.row
  have hret := h.retire
  have hfree := h.free
  unfold State.rotationStep
  rw [hret, if_neg]
  · dsimp only [Option.filter]
    rw [hup, hnext]
    exact ⟨_, rfl⟩
  · simp [hbusy, hsusp, hheld, hsound, State.bistOwns, htest, hfree]
    omega

/-- With the row's gap at `g` and the mirror and the test idle, the mirror starts from the neighbouring slot `t`. -/
theorem beginMove_spec {g t : Nat} (rotUp : List Nat) (hr : r < 8) (hg : g ≤ 8) (ht : t ≤ 8) (hnext : t + 1 = g ∨ g + 1 = t)
    (hgap0 : s.fld (Reg.act (rowMap r)) 3 0 = g) (hgap1 : s.fld (Reg.act (rowMap r)) 7 4 = 15) (hidle : s.idleArray)
    (hmirror : s.bit Reg.MIRROR_CTL 12 = false) : (s.beginMove r g t rotUp).reg Reg.MIRROR_CTL = mirrorWord r g t ∧
      (s.beginMove r g t rotUp).reg Reg.BIST_STATUS = s.reg Reg.BIST_STATUS ∧ (s.beginMove r g t rotUp).arr.busy = false := by
  obtain ⟨hbusy, -, -, htest⟩ := hidle
  have hv : 2 ^ 12 + r * 256 + g * 16 + t < 2 ^ 32 := by omega
  have hen : (mirrorWord r g t).getLsbD 12 = true ∧ bitsOf (mirrorWord r g t) 10 8 = r ∧ bitsOf (mirrorWord r g t) 7 4 = g ∧
      bitsOf (mirrorWord r g t) 3 0 = t := by
    obtain ⟨h12, -, h10, h7, h3⟩ := mirrorWord_fields (row := r) (dst := g) (src := t) hr (by omega) (by omega)
    exact ⟨h12, h10, h7, h3⟩
  obtain ⟨h12, h10, h7, h3⟩ := hen
  have hk : MapKept s (({ s with sched := { s.sched with rotUp := rotUp } } : State).shadowFound (9 * r + g)) :=
    (setSched_mapKept s _).trans (shadowFound_mapKept _ _)
  unfold State.beginMove
  generalize ({ s with sched := { s.sched with rotUp := rotUp } } : State).shadowFound (9 * r + g) = u at hk
  have hlegal : u.mirrorLegal (bitsOf (mirrorWord r g t) 10 8) (bitsOf (mirrorWord r g t) 7 4) (bitsOf (mirrorWord r g t) 3 0) := by
    rw [h10, h7, h3]
    refine ⟨ht, hg, hnext, (State.fld_congr 7 4 (hk.map r)).trans hgap1, (State.fld_congr 3 0 (hk.map r)).trans hgap0, ?_,
      (hk.mirror 12 (by decide)).trans hmirror⟩
    rw [State.bistOwns, State.bit_congr 7 hk.test, htest, Bool.false_and]
  have heq : u.mirrorWrite (BitVec.ofNat 32 (2 ^ 12 + r * 256 + g * 16 + t)) = u.startMirror r g t := by
    have := State.mirrorWrite_legal h12 hlegal
    rwa [h10, h7, h3] at this
  rw [heq]
  refine ⟨?_, ?_, ?_⟩
  · rw [startMirror_reg, State.reg_setReg_same]
  · rw [startMirror_reg, State.reg_setReg_other _ _ (by decide)]
    exact hk.test
  · exact hk.busy.trans hbusy

theorem endMove_mapKept (s : State) (p : Nat) : MapKept s (s.endMove p) := (rewriteAll_mapKept s).trans (activateFound_mapKept _ p)

/-- A test that starts on a gap of row `r` under a new map. -/
theorem startBist_after_map {t : Nat} (hr : r < 8) (ht : t ≤ 8) (hmap : u.fld (Reg.act (rowMap r)) 3 0 = t)
    (hmirror : u.bit Reg.MIRROR_CTL 12 = false) (htest : u.bit Reg.BIST_STATUS 7 = false) :
    u.bistStart (BitVec.ofNat 32 (256 + 9 * r + t)) = u.startBist (9 * r + t) := by
  have hp : bitsOf (BitVec.ofNat 32 (256 + 9 * r + t)) 6 0 = 9 * r + t := by
    rw [bitsOf_ofNat (by omega)]
    omega
  have hlegal : u.bistLegal (9 * r + t) := by
    refine ⟨by omega, ?_, htest, fun hm => ?_⟩
    · rw [show (9 * r + t) / 9 = r by omega, show (9 * r + t) % 9 = t by omega, State.isGap, hmap]
      simp
    · rw [hmirror] at hm
      exact nomatch hm.1
  have heq := State.bistStart_legal (v := BitVec.ofNat 32 (256 + 9 * r + t)) (by rw [hp]; exact hlegal)
  rwa [hp] at heq

/-- A step of the rotation: the new map is in force, the mirror has ended and the test of the new gap has begun. -/
theorem rotationStep_spec (h : Rotates s r) : ∃ t, exec (.rotationStep r) s = .next t ∧
    t.fld (Reg.act (rowMap r)) 3 0 = s.nextGap r ∧ t.fld (Reg.act (rowMap r)) 7 4 = 15 ∧ t.pends 66 = true ∧
    t.bit Reg.MIRROR_CTL 12 = false ∧ t.bit Reg.BIST_STATUS 7 = true ∧ t.fld Reg.BIST_STATUS 6 0 = 9 * r + s.nextGap r := by
  obtain ⟨ht, hnext⟩ := nextGap_spec h.gap0
  have hr := h.row
  obtain ⟨rotUp, heq⟩ := h.eq
  generalize hg : s.fld (Reg.act (rowMap r)) 3 0 = g at heq hnext
  generalize s.nextGap r = x at heq ht hnext
  obtain ⟨hmir, htest, hbusy⟩ := beginMove_spec rotUp hr (hg ▸ h.gap0) ht hnext hg h.gap1 h.idle h.mirror
  have hend := endMove_mapKept (s.beginMove r g x rotUp) (9 * r + g)
  generalize (s.beginMove r g x rotUp).endMove (9 * r + g) = m at heq hend
  have hmapped := applyMap_applied m r (240 + x)
  have hwrite : m.prowMapWrite r (BitVec.ofNat 32 (240 + x)) false = m.applyMap r (240 + x) :=
    m.prowMapWrite_eq r (hend.busy.trans hbusy) (by omega) (by omega) (by omega) (by omega)
  obtain ⟨hgap0, hgap1⟩ := hmapped.gaps (by omega)
  rw [show (240 + x) % 16 = x by omega] at hgap0
  rw [show (240 + x) / 16 = 15 by omega] at hgap1
  have hoff : (m.applyMap r (240 + x)).bit Reg.MIRROR_CTL 12 = false := by
    refine hmapped.mirror (.inr ?_)
    obtain ⟨-, -, hrow, -, -⟩ := mirrorWord_fields (row := r) (dst := g) (src := x) hr (by omega) (by omega)
    rw [State.fld, bitsOf_congr fun i _ hi => hend.mirror i (by omega), hmir, hrow]
  have hidle : (m.applyMap r (240 + x)).bit Reg.BIST_STATUS 7 = false := by
    rw [State.bit_congr 7 (hmapped.test.trans (hend.test.trans htest))]
    obtain ⟨-, -, -, h7⟩ := h.idle
    exact h7
  have hpends := hmapped.pends
  rw [hwrite] at heq
  generalize m.applyMap r (240 + x) = u at heq hgap0 hgap1 hoff hidle hpends
  rw [startBist_after_map hr ht hgap0 hoff hidle] at heq
  obtain ⟨hstarted, hp, -⟩ := bistBusyWord_fields (p := 9 * r + x) (by omega)
  have hregs := startBist_regs u (9 * r + x)
  have hmapreg : (u.startBist (9 * r + x)).reg (Reg.act (rowMap r)) = u.reg (Reg.act (rowMap r)) := by
    have := rowMap_lt r
    have := rowMap_ge r
    refine hregs _ ?_ ?_
    · simp only [Reg.act, Reg.BIST_STATUS, Reg.BIST_CTL, List.mem_cons, List.not_mem_nil, or_false]
      omega
    · rw [blockOf_eq 16 1 (by decide) (by simp only [Reg.act]; omega)]
      decide
  refine ⟨u.startBist (9 * r + x), congrArg Host.Outcome.next heq, (State.fld_congr 3 0 hmapreg).trans hgap0,
    (State.fld_congr 7 4 hmapreg).trans hgap1, ?_, (State.bit_congr 12 (hregs _ (by decide) (by decide))).trans hoff, ?_, ?_⟩
  · have hk : Keeps [.block 16, .planes] u (u.startBist (9 * r + x)) :=
      State.fillPlatform_keeps _ _ _ _ (setReg_keeps _ _ (setFld_keeps _ _ _ _ (Keeps.rfl' _ u) (by decide)) (by decide)) (by decide)
    exact KeepsPending.of_keeps hk (by decide) 66 hpends
  · rw [State.bit, startBist_status, hstarted]
  · rw [State.fld, startBist_status, hp]

theorem rowMap_of_lt {n : Nat} (h : n < 8) : rowMap n = Reg.PROW_MAP + 4 * n := by rw [rowMap, Nat.mod_eq_of_lt h]

/-- Settles O21: the failure and the repeat on an idle array (`remapped_spec`), the substitution (`substituteColumn_cases`) and the
step of the rotation (`rotationStep_spec`). -/
theorem platformFailureAndRotation : Obligations.PlatformFailureAndRotation := by
  intro s quiet spent cleared
  refine ⟨fun p reason stops hp => ?_, fun p hp => ⟨fun h => ?_, fun hne hq => ?_, fun h0 h1 => ?_, fun h => ?_⟩, fun r hr => ?_⟩
  · rw [← rowMap_of_lt (show p / 9 < 8 by omega)]
    refine ⟨fun hdead => ?_, fun hdead hq hrow => ?_, fun hdead hq hrow hgap hne => ?_⟩
    · refine does_of_keeps (congrArg Host.Outcome.next (platformFailure_dead reason stops hdead))
        (State.logEvent_keeps _ _ _ _ (setBit_keeps _ _ _ (Keeps.rfl' _ s) (by decide)) (by decide)) ⟨?_, ?_⟩
      · exact (State.bit_congr 14 (State.logEvent_reg _ _ _ _ _)).trans (s.bit_setBit_same _ true (by decide))
      · exact ((RegsBut.refl _ s).setBit _ _ (by simp)).logEvent _ _ _
    · exact platformFailure_firstOfRow reason stops hq hdead hrow
    · exact platformFailure_secondOfRow reason stops hq hdead hrow hgap hne
  · exact congrArg Host.Outcome.next (stripRepeat_again h)
  · obtain ⟨t, hexec, hof, hspent, hcleared, hrep, hmap⟩ := stripRepeat_first hq hne
    exact ⟨t, hexec, hof, hspent, hcleared, hrep, fun n hn => rowMap_of_lt hn ▸ hmap n⟩
  · exact congrArg Host.Outcome.next (substituteColumn_retire h0 h1)
  · rw [← colmonReg_of_lt hp]
    exact substituteColumn_repair s p h
  · rw [← rowMap_of_lt hr]
    exact ⟨fun h => congrArg Host.Outcome.next (rotationStep_held h), fun hq hfree hret hmir hgap0 hgap1 hrow =>
      rotationStep_spec ⟨hr, hq, hfree, hret, hmir, hgap0, hgap1, hrow⟩⟩

end Sys2Proof.Machine
end

section
/-! Requests that a memory performs where they wait (O33, O34): the request afterwards, one equation for a read and one for a
write, and the bytes that a read of any alignment cuts from its words. -/

namespace Sys2Proof.Machine

variable {s u : State} {src tag : Nat} {x : Txn}

/-! The request once it is performed (R339) -/

/-- The state once request `src`, `tag` is performed with a response and its data. -/
def State.answer (u : State) (src tag : Nat) (r : Resp) (data : List Byte) : State :=
  u.updTxn src tag fun t => some (t.performed r data)

/-- Request `src`, `tag` has the response `r`. -/
def State.hasAnswer (t : State) (src tag : Nat) (r : Resp) : Prop :=
  ∃ y data, t.txn src tag = some y ∧ y.stage = .answered r data

/-- Changing the elements that `P` selects, so that it still selects them, changes the first of them. -/
theorem find?_filterMap_selected {α : Type} (P : α → Bool) (g : α → α) (hg : ∀ y, P (g y) = P y) (l : List α) :
    (l.filterMap fun t => if P t then some (g t) else some t).find? P = (l.find? P).map g := by
  induction l with
  | nil => rfl
  | cons y l ih => cases hy : P y <;> simp [hy, hg, ih]

/-- Request `src`, `tag` is `x`, a read or a write that waits at port `p`. -/
structure State.Awaits (s : State) (src tag : Nat) (x : Txn) (p : Nat) (write : Bool) : Prop where
  found : s.txn src tag = some x
  stage : x.stage = .delivered p
  cp : x.cp = false
  dir : x.write = write

/-- A performed request has its response, and that response's data. -/
theorem State.Awaits.answered {p : Nat} {write : Bool} (h : s.Awaits src tag x p write) (r : Resp) (data : List Byte) :
    ∃ y, (s.answer src tag r data).txn src tag = some y ∧ y.stage = .answered r data := by
  refine ⟨x.performed r data, ?_, by simp [Txn.performed, h.stage]⟩
  exact (find?_filterMap_selected _ (fun t => t.performed r data) (fun _ => rfl) s.jt.txns).trans (congrArg _ h.found)

theorem Zone.inList_of_cons {f g : Zone} {fs : List Zone} (h : f.inList (g :: fs) = false) : f.inList fs = false := by
  cases f <;> simp_all [Zone.inList]

/-- A command that performs a waiting request changes the requests, and what its access to the memory changes. -/
theorem does_answer {c : Instr} {fs : List Zone} {post : State → Prop} {p : Nat} {write : Bool} {r : Resp} {data : List Byte}
    (hx : s.Awaits src tag x p write) (h : exec c s = .next (u.answer src tag r data)) (hk : Keeps fs s u)
    (hjt : Zone.inList .jt fs = false)
    (hpost : (∃ y, (u.answer src tag r data).txn src tag = some y ∧ y.stage = .answered r data) →
      post (u.answer src tag r data)) : Does c s (.jt :: fs) post := by
  have hu : u.txn src tag = some x := by rw [State.txn, show u.jt = s.jt from hk.only .jt hjt]; exact hx.found
  have hk' : Keeps (.jt :: fs) s u := ⟨fun f hf => hk.only f (Zone.inList_of_cons hf), hk.canon, hk.queue, hk.out⟩
  exact does_of_keeps h (State.updTxn_keeps _ _ _ _ hk' (by simp [subF, Zone.inList]))
    (hpost (State.Awaits.answered ⟨hu, hx.stage, hx.cp, hx.dir⟩ r data))

/-! Performing it (R285, R286, R304, R317, R318) -/

/-- A command that performs a read that waits at a memory's port. -/
theorem does_waitingRead {c : Instr} {ports : Nat → Bool} {p : Nat} {r : Resp} {data : List Byte} {fs : List Zone}
    {post : State → Prop} (hx : s.Awaits src tag x p false) (hc : exec c s = .next (s.performHere src tag false ports []))
    (hp : ports p = true) (h48 : p ≠ 48) (hr : s.readAt p x.addr x.len = (u, r, data)) (hk : Keeps fs s u)
    (hjt : Zone.inList .jt fs = false)
    (hpost : (∃ y, (u.answer src tag r data).txn src tag = some y ∧ y.stage = .answered r data) →
      post (u.answer src tag r data)) : Does c s (.jt :: fs) post := by
  refine does_answer hx (hc.trans (congrArg Host.Outcome.next ?_)) hk hjt hpost
  simp [State.performHere, State.performTxn, hx.found, Txn.waits, hx.stage, hx.cp, hx.dir, hp, h48, hr, State.answer]

/-- A command that performs a write, without poisoned words, that waits at a memory's port. -/
theorem does_waitingWrite {c : Instr} {ports : Nat → Bool} {p : Nat} {met : List Nat} {r : Resp} {fs : List Zone}
    {post : State → Prop} (hx : s.Awaits src tag x p true) (hbad : x.bad = [])
    (hc : exec c s = .next (s.performHere src tag true ports met)) (hp : ports p = true) (h48 : p ≠ 48)
    (hr : s.writeAll p x.init x.addr met [] [] x.data = (u, r)) (hk : Keeps fs s u) (hjt : Zone.inList .jt fs = false)
    (hpost : (u.answer src tag r []).hasAnswer src tag r → post (u.answer src tag r [])) : Does c s (.jt :: fs) post := by
  refine does_answer hx (hc.trans (congrArg Host.Outcome.next ?_)) hk hjt fun ⟨y, hy, hstage⟩ => hpost ⟨y, _, hy, hstage⟩
  simp [State.performHere, State.performTxn, hx.found, Txn.waits, hx.stage, hx.cp, hx.dir, hp, h48, hbad, hr, State.answer]

/-- Of one response, the first in the order is that one. -/
theorem firstResp_one {order : List Resp} {r : Resp} (h : r = .ok ∨ r ∈ order) : firstResp order [r] = r := by
  rw [firstResp]
  cases hf : order.find? fun a => [r].contains a with
  | some y => simpa using List.find?_some hf
  | none =>
    have hnot : r ∉ order := fun hm => by simpa using List.find?_eq_none.mp hf r hm
    exact (h.resolve_right hnot).symm

/-- The response to one word is that of its request, unless it is a timeout, which no target gives. -/
theorem State.writeAll_one {port ini addr : Nat} {met : List Nat} {rivals : List (Nat × Nat × Word)} {d : Word64 × BitVec 8}
    {r : Resp} (h : s.writeAt port ini addr met rivals d = (u, r)) (hr : r ≠ .timeout) :
    s.writeAll port ini addr met [] rivals [d] = (u, r) := by
  have hfirst : firstResp [.decerr, .denied, .slverr, .narrow, .collided, .poison] [r] = r :=
    firstResp_one (by cases r <;> simp at hr ⊢)
  simp [State.writeAll, State.writeEach, h, hfirst]

/-! The bytes of a read (R8, R285) -/

theorem natLe_getElem? (n v : Nat) {j : Nat} (hj : j < n) : (natLe n v)[j]? = some (BitVec.ofNat 8 (v / 256 ^ j)) := by
  induction n generalizing v j with
  | zero => exact absurd hj (Nat.not_lt_zero j)
  | succ n ih =>
    cases j with
    | zero => simp [natLe]
    | succ j => rw [natLe, List.getElem?_cons_succ, ih _ (by omega), Nat.div_div_eq_div_mul, Nat.pow_succ']

/-- The bytes of words in a row: byte `k` is in word `k / 8`. -/
theorem flatMap_bytes_getElem? (ws : List Word64) (k : Nat) : (ws.flatMap fun w => natLe 8 w.toNat)[k]? =
    ws[k / 8]?.map fun w => w.extractLsb' (8 * (k % 8)) 8 := by
  induction ws generalizing k with
  | nil => simp
  | cons w ws ih =>
    rw [List.flatMap_cons]
    by_cases hk : k < 8
    · rw [List.getElem?_append_left (by rwa [natLe_length]), natLe_getElem? _ _ hk, Nat.div_eq_of_lt hk, Nat.mod_eq_of_lt hk]
      simp only [List.getElem?_cons_zero, Option.map_some, BitVec.extractLsb', Nat.shiftRight_eq_div_pow, Nat.pow_mul]
    · rw [List.getElem?_append_right (by rw [natLe_length]; omega), natLe_length, ih, show k / 8 = (k - 8) / 8 + 1 by omega,
        List.getElem?_cons_succ, show (k - 8) % 8 = k % 8 by omega]

theorem flatMap_bytes_length (ws : List Word64) : (ws.flatMap fun w => natLe 8 w.toNat).length = 8 * ws.length := by
  induction ws with
  | nil => rfl
  | cons w ws ih => rw [List.flatMap_cons, List.length_append, ih, natLe_length, List.length_cons]; omega

/-- A read of `len` bytes at offset `off` from words with the data `f`: its bytes in order, at any alignment. -/
theorem cutBytes_words (f : Nat → Word64) {off len : Nat} (hlen : 0 < len) :
    let ws := (List.range (wordSpan off len)).map fun j => f (off / 8 + j)
    (cutBytes ws off len).length = len ∧ ∀ i, i < len →
      (cutBytes ws off len)[i]? = some ((f ((off + i) / 8)).extractLsb' (8 * ((off + i) % 8)) 8) := by
  have hspan : wordSpan off len = (off + len - 1) / 8 - off / 8 + 1 := if_neg (by omega)
  refine ⟨?_, fun i hi => ?_⟩
  · simp only [cutBytes, List.length_take, List.length_drop, flatMap_bytes_length, List.length_map, List.length_range, hspan]
    omega
  · have hword : (off % 8 + i) / 8 < wordSpan off len := by omega
    simp only [cutBytes, List.getElem?_take, if_pos hi, List.getElem?_drop, flatMap_bytes_getElem?, List.getElem?_map,
      List.getElem?_range hword, Option.map_some]
    rw [show off / 8 + (off % 8 + i) / 8 = (off + i) / 8 by omega, show (off % 8 + i) % 8 = (off + i) % 8 by omega]

/-- The words that a read touches are those from its first byte's to its last byte's. -/
theorem mem_wordSpan {off len w : Nat} (hlen : 0 < len) :
    (∃ j, j < wordSpan off len ∧ w = off / 8 + j) ↔ off / 8 ≤ w ∧ w ≤ (off + len - 1) / 8 := by
  have hspan : wordSpan off len = (off + len - 1) / 8 - off / 8 + 1 := if_neg (by omega)
  constructor
  · rintro ⟨j, hj, rfl⟩; omega
  · rintro ⟨hlo, hhi⟩; exact ⟨w - off / 8, by omega, by omega⟩

/-! Bytes merged into a word (R304, R318) -/

theorem byteMask_getLsbD (n : Nat) {i : Nat} (hi : i < 64) : (0xFF#64 <<< (8 * n)).getLsbD i = decide (i / 8 = n) := by
  have hff : (0xFF#64).getLsbD (i - 8 * n) = decide (i - 8 * n < 8) := by
    rw [BitVec.getLsbD_ofNat, show (0xFF : Nat) = 2 ^ 8 - 1 from rfl, Nat.testBit_two_pow_sub_one, decide_eq_true (by omega),
      Bool.true_and]
  rw [BitVec.getLsbD_shiftLeft, hff, decide_eq_true hi, Bool.true_and]
  by_cases h : i / 8 = n
  · rw [decide_eq_true h, decide_eq_true (show i - 8 * n < 8 by omega), decide_eq_false (by omega)]; rfl
  · rw [decide_eq_false h]
    by_cases hlt : i < 8 * n
    · rw [decide_eq_true hlt]; rfl
    · rw [decide_eq_false (show ¬ i - 8 * n < 8 by omega), Bool.and_false]

theorem byteSelect_getLsbD (w new : Word64) (n : Nat) {i : Nat} (hi : i < 64) :
    ((w &&& ~~~(0xFF#64 <<< (8 * n))) ||| (new &&& (0xFF#64 <<< (8 * n)))).getLsbD i =
      if i / 8 = n then new.getLsbD i else w.getLsbD i := by
  simp only [BitVec.getLsbD_or, BitVec.getLsbD_and, BitVec.getLsbD_not, byteMask_getLsbD n hi]
  by_cases h : i / 8 = n <;> simp [h, hi]

/-- A merge takes the enabled bytes from the new word and the others from the old one. -/
theorem mergeBytes_getLsbD (old new : Word64) (be : BitVec 8) {i : Nat} (hi : i < 64) :
    (mergeBytes old new be).getLsbD i = if be.getLsbD (i / 8) then new.getLsbD i else old.getLsbD i := by
  have hpart : ∀ n, ((List.range n).foldl (fun w j =>
      if be.getLsbD j then (w &&& ~~~(0xFF#64 <<< (8 * j))) ||| (new &&& (0xFF#64 <<< (8 * j))) else w) old).getLsbD i =
      if i / 8 < n ∧ be.getLsbD (i / 8) = true then new.getLsbD i else old.getLsbD i := by
    intro n
    induction n with
    | zero => rw [if_neg (by omega)]; rfl
    | succ n ih =>
      rw [List.range_succ, List.foldl_append, List.foldl_cons, List.foldl_nil]
      by_cases hb : i / 8 = n
      · have hold := ih.trans (if_neg (by omega))
        cases hbe : be.getLsbD n
        · rw [if_neg (by decide), hold, if_neg (by simp [hb, hbe])]
        · rw [if_pos rfl, byteSelect_getLsbD _ _ _ hi, if_pos hb, if_pos ⟨by omega, by rw [hb, hbe]⟩]
      · have hlt : i / 8 < n + 1 ↔ i / 8 < n := by omega
        simp only [hlt, ← ih]
        split
        · rw [byteSelect_getLsbD _ _ _ hi, if_neg hb]
        · rfl
  rw [mergeBytes, hpart 8]
  simp only [show i / 8 < 8 by omega, true_and]

end Sys2Proof.Machine
end

section
/-! Proofs about the accesses to the scratchpad (O33): the words of a read one after the other, what accounting for an error and
a collision leave, and the words of a write. -/

namespace Sys2Proof.Machine

variable {s t u : State} {src tag : Nat} {x : Txn}

/-! Registers that keep their value -/

theorem RegsBut.satInc {ks : List Nat} {a : Nat} (h : RegsBut ks s t) (hi lo : Nat) (ha : a ∈ ks) :
    RegsBut ks s (t.satInc a hi lo) := by
  unfold State.satInc
  split
  · exact h.setFld _ _ _ ha
  · exact h

theorem RegsBut.record {ks : List Nat} {a : Nat} {fill : State → State} (h : RegsBut ks s t) (hf : RegsBut ks s (fill t))
    (ha : a ∈ ks) : RegsBut ks s (t.record a fill) := by
  unfold State.record
  split
  · exact h.setBit _ _ ha
  · exact hf.setBit _ _ ha

/-- The registers that show the uncorrectable words of kind `k` (R295). -/
def ueRegs (k : Nat) : List Nat := [kindReg Reg.UE_COUNT k, kindReg Reg.UE_HI k, kindReg Reg.UE_LO k]

theorem countUE_regs (s : State) (k addr syn : Nat) : RegsBut (ueRegs k) s (s.countUE k addr syn) := by
  have h : RegsBut (ueRegs k) s (s.satInc (kindReg Reg.UE_COUNT k) 31 0) := (RegsBut.refl _ s).satInc _ _ (by simp [ueRegs])
  exact h.record (((h.setReg _ (by simp [ueRegs])).setFld _ _ _ (by simp [ueRegs])).setFld _ _ _ (by simp [ueRegs]))
    (by simp [ueRegs])

/-- The registers that show collided writes (R323). -/
def collRegs : List Nat := [Reg.COLL_CNT, Reg.COLL_REC_HI, Reg.COLL_REC_LO]

theorem collide_regs (s : State) (ini addr : Nat) : RegsBut collRegs s (s.collide ini addr) := by
  have h : RegsBut collRegs s (s.satInc Reg.COLL_CNT 31 0) := (RegsBut.refl _ s).satInc _ _ (by simp [collRegs])
  exact (h.record (((h.setReg _ (by simp [collRegs])).setFld _ _ _ (by simp [collRegs])).setFld _ _ _ (by simp [collRegs]))
    (by simp [collRegs])).fire 56

theorem blockOf_remapReg (b e : Nat) : blockOf (remapReg b e) = 8 :=
  blockOf_eq 8 0 (by decide) (by simp only [remapReg, Reg.REMAP]; omega)

/-! The cells that words reach (R280, R297) -/

/-- From `s` to `t` every word of the scratchpad reaches the same cell, and every cell reads the same. -/
structure SameSp (s t : State) : Prop where
  key : ∀ w, t.spKey w = s.spKey w
  cell : ∀ k, t.spCell k = s.spCell k

theorem SameSp.trans (h : SameSp s t) (h' : SameSp t u) : SameSp s u :=
  ⟨fun w => (h'.key w).trans (h.key w), fun k => (h'.cell k).trans (h.cell k)⟩

theorem State.spKey_congr (h : ∀ b e, t.reg (remapReg b e) = s.reg (remapReg b e)) (w : Nat) : t.spKey w = s.spKey w := by
  simp only [State.spKey, State.remapOf, State.bit, State.fld, h]

theorem State.spCell_congr {fs : List Zone} (h : Keeps fs s t) (hsp : Zone.inList .sp fs = false)
    (hfree : Zone.inList .free fs = false) (k : Nat) : t.spCell k = s.spCell k := by
  obtain ⟨hcells, hbase⟩ := h.only .sp hsp
  have hf : t.free = s.free := h.only .free hfree
  simp only [State.spCell, cell72, hcells, hbase, hf]

/-- Registers that show errors are none of the remap entries. -/
theorem SameSp.of_regsBut {fs : List Zone} {ks : List Nat} (hk : Keeps fs s t) (hsp : Zone.inList .sp fs = false)
    (hfree : Zone.inList .free fs = false) (hr : RegsBut ks s t) (hks : ∀ a ∈ ks, a < Reg.REMAP) : SameSp s t := by
  refine ⟨State.spKey_congr fun b e => hr _ (fun hm => ?_) (by rw [blockOf_remapReg]; decide), State.spCell_congr hk hsp hfree⟩
  have := hks _ hm
  simp only [remapReg] at this
  omega

theorem countUE_fire_keeps (s : State) (k addr syn i : Nat) :
    Keeps [.block 8, .block 1, .out] s ((s.countUE k addr syn).fire i) :=
  State.fire_keeps _ _ (State.countUE_keeps _ _ _ _ (Keeps.rfl' _ s) (by decide)) (by decide)

theorem lt_remap_of_mem_ueRegs {k a : Nat} (h : a ∈ ueRegs k) : a < Reg.REMAP := by
  simp only [ueRegs, kindReg, List.mem_cons, List.not_mem_nil, or_false] at h
  simp only [Reg.UE_COUNT, Reg.UE_HI, Reg.UE_LO, Reg.REMAP] at *
  omega

theorem countUE_fire_sameSp (s : State) (k addr syn i : Nat) : SameSp s ((s.countUE k addr syn).fire i) :=
  .of_regsBut (countUE_fire_keeps s k addr syn i) (by decide) (by decide) ((countUE_regs s k addr syn).fire i)
    fun _ => lt_remap_of_mem_ueRegs

theorem collide_keeps (s : State) (ini addr : Nat) : Keeps [.block 8, .block 1, .out] s (s.collide ini addr) :=
  State.collide_keeps _ _ _ (Keeps.rfl' _ s) (by decide)

theorem collide_sameSp (s : State) (ini addr : Nat) : SameSp s (s.collide ini addr) :=
  .of_regsBut (collide_keeps s ini addr) (by decide) (by decide) (collide_regs s ini addr) (by decide)

/-! The words of a read (R285, R295) -/

/-- A read of scratchpad word `w` finds no error. -/
def State.spClean (s : State) (w : Nat) : Prop := (decode72 (s.spCell (s.spKey w))).2 = .clean

/-- A read of scratchpad word `w` finds it uncorrectable. -/
def State.spBad (s : State) (w : Nat) : Prop := ∃ syn, (decode72 (s.spCell (s.spKey w))).2 = .bad syn

theorem SameSp.spClean (h : SameSp s t) (w : Nat) : t.spClean w ↔ s.spClean w := by
  rw [State.spClean, h.key, h.cell, ← State.spClean.eq_def]

theorem SameSp.spBad (h : SameSp s t) (w : Nat) : t.spBad w ↔ s.spBad w := by
  rw [State.spBad, h.key, h.cell, ← State.spBad.eq_def]

/-- A read of an uncorrectable word counts it, fires source 52 and gives data that is not to be used (R285, R295). -/
theorem State.spReadWord_bad {w syn : Nat} (h : (decode72 (s.spCell (s.spKey w))).2 = .bad syn) :
    s.spReadWord w = ((s.countUE 0 (8 * w) syn).fire 52, (decode72 (s.spCell (s.spKey w))).1, true) := by
  have hw : 16 * (w / 16) + w % 16 = w := Nat.div_add_mod w 16
  cases hr : s.remapOf (w % 16) (w / 16) <;>
    simp only [State.spKey, hr] at h <;> simp [State.spReadWord, State.spReadCell, State.spKey, hr, hw, h]

theorem State.spReadWords_clean {n w : Nat} (h : ∀ j, j < n → s.spClean (w + j)) : s.spReadWords w n =
    (s, (List.range n).map fun j => (decode72 (s.spCell (s.spKey (w + j)))).1, false) := by
  induction n generalizing w with
  | zero => rfl
  | succ n ih =>
    have h0 : s.spClean w := h 0 (Nat.zero_lt_succ n)
    have ht : ∀ j, j < n → s.spClean (w + 1 + j) := fun j hj => by
      rw [Nat.add_assoc, Nat.add_comm 1 j]; exact h (j + 1) (by omega)
    rw [State.spReadWords, State.spReadWord_clean h0, ih ht, List.range_succ_eq_map, List.map_cons, List.map_map]
    simp [Function.comp_def, Nat.add_assoc, Nat.add_comm 1]

theorem State.spReadWord_sameSp {w : Nat} (h : s.spClean w ∨ s.spBad w) : SameSp s (s.spReadWord w).1 := by
  rcases h with h | ⟨syn, h⟩
  · rw [State.spReadWord_clean h]; exact ⟨fun _ => rfl, fun _ => rfl⟩
  · rw [State.spReadWord_bad h]; exact countUE_fire_sameSp s 0 _ syn 52

theorem State.spReadWord_keeps_of_bad {fs : List Zone} {s0 : State} {w : Nat} (hk : Keeps fs s0 s)
    (hF : subF [.block 8, .block 1, .out] fs = true) (h : s.spClean w ∨ s.spBad w) : Keeps fs s0 (s.spReadWord w).1 := by
  rcases h with h | ⟨syn, h⟩
  · rwa [State.spReadWord_clean h]
  · rw [State.spReadWord_bad h]
    exact State.fire_keeps _ _ (State.countUE_keeps _ _ _ _ hk (subF_trans (by decide) hF)) (subF_trans (by decide) hF)

/-- A read of words that are each clean or uncorrectable accounts for the uncorrectable ones alone. -/
theorem State.spReadWords_keeps_of_bad {fs : List Zone} {s0 : State} {n w : Nat} (hk : Keeps fs s0 s)
    (hF : subF [.block 8, .block 1, .out] fs = true) (h : ∀ j, j < n → s.spClean (w + j) ∨ s.spBad (w + j)) :
    Keeps fs s0 (s.spReadWords w n).1 := by
  induction n generalizing s w with
  | zero => exact hk
  | succ n ih =>
    have h0 : s.spClean w ∨ s.spBad w := h 0 (Nat.zero_lt_succ n)
    have hsame := State.spReadWord_sameSp h0
    refine ih (State.spReadWord_keeps_of_bad hk hF h0) fun j hj => ?_
    rw [hsame.spClean, hsame.spBad, Nat.add_assoc, Nat.add_comm 1 j]
    exact h (j + 1) (by omega)

/-- Where one of them is uncorrectable, the read says so and source 52 is pending. -/
theorem State.spReadWords_finds {n w j : Nat} (h : ∀ j, j < n → s.spClean (w + j) ∨ s.spBad (w + j)) (hj : j < n)
    (hbad : s.spBad (w + j)) : (s.spReadWords w n).2.2 = true ∧ (s.spReadWords w n).1.pends 52 = true := by
  induction n generalizing s w j with
  | zero => exact absurd hj (Nat.not_lt_zero j)
  | succ n ih =>
    have hsame : SameSp s (s.spReadWord w).1 := State.spReadWord_sameSp (h 0 (Nat.zero_lt_succ n))
    cases j with
    | zero =>
      obtain ⟨syn, hsyn⟩ := hbad
      have hw := State.spReadWord_bad hsyn
      refine ⟨by simp [State.spReadWords, show s.spReadWord w = _ from hw], ?_⟩
      refine spReadWords_keepsPending n _ (w + 1) 52 ?_
      rw [show s.spReadWord w = _ from hw]
      exact State.pends_fire_self _ 52
    | succ j =>
      have hnext : ∀ i, w + (i + 1) = w + 1 + i := fun i => by omega
      obtain ⟨hflag, hpend⟩ := ih (s := (s.spReadWord w).1) (w := w + 1) (j := j)
        (fun i hi => by rw [hsame.spClean, hsame.spBad, ← hnext]; exact h (i + 1) (by omega)) (by omega)
        (by rw [hsame.spBad, ← hnext]; exact hbad)
      exact ⟨by simp [State.spReadWords, hflag], hpend⟩

/-! A read (R285, R288) -/

theorem State.spRead_beyond {off len : Nat} (h : 0x800000 < off + len) :
    s.spRead off len = (s.useFree, .decerr, s.freeBytes len) := if_pos h

theorem State.spRead_filling {off len : Nat} (h : off + len ≤ 0x800000) (hfill : s.bit Reg.MEM_STAT 0 = true) :
    s.spRead off len = (s.useFree, .slverr, s.freeBytes len) := by
  rw [State.spRead, if_neg (Nat.not_lt.mpr h), if_pos hfill]

theorem State.spRead_idle {off len : Nat} (h : off + len ≤ 0x800000) (hfill : s.bit Reg.MEM_STAT 0 = false) :
    let r := s.spReadWords (off / 8) (wordSpan off len)
    s.spRead off len = if r.2.2 then (r.1.useFree, .poison, s.freeBytes len) else (r.1.useFree, .ok, cutBytes r.2.1 off len) := by
  rw [State.spRead, if_neg (Nat.not_lt.mpr h), if_neg (by simp [hfill])]

/-! The words of a write (R283, R286, R288) -/

theorem State.spWriteReq_filling {ini off : Nat} {met : List Nat} {data : List (Word64 × BitVec 8)}
    (hfill : s.bit Reg.MEM_STAT 0 = true) : s.spWriteReq ini off met data = (s, .slverr) := if_pos hfill

theorem State.spWriteReq_one {ini off : Nat} {met : List Nat} {d : Word64} {be : BitVec 8}
    (hfill : s.bit Reg.MEM_STAT 0 = false) : s.spWriteReq ini off met [(d, be)] =
      if 0x100000 ≤ off / 8 then (s, .decerr)
      else if be ≠ 0xFF then (s, .narrow)
      else if off / 8 ∈ met then (s.collide ini (8 * (off / 8)), .collided)
      else (s.spWrite (off / 8) d, .ok) := by
  rw [State.spWriteReq, if_neg (by simp [hfill])]
  by_cases hend : 0x100000 ≤ off / 8
  · simp [State.spWriteWords, hend, firstResp_one]
  · by_cases hbe : be = 0xFF#8
    · by_cases hmet : off / 8 ∈ met <;> simp [State.spWriteWords, hend, hbe, hmet, firstResp_one]
    · simp [State.spWriteWords, hend, hbe, firstResp_one]

/-- What a write of one word can do: nothing, a collision, or the write of its own word. -/
theorem State.spWriteReq_cases (s : State) (ini off : Nat) (met : List Nat) (d : Word64 × BitVec 8) :
    (s.spWriteReq ini off met [d]).1 = s ∨ (∃ addr, (s.spWriteReq ini off met [d]).1 = s.collide ini addr) ∨
      (s.spWriteReq ini off met [d]).1 = s.spWrite (off / 8) d.1 := by
  cases hfill : s.bit Reg.MEM_STAT 0 with
  | true => rw [State.spWriteReq_filling hfill]; exact .inl rfl
  | false =>
    obtain ⟨d, be⟩ := d
    rw [State.spWriteReq_one hfill]
    split
    · exact .inl rfl
    · split
      · exact .inl rfl
      · split
        · exact .inr (.inl ⟨_, rfl⟩)
        · exact .inr (.inr rfl)

theorem State.spKey_spWrite (s : State) (w : Nat) (d : Word64) (v : Nat) : (s.spWrite w d).spKey v = s.spKey v := rfl

theorem State.spCell_spWrite_same (s : State) (w : Nat) (d : Word64) : (s.spWrite w d).spCell (s.spKey w) = encode72 d := by
  simp [State.spWrite, State.setSpCell, State.spCell, cell72]

theorem State.spCell_spWrite_other {k w : Nat} (d : Word64) (h : k ≠ s.spKey w) : (s.spWrite w d).spCell k = s.spCell k := by
  simp only [State.spWrite, State.setSpCell, State.spCell, Store.get_set_other _ _ _ h]
  rfl

theorem State.spWriteReq_spKey (s : State) (ini off : Nat) (met : List Nat) (d : Word64 × BitVec 8) (v : Nat) :
    (s.spWriteReq ini off met [d]).1.spKey v = s.spKey v := by
  rcases s.spWriteReq_cases ini off met d with h | ⟨addr, h⟩ | h <;> rw [h]
  · exact (collide_sameSp s ini addr).key v
  · exact s.spKey_spWrite _ _ v

theorem State.spWriteReq_spCell_other {off k : Nat} (ini : Nat) (met : List Nat) (d : Word64 × BitVec 8)
    (h : k ≠ s.spKey (off / 8)) : (s.spWriteReq ini off met [d]).1.spCell k = s.spCell k := by
  rcases s.spWriteReq_cases ini off met d with he | ⟨addr, he⟩ | he <;> rw [he]
  · exact (collide_sameSp s ini addr).cell k
  · exact State.spCell_spWrite_other _ h

/-! A write request at the scratchpad's port -/

theorem State.writeAt_scratchpad (s : State) (ini addr : Nat) (met : List Nat) (d : Word64 × BitVec 8) :
    s.writeAt 57 ini addr met [] d = s.spWriteReq ini addr met [d] := if_pos rfl

theorem State.writeEach_scratchpad_cons (s : State) (ini addr : Nat) (met : List Nat) (i : Nat) (d : Word64 × BitVec 8)
    (data : List (Word64 × BitVec 8)) : (s.writeEach 57 ini addr met [] [] i (d :: data)).1 =
      ((s.spWriteReq ini (addr + 8 * i) met [d]).1.writeEach 57 ini addr met [] [] (i + 1) data).1 := by
  simp [State.writeEach, State.writeAt_scratchpad]

theorem State.writeEach_filling {ini addr : Nat} {met : List Nat} (hfill : s.bit Reg.MEM_STAT 0 = true) (i : Nat)
    (data : List (Word64 × BitVec 8)) :
    s.writeEach 57 ini addr met [] [] i data = (s, List.replicate data.length .slverr) := by
  induction data generalizing i with
  | nil => rfl
  | cons d data ih =>
    simp only [State.writeEach, List.contains_nil, Bool.false_eq_true, if_false, State.writeAt_scratchpad,
      State.spWriteReq_filling hfill, ih]
    rfl

theorem State.writeAll_filling {ini addr : Nat} {met : List Nat} {data : List (Word64 × BitVec 8)}
    (hfill : s.bit Reg.MEM_STAT 0 = true) (hdata : data ≠ []) : s.writeAll 57 ini addr met [] [] data = (s, .slverr) := by
  have hlen : data.length ≠ 0 := by simpa using hdata
  simp [State.writeAll, State.writeEach_filling hfill, firstResp, hlen]

theorem State.writeEach_scratchpad_keeps {s0 : State} {ini addr : Nat} {met : List Nat} (data : List (Word64 × BitVec 8))
    (i : Nat) (hk : Keeps [.sp, .block 8, .block 1, .out] s0 s) :
    Keeps [.sp, .block 8, .block 1, .out] s0 (s.writeEach 57 ini addr met [] [] i data).1 := by
  induction data generalizing s i with
  | nil => exact hk
  | cons d data ih =>
    rw [State.writeEach_scratchpad_cons]
    exact ih (i + 1) (State.spWriteReq_keeps _ _ _ _ _ hk (by decide))

/-- The words of a write change no cell but those that its own words reach. -/
theorem State.writeEach_spCell_other {ini addr k : Nat} {met : List Nat} (h8 : addr % 8 = 0) (data : List (Word64 × BitVec 8))
    (i : Nat) (h : ∀ j, j < data.length → k ≠ s.spKey (addr / 8 + (i + j))) :
    (s.writeEach 57 ini addr met [] [] i data).1.spCell k = s.spCell k := by
  induction data generalizing s i with
  | nil => rfl
  | cons d data ih =>
    have hword : (addr + 8 * i) / 8 = addr / 8 + (i + 0) := by omega
    rw [State.writeEach_scratchpad_cons]
    refine (ih (i + 1) fun j hj => ?_).trans (State.spWriteReq_spCell_other ini met d (hword ▸ h 0 (Nat.zero_lt_succ _)))
    rw [State.spWriteReq_spKey, Nat.add_right_comm i 1 j]
    exact h (j + 1) (Nat.succ_lt_succ hj)

/-- What a collided write leaves: the count and the record show it, and source 56 is pending (R284, R323). -/
theorem collide_spec (s : State) (ini addr : Nat) : (s.collide ini addr).pends 56 = true ∧
    ((s.collide ini addr).reg Reg.COLL_CNT).toNat = min ((s.reg Reg.COLL_CNT).toNat + 1) (2 ^ 32 - 1) ∧
    (s.collide ini addr).bit Reg.COLL_REC_HI 31 = true := by
  have hvalid : (s.satInc Reg.COLL_CNT 31 0).bit Reg.COLL_REC_HI 31 = s.bit Reg.COLL_REC_HI 31 :=
    State.bit_congr 31 (s.reg_satInc_other 31 0 (by decide))
  refine ⟨State.pends_fire_self _ 56, ?_⟩
  rw [State.collide, State.reg_fire _ _ (by decide), State.bit_fire _ _ _ (by decide), ← s.reg_satInc_word Reg.COLL_CNT]
  cases hv : s.bit Reg.COLL_REC_HI 31 with
  | true =>
    rw [State.record_of_valid _ (hvalid.trans hv)]
    exact ⟨by simp, by rw [State.bit_setBit_bit _ _ _ (by decide) (by decide), hvalid, hv]⟩
  | false =>
    rw [State.record_of_not_valid _ (hvalid.trans hv)]
    exact ⟨by simp, State.bit_setBit_same _ _ _ (by decide)⟩

/-! The commands -/

theorem exec_scratchpadRead (s : State) (src tag : Nat) :
    exec (.scratchpadRead src tag) s = .next (s.performHere src tag false (· == 57) []) := rfl

theorem exec_scratchpadWrite (s : State) (src tag : Nat) (met : List Nat) :
    exec (.scratchpadWrite src tag met) s = .next (s.performHere src tag true (· == 57) met) := rfl

section Read

variable (hx : s.Awaits src tag x 57 false)
include hx

theorem does_scratchpadRead {r : Resp} {data : List Byte} {fs : List Zone} {post : State → Prop}
    (hr : s.spRead x.addr x.len = (u, r, data)) (hk : Keeps fs s u) (hjt : Zone.inList .jt fs = false)
    (hpost : (∃ y, (u.answer src tag r data).txn src tag = some y ∧ y.stage = .answered r data) →
      post (u.answer src tag r data)) : Does (.scratchpadRead src tag) s (.jt :: fs) post :=
  does_waitingRead hx (exec_scratchpadRead s src tag) rfl (by decide) ((if_pos rfl).trans hr) hk hjt hpost

theorem scratchpadRead_clean (hlen : 0 < x.len) (hend : x.addr + x.len ≤ 0x800000) (hfill : s.bit Reg.MEM_STAT 0 = false)
    (hclean : ∀ w, x.addr / 8 ≤ w → w ≤ (x.addr + x.len - 1) / 8 → s.spClean w) :
    Does (.scratchpadRead src tag) s [.jt, .free] fun t => ∃ y bytes, t.txn src tag = some y ∧ y.stage = .answered .ok bytes ∧
      bytes.length = x.len ∧ ∀ i, i < x.len → bytes[i]? = some
        ((decode72 (s.spCell (s.spKey ((x.addr + i) / 8)))).1.extractLsb' (8 * ((x.addr + i) % 8)) 8) := by
  have hwords : ∀ j, j < wordSpan x.addr x.len → s.spClean (x.addr / 8 + j) := fun j hj => by
    obtain ⟨hlo, hhi⟩ := (mem_wordSpan hlen).mp ⟨j, hj, rfl⟩
    exact hclean _ hlo hhi
  have hread := State.spRead_idle hend hfill
  rw [State.spReadWords_clean hwords] at hread
  obtain ⟨hlength, hbytes⟩ := cutBytes_words (fun w => (decode72 (s.spCell (s.spKey w))).1) (off := x.addr) hlen
  exact does_scratchpadRead hx hread (State.useFree_keeps _ (Keeps.rfl' _ s) (by decide)) (by decide)
    fun ⟨y, hy, hstage⟩ => ⟨y, _, hy, hstage, hlength, hbytes⟩

theorem scratchpadRead_bad (hlen : 0 < x.len) (hend : x.addr + x.len ≤ 0x800000) (hfill : s.bit Reg.MEM_STAT 0 = false)
    (hbad : ∃ w, x.addr / 8 ≤ w ∧ w ≤ (x.addr + x.len - 1) / 8 ∧ s.spBad w)
    (hall : ∀ w, x.addr / 8 ≤ w → w ≤ (x.addr + x.len - 1) / 8 → s.spClean w ∨ s.spBad w) :
    Does (.scratchpadRead src tag) s [.jt, .free, .block 8, .block 1, .out] fun t =>
      t.hasAnswer src tag .poison ∧ t.pends 52 = true := by
  have hwords : ∀ j, j < wordSpan x.addr x.len → s.spClean (x.addr / 8 + j) ∨ s.spBad (x.addr / 8 + j) := fun j hj => by
    obtain ⟨hlo, hhi⟩ := (mem_wordSpan hlen).mp ⟨j, hj, rfl⟩
    exact hall _ hlo hhi
  obtain ⟨w, hlo, hhi, hw⟩ := hbad
  obtain ⟨j, hj, rfl⟩ := (mem_wordSpan hlen).mpr ⟨hlo, hhi⟩
  obtain ⟨hflag, hpend⟩ := State.spReadWords_finds hwords hj hw
  have hread := State.spRead_idle hend hfill
  simp only [hflag, if_true] at hread
  have hkeep := State.spReadWords_keeps_of_bad (fs := [.free, .block 8, .block 1, .out]) (Keeps.rfl' _ s) (by decide) hwords
  exact does_scratchpadRead hx hread (State.useFree_keeps _ hkeep (by decide)) (by decide)
    fun ⟨y, hy, hstage⟩ => ⟨⟨y, _, hy, hstage⟩, hpend⟩

/-- A read that gets no data: during a fill, or beyond the end. -/
theorem scratchpadRead_refused {r : Resp} (hr : s.spRead x.addr x.len = (s.useFree, r, s.freeBytes x.len)) :
    Does (.scratchpadRead src tag) s [.jt, .free] fun t => t.hasAnswer src tag r :=
  does_scratchpadRead hx hr (State.useFree_keeps _ (Keeps.rfl' _ s) (by decide)) (by decide)
    fun ⟨y, hy, hstage⟩ => ⟨y, _, hy, hstage⟩

end Read

section Write

variable {met : List Nat} (hx : s.Awaits src tag x 57 true) (hbad : x.bad = [])
include hx hbad

theorem does_scratchpadWrite {r : Resp} {fs : List Zone} {post : State → Prop}
    (hr : s.writeAll 57 x.init x.addr met [] [] x.data = (u, r)) (hk : Keeps fs s u) (hjt : Zone.inList .jt fs = false)
    (hpost : (u.answer src tag r []).hasAnswer src tag r → post (u.answer src tag r [])) :
    Does (.scratchpadWrite src tag met) s (.jt :: fs) post :=
  does_waitingWrite hx hbad (exec_scratchpadWrite s src tag met) rfl (by decide) hr hk hjt hpost

theorem scratchpadWrite_filling (hfill : s.bit Reg.MEM_STAT 0 = true) (hdata : x.data ≠ []) :
    Does (.scratchpadWrite src tag met) s [.jt] fun t => t.hasAnswer src tag .slverr :=
  does_scratchpadWrite hx hbad (State.writeAll_filling hfill hdata) (Keeps.rfl' _ s) (by decide) id

theorem scratchpadWrite_frame (h8 : x.addr % 8 = 0) :
    Does (.scratchpadWrite src tag met) s [.jt, .sp, .block 8, .block 1, .out] fun t => ∀ k,
      (∀ i, i < x.data.length → k ≠ s.spKey (x.addr / 8 + i)) → t.spCell k = s.spCell k := by
  refine does_scratchpadWrite hx hbad rfl (State.writeEach_scratchpad_keeps x.data 0 (Keeps.rfl' _ s)) (by decide)
    fun _ k hk => ?_
  refine State.writeEach_spCell_other h8 x.data 0 fun j hj => ?_
  rw [Nat.zero_add]
  exact hk j hj

section OneWord

variable {d : Word64} {be : BitVec 8} (hdata : x.data = [(d, be)])
include hdata

/-- A write of one word leads where the scratchpad takes that word. -/
theorem does_scratchpadWrite_one {r : Resp} {fs : List Zone} {post : State → Prop} (hr : r ≠ .timeout)
    (hone : s.spWriteReq x.init x.addr met [(d, be)] = (u, r)) (hk : Keeps fs s u) (hjt : Zone.inList .jt fs = false)
    (hpost : (u.answer src tag r []).hasAnswer src tag r → post (u.answer src tag r [])) :
    Does (.scratchpadWrite src tag met) s (.jt :: fs) post :=
  does_scratchpadWrite hx hbad (hdata ▸ State.writeAll_one ((State.writeAt_scratchpad s _ _ _ _).trans hone) hr) hk hjt hpost

theorem scratchpadWrite_ok (hfill : s.bit Reg.MEM_STAT 0 = false) (hend : x.addr / 8 < 0x100000) (hbe : be = 0xFF)
    (hmet : x.addr / 8 ∉ met) : Does (.scratchpadWrite src tag met) s [.jt, .sp] fun t =>
      t.hasAnswer src tag .ok ∧ t.spCell (t.spKey (x.addr / 8)) = encode72 d := by
  refine does_scratchpadWrite_one hx hbad hdata (r := .ok) (u := s.spWrite (x.addr / 8) d) (by decide) ?_
    (State.spWrite_keeps _ _ _ (Keeps.rfl' _ s) (by decide)) (by decide) fun h => ⟨h, s.spCell_spWrite_same _ d⟩
  rw [State.spWriteReq_one hfill, if_neg (Nat.not_le.mpr hend), if_neg (by simp [hbe]), if_neg hmet]

/-- A word that is not performed changes no cell: NARROW, or DECERR beyond the end. -/
theorem scratchpadWrite_refused {r : Resp} (hr : r ≠ .timeout) (hone : s.spWriteReq x.init x.addr met [(d, be)] = (s, r)) :
    Does (.scratchpadWrite src tag met) s [.jt] fun t => t.hasAnswer src tag r :=
  does_scratchpadWrite_one hx hbad hdata hr hone (Keeps.rfl' _ s) (by decide) id

theorem scratchpadWrite_collided (hfill : s.bit Reg.MEM_STAT 0 = false) (hend : x.addr / 8 < 0x100000) (hbe : be = 0xFF)
    (hmet : x.addr / 8 ∈ met) : Does (.scratchpadWrite src tag met) s [.jt, .block 8, .block 1, .out] fun t =>
      t.hasAnswer src tag .collided ∧ t.pends 56 = true ∧
      (t.reg Reg.COLL_CNT).toNat = min ((s.reg Reg.COLL_CNT).toNat + 1) (2 ^ 32 - 1) ∧ t.bit Reg.COLL_REC_HI 31 = true := by
  refine does_scratchpadWrite_one hx hbad hdata (r := .collided) (by decide) ?_
    (collide_keeps s x.init (8 * (x.addr / 8))) (by decide) fun h => ⟨h, collide_spec s _ _⟩
  rw [State.spWriteReq_one hfill, if_neg (Nat.not_le.mpr hend), if_neg (by simp [hbe]), if_pos hmet]

end OneWord

end Write

/-- Settles O33: what a read finds (`spReadWords_clean`, `spReadWords_finds`), and what a word of a write does
(`spWriteReq_cases`). -/
theorem scratchpadAccesses : Obligations.ScratchpadAccesses := by
  intro s src tag met answered data clean bad
  refine ⟨fun x hx hstage hcp hw hlen => ?_, fun x hx hstage hcp hw hbad h8 => ?_, fun hx => ⟨?_, ?_⟩⟩
  · have h : s.Awaits src tag x 57 false := ⟨hx, hstage, hcp, hw⟩
    exact ⟨scratchpadRead_clean h hlen, scratchpadRead_bad h hlen,
      fun hend hfill => scratchpadRead_refused h (State.spRead_filling hend hfill),
      fun hend => scratchpadRead_refused h (State.spRead_beyond hend)⟩
  · have h : s.Awaits src tag x 57 true := ⟨hx, hstage, hcp, hw⟩
    refine ⟨scratchpadWrite_filling h hbad, fun _ => scratchpadWrite_frame h hbad h8, fun d be hdata hfill =>
      ⟨scratchpadWrite_ok h hbad hdata hfill, fun hend hbe => scratchpadWrite_refused h hbad hdata (by decide) ?_,
        scratchpadWrite_collided h hbad hdata hfill, fun hend => scratchpadWrite_refused h hbad hdata (by decide) ?_⟩⟩
    · rw [State.spWriteReq_one hfill, if_neg (Nat.not_le.mpr hend), if_pos hbe]
    · rw [State.spWriteReq_one hfill, if_pos hend]
  · rw [exec_scratchpadRead, State.performHere, hx]
  · rw [exec_scratchpadWrite, State.performHere, hx]

end Sys2Proof.Machine
end

section
/-! Proofs about the writes of the secure region and the accesses to LPDDR5 (O34). -/

namespace Sys2Proof.Machine

variable {s u : State} {src tag : Nat} {x : Txn} {k : Nat} {d : Word64} {be : BitVec 8} {r : Resp}

/-! Cells after a write -/

theorem State.secCell_of_get {w : Word72} (h : Store.get (fun _ => s.mem.secBase) s.mem.sec k = some w) : s.secCell k = w := by
  rw [State.secCell, h]; rfl

theorem State.ddrCell_of_get {w : Word72} (h : Store.get (fun _ => none) s.mem.ddr k = some w) : s.ddrCell k = w := by
  rw [State.ddrCell, h]; rfl

theorem State.sec_setSecCell_same (s : State) (k : Nat) (w : Word72) :
    Store.get (fun _ => s.mem.secBase) (s.setSecCell k w).mem.sec k = some w := Store.get_set_same _ _ _ _

theorem State.sec_setSecCell_other (s : State) {k j : Nat} (w : Word72) (h : j ≠ k) :
    Store.get (fun _ => s.mem.secBase) (s.setSecCell k w).mem.sec j = Store.get (fun _ => s.mem.secBase) s.mem.sec j :=
  Store.get_set_other _ _ _ h

theorem State.secCell_setSecCell_other (s : State) {k j : Nat} (w : Word72) (h : j ≠ k) :
    (s.setSecCell k w).secCell j = s.secCell j := congrArg (cell72 s 1 j) (s.sec_setSecCell_other w h)

theorem State.ddr_setDdrCell_same (s : State) (k : Nat) (w : Word72) :
    Store.get (fun _ => none) (s.setDdrCell k w).mem.ddr k = some w := by
  rw [State.setDdrCell, Store.get_set_same]

theorem State.ddr_setDdrCell_other (s : State) {k j : Nat} (w : Word72) (h : j ≠ k) :
    Store.get (fun _ => none) (s.setDdrCell k w).mem.ddr j = Store.get (fun _ => none) s.mem.ddr j := by
  rw [State.setDdrCell, Store.get_set_other _ _ _ h]

theorem State.ddrCell_setDdrCell_other (s : State) {k j : Nat} (w : Word72) (h : j ≠ k) :
    (s.setDdrCell k w).ddrCell j = s.ddrCell j := congrArg (cell72 s 2 j) (s.ddr_setDdrCell_other w h)

/-! One word of the secure region (R295, R304, R308) -/

theorem State.secReadWord_clean (h : (decode72 (s.secCell k)).2 = .clean) :
    s.secReadWord k = (s, (decode72 (s.secCell k)).1, false) := by
  simp [State.secReadWord, h]

theorem State.secWriteWord_whole (hk : k < 0x8000) : s.secWriteWord k d 0xFF = (s.setSecCell k (encode72 d), .ok) := by
  rw [State.secWriteWord, if_neg (Nat.not_le.mpr hk), if_pos rfl]

theorem State.secWriteWord_half (hk : k < 0x8000) (hbe : be = 0x0F ∨ be = 0xF0) (h : (decode72 (s.secCell k)).2 = .clean) :
    s.secWriteWord k d be = ((s.setSecCell k (encode72 (mergeBytes (decode72 (s.secCell k)).1 d be))).useFree, .ok) := by
  have hff : be ≠ 0xFF := by rcases hbe with rfl | rfl <;> decide
  rw [State.secWriteWord, if_neg (Nat.not_le.mpr hk), if_neg hff, if_pos hbe, State.secReadWord_clean h]
  rfl

theorem State.secWriteWord_narrow (hk : k < 0x8000) (hff : be ≠ 0xFF) (hlo : be ≠ 0x0F) (hhi : be ≠ 0xF0) :
    s.secWriteWord k d be = (s, .narrow) := by
  rw [State.secWriteWord, if_neg (Nat.not_le.mpr hk), if_neg hff, if_neg (not_or.mpr ⟨hlo, hhi⟩)]

theorem State.secWriteReq_wiping {off : Nat} {data : List (Word64 × BitVec 8)} (h : s.bit Reg.MEM_STAT 2 = true) :
    s.secWriteReq off data = (s, .slverr) := if_pos h

theorem State.secWriteReq_one (hwipe : s.bit Reg.MEM_STAT 2 = false) (h : s.secWriteWord k d be = (u, r))
    (hr : r = .ok ∨ r ∈ [.decerr, .narrow, .poison]) : s.secWriteReq (8 * k) [(d, be)] = (u, r) := by
  simp [State.secWriteReq, hwipe, State.secWriteWords, h, firstResp_one hr]

theorem State.writeAt_secure (s : State) (ini k : Nat) (met : List Nat) (d : Word64 × BitVec 8) :
    s.writeAt 58 ini (0x1000000 + 8 * k) met [] d = s.secWriteReq (8 * k) [d] := by
  rw [State.writeAt, if_neg (by decide), if_pos rfl, Nat.add_sub_cancel_left]

theorem exec_secureRegionWrite (s : State) (src tag : Nat) :
    exec (.secureRegionWrite src tag) s = .next (s.performHere src tag true (· == 58) []) := rfl

section Secure

variable (hx : s.Awaits src tag x 58 true) (hbad : x.bad = []) (haddr : x.addr = 0x1000000 + 8 * k) (hdata : x.data = [(d, be)])
include hx hbad haddr hdata

/-- A write of one word leads where the secure region takes that word. -/
theorem does_secureWrite {fs : List Zone} {post : State → Prop} (hone : s.secWriteReq (8 * k) [(d, be)] = (u, r))
    (hr : r ≠ .timeout) (hk : Keeps fs s u) (hjt : Zone.inList .jt fs = false)
    (hpost : (u.answer src tag r []).hasAnswer src tag r → post (u.answer src tag r [])) :
    Does (.secureRegionWrite src tag) s (.jt :: fs) post := by
  refine does_waitingWrite hx hbad (exec_secureRegionWrite s src tag) rfl (by decide) ?_ hk hjt hpost
  rw [hdata, haddr]
  exact State.writeAll_one ((s.writeAt_secure _ k _ _).trans hone) hr

theorem secureWrite_wiping (hwipe : s.bit Reg.MEM_STAT 2 = true) :
    Does (.secureRegionWrite src tag) s [.jt] fun t => t.hasAnswer src tag .slverr :=
  does_secureWrite hx hbad haddr hdata (State.secWriteReq_wiping hwipe) (by decide) (Keeps.rfl' _ s) (by decide) id

variable (hk : k < 0x8000) (hwipe : s.bit Reg.MEM_STAT 2 = false)
include hk hwipe

theorem secureWrite_whole (hbe : be = 0xFF) : Does (.secureRegionWrite src tag) s [.jt, .sec] fun t =>
    t.hasAnswer src tag .ok ∧ t.secCell k = encode72 d ∧ ∀ j, j ≠ k → t.secCell j = s.secCell j := by
  subst hbe
  exact does_secureWrite hx hbad haddr hdata (State.secWriteReq_one hwipe (State.secWriteWord_whole hk) (.inl rfl)) (by decide)
    (State.setSecCell_keeps _ _ _ (Keeps.rfl' _ s) (by decide)) (by decide)
    fun h => ⟨h, State.secCell_of_get (s.sec_setSecCell_same k _), fun j hj => s.secCell_setSecCell_other _ hj⟩

theorem secureWrite_half (hbe : be = 0x0F ∨ be = 0xF0) (hclean : (decode72 (s.secCell k)).2 = .clean) :
    Does (.secureRegionWrite src tag) s [.jt, .sec, .free] fun t => t.hasAnswer src tag .ok ∧
      (∃ m, t.secCell k = encode72 m ∧ ∀ i, i < 64 → m.getLsbD i =
        if be.getLsbD (i / 8) then d.getLsbD i else (decode72 (s.secCell k)).1.getLsbD i) ∧
      ∀ j, j ≠ k → Store.get (fun _ => s.mem.secBase) t.mem.sec j = Store.get (fun _ => s.mem.secBase) s.mem.sec j :=
  does_secureWrite hx hbad haddr hdata (State.secWriteReq_one hwipe (State.secWriteWord_half hk hbe hclean) (.inl rfl))
    (by decide) (State.useFree_keeps _ (State.setSecCell_keeps _ _ _ (Keeps.rfl' _ s) (by decide)) (by decide)) (by decide)
    fun h => ⟨h, ⟨_, State.secCell_of_get (s.sec_setSecCell_same k _), fun _ => mergeBytes_getLsbD _ d be⟩,
      fun j hj => s.sec_setSecCell_other _ hj⟩

theorem secureWrite_narrow (hff : be ≠ 0xFF) (hlo : be ≠ 0x0F) (hhi : be ≠ 0xF0) :
    Does (.secureRegionWrite src tag) s [.jt] fun t => t.hasAnswer src tag .narrow :=
  does_secureWrite hx hbad haddr hdata
    (State.secWriteReq_one hwipe (State.secWriteWord_narrow hk hff hlo hhi) (.inr (by decide))) (by decide)
    (Keeps.rfl' _ s) (by decide) id

end Secure

/-! One word of LPDDR5 (R315, R317, R318) -/

/-- The data that a read of an LPDDR5 word without errors gives: through the code with inline SEC-DED, as stored without it. -/
def State.ddrData (s : State) (k : Nat) : Word64 :=
  if s.bit Reg.DDR_CFG 8 then (decode72 (s.ddrCell k)).1 else (s.ddrCell k).extractLsb' 0 64

theorem State.ddrReadWord_clean (h : s.bit Reg.DDR_CFG 8 = true → (decode72 (s.ddrCell k)).2 = .clean) :
    s.ddrReadWord k = (s, s.ddrData k, false) := by
  cases hc : s.bit Reg.DDR_CFG 8 with
  | false => simp [State.ddrReadWord, State.ddrData, hc]
  | true => simp [State.ddrReadWord, State.ddrData, hc, h hc]

theorem State.ddrWriteWord_beyond (h : s.ddrUsable < 8 * (k + 1)) : s.ddrWriteWord k d be = (s, .decerr) := if_pos h

theorem State.ddrWriteWord_whole (h : 8 * (k + 1) ≤ s.ddrUsable) :
    s.ddrWriteWord k d 0xFF = (s.setDdrCell k (encode72 d), .ok) := by
  rw [State.ddrWriteWord, if_neg (Nat.not_lt.mpr h), if_pos rfl]

theorem State.ddrWriteWord_merge (h : 8 * (k + 1) ≤ s.ddrUsable) (hff : be ≠ 0xFF) (h0 : be ≠ 0)
    (hclean : s.bit Reg.DDR_CFG 8 = true → (decode72 (s.ddrCell k)).2 = .clean) : s.ddrWriteWord k d be =
      ((s.setDdrCell k (encode72 (mergeBytes (s.ddrData k) d be))).useFree, .ok) := by
  rw [State.ddrWriteWord, if_neg (Nat.not_lt.mpr h), if_neg hff, if_neg h0, State.ddrReadWord_clean hclean]
  rfl

theorem State.ddrWriteReq_one (h : s.ddrWriteWord k d be = (u, r)) (hr : r = .ok ∨ r ∈ [.decerr, .poison]) :
    s.ddrWriteReq (8 * k) [(d, be)] = (u, r) := by
  simp [State.ddrWriteReq, State.ddrWriteWords, h, firstResp_one hr]

theorem State.writeAt_lpddr5 (s : State) {p : Nat} (hp : 60 ≤ p) (ini k : Nat) (met : List Nat) (d : Word64 × BitVec 8) :
    s.writeAt p ini (0x100000000 + 8 * k) met [] d = s.ddrWriteReq (8 * k) [d] := by
  rw [State.writeAt, if_neg (by omega), if_neg (by omega), if_pos hp, Nat.add_sub_cancel_left]

theorem exec_lpddr5Write (s : State) (src tag : Nat) :
    exec (.lpddr5Write src tag) s = .next (s.performHere src tag true (fun p => decide (60 ≤ p)) []) := rfl

theorem exec_lpddr5Read (s : State) (src tag : Nat) :
    exec (.lpddr5Read src tag) s = .next (s.performHere src tag false (fun p => decide (60 ≤ p)) []) := rfl

section Lpddr5Write

variable {p : Nat} (hx : s.Awaits src tag x p true) (hp : 60 ≤ p) (hbad : x.bad = []) (haddr : x.addr = 0x100000000 + 8 * k)
  (hdata : x.data = [(d, be)])
include hx hp hbad haddr hdata

/-- A write of one word leads where LPDDR5 takes that word. -/
theorem does_lpddr5Write {fs : List Zone} {post : State → Prop} (hone : s.ddrWriteWord k d be = (u, r))
    (hr : r = .ok ∨ r ∈ [.decerr, .poison]) (hk : Keeps fs s u) (hjt : Zone.inList .jt fs = false)
    (hpost : (u.answer src tag r []).hasAnswer src tag r → post (u.answer src tag r [])) :
    Does (.lpddr5Write src tag) s (.jt :: fs) post := by
  refine does_waitingWrite hx hbad (exec_lpddr5Write s src tag) (decide_eq_true hp) (by omega) ?_ hk hjt hpost
  rw [hdata, haddr]
  exact State.writeAll_one ((s.writeAt_lpddr5 hp _ k _ _).trans (State.ddrWriteReq_one hone hr)) (by rintro rfl; simp at hr)

theorem lpddr5Write_whole (h : 8 * (k + 1) ≤ s.ddrUsable) (hbe : be = 0xFF) : Does (.lpddr5Write src tag) s [.jt, .ddr] fun t =>
    t.hasAnswer src tag .ok ∧ t.ddrCell k = encode72 d ∧ ∀ j, j ≠ k → t.ddrCell j = s.ddrCell j := by
  subst hbe
  exact does_lpddr5Write hx hp hbad haddr hdata (State.ddrWriteWord_whole h) (.inl rfl)
    (State.setDdrCell_keeps _ _ _ (Keeps.rfl' _ s) (by decide)) (by decide)
    fun h => ⟨h, State.ddrCell_of_get (s.ddr_setDdrCell_same k _), fun j hj => s.ddrCell_setDdrCell_other _ hj⟩

theorem lpddr5Write_merge (h : 8 * (k + 1) ≤ s.ddrUsable) (hff : be ≠ 0xFF) (h0 : be ≠ 0)
    (hclean : s.bit Reg.DDR_CFG 8 = true → (decode72 (s.ddrCell k)).2 = .clean) :
    Does (.lpddr5Write src tag) s [.jt, .ddr, .free] fun t => t.hasAnswer src tag .ok ∧
      (∃ m, t.ddrCell k = encode72 m ∧ ∀ i, i < 64 → m.getLsbD i =
        if be.getLsbD (i / 8) then d.getLsbD i else (s.ddrData k).getLsbD i) ∧
      ∀ j, j ≠ k → Store.get (fun _ => none) t.mem.ddr j = Store.get (fun _ => none) s.mem.ddr j :=
  does_lpddr5Write hx hp hbad haddr hdata (State.ddrWriteWord_merge h hff h0 hclean) (.inl rfl)
    (State.useFree_keeps _ (State.setDdrCell_keeps _ _ _ (Keeps.rfl' _ s) (by decide)) (by decide)) (by decide)
    fun h => ⟨h, ⟨_, State.ddrCell_of_get (s.ddr_setDdrCell_same k _), fun _ => mergeBytes_getLsbD _ d be⟩,
      fun j hj => s.ddr_setDdrCell_other _ hj⟩

theorem lpddr5Write_beyond (h : s.ddrUsable < 8 * (k + 1)) :
    Does (.lpddr5Write src tag) s [.jt] fun t => t.hasAnswer src tag .decerr :=
  does_lpddr5Write hx hp hbad haddr hdata (State.ddrWriteWord_beyond h) (.inr (by decide)) (Keeps.rfl' _ s) (by decide) id

end Lpddr5Write

/-! A read of LPDDR5 (R315, R317) -/

theorem State.ddrReadWords_plain (hc : s.bit Reg.DDR_CFG 8 = false) (n w : Nat) :
    s.ddrReadWords w n = (s, (List.range n).map fun j => (s.ddrCell (w + j)).extractLsb' 0 64, false) := by
  induction n generalizing w with
  | zero => rfl
  | succ n ih =>
    have hread : s.ddrReadWord w = (s, (s.ddrCell w).extractLsb' 0 64, false) := by simp [State.ddrReadWord, hc]
    rw [State.ddrReadWords, hread, ih, List.range_succ_eq_map, List.map_cons, List.map_map]
    simp [Function.comp_def, Nat.add_assoc, Nat.add_comm 1]

theorem State.ddrRead_plain {off len : Nat} (h : off + len ≤ s.ddrUsable) (hc : s.bit Reg.DDR_CFG 8 = false) :
    s.ddrRead off len = (s.useFree, .ok,
      cutBytes ((List.range (wordSpan off len)).map fun j => (s.ddrCell (off / 8 + j)).extractLsb' 0 64) off len) := by
  rw [State.ddrRead, if_neg (Nat.not_lt.mpr h), State.ddrReadWords_plain hc]
  rfl

theorem State.ddrRead_beyond {off len : Nat} (h : s.ddrUsable < off + len) :
    s.ddrRead off len = (s.useFree, .decerr, s.freeBytes len) := if_pos h

/-- A byte of the data bits of a stored word. -/
theorem extractLsb'_data (w : Word72) {j : Nat} (hj : j < 8) :
    (w.extractLsb' 0 64).extractLsb' (8 * j) 8 = w.extractLsb' (8 * j) 8 := by
  rw [BitVec.extractLsb'_extractLsb'_of_le (by omega)]

section Lpddr5Read

variable {p : Nat} (hx : s.Awaits src tag x p false) (hp : 60 ≤ p)
include hx hp

theorem does_lpddr5Read {data : List Byte} {fs : List Zone} {post : State → Prop}
    (hr : s.ddrRead (x.addr - 0x100000000) x.len = (u, r, data)) (hk : Keeps fs s u) (hjt : Zone.inList .jt fs = false)
    (hpost : (∃ y, (u.answer src tag r data).txn src tag = some y ∧ y.stage = .answered r data) →
      post (u.answer src tag r data)) : Does (.lpddr5Read src tag) s (.jt :: fs) post := by
  refine does_waitingRead hx (exec_lpddr5Read s src tag) (decide_eq_true hp) (by omega) ?_ hk hjt hpost
  rw [State.readAt, if_neg (by omega), if_neg (by omega), if_pos hp]
  exact hr

theorem lpddr5Read_plain (hlen : 0 < x.len) (h : x.addr - 0x100000000 + x.len ≤ s.ddrUsable) (hc : s.bit Reg.DDR_CFG 8 = false) :
    Does (.lpddr5Read src tag) s [.jt, .free] fun t => ∃ y bytes, t.txn src tag = some y ∧ y.stage = .answered .ok bytes ∧
      bytes.length = x.len ∧ ∀ i, i < x.len → bytes[i]? = some ((s.ddrCell ((x.addr - 0x100000000 + i) / 8)).extractLsb'
        (8 * ((x.addr - 0x100000000 + i) % 8)) 8) := by
  obtain ⟨hlength, hbytes⟩ := cutBytes_words (fun w => (s.ddrCell w).extractLsb' 0 64) (off := x.addr - 0x100000000) hlen
  refine does_lpddr5Read hx hp (State.ddrRead_plain h hc) (State.useFree_keeps _ (Keeps.rfl' _ s) (by decide)) (by decide)
    fun ⟨y, hy, hstage⟩ => ⟨y, _, hy, hstage, hlength, fun i hi => (hbytes i hi).trans ?_⟩
  rw [extractLsb'_data _ (Nat.mod_lt _ (by decide))]

theorem lpddr5Read_beyond (h : s.ddrUsable < x.addr - 0x100000000 + x.len) :
    Does (.lpddr5Read src tag) s [.jt, .free] fun t => t.hasAnswer src tag .decerr :=
  does_lpddr5Read hx hp (State.ddrRead_beyond h) (State.useFree_keeps _ (Keeps.rfl' _ s) (by decide)) (by decide)
    fun ⟨y, hy, hstage⟩ => ⟨y, _, hy, hstage⟩

end Lpddr5Read

/-- Settles O34: the word of a write by its byte enables (`secWriteWord_whole`, `secWriteWord_half`, `ddrWriteWord_merge`), and
the bytes of a read (`cutBytes_words`). -/
theorem secureRegionAndLpddr5Accesses : Obligations.SecureRegionAndLpddr5Accesses := by
  intro s src tag x hx hcp hbad answered merged
  refine ⟨fun k d be hstage hw haddr hdata hk => ?_, fun p k d be hstage hp _ hw haddr hdata => ?_,
    fun p hstage hp _ hw _ hlen => ?_⟩
  · have h : s.Awaits src tag x 58 true := ⟨hx, hstage, hcp, hw⟩
    exact ⟨secureWrite_wiping h hbad haddr hdata, secureWrite_whole h hbad haddr hdata hk,
      secureWrite_half h hbad haddr hdata hk, secureWrite_narrow h hbad haddr hdata hk⟩
  · have h : s.Awaits src tag x p true := ⟨hx, hstage, hcp, hw⟩
    exact ⟨lpddr5Write_whole h hp hbad haddr hdata, lpddr5Write_merge h hp hbad haddr hdata,
      lpddr5Write_beyond h hp hbad haddr hdata⟩
  · have h : s.Awaits src tag x p false := ⟨hx, hstage, hcp, hw⟩
    exact ⟨lpddr5Read_plain h hp hlen, lpddr5Read_beyond h hp⟩

end Sys2Proof.Machine
end

section
/-! Proofs about the fill engine, the buckets, the error logs, the remap entries and the scrubber of the secure region (O35). -/

namespace Sys2Proof.Machine

variable {s t : State} {k b e u : Nat} {v : Word}

theorem kindReg_of_lt {r k : Nat} (hk : k < 4) : kindReg r k = r + 0x80 * k := by rw [kindReg, Nat.mod_eq_of_lt hk]

theorem remapReg_of_lt {b e : Nat} (hb : b < 16) (he : e < 16) : remapReg b e = Reg.REMAP + 4 * (16 * b + e) := by
  rw [remapReg, Nat.mod_eq_of_lt hb, Nat.mod_eq_of_lt he]

theorem blockOf_kindReg {r : Nat} (hlo : 0x8100 ≤ r) (hhi : r < 0x8180) (k : Nat) : blockOf (kindReg r k) = 8 :=
  blockOf_eq 8 0 (by decide) (by simp only [kindReg]; omega)

/-- A refused configuration write shows in MEM_STAT alone (R322). -/
theorem does_cfgRefused {c : Instr} (h : exec c s = .next s.cfgRefused) :
    Does c s [.block 8] fun t => t.bit Reg.MEM_STAT 4 = true ∧ RegsBut [Reg.MEM_STAT] s t :=
  does_of_keeps h (State.cfgRefused_keeps _ (Keeps.rfl' _ s) (by decide))
    ⟨s.bit_setBit_same _ true (by decide), (RegsBut.refl _ s).setBit _ _ (by simp)⟩

/-! The fill engine (R288) -/

theorem memFillStart_does (s : State) :
    Does .memFillStart s [.block 8] fun t => t.bit Reg.MEM_STAT 0 = true ∧ RegsBut [Reg.MEM_STAT] s t :=
  does_of_keeps rfl (State.memFillStart_keeps _ (Keeps.rfl' _ s) (by decide))
    ⟨s.bit_setBit_same _ true (by decide), (RegsBut.refl _ s).setBit _ _ (by simp)⟩

theorem exec_fillDone (s : State) : exec .fillDone s = .next s.fillDone := rfl

/-- The scratchpad with every word and spare word 0. -/
def State.spZero (s : State) : State := { s with mem := { s.mem with sp := [], spBase := some 0 } }

theorem State.fillDone_busy (h : s.bit Reg.MEM_STAT 0 = true) :
    s.fillDone = ((s.spZero.setBit Reg.MEM_STAT 0 false).setBit Reg.MEM_STAT 1 true).fire 59 := if_pos h

theorem State.fillDone_idle (h : s.bit Reg.MEM_STAT 0 = false) : s.fillDone = s := if_neg (by simp [h])

theorem State.spCell_of_zero (hsp : s.mem.sp = []) (hbase : s.mem.spBase = some 0) (k : Nat) : s.spCell k = 0 := by
  simp [State.spCell, cell72, hsp, hbase, Store.get]

theorem fillDone_does (h : s.bit Reg.MEM_STAT 0 = true) : Does .fillDone s [.block 1, .out, .block 8, .sp] fun t =>
    (∀ k, t.spCell k = 0) ∧ t.bit Reg.MEM_STAT 0 = false ∧ t.bit Reg.MEM_STAT 1 = true ∧ t.pends 59 = true ∧
      RegsBut [Reg.MEM_STAT] s t := by
  refine does_of_keeps (exec_fillDone s) (State.fillDone_keeps _ (Keeps.rfl' _ s) (by decide)) ?_
  rw [State.fillDone_busy h]
  have hzero : RegsBut [Reg.MEM_STAT] s s.spZero := fun _ _ _ => rfl
  refine ⟨State.spCell_of_zero (by simp [State.spZero]) (by simp [State.spZero]), ?_, ?_, State.pends_fire_self _ 59,
    ((hzero.setBit _ _ (by simp)).setBit _ _ (by simp)).fire 59⟩
  · rw [State.bit_fire _ _ _ (by decide), State.bit_setBit_bit _ _ _ (by decide) (by decide),
      State.bit_setBit_same _ _ _ (by decide)]
  · rw [State.bit_fire _ _ _ (by decide), State.bit_setBit_same _ _ _ (by decide)]

/-! Buckets and logs (R292 to R294, R327) -/

theorem exec_bucketLeak (s : State) (k : Nat) : exec (.bucketLeak k) s =
    .next (s.setFld (kindReg Reg.BKT_STAT k) 7 0 (s.fld (kindReg Reg.BKT_STAT k) 7 0 - 1)) := rfl

theorem bucketLeak_does (s : State) (k : Nat) : Does (.bucketLeak k) s [.block 8] fun t =>
    t.fld (kindReg Reg.BKT_STAT k) 7 0 = s.fld (kindReg Reg.BKT_STAT k) 7 0 - 1 ∧
      t.bit (kindReg Reg.BKT_STAT k) 31 = s.bit (kindReg Reg.BKT_STAT k) 31 ∧ RegsBut [kindReg Reg.BKT_STAT k] s t := by
  have hlt : s.fld (kindReg Reg.BKT_STAT k) 7 0 < 2 ^ 8 := bitsOf_lt _ 7 0
  refine does_of_keeps (exec_bucketLeak s k) (setFld_keeps _ _ _ _ (Keeps.rfl' _ s)
    (by rw [blockOf_kindReg (by decide) (by decide)]; decide)) ⟨?_, ?_, (RegsBut.refl _ s).setFld _ _ _ (by simp)⟩
  · rw [State.fld_setFld_same _ _ _ (by decide) (by decide)]
    exact Nat.mod_eq_of_lt (by omega)
  · exact State.bit_setFld_disjoint _ _ _ (by decide) (by decide) (by decide)

theorem exec_bktCfgWrite (s : State) (k : Nat) (v : Word) : exec (.bktCfgWrite k v) s = .next (s.bktCfgWrite k v) := rfl

/-- What BKT_CFG takes (R294): a threshold other than 0 and a LEAK_MS from 1 to 1,000. -/
def bktLegal (v : Word) : Prop := bitsOf v 7 0 ≠ 0 ∧ 1 ≤ bitsOf v 25 16 ∧ bitsOf v 25 16 ≤ 1000

theorem State.bktCfgWrite_legal (h : bktLegal v) : s.bktCfgWrite k v =
    ((s.setFld (kindReg Reg.BKT_CFG k) 7 0 (bitsOf v 7 0)).setFld (kindReg Reg.BKT_CFG k) 25 16 (bitsOf v 25 16)).setFld
      (kindReg Reg.BKT_STAT k) 7 0 0 := by
  obtain ⟨hthresh, hlo, hhi⟩ := h
  exact if_neg (by omega)

theorem State.bktCfgWrite_illegal (h : ¬ bktLegal v) : s.bktCfgWrite k v = s.cfgRefused := by
  rw [bktLegal] at h
  exact if_pos (by omega)

theorem bktCfgWrite_does (k : Nat) (h : bktLegal v) : Does (.bktCfgWrite k v) s [.block 8] fun t =>
    t.fld (kindReg Reg.BKT_CFG k) 7 0 = bitsOf v 7 0 ∧ t.fld (kindReg Reg.BKT_CFG k) 25 16 = bitsOf v 25 16 ∧
      t.fld (kindReg Reg.BKT_STAT k) 7 0 = 0 ∧ RegsBut [kindReg Reg.BKT_CFG k, kindReg Reg.BKT_STAT k] s t := by
  have hne : kindReg Reg.BKT_CFG k ≠ kindReg Reg.BKT_STAT k := by simp [kindReg]
  refine does_of_keeps (exec_bktCfgWrite s k v) (State.bktCfgWrite_keeps _ _ _ (Keeps.rfl' _ s) (by decide)) ?_
  rw [State.bktCfgWrite_legal h]
  refine ⟨?_, ?_, State.fld_setFld_same _ _ _ (by decide) (by decide),
    (((RegsBut.refl _ s).setFld _ _ _ (by simp)).setFld _ _ _ (by simp)).setFld _ _ _ (by simp)⟩
  · rw [State.fld_setFld_other _ _ _ _ _ _ hne, State.fld_setFld_disjoint _ _ _ (by decide) (by decide) (by decide),
      State.fld_setFld_same _ _ _ (by decide) (by decide)]
    exact Nat.mod_eq_of_lt (bitsOf_lt v 7 0)
  · rw [State.fld_setFld_other _ _ _ _ _ _ hne, State.fld_setFld_same _ _ _ (by decide) (by decide)]
    exact Nat.mod_eq_of_lt (bitsOf_lt v 25 16)

theorem exec_logStatAck (s : State) (k : Nat) (v : Word) : exec (.logStatAck k v) s = .next (s.logAck k v) := rfl

/-- A write of 1 to a W1C bit clears it, and the fields beside it stay. -/
theorem clearBit_fields (s : State) (a : Nat) (c : Bool) {n : Nat} (hn : n < 32) :
    (if c then s.setBit a n false else s).bit a n = (s.bit a n && !c) ∧
      ∀ hi lo, hi < n ∨ n < lo → (if c then s.setBit a n false else s).fld a hi lo = s.fld a hi lo := by
  cases c with
  | false => simp
  | true => exact ⟨by simp [State.bit_setBit_same s a false hn], fun hi lo h => s.fld_setBit_disjoint a false hn h⟩

theorem RegsBut.clearBit {ks : List Nat} {a : Nat} (h : RegsBut ks s t) (c : Bool) (n : Nat) (ha : a ∈ ks) :
    RegsBut ks s (if c then t.setBit a n false else t) := by
  split
  · exact h.setBit _ _ ha
  · exact h

theorem logStatAck_does (s : State) (k : Nat) (v : Word) :
    let r := kindReg Reg.LOG_STAT k
    let n := min (bitsOf v 19 16) (s.fld r 11 8)
    Does (.logStatAck k v) s [.block 8] fun t => t.fld r 11 8 = s.fld r 11 8 - n ∧ t.fld r 2 0 = (s.fld r 2 0 + n) % 8 ∧
      t.bit r 31 = (s.bit r 31 && !v.getLsbD 31) ∧ RegsBut [r] s t := by
  intro r n
  have hlt : s.fld r 11 8 < 2 ^ 4 := bitsOf_lt _ 11 8
  refine does_of_keeps (exec_logStatAck s k v) (State.logAck_keeps _ _ _ (Keeps.rfl' _ s) (by decide)) ?_
  have heq : s.logAck k v = if v.getLsbD 31 then
      ((s.setFld r 2 0 ((s.fld r 2 0 + n) % 8)).setFld r 11 8 (s.fld r 11 8 - n)).setBit r 31 false
    else (s.setFld r 2 0 ((s.fld r 2 0 + n) % 8)).setFld r 11 8 (s.fld r 11 8 - n) := rfl
  obtain ⟨hbit, hfld⟩ := clearBit_fields ((s.setFld r 2 0 ((s.fld r 2 0 + n) % 8)).setFld r 11 8 (s.fld r 11 8 - n)) r
    (v.getLsbD 31) (n := 31) (by decide)
  rw [heq]
  refine ⟨?_, ?_, ?_, (((RegsBut.refl _ s).setFld _ _ _ (by simp)).setFld _ _ _ (by simp)).clearBit _ _ (by simp)⟩
  · rw [hfld _ _ (by decide), State.fld_setFld_same _ _ _ (by decide) (by decide)]
    exact Nat.mod_eq_of_lt (by omega)
  · rw [hfld _ _ (by decide), State.fld_setFld_disjoint _ _ _ (by decide) (by decide) (by decide),
      State.fld_setFld_same _ _ _ (by decide) (by decide)]
    exact Nat.mod_eq_of_lt (Nat.mod_lt _ (by decide))
  · rw [hbit, State.bit_setFld_disjoint _ _ _ (by decide) (by decide) (by decide),
      State.bit_setFld_disjoint _ _ _ (by decide) (by decide) (by decide)]

/-! Remap entries (R299) -/

theorem exec_remapWrite (s : State) (b e : Nat) (v : Word) : exec (.remapWrite b e v) s = .next (s.remapWrite b e v) := rfl

/-- Another valid entry of the bank names word index `w`. -/
def State.remapNamed (s : State) (b e w : Nat) : Prop :=
  ∃ i, i < 16 ∧ i ≠ e ∧ s.bit (remapReg b i) 31 = true ∧ s.fld (remapReg b i) 15 0 = w

/-- What REMAPb_e takes: before the first fill, a WORD that no other valid entry of the bank names, and not HW cleared. -/
def State.remapLegal (s : State) (b e : Nat) (v : Word) : Prop :=
  s.bit Reg.MEM_STAT 0 = false ∧ s.bit Reg.MEM_STAT 1 = false ∧ ¬ s.remapNamed b e (bitsOf v 15 0) ∧
    (s.bit (remapReg b e) 30 = true → v.getLsbD 30 = true)

theorem State.remapNamed_iff (s : State) (b e w : Nat) : s.remapNamed b e w ↔
    ((List.range 16).any fun i => i != e && s.bit (remapReg b i) 31 && s.fld (remapReg b i) 15 0 == w) = true := by
  simp [State.remapNamed, and_assoc]

theorem State.remapWrite_legal (h : s.remapLegal b e v) : s.remapWrite b e v =
    (s.setBit (remapReg b e) 31 (v.getLsbD 31)).setFld (remapReg b e) 15 0 (bitsOf v 15 0) := by
  obtain ⟨hbusy, hdone, hnamed, hhw⟩ := h
  rw [State.remapNamed_iff, Bool.not_eq_true] at hnamed
  refine if_neg ?_
  rw [hbusy, hdone, hnamed]
  simpa using hhw

theorem State.remapWrite_illegal (h : ¬ s.remapLegal b e v) : s.remapWrite b e v = s.cfgRefused := by
  refine if_pos ?_
  by_contra hc
  simp only [Bool.not_eq_true, Bool.or_eq_false_iff] at hc
  obtain ⟨⟨⟨hbusy, hdone⟩, hnamed⟩, hhw⟩ := hc
  exact h ⟨hbusy, hdone, by rw [State.remapNamed_iff, hnamed]; decide, by simpa using hhw⟩

theorem remapWrite_does (h : s.remapLegal b e v) : Does (.remapWrite b e v) s [.block 8] fun t =>
    t.bit (remapReg b e) 31 = v.getLsbD 31 ∧ t.fld (remapReg b e) 15 0 = bitsOf v 15 0 ∧
      t.bit (remapReg b e) 30 = s.bit (remapReg b e) 30 ∧ RegsBut [remapReg b e] s t := by
  refine does_of_keeps (exec_remapWrite s b e v) (State.remapWrite_keeps _ _ _ _ (Keeps.rfl' _ s) (by decide)) ?_
  rw [State.remapWrite_legal h]
  refine ⟨?_, ?_, ?_, ((RegsBut.refl _ s).setBit _ _ (by simp)).setFld _ _ _ (by simp)⟩
  · rw [State.bit_setFld_disjoint _ _ _ (by decide) (by decide) (by decide), State.bit_setBit_same _ _ _ (by decide)]
  · rw [State.fld_setFld_same _ _ _ (by decide) (by decide)]
    exact Nat.mod_eq_of_lt (bitsOf_lt v 15 0)
  · rw [State.bit_setFld_disjoint _ _ _ (by decide) (by decide) (by decide),
      State.bit_setBit_bit _ _ _ (by decide) (by decide)]

/-! Accounting for an error of the secure region (R291, R295) -/

/-- The registers of the error log of kind `k`. -/
def logRegs (k : Nat) : List Nat :=
  kindReg Reg.LOG_STAT k :: (List.range 8).flatMap fun i => [kindReg Reg.LOG_LO k + 8 * i, kindReg Reg.LOG_HI k + 8 * i]

theorem mem_logRegs {a : Nat} : a ∈ logRegs k ↔
    a = kindReg Reg.LOG_STAT k ∨ ∃ i, i < 8 ∧ (a = kindReg Reg.LOG_LO k + 8 * i ∨ a = kindReg Reg.LOG_HI k + 8 * i) := by
  simp [logRegs]

theorem logCE_regs (s : State) (k addr syn : Nat) : RegsBut (logRegs k) s (s.logCE k addr syn) := by
  have hstat : kindReg Reg.LOG_STAT k ∈ logRegs k := mem_logRegs.mpr (.inl rfl)
  have hi : (s.fld (kindReg Reg.LOG_STAT k) 2 0 + s.fld (kindReg Reg.LOG_STAT k) 11 8) % 8 < 8 := Nat.mod_lt _ (by decide)
  have hlo := (mem_logRegs (k := k)).mpr (.inr ⟨_, hi, .inl rfl⟩)
  have hhi := (mem_logRegs (k := k)).mpr (.inr ⟨_, hi, .inr rfl⟩)
  unfold State.logCE
  dsimp only
  split
  · exact ((((RegsBut.refl _ s).setReg _ hlo).setReg _ hhi).setFld _ _ _ hstat).setBit _ _ hstat
  · exact (((RegsBut.refl _ s).setReg _ hlo).setReg _ hhi).setFld _ _ _ hstat

theorem bucketUp_regs (s : State) (k : Nat) : RegsBut [kindReg Reg.BKT_STAT k] s (s.bucketUp k) := by
  unfold State.bucketUp
  split
  · exact RegsBut.refl _ s
  · split
    · exact (((RegsBut.refl _ s).setFld _ _ _ (by simp)).setBit _ _ (by simp)).fire _
    · exact (RegsBut.refl _ s).setFld _ _ _ (by simp)

/-- A counted correctable error changes CE_COUNT, the log and the bucket of its kind. -/
theorem countCE_regs (s : State) (k addr syn : Nat) :
    RegsBut (kindReg Reg.CE_COUNT k :: kindReg Reg.BKT_STAT k :: logRegs k) s (s.countCE k addr syn) :=
  (((RegsBut.refl _ s).satInc 31 0 (by simp)).trans ((logCE_regs _ k addr syn).mono (by simp))).trans
    ((bucketUp_regs _ k).mono (by simp))

theorem countCE_count (s : State) (k addr syn : Nat) : ((s.countCE k addr syn).reg (kindReg Reg.CE_COUNT k)).toNat =
    min ((s.reg (kindReg Reg.CE_COUNT k)).toNat + 1) (2 ^ 32 - 1) := by
  have hlater : RegsBut (kindReg Reg.BKT_STAT k :: logRegs k) (s.satInc (kindReg Reg.CE_COUNT k) 31 0) (s.countCE k addr syn) :=
    ((logCE_regs _ k addr syn).mono (by simp)).trans ((bucketUp_regs _ k).mono (by simp))
  have hne : kindReg Reg.CE_COUNT k ∉ kindReg Reg.BKT_STAT k :: logRegs k := by
    simp [mem_logRegs, kindReg, Reg.CE_COUNT, Reg.LOG_STAT, Reg.LOG_LO, Reg.LOG_HI]
    omega
  rw [hlater _ hne (by rw [blockOf_kindReg (by decide) (by decide)]; decide), s.reg_satInc_word]

theorem countUE_count (s : State) (k addr syn : Nat) : ((s.countUE k addr syn).reg (kindReg Reg.UE_COUNT k)).toNat =
    min ((s.reg (kindReg Reg.UE_COUNT k)).toNat + 1) (2 ^ 32 - 1) := by
  have hlater : RegsBut [kindReg Reg.UE_HI k, kindReg Reg.UE_LO k] (s.satInc (kindReg Reg.UE_COUNT k) 31 0)
      (s.countUE k addr syn) := (RegsBut.refl _ _).record
    ((((RegsBut.refl _ _).setReg _ (by simp)).setFld _ _ _ (by simp)).setFld _ _ _ (by simp)) (by simp)
  rw [hlater _ (by simp [kindReg]) (by rw [blockOf_kindReg (by decide) (by decide)]; decide), s.reg_satInc_word]

/-! A scrub of one word of the secure region (R300, R301, R303) -/

theorem State.secReadWord_fixed {pos syn : Nat} (h : (decode72 (s.secCell u)).2 = .fixed pos syn) :
    s.secReadWord u = (s.countCE 1 (secBaseAddr + 8 * u) syn, (decode72 (s.secCell u)).1, false) := by
  simp [State.secReadWord, h]

theorem State.secReadWord_bad {syn : Nat} (h : (decode72 (s.secCell u)).2 = .bad syn) : s.secReadWord u =
    ((s.countUE 1 (secBaseAddr + 8 * u) syn).fire 53, (decode72 (s.secCell u)).1, true) := by
  simp [State.secReadWord, h]

/-- The registers that a correctable error of kind 1, or an uncorrectable one, changes. -/
def secErrorRegs : List Nat := (kindReg Reg.CE_COUNT 1 :: kindReg Reg.BKT_STAT 1 :: logRegs 1) ++ ueRegs 1

theorem not_mem_secErrorRegs_scrubCfg : kindReg Reg.SCRUB_CFG 1 ∉ secErrorRegs := by decide

theorem secReadWord_regs (s : State) (u : Nat) : RegsBut secErrorRegs s (s.secReadWord u).1 := by
  cases h : (decode72 (s.secCell u)).2 with
  | clean => rw [State.secReadWord_clean h]; exact RegsBut.refl _ s
  | fixed pos syn =>
    rw [State.secReadWord_fixed h]
    exact (countCE_regs s 1 _ syn).mono (List.subset_append_left _ _)
  | bad syn =>
    rw [State.secReadWord_bad h]
    exact ((countUE_regs s 1 _ syn).mono (List.subset_append_right _ _)).fire 53

/-- A path that names no memory leaves the memories. -/
theorem Keeps.mem_eq {fs : List Zone} (h : Keeps fs s t) (hsp : Zone.inList .sp fs = false) (hsec : Zone.inList .sec fs = false)
    (hddr : Zone.inList .ddr fs = false) (hmemo : Zone.inList .memo fs = false) : t.mem = s.mem := by
  obtain ⟨hspCells, hspBase⟩ := h.only .sp hsp
  obtain ⟨hsecCells, hsecBase⟩ := h.only .sec hsec
  have hddrCells : t.mem.ddr = s.mem.ddr := h.only .ddr hddr
  have hrest : t.mem = { s.mem with sp := t.mem.sp, spBase := t.mem.spBase, sec := t.mem.sec, secBase := t.mem.secBase,
                                    ddr := t.mem.ddr } := h.only .memo hmemo
  exact hrest.trans (by rw [hspCells, hspBase, hsecCells, hsecBase, hddrCells])

theorem secReadWord_mem (s : State) (u : Nat) : (s.secReadWord u).1.mem = s.mem :=
  Keeps.mem_eq (fs := [.block 1, .out, .block 8]) (State.secReadWord_keeps s u (Keeps.rfl' _ s) (by decide)) (by decide)
    (by decide) (by decide) (by decide)

theorem State.setSecCell_mem_congr (h : t.mem = s.mem) (u : Nat) (w : Word72) :
    (t.setSecCell u w).mem = (s.setSecCell u w).mem := by simp only [State.setSecCell, h]

/-- What a scrub of a word of the secure region does to it: it is read, and a corrected word is written back unless it was
written since. -/
theorem State.scrubOne_secure (hwipe : s.bit Reg.MEM_STAT 2 = false) (dropped : Bool) :
    (s.scrubOne 1 u dropped = (s.secReadWord u).1.useFree ∧
      ((∀ pos syn, (decode72 (s.secCell u)).2 ≠ .fixed pos syn) ∨ dropped = true)) ∨
    (s.scrubOne 1 u dropped = ((s.secReadWord u).1.setSecCell u (encode72 (s.secReadWord u).2.1)).useFree ∧
      (∃ pos syn, (decode72 (s.secCell u)).2 = .fixed pos syn) ∧ dropped = false) := by
  cases h : (decode72 (s.secCell u)).2 with
  | clean => exact .inl ⟨by simp [State.scrubOne, hwipe, h], .inl fun _ _ => nofun⟩
  | bad syn => exact .inl ⟨by simp [State.scrubOne, hwipe, h], .inl fun _ _ => nofun⟩
  | fixed pos syn =>
    cases dropped with
    | true => exact .inl ⟨by simp [State.scrubOne, hwipe, h], .inr rfl⟩
    | false => exact .inr ⟨by simp [State.scrubOne, hwipe, h], ⟨pos, syn, rfl⟩, rfl⟩

section ScrubOne

variable (hwipe : s.bit Reg.MEM_STAT 2 = false) (dropped : Bool)
include hwipe

theorem scrubOne_secure_keeps {fs : List Zone} (hF : subF [.block 1, .out, .block 8, .free, .sec] fs = true) :
    Keeps fs s (s.scrubOne 1 u dropped) := by
  have hread := State.secReadWord_keeps s u (Keeps.rfl' fs s) (subF_trans (by decide) hF)
  rcases State.scrubOne_secure (u := u) hwipe dropped with ⟨h, -⟩ | ⟨h, -⟩ <;> rw [h]
  · exact State.useFree_keeps _ hread (subF_trans (by decide) hF)
  · exact State.useFree_keeps _ (State.setSecCell_keeps _ _ _ hread (subF_trans (by decide) hF)) (subF_trans (by decide) hF)

theorem scrubOne_secure_reg (u a : Nat) : (s.scrubOne 1 u dropped).reg a = (s.secReadWord u).1.reg a := by
  rcases State.scrubOne_secure (u := u) hwipe dropped with ⟨h, -⟩ | ⟨h, -⟩ <;> rw [h] <;> rfl

theorem scrubOne_secure_mem_kept
    (h : (∀ pos syn, (decode72 (s.secCell u)).2 ≠ .fixed pos syn) ∨ dropped = true) :
    (s.scrubOne 1 u dropped).mem = s.mem := by
  rcases State.scrubOne_secure (u := u) hwipe dropped with ⟨he, -⟩ | ⟨-, ⟨pos, syn, hfixed⟩, hkeep⟩
  · rw [he]; exact secReadWord_mem s u
  · rcases h with h | h
    · exact absurd hfixed (h pos syn)
    · exact absurd (h.symm.trans hkeep) (by decide)

theorem scrubOne_secure_mem_fixed {pos syn : Nat} (h : (decode72 (s.secCell u)).2 = .fixed pos syn) (hd : dropped = false) :
    (s.scrubOne 1 u dropped).mem = (s.setSecCell u (encode72 (decode72 (s.secCell u)).1)).mem := by
  rcases State.scrubOne_secure (u := u) hwipe dropped with ⟨-, hno | hno⟩ | ⟨he, -⟩
  · exact absurd h (hno pos syn)
  · exact absurd (hno.symm.trans hd) (by decide)
  · rw [he, State.secReadWord_fixed h]
    exact State.setSecCell_mem_congr (by rw [← secReadWord_mem s u, State.secReadWord_fixed h]) u _

end ScrubOne

/-! The pointer and the end of a pass (R300) -/

/-- The scrubber of kind `k` goes on at unit `next`. -/
def State.moveScrub (s : State) (k next : Nat) : State :=
  { s with mem := { s.mem with scrubPtr := Store.set (fun _ => 0) s.mem.scrubPtr k next } }

/-- The scrubber of kind `k` has completed a pass. -/
def State.endPass (s : State) (k : Nat) : State :=
  (s.setFld (kindReg Reg.SCRUB_CFG k) 31 24 (s.fld (kindReg Reg.SCRUB_CFG k) 31 24 + 1)).fire 58

/-- A change of what the memories hold beside their words. -/
theorem Keeps.withMemo {fs : List Zone} {s0 : State} (h : Keeps fs s0 s) (m : Mem)
    (hsp : m.sp = s.mem.sp ∧ m.spBase = s.mem.spBase) (hsec : m.sec = s.mem.sec ∧ m.secBase = s.mem.secBase)
    (hddr : m.ddr = s.mem.ddr) (hm : Zone.inList .memo fs = true) : Keeps fs s0 { s with mem := m } where
  only f hf := by
    have h0 := h.only f hf
    cases f
    case memo => exact absurd hm (by simp [hf])
    case sp => exact ⟨hsp.1.trans h0.1, hsp.2.trans h0.2⟩
    case sec => exact ⟨hsec.1.trans h0.1, hsec.2.trans h0.2⟩
    case ddr => exact hddr.trans h0
    all_goals exact h0
  canon hc := by
    rw [canonical_iff]
    simpa only [hsp.1, hsp.2, hsec.1, hsec.2, hddr] using (canonical_iff s).mp (h.canon hc)
  queue := h.queue
  out := h.out

theorem moveScrub_keeps {fs : List Zone} {s0 : State} (k next : Nat) (h : Keeps fs s0 s) (hm : Zone.inList .memo fs = true) :
    Keeps fs s0 (s.moveScrub k next) := h.withMemo _ ⟨rfl, rfl⟩ ⟨rfl, rfl⟩ rfl hm

theorem endPass_keeps {fs : List Zone} {s0 : State} (k : Nat) (h : Keeps fs s0 s)
    (hF : subF [.block 1, .out, .block 8] fs = true) : Keeps fs s0 (s.endPass k) :=
  State.fire_keeps _ _ (setFld_keeps _ _ _ _ h (alwB hF 8 (blockOf_kindReg (by decide) (by decide) k) (by decide)))
    (subF_trans (by decide) hF)

theorem exec_scrubAccess (s : State) (k : Nat) (dropped : Bool) :
    exec (.scrubAccess k dropped) s = .next (s.scrub k dropped) := rfl

theorem State.scrub_off (h : s.fld (kindReg Reg.SCRUB_CFG k) 15 0 = 0) (dropped : Bool) : s.scrub k dropped = s := by
  have hunit : s.scrubUnit k = none := if_pos h
  rw [State.scrub, hunit]

/-- The state between the visit of word `u` of the secure region and the end of a pass. -/
def State.secVisited (s : State) (u : Nat) (dropped : Bool) : State :=
  (s.scrubOne 1 u dropped).moveScrub 1 ((u + 1) % 0x8000)

theorem State.scrub_secure (hon : s.fld (kindReg Reg.SCRUB_CFG 1) 15 0 ≠ 0) (hu : Store.get (fun _ => 0) s.mem.scrubPtr 1 = u)
    (hlt : u < 0x8000) (dropped : Bool) : s.scrub 1 dropped =
      if u = 0x7FFF then (s.secVisited u dropped).endPass 1 else s.secVisited u dropped := by
  have hunit : s.scrubUnit 1 = some u := by
    rw [State.scrubUnit, if_neg hon]
    simp only [hu, if_pos hlt]
  have hlast : s.scrubLast 1 u = decide (u = 0x7FFF) := Bool.eq_iff_iff.mpr (by simp [State.scrubLast])
  have hnext : (u + 1) % 0x8000 = if u = 0x7FFF then 0 else u + 1 := by split <;> omega
  rw [State.scrub, hunit]
  simp only [hlast, decide_eq_true_eq, State.secVisited, State.moveScrub, hnext]
  rfl

section Scrub

variable (hon : s.fld (kindReg Reg.SCRUB_CFG 1) 15 0 ≠ 0) (hu : Store.get (fun _ => 0) s.mem.scrubPtr 1 = u) (hlt : u < 0x8000)
  (dropped : Bool)
include hon hu hlt

theorem scrub_secure_mem : (s.scrub 1 dropped).mem = (s.secVisited u dropped).mem := by
  rw [State.scrub_secure hon hu hlt]
  split
  · rw [State.endPass, State.fire_mem]; rfl
  · rfl

theorem scrub_secure_sec : (s.scrub 1 dropped).mem.sec = (s.scrubOne 1 u dropped).mem.sec := by
  rw [scrub_secure_mem hon hu hlt]; rfl

theorem scrub_secure_ptr : Store.get (fun _ => 0) (s.scrub 1 dropped).mem.scrubPtr 1 = (u + 1) % 0x8000 := by
  rw [scrub_secure_mem hon hu hlt]
  exact Store.get_set_same _ _ _ _

theorem scrub_secure_regs : RegsBut [kindReg Reg.SCRUB_CFG 1] (s.scrubOne 1 u dropped) (s.scrub 1 dropped) := by
  have hvisited : RegsBut [kindReg Reg.SCRUB_CFG 1] (s.scrubOne 1 u dropped) (s.secVisited u dropped) := fun _ _ _ => rfl
  rw [State.scrub_secure hon hu hlt]
  split
  · exact (hvisited.setFld _ _ _ (by simp)).fire 58
  · exact hvisited

theorem scrub_secure_keepsPending : KeepsPending (s.scrubOne 1 u dropped) (s.scrub 1 dropped) := by
  have hvisited : KeepsPending (s.scrubOne 1 u dropped) (s.secVisited u dropped) := fun _ => id
  rw [State.scrub_secure hon hu hlt]
  split
  · exact (hvisited.setReg _ (by decide)).fire 58
  · exact hvisited

variable (hwipe : s.bit Reg.MEM_STAT 2 = false)
include hwipe

theorem scrub_secure_keeps : Keeps [.memo, .block 1, .out, .block 8, .free, .sec] s (s.scrub 1 dropped) := by
  have hvisited : Keeps [.memo, .block 1, .out, .block 8, .free, .sec] s (s.secVisited u dropped) :=
    moveScrub_keeps _ _ (scrubOne_secure_keeps hwipe dropped (by decide)) (by decide)
  rw [State.scrub_secure hon hu hlt]
  split
  · exact endPass_keeps 1 hvisited (by decide)
  · exact hvisited

/-- At the end of the range the pass is counted, and source 58 is pending. -/
theorem scrub_secure_wraps (h : u = 0x7FFF) : (s.scrub 1 dropped).pends 58 = true ∧
    (s.scrub 1 dropped).fld (kindReg Reg.SCRUB_CFG 1) 31 24 = (s.fld (kindReg Reg.SCRUB_CFG 1) 31 24 + 1) % 256 := by
  have hcfg : (s.secVisited u dropped).reg (kindReg Reg.SCRUB_CFG 1) = s.reg (kindReg Reg.SCRUB_CFG 1) :=
    (scrubOne_secure_reg hwipe dropped u _).trans (secReadWord_regs s u _ not_mem_secErrorRegs_scrubCfg (by decide))
  rw [State.scrub_secure hon hu hlt, if_pos h]
  refine ⟨State.pends_fire_self _ 58, ?_⟩
  rw [State.endPass, State.fld_fire _ _ _ _ (by decide), State.fld_setFld_same _ _ _ (by decide) (by decide),
    State.fld_congr 31 24 hcfg]
  norm_num

/-- A count that only the visit changes. -/
theorem scrub_secure_reg {a : Nat} (ha : a ≠ kindReg Reg.SCRUB_CFG 1) (h1 : blockOf a ≠ 1) :
    (s.scrub 1 dropped).reg a = (s.secReadWord u).1.reg a :=
  (scrub_secure_regs hon hu hlt dropped a (by simpa using ha) h1).trans (scrubOne_secure_reg hwipe dropped u a)

theorem scrub_secure_pends {i : Nat} (h : (s.secReadWord u).1.pends i = true) : (s.scrub 1 dropped).pends i = true :=
  scrub_secure_keepsPending hon hu hlt dropped i ((State.bit_congr _ (scrubOne_secure_reg hwipe dropped u _)).trans h)

/-- What a scrub leaves of the memories: those of the visited state, but for the pointer. -/
theorem scrub_secure_frame : (∀ j, j ≠ u → Store.get (fun _ => s.mem.secBase) (s.scrub 1 dropped).mem.sec j =
      Store.get (fun _ => s.mem.secBase) s.mem.sec j) ∧
    (s.scrub 1 dropped).mem =
      { s.mem with scrubPtr := (s.scrub 1 dropped).mem.scrubPtr, sec := (s.scrub 1 dropped).mem.sec } := by
  rw [scrub_secure_mem hon hu hlt]
  have hmem : (s.scrubOne 1 u dropped).mem = s.mem ∨ ∃ w, (s.scrubOne 1 u dropped).mem = (s.setSecCell u w).mem := by
    rcases State.scrubOne_secure (u := u) hwipe dropped with ⟨he, -⟩ | ⟨he, -⟩ <;> rw [he]
    · exact .inl (secReadWord_mem s u)
    · exact .inr ⟨_, State.setSecCell_mem_congr (secReadWord_mem s u) u _⟩
  simp only [State.secVisited, State.moveScrub]
  rcases hmem with h | ⟨w, h⟩ <;> rw [h]
  · exact ⟨fun _ _ => rfl, rfl⟩
  · exact ⟨fun j hj => s.sec_setSecCell_other w hj, rfl⟩

theorem scrub_secure_clean (h : (decode72 (s.secCell u)).2 = .clean) : (s.scrub 1 dropped).mem.sec = s.mem.sec ∧
    (s.scrub 1 dropped).reg (kindReg Reg.CE_COUNT 1) = s.reg (kindReg Reg.CE_COUNT 1) ∧
    (s.scrub 1 dropped).reg (kindReg Reg.UE_COUNT 1) = s.reg (kindReg Reg.UE_COUNT 1) := by
  have hmem := scrubOne_secure_mem_kept (u := u) hwipe dropped (.inl fun pos syn => by simp [h])
  refine ⟨?_, ?_, ?_⟩
  · rw [scrub_secure_sec hon hu hlt, hmem]
  · rw [scrub_secure_reg hon hu hlt dropped hwipe (by decide) (by decide), State.secReadWord_clean h]
  · rw [scrub_secure_reg hon hu hlt dropped hwipe (by decide) (by decide), State.secReadWord_clean h]

theorem scrub_secure_fixed {pos syn : Nat} (h : (decode72 (s.secCell u)).2 = .fixed pos syn) :
    (if dropped then (s.scrub 1 dropped).mem.sec = s.mem.sec
      else (s.scrub 1 dropped).secCell u = encode72 (decode72 (s.secCell u)).1) ∧
    ((s.scrub 1 dropped).reg (kindReg Reg.CE_COUNT 1)).toNat = min ((s.reg (kindReg Reg.CE_COUNT 1)).toNat + 1) (2 ^ 32 - 1) ∧
    (s.scrub 1 dropped).reg (kindReg Reg.UE_COUNT 1) = s.reg (kindReg Reg.UE_COUNT 1) := by
  refine ⟨?_, ?_, ?_⟩
  · cases dropped with
    | true =>
      rw [if_pos rfl, scrub_secure_sec hon hu hlt, scrubOne_secure_mem_kept hwipe true (.inr rfl)]
    | false =>
      have hmem := scrubOne_secure_mem_fixed (u := u) hwipe false h rfl
      rw [if_neg (by decide)]
      refine State.secCell_of_get ?_
      rw [scrub_secure_mem hon hu hlt, State.secVisited, State.moveScrub, hmem]
      exact s.sec_setSecCell_same u _
  · rw [scrub_secure_reg hon hu hlt dropped hwipe (by decide) (by decide), State.secReadWord_fixed h, countCE_count]
  · rw [scrub_secure_reg hon hu hlt dropped hwipe (by decide) (by decide), State.secReadWord_fixed h]
    exact countCE_regs s 1 _ syn _ (by decide) (by decide)

theorem scrub_secure_bad {syn : Nat} (h : (decode72 (s.secCell u)).2 = .bad syn) : (s.scrub 1 dropped).mem.sec = s.mem.sec ∧
    (s.scrub 1 dropped).reg (kindReg Reg.CE_COUNT 1) = s.reg (kindReg Reg.CE_COUNT 1) ∧ (s.scrub 1 dropped).pends 53 = true ∧
    ((s.scrub 1 dropped).reg (kindReg Reg.UE_COUNT 1)).toNat = min ((s.reg (kindReg Reg.UE_COUNT 1)).toNat + 1) (2 ^ 32 - 1) := by
  have hmem := scrubOne_secure_mem_kept (u := u) hwipe dropped (.inl fun pos syn => by simp [h])
  refine ⟨?_, ?_, ?_, ?_⟩
  · rw [scrub_secure_sec hon hu hlt, hmem]
  · rw [scrub_secure_reg hon hu hlt dropped hwipe (by decide) (by decide), State.secReadWord_bad h,
      State.reg_fire _ _ (by decide)]
    exact countUE_regs s 1 _ syn _ (by decide) (by decide)
  · refine scrub_secure_pends hon hu hlt dropped hwipe ?_
    rw [State.secReadWord_bad h]
    exact State.pends_fire_self _ 53
  · rw [scrub_secure_reg hon hu hlt dropped hwipe (by decide) (by decide), State.secReadWord_bad h,
      State.reg_fire _ _ (by decide), countUE_count]

end Scrub

/-- Settles O35: each command's next state, clause by clause; a scrub is the visit of a word (`scrubOne_secure`) and then the
pointer and the end of a pass (`scrub_secure`). -/
theorem memoryHousekeeping : Obligations.MemoryHousekeeping := by
  intro s refused
  refine ⟨memFillStart_does s, fillDone_does, fun h => ?_, fun k v hk => ?_, fun b e v hb he => ?_, fun k dropped hk h => ?_,
    fun dropped hon hwipe => ?_⟩
  · rw [exec_fillDone, State.fillDone_idle h]
  · rw [← kindReg_of_lt hk, ← kindReg_of_lt hk, ← kindReg_of_lt hk]
    exact ⟨bucketLeak_does s k, bktCfgWrite_does k,
      fun h => does_cfgRefused ((exec_bktCfgWrite s k v).trans (congrArg _ (State.bktCfgWrite_illegal h))), logStatAck_does s k v⟩
  · intro r named legal
    have hnamed : named ↔ s.remapNamed b e (bitsOf v 15 0) := exists_congr fun i => and_congr_right fun hi => by
      rw [remapReg_of_lt hb hi]
    have hlegal : legal ↔ s.remapLegal b e v := by
      rw [State.remapLegal, ← hnamed, remapReg_of_lt hb he]
    rw [hlegal]
    refine ⟨fun h => ?_, fun h => does_cfgRefused ((exec_remapWrite s b e v).trans (congrArg _ (State.remapWrite_illegal h)))⟩
    have hdoes := remapWrite_does h
    rwa [remapReg_of_lt hb he] at hdoes
  · rw [exec_scrubAccess, State.scrub_off (by rwa [kindReg_of_lt hk])]
  · intro u found ce ue hlt
    obtain ⟨hother, hmem⟩ := scrub_secure_frame hon rfl hlt dropped hwipe
    refine does_of_keeps (exec_scrubAccess s 1 dropped) (scrub_secure_keeps hon rfl hlt dropped hwipe)
      ⟨scrub_secure_ptr hon rfl hlt dropped, scrub_secure_wraps hon rfl hlt dropped hwipe, hother, hmem, ?_⟩
    split
    · next h => exact scrub_secure_clean hon rfl hlt dropped hwipe h
    · next h => exact scrub_secure_fixed hon rfl hlt dropped hwipe h
    · next h => exact scrub_secure_bad hon rfl hlt dropped hwipe h

end Sys2Proof.Machine
end

section
/-! Proofs about tamper wipes, life-cycle requests and the start of LPDDR5 (O36). -/

namespace Sys2Proof.Machine

variable {s t : State} {trig : Nat} {v : Word}

/-! Tamper triggers and wipes (R307 to R309, R324) -/

theorem exec_tamperTrigger (s : State) (trig : Nat) : exec (.tamperTrigger trig) s = .next (s.tamper trig) := rfl

theorem State.tamper_unarmed (h : s.tamperArmed trig = false) : s.tamper trig = s := if_pos (by rw [h]; rfl)

theorem State.tamperArmed_awake (hmode : s.pwr.mode = .run ∨ s.pwr.mode = .idle ∨ s.pwr.mode = .sleep)
    (htrig : trig ∈ [0, 1, 2, 5, 6]) : s.tamperArmed trig = true := by
  simp only [List.mem_cons, List.not_mem_nil, or_false] at htrig
  rcases hmode with h | h | h <;> simpa [State.tamperArmed, h, or_assoc] using htrig

theorem State.tamperArmed_deep (hmode : s.pwr.mode = .deep) : s.tamperArmed trig = (trig == 5 || trig == 6) := by
  simp [State.tamperArmed, hmode]

/-- A tamper event is shown: its trigger's bit. -/
def State.tamperSeen (s : State) (trig : Nat) : State := s.setBit Reg.TAMPER_STAT trig true

/-- A wipe starts: SINCE_START, WIPES and SEC_WIPE_BUSY. -/
def State.wipeStart (s : State) : State :=
  ((s.setBit Reg.TAMPER_STAT 4 true).setFld Reg.TAMPER_STAT 31 24 (s.fld Reg.TAMPER_STAT 31 24 + 1)).setBit Reg.MEM_STAT 2 true

theorem State.tamper_awake (harmed : s.tamperArmed trig = true) (hmode : s.pwr.mode ≠ .deep) : s.tamper trig =
    if s.bit Reg.MEM_STAT 2 then s.tamperSeen trig else (s.tamperSeen trig).wipeStart := by
  have hwipe : (s.tamperSeen trig).bit Reg.MEM_STAT 2 = s.bit Reg.MEM_STAT 2 := s.bit_setBit_other _ _ _ (by decide)
  rw [State.tamper, if_neg (by simp [harmed]), if_neg hmode, ← hwipe]
  rfl

theorem tamperTrigger_awake (hmode : s.pwr.mode = .run ∨ s.pwr.mode = .idle ∨ s.pwr.mode = .sleep)
    (htrig : trig ∈ [0, 1, 2, 5, 6]) : Does (.tamperTrigger trig) s [.block 8] fun t =>
      t.bit Reg.TAMPER_STAT trig = true ∧ t.bit Reg.MEM_STAT 2 = true ∧
        (s.bit Reg.MEM_STAT 2 = false → t.bit Reg.TAMPER_STAT 4 = true ∧
          t.fld Reg.TAMPER_STAT 31 24 = (s.fld Reg.TAMPER_STAT 31 24 + 1) % 256) ∧
        (s.bit Reg.MEM_STAT 2 = true → t.fld Reg.TAMPER_STAT 31 24 = s.fld Reg.TAMPER_STAT 31 24) ∧
        RegsBut [Reg.TAMPER_STAT, Reg.MEM_STAT] s t := by
  obtain ⟨hlt, hne⟩ : trig < 24 ∧ trig ≠ 4 := by
    simp only [List.mem_cons, List.not_mem_nil, or_false] at htrig
    omega
  have hdeep : s.pwr.mode ≠ .deep := by rcases hmode with h | h | h <;> rw [h] <;> decide
  have hseen : (s.tamperSeen trig).bit Reg.TAMPER_STAT trig = true := s.bit_setBit_same _ true (by omega)
  have hwipes : (s.tamperSeen trig).fld Reg.TAMPER_STAT 31 24 = s.fld Reg.TAMPER_STAT 31 24 :=
    s.fld_setBit_disjoint _ true (by omega) (by omega)
  have hregs : RegsBut [Reg.TAMPER_STAT, Reg.MEM_STAT] s (s.tamperSeen trig) := (RegsBut.refl _ s).setBit _ _ (by simp)
  have hkeeps : Keeps [.block 8] s (s.tamperSeen trig) := setBit_keeps _ _ _ (Keeps.rfl' _ s) (by decide)
  have heq := State.tamper_awake (State.tamperArmed_awake hmode htrig) hdeep
  cases hwipe : s.bit Reg.MEM_STAT 2 with
  | true =>
    rw [hwipe, if_pos rfl] at heq
    refine does_of_keeps ((exec_tamperTrigger s trig).trans (congrArg _ heq)) hkeeps
      ⟨hseen, ?_, fun h => (nomatch h), fun _ => hwipes, hregs⟩
    exact (s.bit_setBit_other _ _ _ (by decide)).trans hwipe
  | false =>
    rw [hwipe, if_neg (by decide)] at heq
    refine does_of_keeps ((exec_tamperTrigger s trig).trans (congrArg _ heq))
      (setBit_keeps _ _ _ (setFld_keeps _ _ _ _ (setBit_keeps _ _ _ hkeeps (by decide)) (by decide)) (by decide))
      ⟨?_, State.bit_setBit_same _ _ _ (by decide), fun _ => ⟨?_, ?_⟩, fun h => (nomatch h),
        ((hregs.setBit _ _ (by simp)).setFld _ _ _ (by simp)).setBit _ _ (by simp)⟩
    · rw [State.wipeStart, State.bit_setBit_other _ _ _ _ (by decide),
        State.bit_setFld_disjoint _ _ _ (by decide) (by decide) (.inl hlt), State.bit_setBit_bit _ _ _ (by decide) hne, hseen]
    · rw [State.wipeStart, State.bit_setBit_other _ _ _ _ (by decide),
        State.bit_setFld_disjoint _ _ _ (by decide) (by decide) (by decide), State.bit_setBit_same _ _ _ (by decide)]
    · rw [State.wipeStart, State.fld_setBit_other _ _ _ _ _ (by decide), State.fld_setFld_same _ _ _ (by decide) (by decide),
        hwipes]
      norm_num

theorem State.secCell_of_zero (hsec : s.mem.sec = []) (hbase : s.mem.secBase = some 0) (k : Nat) : s.secCell k = 0 := by
  simp [State.secCell, cell72, hsec, hbase, Store.get]

theorem tamperTrigger_deep (hmode : s.pwr.mode = .deep) (htrig : trig = 5 ∨ trig = 6) :
    Does (.tamperTrigger trig) s [.sec, .memo] fun t =>
      (∀ k, t.secCell k = 0) ∧ t.mem.wipeRec = s.mem.wipeRec ||| 2 ^ trig := by
  have harmed : s.tamperArmed trig = true := by
    rw [State.tamperArmed_deep hmode]; rcases htrig with rfl | rfl <;> rfl
  have heq : s.tamper trig = { s.secZero with mem := { s.secZero.mem with wipeRec := s.mem.wipeRec ||| 2 ^ trig } } := by
    rw [State.tamper, if_neg (by simp [harmed]), if_pos hmode]
  exact does_of_keeps ((exec_tamperTrigger s trig).trans (congrArg _ heq))
    ((State.secZero_keeps _ (Keeps.rfl' _ s) (by decide)).withMemo _ ⟨rfl, rfl⟩ ⟨rfl, rfl⟩ rfl (by decide))
    ⟨State.secCell_of_zero rfl rfl, rfl⟩

theorem tamperTrigger_ignored (h : s.pwr.mode = .off ∨ (s.pwr.mode = .deep ∧ trig ≠ 5 ∧ trig ≠ 6)) :
    exec (.tamperTrigger trig) s = .next s := by
  have harmed : s.tamperArmed trig = false := by
    rcases h with h | ⟨h, h5, h6⟩
    · simp [State.tamperArmed, h]
    · simp [State.tamperArmed_deep h, h5, h6]
  rw [exec_tamperTrigger, State.tamper_unarmed harmed]

theorem exec_secureWipeDone (s : State) : exec .secureWipeDone s = .next s.wipeDone := rfl

theorem State.wipeDone_busy (h : s.bit Reg.MEM_STAT 2 = true) : s.wipeDone =
    (s.secZero.setBit Reg.MEM_STAT 2 false).fireIf (s.bit Reg.TAMPER_STAT 4) 57 := if_pos h

theorem State.wipeDone_idle (h : s.bit Reg.MEM_STAT 2 = false) : s.wipeDone = s := if_neg (by simp [h])

theorem secureWipeDone_does (h : s.bit Reg.MEM_STAT 2 = true) : Does .secureWipeDone s [.block 1, .out, .block 8, .sec] fun t =>
    (∀ k, t.secCell k = 0) ∧ t.bit Reg.MEM_STAT 2 = false ∧ (s.bit Reg.TAMPER_STAT 4 = true → t.pends 57 = true) ∧
      RegsBut [Reg.MEM_STAT] s t := by
  refine does_of_keeps (exec_secureWipeDone s) (State.wipeDone_keeps _ (Keeps.rfl' _ s) (by decide)) ?_
  have hzero : RegsBut [Reg.MEM_STAT] s s.secZero := fun _ _ _ => rfl
  rw [State.wipeDone_busy h]
  refine ⟨State.secCell_of_zero (by simp [State.secZero]) (by simp [State.secZero]), ?_, pends_fireIf_self _ 57,
    (hzero.setBit _ _ (by simp)).fireIf _ 57⟩
  rw [State.bit_fireIf _ _ _ _ (by decide), State.bit_setBit_same _ _ _ (by decide)]

/-! Life-cycle requests (R311, R312, R325) -/

theorem exec_lcReqWrite (s : State) (v : Word) : exec (.lcReqWrite v) s = .next (s.lcReqWrite v) := rfl

theorem lcPermitted_iff (old new : Nat) : lcPermitted old new = true ↔
    (old, new) ∈ [(0, 1), (0, 2), (0, 4), (1, 4), (2, 3), (2, 4), (3, 4)] := by
  simp [lcPermitted]
  omega

theorem lcPermitted_self (n : Nat) : lcPermitted n n = false := by
  rw [← Bool.not_eq_true, lcPermitted_iff]
  simp
  omega

/-- A write to LC_REQ first clears REJECTED where its bit is 1. -/
def State.lcClear (s : State) (v : Word) : State := if v.getLsbD 8 then s.setBit Reg.LC_REQ 8 false else s

/-- LC_REQ shows a request for `tgt` as pending, or none, and the record in flash holds `req`. -/
def State.lcShow (s : State) (pending : Bool) (tgt : Nat) (req : Option Nat) : State :=
  { (s.setBit Reg.LC_REQ 9 pending).setFld Reg.LC_REQ 2 0 tgt with mem := { s.mem with lcReq := req } }

theorem State.lcReqWrite_eq (s : State) (v : Word) : s.lcReqWrite v =
    if bitsOf v 31 24 = 0 then s.lcClear v
    else if bitsOf v 31 24 = 0xC5 ∧ lcPermitted (s.fld Reg.LC_STATE 2 0) (bitsOf v 2 0) = true then
      (s.lcClear v).lcShow true (bitsOf v 2 0) (some (bitsOf v 2 0))
    else if bitsOf v 31 24 = 0xC5 ∧ bitsOf v 2 0 = s.fld Reg.LC_STATE 2 0 then
      (s.lcClear v).lcShow false (s.fld Reg.LC_STATE 2 0) none
    else (s.lcClear v).cfgRefused := by
  have hstate : (s.lcClear v).fld Reg.LC_STATE 2 0 = s.fld Reg.LC_STATE 2 0 := by
    unfold State.lcClear
    split
    · exact s.fld_setBit_other _ _ _ _ (by decide)
    · rfl
  rw [← hstate]
  rfl

/-- What the write leaves of LC_REQ before its request is judged. -/
theorem lcClear_spec (s : State) (v : Word) : (s.lcClear v).bit Reg.LC_REQ 8 = (s.bit Reg.LC_REQ 8 && !v.getLsbD 8) ∧
    (s.lcClear v).bit Reg.LC_REQ 9 = s.bit Reg.LC_REQ 9 ∧ (s.lcClear v).fld Reg.LC_REQ 2 0 = s.fld Reg.LC_REQ 2 0 ∧
    RegsBut [Reg.LC_REQ] s (s.lcClear v) := by
  obtain ⟨hbit, hfld⟩ := clearBit_fields s Reg.LC_REQ (v.getLsbD 8) (n := 8) (by decide)
  refine ⟨hbit, ?_, hfld 2 0 (by decide), (RegsBut.refl _ s).clearBit _ _ (by simp)⟩
  unfold State.lcClear
  split
  · exact s.bit_setBit_bit _ _ (by decide) (by decide)
  · rfl

theorem lcShow_spec (s : State) (v : Word) (pending : Bool) {tgt : Nat} (req : Option Nat) (htgt : tgt < 8) :
    ((s.lcClear v).lcShow pending tgt req).bit Reg.LC_REQ 9 = pending ∧
    ((s.lcClear v).lcShow pending tgt req).fld Reg.LC_REQ 2 0 = tgt ∧
    ((s.lcClear v).lcShow pending tgt req).mem.lcReq = req ∧
    ((s.lcClear v).lcShow pending tgt req).bit Reg.LC_REQ 8 = (s.bit Reg.LC_REQ 8 && !v.getLsbD 8) ∧
    RegsBut [Reg.LC_REQ] s ((s.lcClear v).lcShow pending tgt req) := by
  obtain ⟨hrejected, -, -, hregs⟩ := lcClear_spec s v
  refine ⟨?_, ?_, rfl, ?_, (hregs.setBit 9 pending (by simp)).setFld 2 0 tgt (by simp)⟩
  · refine (State.bit_setFld_disjoint _ _ _ (by decide) (by decide) (by decide)).trans ?_
    exact State.bit_setBit_same _ _ _ (by decide)
  · exact (State.fld_setFld_same _ _ _ (by decide) (by decide)).trans (Nat.mod_eq_of_lt htgt)
  · refine (State.bit_setFld_disjoint _ _ _ (by decide) (by decide) (by decide)).trans ?_
    exact (State.bit_setBit_bit _ _ _ (by decide) (by decide)).trans hrejected

/-- A request that LC_REQ takes, as pending, or as the cancellation of one. -/
theorem lcReqWrite_shown {pending : Bool} {tgt : Nat} {req : Option Nat} (htgt : tgt < 8)
    (h : s.lcReqWrite v = (s.lcClear v).lcShow pending tgt req) : Does (.lcReqWrite v) s [.block 8, .memo] fun t =>
      t.bit Reg.LC_REQ 9 = pending ∧ t.fld Reg.LC_REQ 2 0 = tgt ∧ t.mem.lcReq = req ∧
        t.bit Reg.LC_REQ 8 = (s.bit Reg.LC_REQ 8 && !v.getLsbD 8) ∧ RegsBut [Reg.LC_REQ] s t :=
  does_of_keeps (exec_lcReqWrite s v) (State.lcReqWrite_keeps _ _ (Keeps.rfl' _ s) (by decide))
    (h ▸ lcShow_spec s v pending req htgt)

theorem lcReqWrite_requested (hconfirm : bitsOf v 31 24 = 0xC5)
    (hperm : lcPermitted (s.fld Reg.LC_STATE 2 0) (bitsOf v 2 0) = true) :
    s.lcReqWrite v = (s.lcClear v).lcShow true (bitsOf v 2 0) (some (bitsOf v 2 0)) := by
  rw [State.lcReqWrite_eq, if_neg (by rw [hconfirm]; decide), if_pos ⟨hconfirm, hperm⟩]

theorem lcReqWrite_cancelled (hconfirm : bitsOf v 31 24 = 0xC5) (hcur : bitsOf v 2 0 = s.fld Reg.LC_STATE 2 0) :
    s.lcReqWrite v = (s.lcClear v).lcShow false (s.fld Reg.LC_STATE 2 0) none := by
  rw [State.lcReqWrite_eq, if_neg (by rw [hconfirm]; decide), if_neg (by simp [hcur, lcPermitted_self]), if_pos ⟨hconfirm, hcur⟩]

theorem lcReqWrite_unconfirmed (hconfirm : bitsOf v 31 24 = 0) : Does (.lcReqWrite v) s [.block 8] fun t =>
    t.bit Reg.LC_REQ 8 = (s.bit Reg.LC_REQ 8 && !v.getLsbD 8) ∧ t.bit Reg.LC_REQ 9 = s.bit Reg.LC_REQ 9 ∧
      t.fld Reg.LC_REQ 2 0 = s.fld Reg.LC_REQ 2 0 ∧ RegsBut [Reg.LC_REQ] s t := by
  have heq : s.lcReqWrite v = s.lcClear v := by rw [State.lcReqWrite_eq, if_pos hconfirm]
  refine does_of_keeps ((exec_lcReqWrite s v).trans (congrArg _ heq)) ?_ (lcClear_spec s v)
  exact keeps_ite (setBit_keeps _ _ _ (Keeps.rfl' _ s) (by decide)) (Keeps.rfl' _ s)

theorem lcReqWrite_refused (h0 : bitsOf v 31 24 ≠ 0) (h : bitsOf v 31 24 ≠ 0xC5 ∨
      (lcPermitted (s.fld Reg.LC_STATE 2 0) (bitsOf v 2 0) = false ∧ bitsOf v 2 0 ≠ s.fld Reg.LC_STATE 2 0)) :
    Does (.lcReqWrite v) s [.block 8] fun t => t.bit Reg.MEM_STAT 4 = true ∧ RegsBut [Reg.MEM_STAT, Reg.LC_REQ] s t := by
  have heq : s.lcReqWrite v = (s.lcClear v).cfgRefused := by
    rw [State.lcReqWrite_eq, if_neg h0, if_neg, if_neg]
    · rintro ⟨hc, hcur⟩
      exact h.elim (· hc) fun hn => hn.2 hcur
    · rintro ⟨hc, hperm⟩
      exact h.elim (· hc) fun hn => by rw [hn.1] at hperm; exact nomatch hperm
  have hclear : Keeps [.block 8] s (s.lcClear v) :=
    keeps_ite (setBit_keeps _ _ _ (Keeps.rfl' _ s) (by decide)) (Keeps.rfl' _ s)
  obtain ⟨-, -, -, hregs⟩ := lcClear_spec s v
  exact does_of_keeps ((exec_lcReqWrite s v).trans (congrArg _ heq)) (State.cfgRefused_keeps _ hclear (by decide))
    ⟨State.bit_setBit_same _ _ true (by decide), (hregs.mono (by simp)).setBit _ _ (by simp)⟩

/-! The start of LPDDR5 (R314, R315, R320, R326) -/

theorem exec_ddrCfgWrite (s : State) (v : Word) : exec (.ddrCfgWrite v) s = .next (s.ddrCfgWrite v) := rfl

theorem State.ddrCfgWrite_refused (h : s.bit Reg.DDR_CFG 31 = true ∨ 1 < bitsOf v 6 5 ∨ 3 < bitsOf v 4 2) :
    s.ddrCfgWrite v = s.cfgRefused := if_pos (by simpa [or_assoc] using h)

theorem State.ddrCfgWrite_taken (hoff : s.bit Reg.DDR_CFG 31 = false) (hranks : bitsOf v 6 5 ≤ 1) (hdens : bitsOf v 4 2 ≤ 3) :
    s.ddrCfgWrite v = s.codeWrite Reg.DDR_CFG v := if_neg (by simp [hoff, hranks, hdens])

/-- Of DDR_CFG the bits of 0x8000017F are RW, and no others change (R326). -/
theorem ddrCfg_codeWrite_bit (s : State) (v : Word) {i : Nat} (hi : (0x8000017F : Nat).testBit i = true) (h32 : i < 32) :
    (s.codeWrite Reg.DDR_CFG v).bit Reg.DDR_CFG i = v.getLsbD i := by
  have hrow : regRow? Reg.DDR_CFG = some ⟨0x8024, 1, 0x10000, 1, 4, 0, 0x8000017F, 0, 0, 0, 0, 0⟩ := by decide
  simp [s.codeWrite_bit v hrow h32, hi]

theorem ddrCfgWrite_does (hoff : s.bit Reg.DDR_CFG 31 = false) (hranks : bitsOf v 6 5 ≤ 1) (hdens : bitsOf v 4 2 ≤ 3) :
    Does (.ddrCfgWrite v) s [.block 8] fun t => t.fld Reg.DDR_CFG 6 0 = bitsOf v 6 0 ∧
      t.bit Reg.DDR_CFG 8 = v.getLsbD 8 ∧ t.bit Reg.DDR_CFG 31 = v.getLsbD 31 ∧ RegsBut [Reg.DDR_CFG] s t := by
  refine does_of_keeps ((exec_ddrCfgWrite s v).trans (congrArg _ (State.ddrCfgWrite_taken hoff hranks hdens)))
    (codeWrite_keeps _ _ (Keeps.rfl' _ s) (by decide))
    ⟨bitsOf_congr fun i _ hi => ddrCfg_codeWrite_bit s v ?_ (by omega), ddrCfg_codeWrite_bit s v (by decide) (by decide),
      ddrCfg_codeWrite_bit s v (by decide) (by decide), s.codeWrite_regsBut _ v⟩
  interval_cases i <;> rfl

theorem exec_ddrTrainingEnd (s : State) (ok cached : Bool) :
    exec (.ddrTrainingEnd ok cached) s = .next (s.ddrTrained ok cached) := rfl

/-- The usable capacity in units of 64 MiB that DDR_CFG gives: 32 a density step and rank, seven eighths with inline SEC-DED. -/
def State.ddrUnits (s : State) : Nat :=
  let units := 32 * (s.fld Reg.DDR_CFG 4 2 + 1) * (s.fld Reg.DDR_CFG 6 5 + 1)
  if s.bit Reg.DDR_CFG 8 then units * 7 / 8 else units

theorem State.ddrUnits_lt (hranks : s.fld Reg.DDR_CFG 6 5 ≤ 1) (hdens : s.fld Reg.DDR_CFG 4 2 ≤ 3) : s.ddrUnits < 512 := by
  have hunits : 32 * (s.fld Reg.DDR_CFG 4 2 + 1) * (s.fld Reg.DDR_CFG 6 5 + 1) ≤ 32 * 4 * 2 :=
    Nat.mul_le_mul (Nat.mul_le_mul_left 32 (by omega)) (by omega)
  unfold State.ddrUnits
  dsimp only
  split <;> omega

/-- Training has succeeded: READY, whether the cached values fitted, the capacity, and the values cached now. -/
def State.ddrReady (s : State) (hit : Bool) : State :=
  { ((s.setBit Reg.DDR_STAT 0 true).setBit Reg.DDR_STAT 1 hit).setFld Reg.DDR_STAT 24 16 s.ddrUnits with
    mem := { s.mem with ddrCache := some s.ddrKey } }

theorem State.ddrTrained_ok (hen : s.bit Reg.DDR_CFG 31 = true) (hready : s.bit Reg.DDR_STAT 0 = false) (cached : Bool) :
    s.ddrTrained true cached = s.ddrReady (cached && s.mem.ddrCache == some s.ddrKey) := by
  rw [State.ddrTrained, if_neg (by simp [hen, hready]), if_pos rfl]
  rfl

theorem State.ddrTrained_fail (hen : s.bit Reg.DDR_CFG 31 = true) (hready : s.bit Reg.DDR_STAT 0 = false) (cached : Bool) :
    s.ddrTrained false cached = (s.setBit Reg.DDR_STAT 4 true).fire 60 := by
  rw [State.ddrTrained, if_neg (by simp [hen, hready]), if_neg (by decide)]

theorem State.ddrUsable_ready (h : s.bit Reg.DDR_STAT 0 = true) : s.ddrUsable = s.fld Reg.DDR_STAT 24 16 * 2 ^ 26 := if_pos h

section Training

variable (hen : s.bit Reg.DDR_CFG 31 = true) (hready : s.bit Reg.DDR_STAT 0 = false) (cached : Bool)
include hen hready

theorem ddrTrainingEnd_ok (hranks : s.fld Reg.DDR_CFG 6 5 ≤ 1) (hdens : s.fld Reg.DDR_CFG 4 2 ≤ 3) :
    Does (.ddrTrainingEnd true cached) s [.block 8, .memo] fun t => t.bit Reg.DDR_STAT 0 = true ∧
      t.fld Reg.DDR_STAT 24 16 = s.ddrUnits ∧ t.ddrUsable = t.fld Reg.DDR_STAT 24 16 * 2 ^ 26 ∧ RegsBut [Reg.DDR_STAT] s t := by
  have hlt : s.ddrUnits < 2 ^ 9 := State.ddrUnits_lt hranks hdens
  have hkeeps : Keeps [.block 8, .memo] s (((s.setBit Reg.DDR_STAT 0 true).setBit Reg.DDR_STAT 1
      (cached && s.mem.ddrCache == some s.ddrKey)).setFld Reg.DDR_STAT 24 16 s.ddrUnits) :=
    setFld_keeps _ _ _ _ (setBit_keeps _ _ _ (setBit_keeps _ _ _ (Keeps.rfl' _ s) (by decide)) (by decide)) (by decide)
  have hbit : (s.ddrReady (cached && s.mem.ddrCache == some s.ddrKey)).bit Reg.DDR_STAT 0 = true := by
    refine (State.bit_setFld_disjoint _ _ _ (by decide) (by decide) (by decide)).trans ?_
    exact (State.bit_setBit_bit _ _ _ (by decide) (by decide)).trans (State.bit_setBit_same _ _ _ (by decide))
  refine does_of_keeps ((exec_ddrTrainingEnd s true cached).trans (congrArg _ (State.ddrTrained_ok hen hready cached)))
    (hkeeps.withMemo _ ⟨rfl, rfl⟩ ⟨rfl, rfl⟩ rfl (by decide)) ⟨hbit, ?_, State.ddrUsable_ready hbit,
      (((RegsBut.refl _ s).setBit _ _ (by simp)).setBit _ _ (by simp)).setFld 24 16 s.ddrUnits (by simp)⟩
  exact (State.fld_setFld_same _ _ _ (by decide) (by decide)).trans (Nat.mod_eq_of_lt hlt)

theorem ddrTrainingEnd_fail : Does (.ddrTrainingEnd false cached) s [.block 8, .block 1, .out] fun t =>
    t.bit Reg.DDR_STAT 4 = true ∧ t.bit Reg.DDR_STAT 0 = false ∧ t.pends 60 = true ∧ RegsBut [Reg.DDR_STAT] s t := by
  refine does_of_keeps ((exec_ddrTrainingEnd s false cached).trans (congrArg _ (State.ddrTrained_fail hen hready cached)))
    (State.fire_keeps _ _ (setBit_keeps _ _ _ (Keeps.rfl' _ s) (by decide)) (by decide))
    ⟨?_, ?_, State.pends_fire_self _ 60, ((RegsBut.refl _ s).setBit _ _ (by simp)).fire 60⟩
  · rw [State.bit_fire _ _ _ (by decide), State.bit_setBit_same _ _ _ (by decide)]
  · rw [State.bit_fire _ _ _ (by decide), State.bit_setBit_bit _ _ _ (by decide) (by decide), hready]

end Training

theorem exec_mr4Poll (s : State) (overtemp : Bool) : exec (.mr4Poll overtemp) s =
    .next (if overtemp && s.bit Reg.DDR_STAT 0 then (s.setBit Reg.DDR_STAT 3 true).fire 60 else s) := rfl

theorem mr4Poll_overtemp (h : s.bit Reg.DDR_STAT 0 = true) : Does (.mr4Poll true) s [.block 8, .block 1, .out] fun t =>
    t.bit Reg.DDR_STAT 3 = true ∧ t.pends 60 = true ∧ RegsBut [Reg.DDR_STAT] s t := by
  refine does_of_keeps ((exec_mr4Poll s true).trans (congrArg _ (if_pos (by rw [h]; rfl))))
    (State.fire_keeps _ _ (setBit_keeps _ _ _ (Keeps.rfl' _ s) (by decide)) (by decide))
    ⟨?_, State.pends_fire_self _ 60, ((RegsBut.refl _ s).setBit _ _ (by simp)).fire 60⟩
  rw [State.bit_fire _ _ _ (by decide), State.bit_setBit_same _ _ _ (by decide)]

/-- Settles O36: each command's next state, clause by clause (`tamper_awake`, `lcReqWrite_eq`, `ddrTrained_ok`), and what that state
shows. -/
theorem wipesLifeCycleAndLpddr5Start : Obligations.WipesLifeCycleAndLpddr5Start := by
  intro s refused
  refine ⟨fun trig => tamperTrigger_awake, fun trig => tamperTrigger_deep, fun trig => tamperTrigger_ignored,
    secureWipeDone_does, fun h => ?_, fun v => ?_, fun v h => ?_, fun v => ddrCfgWrite_does,
    fun cached hen hready => ?_, mr4Poll_overtemp, rfl⟩
  · rw [exec_secureWipeDone, State.wipeDone_idle h]
  · intro cur tgt confirm permitted rejected
    have hperm : permitted ↔ lcPermitted cur tgt = true := (lcPermitted_iff cur tgt).symm
    rw [hperm, Bool.not_eq_true]
    have hcur : cur < 8 := bitsOf_lt _ 2 0
    have htgt : tgt < 8 := bitsOf_lt v 2 0
    exact ⟨fun hc hp => lcReqWrite_shown htgt (lcReqWrite_requested hc hp),
      fun hc ht => lcReqWrite_shown hcur (lcReqWrite_cancelled hc ht), lcReqWrite_unconfirmed, lcReqWrite_refused⟩
  · exact does_cfgRefused ((exec_ddrCfgWrite s v).trans (congrArg _ (State.ddrCfgWrite_refused h)))
  · exact ⟨ddrTrainingEnd_ok hen hready cached, ddrTrainingEnd_fail hen hready cached⟩

end Sys2Proof.Machine
end
